-- ==== Sys2Proof/Word.lean ====
section
/-! DEFINITION. The word types of the V96: 32-bit registers (00, "Registers") and bytes (R11). -/

namespace Sys2Proof

/-- One register word (00, "Registers": registers are 32 bits wide). -/
abbrev Word := BitVec 32

/-- One byte of a packet, a record or an image (R11). -/
abbrev Byte := BitVec 8

/-- A byte string, first byte first. -/
abbrev Bytes := List Byte

end Sys2Proof
end

