-- ==== Sys2Proof/Syntax.lean ====
section
/-! DEFINITION. The commands of the V96: one constructor per row of the command table, with the
    operands each command carries. Requests carry the packet header as received (R336); events of
    the hardware carry what the hardware measured. -/

namespace Sys2Proof

/-- The two sessions of R342. -/
inductive Sess where
  | main
  | service
  deriving DecidableEq, Repr

/-- The header of a received request (R336), with what the endpoint knows of its datagram:
    source address and port (R345), and the instant it reached ETH_A, in ns after the Tick edge of
    the Tick in which it arrived. `len` is the payload length in bytes. -/
structure Hdr where
  queue : Fin 4 := 0
  ordered : Bool := false
  fenceAfter : Bool := false
  noReply : Bool := false
  asyncOk : Bool := false
  tag : BitVec 16 := 0
  session : BitVec 16 := 0
  len : Nat := 0
  hint : Word := 0
  addr : BitVec 128 := 0
  port : BitVec 16 := 0
  multicast : Bool := false
  at_ : Nat := 0
  deriving DecidableEq, Repr

/-- The requests whose payload begins with a kind or an action of which the spec reserves values
    (R61, R148, R219, R265, R291, R356). -/
inductive Kinded where
  | clockSet
  | tileData
  | nozzleForce
  | driveCommand
  | traceArm
  | fence
  deriving DecidableEq, Repr

/-- Why a datagram is not a request the V96 carries out (R338), with its opcode field where a reply
    copies it (R336); `reservedKind` is a request whose kind or action is a reserved value. -/
inductive BadRequest where
  | wrongLength
  | notRequest
  | badCrc (op : BitVec 16)
  | badVersion (op : BitVec 16)
  | unknownOpcode (op : BitVec 16)
  | reservedKind (of_ : Kinded)
  deriving DecidableEq, Repr

/-- The two Ethernet ports (01, "Inventory"). -/
inductive EthPort where
  | a
  | b
  deriving DecidableEq, Repr

/-- The two VPWR inputs (R477). -/
inductive VpwrInput where
  | a
  | b
  deriving DecidableEq, Repr

/-- The SRAM regions of R21, with what the struck word belongs to: a tile frame, the loop slots
    whose state lies in it. -/
inductive EccRegion where
  | tileCache (frame : Fin 128)
  | loopState (slots : List (Fin 32))
  | trace
  | workingMemory
  deriving DecidableEq, Repr

/-- The wake events of R311 and R313, in the order of DEV_WAKE.LAST_CAUSE. -/
inductive WakeCause where
  | packet
  | canFrame
  | event
  | key
  | ecuPower
  | input
  | alarm
  | condition
  | latency
  deriving DecidableEq, Repr

/-- What wakes the V96 from DORMANT (R311, DEV_WAKE.DORM_CAUSE), with the ECU_PWR voltage in mV
    where that is the cause. -/
inductive DormCause where
  | key
  | ecuPower (mv : Nat)
  | alarm
  deriving DecidableEq, Repr

/-- The payload of POWER_POLICY (R316). -/
structure PowerPolicy where
  setLtol : Bool := false
  setAlarm : Bool := false
  dormantNow : Bool := false
  ltol : Word := 0
  alarm : BitVec 64 := 0
  deriving DecidableEq, Repr

/-- The payload of POSE_FIX (R116). -/
structure PoseFix where
  time : BitVec 64
  east : Word
  north : Word
  speed : Word
  heading : BitVec 16
  headingSigma : BitVec 16
  posSigma : BitVec 16
  speedSigma : BitVec 16
  flags : Byte
  quality : Byte
  frame : BitVec 16
  deriving DecidableEq, Repr

/-- One item of POSE_AIDING (R117). -/
structure AidItem where
  kind : Byte
  sigma : BitVec 16
  value : Word
  deriving DecidableEq, Repr

/-- One sample of the inertial sensor along the module's X, Y and Z axes (R113): angular rates in
    urad/s, accelerations in um/s2. -/
structure ImuSample where
  gx : Int := 0
  gy : Int := 0
  gz : Int := 0
  ax : Int := 0
  ay : Int := 0
  az : Int := 0
  deriving DecidableEq, Repr

/-- One estimate of a coil's incremental inductance (R220): ns since the start of RISE, whether it
    lies in RISE (or in PEAK and HOLD), and the estimate. -/
structure Estimate where
  ns : Nat
  inRise : Bool
  value : Nat
  deriving DecidableEq, Repr

/-- One close-detection probe (R221): ns from the low-side turn-off to its start, and its peak current
    normalised to the node voltage. -/
structure Probe where
  ns : Nat
  value : Nat
  deriving DecidableEq, Repr

/-- The faults of a boost converter (R206). -/
inductive BoostFault where
  | overvolt
  | thermal
  | overload
  deriving DecidableEq, Repr

/-- The payload of TRACE_ARM but for its kind (R291). -/
structure TraceArm where
  trigger : Byte := 0
  source : Byte := 0
  decimation : Byte := 0
  level : Word := 0
  pre : BitVec 16 := 0
  stream : Bool := false
  signals : List (Byte × Byte) := []
  deriving DecidableEq, Repr

/-- A sample of the feedback inputs and of GSPD_IN (R72, R73): the comparators' levels, the 10 ns samples for which
    they have held, and the variable-reluctance inputs whose negative-going zero crossing falls in this sample, with
    the positive peak in mV of the cycle that it ends. -/
structure FbSample where
  levels : BitVec 49
  held : Nat := 0
  cycles : List (Fin 8 × Nat) := []
  deriving DecidableEq, Repr

/-- The level at which a TRIP input has stood, and for how many ns (R72, R260). -/
structure TripLevel where
  high : Bool
  held : Nat
  deriving DecidableEq, Repr

/-- Services of the window watchdog, which came, or have not come, `ns` after the previous one (R414). -/
structure WdtService where
  cores : BitVec 4
  ns : Nat
  deriving DecidableEq, Repr

/-- What CAPTURE measures of a VPWR input (R297, R298): bus-side voltage in mV, current and mean current
    over 1 s in mA. -/
structure InputCapture where
  mv : Nat := 0
  ma : Nat := 0
  meanMa : Nat := 0
  deriving DecidableEq, Repr

/-- What CAPTURE measures of a load switch: mA, junction temperatures of the switch and of its pair in
    0.1 degree C. -/
structure LswCapture where
  ma : Nat := 0
  tj : Int := 0
  tpair : Int := 0
  deriving DecidableEq, Repr

/-- What CAPTURE measures of a proportional channel: mean current in mA, duty in 0.1 %. -/
structure PropCapture where
  meanMa : Nat := 0
  dutyPm : Nat := 0
  deriving DecidableEq, Repr

/-- What CAPTURE measures of an internal bridge (R258, R259, R299): mean phase currents in mA, junction
    temperature in 0.1 degree C, mean supply current in mA, and the samples of the overload integrator
    since the last Tick edge: largest phase current in mA, number of 1 us samples. -/
structure BridgeCapture where
  ia : Int := 0
  ib : Int := 0
  ic : Int := 0
  tj : Int := 0
  ibus : Int := 0
  samples : List (Nat × Nat) := []
  deriving DecidableEq, Repr

/-- What CAPTURE measures of a boost (R205, BST_POWER): output in mV, mean and peak output power in
    10 mW. -/
structure BoostCapture where
  vout : Nat := 0
  avg : Nat := 0
  peak : Nat := 0
  deriving DecidableEq, Repr

/-- What CAPTURE measures of a nozzle channel: coil current in mA, and over the present HOLD the mean node
    voltage in mV, the mean on-fraction in 0.1 % and the mean current in mA (R225). -/
structure NozCapture where
  ma : Nat := 0
  holdMv : Nat := 0
  holdOn : Nat := 0
  holdMa : Nat := 0
  deriving DecidableEq, Repr

/-- What the sense front ends give at a Tick edge (R25, R92, R299). An element that a list does not reach
    keeps its last values. -/
structure Capture where
  inA : InputCapture := {}
  inB : InputCapture := {}
  busMv : Nat := 0
  lsw : List LswCapture := []
  props : List PropCapture := []
  bridges : List BridgeCapture := []
  boosts : List BoostCapture := []
  noz : List NozCapture := []
  /-- High-side current of each bank in mA. -/
  bankMa : List Nat := []
  /-- Baseplate temperature in 0.1 degree C. -/
  baseTemp : Int := 250
  /-- Levels of the CMP pins. -/
  gpi : BitVec 8 := 0
  /-- How many slots the loop engine runs before 48 us, where memory stalls cut its phase (R276). -/
  loopLimit : Option Nat := none
  deriving DecidableEq, Repr

/-- The commands of the V96, one for each row of the command table, in its order. -/
inductive Instr where
  /-- Device time less the effective Tick offset reaches a multiple of 100 µs, and a new Tick
      begins (R38). -/
  | tickEdge (cap : Capture)
  /-- At 72 µs the five COMMIT steps are prepared and applied in one indivisible update (R44). -/
  | commit (finish : Nat) (unfinished : List (Fin 96)) (end0 end1 : Nat)
  /-- At 95 µs Vigil abandons an unfinished COMMIT and counts an overrun (R48). -/
  | overrunCheck
  /-- An IEEE 802.1AS Sync gives a time measurement to the servo (R52). -/
  | asSyncReceived (offset : Int) (at_ : Nat)
  /-- An active SYNC_IN edge gives a SYNC_TICK or SYNC_PPS measurement (R50). -/
  | syncInEdge (rising : Bool) (at_ : Nat)
  /-- No valid measurement for TICK_LOSS_TMO puts the servo in HOLDOVER (R52). -/
  | tickLossTimeout (at_ : Nat)
  /-- TICK_HOLD_MAX in HOLDOVER without a measurement returns the servo to FREE (R52). -/
  | holdoverLimit (at_ : Nat)
  /-- CLOCK_SET of kind SET is checked and queued for the next COMMIT (R62). -/
  | clockSetSet (h : Hdr) (taiUtc : BitVec 16) (seconds : BitVec 64) (nanos : Word)
  /-- CLOCK_SET sets a pending inserted leap second (R63). -/
  | clockSetLeapInsert (h : Hdr) (seconds : BitVec 64)
  /-- CLOCK_SET sets a pending deleted leap second (R63). -/
  | clockSetLeapDelete (h : Hdr) (seconds : BitVec 64)
  /-- CLOCK_SET removes the pending leap second (R63). -/
  | clockSetLeapCancel (h : Hdr)
  /-- At each whole minute of device time the real-time clock is rewritten (R66). -/
  | rtcMinuteWrite (at_ : Nat)
  /-- VBAK below 1.8 V stops the real-time clock and clears RTC_VALID (R67). -/
  | vbakLow
  /-- The real-time clock alarm fires and wakes the V96 (R311). -/
  | rtcAlarm (at_ : Nat)
  /-- A read of DEVTIME_LO returns the low word and latches the high word (R69). -/
  | devtimeLoRead (h : Hdr)
  /-- A read of RTC_SEC latches RTC_SUB (R70). -/
  | rtcSecRead (h : Hdr)
  /-- A filtered edge is accepted on a feedback input or GSPD_IN (R72). -/
  | fbEdgeAccepted (seen : FbSample) (at_ : Nat)
  /-- No count for STOP_TMO empties the edge history and sets STOP (R91). -/
  | axisStopTimeout (a : Fin 32) (at_ : Nat)
  /-- A SAE J2716 frame is received and checked (R96). -/
  | sentFrame (p : Fin 4) (syncNs : Nat) (nibbleNs : List Nat) (at_ : Nat)
  /-- The port clocks one SSI frame ending 1 µs before the Tick edge and checks it (R97). -/
  | ssiFrame (p : Fin 4) (idleHigh : Bool) (raw : Word)
  /-- No good frame for SP_FIELD.TMO marks the port lost (R99). -/
  | sportLossTimeout (p : Fin 4) (at_ : Nat)
  /-- An ISO 11783-7 speed and distance message updates an MSG axis (R103). -/
  | tractorSpeedMsg (ground : Bool) (source : Byte) (speed : BitVec 16) (distance : Word)
      (direction : BitVec 2) (at_ : Nat)
  /-- No valid speed message for MSG_CFG.TMO marks the MSG axis lost (R103). -/
  | msgTimeout (ground : Bool) (at_ : Nat)
  /-- A bridge lasting longer than POSE_BRIDGE.MAX ends with v = 0 and TRAVEL_LOST (R111). -/
  | bridgeTimeout (at_ : Nat)
  /-- The inertial sensor delivers a 1 kHz sample (R113). -/
  | imuSample (sample : ImuSample) (at_ : Nat)
  /-- 5 ms without samples or a failed self-check sets IMU_FAULT (R113). -/
  | imuSampleTimeout (selfCheckFailed : Bool) (at_ : Nat)
  /-- A POSE_FIX request is checked and queued (R116). -/
  | poseFix (h : Hdr) (fix : PoseFix)
  /-- A POSE_AIDING request is checked and queued (R117). -/
  | poseAiding (h : Hdr) (time : BitVec 64) (items : List AidItem)
  /-- No fix accepted for FIX_TMO lowers the grade to DEAD_RECKONING (R131). -/
  | fixTimeout (at_ : Nat)
  /-- A FIELD_ORIGIN request is checked and queued for the next COMMIT (R123). -/
  | fieldOrigin (h : Hdr) (frame : BitVec 16) (lat lon alt : Word)
  /-- A read of POSE_ODO_LO latches POSE_ODO_HI (R134). -/
  | poseOdoLoRead (h : Hdr)
  /-- MAP_FAULT_TMO elapses and the missing-tile policy applies to the key (R145). -/
  | mapFaultTmo (p : Fin 2) (tx ty : Int) (at_ : Nat)
  /-- An outstanding fault is re-sent every FAULT_RETRY with RESEND set (R146). -/
  | tileFaultResend (slot : Fin 16) (at_ : Nat)
  /-- A fault slot not requested for 500 ms is released (R146). -/
  | faultSlotRelease (slot : Fin 16) (at_ : Nat)
  /-- MAP_POLICY sets a product's missing-tile policy and timeout at the next COMMIT (R147). -/
  | mapPolicy (h : Hdr) (product policy : Byte) (tmo : BitVec 16)
  /-- A TILE chunk is DMA-written into its filling frame (R148). -/
  | tileDataTile (h : Hdr) (product chunk fid : Byte) (tx ty seq : Word) (data : Bytes)
  /-- A CONST chunk completes a fill with one cell value (R148). -/
  | tileDataConst (h : Hdr) (product chunk fid : Byte) (tx ty seq : Word) (cell : BitVec 16)
  /-- A RATE_TABLE chunk is stored in the product's shadow rate table (R138). -/
  | tileDataRateTable (h : Hdr) (product chunk : Byte) (data : Bytes)
  /-- No chunk for FILL_TMO abandons a fill (R143). -/
  | fillTimeout (f : Fin 128) (at_ : Nat)
  /-- The walker writes a queued coverage segment into frames or the replay log (R154). -/
  | coverageWrite (at_ : Nat)
  /-- A frame DIRTY for WB_AGE calls for a writeback (R156). -/
  | dirtyAgeExpiry (f : Fin 128) (at_ : Nat)
  /-- A DIRTY frame is snapshotted and sent as 32 TILE_WRITEBACK packets when a buffer is free
      (R156). -/
  | writebackStart (f : Fin 128) (at_ : Nat)
  /-- An acknowledgement completes a writeback or makes missing chunks resend (R157). -/
  | tileWritebackAck (h : Hdr) (tag : Byte) (bitmap : Word)
  /-- No full acknowledgement within WB_TMO resends all chunks (R157). -/
  | writebackTimeout (buffer : Fin 4) (at_ : Nat)
  /-- A TILE_INVALIDATE request is checked and queued for the next COMMIT (R158). -/
  | tileInvalidate (h : Hdr) (scope product flags : Byte) (tx ty : Word)
  /-- The walker scrubs a resident or poisoned frame in the background (R159). -/
  | frameScrub (f : Fin 128) (good : Bool) (at_ : Nat)
  /-- An uncorrectable SRAM error has the consequence of the region struck (R21). -/
  | eccUncorrectable (region : EccRegion)
  /-- A lane's reference crosses an entry position (R185). -/
  | compareCrossing (l : Fin 160) (at_ : Nat)
  /-- SECTION_COMMAND sets AUTO, OFF or ON overrides for named nozzles (R190). -/
  | sectionCommand (h : Hdr) (command timing : Byte) (mask : BitVec 96) (odo : BitVec 48)
  /-- RATE_TARGET sets a product's default target or scale (R191). -/
  | rateTarget (h : Hdr) (product flags : Byte) (scale : BitVec 16) (target : Word)
  /-- TRACK_MM of travel or TRACK_MS of time makes a TRACK record (R193). -/
  | trackRecordDue (p : Fin 2) (at_ : Nat)
  /-- An AS_APPLIED packet is sent when 43 records or a 10 ms wait is reached (R195). -/
  | asAppliedSend (at_ : Nat)
  /-- A write of CMP_WR_CMD with OP ADD stages an entry for a lane (R188). -/
  | cmpAdd (h : Hdr) (value : Word)
  /-- A write of CMP_WR_CMD with OP CLEAR stages removal of every eve of a lane (R188). -/
  | cmpClear (h : Hdr) (value : Word)
  /-- A read of CMP_NEXT_LO latches CMP_NEXT_HI (R199). -/
  | cmpNextLoRead (h : Hdr) (l : Fin 160)
  /-- A read of CMP_FIRE_LO latches CMP_FIRE_HI (R199). -/
  | cmpFireLoRead (h : Hdr) (l : Fin 160)
  /-- A read of CMP_RD_POS_LO latches the slot's high word and parameter (R199). -/
  | cmpRdPosLoRead (h : Hdr)
  /-- A waiting channel is admitted to RISE when concurrency and bank load allow (R209). -/
  | pullInAdmit (n : Fin 96) (at_ : Nat)
  /-- A pull-in not admitted within 400 µs of delivery is dropped (R209). -/
  | pullDrop (n : Fin 96) (at_ : Nat)
  /-- The coil current reaches I_PEAK and the channel enters PEAK (R208). -/
  | risePeakReached (n : Fin 96) (ma : Nat) (at_ : Nat)
  /-- T_PEAK from the start of RISE ends and the channel goes to HOLD (R208). -/
  | tPeakExpiry (n : Fin 96) (sustained : Bool) (at_ : Nat)
  /-- The decaying current falls below I_HOLD and hold chopping starts (R208). -/
  | holdLevelReached (n : Fin 96) (ma : Nat) (at_ : Nat)
  /-- The coil current falls below 20 mA and the channel enters SETTLE (R208). -/
  | decayComplete (n : Fin 96) (ma : Nat) (at_ : Nat)
  /-- The minimum off-time has elapsed and close detection ended, returning the channel to QUIET
      (R208). -/
  | settleEnd (n : Fin 96) (at_ : Nat)
  /-- At a spray-PWM period start the channel chooses to skip, pulse or stay on (R212). -/
  | sprayPeriodStart (n : Fin 96) (at_ : Nat)
  /-- A pulse's time ends and the low side switches off into DECAY (R214). -/
  | pulseEnd (n : Fin 96) (at_ : Nat)
  /-- The detector finds the armature-open signature and measures the open delay (R220). -/
  | openSignature (n : Fin 96) (estimates : List Estimate) (at_ : Nat)
  /-- A probe finds the armature-close signature and measures the close delay (R221). -/
  | closeSignature (n : Fin 96) (probes : List Probe) (at_ : Nat)
  /-- No signature by DET_MAX fails the actuation (R222). -/
  | detectionTimeout (n : Fin 96) (opening : Bool) (at_ : Nat)
  /-- Changed learned valve data is written to MRAM every 60 s (R226). -/
  | learnedDataSave (at_ : Nat)
  /-- NOZZLE_FORCE RELEASE closes named nozzles and ends the force (R219). -/
  | nozzleForceRelease (h : Hdr) (mask : BitVec 96)
  /-- NOZZLE_FORCE CLOSE closes named nozzles (R219). -/
  | nozzleForceClose (h : Hdr) (mask : BitVec 96)
  /-- NOZZLE_FORCE OPEN runs spray PWM at the given duty (R219). -/
  | nozzleForceOpen (h : Hdr) (duty : BitVec 16) (duration : Word) (mask : BitVec 96)
  /-- NOZZLE_FORCE PULSE makes one energised pulse (R219). -/
  | nozzleForcePulse (h : Hdr) (duration : Word) (mask : BitVec 96)
  /-- The duration of a forced OPEN or PULSE ends and the nozzle closes (R219). -/
  | forceDurationEnd (n : Fin 96) (at_ : Nat)
  /-- Current below 50 mA 100 µs into RISE latches OPEN_LOAD (R227). -/
  | nozOpenLoad (n : Fin 96) (ma : Nat) (at_ : Nat)
  /-- The 100 ms off-state test sets the sticky OPEN_OFF flag (R227). -/
  | nozOpenOffTest (n : Fin 96) (drainMv nodeMv : Nat) (at_ : Nat)
  /-- I_PEAK within 10 µs of RISE latches SHORT_LOAD (R227). -/
  | nozShortLoad (n : Fin 96) (at_ : Nat)
  /-- Switch current above 6 A latches SHORT_BAT (R227). -/
  | nozShortBat (n : Fin 96) (ma : Nat) (at_ : Nat)
  /-- A drain shorted to PGND turns the bank high side off and faults the bank (R227). -/
  | nozShortGnd (n : Fin 96) (drainMv nodeMv ns : Nat) (at_ : Nat)
  /-- Channel over-temperature latches THERMAL (R227). -/
  | nozThermal (n : Fin 96) (tj : Int) (at_ : Nat)
  /-- High-side over-current turns the bank off and faults every unit of it (R227). -/
  | hsOvercurrent (b : Fin 12) (ma ns : Nat) (at_ : Nat)
  /-- High-side over-temperature turns the bank off and faults every unit of it (R227). -/
  | hsThermal (b : Fin 12) (tj : Int) (at_ : Nat)
  /-- A W1C write of NOZ_FLT clears fault flags, STUCK at the next COMMIT (R223). -/
  | nozFltWrite (h : Hdr) (n : Fin 96) (value : Word)
  /-- A W1C write of BANK_FLT clears bank fault flags (R228). -/
  | bankFltWrite (h : Hdr) (b : Fin 12) (value : Word)
  /-- The boost output reaches its ready threshold (R206). -/
  | boostReady (c : Fin 3) (mv : Nat) (at_ : Nat)
  /-- The boost output falls below its ready threshold (R206). -/
  | boostLow (c : Fin 3) (mv : Nat) (at_ : Nat)
  /-- 50 ms in SOFT_START without READY faults the boost with UNDERVOLT (R206). -/
  | boostSoftStartTimeout (c : Fin 3) (at_ : Nat)
  /-- 20 ms in LOW faults the boost with UNDERVOLT (R206). -/
  | boostLowTimeout (c : Fin 3) (at_ : Nat)
  /-- Over-voltage, over-temperature or overload puts the boost in FAULT (R206). -/
  | boostFault (c : Fin 3) (fault : BoostFault) (at_ : Nat)
  /-- A W1C write of BST_FLT clears boost fault flags (R206). -/
  | bstFltWrite (h : Hdr) (c : Fin 3) (value : Word)
  /-- T_PEAK of a proportional channel ends and it ramps (R234). -/
  | propPeakEnd (k : Fin 8) (at_ : Nat)
  /-- The current reaches the target and the channel regulates (R234). -/
  | propRampDone (k : Fin 8) (ma : Nat) (at_ : Nat)
  /-- The current falls below 10 mA and the channel is QUIET (R234). -/
  | propDecayDone (k : Fin 8) (ma : Nat) (at_ : Nat)
  /-- Low current for 10 ms at high duty latches OPEN_LOAD (R236). -/
  | propOpenLoad (k : Fin 8) (dutyPm meanMa ns : Nat) (at_ : Nat)
  /-- Current above 4.5 A latches SHORT (R236). -/
  | propShort (k : Fin 8) (ma : Nat) (at_ : Nat)
  /-- Junction over-temperature latches THERMAL (R236). -/
  | propThermal (k : Fin 8) (tj : Int) (at_ : Nat)
  /-- Full duty for 20 ms below target sets SATURATED and UNDERCURRENT (R236). -/
  | propUndercurrent (k : Fin 8) (dutyPm meanMa ns : Nat) (at_ : Nat)
  /-- A W1C write of PROP_FLT clears proportional fault flags (R236). -/
  | propFltWrite (h : Hdr) (k : Fin 8) (value : Word)
  /-- A PWM unit's period starts and armed or legacy shadows transfer (R254). -/
  | carrierPeriodStart (u : Fin 16) (m : Fin 4)
  /-- A write of MDRV_ARM arms update groups for transfer (R254). -/
  | mdrvArmWrite (h : Hdr) (value : Word)
  /-- A shadow pending for 16 periods without an arm is marked STALE (R256). -/
  | staleShadow (u : Fin 16) (at_ : Nat)
  /-- The replica delay line is measured every 1 ms and the tap table recomputed (R245). -/
  | pwmCalibration (tapPs : Nat) (at_ : Nat)
  /-- An invalid hall state lasting INV_TMO latches HALL (R252). -/
  | hallInvalidTimeout (u : Fin 16) (at_ : Nat)
  /-- A switch current above ILIM turns that switch off until its next edge (R258). -/
  | cbcLimit (u : Fin 8) (switch : Fin 6) (ma : Nat) (at_ : Nat)
  /-- A phase above 20 A turns all six switches off and latches SHORT (R258). -/
  | motorHardTrip (u : Fin 8) (ma ns : Nat) (at_ : Nat)
  /-- Bridge supply current above 24 A turns all six off and latches VIG_TRIP (R258). -/
  | vigilCurrentTrip (u : Fin 8) (ma ns : Nat) (at_ : Nat)
  /-- Bridge junction over-temperature latches THERMAL (R258). -/
  | motorThermal (u : Fin 8) (tj : Int) (at_ : Nat)
  /-- VPWR below 8.5 V turns the bridge off until above 9.0 V (R258). -/
  | motorSupplyLow (mv : Nat) (at_ : Nat)
  /-- The overload integrator crossing its limits sets or clears foldback (R259). -/
  | foldback (u : Fin 8) (samples : List (Nat × Nat)) (at_ : Nat)
  /-- An active TRIP input trips the mapped units outside their blanking (R260). -/
  | motorTrip (t : Fin 4) (level : TripLevel) (at_ : Nat)
  /-- DRIVE_COMMAND RUN starts or resumes named motor units (R265). -/
  | driveCommandRun (h : Hdr) (mask : BitVec 16) (duties : List (BitVec 16))
  /-- DRIVE_COMMAND STOP stops named units by their stop mode (R265). -/
  | driveCommandStop (h : Hdr) (mask : BitVec 16) (duties : List (BitVec 16))
  /-- DRIVE_COMMAND COAST turns named units' outputs off (R265). -/
  | driveCommandCoast (h : Hdr) (mask : BitVec 16) (duties : List (BitVec 16))
  /-- DRIVE_COMMAND BRAKE brakes named units (R265). -/
  | driveCommandBrake (h : Hdr) (mask : BitVec 16) (duties : List (BitVec 16))
  /-- The ramped duty reaches 0 and the unit brakes (R262). -/
  | rampDownDone (u : Fin 16) (at_ : Nat)
  /-- BRAKE_T elapses and the unit returns to QUIET (R262). -/
  | brakeTimeEnd (u : Fin 16) (at_ : Nat)
  /-- A W1C write of MDRV_FLT clears motor fault flags (R261). -/
  | mdrvFltWrite (h : Hdr) (u : Fin 16) (value : Word)
  /-- 200 ms after reset entry the bridges stop braking and coast (R266). -/
  | resetBrakeEnd (at_ : Nat)
  /-- An observer predicts its state in the background after the LOOP phase (R284). -/
  | observerPredict (s : Fin 32)
  /-- OBS_MAX on the observer moves the slot to LOST and latches OBS_TMO (R285). -/
  | observerTimeout (s : Fin 32) (at_ : Nat)
  /-- The following-error timer reaches FERR_T and latches FERR (R286). -/
  | followErr (s : Fin 32) (at_ : Nat)
  /-- Output-bearing work still running at 48 µs is stopped and slots skip (R276). -/
  | loopOverrun (at_ : Nat)
  /-- A W1C write of LOOP_FLT clears loop fault flags (R287). -/
  | loopFltWrite (h : Hdr) (s : Fin 32) (value : Word)
  /-- TRACE_ARM RELEASE ends the trace claim and returns it to IDLE (R291). -/
  | traceArmRelease (h : Hdr) (arm : TraceArm)
  /-- TRACE_ARM ARM claims and arms the trace (R291). -/
  | traceArmArm (h : Hdr) (arm : TraceArm)
  /-- TRACE_ARM FORCE triggers an armed trace (R291). -/
  | traceArmForce (h : Hdr) (arm : TraceArm)
  /-- TRACE_READ returns samples of a DONE trace (R293). -/
  | traceRead (h : Hdr) (first : BitVec 16) (count : Byte)
  /-- A load start is admitted against the start allowance or waits (R301). -/
  | loadStartRequest (k : Fin 16) (at_ : Nat)
  /-- A start waiting longer than WAIT is abandoned and GRANT_DENY raised (R302). -/
  | grantWaitTimeout (k : Fin 16) (at_ : Nat)
  /-- Headroom held for RESTORE_T restores a shed switch or lifts the bridge cap (R304). -/
  | shedRestore (k : Option (Fin 16)) (at_ : Nat)
  /-- One input above 40 A over 1 s raises INPUT_OVER (R298). -/
  | inputOver (i : VpwrInput) (meanMa : Nat)
  /-- An input falling below 8.5 V is lost and INPUT_LOST raised (R298). -/
  | vpwrInputLost (i : VpwrInput) (mv : Nat)
  /-- An input reaching 9.0 V becomes present (R297). -/
  | vpwrInputPresent (i : VpwrInput) (mv : Nat)
  /-- The DOZE dwell elapses and the V96 enters DOZE (R313). -/
  | dozeDwellExpiry (at_ : Nat)
  /-- The HOLD dwell elapses and entry to HOLD begins (R313). -/
  | holdDwellExpiry (at_ : Nat)
  /-- The DORMANT dwell elapses and entry to DORMANT begins (R313). -/
  | dormantDwellExpiry (at_ : Nat)
  /-- A wake event returns the V96 from IDLE, DOZE or HOLD to ACTIVE (R311). -/
  | wakeEvent (cause : WakeCause) (heldTicks : Nat)
  /-- KEY, ECU_PWR or the alarm wakes the V96 from DORMANT as a cold start (R315). -/
  | dormantWake (cause : DormCause) (offNs : Nat)
  /-- KEY changes between active and inactive (R311). -/
  | keyChange (mv : Nat) (stableNs : Nat) (at_ : Nat)
  /-- POWER_POLICY with SET_LTOL writes DEV_LTOL at the next COMMIT (R316). -/
  | powerPolicySetLtol (h : Hdr) (policy : PowerPolicy)
  /-- POWER_POLICY with SET_ALARM sets or cancels the alarm (R316). -/
  | powerPolicySetAlarm (h : Hdr) (policy : PowerPolicy)
  /-- POWER_POLICY with DORMANT_NOW starts entry to DORMANT or replies BUSY (R316). -/
  | powerPolicyDormantNow (h : Hdr) (policy : PowerPolicy)
  /-- A W1C write of PWRB_DENIED clears abandoned-start bits (R302). -/
  | pwrbDeniedWrite (h : Hdr) (value : Word)
  /-- A write of DEV_ALARM_LO is latched until DEV_ALARM_HI is written (R319). -/
  | devAlarmLoWrite (h : Hdr) (value : Word)
  /-- A write of DEV_ALARM_HI applies the alarm pair (R319). -/
  | devAlarmHiWrite (h : Hdr) (value : Word)
  /-- IR_T elapses and the switch moves to ON with ILIM (R321). -/
  | inrushWindowEnd (k : Fin 16) (at_ : Nat)
  /-- The pair sensor above PAIR_T cuts the inrush windows of the pair (R326). -/
  | inrushCut (m : Fin 8) (temp : Int) (at_ : Nat)
  /-- Current above the limit for OC_FILT trips to COOL or FAULT (R325). -/
  | lsOvercurrent (k : Fin 16) (ma ns : Nat) (at_ : Nat)
  /-- Current at the internal clamp for 2 µs trips to FAULT (R325). -/
  | lsShort (k : Fin 16) (ma ns : Nat) (at_ : Nat)
  /-- Junction over-temperature trips to COOL or FAULT (R325). -/
  | lsThermal (k : Fin 16) (tj : Int) (at_ : Nat)
  /-- Current below OL_I for 100 ms sets OPEN_LOAD (R325). -/
  | lsOpenLoadOn (k : Fin 16) (ma ns : Nat) (at_ : Nat)
  /-- The 100 ms off-state test sets OPEN_LOAD or SHORT_BAT (R325). -/
  | lsOffStateTest (k : Fin 16) (pulledMv pulledNs freeMv : Nat) (at_ : Nat)
  /-- Current below 20 mA ends DEMAG (R321). -/
  | lsDemagDone (k : Fin 16) (ma : Nat) (at_ : Nat)
  /-- RETRY_T in COOL elapses and a retry start follows (R321). -/
  | lsRetryDelayEnd (k : Fin 16) (ma : Nat) (tj : Int) (at_ : Nat)
  /-- One second in ON without a trip resets TRIPS (R325). -/
  | lsTripCountReset (k : Fin 16) (at_ : Nat)
  /-- A write to LSW_HOLD.RELEASE ends a switch's hold (R327). -/
  | lswHoldRelease (h : Hdr) (value : Word)
  /-- A W1C write of LSW_FLT clears load-switch fault flags (R325). -/
  | lswFltWrite (h : Hdr) (k : Fin 16) (value : Word)
  /-- NOP echoes its payload (R358). -/
  | nop (h : Hdr) (payload : Bytes)
  /-- IDENTIFY returns identity, versions and the Tick count (R358). -/
  | identify (h : Hdr)
  /-- The HELLO phase allocates a session identity and returns the device nonce (R343). -/
  | sessionOpenHello (h : Hdr) (kind : Byte) (nonce : BitVec 128)
  /-- The PROOF phase checks the host proof and opens the session (R343). -/
  | sessionOpenProof (h : Hdr) (kind : Byte) (proof : BitVec 256)
  /-- SESSION_CLOSE ends the session with its effects at the next COMMIT (R347). -/
  | sessionClose (h : Hdr)
  /-- SESSION_RESET resets the session's state without ending it (R347). -/
  | sessionReset (h : Hdr)
  /-- DEVICE_RESET replies and starts a warm reset at the next Tick edge (R358). -/
  | deviceReset (h : Hdr) (confirm : BitVec 16)
  /-- REG_READ returns one register word (R359). -/
  | regRead (h : Hdr) (address : Word)
  /-- REG_WRITE writes a register that has no row of its own, at dispatch, COMMIT or staged
      (R376). -/
  | regWrite (h : Hdr) (address value : Word)
  /-- REG_READ_BLOCK reads consecutive words in ascending order (R359). -/
  | regReadBlock (h : Hdr) (address : Word) (count : BitVec 16)
  /-- REG_WRITE_BLOCK writes consecutive words after checking all of them (R359). -/
  | regWriteBlock (h : Hdr) (address : Word) (values : List Word)
  /-- REG_MODIFY reads, masks and writes a word in one dispatch (R383). -/
  | regModify (h : Hdr) (address mask value : Word)
  /-- TXN_BEGIN opens a transaction and starts its timer (R384). -/
  | txnBegin (h : Hdr) (timeout : BitVec 16)
  /-- TXN_COMMIT hands the transaction to a COMMIT for checking (R387). -/
  | txnCommit (h : Hdr)
  /-- TXN_ROLLBACK discards the staged writes (R384). -/
  | txnRollback (h : Hdr)
  /-- TXN_STATUS returns the transaction state (R360). -/
  | txnStatus (h : Hdr)
  /-- An open transaction's timeout expires and it becomes EXPIRED (R384). -/
  | txnTimeout (k : Sess)
  /-- FENCE COMPLETION holds its queue until every earlier request has completed (R356). -/
  | fenceCompletion (h : Hdr)
  /-- FENCE TICK also waits for the next COMMIT that finishes in time (R356). -/
  | fenceTick (h : Hdr)
  /-- FENCE DMA waits for earlier TILE_DATA chunks and their fills (R356). -/
  | fenceDma (h : Hdr)
  /-- A session's keepalive expires and the session ends (R346). -/
  | keepaliveTimeout (k : Sess) (at_ : Nat)
  /-- A session left in HELLO for 1 s is closed (R343). -/
  | helloTimeout (k : Sess) (at_ : Nat)
  /-- A port declares link loss, ending sessions bound through ETH_A (R491). -/
  | ethLinkDown (p : EthPort) (at_ : Nat)
  /-- A port trains to link up and performs duplicate address detection (R491). -/
  | ethLinkUp (p : EthPort) (trainMs : Nat) (sqi : Fin 8)
  /-- A neighbour solicitation is answered with an advertisement (R331). -/
  | neighbourSolicitation (p : EthPort) (target source : BitVec 128)
  /-- A peer-delay exchange is made every 1 s on each port (R335). -/
  | pdelayExchange (p : EthPort) (delay : Option Nat)
  /-- 100 ms after a committed role change the port drops link and trains again (R490). -/
  | phyRoleChange (p : EthPort) (at_ : Nat)
  /-- An EVENT packet is sent when 43 entries or PKT_WAIT is reached (R434). -/
  | eventPacketSend (k : Sess) (at_ : Nat)
  /-- At start or after bus-off the V96 claims an address on CAN_M (R367). -/
  | canAddressClaim
  /-- A lost address contention moves the claim to the next address (R367). -/
  | addressContention (other : Byte) (name : BitVec 64)
  /-- A request for address claimed is answered (R367). -/
  | addressClaimRequest (source : Byte)
  /-- A management UNIT_REQ fences, stands by or releases a unit group (R368). -/
  | unitReq (source function target group : Byte)
  /-- A STATUS_REQ is answered with a STATUS message (R369). -/
  | statusReq (source : Byte)
  /-- A STATUS message is sent every PER × 10 ms (R369). -/
  | statusPeriodic (at_ : Nat)
  /-- DM1 is sent every 1 s, and once at once when a code becomes active (R370). -/
  | dm1Periodic (at_ : Nat)
  /-- A request for DM2 sends the previously-active list (R370). -/
  | dm2Request (source : Byte) (global : Bool)
  /-- CAN_M enters bus-off and raises the bus-off event (R371). -/
  | canBusoff
  /-- After 128 recessive sequences the V96 rejoins and claims again (R371). -/
  | busoffRecovery
  /-- A write of CANB_DTC_CLR from SERVICE clears the previously-active list (R370). -/
  | canbDtcClr (h : Hdr) (value : Word)
  /-- A received CAN_S frame passing a filter enters the FIFO (R372). -/
  | canSFrameReceived (ident : Word) (dlc : Fin 16) (data : Bytes)
  /-- A write of CANS_RX_POP removes the head frame (R372). -/
  | cansRxPop (h : Hdr) (value : Word)
  /-- A write of CANS_TX_GO sends the frame in CANS_TX_WIN (R372). -/
  | cansTxGo (h : Hdr) (value : Word)
  /-- A write of RES_GPO drives GPO pins at dispatch (R396). -/
  | resGpoWrite (h : Hdr) (value : Word)
  /-- A background save finishes its read-back or reports SAVE_FAIL (R455). -/
  | settingsSaveComplete (good : Bool)
  /-- A write of VIG_UNIT.REQ posts a state request for the next COMMIT (R403). -/
  | vigUnitReqWrite (h : Hdr) (unit : Fin 203) (value : Word)
  /-- A W1C write of VIG_SAFE clears safe-state flags (R416). -/
  | vigSafeWrite (h : Hdr) (value : Word)
  /-- A W1C write of EVT_PEND clears latched pending bits (R431). -/
  | evtPendWrite (h : Hdr) (w : Fin 4) (value : Word)
  /-- The logic supply rises after a loss, starting a cold reset (R411). -/
  | powerOn (offNs : Nat)
  /-- RESET_N held low for 1 µs starts a cold reset (R411). -/
  | resetNLow (ns : Nat)
  /-- An early or missing watchdog service starts a warm reset (R414). -/
  | watchdogMiss (missed : WdtService)
  /-- The reference clock out of tolerance starts a warm reset (R415). -/
  | clockMonitorFault
  /-- The reference in tolerance for 10 ms lets the restart begin (R415). -/
  | clockRestored (stableNs : Nat)
  /-- Disagreeing Vigil cores drive the safe state and assert a cold reset (R415). -/
  | lockstepMismatch
  /-- Writing VIG_DBG_CTRL.UNLOCK checks the response and unlocks the port (R419). -/
  | debugUnlock (h : Hdr) (value : Word)
  /-- Writing VIG_DBG_CTRL.LOCK locks the debug port (R419). -/
  | debugLock (h : Hdr) (value : Word)
  /-- A halt request at the port halts execution when permitted (R420). -/
  | debugHalt (at_ : Nat)
  /-- A resume from the port ends a halt (R420). -/
  | debugResume (at_ : Nat)
  /-- A halt lasting HALT_MAX drives every present unit safe and FAULTED (R421). -/
  | haltLimit (at_ : Nat)
  /-- Core 3 writes an intake entry as a record in three steps and reads it back (R437). -/
  | diaryRecordWrite (readBack : List Bool) (writable : Bool)
  /-- DIARY_FREEZE stops the ring changing and sends new records to staging (R441). -/
  | diaryFreeze (h : Hdr) (timeout : BitVec 16)
  /-- DIARY_THAW ends a freeze from the freezing session (R442). -/
  | diaryThaw (h : Hdr)
  /-- The freeze timeout elapses and the freeze ends on its own (R442). -/
  | freezeTimeout (at_ : Nat)
  /-- DIARY_READ returns up to 43 records from the Diary or Ember Page (R443). -/
  | diaryRead (h : Hdr) (first : Word) (count flags : Byte)
  /-- DIARY_MARK raises HOST_MARK with the host's code and payload (R444). -/
  | diaryMark (h : Hdr) (code : Byte) (payload : BitVec 128)
  /-- A write of DIARY_DRAINED sets the newest drained sequence number (R445). -/
  | diaryDrainedWrite (h : Hdr) (value : Word)
  /-- DIARY_DRAINED is copied to MRAM at most once each second (R445). -/
  | drainedMramWrite (at_ : Nat)
  /-- The logic supply below 7.0 V for 20 µs starts hold-up and the orderly shutdown (R494). -/
  | holdUpEntry (lowNs : Nat)
  /-- UPD_BEGIN starts or resumes a download into the target slot (R460). -/
  | updBegin (h : Hdr) (identity : BitVec 256) (length : Word) (flags : Byte)
  /-- UPD_CHUNK stores image data and advances the acknowledged offset (R461). -/
  | updChunk (h : Hdr) (offset : Word) (data : Bytes)
  /-- UPD_VERIFY starts background verification of a complete image (R465). -/
  | updVerify (h : Hdr)
  /-- Verification ends with PASS or the first failing check (R465). -/
  | verifyComplete
  /-- UPD_ACTIVATE installs the verified slot, writes a trial record and cold-resets (R466). -/
  | updActivate (h : Hdr)
  /-- UPD_CONFIRM makes the trial image permanent (R469). -/
  | updConfirm (h : Hdr)
  /-- UPD_ABORT empties the target slot or reverts a trial (R463). -/
  | updAbort (h : Hdr)
  /-- UPD_STATUS returns the update state (R464). -/
  | updStatus (h : Hdr)
  /-- A contact above the bus by more than 1.0 V starts precharge (R492). -/
  | prechargeStart (mvA mvB busMv : Nat) (at_ : Nat)
  /-- The bus within 1.0 V closes the input switches (R492). -/
  | prechargeComplete (mvA mvB busMv : Nat)
  /-- Precharge not done in 30 ms stops and retries after 1.0 s (R492). -/
  | prechargeTimeout (at_ : Nat)
  /-- Input current above 60 A for 100 µs opens the input switch (R487). -/
  | inputSwitchOvercurrent (i : VpwrInput) (ma ns : Nat) (at_ : Nat)
  /-- A contact above 36.0 V opens its input switch (R487). -/
  | inputSwitchOvervoltage (i : VpwrInput) (mv : Nat) (at_ : Nat)
  /-- PGND more than 1.0 V above LGND opens both input switches (R487). -/
  | groundLift (mv ns : Nat) (at_ : Nat)
  /-- After its return delay an opened input switch returns through precharge (R487). -/
  | inputSwitchReturn (i : VpwrInput) (mv : Nat) (settledNs : Nat) (at_ : Nat)
  /-- A received datagram with a wrong length or kind, a bad CRC, a version other than 1, an
      unknown opcode or an opcode not for a host is discarded or answered with BAD_CRC or BAD_OPCODE
      (R338). -/
  | invalidRequest (h : Hdr) (why : BadRequest)
  /-- An EDGE source with LATCH = 0 stops being an active trouble code 1 s after its last
      occurrence and moves to the previously-active list (R433). -/
  | dm1ActiveTimeout (source : Fin 128) (at_ : Nat)
  /-- The 200 ms for which a settings save holds the store runs out and TXN_SAVE_STAT.BUSY clears
      (R392). -/
  | saveHoldEnd (at_ : Nat)
  /-- A PULSE on a CMP pin ends after its parameter in µs and the pin returns low (R186). -/
  | pinPulseEnd (p : Fin 8) (at_ : Nat)
  /-- After a trip with TRIP_ACT LOW, BRAKE_T elapses and all six outputs of the unit, still in
      FAULT, go off (R260). -/
  | tripBrakeEnd (u : Fin 16) (at_ : Nat)
  /-- The 10 s debug unlock lockout ends and VIG_DBG_STAT.LOCKOUT clears (R419). -/
  | debugLockoutEnd (at_ : Nat)
  /-- The 10 s lockout of an IPv6 address after three AUTH_FAILED replies ends, so that
      SESSION_OPEN from it is checked again (R344). -/
  | authLockoutEnd (addr : BitVec 128) (at_ : Nat)
  /-- 250 ms after a successful address claim without contention, the V96 holds its CAN_M address
      and may send other messages (R367). -/
  | addressClaimed (at_ : Nat)
  /-- An ISO 11783-3 transport or extended transport protocol frame received on CAN_M is taken
      into a transfer or answered with an abort (R366). -/
  | transportProtocolFrame (source dest : Byte) (extended connection : Bool) (data : BitVec 64)
  /-- A CAN_S send, with its automatic retries, ends and CANS_TX_STAT.BUSY clears, counting any
      transmit errors (R372). -/
  | canSTransmitComplete (errors : Nat)
  /-- The baseplate temperature rises above EVT_THERM.WARN or falls 5.0 °C below it, raising
      source 120 with code 0x01 or 0x02 (R426). -/
  | baseHot (temp : Int)
  deriving DecidableEq, Repr

end Sys2Proof
end

