-- ==== Sys2Proof/Decode.lean ====
section
/-! DEFINITION. The commands that words of the command table spell: the table gives none of its rows bits. -/

namespace Sys2Proof

/-- The command that a word of the command table spells: none, since no row of the table has bits. -/
def decodeTableWord (_nbits _w : Nat) : Option Instr := none

end Sys2Proof
end

