-- ==== Sys2Proof/Machine/Hash.lean ====
section
/-! DEFINITION. The codes the manual names: little-endian bytes (R11), CRC-32C (R337), the CRC-8 of
    Diary records (R436), SHA-256 and HMAC-SHA-256 (R343, R456). All are
    written by structural recursion, so that the kernel can evaluate them. -/

namespace Sys2Proof.Machine

open Sys2Proof (Byte Bytes Word)

/-- The low `n` bytes of a number, least significant first (R11). -/
def leBytes : Nat → Nat → Bytes
  | 0, _ => []
  | n + 1, v => BitVec.ofNat 8 v :: leBytes n (v / 256)

/-- The number that bytes spell, least significant first (R11). -/
def leNat : Bytes → Nat
  | [] => 0
  | x :: rest => x.toNat + 256 * leNat rest

/-- Bytes `start` to `start + n - 1` of a string; bytes beyond its end are missing. -/
def slice (start n : Nat) (l : Bytes) : Bytes := (l.drop start).take n

/-- The number that `n` bytes at `start` spell. -/
def leAt (start n : Nat) (l : Bytes) : Nat := leNat (slice start n l)

/-- The 16 bytes of an IPv6 address in network order. -/
def netBytes (a : BitVec 128) : Bytes := (leBytes 16 a.toNat).reverse

/-- A byte string padded with zeros to `n` bytes. -/
def padTo (n : Nat) (l : Bytes) : Bytes := l ++ List.replicate (n - l.length) 0

/-- One step of the reflected CRC-32C, eight bits (R337): 0x82F63B78 is 0x1EDC6F41 reflected. -/
def crc32cBits : Nat → Word → Word
  | 0, c => c
  | n + 1, c => crc32cBits n (if c.getLsbD 0 then (c >>> 1) ^^^ 0x82F63B78 else c >>> 1)

/-- CRC-32C of a byte string (R337). -/
def crc32c (l : Bytes) : Word :=
  l.foldl (fun c x => crc32cBits 8 (c ^^^ x.setWidth 32)) 0xFFFFFFFF ^^^ 0xFFFFFFFF

/-- One step of the CRC-8 of R436, not reflected, eight bits. -/
def crc8Bits : Nat → Byte → Byte
  | 0, c => c
  | n + 1, c => crc8Bits n (if c.getLsbD 7 then (c <<< 1) ^^^ 0x2F else c <<< 1)

/-- The CRC-8 of R436: polynomial 0x2F, initial value 0xFF, final XOR 0xFF, not reflected. -/
def crc8 (l : Bytes) : Byte := l.foldl (fun c x => crc8Bits 8 (c ^^^ x)) 0xFF ^^^ 0xFF

/-- The round constants of SHA-256 (FIPS 180-4). -/
def shaK : List Word :=
  [0x428a2f98, 0x71374491, 0xb5c0fbcf, 0xe9b5dba5, 0x3956c25b, 0x59f111f1, 0x923f82a4, 0xab1c5ed5,
   0xd807aa98, 0x12835b01, 0x243185be, 0x550c7dc3, 0x72be5d74, 0x80deb1fe, 0x9bdc06a7, 0xc19bf174]
    ++
  [0xe49b69c1, 0xefbe4786, 0x0fc19dc6, 0x240ca1cc, 0x2de92c6f, 0x4a7484aa, 0x5cb0a9dc, 0x76f988da,
   0x983e5152, 0xa831c66d, 0xb00327c8, 0xbf597fc7, 0xc6e00bf3, 0xd5a79147, 0x06ca6351, 0x14292967]
    ++
  [0x27b70a85, 0x2e1b2138, 0x4d2c6dfc, 0x53380d13, 0x650a7354, 0x766a0abb, 0x81c2c92e, 0x92722c85,
   0xa2bfe8a1, 0xa81a664b, 0xc24b8b70, 0xc76c51a3, 0xd192e819, 0xd6990624, 0xf40e3585, 0x106aa070]
    ++
  [0x19a4c116, 0x1e376c08, 0x2748774c, 0x34b0bcb5, 0x391c0cb3, 0x4ed8aa4a, 0x5b9cca4f, 0x682e6ff3,
   0x748f82ee, 0x78a5636f, 0x84c87814, 0x8cc70208, 0x90befffa, 0xa4506ceb, 0xbef9a3f7, 0xc67178f2]

/-- The initial hash value of SHA-256. -/
def shaInit : List Word :=
  [0x6a09e667, 0xbb67ae85, 0x3c6ef372, 0xa54ff53a, 0x510e527f, 0x9b05688c, 0x1f83d9ab, 0x5be0cd19]

/-- The message schedule: `n` further words appended to those already there, newest first. -/
def shaSchedule : Nat → List Word → List Word
  | 0, w => w
  | n + 1, w =>
    let a := w.getD 14 0
    let e := w.getD 1 0
    let s0 := a.rotateRight 7 ^^^ a.rotateRight 18 ^^^ (a >>> 3)
    let s1 := e.rotateRight 17 ^^^ e.rotateRight 19 ^^^ (e >>> 10)
    shaSchedule n ((w.getD 15 0 + s0 + w.getD 6 0 + s1) :: w)

/-- One round of SHA-256 on the eight working words. -/
def shaRound (v : List Word) (kw : Word) : List Word :=
  match v with
  | [a, b, c, d, e, f, g, h] =>
    let t1 := h + (e.rotateRight 6 ^^^ e.rotateRight 11 ^^^ e.rotateRight 25)
                + ((e &&& f) ^^^ (~~~e &&& g)) + kw
    let t2 := (a.rotateRight 2 ^^^ a.rotateRight 13 ^^^ a.rotateRight 22)
                + ((a &&& b) ^^^ (a &&& c) ^^^ (b &&& c))
    [t1 + t2, a, b, c, d + t1, e, f, g]
  | _ => v

/-- A big-endian word of four bytes. -/
def beWord : Bytes → Word
  | [a, b, c, d] => BitVec.ofNat 32 (((a.toNat * 256 + b.toNat) * 256 + c.toNat) * 256 + d.toNat)
  | _ => 0

/-- The words of a byte string, big-endian; `n` bounds their number. -/
def beWords : Nat → Bytes → List Word
  | 0, _ => []
  | n + 1, l => beWord (l.take 4) :: beWords n (l.drop 4)

/-- SHA-256 of one 64-byte block. -/
def shaBlock (hash : List Word) (block : Bytes) : List Word :=
  let w := (shaSchedule 48 (beWords 16 block).reverse).reverse
  let out := (List.zipWith (· + ·) shaK w).foldl shaRound hash
  List.zipWith (· + ·) hash out

/-- The blocks of a padded message, hashed in turn; `n` is their number. -/
def shaBlocks : Nat → List Word → Bytes → List Word
  | 0, hash, _ => hash
  | n + 1, hash, l => shaBlocks n (shaBlock hash (l.take 64)) (l.drop 64)

/-- A word as four bytes, big-endian. -/
def beBytes (w : Word) : Bytes := (leBytes 4 w.toNat).reverse

/-- SHA-256 of a byte string (FIPS 180-4). -/
def sha256 (m : Bytes) : Bytes :=
  let zeros := (119 - m.length % 64) % 64
  let padded := m ++ 0x80 :: List.replicate zeros 0 ++ (leBytes 8 (8 * m.length)).reverse
  (shaBlocks (padded.length / 64) shaInit padded).flatMap beBytes

/-- HMAC-SHA-256 with a key of at most 64 bytes (R343). -/
def hmacSha256 (key m : Bytes) : Bytes :=
  let k := padTo 64 key
  sha256 (k.map (· ^^^ 0x5C) ++ sha256 (k.map (· ^^^ 0x36) ++ m))

/-- The bytes of an ASCII string. -/
def ascii (s : String) : Bytes := s.toList.map (fun c => BitVec.ofNat 8 c.toNat)

end Sys2Proof.Machine
end

