-- ==== Sys2Proof/Config.lean ====
section
/-! DEFINITION. The values the specification leaves open: none of them has a body, so nothing can
    be proved from a value of theirs. -/

namespace Sys2Proof

/-- The draws of the free values: the n-th value that the specification calls random, leaves
    unstated or leaves to the hardware (log entry 2). -/
opaque Config.free : Nat → Nat

/-- Whether an ECDSA P-256 signature verifies under one of the module's release public keys
    (R465): the keys and the arithmetic are not in the specification (log entry 3). Arguments:
    key index, digest of the signed part, signature bytes. -/
opaque Config.signatureGood : Nat → Bytes → Bytes → Bool

/-- What a schema part makes of the settings words stored under a schema version (R470): none where it
    has no rule for that version. The form of the part is not in the specification (log entry 3).
    Arguments: the part's bytes, the stored version, the stored words. -/
opaque Config.migrate : Bytes → Nat → List (Nat × Word) → Option (List (Nat × Word))

/-- The sign and the payload of a result of the loop engine that is not a number (R277 names IEEE 754,
    which leaves them open), from the operands (log entry 50). -/
opaque Config.nan : BitVec 32 → BitVec 32 → BitVec 32

/-- What the conversion of a loop value that is not finite to an integer gives, from the value and the
    scale (log entry 50). -/
opaque Config.whole : BitVec 32 → Nat → Int

end Sys2Proof
end

