-- ==== Sys2Proof/Machine/RegMap.lean ====
section
/-! DEFINITION. The register map (R32, R398): every register of the manual with its address, its
    reset source, and its fields with access code (R8), reset value and accepted range. The names
    are the manual's. -/

namespace Sys2Proof.Machine

/-- The access codes of R8; `rwc` is an RW field that the next COMMIT applies (R376). -/
inductive Acc where
  | ro
  | rw
  | rwc
  | rws
  | wo
  | w1c
  | rc
  deriving DecidableEq, Repr

/-- The reset sources (00, "Registers"); `kept` is a register that no reset of the manual's three
    sources writes (the VBAK domain and MRAM). -/
inductive ResetSource where
  | cold
  | warm
  | session
  | kept
  deriving DecidableEq, Repr

/-- A register field: its bits, access code, reset value and the range of values accepted. -/
structure Field where
  msb : Nat
  lsb : Nat
  acc : Acc
  rst : Nat
  min : Int
  max : Int
  deriving DecidableEq, Repr

/-- A register array of the manual: NAME[i][j] lies at base + stride1 * i + stride2 * j. -/
structure RegDesc where
  base : Nat
  stride1 : Nat
  count1 : Nat
  stride2 : Nat
  count2 : Nat
  source : ResetSource
  fields : List Field
  deriving DecidableEq, Repr

/-- A field that accepts every value its bits hold. -/
def fullField (msb lsb : Nat) (acc : Acc) (rst : Nat) : Field :=
  { msb := msb, lsb := lsb, acc := acc, rst := rst, min := 0, max := 2 ^ (msb + 1 - lsb) - 1 }

/-- The registers of the manual. -/
inductive Reg where
  | DEV_ID
  | DEV_FWVER
  | DEV_VIGVER
  | DEV_CAPS
  | DEV_SERIAL_LO
  | DEV_SERIAL_HI
  | TICK_CTRL
  | TICK_STATUS
  | TICK_COUNT
  | TICK_PHASE_ERR
  | TICK_FREQ
  | TICK_OFS
  | TICK_LOSS_TMO
  | TICK_HOLD_MAX
  | TICK_SYNC_DLY
  | DEVTIME_LO
  | DEVTIME_HI
  | TICK_UTC
  | TICK_LEAP_AT
  | TICK_CAL_LO
  | TICK_CAL_HI
  | TICK_OVR_CNT
  | TICK_OVR_STAT
  | RTC_SEC
  | RTC_SUB
  | AXIS_CFG
  | AXIS_BIND
  | AXIS_SCALE
  | AXIS_CPR
  | AXIS_LIM_LO
  | AXIS_LIM_HI
  | AXIS_IDX_POS
  | AXIS_SPD_CFG
  | AXIS_PRESET
  | AXIS_POS
  | AXIS_REV
  | AXIS_RATE
  | AXIS_SPEED
  | AXIS_STATUS
  | AXIS_EDGE_AGE
  | AXIS_IDX_ERR
  | AXIS_ERR_CNT
  | FB_CFG
  | FB_STATE
  | GSPD_CFG
  | GSPD_OUT_FREQ
  | PT_CFG
  | MSG_CFG
  | SP_CFG
  | SP_FIELD
  | SP_DATA
  | SP_STATUS
  | SP_SLOW
  | SP_ERR
  | POSE_CTRL
  | POSE_TRAVEL
  | POSE_IMU_MOUNT
  | POSE_IMU_POS
  | POSE_ANT
  | POSE_FIX_CFG
  | POSE_SLEW
  | POSE_SWAY_CFG
  | POSE_BRIDGE
  | POSE_GRADE_CFG
  | POSE_E
  | POSE_N
  | POSE_HDG
  | POSE_SPEED
  | POSE_YAW
  | POSE_SWAY_RATE
  | POSE_ODO_LO
  | POSE_ODO_HI
  | POSE_ODO_RATE
  | POSE_ODO_RESID
  | POSE_SIGMA
  | POSE_STATUS
  | POSE_FIX_CNT
  | POSE_FIX_REJ
  | POSE_FRAME
  | POSE_PROBE_SEL
  | POSE_PROBE_E
  | POSE_PROBE_N
  | POSE_PROBE_SPEED
  | ALM_NOZ_GEOM
  | MAP_CFG
  | MAP_PROD
  | MAP_POLICY
  | MAP_FRAMES
  | MAP_FLOW
  | MAP_CNT_FAULT
  | MAP_CNT_FILL
  | MAP_CNT_COV
  | MAP_CNT_WB
  | MAP_LOOKUPS
  | MAP_CNT_OOR
  | MAP_RATE_SEL
  | MAP_RATE_VAL
  | MAP_PROBE_E
  | MAP_PROBE_N
  | MAP_PROBE_RES
  | MAP_FRAME_KEY_LO
  | MAP_FRAME_KEY_HI
  | MAP_FRAME_STATE
  | MAP_FRAME_SEQ
  | MAP_TLB
  | ALM_CTRL
  | ALM_HORIZON
  | ALM_TIMING
  | ALM_STAT
  | ALM_CNT
  | ALM_PROD_CFG
  | ALM_PROD_OFS
  | ALM_PROD_TARGET
  | ALM_PROD_SCALE
  | ALM_AA_CFG
  | ALM_AA_STAT
  | ALM_AA_SEQ
  | ALM_AA_SEL
  | ALM_AA_WIN
  | ALM_AA_WSTAT
  | ALM_NOZ_CFG
  | ALM_NOZ_STATE
  | ALM_NOZ_LEAD
  | CMP_CFG
  | CMP_STATUS
  | CMP_NEXT_LO
  | CMP_NEXT_HI
  | CMP_CNT
  | CMP_FIRE_LO
  | CMP_FIRE_HI
  | CMP_CAPT
  | CMP_WR_POS_LO
  | CMP_WR_POS_HI
  | CMP_WR_PARAM
  | CMP_WR_CMD
  | CMP_RD_SEL
  | CMP_RD_POS_LO
  | CMP_RD_POS_HI
  | CMP_RD_PARAM
  | NOZ_CFG
  | NOZ_PEAK
  | NOZ_HOLD
  | NOZ_FLOW
  | NOZ_DET_OPEN
  | NOZ_DET_CLOSE
  | NOZ_LEARN
  | NOZ_DLIM
  | NOZ_STATE
  | NOZ_OUT
  | NOZ_MEAS
  | NOZ_DLY
  | NOZ_FLT
  | NOZ_CNT0
  | NOZ_CNT1
  | NOZ_INIT
  | BANK_CFG
  | BANK_STATE
  | BANK_CNT
  | BANK_FLT
  | BST_CFG
  | BST_STATE
  | BST_POWER
  | BST_FLT
  | PROP_CFG
  | PROP_TARGET
  | PROP_DITHER
  | PROP_PEAK
  | PROP_STATE
  | PROP_OUT
  | PROP_FLT
  | MDRV_CFG
  | MDRV_DT
  | MDRV_MINP
  | MDRV_BOOT
  | MDRV_PROT
  | MDRV_STOP
  | MDRV_COMM
  | MDRV_CARRIER
  | MDRV_SET
  | MDRV_RST
  | MDRV_SHADOW
  | MDRV_ACT
  | MDRV_DUTY
  | MDRV_STATE
  | MDRV_I_AB
  | MDRV_I_C
  | MDRV_OVL
  | MDRV_CNT0
  | MDRV_CNT1
  | MDRV_COMM_CNT
  | MDRV_FLT
  | MDRV_ARM
  | MDRV_TRIP_CFG
  | MDRV_TRIP_STATE
  | MDRV_CAL
  | LOOP_CFG
  | LOOP_IN
  | LOOP_OBS_USE
  | LOOP_OBS_MODEL
  | LOOP_FERR_CFG
  | LOOP_SEL
  | LOOP_ROW_CFG
  | LOOP_ROW_SPACING
  | LOOP_ROW_PHASE
  | LOOP_ROW_DROP
  | LOOP_ROW_GEOM
  | LOOP_CNT
  | LOOP_ROW_G
  | LOOP_STATE
  | LOOP_FLT
  | LOOP_BUDGET
  | LOOP_USE
  | LOOP_OVR
  | LOOP_TRACE_STAT
  | LOOP_TRACE_TICK
  | PWRB_CFG
  | PWRB_BUDGET
  | PWRB_GRANT
  | PWRB_BRIDGE
  | PWRB_IN
  | PWRB_VIN
  | PWRB_DEMAND
  | PWRB_CHG01
  | PWRB_CHG23
  | PWRB_SHED
  | PWRB_DENIED
  | PWRB_BST_E
  | PWRB_RES
  | PWRB_CNT0
  | PWRB_CNT1
  | DEV_LTOL
  | DEV_PCTRL
  | DEV_PSTATE
  | DEV_WAKE
  | DEV_ALARM_LO
  | DEV_ALARM_HI
  | LSW_CFG
  | LSW_LIMIT
  | LSW_PROT
  | LSW_COMP
  | LSW_CTRL
  | LSW_STATE
  | LSW_MEAS
  | LSW_TEMP
  | LSW_FLT
  | LSW_CNT
  | LSW_PAIR_CFG
  | LSW_HOLD
  | LINK_SESS_CFG
  | LINK_SESS
  | LINK_SESS_ADDR
  | LINK_SESS_PORT
  | LINK_KEY
  | LINK_CNT0
  | LINK_CNT1
  | LINK_PTP_CFG
  | LINK_PTP_STAT
  | LINK_PTP_PD
  | CANB_CFG
  | CANB_NAME_LO
  | CANB_NAME_HI
  | CANB_ADDR
  | CANB_MGMT
  | CANB_DTC_CLR
  | CANB_CNT
  | CANB_DTC
  | CANS_CFG
  | CANS_FILT_ID
  | CANS_FILT_MASK
  | CANS_RX_STAT
  | CANS_RX_WIN
  | CANS_TX_WIN
  | CANS_RX_POP
  | CANS_TX_GO
  | CANS_TX_STAT
  | CMDQ_STAT
  | CMDQ_DISP
  | CMDQ_BUSY
  | TXN_STAT
  | TXN_NUM
  | TXN_LEFT
  | TXN_LAST
  | TXN_SAVE
  | TXN_SAVE_STAT
  | TXN_CNT
  | RES_OWNER
  | RES_LANE
  | RES_PIN_CFG
  | RES_GPO
  | RES_GPI
  | RES_CNT
  | VIG_STAT
  | VIG_SAFE
  | VIG_SLOSS
  | VIG_WDT_CFG
  | VIG_WDT_STAT
  | VIG_CNT
  | VIG_LOGFAIL
  | VIG_DBG_CHAL
  | VIG_DBG_RESP
  | VIG_DBG_CTRL
  | VIG_DBG_STAT
  | VIG_DBG_CFG
  | VIG_UNIT
  | DEV_RST_CAUSE
  | DEV_RST_CNT
  | EVT_CFG
  | EVT_CNT
  | EVT_PEND
  | EVT_ACT
  | EVT_CTRL
  | EVT_PKT_STAT
  | EVT_THERM
  | DIARY_CFG
  | DIARY_STATE
  | DIARY_OLDEST
  | DIARY_NEWEST
  | DIARY_DRAINED
  | DIARY_CNT0
  | DIARY_CNT1
  | DIARY_EMBER
  | DIARY_FREEZE
  | UPD_STATE
  | UPD_OFFSET
  | UPD_LEN
  | UPD_ID
  | UPD_BOOT
  | UPD_SEC
  | UPD_KEYS
  | UPD_SLOT
  | UPD_STORE
  | UPD_MIG
  | UPD_CNT
  | LINK_PHY_ROLE
  | LINK_PHY_STAT
  | LINK_PHY_CNT
  | LOOP_SP
  | LOOP_RES_LIM
  | LOOP_FERR_LIM
  | LOOP_VMAX
  | LOOP_AMAX
  | LOOP_JMAX
  | LOOP_SET_A
  | LOOP_SET_B
  | LOOP_BIQUAD
  | LOOP_R
  | LOOP_Y
  | LOOP_U
  | LOOP_I
  | LOOP_E
  | LOOP_YHAT
  | LOOP_COEF
  deriving DecidableEq, Repr

/-- The description of each register, as its table in the manual gives it. -/
def desc : Reg → RegDesc
  | .DEV_ID => ⟨0x000000, 0x0, 1, 0x0, 1, .cold,
      [fullField 31 16 .ro 49302, fullField 15 8 .ro 0, fullField 7 4 .ro 0, fullField 3 0 .ro 0]⟩
  | .DEV_FWVER => ⟨0x000004, 0x0, 1, 0x0, 1, .cold,
      [fullField 31 24 .ro 0, fullField 23 16 .ro 0, fullField 15 2 .ro 0, fullField 1 1 .ro 0,
       fullField 0 0 .ro 0]⟩
  | .DEV_VIGVER => ⟨0x000008, 0x0, 1, 0x0, 1, .cold,
      [fullField 31 24 .ro 0, fullField 23 16 .ro 0, fullField 15 0 .ro 0]⟩
  | .DEV_CAPS => ⟨0x00000C, 0x0, 1, 0x0, 1, .cold,
      [fullField 31 24 .ro 255, fullField 23 16 .ro 0, fullField 11 0 .ro 0]⟩
  | .DEV_SERIAL_LO => ⟨0x000010, 0x0, 1, 0x0, 1, .cold,
      [fullField 31 0 .ro 0]⟩
  | .DEV_SERIAL_HI => ⟨0x000014, 0x0, 1, 0x0, 1, .cold,
      [fullField 31 0 .ro 0]⟩
  | .TICK_CTRL => ⟨0x010000, 0x0, 1, 0x0, 1, .cold,
      [⟨7, 6, .rws, 0, 0, 2⟩, fullField 4 4 .rws 0, ⟨2, 0, .rws, 0, 0, 3⟩]⟩
  | .TICK_STATUS => ⟨0x010004, 0x0, 1, 0x0, 1, .cold,
      [fullField 9 8 .ro 0, fullField 7 7 .ro 0, fullField 6 6 .ro 0, fullField 5 5 .ro 0,
       fullField 4 4 .ro 0, fullField 2 0 .ro 0]⟩
  | .TICK_COUNT => ⟨0x010008, 0x0, 1, 0x0, 1, .cold,
      [fullField 31 0 .ro 0]⟩
  | .TICK_PHASE_ERR => ⟨0x01000C, 0x0, 1, 0x0, 1, .cold,
      [fullField 31 0 .ro 0]⟩
  | .TICK_FREQ => ⟨0x010010, 0x0, 1, 0x0, 1, .cold,
      [fullField 31 0 .ro 0]⟩
  | .TICK_OFS => ⟨0x010014, 0x0, 1, 0x0, 1, .cold,
      [⟨13, 0, .rws, 0, 0, 9999⟩]⟩
  | .TICK_LOSS_TMO => ⟨0x010018, 0x0, 1, 0x0, 1, .cold,
      [⟨13, 0, .rws, 1000, 100, 10000⟩]⟩
  | .TICK_HOLD_MAX => ⟨0x01001C, 0x0, 1, 0x0, 1, .cold,
      [⟨11, 0, .rws, 300, 0, 3600⟩]⟩
  | .TICK_SYNC_DLY => ⟨0x010020, 0x0, 1, 0x0, 1, .cold,
      [fullField 15 0 .rws 0]⟩
  | .DEVTIME_LO => ⟨0x010024, 0x0, 1, 0x0, 1, .cold,
      [fullField 31 0 .ro 0]⟩
  | .DEVTIME_HI => ⟨0x010028, 0x0, 1, 0x0, 1, .cold,
      [fullField 31 0 .ro 0]⟩
  | .TICK_UTC => ⟨0x01002C, 0x0, 1, 0x0, 1, .cold,
      [fullField 15 0 .ro 0]⟩
  | .TICK_LEAP_AT => ⟨0x010030, 0x0, 1, 0x0, 1, .cold,
      [fullField 31 0 .ro 0]⟩
  | .TICK_CAL_LO => ⟨0x010034, 0x0, 1, 0x0, 1, .cold,
      [fullField 31 0 .ro 0]⟩
  | .TICK_CAL_HI => ⟨0x010038, 0x0, 1, 0x0, 1, .cold,
      [fullField 15 0 .ro 0]⟩
  | .TICK_OVR_CNT => ⟨0x01003C, 0x0, 1, 0x0, 1, .cold,
      [fullField 31 16 .rc 0, fullField 15 0 .rc 0]⟩
  | .TICK_OVR_STAT => ⟨0x010040, 0x0, 1, 0x0, 1, .cold,
      [fullField 25 16 .ro 0, fullField 7 0 .ro 0]⟩
  | .RTC_SEC => ⟨0x010044, 0x0, 1, 0x0, 1, .kept,
      [fullField 31 0 .ro 0]⟩
  | .RTC_SUB => ⟨0x010048, 0x0, 1, 0x0, 1, .kept,
      [fullField 17 16 .ro 0, fullField 14 0 .ro 0]⟩
  | .AXIS_CFG => ⟨0x060000, 0x80, 32, 0x0, 1, .cold,
      [fullField 31 24 .rws 2, fullField 18 16 .rws 0, ⟨14, 13, .rws, 0, 0, 2⟩,
       fullField 12 12 .rws 0, ⟨10, 9, .rws, 0, 0, 2⟩, fullField 8 8 .rws 0, fullField 7 7 .rws 0,
       ⟨6, 5, .rws, 0, 0, 2⟩, fullField 4 4 .rws 0, ⟨3, 0, .rws, 0, 0, 6⟩]⟩
  | .AXIS_BIND => ⟨0x060004, 0x80, 32, 0x0, 1, .cold,
      [fullField 29 24 .rws 63, fullField 21 16 .rws 63, fullField 13 8 .rws 63,
       fullField 5 0 .rws 63]⟩
  | .AXIS_SCALE => ⟨0x060008, 0x80, 32, 0x0, 1, .cold,
      [⟨31, 0, .rws, 1000, 1, 4294967295⟩]⟩
  | .AXIS_CPR => ⟨0x06000C, 0x80, 32, 0x0, 1, .cold,
      [fullField 30 0 .rws 0]⟩
  | .AXIS_LIM_LO => ⟨0x060010, 0x80, 32, 0x0, 1, .cold,
      [fullField 31 0 .rws 2147483648]⟩
  | .AXIS_LIM_HI => ⟨0x060014, 0x80, 32, 0x0, 1, .cold,
      [fullField 31 0 .rws 2147483647]⟩
  | .AXIS_IDX_POS => ⟨0x060018, 0x80, 32, 0x0, 1, .cold,
      [fullField 31 0 .rws 0]⟩
  | .AXIS_SPD_CFG => ⟨0x06001C, 0x80, 32, 0x0, 1, .cold,
      [fullField 24 24 .rws 1, fullField 23 16 .rws 10, ⟨10, 0, .rws, 500, 1, 2000⟩]⟩
  | .AXIS_PRESET => ⟨0x060020, 0x80, 32, 0x0, 1, .cold,
      [fullField 31 0 .rws 0]⟩
  | .AXIS_POS => ⟨0x060040, 0x80, 32, 0x0, 1, .warm,
      [fullField 31 0 .ro 0]⟩
  | .AXIS_REV => ⟨0x060044, 0x80, 32, 0x0, 1, .warm,
      [fullField 31 0 .ro 0]⟩
  | .AXIS_RATE => ⟨0x060048, 0x80, 32, 0x0, 1, .warm,
      [fullField 31 0 .ro 0]⟩
  | .AXIS_SPEED => ⟨0x06004C, 0x80, 32, 0x0, 1, .warm,
      [fullField 31 0 .ro 0]⟩
  | .AXIS_STATUS => ⟨0x060050, 0x80, 32, 0x0, 1, .warm,
      [fullField 18 16 .ro 0, fullField 12 12 .ro 0, fullField 11 11 .ro 0, fullField 10 10 .ro 0,
       fullField 9 9 .ro 0, fullField 8 8 .ro 0, fullField 7 7 .ro 0, fullField 6 6 .ro 0,
       fullField 5 5 .ro 0, fullField 4 4 .ro 0, fullField 3 3 .ro 0, fullField 2 2 .ro 0,
       fullField 1 1 .ro 1, fullField 0 0 .ro 0]⟩
  | .AXIS_EDGE_AGE => ⟨0x060054, 0x80, 32, 0x0, 1, .warm,
      [fullField 31 0 .ro 4294967295]⟩
  | .AXIS_IDX_ERR => ⟨0x060058, 0x80, 32, 0x0, 1, .warm,
      [fullField 31 0 .ro 0]⟩
  | .AXIS_ERR_CNT => ⟨0x06005C, 0x80, 32, 0x0, 1, .warm,
      [fullField 31 24 .rc 0, fullField 23 16 .rc 0, fullField 15 8 .rc 0, fullField 7 0 .rc 0]⟩
  | .FB_CFG => ⟨0x061000, 0x8, 48, 0x0, 1, .cold,
      [⟨31, 28, .rws, 2, 1, 15⟩, ⟨27, 24, .rws, 6, 2, 15⟩, fullField 23 16 .rws 0,
       fullField 15 15 .rws 0, fullField 14 14 .rws 0, ⟨13, 12, .rws, 0, 0, 2⟩,
       ⟨11, 8, .rws, 2, 1, 10⟩, ⟨7, 0, .rws, 25, 10, 200⟩]⟩
  | .FB_STATE => ⟨0x061004, 0x8, 48, 0x0, 1, .warm,
      [fullField 31 16 .ro 0, fullField 0 0 .ro 0]⟩
  | .GSPD_CFG => ⟨0x062000, 0x0, 1, 0x0, 1, .cold,
      [fullField 31 16 .rws 30, fullField 13 8 .rws 63, fullField 7 0 .rws 10]⟩
  | .GSPD_OUT_FREQ => ⟨0x062004, 0x0, 1, 0x0, 1, .warm,
      [fullField 31 0 .ro 0]⟩
  | .PT_CFG => ⟨0x062010, 0x4, 4, 0x0, 1, .cold,
      [⟨31, 24, .rws, 1, 1, 255⟩, ⟨23, 16, .rws, 10, 1, 255⟩, fullField 13 8 .rws 0,
       fullField 2 2 .rws 0, ⟨1, 0, .rws, 0, 0, 2⟩]⟩
  | .MSG_CFG => ⟨0x062020, 0x0, 1, 0x0, 1, .cold,
      [fullField 23 16 .rws 255, ⟨15, 0, .rws, 300, 50, 5000⟩]⟩
  | .SP_CFG => ⟨0x068000, 0x40, 4, 0x0, 1, .cold,
      [fullField 31 24 .rws 6, ⟨21, 16, .rws, 25, 8, 32⟩, ⟨15, 11, .rws, 10, 5, 30⟩,
       ⟨10, 8, .rws, 6, 1, 6⟩, fullField 6 6 .rws 0, fullField 5 5 .rws 0, ⟨4, 3, .rws, 0, 0, 2⟩,
       fullField 2 2 .rws 0, ⟨1, 0, .rws, 0, 0, 2⟩]⟩
  | .SP_FIELD => ⟨0x068004, 0x40, 4, 0x0, 1, .cold,
      [⟨31, 24, .rws, 10, 1, 255⟩, ⟨23, 16, .rws, 3, 1, 255⟩, fullField 15 15 .rws 0,
       ⟨13, 8, .rws, 12, 1, 32⟩, fullField 4 0 .rws 0]⟩
  | .SP_DATA => ⟨0x068008, 0x40, 4, 0x0, 1, .warm,
      [fullField 31 0 .ro 0]⟩
  | .SP_STATUS => ⟨0x06800C, 0x40, 4, 0x0, 1, .warm,
      [fullField 31 8 .ro 16777215, fullField 7 4 .ro 0, fullField 1 1 .ro 0, fullField 0 0 .ro 0]⟩
  | .SP_SLOW => ⟨0x068010, 0x40, 4, 0x0, 1, .warm,
      [fullField 25 24 .ro 0, fullField 23 16 .ro 0, fullField 15 0 .ro 0]⟩
  | .SP_ERR => ⟨0x068014, 0x40, 4, 0x0, 1, .warm,
      [fullField 31 24 .rc 0, fullField 23 16 .rc 0, fullField 15 0 .rc 0]⟩
  | .POSE_CTRL => ⟨0x070000, 0x0, 1, 0x0, 1, .cold,
      [fullField 31 16 .rws 100, fullField 3 3 .rws 1, fullField 2 2 .rws 1, fullField 1 1 .rws 0,
       fullField 0 0 .rws 0]⟩
  | .POSE_TRAVEL => ⟨0x070004, 0x4, 4, 0x0, 1, .cold,
      [fullField 31 16 .rws 0, ⟨13, 8, .rws, 10, 1, 63⟩, fullField 7 7 .rws 0,
       fullField 6 6 .rws 0, fullField 4 0 .rws 0]⟩
  | .POSE_IMU_MOUNT => ⟨0x070014, 0x0, 1, 0x0, 1, .cold,
      [⟨6, 4, .rws, 5, 0, 5⟩, ⟨2, 0, .rws, 0, 0, 5⟩]⟩
  | .POSE_IMU_POS => ⟨0x070018, 0x0, 1, 0x0, 1, .cold,
      [fullField 31 16 .rws 0, fullField 15 0 .rws 0]⟩
  | .POSE_ANT => ⟨0x07001C, 0x0, 1, 0x0, 1, .cold,
      [fullField 31 16 .rws 0, fullField 15 0 .rws 0]⟩
  | .POSE_FIX_CFG => ⟨0x070020, 0x0, 1, 0x0, 1, .cold,
      [⟨31, 28, .rws, 5, 3, 15⟩, ⟨27, 16, .rws, 100, 10, 4095⟩, ⟨8, 0, .rws, 300, 0, 500⟩]⟩
  | .POSE_SLEW => ⟨0x070024, 0x0, 1, 0x0, 1, .cold,
      [⟨31, 24, .rws, 5, 1, 255⟩, ⟨23, 12, .rws, 200, 1, 4095⟩, ⟨11, 6, .rws, 10, 1, 50⟩,
       ⟨5, 0, .rws, 20, 1, 63⟩]⟩
  | .POSE_SWAY_CFG => ⟨0x070028, 0x0, 1, 0x0, 1, .cold,
      [⟨31, 16, .rws, 910, 1, 5461⟩, ⟨7, 0, .rws, 10, 1, 255⟩]⟩
  | .POSE_BRIDGE => ⟨0x07002C, 0x0, 1, 0x0, 1, .cold,
      [fullField 31 16 .rws 1000, ⟨15, 0, .rws, 1000, 0, 5000⟩]⟩
  | .POSE_GRADE_CFG => ⟨0x070030, 0x0, 1, 0x0, 1, .cold,
      [fullField 31 16 .rws 50, fullField 15 8 .rws 10, ⟨7, 0, .rws, 50, 1, 255⟩]⟩
  | .POSE_E => ⟨0x070040, 0x0, 1, 0x0, 1, .warm,
      [fullField 31 0 .ro 0]⟩
  | .POSE_N => ⟨0x070044, 0x0, 1, 0x0, 1, .warm,
      [fullField 31 0 .ro 0]⟩
  | .POSE_HDG => ⟨0x070048, 0x0, 1, 0x0, 1, .warm,
      [fullField 31 16 .ro 0, fullField 15 0 .ro 0]⟩
  | .POSE_SPEED => ⟨0x07004C, 0x0, 1, 0x0, 1, .warm,
      [fullField 31 0 .ro 0]⟩
  | .POSE_YAW => ⟨0x070050, 0x0, 1, 0x0, 1, .warm,
      [fullField 31 0 .ro 0]⟩
  | .POSE_SWAY_RATE => ⟨0x070054, 0x0, 1, 0x0, 1, .warm,
      [fullField 31 0 .ro 0]⟩
  | .POSE_ODO_LO => ⟨0x070058, 0x0, 1, 0x0, 1, .cold,
      [fullField 31 0 .ro 0]⟩
  | .POSE_ODO_HI => ⟨0x07005C, 0x0, 1, 0x0, 1, .cold,
      [fullField 15 0 .ro 0]⟩
  | .POSE_ODO_RATE => ⟨0x070060, 0x0, 1, 0x0, 1, .warm,
      [fullField 31 0 .ro 0]⟩
  | .POSE_ODO_RESID => ⟨0x070064, 0x0, 1, 0x0, 1, .warm,
      [fullField 31 0 .ro 0]⟩
  | .POSE_SIGMA => ⟨0x070068, 0x0, 1, 0x0, 1, .warm,
      [fullField 31 16 .ro 65535, fullField 15 0 .ro 0]⟩
  | .POSE_STATUS => ⟨0x07006C, 0x0, 1, 0x0, 1, .warm,
      [fullField 31 16 .ro 65535, fullField 9 9 .ro 0, fullField 8 8 .ro 0, fullField 7 7 .ro 0,
       fullField 6 6 .ro 1, fullField 5 5 .ro 1, fullField 4 4 .ro 0, fullField 3 3 .ro 0,
       fullField 2 2 .ro 0, fullField 1 0 .ro 0]⟩
  | .POSE_FIX_CNT => ⟨0x070070, 0x0, 1, 0x0, 1, .warm,
      [fullField 31 16 .ro 0, fullField 15 0 .ro 0]⟩
  | .POSE_FIX_REJ => ⟨0x070074, 0x0, 1, 0x0, 1, .warm,
      [fullField 31 24 .rc 0, fullField 23 16 .rc 0, fullField 15 8 .rc 0, fullField 7 0 .rc 0]⟩
  | .POSE_FRAME => ⟨0x070078, 0x0, 1, 0x0, 1, .cold,
      [fullField 16 16 .ro 0, fullField 15 0 .ro 0]⟩
  | .POSE_PROBE_SEL => ⟨0x070080, 0x0, 1, 0x0, 1, .session,
      [fullField 31 31 .ro 0, ⟨6, 0, .rw, 0, 0, 95⟩]⟩
  | .POSE_PROBE_E => ⟨0x070084, 0x0, 1, 0x0, 1, .warm,
      [fullField 31 0 .ro 0]⟩
  | .POSE_PROBE_N => ⟨0x070088, 0x0, 1, 0x0, 1, .warm,
      [fullField 31 0 .ro 0]⟩
  | .POSE_PROBE_SPEED => ⟨0x07008C, 0x0, 1, 0x0, 1, .warm,
      [fullField 31 0 .ro 0]⟩
  | .ALM_NOZ_GEOM => ⟨0x091000, 0x10, 96, 0x0, 1, .cold,
      [fullField 31 16 .rws 0, fullField 15 0 .rws 0]⟩
  | .MAP_CFG => ⟨0x080000, 0x0, 1, 0x0, 1, .cold,
      [⟨31, 24, .rws, 10, 1, 255⟩, ⟨23, 16, .rws, 50, 10, 255⟩, fullField 15 12 .rws 4,
       ⟨11, 8, .rws, 5, 1, 15⟩, ⟨7, 0, .rws, 50, 10, 255⟩]⟩
  | .MAP_PROD => ⟨0x080010, 0x8, 2, 0x0, 1, .cold,
      [fullField 15 8 .rws 0, fullField 2 1 .rws 1, fullField 0 0 .rws 0]⟩
  | .MAP_POLICY => ⟨0x080014, 0x8, 2, 0x0, 1, .cold,
      [⟨26, 16, .rws, 250, 0, 2000⟩, ⟨1, 0, .rws, 1, 0, 2⟩]⟩
  | .MAP_FRAMES => ⟨0x080020, 0x0, 1, 0x0, 1, .warm,
      [fullField 31 24 .ro 0, fullField 23 16 .ro 0, fullField 15 8 .ro 0, fullField 7 0 .ro 128]⟩
  | .MAP_FLOW => ⟨0x080024, 0x0, 1, 0x0, 1, .warm,
      [fullField 30 24 .ro 0, fullField 18 16 .ro 0, fullField 12 8 .ro 0, fullField 4 0 .ro 0]⟩
  | .MAP_CNT_FAULT => ⟨0x080028, 0x0, 1, 0x0, 1, .warm,
      [fullField 31 16 .rc 0, fullField 15 0 .rc 0]⟩
  | .MAP_CNT_FILL => ⟨0x08002C, 0x0, 1, 0x0, 1, .warm,
      [fullField 31 24 .rc 0, fullField 23 16 .rc 0, fullField 15 8 .rc 0, fullField 7 0 .rc 0]⟩
  | .MAP_CNT_COV => ⟨0x080030, 0x0, 1, 0x0, 1, .warm,
      [fullField 31 16 .rc 0, fullField 15 0 .rc 0]⟩
  | .MAP_CNT_WB => ⟨0x080034, 0x0, 1, 0x0, 1, .warm,
      [fullField 31 16 .rc 0, fullField 15 8 .rc 0, fullField 7 0 .rc 0]⟩
  | .MAP_LOOKUPS => ⟨0x080038, 0x0, 1, 0x0, 1, .warm,
      [fullField 31 16 .rc 0, fullField 15 0 .ro 0]⟩
  | .MAP_CNT_OOR => ⟨0x08003C, 0x0, 1, 0x0, 1, .warm,
      [fullField 31 0 .rc 0]⟩
  | .MAP_RATE_SEL => ⟨0x080040, 0x0, 1, 0x0, 1, .session,
      [fullField 31 31 .ro 0, fullField 30 30 .ro 0, fullField 16 16 .rw 0, fullField 11 0 .rw 0]⟩
  | .MAP_RATE_VAL => ⟨0x080044, 0x0, 1, 0x0, 1, .warm,
      [fullField 31 0 .ro 0]⟩
  | .MAP_PROBE_E => ⟨0x080050, 0x0, 1, 0x0, 1, .session,
      [fullField 31 0 .rw 0]⟩
  | .MAP_PROBE_N => ⟨0x080054, 0x0, 1, 0x0, 1, .session,
      [fullField 31 0 .rw 0]⟩
  | .MAP_PROBE_RES => ⟨0x080058, 0x0, 1, 0x0, 1, .session,
      [fullField 31 24 .ro 255, fullField 17 17 .ro 0, fullField 16 16 .rw 0, fullField 15 0 .ro 0]⟩
  | .MAP_FRAME_KEY_LO => ⟨0x081000, 0x10, 128, 0x0, 1, .warm,
      [fullField 31 0 .ro 0]⟩
  | .MAP_FRAME_KEY_HI => ⟨0x081004, 0x10, 128, 0x0, 1, .warm,
      [fullField 9 0 .ro 0]⟩
  | .MAP_FRAME_STATE => ⟨0x081008, 0x10, 128, 0x0, 1, .warm,
      [fullField 31 16 .ro 65535, fullField 15 8 .ro 0, fullField 5 5 .ro 0, fullField 4 4 .ro 0,
       fullField 2 0 .ro 0]⟩
  | .MAP_FRAME_SEQ => ⟨0x08100C, 0x10, 128, 0x0, 1, .warm,
      [fullField 31 0 .ro 4294967295]⟩
  | .MAP_TLB => ⟨0x082000, 0x4, 64, 0x0, 1, .warm,
      [fullField 31 31 .ro 0, fullField 6 0 .ro 0]⟩
  | .ALM_CTRL => ⟨0x090000, 0x0, 1, 0x0, 1, .cold,
      [fullField 1 1 .rws 1, fullField 0 0 .rws 0]⟩
  | .ALM_HORIZON => ⟨0x090004, 0x0, 1, 0x0, 1, .cold,
      [⟨31, 24, .rws, 20, 5, 50⟩, ⟨19, 8, .rws, 400, 10, 400⟩, ⟨7, 0, .rws, 40, 5, 40⟩]⟩
  | .ALM_TIMING => ⟨0x090008, 0x0, 1, 0x0, 1, .cold,
      [⟨31, 24, .rws, 0, 0, 200⟩, ⟨23, 16, .rws, 50, 5, 255⟩, fullField 15 15 .rws 1,
       ⟨14, 0, .rws, 200, 0, 20000⟩]⟩
  | .ALM_STAT => ⟨0x09000C, 0x0, 1, 0x0, 1, .warm,
      [fullField 31 22 .ro 0, fullField 21 12 .ro 0, fullField 6 0 .ro 0]⟩
  | .ALM_CNT => ⟨0x090010, 0x4, 4, 0x0, 1, .warm,
      [fullField 31 16 .rc 0, fullField 15 0 .rc 0]⟩
  | .ALM_PROD_CFG => ⟨0x090020, 0x10, 2, 0x0, 1, .cold,
      [⟨31, 28, .rws, 0, 0, 2⟩, fullField 27 26 .rws 1, ⟨25, 24, .rws, 0, 0, 2⟩,
       fullField 22 22 .rws 0, ⟨21, 20, .rws, 0, 0, 2⟩, ⟨18, 16, .rws, 1, 1, 7⟩,
       ⟨14, 8, .rws, 50, 0, 100⟩, ⟨6, 0, .rws, 50, 0, 100⟩]⟩
  | .ALM_PROD_OFS => ⟨0x090024, 0x10, 2, 0x0, 1, .cold,
      [⟨31, 16, .rws, 0, (-2000), 2000⟩, ⟨15, 0, .rws, 0, (-2000), 2000⟩]⟩
  | .ALM_PROD_TARGET => ⟨0x090028, 0x10, 2, 0x0, 1, .cold,
      [fullField 31 0 .ro 0]⟩
  | .ALM_PROD_SCALE => ⟨0x09002C, 0x10, 2, 0x0, 1, .cold,
      [fullField 23 16 .rws 20, fullField 10 0 .ro 1000]⟩
  | .ALM_AA_CFG => ⟨0x090100, 0x0, 1, 0x0, 1, .cold,
      [⟨23, 16, .rws, 50, 1, 255⟩, ⟨15, 0, .rws, 1000, 100, 10000⟩]⟩
  | .ALM_AA_STAT => ⟨0x090104, 0x0, 1, 0x0, 1, .warm,
      [fullField 31 16 .ro 0, fullField 15 0 .rc 0]⟩
  | .ALM_AA_SEQ => ⟨0x090108, 0x0, 1, 0x0, 1, .warm,
      [fullField 31 0 .ro 0]⟩
  | .ALM_AA_SEL => ⟨0x09010C, 0x0, 1, 0x0, 1, .session,
      [fullField 31 0 .rw 0]⟩
  | .ALM_AA_WIN => ⟨0x090110, 0x4, 8, 0x0, 1, .warm,
      [fullField 31 0 .ro 0]⟩
  | .ALM_AA_WSTAT => ⟨0x090130, 0x0, 1, 0x0, 1, .warm,
      [fullField 0 0 .ro 0]⟩
  | .ALM_NOZ_CFG => ⟨0x091004, 0x10, 96, 0x0, 1, .cold,
      [⟨21, 20, .rws, 0, 0, 2⟩, ⟨17, 16, .rws, 2, 0, 2⟩, ⟨15, 0, .rws, 250, 10, 2000⟩]⟩
  | .ALM_NOZ_STATE => ⟨0x091008, 0x10, 96, 0x0, 1, .warm,
      [fullField 23 16 .ro 0, fullField 11 11 .ro 0, fullField 10 10 .ro 0, fullField 9 9 .ro 0,
       fullField 8 8 .ro 0, fullField 7 7 .ro 0, fullField 6 5 .ro 0, fullField 4 4 .ro 0,
       fullField 3 0 .ro 0]⟩
  | .ALM_NOZ_LEAD => ⟨0x09100C, 0x10, 96, 0x0, 1, .warm,
      [fullField 31 16 .ro 0, fullField 15 0 .ro 0]⟩
  | .CMP_CFG => ⟨0x0A0000, 0x20, 160, 0x0, 1, .cold,
      [fullField 23 16 .rws 255, ⟨9, 8, .rws, 0, 0, 2⟩, fullField 6 2 .rws 0, ⟨1, 0, .rws, 0, 0, 2⟩]⟩
  | .CMP_STATUS => ⟨0x0A0004, 0x20, 160, 0x0, 1, .warm,
      [fullField 19 16 .ro 0, fullField 15 8 .ro 0, fullField 3 0 .ro 0]⟩
  | .CMP_NEXT_LO => ⟨0x0A0008, 0x20, 160, 0x0, 1, .warm,
      [fullField 31 0 .ro 0]⟩
  | .CMP_NEXT_HI => ⟨0x0A000C, 0x20, 160, 0x0, 1, .warm,
      [fullField 31 0 .ro 0]⟩
  | .CMP_CNT => ⟨0x0A0010, 0x20, 160, 0x0, 1, .warm,
      [fullField 31 24 .rc 0, fullField 23 16 .rc 0, fullField 15 0 .rc 0]⟩
  | .CMP_FIRE_LO => ⟨0x0A0014, 0x20, 160, 0x0, 1, .warm,
      [fullField 31 0 .ro 0]⟩
  | .CMP_FIRE_HI => ⟨0x0A0018, 0x20, 160, 0x0, 1, .warm,
      [fullField 31 0 .ro 0]⟩
  | .CMP_CAPT => ⟨0x0A001C, 0x20, 160, 0x0, 1, .warm,
      [fullField 31 0 .ro 0]⟩
  | .CMP_WR_POS_LO => ⟨0x0A1400, 0x0, 1, 0x0, 1, .session,
      [fullField 31 0 .rws 0]⟩
  | .CMP_WR_POS_HI => ⟨0x0A1404, 0x0, 1, 0x0, 1, .session,
      [fullField 15 0 .rws 0]⟩
  | .CMP_WR_PARAM => ⟨0x0A1408, 0x0, 1, 0x0, 1, .session,
      [fullField 31 0 .rws 0]⟩
  | .CMP_WR_CMD => ⟨0x0A140C, 0x0, 1, 0x0, 1, .session,
      [fullField 16 16 .rws 0, fullField 15 12 .rws 0, ⟨9, 8, .rws, 0, 0, 1⟩,
       ⟨7, 0, .rws, 0, 0, 159⟩]⟩
  | .CMP_RD_SEL => ⟨0x0A1410, 0x0, 1, 0x0, 1, .session,
      [fullField 10 8 .rw 0, ⟨7, 0, .rw, 0, 0, 159⟩]⟩
  | .CMP_RD_POS_LO => ⟨0x0A1414, 0x0, 1, 0x0, 1, .warm,
      [fullField 31 0 .ro 0]⟩
  | .CMP_RD_POS_HI => ⟨0x0A1418, 0x0, 1, 0x0, 1, .warm,
      [fullField 31 0 .ro 0]⟩
  | .CMP_RD_PARAM => ⟨0x0A141C, 0x0, 1, 0x0, 1, .warm,
      [fullField 31 0 .ro 0]⟩
  | .NOZ_CFG => ⟨0x0B0000, 0x40, 96, 0x0, 1, .cold,
      [fullField 3 3 .rws 1, fullField 2 2 .rws 1, fullField 1 1 .rws 1, fullField 0 0 .rws 1]⟩
  | .NOZ_PEAK => ⟨0x0B0004, 0x40, 96, 0x0, 1, .cold,
      [⟨31, 16, .rws, 50, 20, 2000⟩, ⟨11, 0, .rws, 1600, 500, 4000⟩]⟩
  | .NOZ_HOLD => ⟨0x0B0008, 0x40, 96, 0x0, 1, .cold,
      [⟨24, 16, .rws, 20, 5, 500⟩, ⟨10, 0, .rws, 400, 100, 2000⟩]⟩
  | .NOZ_FLOW => ⟨0x0B000C, 0x40, 96, 0x0, 1, .cold,
      [⟨15, 0, .rws, 1600, 1, 65535⟩]⟩
  | .NOZ_DET_OPEN => ⟨0x0B0010, 0x40, 96, 0x0, 1, .cold,
      [⟨31, 20, .rws, 500, 1, 4000⟩, ⟨19, 8, .rws, 5, 0, 3999⟩, ⟨7, 4, .rws, 4, 1, 15⟩,
       ⟨3, 0, .rws, 1, 1, 8⟩]⟩
  | .NOZ_DET_CLOSE => ⟨0x0B0014, 0x40, 96, 0x0, 1, .cold,
      [⟨31, 20, .rws, 500, 1, 4000⟩, ⟨19, 8, .rws, 5, 0, 3999⟩, ⟨7, 4, .rws, 3, 1, 15⟩]⟩
  | .NOZ_LEARN => ⟨0x0B0018, 0x40, 96, 0x0, 1, .cold,
      [⟨31, 24, .rws, 230, 1, 255⟩, ⟨15, 0, .rws, 1400, 100, 10000⟩]⟩
  | .NOZ_DLIM => ⟨0x0B001C, 0x40, 96, 0x0, 1, .cold,
      [⟨15, 8, .rws, 10, 1, 60⟩, ⟨7, 0, .rws, 100, 1, 100⟩]⟩
  | .NOZ_STATE => ⟨0x0B0020, 0x40, 96, 0x0, 1, .warm,
      [fullField 31 22 .ro 0, fullField 17 16 .ro 0, fullField 15 14 .ro 1, fullField 13 12 .ro 0,
       fullField 11 11 .ro 0, fullField 10 10 .ro 0, fullField 9 9 .ro 0, fullField 8 8 .ro 0,
       fullField 7 7 .ro 0, fullField 6 6 .ro 0, fullField 5 5 .ro 0, fullField 4 4 .ro 0,
       fullField 3 0 .ro 0]⟩
  | .NOZ_OUT => ⟨0x0B0024, 0x40, 96, 0x0, 1, .warm,
      [fullField 31 16 .ro 0, fullField 15 0 .ro 0]⟩
  | .NOZ_MEAS => ⟨0x0B0028, 0x40, 96, 0x0, 1, .warm,
      [fullField 31 16 .ro 0, fullField 15 0 .ro 0]⟩
  | .NOZ_DLY => ⟨0x0B002C, 0x40, 96, 0x0, 1, .warm,
      [fullField 31 16 .ro 0, fullField 15 0 .ro 0]⟩
  | .NOZ_FLT => ⟨0x0B0030, 0x40, 96, 0x0, 1, .warm,
      [fullField 6 6 .w1c 0, fullField 5 5 .w1c 0, fullField 4 4 .w1c 0, fullField 3 3 .w1c 0,
       fullField 2 2 .w1c 0, fullField 1 1 .w1c 0, fullField 0 0 .w1c 0]⟩
  | .NOZ_CNT0 => ⟨0x0B0034, 0x40, 96, 0x0, 1, .warm,
      [fullField 31 16 .rc 0, fullField 15 8 .rc 0, fullField 7 0 .rc 0]⟩
  | .NOZ_CNT1 => ⟨0x0B0038, 0x40, 96, 0x0, 1, .warm,
      [fullField 31 24 .rc 0, fullField 23 16 .rc 0, fullField 15 8 .rc 0, fullField 7 0 .rc 0]⟩
  | .NOZ_INIT => ⟨0x0B003C, 0x40, 96, 0x0, 1, .cold,
      [fullField 31 16 .rws 500, fullField 15 0 .rws 500]⟩
  | .BANK_CFG => ⟨0x0B8000, 0x40, 12, 0x0, 1, .cold,
      [⟨31, 21, .rws, 100, 10, 500⟩, ⟨20, 16, .rws, 10, 1, 20⟩, ⟨15, 8, .rws, 5, 2, 50⟩,
       ⟨4, 2, .rws, 2, 2, 4⟩, fullField 1 1 .rws 0, fullField 0 0 .rws 1]⟩
  | .BANK_STATE => ⟨0x0B8004, 0x40, 12, 0x0, 1, .warm,
      [fullField 31 16 .ro 0, fullField 11 8 .ro 0, fullField 4 2 .ro 0, fullField 1 1 .ro 0,
       fullField 0 0 .ro 0]⟩
  | .BANK_CNT => ⟨0x0B8008, 0x40, 12, 0x0, 1, .warm,
      [fullField 31 16 .rc 0, fullField 15 8 .rc 0, fullField 7 0 .rc 0]⟩
  | .BANK_FLT => ⟨0x0B800C, 0x40, 12, 0x0, 1, .warm,
      [fullField 2 2 .w1c 0, fullField 1 1 .w1c 0, fullField 0 0 .w1c 0]⟩
  | .BST_CFG => ⟨0x0BC000, 0x40, 3, 0x0, 1, .cold,
      [⟨23, 16, .rws, 90, 80, 98⟩, ⟨9, 0, .rws, 480, 360, 600⟩]⟩
  | .BST_STATE => ⟨0x0BC004, 0x40, 3, 0x0, 1, .warm,
      [fullField 31 16 .ro 0, fullField 2 0 .ro 0]⟩
  | .BST_POWER => ⟨0x0BC008, 0x40, 3, 0x0, 1, .warm,
      [fullField 31 16 .rc 0, fullField 15 0 .ro 0]⟩
  | .BST_FLT => ⟨0x0BC00C, 0x40, 3, 0x0, 1, .warm,
      [fullField 3 3 .w1c 0, fullField 2 2 .w1c 0, fullField 1 1 .w1c 0, fullField 0 0 .w1c 0]⟩
  | .PROP_CFG => ⟨0x0C0000, 0x80, 8, 0x0, 1, .cold,
      [fullField 31 16 .rws 0, fullField 12 8 .rws 0, fullField 4 4 .rws 0, fullField 3 3 .rws 0,
       fullField 2 2 .rws 0, ⟨1, 0, .rws, 0, 0, 1⟩]⟩
  | .PROP_TARGET => ⟨0x0C0004, 0x80, 8, 0x0, 1, .warm,
      [⟨13, 0, .rwc, 0, 0, 12000⟩]⟩
  | .PROP_DITHER => ⟨0x0C0008, 0x80, 8, 0x0, 1, .cold,
      [⟨24, 16, .rws, 100, 40, 400⟩, ⟨11, 10, .rws, 0, 0, 2⟩, ⟨9, 0, .rws, 0, 0, 600⟩]⟩
  | .PROP_PEAK => ⟨0x0C000C, 0x80, 8, 0x0, 1, .cold,
      [⟨31, 16, .rws, 50, 20, 2000⟩, ⟨12, 0, .rws, 1000, 0, 6000⟩]⟩
  | .PROP_STATE => ⟨0x0C0010, 0x80, 8, 0x0, 1, .warm,
      [fullField 31 16 .ro 0, fullField 5 5 .ro 0, fullField 4 4 .ro 0, fullField 3 3 .ro 0,
       fullField 2 0 .ro 0]⟩
  | .PROP_OUT => ⟨0x0C0014, 0x80, 8, 0x0, 1, .warm,
      [fullField 31 16 .ro 0, fullField 15 0 .ro 0]⟩
  | .PROP_FLT => ⟨0x0C0018, 0x80, 8, 0x0, 1, .warm,
      [fullField 3 3 .w1c 0, fullField 2 2 .w1c 0, fullField 1 1 .w1c 0, fullField 0 0 .w1c 0]⟩
  | .MDRV_CFG => ⟨0x0D0000, 0x100, 16, 0x0, 1, .cold,
      [fullField 25 25 .rws 1, fullField 24 24 .rws 0, fullField 20 16 .rws 0,
       fullField 10 8 .rws 0, fullField 6 6 .rws 0, fullField 5 5 .rws 1, fullField 4 4 .rws 1,
       ⟨3, 2, .rws, 0, 0, 2⟩, ⟨1, 0, .rws, 0, 0, 1⟩]⟩
  | .MDRV_DT => ⟨0x0D0004, 0x100, 16, 0x0, 1, .cold,
      [⟨30, 16, .rws, 3200, 0, 25600⟩, ⟨14, 0, .rws, 3200, 0, 25600⟩]⟩
  | .MDRV_MINP => ⟨0x0D0008, 0x100, 16, 0x0, 1, .cold,
      [⟨8, 0, .rws, 50, 0, 400⟩]⟩
  | .MDRV_BOOT => ⟨0x0D000C, 0x100, 16, 0x0, 1, .cold,
      [fullField 31 31 .rws 1, ⟨15, 8, .rws, 16, 1, 255⟩, ⟨6, 0, .rws, 25, 5, 100⟩]⟩
  | .MDRV_PROT => ⟨0x0D0010, 0x100, 16, 0x0, 1, .cold,
      [⟨31, 28, .rws, 8, 1, 15⟩, ⟨27, 16, .rws, 1000, 50, 1500⟩, fullField 12 12 .rws 0,
       ⟨8, 0, .rws, 50, 0, 300⟩]⟩
  | .MDRV_STOP => ⟨0x0D0014, 0x100, 16, 0x0, 1, .cold,
      [⟨31, 16, .rws, 100, 1, 10000⟩, ⟨11, 0, .rws, 200, 0, 2000⟩]⟩
  | .MDRV_COMM => ⟨0x0D0018, 0x100, 16, 0x0, 1, .cold,
      [⟨31, 24, .rws, 20, 1, 255⟩, ⟨17, 16, .rws, 0, 0, 2⟩, fullField 12 12 .rws 0,
       ⟨10, 8, .rws, 0, 0, 5⟩, fullField 4 0 .rws 0]⟩
  | .MDRV_CARRIER => ⟨0x0D0020, 0x100, 16, 0x0, 1, .warm,
      [fullField 31 12 .rw 0, ⟨2, 0, .rw, 2, 1, 4⟩]⟩
  | .MDRV_SET => ⟨0x0D0024, 0x100, 16, 0x8, 3, .warm,
      [fullField 19 0 .rw 0]⟩
  | .MDRV_RST => ⟨0x0D0028, 0x100, 16, 0x8, 3, .warm,
      [fullField 19 0 .rw 0]⟩
  | .MDRV_SHADOW => ⟨0x0D003C, 0x100, 16, 0x0, 1, .warm,
      [fullField 16 16 .ro 0, fullField 15 8 .ro 0, fullField 6 0 .ro 0]⟩
  | .MDRV_ACT => ⟨0x0D0040, 0x100, 16, 0x0, 1, .warm,
      [fullField 31 12 .ro 0, fullField 2 0 .ro 2]⟩
  | .MDRV_DUTY => ⟨0x0D0044, 0x100, 16, 0x0, 1, .warm,
      [fullField 15 0 .ro 0]⟩
  | .MDRV_STATE => ⟨0x0D0048, 0x100, 16, 0x0, 1, .warm,
      [fullField 21 16 .ro 0, fullField 11 11 .ro 0, fullField 10 10 .ro 0, fullField 9 9 .ro 0,
       fullField 8 8 .ro 0, fullField 7 7 .ro 0, fullField 6 4 .ro 7, fullField 2 0 .ro 0]⟩
  | .MDRV_I_AB => ⟨0x0D004C, 0x100, 16, 0x0, 1, .warm,
      [fullField 31 16 .ro 0, fullField 15 0 .ro 0]⟩
  | .MDRV_I_C => ⟨0x0D0050, 0x100, 16, 0x0, 1, .warm,
      [fullField 31 16 .ro 0, fullField 15 0 .ro 0]⟩
  | .MDRV_OVL => ⟨0x0D0054, 0x100, 16, 0x0, 1, .warm,
      [fullField 15 0 .ro 0]⟩
  | .MDRV_CNT0 => ⟨0x0D0058, 0x100, 16, 0x0, 1, .warm,
      [fullField 31 16 .rc 0, fullField 15 0 .rc 0]⟩
  | .MDRV_CNT1 => ⟨0x0D005C, 0x100, 16, 0x0, 1, .warm,
      [fullField 31 16 .rc 0, fullField 15 8 .rc 0, fullField 7 0 .rc 0]⟩
  | .MDRV_COMM_CNT => ⟨0x0D0060, 0x100, 16, 0x0, 1, .warm,
      [fullField 31 0 .ro 0]⟩
  | .MDRV_FLT => ⟨0x0D0064, 0x100, 16, 0x0, 1, .warm,
      [fullField 8 8 .w1c 0, fullField 7 7 .w1c 0, fullField 6 6 .w1c 0, fullField 5 5 .w1c 0,
       fullField 4 4 .w1c 0, fullField 3 0 .w1c 0]⟩
  | .MDRV_ARM => ⟨0x0D1000, 0x0, 1, 0x0, 1, .warm,
      [fullField 7 0 .wo 0]⟩
  | .MDRV_TRIP_CFG => ⟨0x0D1010, 0x4, 4, 0x0, 1, .cold,
      [fullField 31 16 .rws 0, fullField 9 9 .rws 0, fullField 8 8 .rws 0, fullField 7 0 .rws 10]⟩
  | .MDRV_TRIP_STATE => ⟨0x0D1020, 0x0, 1, 0x0, 1, .warm,
      [fullField 3 0 .ro 0]⟩
  | .MDRV_CAL => ⟨0x0D1024, 0x0, 1, 0x0, 1, .warm,
      [fullField 16 16 .ro 0, fullField 15 0 .ro 156]⟩
  | .LOOP_CFG => ⟨0x0E0000, 0x100, 32, 0x0, 1, .cold,
      [⟨25, 20, .rws, 1, 1, 63⟩, fullField 19 14 .rws 0, fullField 13 13 .rws 0,
       fullField 12 12 .rws 0, fullField 11 11 .rws 0, fullField 10 10 .rws 1,
       fullField 9 9 .rws 0, fullField 8 8 .rws 0, ⟨6, 5, .rws, 1, 0, 2⟩, ⟨1, 0, .rws, 0, 0, 2⟩]⟩
  | .LOOP_IN => ⟨0x0E0004, 0x100, 32, 0x0, 1, .cold,
      [fullField 15 15 .rws 0, fullField 14 10 .rws 0, ⟨9, 8, .rws, 0, 0, 2⟩,
       ⟨6, 5, .rws, 1, 0, 2⟩, fullField 4 0 .rws 0]⟩
  | .LOOP_OBS_USE => ⟨0x0E000C, 0x100, 32, 0x0, 1, .cold,
      [⟨31, 24, .rws, 5, 1, 255⟩, ⟨23, 16, .rws, 10, 1, 255⟩, ⟨15, 8, .rws, 3, 1, 255⟩,
       fullField 7 7 .rws 0, fullField 6 6 .rws 0, fullField 4 0 .rws 0]⟩
  | .LOOP_OBS_MODEL => ⟨0x0E0010, 0x100, 32, 0x0, 1, .cold,
      [⟨9, 8, .rws, 0, 0, 1⟩, fullField 7 3 .rws 0, ⟨2, 0, .rws, 1, 1, 6⟩]⟩
  | .LOOP_FERR_CFG => ⟨0x0E002C, 0x100, 32, 0x0, 1, .cold,
      [⟨12, 2, .rws, 100, 1, 2000⟩, fullField 1 1 .rws 0, fullField 0 0 .rws 0]⟩
  | .LOOP_SEL => ⟨0x0E0030, 0x100, 32, 0x0, 1, .cold,
      [fullField 0 0 .rws 0]⟩
  | .LOOP_ROW_CFG => ⟨0x0E0034, 0x100, 32, 0x0, 1, .cold,
      [⟨31, 24, .rws, 5, 0, 50⟩, fullField 15 8 .rws 20, ⟨7, 0, .rws, 1, 1, 255⟩]⟩
  | .LOOP_ROW_SPACING => ⟨0x0E0038, 0x100, 32, 0x0, 1, .cold,
      [⟨31, 0, .rws, 100000, 1000, 10000000⟩]⟩
  | .LOOP_ROW_PHASE => ⟨0x0E003C, 0x100, 32, 0x0, 1, .cold,
      [fullField 31 0 .rws 0]⟩
  | .LOOP_ROW_DROP => ⟨0x0E0040, 0x100, 32, 0x0, 1, .cold,
      [fullField 30 0 .rws 0]⟩
  | .LOOP_ROW_GEOM => ⟨0x0E0044, 0x100, 32, 0x0, 1, .cold,
      [fullField 31 16 .rws 0, ⟨15, 0, .rws, 0, 0, 5000⟩]⟩
  | .LOOP_CNT => ⟨0x0E0048, 0x100, 32, 0x0, 1, .warm,
      [fullField 31 24 .rc 0, fullField 23 16 .rc 0, fullField 15 0 .rc 0]⟩
  | .LOOP_ROW_G => ⟨0x0E004C, 0x100, 32, 0x0, 1, .warm,
      [fullField 31 0 .ro 0]⟩
  | .LOOP_STATE => ⟨0x0E00E0, 0x100, 32, 0x0, 1, .warm,
      [fullField 31 16 .ro 0, fullField 15 15 .ro 0, fullField 14 14 .ro 0, fullField 13 13 .ro 0,
       fullField 12 12 .ro 0, fullField 11 10 .ro 0, fullField 9 9 .ro 0]⟩
  | .LOOP_FLT => ⟨0x0E00FC, 0x100, 32, 0x0, 1, .warm,
      [fullField 3 3 .w1c 0, fullField 2 2 .w1c 0, fullField 1 1 .w1c 0, fullField 0 0 .w1c 0]⟩
  | .LOOP_BUDGET => ⟨0x0E2000, 0x0, 1, 0x0, 1, .cold,
      [fullField 31 16 .ro 0, fullField 15 0 .ro 0]⟩
  | .LOOP_USE => ⟨0x0E2004, 0x0, 1, 0x0, 1, .warm,
      [fullField 25 16 .rc 0, fullField 9 0 .ro 0]⟩
  | .LOOP_OVR => ⟨0x0E2008, 0x0, 1, 0x0, 1, .warm,
      [fullField 15 0 .rc 0]⟩
  | .LOOP_TRACE_STAT => ⟨0x0E8000, 0x0, 1, 0x0, 1, .warm,
      [fullField 31 20 .ro 0, fullField 15 3 .ro 0, fullField 2 0 .ro 0]⟩
  | .LOOP_TRACE_TICK => ⟨0x0E8004, 0x0, 1, 0x0, 1, .warm,
      [fullField 31 0 .ro 0]⟩
  | .PWRB_CFG => ⟨0x100000, 0x0, 1, 0x0, 1, .cold,
      [⟨31, 24, .rws, 85, 50, 100⟩, ⟨23, 16, .rws, 10, 1, 100⟩, ⟨15, 8, .rws, 95, 10, 255⟩,
       fullField 1 1 .rws 1, fullField 0 0 .rws 1]⟩
  | .PWRB_BUDGET => ⟨0x100004, 0x0, 1, 0x0, 1, .cold,
      [fullField 31 24 .rws 5, ⟨23, 16, .rws, 20, 1, 255⟩, ⟨9, 0, .rws, 800, 10, 800⟩]⟩
  | .PWRB_GRANT => ⟨0x100008, 0x0, 1, 0x0, 1, .cold,
      [⟨31, 16, .rws, 500, 0, 5000⟩, fullField 15 0 .rws 0]⟩
  | .PWRB_BRIDGE => ⟨0x10000C, 0x0, 1, 0x0, 1, .cold,
      [⟨31, 24, .rws, 0, 0, 250⟩, ⟨10, 0, .rws, 300, 50, 1500⟩]⟩
  | .PWRB_IN => ⟨0x100010, 0x0, 1, 0x0, 1, .warm,
      [fullField 31 16 .ro 0, fullField 15 0 .ro 0]⟩
  | .PWRB_VIN => ⟨0x100014, 0x0, 1, 0x0, 1, .warm,
      [fullField 31 16 .ro 0, fullField 15 0 .ro 0]⟩
  | .PWRB_DEMAND => ⟨0x100018, 0x0, 1, 0x0, 1, .warm,
      [fullField 31 16 .ro 0, fullField 15 0 .ro 0]⟩
  | .PWRB_CHG01 => ⟨0x10001C, 0x0, 1, 0x0, 1, .warm,
      [fullField 31 16 .ro 0, fullField 15 0 .ro 0]⟩
  | .PWRB_CHG23 => ⟨0x100020, 0x0, 1, 0x0, 1, .warm,
      [fullField 31 16 .ro 0, fullField 15 0 .ro 0]⟩
  | .PWRB_SHED => ⟨0x100024, 0x0, 1, 0x0, 1, .warm,
      [fullField 16 16 .ro 0, fullField 15 0 .ro 0]⟩
  | .PWRB_DENIED => ⟨0x100028, 0x0, 1, 0x0, 1, .warm,
      [fullField 15 0 .w1c 0]⟩
  | .PWRB_BST_E => ⟨0x100030, 0x4, 3, 0x0, 1, .warm,
      [fullField 15 0 .ro 0]⟩
  | .PWRB_RES => ⟨0x10003C, 0x0, 1, 0x0, 1, .warm,
      [fullField 31 16 .ro 0, fullField 15 0 .ro 0]⟩
  | .PWRB_CNT0 => ⟨0x100040, 0x0, 1, 0x0, 1, .warm,
      [fullField 31 16 .rc 0, fullField 15 8 .rc 0, fullField 7 0 .rc 0]⟩
  | .PWRB_CNT1 => ⟨0x100044, 0x0, 1, 0x0, 1, .warm,
      [fullField 31 24 .rc 0, fullField 23 16 .rc 0, fullField 15 8 .rc 0, fullField 7 0 .rc 0]⟩
  | .DEV_LTOL => ⟨0x000040, 0x0, 1, 0x0, 1, .session,
      [fullField 31 0 .rwc 0]⟩
  | .DEV_PCTRL => ⟨0x000044, 0x0, 1, 0x0, 1, .cold,
      [⟨31, 24, .rws, 30, 1, 255⟩, ⟨23, 16, .rws, 10, 1, 255⟩, ⟨15, 8, .rws, 10, 1, 255⟩,
       fullField 4 4 .rws 1, fullField 3 3 .rws 0, fullField 2 2 .rws 1, fullField 1 1 .rws 1,
       fullField 0 0 .rws 1]⟩
  | .DEV_PSTATE => ⟨0x000048, 0x0, 1, 0x0, 1, .warm,
      [fullField 15 8 .ro 0, fullField 6 4 .ro 0, fullField 2 0 .ro 0]⟩
  | .DEV_WAKE => ⟨0x00004C, 0x0, 1, 0x0, 1, .cold,
      [fullField 7 4 .ro 0, fullField 3 0 .ro 0]⟩
  | .DEV_ALARM_LO => ⟨0x000050, 0x0, 1, 0x0, 1, .kept,
      [fullField 31 0 .rw 0]⟩
  | .DEV_ALARM_HI => ⟨0x000054, 0x0, 1, 0x0, 1, .kept,
      [fullField 31 31 .rw 0, fullField 1 0 .rw 0]⟩
  | .LSW_CFG => ⟨0x0F0000, 0x40, 16, 0x0, 1, .cold,
      [⟨26, 16, .rws, 200, 25, 1000⟩, fullField 4 4 .rws 0, fullField 3 3 .rws 0,
       fullField 2 2 .rws 0, fullField 1 1 .rws 0, fullField 0 0 .rws 1]⟩
  | .LSW_LIMIT => ⟨0x0F0004, 0x40, 16, 0x0, 1, .cold,
      [fullField 31 24 .rws 80, ⟨22, 14, .rws, 0, 0, 500⟩, ⟨6, 0, .rws, 80, 5, 80⟩]⟩
  | .LSW_PROT => ⟨0x0F0008, 0x40, 16, 0x0, 1, .cold,
      [⟨31, 24, .rws, 10, 1, 255⟩, ⟨23, 20, .rws, 3, 1, 15⟩, ⟨19, 16, .rws, 3, 1, 8⟩,
       ⟨8, 0, .rws, 50, 10, 250⟩]⟩
  | .LSW_COMP => ⟨0x0F000C, 0x40, 16, 0x0, 1, .cold,
      [⟨8, 0, .rws, 280, 90, 320⟩]⟩
  | .LSW_CTRL => ⟨0x0F0010, 0x40, 16, 0x0, 1, .warm,
      [fullField 16 16 .rwc 0, ⟨9, 0, .rwc, 1000, 0, 1000⟩]⟩
  | .LSW_STATE => ⟨0x0F0014, 0x40, 16, 0x0, 1, .warm,
      [fullField 31 16 .ro 0, fullField 15 12 .ro 0, fullField 6 6 .ro 0, fullField 5 5 .ro 0,
       fullField 4 4 .ro 0, fullField 2 0 .ro 0]⟩
  | .LSW_MEAS => ⟨0x0F0018, 0x40, 16, 0x0, 1, .warm,
      [fullField 31 16 .ro 0, fullField 15 0 .ro 0]⟩
  | .LSW_TEMP => ⟨0x0F001C, 0x40, 16, 0x0, 1, .warm,
      [fullField 31 16 .ro 0, fullField 15 0 .ro 0]⟩
  | .LSW_FLT => ⟨0x0F0020, 0x40, 16, 0x0, 1, .warm,
      [fullField 4 4 .w1c 0, fullField 3 3 .w1c 0, fullField 2 2 .w1c 0, fullField 1 1 .w1c 0,
       fullField 0 0 .w1c 0]⟩
  | .LSW_CNT => ⟨0x0F0024, 0x40, 16, 0x0, 1, .warm,
      [fullField 31 24 .rc 0, fullField 23 16 .rc 0, fullField 15 0 .rc 0]⟩
  | .LSW_PAIR_CFG => ⟨0x0F0400, 0x0, 1, 0x0, 1, .cold,
      [⟨7, 0, .rws, 150, 125, 165⟩]⟩
  | .LSW_HOLD => ⟨0x0F0404, 0x0, 1, 0x0, 1, .cold,
      [fullField 31 16 .ro 0, fullField 15 0 .wo 0]⟩
  | .LINK_SESS_CFG => ⟨0x020100, 0x0, 1, 0x0, 1, .cold,
      [⟨28, 16, .rws, 200, 20, 5000⟩, ⟨12, 0, .rws, 200, 20, 5000⟩]⟩
  | .LINK_SESS => ⟨0x020104, 0x4, 2, 0x0, 1, .warm,
      [fullField 31 16 .ro 0, fullField 7 4 .ro 0, fullField 1 0 .ro 0]⟩
  | .LINK_SESS_ADDR => ⟨0x020110, 0x10, 2, 0x4, 4, .warm,
      [fullField 31 0 .ro 0]⟩
  | .LINK_SESS_PORT => ⟨0x020130, 0x0, 1, 0x0, 1, .warm,
      [fullField 31 16 .ro 0, fullField 15 0 .ro 0]⟩
  | .LINK_KEY => ⟨0x020140, 0x20, 2, 0x4, 8, .kept,
      [fullField 31 0 .wo 0]⟩
  | .LINK_CNT0 => ⟨0x020180, 0x0, 1, 0x0, 1, .warm,
      [fullField 31 16 .rc 0, fullField 15 0 .rc 0]⟩
  | .LINK_CNT1 => ⟨0x020184, 0x0, 1, 0x0, 1, .warm,
      [fullField 31 24 .rc 0, fullField 23 16 .rc 0, fullField 15 0 .rc 0]⟩
  | .LINK_PTP_CFG => ⟨0x020190, 0x0, 1, 0x0, 1, .cold,
      [fullField 16 16 .rws 1, ⟨15, 0, .rws, 800, 10, 10000⟩]⟩
  | .LINK_PTP_STAT => ⟨0x020194, 0x0, 1, 0x0, 1, .warm,
      [fullField 1 1 .ro 0, fullField 0 0 .ro 0]⟩
  | .LINK_PTP_PD => ⟨0x020198, 0x0, 1, 0x0, 1, .warm,
      [fullField 31 16 .ro 0, fullField 15 0 .ro 0]⟩
  | .CANB_CFG => ⟨0x140000, 0x0, 1, 0x0, 1, .cold,
      [⟨23, 16, .rws, 144, 128, 247⟩, fullField 0 0 .rws 1]⟩
  | .CANB_NAME_LO => ⟨0x140004, 0x0, 1, 0x0, 1, .cold,
      [fullField 31 21 .ro 0, fullField 20 0 .ro 0]⟩
  | .CANB_NAME_HI => ⟨0x140008, 0x0, 1, 0x0, 1, .cold,
      [fullField 31 31 .ro 1, fullField 30 28 .ro 2, fullField 27 24 .rws 0,
       fullField 23 17 .rws 0, fullField 15 8 .rws 0, fullField 7 3 .rws 0, fullField 2 0 .rws 0]⟩
  | .CANB_ADDR => ⟨0x14000C, 0x0, 1, 0x0, 1, .warm,
      [fullField 9 8 .ro 0, fullField 7 0 .ro 254]⟩
  | .CANB_MGMT => ⟨0x140010, 0x0, 1, 0x0, 1, .cold,
      [fullField 23 16 .rws 10, fullField 15 8 .rws 255, fullField 0 0 .rws 0]⟩
  | .CANB_DTC_CLR => ⟨0x140014, 0x0, 1, 0x0, 1, .warm,
      [fullField 0 0 .wo 0]⟩
  | .CANB_CNT => ⟨0x140018, 0x0, 1, 0x0, 1, .warm,
      [fullField 31 24 .ro 0, fullField 23 16 .ro 0, fullField 15 8 .rc 0, fullField 7 0 .rc 0]⟩
  | .CANB_DTC => ⟨0x14001C, 0x0, 1, 0x0, 1, .warm,
      [fullField 15 8 .ro 0, fullField 7 0 .ro 0]⟩
  | .CANS_CFG => ⟨0x140100, 0x0, 1, 0x0, 1, .cold,
      [⟨9, 8, .rws, 0, 0, 2⟩, ⟨5, 4, .rws, 1, 0, 2⟩, fullField 2 2 .rws 0, fullField 1 1 .rws 0,
       fullField 0 0 .rws 0]⟩
  | .CANS_FILT_ID => ⟨0x140110, 0x8, 8, 0x0, 1, .cold,
      [fullField 31 31 .rws 0, fullField 30 30 .rws 0, fullField 28 0 .rws 0]⟩
  | .CANS_FILT_MASK => ⟨0x140114, 0x8, 8, 0x0, 1, .cold,
      [fullField 28 0 .rws 0]⟩
  | .CANS_RX_STAT => ⟨0x140150, 0x0, 1, 0x0, 1, .warm,
      [fullField 31 16 .rc 0, fullField 6 0 .ro 0]⟩
  | .CANS_RX_WIN => ⟨0x140180, 0x4, 18, 0x0, 1, .warm,
      [fullField 31 0 .ro 0]⟩
  | .CANS_TX_WIN => ⟨0x140200, 0x4, 18, 0x0, 1, .session,
      [fullField 31 0 .rw 0]⟩
  | .CANS_RX_POP => ⟨0x1401C8, 0x0, 1, 0x0, 1, .warm,
      [fullField 0 0 .wo 0]⟩
  | .CANS_TX_GO => ⟨0x140248, 0x0, 1, 0x0, 1, .warm,
      [fullField 0 0 .wo 0]⟩
  | .CANS_TX_STAT => ⟨0x14024C, 0x0, 1, 0x0, 1, .warm,
      [fullField 15 8 .rc 0, fullField 0 0 .ro 0]⟩
  | .CMDQ_STAT => ⟨0x030000, 0x10, 4, 0x0, 1, .warm,
      [fullField 31 24 .rc 0, fullField 9 9 .ro 0, fullField 8 8 .ro 0, fullField 7 0 .ro 0]⟩
  | .CMDQ_DISP => ⟨0x030004, 0x10, 4, 0x0, 1, .warm,
      [fullField 31 0 .ro 0]⟩
  | .CMDQ_BUSY => ⟨0x030008, 0x10, 4, 0x0, 1, .warm,
      [fullField 15 0 .rc 0]⟩
  | .TXN_STAT => ⟨0x038000, 0x10, 2, 0x0, 1, .warm,
      [fullField 26 16 .ro 0, fullField 1 0 .ro 0]⟩
  | .TXN_NUM => ⟨0x038004, 0x10, 2, 0x0, 1, .warm,
      [fullField 31 0 .ro 0]⟩
  | .TXN_LEFT => ⟨0x038008, 0x10, 2, 0x0, 1, .warm,
      [fullField 13 0 .ro 0]⟩
  | .TXN_LAST => ⟨0x03800C, 0x10, 2, 0x0, 1, .warm,
      [fullField 31 16 .ro 0, fullField 15 0 .ro 65535]⟩
  | .TXN_SAVE => ⟨0x038020, 0x0, 1, 0x0, 1, .warm,
      [fullField 0 0 .rws 0]⟩
  | .TXN_SAVE_STAT => ⟨0x038024, 0x0, 1, 0x0, 1, .warm,
      [fullField 31 16 .ro 0, fullField 1 1 .ro 0, fullField 0 0 .ro 0]⟩
  | .TXN_CNT => ⟨0x038028, 0x0, 1, 0x0, 1, .warm,
      [fullField 31 16 .rc 0, fullField 15 8 .rc 0, fullField 7 0 .rc 0]⟩
  | .RES_OWNER => ⟨0x040000, 0x4, 239, 0x0, 1, .warm,
      [fullField 31 24 .ro 0, fullField 15 0 .ro 0]⟩
  | .RES_LANE => ⟨0x040400, 0x4, 40, 0x0, 1, .cold,
      [fullField 7 0 .rws 255]⟩
  | .RES_PIN_CFG => ⟨0x040500, 0x4, 8, 0x0, 1, .cold,
      [fullField 4 4 .rws 0, fullField 3 3 .rws 0, fullField 2 2 .rws 0, fullField 1 0 .rws 0]⟩
  | .RES_GPO => ⟨0x040520, 0x0, 1, 0x0, 1, .warm,
      [fullField 7 0 .rw 0]⟩
  | .RES_GPI => ⟨0x040524, 0x0, 1, 0x0, 1, .warm,
      [fullField 7 0 .ro 0]⟩
  | .RES_CNT => ⟨0x040528, 0x0, 1, 0x0, 1, .warm,
      [fullField 15 0 .rc 0]⟩
  | .VIG_STAT => ⟨0x130000, 0x0, 1, 0x0, 1, .warm,
      [fullField 31 24 .ro 0, fullField 23 16 .ro 0, fullField 15 8 .ro 0, fullField 7 0 .ro 0]⟩
  | .VIG_SAFE => ⟨0x130004, 0x0, 1, 0x0, 1, .warm,
      [fullField 31 16 .ro 0, fullField 1 1 .w1c 0, fullField 0 0 .w1c 0]⟩
  | .VIG_SLOSS => ⟨0x130008, 0x0, 1, 0x0, 1, .cold,
      [fullField 4 4 .rws 0, fullField 3 3 .rws 0, fullField 2 2 .rws 0, fullField 1 1 .rws 0,
       fullField 0 0 .rws 0]⟩
  | .VIG_WDT_CFG => ⟨0x13000C, 0x0, 1, 0x0, 1, .cold,
      [⟨14, 8, .rws, 50, 25, 75⟩, ⟨6, 0, .rws, 10, 2, 100⟩]⟩
  | .VIG_WDT_STAT => ⟨0x130010, 0x0, 1, 0x0, 1, .warm,
      [fullField 15 0 .rc 65535]⟩
  | .VIG_CNT => ⟨0x130014, 0x0, 1, 0x0, 1, .warm,
      [fullField 31 16 .rc 0, fullField 15 8 .rc 0, fullField 7 0 .rc 0]⟩
  | .VIG_LOGFAIL => ⟨0x130018, 0x0, 1, 0x0, 1, .cold,
      [fullField 31 24 .ro 0, fullField 23 16 .ro 0, fullField 2 2 .ro 0, fullField 1 1 .ro 0,
       fullField 0 0 .ro 0]⟩
  | .VIG_DBG_CHAL => ⟨0x130020, 0x4, 4, 0x0, 1, .kept,
      [fullField 31 0 .ro 0]⟩
  | .VIG_DBG_RESP => ⟨0x130030, 0x4, 8, 0x0, 1, .session,
      [fullField 31 0 .wo 0]⟩
  | .VIG_DBG_CTRL => ⟨0x130050, 0x0, 1, 0x0, 1, .session,
      [fullField 2 2 .rw 0, fullField 1 1 .wo 0, fullField 0 0 .wo 0]⟩
  | .VIG_DBG_STAT => ⟨0x130054, 0x0, 1, 0x0, 1, .warm,
      [fullField 31 24 .rc 0, fullField 23 16 .rc 0, fullField 8 8 .ro 0, fullField 1 0 .ro 0]⟩
  | .VIG_DBG_CFG => ⟨0x130058, 0x0, 1, 0x0, 1, .cold,
      [fullField 7 0 .rws 30]⟩
  | .VIG_UNIT => ⟨0x131000, 0x4, 203, 0x0, 1, .warm,
      [fullField 26 24 .rwc 0, fullField 23 16 .ro 0, fullField 15 15 .ro 0, fullField 14 14 .ro 0,
       fullField 13 13 .ro 0, fullField 2 0 .ro 0]⟩
  | .DEV_RST_CAUSE => ⟨0x000060, 0x0, 1, 0x0, 1, .kept,
      [fullField 19 16 .ro 0, fullField 3 0 .ro 0]⟩
  | .DEV_RST_CNT => ⟨0x000064, 0x0, 1, 0x0, 1, .cold,
      [fullField 31 24 .ro 0, fullField 23 16 .ro 0, fullField 15 0 .ro 0]⟩
  | .EVT_CFG => ⟨0x050000, 0x8, 128, 0x0, 1, .cold,
      [fullField 7 7 .rws 0, fullField 6 6 .rws 0, fullField 5 5 .rws 0, fullField 4 4 .rws 0,
       fullField 3 3 .rws 0, fullField 2 2 .rws 0, fullField 0 0 .rws 0]⟩
  | .EVT_CNT => ⟨0x050004, 0x8, 128, 0x0, 1, .warm,
      [fullField 31 0 .ro 0]⟩
  | .EVT_PEND => ⟨0x050400, 0x4, 4, 0x0, 1, .warm,
      [fullField 31 0 .w1c 0]⟩
  | .EVT_ACT => ⟨0x050410, 0x4, 4, 0x0, 1, .warm,
      [fullField 31 0 .ro 0]⟩
  | .EVT_CTRL => ⟨0x050420, 0x0, 1, 0x0, 1, .cold,
      [fullField 31 31 .ro 0, ⟨7, 0, .rws, 1, 1, 100⟩]⟩
  | .EVT_PKT_STAT => ⟨0x050424, 0x0, 1, 0x0, 1, .warm,
      [fullField 31 16 .rc 0, fullField 15 0 .rc 0]⟩
  | .EVT_THERM => ⟨0x050428, 0x0, 1, 0x0, 1, .cold,
      [fullField 31 16 .ro 0, ⟨15, 0, .rws, 1000, 600, 1200⟩]⟩
  | .DIARY_CFG => ⟨0x110000, 0x0, 1, 0x0, 1, .cold,
      [⟨31, 24, .rws, 80, 10, 100⟩, ⟨23, 16, .rws, 10, 1, 255⟩, fullField 0 0 .rws 0]⟩
  | .DIARY_STATE => ⟨0x110004, 0x0, 1, 0x0, 1, .warm,
      [fullField 28 16 .ro 0, fullField 14 8 .ro 0, fullField 3 3 .ro 0, fullField 2 2 .ro 0,
       fullField 1 1 .ro 0, fullField 0 0 .ro 0]⟩
  | .DIARY_OLDEST => ⟨0x110008, 0x0, 1, 0x0, 1, .kept,
      [fullField 31 0 .ro 0]⟩
  | .DIARY_NEWEST => ⟨0x11000C, 0x0, 1, 0x0, 1, .kept,
      [fullField 31 0 .ro 0]⟩
  | .DIARY_DRAINED => ⟨0x110010, 0x0, 1, 0x0, 1, .kept,
      [fullField 31 0 .rw 0]⟩
  | .DIARY_CNT0 => ⟨0x110014, 0x0, 1, 0x0, 1, .warm,
      [fullField 31 16 .rc 0, fullField 15 0 .rc 0]⟩
  | .DIARY_CNT1 => ⟨0x110018, 0x0, 1, 0x0, 1, .warm,
      [fullField 31 16 .rc 0, fullField 15 8 .rc 0, fullField 7 0 .rc 0]⟩
  | .DIARY_EMBER => ⟨0x11001C, 0x0, 1, 0x0, 1, .kept,
      [fullField 31 0 .ro 0]⟩
  | .DIARY_FREEZE => ⟨0x110020, 0x0, 1, 0x0, 1, .warm,
      [fullField 9 0 .ro 0]⟩
  | .UPD_STATE => ⟨0x120000, 0x0, 1, 0x0, 1, .kept,
      [fullField 31 24 .ro 0, fullField 23 16 .ro 0, fullField 13 12 .ro 0, fullField 10 10 .ro 0,
       fullField 8 8 .ro 0, fullField 3 0 .ro 0]⟩
  | .UPD_OFFSET => ⟨0x120004, 0x0, 1, 0x0, 1, .kept,
      [fullField 31 0 .ro 0]⟩
  | .UPD_LEN => ⟨0x120008, 0x0, 1, 0x0, 1, .kept,
      [fullField 31 0 .ro 0]⟩
  | .UPD_ID => ⟨0x120010, 0x4, 8, 0x0, 1, .kept,
      [fullField 31 0 .ro 0]⟩
  | .UPD_BOOT => ⟨0x120030, 0x0, 1, 0x0, 1, .kept,
      [fullField 31 0 .ro 0]⟩
  | .UPD_SEC => ⟨0x120034, 0x0, 1, 0x0, 1, .kept,
      [fullField 31 16 .ro 0, fullField 15 0 .ro 0]⟩
  | .UPD_KEYS => ⟨0x120038, 0x0, 1, 0x0, 1, .cold,
      [fullField 3 0 .ro 0]⟩
  | .UPD_SLOT => ⟨0x120040, 0x4, 2, 0x0, 1, .kept,
      [fullField 31 16 .ro 0, fullField 3 0 .ro 0]⟩
  | .UPD_STORE => ⟨0x120048, 0x4, 2, 0x0, 1, .kept,
      [fullField 31 16 .ro 0, fullField 15 2 .ro 0, fullField 1 1 .ro 0, fullField 0 0 .ro 0]⟩
  | .UPD_MIG => ⟨0x120050, 0x0, 1, 0x0, 1, .cold,
      [fullField 31 8 .ro 0, fullField 3 0 .ro 0]⟩
  | .UPD_CNT => ⟨0x120054, 0x0, 1, 0x0, 1, .kept,
      [fullField 31 16 .ro 0, fullField 15 8 .ro 0, fullField 7 0 .ro 0]⟩
  | .LINK_PHY_ROLE => ⟨0x020000, 0x0, 1, 0x0, 1, .cold,
      [fullField 9 9 .ro 1, fullField 8 8 .ro 0, fullField 1 1 .rws 0, fullField 0 0 .rws 0]⟩
  | .LINK_PHY_STAT => ⟨0x020004, 0x4, 2, 0x0, 1, .warm,
      [fullField 31 16 .ro 0, fullField 10 8 .ro 0, fullField 2 2 .ro 0, fullField 1 1 .ro 0,
       fullField 0 0 .ro 0]⟩
  | .LINK_PHY_CNT => ⟨0x02000C, 0x4, 2, 0x0, 1, .warm,
      [fullField 31 16 .rc 0, fullField 7 0 .rc 0]⟩
  | .LOOP_SP => ⟨0x0E0014, 0x100, 32, 0x0, 1, .warm,
      [fullField 31 0 .rwc 0]⟩
  | .LOOP_RES_LIM => ⟨0x0E0018, 0x100, 32, 0x0, 1, .cold,
      [fullField 31 0 .rws 0]⟩
  | .LOOP_FERR_LIM => ⟨0x0E001C, 0x100, 32, 0x0, 1, .cold,
      [fullField 31 0 .rws 0]⟩
  | .LOOP_VMAX => ⟨0x0E0020, 0x100, 32, 0x0, 1, .cold,
      [fullField 31 0 .rws 0]⟩
  | .LOOP_AMAX => ⟨0x0E0024, 0x100, 32, 0x0, 1, .cold,
      [fullField 31 0 .rws 0]⟩
  | .LOOP_JMAX => ⟨0x0E0028, 0x100, 32, 0x0, 1, .cold,
      [fullField 31 0 .rws 0]⟩
  | .LOOP_SET_A => ⟨0x0E0050, 0x100, 32, 0x4, 10, .cold,
      [fullField 31 0 .rws 0]⟩
  | .LOOP_SET_B => ⟨0x0E0080, 0x100, 32, 0x4, 10, .cold,
      [fullField 31 0 .rws 0]⟩
  | .LOOP_BIQUAD => ⟨0x0E00B0, 0x100, 32, 0x4, 10, .cold,
      [fullField 31 0 .rws 0]⟩
  | .LOOP_R => ⟨0x0E00E4, 0x100, 32, 0x0, 1, .warm,
      [fullField 31 0 .ro 0]⟩
  | .LOOP_Y => ⟨0x0E00E8, 0x100, 32, 0x0, 1, .warm,
      [fullField 31 0 .ro 0]⟩
  | .LOOP_U => ⟨0x0E00EC, 0x100, 32, 0x0, 1, .warm,
      [fullField 31 0 .ro 0]⟩
  | .LOOP_I => ⟨0x0E00F0, 0x100, 32, 0x0, 1, .warm,
      [fullField 31 0 .ro 0]⟩
  | .LOOP_E => ⟨0x0E00F4, 0x100, 32, 0x0, 1, .warm,
      [fullField 31 0 .ro 0]⟩
  | .LOOP_YHAT => ⟨0x0E00F8, 0x100, 32, 0x0, 1, .warm,
      [fullField 31 0 .ro 0]⟩
  | .LOOP_COEF => ⟨0x0E4000, 0x100, 32, 0x4, 64, .cold,
      [fullField 31 0 .rws 0]⟩

/-- The registers whose base lies in 0x00_0000 to 0x00_FFFF. -/
def regsIn00 : List Reg :=
  [.DEV_ID, .DEV_FWVER, .DEV_VIGVER, .DEV_CAPS, .DEV_SERIAL_LO, .DEV_SERIAL_HI, .DEV_LTOL,
   .DEV_PCTRL, .DEV_PSTATE, .DEV_WAKE, .DEV_ALARM_LO, .DEV_ALARM_HI, .DEV_RST_CAUSE, .DEV_RST_CNT]

/-- The registers whose base lies in 0x01_0000 to 0x01_FFFF. -/
def regsIn01 : List Reg :=
  [.TICK_CTRL, .TICK_STATUS, .TICK_COUNT, .TICK_PHASE_ERR, .TICK_FREQ, .TICK_OFS, .TICK_LOSS_TMO,
   .TICK_HOLD_MAX, .TICK_SYNC_DLY, .DEVTIME_LO, .DEVTIME_HI, .TICK_UTC, .TICK_LEAP_AT,
   .TICK_CAL_LO, .TICK_CAL_HI, .TICK_OVR_CNT, .TICK_OVR_STAT, .RTC_SEC, .RTC_SUB]

/-- The registers whose base lies in 0x02_0000 to 0x02_FFFF. -/
def regsIn02 : List Reg :=
  [.LINK_SESS_CFG, .LINK_SESS, .LINK_SESS_ADDR, .LINK_SESS_PORT, .LINK_KEY, .LINK_CNT0,
   .LINK_CNT1, .LINK_PTP_CFG, .LINK_PTP_STAT, .LINK_PTP_PD, .LINK_PHY_ROLE, .LINK_PHY_STAT,
   .LINK_PHY_CNT]

/-- The registers whose base lies in 0x03_0000 to 0x03_FFFF. -/
def regsIn03 : List Reg :=
  [.CMDQ_STAT, .CMDQ_DISP, .CMDQ_BUSY, .TXN_STAT, .TXN_NUM, .TXN_LEFT, .TXN_LAST, .TXN_SAVE,
   .TXN_SAVE_STAT, .TXN_CNT]

/-- The registers whose base lies in 0x04_0000 to 0x04_FFFF. -/
def regsIn04 : List Reg :=
  [.RES_OWNER, .RES_LANE, .RES_PIN_CFG, .RES_GPO, .RES_GPI, .RES_CNT]

/-- The registers whose base lies in 0x05_0000 to 0x05_FFFF. -/
def regsIn05 : List Reg :=
  [.EVT_CFG, .EVT_CNT, .EVT_PEND, .EVT_ACT, .EVT_CTRL, .EVT_PKT_STAT, .EVT_THERM]

/-- The registers whose base lies in 0x06_0000 to 0x06_FFFF. -/
def regsIn06 : List Reg :=
  [.AXIS_CFG, .AXIS_BIND, .AXIS_SCALE, .AXIS_CPR, .AXIS_LIM_LO, .AXIS_LIM_HI, .AXIS_IDX_POS,
   .AXIS_SPD_CFG, .AXIS_PRESET, .AXIS_POS, .AXIS_REV, .AXIS_RATE, .AXIS_SPEED, .AXIS_STATUS,
   .AXIS_EDGE_AGE, .AXIS_IDX_ERR, .AXIS_ERR_CNT, .FB_CFG, .FB_STATE, .GSPD_CFG, .GSPD_OUT_FREQ,
   .PT_CFG, .MSG_CFG, .SP_CFG, .SP_FIELD, .SP_DATA, .SP_STATUS, .SP_SLOW, .SP_ERR]

/-- The registers whose base lies in 0x07_0000 to 0x07_FFFF. -/
def regsIn07 : List Reg :=
  [.POSE_CTRL, .POSE_TRAVEL, .POSE_IMU_MOUNT, .POSE_IMU_POS, .POSE_ANT, .POSE_FIX_CFG,
   .POSE_SLEW, .POSE_SWAY_CFG, .POSE_BRIDGE, .POSE_GRADE_CFG, .POSE_E, .POSE_N, .POSE_HDG,
   .POSE_SPEED, .POSE_YAW, .POSE_SWAY_RATE, .POSE_ODO_LO, .POSE_ODO_HI, .POSE_ODO_RATE,
   .POSE_ODO_RESID, .POSE_SIGMA, .POSE_STATUS, .POSE_FIX_CNT, .POSE_FIX_REJ, .POSE_FRAME,
   .POSE_PROBE_SEL, .POSE_PROBE_E, .POSE_PROBE_N, .POSE_PROBE_SPEED]

/-- The registers whose base lies in 0x08_0000 to 0x08_FFFF. -/
def regsIn08 : List Reg :=
  [.MAP_CFG, .MAP_PROD, .MAP_POLICY, .MAP_FRAMES, .MAP_FLOW, .MAP_CNT_FAULT, .MAP_CNT_FILL,
   .MAP_CNT_COV, .MAP_CNT_WB, .MAP_LOOKUPS, .MAP_CNT_OOR, .MAP_RATE_SEL, .MAP_RATE_VAL,
   .MAP_PROBE_E, .MAP_PROBE_N, .MAP_PROBE_RES, .MAP_FRAME_KEY_LO, .MAP_FRAME_KEY_HI,
   .MAP_FRAME_STATE, .MAP_FRAME_SEQ, .MAP_TLB]

/-- The registers whose base lies in 0x09_0000 to 0x09_FFFF. -/
def regsIn09 : List Reg :=
  [.ALM_NOZ_GEOM, .ALM_CTRL, .ALM_HORIZON, .ALM_TIMING, .ALM_STAT, .ALM_CNT, .ALM_PROD_CFG,
   .ALM_PROD_OFS, .ALM_PROD_TARGET, .ALM_PROD_SCALE, .ALM_AA_CFG, .ALM_AA_STAT, .ALM_AA_SEQ,
   .ALM_AA_SEL, .ALM_AA_WIN, .ALM_AA_WSTAT, .ALM_NOZ_CFG, .ALM_NOZ_STATE, .ALM_NOZ_LEAD]

/-- The registers whose base lies in 0x0A_0000 to 0x0A_FFFF. -/
def regsIn0A : List Reg :=
  [.CMP_CFG, .CMP_STATUS, .CMP_NEXT_LO, .CMP_NEXT_HI, .CMP_CNT, .CMP_FIRE_LO, .CMP_FIRE_HI,
   .CMP_CAPT, .CMP_WR_POS_LO, .CMP_WR_POS_HI, .CMP_WR_PARAM, .CMP_WR_CMD, .CMP_RD_SEL,
   .CMP_RD_POS_LO, .CMP_RD_POS_HI, .CMP_RD_PARAM]

/-- The registers whose base lies in 0x0B_0000 to 0x0B_FFFF. -/
def regsIn0B : List Reg :=
  [.NOZ_CFG, .NOZ_PEAK, .NOZ_HOLD, .NOZ_FLOW, .NOZ_DET_OPEN, .NOZ_DET_CLOSE, .NOZ_LEARN,
   .NOZ_DLIM, .NOZ_STATE, .NOZ_OUT, .NOZ_MEAS, .NOZ_DLY, .NOZ_FLT, .NOZ_CNT0, .NOZ_CNT1,
   .NOZ_INIT, .BANK_CFG, .BANK_STATE, .BANK_CNT, .BANK_FLT, .BST_CFG, .BST_STATE, .BST_POWER,
   .BST_FLT]

/-- The registers whose base lies in 0x0C_0000 to 0x0C_FFFF. -/
def regsIn0C : List Reg :=
  [.PROP_CFG, .PROP_TARGET, .PROP_DITHER, .PROP_PEAK, .PROP_STATE, .PROP_OUT, .PROP_FLT]

/-- The registers whose base lies in 0x0D_0000 to 0x0D_FFFF. -/
def regsIn0D : List Reg :=
  [.MDRV_CFG, .MDRV_DT, .MDRV_MINP, .MDRV_BOOT, .MDRV_PROT, .MDRV_STOP, .MDRV_COMM,
   .MDRV_CARRIER, .MDRV_SET, .MDRV_RST, .MDRV_SHADOW, .MDRV_ACT, .MDRV_DUTY, .MDRV_STATE,
   .MDRV_I_AB, .MDRV_I_C, .MDRV_OVL, .MDRV_CNT0, .MDRV_CNT1, .MDRV_COMM_CNT, .MDRV_FLT,
   .MDRV_ARM, .MDRV_TRIP_CFG, .MDRV_TRIP_STATE, .MDRV_CAL]

/-- The registers whose base lies in 0x0E_0000 to 0x0E_FFFF. -/
def regsIn0E : List Reg :=
  [.LOOP_CFG, .LOOP_IN, .LOOP_OBS_USE, .LOOP_OBS_MODEL, .LOOP_FERR_CFG, .LOOP_SEL, .LOOP_ROW_CFG,
   .LOOP_ROW_SPACING, .LOOP_ROW_PHASE, .LOOP_ROW_DROP, .LOOP_ROW_GEOM, .LOOP_CNT, .LOOP_ROW_G,
   .LOOP_STATE, .LOOP_FLT, .LOOP_BUDGET, .LOOP_USE, .LOOP_OVR, .LOOP_TRACE_STAT,
   .LOOP_TRACE_TICK, .LOOP_SP, .LOOP_RES_LIM, .LOOP_FERR_LIM, .LOOP_VMAX, .LOOP_AMAX, .LOOP_JMAX,
   .LOOP_SET_A, .LOOP_SET_B, .LOOP_BIQUAD, .LOOP_R, .LOOP_Y, .LOOP_U, .LOOP_I, .LOOP_E,
   .LOOP_YHAT, .LOOP_COEF]

/-- The registers whose base lies in 0x0F_0000 to 0x0F_FFFF. -/
def regsIn0F : List Reg :=
  [.LSW_CFG, .LSW_LIMIT, .LSW_PROT, .LSW_COMP, .LSW_CTRL, .LSW_STATE, .LSW_MEAS, .LSW_TEMP,
   .LSW_FLT, .LSW_CNT, .LSW_PAIR_CFG, .LSW_HOLD]

/-- The registers whose base lies in 0x10_0000 to 0x10_FFFF. -/
def regsIn10 : List Reg :=
  [.PWRB_CFG, .PWRB_BUDGET, .PWRB_GRANT, .PWRB_BRIDGE, .PWRB_IN, .PWRB_VIN, .PWRB_DEMAND,
   .PWRB_CHG01, .PWRB_CHG23, .PWRB_SHED, .PWRB_DENIED, .PWRB_BST_E, .PWRB_RES, .PWRB_CNT0,
   .PWRB_CNT1]

/-- The registers whose base lies in 0x11_0000 to 0x11_FFFF. -/
def regsIn11 : List Reg :=
  [.DIARY_CFG, .DIARY_STATE, .DIARY_OLDEST, .DIARY_NEWEST, .DIARY_DRAINED, .DIARY_CNT0,
   .DIARY_CNT1, .DIARY_EMBER, .DIARY_FREEZE]

/-- The registers whose base lies in 0x12_0000 to 0x12_FFFF. -/
def regsIn12 : List Reg :=
  [.UPD_STATE, .UPD_OFFSET, .UPD_LEN, .UPD_ID, .UPD_BOOT, .UPD_SEC, .UPD_KEYS, .UPD_SLOT,
   .UPD_STORE, .UPD_MIG, .UPD_CNT]

/-- The registers whose base lies in 0x13_0000 to 0x13_FFFF. -/
def regsIn13 : List Reg :=
  [.VIG_STAT, .VIG_SAFE, .VIG_SLOSS, .VIG_WDT_CFG, .VIG_WDT_STAT, .VIG_CNT, .VIG_LOGFAIL,
   .VIG_DBG_CHAL, .VIG_DBG_RESP, .VIG_DBG_CTRL, .VIG_DBG_STAT, .VIG_DBG_CFG, .VIG_UNIT]

/-- The registers whose base lies in 0x14_0000 to 0x14_FFFF. -/
def regsIn14 : List Reg :=
  [.CANB_CFG, .CANB_NAME_LO, .CANB_NAME_HI, .CANB_ADDR, .CANB_MGMT, .CANB_DTC_CLR, .CANB_CNT,
   .CANB_DTC, .CANS_CFG, .CANS_FILT_ID, .CANS_FILT_MASK, .CANS_RX_STAT, .CANS_RX_WIN,
   .CANS_TX_WIN, .CANS_RX_POP, .CANS_TX_GO, .CANS_TX_STAT]

/-- The registers of the block that holds byte address `a`. -/
def regsAt (a : Nat) : List Reg :=
  match a / 0x10000 with
  | 0x00 => regsIn00
  | 0x01 => regsIn01
  | 0x02 => regsIn02
  | 0x03 => regsIn03
  | 0x04 => regsIn04
  | 0x05 => regsIn05
  | 0x06 => regsIn06
  | 0x07 => regsIn07
  | 0x08 => regsIn08
  | 0x09 => regsIn09
  | 0x0A => regsIn0A
  | 0x0B => regsIn0B
  | 0x0C => regsIn0C
  | 0x0D => regsIn0D
  | 0x0E => regsIn0E
  | 0x0F => regsIn0F
  | 0x10 => regsIn10
  | 0x11 => regsIn11
  | 0x12 => regsIn12
  | 0x13 => regsIn13
  | 0x14 => regsIn14
  | _ => []

/-- The address of NAME[i][j]. -/
def addr (r : Reg) (i : Nat := 0) (j : Nat := 0) : Nat :=
  (desc r).base + (desc r).stride1 * i + (desc r).stride2 * j

/-- The indices (i, j) at which `a` is an element of register array `r`, if it is one. -/
def elementAt (r : Reg) (a : Nat) : Option (Nat × Nat) :=
  let d := desc r
  if a < d.base then none
  else
    let k := a - d.base
    let i := if d.stride1 = 0 then 0 else min (k / d.stride1) (d.count1 - 1)
    let k' := k - d.stride1 * i
    let j := if d.stride2 = 0 then 0 else k' / d.stride2
    if i < d.count1 ∧ j < d.count2 ∧ k' = d.stride2 * j then some (i, j) else none

/-- The register at byte address `a`: its name and indices (R33, R34). -/
def regAt (a : Nat) : Option (Reg × Nat × Nat) :=
  if a % 4 ≠ 0 ∨ 0x150000 ≤ a then none
  else (regsAt a).findSome? (fun r => (elementAt r a).map (fun ij => (r, ij.1, ij.2)))

/-- The reset word that a register's table gives, field by field. -/
def descReset (d : RegDesc) : Word :=
  d.fields.foldl (fun w f => w ||| BitVec.ofNat 32 (f.rst * 2 ^ f.lsb)) 0

end Sys2Proof.Machine
end

