-- ==== Sys2Proof/Machine/State.lean ====
section
/-! DEFINITION. The state of the V96, all of it plain data, and its value at reset. `State` is the
    queue of waiting commands and the block; the block is one record of engine groups, one group
    per chapter of the manual, and the register words that hold configuration and counts. -/

namespace Sys2Proof.Machine

/-- What stops the model. -/
inductive Fault where
  /-- A command acts on a part that the V96 does not have. No meaning raises it: the operands of the
      commands name the parts there are, and every command goes on. Safe: nothing follows from it. -/
  | outsideHardware
  deriving DecidableEq, Repr

/-- Why the model declines a command. -/
inductive Refusal where
  /-- The command has no meaning in the model yet; raised only by an arm of `exec`. Safe. -/
  | notModelled (mnemonic : String)
  deriving DecidableEq, Repr

/-- The stored register words that differ from their reset word, by byte address, addresses rising
    (R32). A word not listed reads as its reset word. -/
abbrev RegFile := List (Nat × Word)

/-- The ordering variants (00, "Ordering variants"). -/
inductive Variant where
  | f
  | s
  | p
  deriving DecidableEq, Repr

/-- Identity (R6, R7): the variant and the values the module carries from factory and build. -/
structure Ident where
  variant : Variant := .f
  boardIssue : BitVec 4 := 1
  asicStep : BitVec 4 := 0
  romStage : BitVec 16 := 0
  serial : BitVec 64 := 0
  canIdent : Word := 0
  deriving DecidableEq, Repr

/-- The servo states of R52. -/
inductive Servo where
  | free
  | acquiring
  | locked
  | holdover
  deriving DecidableEq, Repr

/-- A pending leap second (R63): its kind and the stamp seconds S it names. -/
structure Leap where
  insert : Bool
  at_ : Nat
  deriving DecidableEq, Repr

/-- The real-time clock on VBAK (R65 to R68) and its alarm (R311, R319). -/
structure Rtc where
  sec : Nat := 0
  sub : Nat := 0
  taiUtc : Int := 0
  valid : Bool := false
  running : Bool := true
  /-- The instant of the model's clock at which `sec` and `sub` were last brought up to date. -/
  since : Nat := 0
  alarm : BitVec 34 := 0
  alarmEn : Bool := false
  deriving DecidableEq, Repr

/-- The time base (02). `now` is the model's own clock: nanoseconds from the power-on of
    `State.reset` to the current Tick edge, through every reset; every timeout is measured on it. -/
structure Time where
  now : Nat := 0
  dev : Nat := 946684800000000000
  count : Word := 0
  /-- The next edge is the first after a cold reset or an exit from DORMANT (R40). -/
  first : Bool := true
  /-- Device time has been rebuilt and the next edge is not yet one whole Tick away (R68). -/
  rebuilt : Bool := true
  /-- DOZE has been left since the last edge: the 1 ms interval in progress ends at its DOZE edge, at which
      ACTIVE is reached (R42, R311). -/
  dozing : Bool := false
  /-- The COMMIT of the current Tick has begun (R17, R44): later requests wait for the next. -/
  closed : Bool := false
  /-- The latest instant of the current Tick that a request or a fault has named, in ns after the edge:
      what is staged from now on is staged no earlier (R17). -/
  hand : Nat := 0
  /-- The COMMIT of the current Tick has finished (R47). -/
  finished : Bool := false
  ofsEff : Nat := 0
  ofsSlew : Bool := false
  servo : Servo := .free
  /-- The source in force: the committed TICK_CTRL.SRC the servo last followed (R52). -/
  src : Nat := 0
  freq : Int := 0
  freqHist : List Int := []
  sat : Bool := false
  phaseErr : Int := 0
  residual : Int := 0
  near : Nat := 0
  far : Nat := 0
  lastMeas : Nat := 0
  holdSince : Nat := 0
  /-- Whole Ticks of device time to step at the next Tick edge (R52). -/
  stepDue : Int := 0
  taiUtc : Int := 0
  utcValid : Bool := false
  leap : Option Leap := none
  /-- An applied SET waits to write the real-time clock at the next whole second (R62). -/
  rtcDue : Bool := false
  stamp : BitVec 48 := 0
  run : Nat := 0
  /-- Finish time of the previous Tick's COMMIT, and of this Tick's, in 100 ns; 1023 for none. -/
  lastEnd : Nat := 0
  thisEnd : Nat := 0
  rtc : Rtc := {}
  deriving DecidableEq, Repr

/-- The status codes of R361. -/
inductive Status where
  | ok
  | accepted
  | deferred
  | badOpcode
  | badLength
  | badCrc
  | badAddress
  | readOnly
  | range
  | noSession
  | sessionBusy
  | authFailed
  | txnNone
  | txnBusy
  | txnConflict
  | txnOverflow
  | txnExpired
  | fenced
  | resourceOwned
  | updSequence
  | updSignature
  | updSpace
  | migrationFailed
  | busy
  | denied
  deriving DecidableEq, Repr

/-- A packet the V96 sends (R336): kind 1 is a reply, kind 2 is sent on its own account (R362). -/
structure Packet where
  kind : BitVec 2
  queue : Fin 4
  opcode : BitVec 16
  tag : BitVec 16
  session : BitVec 16
  status : Status
  tick : Word
  payload : Bytes
  addr : BitVec 128
  port : BitVec 16
  deriving DecidableEq, Repr

/-- The session states of R343. -/
inductive SessState where
  | closed
  | hello
  | opened
  deriving DecidableEq, Repr

/-- Why a session last ended (LINK_SESS.END, R373). -/
inductive SessEnd where
  | none
  | keepalive
  | linkLost
  | close
  | reset
  | helloExpired
  | authFailed
  deriving DecidableEq, Repr

/-- One entry of a session's EVENT queue or of the Diary (R434, R436): an occurrence with its
    repeat count. -/
structure Occurrence where
  src : Nat
  code : Byte
  payload : BitVec 128
  /-- Length of the key in bytes (R428). -/
  keyLen : Nat
  repeats : Nat := 0
  tick : Word := 0
  stamp : BitVec 48 := 0
  /-- Instant of the first occurrence, on the model's clock. -/
  first : Nat := 0
  deriving DecidableEq, Repr

/-- The transaction states of R384. -/
inductive TxnState where
  | none
  | opened
  | committing
  | expired
  deriving DecidableEq, Repr

/-- One staged write (R385). -/
structure Staged where
  addr : Nat
  val : Word
  deriving DecidableEq, Repr

/-- A session's transaction (R384 to R390). -/
structure Txn where
  state : TxnState := .none
  num : Word := 0
  began : Nat := 0
  timeoutMs : Nat := 2000
  staged : List Staged := []
  /-- Words that transactions of the other session have written since this one's TXN_BEGIN
      (R389). -/
  rivals : List Nat := []
  lastStatus : Status := .ok
  lastIndex : BitVec 16 := 0xFFFF
  deriving DecidableEq, Repr

/-- The latches behind LO and HI register pairs (R380): one set for each session. -/
structure Latches where
  devtimeHi : Word := 0
  rtcSub : Word := 0
  odoHi : Word := 0
  cmpNextHi : List (Nat × Word) := []
  cmpFireHi : List (Nat × Word) := []
  cmpRdHi : Word := 0
  cmpRdParam : Word := 0
  alarmLo : Word := 0
  deriving DecidableEq, Repr

/-- A session (R342 to R347) and everything that exists once for each session (R380). -/
structure Session where
  state : SessState := .closed
  id : BitVec 16 := 0
  addr : BitVec 128 := 0
  port : BitVec 16 := 0
  hostNonce : Bytes := []
  devNonce : Bytes := []
  /-- Instant of the HELLO, or of the last valid request (R343, R346). -/
  since : Nat := 0
  endCause : SessEnd := .none
  ownSeq : BitVec 16 := 0
  replies : List Packet := []
  /-- The session-copy registers (R380): words with reset source "session". -/
  regs : RegFile := []
  latches : Latches := {}
  events : List Occurrence := []
  evDiscarded : Nat := 0
  txn : Txn := {}
  deriving DecidableEq, Repr

/-- When a dispatched request completes (R351, R356). -/
inductive Until where
  /-- At the next COMMIT that finishes. -/
  | commit
  /-- At its final reply, sent by the engine that carries it out. -/
  | final
  /-- A FENCE COMPLETION, or a FENCE TICK whose earlier requests have not completed. -/
  | earlier (tick : Bool)
  /-- A FENCE TICK that waits for the next finished COMMIT. -/
  | tickCommit
  /-- A FENCE DMA: the tile frames whose fills it waits for (R152). -/
  | fills (frames : List Nat)
  deriving DecidableEq, Repr

/-- A dispatched request that has not completed (R351). -/
structure InProgress where
  seq : Nat
  sess : Sess
  hdr : Hdr
  opcode : BitVec 16
  ends : Until
  /-- The instant of its dispatch on the model's clock (R17). -/
  since : Nat := 0
  /-- It holds back every later request of its queue (FENCE_AFTER, FENCE). -/
  holds : Bool
  deriving DecidableEq, Repr

/-- A request that waits in its queue (R349, R350). -/
structure Waiting where
  seq : Nat
  sess : Option Sess
  arrived : Nat := 0
  hdr : Hdr
  opcode : BitVec 16
  req : Instr
  deriving DecidableEq, Repr

/-- The state of one Ethernet port (R331 to R335, R489 to R491). -/
structure Port where
  up : Bool := false
  leader : Bool := false
  /-- A committed role change that takes effect at this instant (R490). -/
  roleAt : Option Nat := none
  linkDelay : Nat := 0
  goodExchanges : Nat := 0
  lastExchange : Nat := 0
  sqi : Nat := 0
  trainMs : Nat := 0
  deriving DecidableEq, Repr

/-- An authentication failure (R344). -/
structure AuthFail where
  addr : BitVec 128
  at_ : Nat
  deriving DecidableEq, Repr

/-- A Sync relayed to ETH_B (R55): the instant on the model's clock, and the correction it carries in ns. -/
structure Relay where
  at_ : Nat
  correction : Nat
  deriving DecidableEq, Repr

/-- The transmit side of the endpoint (R364): the packets that have not left yet, oldest first, of which up to 32 hold
    a transmit buffer; the packets in the order in which they were put on the wire, the last of which is still on it
    until `busyTill`; whether TRACE_DATA had the last turn. `looked` is the instant up to which this holds. -/
structure Transmit where
  waiting : List Packet := []
  begun : List Packet := []
  busyTill : Nat := 0
  looked : Nat := 0
  traceLast : Bool := false
  deriving DecidableEq, Repr

/-- The Varrik endpoint (12). `sent` is every packet the V96 has made to send, oldest first; `tx` puts them on the
    wire. -/
structure Link where
  main : Session := {}
  service : Session := {}
  queues : List (List Waiting) := [[], [], [], []]
  progress : List InProgress := []
  arrivals : Nat := 0
  /-- When the last request had arrived whole at ETH_A. -/
  arriveAt : Nat := 0
  sent : List Packet := []
  tx : Transmit := {}
  authFails : List AuthFail := []
  lockouts : List AuthFail := []
  identifies : List Nat := []
  portA : Port := {}
  portB : Port := { leader := true }
  /-- The session keys of R345: MAIN and SERVICE, 32 bytes each. -/
  keyMain : Bytes := List.replicate 32 0
  keyService : Bytes := List.replicate 32 0
  /-- Neighbour advertisements sent (R331). -/
  advertisements : List (BitVec 128) := []
  /-- Syncs relayed to ETH_B, oldest first (R55). -/
  relays : List Relay := []
  /-- Duplicate address detection has been performed since the last link-up (R331). -/
  dadDone : Bool := false
  nextTxn : Word := 1
  /-- Since when a settings save has held the store, for 200 ms at least (R392). -/
  saveBusySince : Option Nat := none
  deriving DecidableEq, Repr

/-- The unit states of R402. -/
inductive UnitState where
  | absent
  | standby
  | active
  | fenced
  | faulted
  | service
  deriving DecidableEq, Repr

/-- Causes of entry to a unit state (VIG_UNIT.CAUSE, R423). -/
inductive Cause where
  | reset
  | main
  | service
  | management
  | sessionLoss
  | latchedFault
  | overrun
  | ecc
  | migration
  | haltLimit
  deriving DecidableEq, Repr

/-- Who posts a unit request (R406). -/
inductive ReqSource where
  | main
  | service
  | management
  | vigil
  deriving DecidableEq, Repr

/-- One entry of the Unit State Table (R402, R405, R423). -/
structure UnitEntry where
  state : UnitState := .standby
  cause : Cause := .reset
  ovr : Bool := false
  mgmtFence : Bool := false
  /-- A start of the unit, asked for by this source, waits behind a shutdown (R218). -/
  queued : Option ReqSource := none
  deriving DecidableEq, Repr

/-- A unit request posted for the next COMMIT (R403, R406). `release` marks the management
    path's RELEASE (R368). -/
structure UnitReq where
  unit : Nat
  source : ReqSource
  target : UnitState
  cause : Cause
  release : Bool := false
  /-- The instant at which it was posted, on the model's clock (R17). -/
  since : Nat := 0
  deriving DecidableEq, Repr

/-- The debug port (R418 to R421). -/
inductive DbgState where
  | locked
  | unlocked
  | halted
  deriving DecidableEq, Repr

/-- The reset kinds of R411. -/
inductive ResetKind where
  | powerOn
  | resetN
  | dormantExit
  | deviceReset
  | watchdog
  | ecc
  | clockMonitor
  | lockstep
  | image
  deriving DecidableEq, Repr

/-- Vigil (14). -/
structure Vigil where
  units : List UnitEntry := []
  reqs : List UnitReq := []
  /-- Between a reset entry and the first COMMIT (R413). -/
  starting : Bool := true
  kind : ResetKind := .powerOn
  wdtCores : BitVec 4 := 0
  /-- The clock monitor holds the application cluster in reset (R415). -/
  clockFault : Bool := false
  /-- A DEVICE_RESET waits for the next Tick edge (R358). -/
  resetDue : Bool := false
  /-- The bridges brake from this instant, for 200 ms (R266). -/
  brakeSince : Option Nat := none
  dbg : DbgState := .locked
  challenge : BitVec 128 := 0
  dbgFails : List Nat := []
  dbgLockSince : Option Nat := none
  haltSince : Nat := 0
  haltLimited : Bool := false
  /-- PT0 to PT3 and GSPD_OUT are driven low and the CMP pins to their IDLE level, by a safe state that no reset
      made, until the next finished COMMIT (R408). -/
  safePins : Bool := false
  deriving DecidableEq, Repr

/-- The event sources (15, R425 to R433). -/
structure Events where
  pend : BitVec 128 := 0
  /-- The condition of a C source holds. -/
  cond : BitVec 128 := 0
  /-- COMMITs since PEND was set, for EDGE sources without LATCH. -/
  age : List (Nat × Nat) := []
  /-- Instant of the last occurrence, for sources that stay active for 1 s (R433). -/
  lastSeen : List (Nat × Nat) := []
  /-- ALERT_N is held low from a reset entry to the first COMMIT (R432). -/
  alertHeld : Bool := true
  /-- The last raise of the sources that are raised at most once in 100 ms. -/
  lastRaise : List (Nat × Nat) := []
  /-- Baseplate temperature, in 0.1 degree C. -/
  baseTemp : Int := 0
  baseHot : Bool := false
  deriving DecidableEq, Repr

/-- A Diary record as the ring holds it (R436): `good` is its valid mark with a good CRC. -/
structure DiaryRec where
  seq : Word
  occ : Occurrence
  good : Bool := true
  slot : Nat := 0
  deriving DecidableEq, Repr

/-- Where the newest admitted Diary entry stands (R438). -/
inductive Newest where
  | nowhere
  | fifo
  | staging
  | ring
  deriving DecidableEq, Repr

/-- A freeze of the Diary (R441). -/
structure Freeze where
  by_ : Sess
  since : Nat
  timeoutS : Nat
  deriving DecidableEq, Repr

/-- The Diary and the Ember Page (R435 to R448). -/
structure Diary where
  ring : List DiaryRec := []
  staging : List DiaryRec := []
  fifo : List DiaryRec := []
  next : Word := 0
  writeSlot : Nat := 0
  badSlots : List Nat := []
  newest : Newest := .nowhere
  lostPending : Nat := 0
  lostFirst : BitVec 48 := 0
  lostLast : BitVec 48 := 0
  freeze : Option Freeze := none
  failed : Bool := false
  protectHold : Bool := false
  drained : Word := 0xFFFFFFFF
  drainedMram : Word := 0xFFFFFFFF
  drainedAt : Option Nat := none
  fill : Bool := false
  ember : List DiaryRec := []
  emberNext : Word := 0
  /-- MRAM addresses whose code 0x02 failure the Ember Page already holds (R447). -/
  mramFailed : List Nat := []
  logSource : Byte := 0
  logCode : Byte := 0
  logDiary : Bool := false
  logMram : Bool := false
  logEmber : Bool := false
  deriving DecidableEq, Repr

/-- The learned delays of a channel (R225, R226): 16 cells for each direction, index 4 x supply band
    + temperature band, in units of 10 us; none has never been measured. -/
structure Learned where
  opens : List (Option Nat) := List.replicate 16 none
  closes : List (Option Nat) := List.replicate 16 none
  deriving DecidableEq, Repr

/-- The address-claim states of CANB_ADDR.STATE (R375). -/
inductive ClaimState where
  | claiming
  | claimed
  | cannotClaim
  | busOff
  deriving DecidableEq, Repr

/-- A frame or transport message on CAN_M: parameter group, source, destination (0xFF global) and
    data. -/
structure CanMsg where
  pgn : Nat
  src : Byte
  dst : Byte
  data : Bytes
  deriving DecidableEq, Repr

/-- A trouble code (R370): the event source, its occurrence count. -/
structure Dtc where
  source : Nat
  count : Nat
  deriving DecidableEq, Repr

/-- A transport-protocol transfer being received on CAN_M (R366). -/
structure Transfer where
  src : Byte
  dst : Byte
  pgn : Nat
  size : Nat
  extended : Bool
  broadcast : Bool
  data : Bytes
  /-- The number of the packet wanted next, and the packets before the present data offset. -/
  nextSeq : Nat
  offset : Nat := 0
  deriving DecidableEq, Repr

/-- A message longer than 8 bytes that the V96 sends to one node by the transport protocol (R366, R370): it waits for
    the receiver to clear its packets. -/
structure Outgoing where
  dst : Byte
  pgn : Nat
  data : Bytes
  deriving DecidableEq, Repr

/-- A frame of CAN_S, as the windows show it (R375). -/
structure CanSFrame where
  ident : Word
  control : Word
  data : Bytes
  deriving DecidableEq, Repr

/-- CAN_M and CAN_S (R366 to R372). -/
structure Can where
  claim : ClaimState := .claiming
  sa : Byte := 0xFE
  /-- Instant at which the present claim was sent (R367). -/
  claimedAt : Nat := 0
  taken : List Byte := []
  sent : List CanMsg := []
  received : List CanMsg := []
  transfers : List Transfer := []
  outgoing : List Outgoing := []
  active : List Dtc := []
  previous : List Dtc := []
  lastDm1 : Nat := 0
  lastExtraDm1 : Option Nat := none
  /-- A code has become active since the last DM1 (R370). -/
  newCode : Bool := false
  lastStatus : Nat := 0
  tec : Nat := 0
  rec_ : Nat := 0
  fifoS : List CanSFrame := []
  sendingS : Option CanSFrame := none
  sentS : List CanSFrame := []
  deriving DecidableEq, Repr

/-- The slot states of R451. -/
inductive SlotState where
  | empty
  | partialImage
  | complete
  | verified
  | installed
  deriving DecidableEq, Repr

/-- What an image's manifest says of it (R456). -/
structure Manifest where
  svn : Nat := 0
  fwMajor : Nat := 0
  fwMinor : Nat := 0
  fwBuild : Nat := 0
  vigMajor : Nat := 0
  vigMinor : Nat := 0
  schema : Nat := 0
  deriving DecidableEq, Repr

/-- A firmware slot with its header (R451). `image = none` is the image the module was made with,
    whose bytes the specification does not give: `factory` is its manifest. -/
structure Slot where
  state : SlotState := .empty
  identity : Bytes := []
  length : Nat := 0
  offset : Nat := 0
  image : Option Bytes := some []
  factory : Manifest := {}
  /-- Order of installation, for the PHY firmware of recovery mode (R473). -/
  installedNo : Nat := 0
  deriving DecidableEq, Repr

/-- A boot record (R452); slots and stores are `false` for A, `true` for B. -/
structure BootRecord where
  valid : Bool := false
  seq : Word := 0
  slot : Bool := false
  store : Bool := false
  trial : Bool := false
  starts : Nat := 0
  prevSlot : Option Bool := none
  prevStore : Option Bool := none
  revert : Nat := 0
  minSvn : Nat := 0
  identity : Bytes := []
  deriving DecidableEq, Repr

/-- One settings copy of a store (R454): `words` are the RWS words that differ from their reset
    word; `mark` is the migration mark of R470, naming a store and a generation. -/
structure SettingsCopy where
  valid : Bool := false
  /-- The copy holds the magic but not the valid mark: an interrupted save (R455). -/
  broken : Bool := false
  /-- A broken copy already reported with code 2 (R455). -/
  reported : Bool := false
  generation : Nat := 0
  schema : Nat := 0
  words : RegFile := []
  mark : Option (Bool × Nat) := none
  deriving DecidableEq, Repr

/-- One key copy of a store (R454). -/
structure KeyCopy where
  valid : Bool := false
  generation : Nat := 0
  main : Bytes := []
  service : Bytes := []
  deriving DecidableEq, Repr

/-- A settings store (R454). -/
structure Store where
  key0 : KeyCopy := {}
  key1 : KeyCopy := {}
  copy0 : SettingsCopy := {}
  copy1 : SettingsCopy := {}
  deriving DecidableEq, Repr

/-- The update states of R459. -/
inductive UpdState where
  | idle
  | receiving
  | complete
  | verifying
  | verified
  | trial
  | migrationFailed
  deriving DecidableEq, Repr

/-- A settings save in progress (R392, R455). -/
structure Save where
  since : Nat
  words : RegFile
  generation : Nat
  deriving DecidableEq, Repr

/-- Firmware update and settings stores (16). -/
structure Update where
  slotA : Slot := { state := .installed, image := none }
  slotB : Slot := {}
  rec0 : BootRecord := { valid := true }
  rec1 : BootRecord := {}
  storeA : Store := {}
  storeB : Store := {}
  /-- The state of R459 with recovery mode apart (R473). -/
  state : UpdState := .idle
  recovery : Bool := false
  running : Bool := false
  vres : Nat := 0
  vpart : Nat := 0
  migResult : Nat := 0
  migAddr : Nat := 0
  activations : BitVec 16 := 0
  reverts : Nat := 0
  vfail : Nat := 0
  revoked : BitVec 4 := 0
  /-- A cold reset of KIND 8 waits for the next Tick edge (R463). -/
  resetDue : Bool := false
  /-- An UPD_REVERT waits for the first COMMIT: cause and original KIND (R468, R474). -/
  revertEvent : Option (Nat × Nat) := none
  save : Option Save := none
  saveCount : BitVec 16 := 0
  saveFailed : Bool := false
  /-- A SAVE_FAIL waits for the first COMMIT: its code and the generation not written (R455). -/
  saveEvent : Option (Nat × Nat) := none
  /-- A MIGRATION_FAIL waits to be raised: its reason and the two schema versions (R471, R474). -/
  migEvent : Option (Nat × Nat × Nat) := none
  /-- What the manifest of the image that was started says: the identity registers are constant between
      resets (R7). -/
  info : Manifest := {}
  /-- The learned valve data in MRAM (R226). -/
  learned : List Learned := List.replicate 96 {}
  deriving DecidableEq, Repr

/-- Why an input switch is open (R487). -/
inductive SwitchOpen where
  | neverClosed
  | overCurrent
  | overVoltage
  | groundLift
  | prechargeFailed
  deriving DecidableEq, Repr

/-- One VPWR input (R297, R298, R487, R492). -/
structure Input where
  contactMv : Nat := 0
  /-- Voltage on the bus side of the switch, latched in CAPTURE (R297, R299). -/
  mv : Nat := 0
  currentMa : Nat := 0
  mean1s : Nat := 0
  closed : Bool := false
  opened : SwitchOpen := .neverClosed
  openedAt : Nat := 0
  present : Bool := false
  /-- INPUT_LOST has been raised for it, and its end has not (R298). -/
  lost : Bool := false
  overLatched : Bool := false
  deriving DecidableEq, Repr

/-- Supplies (17). -/
structure Supply where
  inA : Input := {}
  inB : Input := {}
  busMv : Nat := 0
  prechargeSince : Option Nat := none
  retryAt : Option Nat := none
  key : Bool := false
  ecuMv : Nat := 0
  holdUp : Bool := false
  /-- The bus came back: the output stages take up their commands at the next COMMIT (R489). -/
  resume : Bool := false
  deriving DecidableEq, Repr

/-- The power states of R311. -/
inductive PState where
  | active
  | idle
  | doze
  | hold
  | dormant
  deriving DecidableEq, Repr

/-- The load-switch sequencer (R321). -/
inductive LswSeq where
  | quiet
  | inrush
  | on
  | demag
  | cool
  | fault
  deriving DecidableEq, Repr

/-- The settings of a load switch, as LSW_CFG, LSW_LIMIT, LSW_PROT and LSW_COMP spell them (R330). -/
structure LswSet where
  cfg : Word := 0x00C80001
  limit : Word := 0x50000050
  prot : Word := 0x0A330032
  comp : Word := 0x00000118
  deriving DecidableEq, Repr

/-- One protected load switch (11). `on` and `duty` are the standing command (R323); `want` is a
    start asked for and not yet admitted; `latchOn`, `latchMa` are what the hold latch took at the
    last finished COMMIT (R327). -/
structure Lsw where
  seq : LswSeq := .quiet
  /-- The settings in use (R330), the number of the PWM period they were taken in, and the duty of the period before
      that of `d` (R324). -/
  set : LswSet := {}
  period : Nat := 0
  dPrev : Nat := 0
  on : Bool := false
  duty : Nat := 1000
  d : Nat := 0
  limitMa : Nat := 0
  trips : Nat := 0
  cut : Bool := false
  queued : Bool := false
  held : Bool := false
  want : Bool := false
  /-- The wanted start is a retry (R325). -/
  retry : Bool := false
  /-- Instant at which the present state was entered. -/
  since : Nat := 0
  currentMa : Nat := 0
  tj : Int := 0
  tpair : Int := 0
  latchOn : Bool := false
  latchMa : Nat := 0
  deriving DecidableEq, Repr

/-- A load start that waits for the arbiter (R301, R302). -/
structure LoadWait where
  sw : Nat
  since : Nat
  deriving DecidableEq, Repr

/-- A shed switch (R303), with the instant since which the headroom has allowed its restore, and RESTORE_T
    elapsed, so that the next COMMIT serves it (R304). -/
structure Shed where
  sw : Nat
  since : Option Nat
  due : Bool := false
  deriving DecidableEq, Repr

/-- What CAPTURE latches for the arbiter (R299): NOZ_STATE.ON of each channel, the proportional channels'
    duty times current in uA, each boost's mean output power in 10 mW where it is not OFF, the internal
    bridges' mean supply currents in mA, the internal bridges in RUN and the gate-drive sets in RUN or
    RAMP_DOWN, each load switch's charge in mA, and VPWR in mV. -/
structure PwrLatch where
  vpwr : Nat := 0
  noz : BitVec 96 := 0
  props : List Nat := []
  boosts : List (Option Nat) := []
  bridges : List Int := []
  drives : BitVec 16 := 0
  lsw : List Nat := []
  deriving DecidableEq, Repr

/-- The arbiter and the power states (10). Charges are in uA, energies in nJ. -/
structure Power where
  state : PState := .active
  target : PState := .active
  block : Nat := 0
  /-- Since when the target has been DOZE or deeper, HOLD or deeper, DORMANT (R313). -/
  dozeSince : Option Nat := none
  holdSince : Option Nat := none
  dormSince : Option Nat := none
  lastCause : Nat := 0
  dormCause : Nat := 0
  charge0 : Int := 0
  charge1 : Int := 0
  charge2 : Int := 0
  charge3 : Int := 0
  total : Int := 0
  head : Int := 0
  allowance : Int := 0
  waits : List LoadWait := []
  shed : List Shed := []
  cap : Bool := false
  capSince : Option Nat := none
  /-- The cap may be lifted at the next COMMIT (R304). -/
  capDue : Bool := false
  boostE : List Nat := [0, 0, 0]
  /-- Since when each boost has been recharging (R305). -/
  recharge : List (Option Nat) := [none, none, none]
  latch : PwrLatch := {}
  resHeld : Nat := 0
  resFirm : Nat := 0
  deriving DecidableEq, Repr

/-- What one axis latches at a Tick edge (R92). -/
structure AxisLatch where
  pos : Int := 0
  rev : Int := 0
  speed : Int := 0
  rate : Int := 0
  age : Nat := 0xFFFFFFFF
  hall : Nat := 0
  valid : Bool := false
  stop : Bool := true
  starting : Bool := false
  reversing : Bool := false
  reverse : Bool := false
  referenced : Bool := false
  atLo : Bool := false
  atHi : Bool := false
  hallInvalid : Bool := false
  sensorLost : Bool := false
  indexLost : Bool := false
  dirUnknown : Bool := false
  /-- The pending count: +1, -1, or 0 for none. -/
  pend : Int := 0
  idxErr : Int := 0
  deriving DecidableEq, Repr

/-- A movement of the counted position in one sample: from one position to another, not reduced
    modulo CPR (R82, R98), with its place in the order of movements. -/
structure AxisStep where
  no : Nat
  at_ : Nat
  from_ : Int
  to_ : Int
  deriving DecidableEq, Repr

/-- One axis (R74 to R94). Time stamps are instants of the model's clock; `hist` and `histPos` hold
    the newest first. -/
structure Axis where
  pos : Int := 0
  rev : Int := 0
  /-- The pending count: forward or not, and its time stamp (R81). -/
  pending : Option (Bool × Nat) := none
  /-- The last accepted direction, forward or not (R81). -/
  dir : Option Bool := none
  hist : List Nat := []
  histPos : List Int := []
  stop : Bool := true
  starting : Bool := false
  reversing : Bool := false
  referenced : Bool := false
  atLo : Bool := false
  atHi : Bool := false
  sensorLost : Bool := false
  indexLost : Bool := false
  dirUnknown : Bool := false
  /-- A sample has come since the axis restarted (R94, R98). -/
  sampled : Bool := false
  /-- An index edge has been accepted since the axis restarted or left FAULTED (R87). -/
  indexed : Bool := false
  /-- The last valid hall code; 0 until one has come since the restart (R79). -/
  hall : Nat := 0
  travel : Int := 0
  idxErr : Int := 0
  lastCount : Nat := 0
  msgSpeed : Int := 0
  lastMsg : Nat := 0
  prevField : Int := 0
  /-- The movements since the last Tick edge, oldest first, and how many there have been: what the
      axis-referenced compare lanes see (R185). -/
  steps : List AxisStep := []
  stepNo : Nat := 0
  latch : AxisLatch := {}
  frozen : Option AxisLatch := none
  deriving DecidableEq, Repr

/-- One serial sensor port (R95 to R99). -/
structure SPort where
  word : Word := 0
  good : Bool := false
  lost : Bool := false
  badRun : Nat := 0
  stamp : Nat := 0
  /-- The sync length of the previous SENT frame, in ns (R96). -/
  lastSync : Option Nat := none
  status : Nat := 0
  /-- The status nibbles of the last SENT frames, newest first: the slow channel (R96). -/
  slow : List Nat := []
  slowKind : Nat := 0
  slowId : Nat := 0
  slowData : Nat := 0
  deriving DecidableEq, Repr

/-- One pass-through output in DIVIDE (R102): counts since its last pulse, end of its pulse. -/
structure PtPort where
  count : Nat := 0
  pulseEnd : Nat := 0
  pulses : Nat := 0
  deriving DecidableEq, Repr

/-- Feedback inputs, axes, serial ports and speed signals (03). Bit 48 of `levels` is GSPD_IN. -/
structure Feedback where
  levels : BitVec 49 := 0
  /-- The positive peak of the last cycle of each variable-reluctance input, in mV (R73). -/
  vrPeak : List Nat := List.replicate 8 0
  /-- The levels and the VR peaks at the last latch (FB_STATE). -/
  latched : BitVec 49 := 0
  vrLatched : List Nat := List.replicate 8 0
  axes : List Axis := List.replicate 32 {}
  ports : List SPort := List.replicate 4 {}
  pts : List PtPort := List.replicate 4 {}
  /-- The machine direction of the last valid speed message, forward or not (R80). -/
  msgForward : Option Bool := none
  /-- GSPD_OUT (R101): the distance accumulator at the last change of speed, in 10^-15 m, the instant of that
      change on the model's clock, the speed in um/s, the frequency in 0.01 Hz. -/
  gspdAcc : Nat := 0
  gspdAt : Nat := 0
  gspdV : Nat := 0
  gspdFreq : Nat := 0
  /-- Levels of the CMP pins at the last Tick edge (R396). -/
  gpi : BitVec 8 := 0
  deriving DecidableEq, Repr

/-- What the pose unit keeps of its estimate at one instant (R119). Positions are in units of
    0.1 nm, headings and their sigma in units of 2^-48 turn, speeds in um/s, rates in urad/s. -/
structure Snap where
  time : Nat := 0
  e : Int := 0
  n : Int := 0
  hdg : Int := 0
  v : Int := 0
  r : Int := 0
  sigPos : Nat := 0
  sigHdg : Nat := 0
  sigV : Nat := 0
  deriving DecidableEq, Repr

/-- A host-supplied speed (R110, R119). -/
structure HostSpeed where
  time : Nat
  v : Int
  sigma : Nat
  deriving DecidableEq, Repr

/-- An accepted fix, as the course rule of R121 uses it. -/
structure LastFix where
  time : Nat
  e : Int
  n : Int
  sigma : Nat
  v : Int
  deriving DecidableEq, Repr

/-- A nozzle's ground point in mm and its forward and lateral ground speeds in um/s (R129). -/
structure NozPoint where
  e : Int := 0
  n : Int := 0
  v : Int := 0
  u : Int := 0
  slow : Bool := true
  deriving DecidableEq, Repr

/-- A POSE_AIDING packet that waits for the next POSE phase (R118). -/
structure AidPacket where
  time : Nat
  items : List AidItem
  deriving DecidableEq, Repr

/-- The pose unit (04). `odo` is the interpolator's integer part and fraction together, in 2^-32 of
    10 um, at the last Tick edge; `odoEst` is in 0.05 nm; `incOld` runs for the first 20 us of the
    Tick, `inc` after (R125, R126, R128). -/
structure Pose where
  enabled : Bool := false
  init : Bool := false
  now : Snap := { sigPos := 655350000000, sigHdg := 512401738853691 }
  acc : Int := 0
  bias : Int := 0
  psi : Int := 0
  sway : Int := 0
  bridge : Bool := false
  bridgeSince : Nat := 0
  bridgeEnded : Bool := false
  zupt : Bool := false
  travelLost : Bool := false
  swaySat : Bool := false
  stale : Bool := true
  grade : Nat := 0
  imu : ImuSample := {}
  imuAt : Nat := 0
  imuFault : Bool := false
  prevV : Int := 0
  prevRS : Int := 0
  odo : Nat := 0
  odoEst : Nat := 0
  inc : Nat := 0
  incOld : Nat := 0
  rate : Nat := 0
  resid : Int := 0
  /-- The estimated scale factors of the travel sources, in 2^-16 (R112). -/
  scales : List Nat := [65536, 65536, 65536, 65536]
  history : List Snap := []
  sinceSnap : Nat := 0
  pendE : Int := 0
  pendN : Int := 0
  fixes : List PoseFix := []
  aids : List AidPacket := []
  lastFixTime : Option Nat := none
  lastFixNow : Nat := 0
  lastAid : List (Nat × Nat) := []
  lastFix : Option LastFix := none
  hostSpeeds : List HostSpeed := []
  standstills : List Nat := []
  yawItem : Option (Nat × Int) := none
  headings : List (Nat × Int) := []
  stepAt : Option Nat := none
  rejects : Nat := 0
  accepted : BitVec 16 := 0
  lastAge : Nat := 0
  frame : BitVec 16 := 0
  frameSet : Bool := false
  originLat : Word := 0
  originLon : Word := 0
  originAlt : Word := 0
  noz : List NozPoint := List.replicate 96 {}
  deriving DecidableEq, Repr

/-- The states of a tile frame (R143). -/
inductive FrameState where
  | free
  | filling
  | valid
  | dirty
  | writingBack
  | poisoned
  deriving DecidableEq, Repr

/-- A tile key (R139): field identity, tile x and tile y. -/
structure Key where
  fid : Nat := 0
  tx : Int := 0
  ty : Int := 0
  deriving DecidableEq, Repr

/-- The cells of a tile (R137): 32 chunks of 512 cells in order of their byte offsets; an empty chunk
    stands for 512 cells of the value `fill`. -/
structure Cells where
  fill : BitVec 16 := 0
  chunks : List (List (BitVec 16)) := List.replicate 32 []
  deriving DecidableEq, Repr

/-- One frame of the tile cache (R143). -/
structure Frame where
  state : FrameState := .free
  prod : Nat := 0
  key : Key := {}
  cells : Cells := {}
  /-- Chunks stored while FILLING, as a bit map. -/
  stored : Word := 0
  /-- Instant at which the fill was complete (R148). -/
  doneAt : Option Nat := none
  /-- Instant of the last chunk stored, or since which the frame has been DIRTY. -/
  since : Nat := 0
  /-- The replay log dropped an entry of this fill (R154). -/
  marked : Bool := false
  seq : Word := 0xFFFFFFFF
  /-- The sequence number last acknowledged in a writeback, or the fill's (R159). -/
  ackSeq : Word := 0xFFFFFFFF
  age : Nat := 65535
  /-- A lookup has used the frame since its fill (R150). -/
  looked : Bool := false
  redirty : Bool := false
  /-- A writeback of the frame is called for (R156). -/
  wanted : Bool := false
  /-- Named by a TILE_INVALIDATE: no lookup uses it any more, and it is freed once written back (R158). -/
  dropped : Bool := false
  /-- Of an older field frame, kept only to be written back (R144): the frame identity its writeback
      carries. -/
  retired : Option (BitVec 16) := none
  /-- Cell increments since the last acknowledged writeback, and since the running snapshot. -/
  raised : Nat := 0
  raisedNew : Nat := 0
  /-- A scrub has failed: the frame stays POISONED until a cold reset (R143). -/
  dead : Bool := false
  deriving DecidableEq, Repr

/-- One TLB entry (R140). -/
structure TlbEntry where
  valid : Bool := false
  key : Key := {}
  frame : Nat := 0
  used : Nat := 0
  deriving DecidableEq, Repr

/-- An outstanding fault (R145, R146). -/
structure TileFault where
  prod : Nat
  key : Key
  tick : Word
  seq : Word
  poison : Bool
  timedOut : Bool
  lastSent : Nat
  lastUse : Nat
  deriving DecidableEq, Repr

/-- A key that evaluations wait on, or that has timed out (R145). -/
structure KeyWait where
  prod : Nat
  key : Key
  since : Nat
  timedOut : Bool
  deriving DecidableEq, Repr

/-- A coverage segment (R153): end points in mm, boom headings in 2^-48 turn, swath width in mm. -/
structure Segment where
  prod : Nat
  noz : Nat
  e0 : Int
  n0 : Int
  hb0 : Int
  e1 : Int
  n1 : Int
  hb1 : Int
  w : Nat
  seq : Word := 0xFFFFFFFF
  deriving DecidableEq, Repr

/-- One entry of the replay log (R154). -/
structure Replay where
  prod : Nat
  key : Key
  cell : Nat
  seq : Word
  deriving DecidableEq, Repr

/-- A writeback in flight (R156, R157). `frame` is none once its frame is lost to poison. -/
structure Writeback where
  frame : Option Nat
  prod : Nat
  key : Key
  seq : Word
  frameId : BitVec 16
  cells : Cells
  lastSent : Nat
  resends : Nat := 0
  deriving DecidableEq, Repr

/-- A rate table being loaded (R138). -/
structure Shadow where
  chunks : List (List Word) := List.replicate 16 []
  doneAt : Option Nat := none
  deriving DecidableEq, Repr

/-- The field map (05). Rate tables are 16 chunks of 256 entries, or none. -/
structure FieldMap where
  frames : List Frame := List.replicate 128 {}
  tlb : List TlbEntry := List.replicate 64 {}
  lookups : Nat := 0
  slots : Nat := 0
  faults : List (Option TileFault) := List.replicate 16 none
  waits : List KeyWait := []
  /-- Keys lost to poison, with the sequence number that the next fault reports (R159). -/
  lost : List (Key × Word) := []
  queue : List Segment := []
  replay : List Replay := []
  buffers : List (Option Writeback) := List.replicate 4 none
  rates : List (List (List Word)) := [[], []]
  shadows : List Shadow := [{}, {}]
  evictDue : Bool := false
  slotsLast : Nat := 0
  slotsUsed : Nat := 0
  probeMain : Word := 0xFF000000
  probeService : Word := 0xFF000000
  deriving DecidableEq, Repr

/-- The nozzle channel sequencer (R208). -/
inductive NozSeq where
  | quiet
  | wait
  | rise
  | peak
  | hold
  | decay
  | settle
  | fault
  deriving DecidableEq, Repr

/-- What a pull-in is for (R208): the lead-in of an OPEN, a period of spray PWM, a PULSE. -/
inductive Pull where
  | leadIn
  | period
  | pulse
  deriving DecidableEq, Repr

/-- The action that an outcome belongs to (R180, R222). -/
inductive Act where
  | opens
  | closes
  | rate
  | pulse
  deriving DecidableEq, Repr

/-- The outcome of an actuation, for the next COMMIT (R180, R222): `fail` is none for a confirmation,
    or the FAIL kind of R192. -/
structure ActResult where
  act : Act
  fail : Option Nat
  assumed : Bool := false
  /-- The measured delay in ns. -/
  measured : Nat := 0
  /-- It was reached at the delivery of its entry, while an earlier one may still await its own (R214). -/
  atOnce : Bool := false
  /-- Instant on the model's clock. -/
  at_ : Nat
  deriving DecidableEq, Repr

/-- A close detection that runs (R221, R222): since when, on the model's clock; whether a CLOSE awaits
    it; from where its delay is counted. -/
structure CloseDet where
  since : Nat
  bearing : Bool
  from_ : Nat
  deriving DecidableEq, Repr

/-- A NOZZLE_FORCE start (R219). -/
structure Force where
  pulse : Bool
  duty : Nat
  durationMs : Nat
  deriving DecidableEq, Repr

/-- The settings that a pulse of a nozzle channel runs with, from its start of RISE on (R238), times in ns:
    the two decay modes, the detection windows, and whether its rise was made with SUPPLY = BOOST. -/
structure PulseSet where
  iPeak : Nat := 0
  tPeak : Nat := 0
  minOff : Nat := 0
  slowPeak : Bool := false
  slowClose : Bool := false
  det : Bool := false
  openMin : Nat := 0
  openMax : Nat := 0
  openStep : Nat := 0
  openConf : Nat := 0
  closeMin : Nat := 0
  closeMax : Nat := 0
  closeStep : Nat := 0
  boost : Bool := false
  deriving DecidableEq, Repr

/-- A nozzle channel (R208 to R228). Instants are on the model's clock. -/
structure Noz where
  seq : NozSeq := .quiet
  /-- The settings of the present pulse, taken at its start of RISE. -/
  pset : PulseSet := {}
  /-- The instant at which SETTLE was entered after the last pulse: probes run from then on (R221). -/
  settleAt : Option Nat := none
  /-- Start of the present RISE, low-side turn-off, delivery of the waiting request. -/
  riseAt : Nat := 0
  offAt : Nat := 0
  waitFrom : Nat := 0
  /-- A pull-in under a firm deferral starts at this instant (R187). -/
  deferUntil : Option Nat := none
  /-- The current falls from I_PEAK to I_HOLD. -/
  falling : Bool := false
  /-- The instant at which I_PEAK was reached. -/
  peakAt : Option Nat := none
  pull : Pull := .leadIn
  /-- Length asked for of a PULSE, in ns. -/
  pulseNs : Nat := 0
  /-- The energised pulse is a lead-in (R214). -/
  leadIn : Bool := false
  pulseEnd : Option Nat := none
  on : Bool := false
  /-- The open fraction follows the rate (MODE MAP), else the duty (R216). -/
  byRate : Bool := false
  rate : Nat := 0
  duty : Nat := 0
  acc : Int := 0
  give : Int := 0
  origin : Nat := 0
  nextPeriod : Option Nat := none
  periodNs : Nat := 100000000
  openDet : Bool := false
  closeDet : Option CloseDet := none
  /-- The last close detection ended with its signature found. -/
  closeFound : Bool := true
  closeFailed : Bool := false
  assumeOpen : Option Nat := none
  assumeClose : Option Nat := none
  rateWait : Bool := false
  held : Option Pull := none
  force : Option Force := none
  forceEnd : Option Nat := none
  queuedForce : Option Force := none
  stuck : Bool := false
  /-- STUCK clears at the next COMMIT, or at the one after that where this COMMIT set it (R223). -/
  stuckClear : Bool := false
  stuckSoon : Bool := false
  fails : Nat := 0
  skipping : Bool := false
  merging : Bool := false
  limited : Bool := false
  battPull : Bool := false
  lastDuty : Nat := 0
  vband : Nat := 0
  tband : Nat := 1
  measOpen : Nat := 0
  measClose : Nat := 0
  learned : Learned := {}
  /-- Coil temperature estimate in 10^-7 degree C, and when it was last measured. -/
  temp : Int := 0
  tempAt : Nat := 0
  lastHold : Nat := 0
  holdFrom : Nat := 0
  /-- Factory calibration of the switch and sense path, in mOhm (R225). -/
  pathMohm : Nat := 0
  /-- Means over the present HOLD as last captured (R225). -/
  holdMv : Nat := 0
  holdOn : Nat := 0
  holdMa : Nat := 0
  currentMa : Nat := 0
  /-- Energised time in 100 ms bins, newest first, and the instant to which it is counted (R215). -/
  bins : List Nat := []
  binFrom : Nat := 0
  countedTo : Nat := 0
  outcomes : List ActResult := []
  deriving DecidableEq, Repr

/-- A bank: its high-side current at the last Tick edge. -/
structure Bank where
  currentMa : Nat := 0
  deriving DecidableEq, Repr

/-- The states of a boost converter (R206). -/
inductive BoostState where
  | off
  | softStart
  | ready
  | low
  | fault
  deriving DecidableEq, Repr

/-- A boost converter (R205, R206). -/
structure Boost where
  state : BoostState := .off
  since : Nat := 0
  vout : Nat := 0
  /-- The slewed output setting in mV (BST_CFG.VSET). -/
  setMv : Nat := 48000
  /-- Mean output power in 10 mW. -/
  avg : Nat := 0
  /-- Output capacitance from factory calibration, in nF (R305). -/
  capNf : Nat := 220000
  deriving DecidableEq, Repr

/-- The proportional sequencer (R234). -/
inductive PropSeq where
  | quiet
  | peak
  | ramp
  | regulate
  | decay
  | fault
  deriving DecidableEq, Repr

/-- A proportional channel (R231 to R236). Targets are in 0.5 mA. -/
structure Prop_ where
  seq : PropSeq := .quiet
  since : Nat := 0
  /-- The last register or lane value applied (SRC REGISTER), and whether the SERVICE session wrote it
      (R229). -/
  value : Nat := 0
  byService : Bool := false
  /-- The loop output, and whether the lane lets it through (SRC LOOP). -/
  loop : Nat := 0
  loopOn : Bool := true
  /-- The target in effect, and the setpoint from which the present RAMP moves (R234). -/
  target : Nat := 0
  rampFrom : Nat := 0
  saturated : Bool := false
  meanMa : Nat := 0
  dutyPm : Nat := 0
  deriving DecidableEq, Repr

/-- Nozzles, banks, boosts and proportional channels (07). -/
structure Valve where
  noz : List Noz := List.replicate 96 {}
  banks : List Bank := List.replicate 12 {}
  boosts : List Boost := List.replicate 3 {}
  props : List Prop_ := List.replicate 8 {}
  /-- Learned data has changed since it was last written to MRAM, and when it was written. -/
  learnedDirty : Bool := false
  learnedAt : Nat := 0
  deriving DecidableEq, Repr

/-- An entry of a compare lane, or a planned one (R180, R186). `pos` is the 48-bit position; `act` the
    action code; `order` the order in which entries were written. For the Almanac's own entries `tp` is
    the transition point before its offset and `dsw` the switching distance (R170), odometer values that
    do not wrap; `fold` is the deferral folded into the position, in ns (R178). -/
structure Eve where
  order : Nat
  pos : Nat
  act : Nat
  repeats : Bool := false
  tag : Byte := 0
  param : Nat := 0
  tp : Int := 0
  dsw : Int := 0
  /-- It was staged with its position at or behind the reference at the Tick edge (R185). -/
  design : Bool := false
  ovr : Bool := false
  counter : Bool := false
  fold : Nat := 0
  /-- Predicted fire instant, on the model's clock, of an OPEN that asks for a reservation. -/
  want : Option Nat := none
  /-- The arbiter's last answer: a deferral in ns, 400 000 for a projected drop. -/
  delta : Option Nat := none
  firm : Bool := false
  /-- FIRM, and its reserved Tick has ended without a fire (R306). -/
  off : Bool := false
  /-- The entry that this one replaces, whose reservation it takes on. -/
  moved : Option Nat := none
  deriving DecidableEq, Repr

/-- One of the 160 compare lanes (R184). `killedAt` is the instant at which the last kill took effect
    (R181); `fireTime` is device time in ns; `seen` is the last axis movement compared. -/
structure Lane where
  gen : Byte := 0
  killedAt : Nat := 0
  eves : List Eve := []
  /-- Entries of host software that step 5 of this COMMIT publishes (R28, R188). -/
  fresh : List Eve := []
  lastAct : Nat := 0
  fireTime : Nat := 0
  capt : Word := 0
  seen : Nat := 0
  deriving DecidableEq, Repr

/-- A CMP pin as its lane drives it (R186), and the end of its pulse. -/
structure CmpPin where
  level : Bool := false
  pulseEnd : Option Nat := none
  deriving DecidableEq, Repr

/-- A nozzle entry in flight (R180): FIRED, or LATE_RETRACT with `late`, with what its records report
    (R192): the odometer, the stamp and the ground point of the fire instant. -/
structure Flight where
  order : Nat
  act : Act
  param : Nat
  late : Bool := false
  ovr : Bool := false
  counter : Bool := false
  /-- The transition point the plan counted from before this entry fired. -/
  baseBefore : Int := 0
  /-- The instant of its fire on the model's clock. -/
  at_ : Nat := 0
  odo : Nat := 0
  stamp : BitVec 48 := 0
  e : Int := 0
  n : Int := 0
  deriving DecidableEq, Repr

/-- A station of a nozzle's profile (R168): its number, its odometer position, which does not wrap, the
    predicted centre of its samples in 0.1 nm, and its cells; none is an unknown sample (R169). -/
structure Station where
  no : Nat
  odo : Nat
  e : Int
  n : Int
  cells : List (Option (BitVec 16))
  deriving DecidableEq, Repr

/-- What a plan pass stages for its lane (R174, R181): the entries kept, those retracted, those
    added. -/
structure LanePlan where
  keep : List Eve := []
  retract : List Nat := []
  add : List Eve := []
  /-- It comes from a plan pass (ALM_STAT.PLANNED). -/
  planned : Bool := false
  /-- What ALM_NOZ_LEAD and ALM_NOZ_STATE show of the plan, and what it adds to DEFER_FOLD and COUNTER. -/
  openLead : Nat := 0
  closeLead : Nat := 0
  slow : Bool := false
  low : Bool := false
  folds : Nat := 0
  counters : Nat := 0
  /-- The transition point the plan counted from, the one from which it goes on, and whether it keeps a state
      that was fired too late (R182). -/
  from_ : Int := 0
  jump : Option Int := none
  late : Bool := false
  /-- The plan has carried out the switch of the last SECTION_COMMAND (R190). -/
  ovrDone : Bool := false
  deriving DecidableEq, Repr

/-- What the Almanac keeps for a nozzle (R163 to R182). -/
structure AlmNoz where
  planning : Bool := false
  stations : List Station := []
  nextNo : Nat := 0
  /-- The samples of the station being scanned. -/
  partial_ : List (Option (BitVec 16)) := []
  /-- Odometer position of the first unscanned station. -/
  front : Nat := 0
  parked : Bool := false
  /-- The tile that a parked scan waits for (R145). -/
  parkKey : Key := {}
  blind : Bool := false
  slow : Bool := false
  low : Bool := false
  /-- The override, the one before it, and the odometer from which it holds (R190). -/
  ovr : Nat := 0
  ovrOld : Nat := 0
  ovrAt : Option Nat := none
  /-- The switch that the last SECTION_COMMAND asks for has not been planned yet (R190). -/
  ovrDue : Bool := false
  /-- The confirmed state and rate. -/
  on : Bool := false
  rate : Nat := 0
  /-- The transition point of the entry fired last: transitions behind it have been carried out. -/
  base : Int := 0
  flights : List Flight := []
  staged : Option LanePlan := none
  openLead : Nat := 0
  closeLead : Nat := 0
  /-- Odometer at the last fired OPEN and CLOSE. -/
  openOdo : Option Nat := none
  closeOdo : Option Nat := none
  /-- The last entry fired was retracted too late, and no counter-action has been issued (R182). -/
  lateFired : Bool := false
  /-- Its counter-action has been refused, and the fired state is kept until the plan's next transition (R182). -/
  lateKept : Bool := false
  /-- A CLOSE has failed (R193). -/
  closeFailed : Bool := false
  /-- Where the open coverage interval goes on: ground point in mm and boom heading, and the
      instant of that point (R153). -/
  segE : Int := 0
  segN : Int := 0
  segHb : Int := 0
  segAt : Nat := 0
  deriving DecidableEq, Repr

/-- A record of the AS_APPLIED stream (R192), with the instant at which it was made. -/
structure AaRecord where
  seq : Word
  stamp : BitVec 48
  kind : Nat
  flags : Nat
  noz : Nat
  odo : Nat
  e : Int
  n : Int
  info : Nat
  made : Nat
  deriving DecidableEq, Repr

/-- What the records of one Tick are computed from (R192). -/
structure TickView where
  edge : Nat := 0
  stamp : BitVec 48 := 0
  odo : Nat := 0
  inc : Nat := 0
  incOld : Nat := 0
  v : Int := 0
  hb : Int := 0
  grade : Nat := 0
  e : Int := 0
  n : Int := 0
  yaw : Int := 0
  noz : List NozPoint := []
  deriving DecidableEq, Repr

/-- A product's TRACK interval (R193) and the coverage segments since its last record (R153). -/
structure Track where
  odo : Nat := 0
  at_ : Nat := 0
  running : Bool := false
  segments : List Segment := []
  deriving DecidableEq, Repr

/-- The Almanac and the compare unit (06). `waiting` records at the end of `ring` are unsent. -/
structure Almanac where
  lanes : List Lane := List.replicate 160 {}
  pins : List CmpPin := List.replicate 8 {}
  noz : List AlmNoz := List.replicate 96 {}
  tracks : List Track := [{}, {}]
  ring : List AaRecord := []
  waiting : Nat := 0
  next : Word := 0
  epoch : BitVec 16 := 1
  view : TickView := {}
  /-- The views of the Ticks before, newest first, back to the one before the last finished COMMIT's (R192). -/
  past : List TickView := []
  entries : Nat := 0
  planned : Nat := 0
  end0 : Nat := 0
  end1 : Nat := 0
  /-- Nozzles whose plan pass was not finished in the previous Tick (R174). -/
  unfinished : List Nat := []
  /-- Nozzles whose scan found no walker slot in the last ALMANAC phase (R141, R174). -/
  unserved : List Nat := []
  /-- Entries fired through lateness in this COMMIT: item kind and item (R185, R197). -/
  lateItems : List (Nat × Nat) := []
  /-- The ALMANAC phase of this Tick is still to come: the Ticks since the last one, 0 for none (R18, R25). -/
  due : Nat := 0
  deriving DecidableEq, Repr

/-- The motor sequencer (R262). -/
inductive MotSeq where
  | quiet
  | run
  | rampDown
  | brake
  | fault
  deriving DecidableEq, Repr

/-- One phase of a PWM unit (R243), in fine steps: the compares in use, the edges of the present period as
    offsets from its start, after the minimum-pulse check (R247), each with the level it makes; `level` is the
    reference before the first of them, and `lastEdge` the instant, on the model's clock, of the edge that made
    it. -/
structure PwmPhase where
  cmpSet : Nat := 0
  cmpRst : Nat := 0
  /-- The compares last transferred from the shadows (R254), in use under SRC COMPARE. -/
  shSet : Nat := 0
  shRst : Nat := 0
  level : Bool := false
  lastEdge : Nat := 0
  edges : List (Nat × Bool) := []
  /-- Periods for which the high side has been on without a gap, the one that a refresh began counted (R248). -/
  highRun : Nat := 0
  /-- A bootstrap refresh runs in this period. -/
  refresh : Bool := false
  /-- When the cycle-by-cycle limit last opened the high side and the low side, in fine steps. -/
  limHigh : Option Nat := none
  limLow : Option Nat := none
  deriving DecidableEq, Repr

/-- What drives the outputs of a PWM unit (R250, R252, R262, R266): nothing, the three low sides, the same by
    Vigil at a reset, or the phases, masked for a sector. -/
inductive MotDrive where
  | off
  | brake
  | resetBrake
  | phases (sector : Option Nat)
  deriving DecidableEq, Repr

/-- A change of what drives the outputs: its instant in fine steps on the model's clock, and the levels just
    before it, from which dead time counts (R247, R251). -/
structure DriveStep where
  at_ : Nat
  drive : MotDrive
  before : BitVec 6
  deriving DecidableEq, Repr

/-- A PWM unit (08). Duties are in units of 10^-8; `start` is the start of the present carrier period, in fine
    steps on the model's clock; `ovl` is in 10^-12 A2s. `cfg` are
    MDRV_CFG, DT, MINP, BOOT, PROT, STOP and COMM as taken up at the last period start (R269). -/
structure Motor where
  seq : MotSeq := .quiet
  since : Nat := 0
  duty : Int := 0
  asked : Int := 0
  /-- The duty that the unit's loop slot last wrote, and a write whose instant, in fine steps, lies beyond the
      present period (R255). -/
  loopDuty : Int := 0
  loopDue : Option (Int × Nat) := none
  rampFrom : Int := 0
  k : Nat := 2
  phase : Nat := 0
  start : Nat := 0
  period : Nat := 320000
  ph : List PwmPhase := [{}, {}, {}]
  pending : BitVec 7 := 0
  /-- Pending shadows that an arm or legacy mode transfers at the next period start (R254, R257). -/
  armed : BitVec 7 := 0
  age : Nat := 0
  stale : Bool := false
  sector : Option Nat := none
  /-- What drives the outputs, newest first. -/
  steps : List DriveStep := [{ at_ := 0, drive := .resetBrake, before := 0 }]
  /-- The last output edge before the present period, or before the last change of what drives (R260). -/
  edgeLast : Option Nat := none
  /-- Since when the hall state has been invalid, as it is until a first valid code (R252). -/
  invalidSince : Option Nat := some 0
  queuedStart : Bool := false
  foldback : Bool := false
  ovl : Nat := 0
  undervolt : Bool := false
  cbcRun : Nat := 0
  cbcNow : Bool := false
  /-- Since when the trip action LOW brakes (R260). -/
  tripBrake : Option Nat := none
  cfg : List Word := [0x02000030, 0x0C800C80, 50, 0x80001019, 0x83E80032, 0x006400C8, 0x14000000]
  /-- Switches that a protection has opened during a debug halt (R267), and the halt over, but not yet taken up
      at a period start. -/
  opened : BitVec 6 := 0
  resuming : Bool := false
  /-- A protection has ended Vigil's brake on this unit (R266). -/
  brakeOff : Bool := false
  /-- Output levels at the last COMMIT, or held by a halt. -/
  out : BitVec 6 := 0
  ia : Int := 0
  ib : Int := 0
  ic : Int := 0
  tj : Int := 0
  /-- Mean supply current over the last Tick in mA, negative while braking returns energy (R299). -/
  ibus : Int := 0
  deriving DecidableEq, Repr

/-- The PWM units and what they share (08). -/
structure Motors where
  units : List Motor := List.replicate 16 {}
  /-- The levels of TRIP0 to TRIP3 after their filters (R260). -/
  tripLevel : BitVec 4 := 0
  tap : Nat := 156
  coarse : Bool := false
  /-- A measurement in range waits for the Tick edge (R245). -/
  fineDue : Bool := false
  calAt : Nat := 0
  deriving DecidableEq, Repr

/-- What a PID slot takes its feedback from (R285). -/
inductive LoopFb where
  | sensor
  | observer
  | lost
  deriving DecidableEq, Repr

/-- A loop slot (09). Words are binary32 values; positions are in 2^-16 count (R277); `sRow` and `rowAcc`
    are in units of 0.05 nm. -/
structure LoopSlot where
  /-- The slot starts afresh at its next run (R271). -/
  fresh : Bool := true
  i : Word := 0
  xd : Word := 0
  xPrev : Word := 0
  /-- The biquads' last inputs and outputs: in1, in2, out1, out2 of each (R279). -/
  bq : List Word := [0, 0, 0, 0, 0, 0, 0, 0]
  u : Word := 0
  uPrev : Word := 0
  /-- Tick count of the last run. -/
  ranAt : Word := 0
  profP : Int := 0
  profV : Word := 0
  profA : Word := 0
  fb : LoopFb := .sensor
  resRuns : Nat := 0
  backRuns : Nat := 0
  obsSince : Nat := 0
  /-- Following-error timer in 0.1 ms, and whether the last run exceeded the limit (R286). -/
  ferr : Nat := 0
  ferrOver : Bool := false
  /-- The coefficients used at the last run, and whether they were set B (R280, R281). -/
  used : List Word := []
  setUsed : Bool := false
  sat : Bool := false
  /-- Row slot (R288). -/
  locked : Bool := false
  sRow : Int := 0
  j0 : Int := 0
  g : Int := 0
  rowAcc : Nat := 0
  /-- What the last run used: set-point, feedback, error, terms, following error, sensor feedback. -/
  r : Word := 0
  y : Word := 0
  e : Word := 0
  p : Word := 0
  d : Word := 0
  ff : Word := 0
  follow : Word := 0
  ySensor : Word := 0
  /-- Observer (R284). -/
  x : List Word := [0, 0, 0, 0, 0, 0]
  yhat : Word := 0
  corrected : Nat := 0
  predictDue : Bool := false
  deriving DecidableEq, Repr

/-- The trace states of R292. -/
inductive TraceState where
  | idle
  | armed
  | triggered
  | done
  | invalid
  deriving DecidableEq, Repr

/-- The trace (R290 to R293): samples oldest first. -/
structure Trace where
  state : TraceState := .idle
  owner : Option (Sess × BitVec 16) := none
  cfg : TraceArm := {}
  samples : List (List Word) := []
  /-- The Tick count at the arm: samples fall where the count since then is a multiple of the decimation. -/
  armedAt : Word := 0
  trigIdx : Nat := 0
  trigTick : Word := 0
  prev : Option Word := none
  /-- EVT_CNT of the trigger source at the last sample. -/
  seen : Word := 0
  forced : Bool := false
  deriving DecidableEq, Repr

/-- The loop engine (09). -/
structure Loops where
  slots : List LoopSlot := List.replicate 32 {}
  trace : Trace := {}
  /-- The LOOP phase of this Tick was cut at 48 us, and its overrun has not been counted (R276). -/
  cut : Bool := false
  cutSlots : List Nat := []
  last : Nat := 0
  deriving DecidableEq, Repr

/-- A dispatched action that waits for the next COMMIT (R376, R377): a request that acts at a
    COMMIT, one COMMIT-applied word, or the part of a session's end or reset that takes place at a
    COMMIT (R347). -/
inductive Action where
  | req (i : Instr)
  | write (addr : Nat) (val : Word)
  | loss (k : Sess) (ended : Bool)
  deriving DecidableEq, Repr

/-- A waiting action with its dispatch order and its session (none: the management path). -/
structure Posted where
  seq : Nat
  sess : Option Sess
  /-- Instant of arrival on the model's clock. -/
  arrived : Nat := 0
  /-- The instant at which it was staged, on the model's clock (R17). -/
  since : Nat := 0
  act : Action
  deriving DecidableEq, Repr

/-- The engine groups whose status a register read shows as of the last finished COMMIT (R44,
    R379). -/
structure Engines where
  pwr : Power := {}
  lsw : List Lsw := List.replicate 16 {}
  fb : Feedback := {}
  pose : Pose := {}
  map : FieldMap := {}
  valve : Valve := {}
  alm : Almanac := {}
  mot : Motors := {}
  loop : Loops := {}
  deriving DecidableEq, Repr

/-- The block: everything but the queue of waiting commands. `pub`, `pubTime` and `pubSup` are copies
    of the engines, the time base and the supplies as the last finished COMMIT left them (R44, R379);
    `draws` counts the free values taken so far. -/
structure Block where
  ident : Ident := {}
  regs : RegFile := []
  time : Time := {}
  link : Link := {}
  vig : Vigil := {}
  evt : Events := {}
  diary : Diary := {}
  can : Can := {}
  upd : Update := {}
  sup : Supply := {}
  posted : List Posted := []
  eng : Engines := {}
  pub : Engines := {}
  pubTime : Time := {}
  pubSup : Supply := {}
  draws : Nat := 0
  deriving DecidableEq, Repr

/-- The state of the V96: the commands that wait, first in, first out, and the block. -/
structure State where
  pending : List Instr := []
  blk : Block := {}
  deriving DecidableEq, Repr

/-- The nozzle channels present (R2). -/
def Variant.nozzles : Variant → Nat
  | .p => 48
  | _ => 96

/-- The Unit State Table right after a reset entry: absent resources ABSENT (R1, R2), every other
    unit STANDBY (R413, VIG_UNIT.STATE in R423). -/
def resetUnits (v : Variant) : List UnitEntry :=
  List.replicate v.nozzles ({} : UnitEntry)
    ++ List.replicate (96 - v.nozzles) ({ state := .absent } : UnitEntry)
    ++ List.replicate 24 ({} : UnitEntry)
    ++ List.replicate 8 ({ state := if v = .s then .absent else .standby } : UnitEntry)
    ++ List.replicate 75 ({} : UnitEntry)

/-- The machine right after a power-on: every register at its reset word, the clocks as R40 and R67
    leave them with no backed clock, the bridges in their reset brake (R266), no session, no command
    waiting. -/
def State.reset : State :=
  { pending := [], blk := { vig := { units := resetUnits .f, brakeSince := some 0 } } }

end Sys2Proof.Machine
end

