-- ==== Sys2Proof/Machine/Ops.lean ====
section
/-! DEFINITION. The shared operations: fields of words, the register file, units, events and the
    Diary intake, time, free values, and how a command's effect reaches the state. -/

namespace Sys2Proof.Machine

open Sys2Proof (Word Byte Bytes Sess Hdr Instr)

/-! ### Words and their fields -/

/-- Bits msb:lsb of a number. -/
def bitsOf (n msb lsb : Nat) : Nat := n / 2 ^ lsb % 2 ^ (msb + 1 - lsb)

/-- Bits msb:lsb of a register word. -/
def bits (w : Word) (msb lsb : Nat) : Nat := bitsOf w.toNat msb lsb

/-- A value of `width` bits read as two's complement. -/
def signed (width n : Nat) : Int :=
  if n < 2 ^ (width - 1) then (n : Int) else (n : Int) - (2 : Int) ^ width

/-- Bits msb:lsb of a register word, read as two's complement. -/
def sbits (w : Word) (msb lsb : Nat) : Int := signed (msb + 1 - lsb) (bits w msb lsb)

/-- The word with bits msb:lsb replaced by the low bits of `v`. -/
def setBits (w : Word) (msb lsb v : Nat) : Word :=
  let m : Word := BitVec.ofNat 32 (2 ^ (msb + 1 - lsb) - 1) <<< lsb
  (w &&& ~~~m) ||| ((BitVec.ofNat 32 v <<< lsb) &&& m)

/-- An integer narrowed to `width` bits, two's complement. -/
def narrow (width : Nat) (i : Int) : Nat := (i % (2 : Int) ^ width).toNat

/-- An integer held to a range. -/
def clampInt (lo hi i : Int) : Int := if i < lo then lo else if hi < i then hi else i

/-- An integer saturated to signed `width` bits and narrowed to them. -/
def saturate (width : Nat) (i : Int) : Nat :=
  narrow width (clampInt (-(2 : Int) ^ (width - 1)) ((2 : Int) ^ (width - 1) - 1) i)

/-- 1 for true, 0 for false, at bit `n`. -/
def flagAt (n : Nat) (p : Bool) : Word := if p then BitVec.ofNat 32 (2 ^ n) else 0

/-- The value `v` at bit `n`. -/
def fieldAt (n v : Nat) : Word := BitVec.ofNat 32 (v * 2 ^ n)

/-- Quotient rounded to nearest, ties away from zero. -/
def divRound (a b : Int) : Int :=
  if b = 0 then 0
  else if 0 ≤ a then (2 * a + b) / (2 * b) else -((-(2 * a) + b) / (2 * b))

/-! ### Lists as tables -/

/-- Element `i` of a table, or the default where there is none. -/
def nth {α : Type} (l : List α) (i : Nat) (d : α) : α := l.getD i d

/-- The table with element `i` replaced by its image; a table too short is unchanged. -/
def modNth {α : Type} (l : List α) (i : Nat) (f : α → α) : List α := l.modify i f

/-- The value stored under a key in an association list. -/
def look {β : Type} (l : List (Nat × β)) (k : Nat) : Option β :=
  (l.find? (fun p => p.1 == k)).map (·.2)

/-- The association list with the value under a key replaced. -/
def put {β : Type} (l : List (Nat × β)) (k : Nat) (v : β) : List (Nat × β) :=
  (k, v) :: l.filter (fun p => p.1 != k)

/-- The last `n` elements of a list. -/
def lastN {α : Type} (n : Nat) (l : List α) : List α := l.drop (l.length - n)

/-! ### The register file -/

/-- What a register file holds at an address, `dflt` where it lists nothing. -/
def fileGet : RegFile → Nat → Word → Word
  | [], _, dflt => dflt
  | (a, w) :: rest, k, dflt => if a = k then w else fileGet rest k dflt

/-- An entry put in its place by address. -/
def fileInsert : RegFile → Nat → Word → RegFile
  | [], k, v => [(k, v)]
  | (a, w) :: rest, k, v => if a < k then (a, w) :: fileInsert rest k v else (k, v) :: (a, w) :: rest

/-- The register file with the word at `k` set to `v`: addresses stay in rising order and a word
    equal to its reset word `dflt` is not listed. -/
def fileSet (f : RegFile) (k : Nat) (dflt v : Word) : RegFile :=
  let rest := f.filter (fun p => p.1 != k)
  if v = dflt then rest else fileInsert rest k v

/-- The kind of an event source: true for a condition (R425, R426). -/
def isCondition (s : Nat) : Bool :=
  [1, 3, 8, 9, 34, 42, 43, 98, 101, 120, 124, 126].contains s

/-- The sources that are named in the table of R426. -/
def sourceNamed (s : Nat) : Bool :=
  s ≤ 11 || (16 ≤ s && s ≤ 23) || (32 ≤ s && s ≤ 36) || (38 ≤ s && s ≤ 43)
    || (48 ≤ s && s ≤ 59) || (64 ≤ s && s ≤ 72) || (80 ≤ s && s ≤ 83) || (96 ≤ s && s ≤ 107)
    || (112 ≤ s && s ≤ 120) || (122 ≤ s && s ≤ 124) || s == 126

/-- The routing of R426 at reset: packets, ALERT_N, CAN_M DM1, Diary. -/
def routeP (s : Nat) : Bool := sourceNamed s && !([11, 23, 54].contains s)

/-- Routed to ALERT_N at reset (R426). -/
def routeA (s : Nat) : Bool :=
  [3, 6, 8, 20, 21, 34, 35, 42, 49, 53, 64, 65, 66, 69, 71, 80, 96, 97, 103, 112, 113, 116, 120,
   126].contains s

/-- Routed to CAN_M DM1 at reset (R426). -/
def routeM (s : Nat) : Bool :=
  [3, 4, 8, 9, 20, 21, 34, 35, 42, 43, 64, 65, 66, 69, 71, 80, 96, 97, 103, 112, 120,
   126].contains s

/-- Routed to the Diary at reset (R426). -/
def routeD (s : Nat) : Bool :=
  sourceNamed s && !([5, 16, 17, 33, 41, 50, 51, 56, 99, 100, 106, 107, 123].contains s)

/-- EVT_CFG[s] at reset (R449). -/
def evtCfgReset (s : Nat) : Word :=
  flagAt 7 (isCondition s) ||| flagAt 6 (routeA s) ||| flagAt 5 (routeD s) ||| flagAt 4 (routeM s)
    ||| flagAt 3 (routeA s) ||| flagAt 2 (routeP s) ||| flagAt 0 (sourceNamed s)

/-- The reset word of NAME[i][j]: its table's, the routing table's for EVT_CFG (R449), b0 = 1.0 for
    the biquads (R296), the straps for LINK_PHY_ROLE (R490). -/
def resetWord (r : Reg) (i j : Nat) : Word :=
  match r with
  | .EVT_CFG => evtCfgReset i
  | .LOOP_BIQUAD => if j % 5 = 0 then 0x3F800000 else 0
  | .LINK_PHY_ROLE => 0x202
  | _ => descReset (desc r)

/-- The stored word of NAME[i][j]. -/
def Block.word (b : Block) (r : Reg) (i : Nat := 0) (j : Nat := 0) : Word :=
  fileGet b.regs (addr r i j) (resetWord r i j)

/-- Bits msb:lsb of the stored word of NAME[i]. -/
def Block.fld (b : Block) (r : Reg) (i msb lsb : Nat) : Nat := bits (b.word r i) msb lsb

/-- Bits msb:lsb of the stored word of NAME[i], signed. -/
def Block.sfld (b : Block) (r : Reg) (i msb lsb : Nat) : Int := sbits (b.word r i) msb lsb

/-- Bit n of the stored word of NAME[i]. -/
def Block.flag (b : Block) (r : Reg) (i n : Nat) : Bool := (b.word r i).getLsbD n

/-- The block with the stored word of NAME[i][j] set. -/
def Block.setWord (b : Block) (r : Reg) (i j : Nat) (v : Word) : Block :=
  { b with regs := fileSet b.regs (addr r i j) (resetWord r i j) v }

/-- The block with bits msb:lsb of the stored word of NAME[i] set. -/
def Block.setFld (b : Block) (r : Reg) (i msb lsb v : Nat) : Block :=
  b.setWord r i 0 (setBits (b.word r i) msb lsb v)

/-- A counter field advanced by `n`, saturating at the most its bits hold (R8, RC counters). -/
def Block.count (b : Block) (r : Reg) (i msb lsb : Nat) (n : Nat := 1) : Block :=
  b.setFld r i msb lsb (min (b.fld r i msb lsb + n) (2 ^ (msb + 1 - lsb) - 1))

/-- A counter field advanced by `n`, wrapping. -/
def Block.countWrap (b : Block) (r : Reg) (i msb lsb : Nat) (n : Nat := 1) : Block :=
  b.setFld r i msb lsb (b.fld r i msb lsb + n)

/-- Flag bits of the stored word of NAME[i] set. -/
def Block.latch (b : Block) (r : Reg) (i n : Nat) : Block :=
  b.setWord r i 0 (b.word r i ||| BitVec.ofNat 32 (2 ^ n))

/-- Flag bits of the stored word of NAME[i] cleared where `m` is 1 (W1C, R8). -/
def Block.unlatch (b : Block) (r : Reg) (i : Nat) (m : Word) : Block :=
  b.setWord r i 0 (b.word r i &&& ~~~m)

/-! ### Free values -/

/-- The next free value, and the block that has taken it (log entry 2). -/
def Block.draw (b : Block) : Nat × Block := (Config.free b.draws, { b with draws := b.draws + 1 })

/-! ### Sessions -/

/-- The session of a kind. -/
def Link.sess (l : Link) : Sess → Session
  | .main => l.main
  | .service => l.service

/-- The link with the session of a kind replaced by its image. -/
def Link.modSess (l : Link) (k : Sess) (f : Session → Session) : Link :=
  match k with
  | .main => { l with main := f l.main }
  | .service => { l with service := f l.service }

/-- The block with the session of a kind replaced by its image. -/
def Block.modSess (b : Block) (k : Sess) (f : Session → Session) : Block :=
  { b with link := b.link.modSess k f }

/-- The session of a kind is open (R343). -/
def Block.isOpen (b : Block) (k : Sess) : Bool := (b.link.sess k).state == .opened

/-- The session-copy word of NAME[i] (R380). -/
def Block.sessWord (b : Block) (k : Sess) (r : Reg) (i : Nat := 0) : Word :=
  fileGet (b.link.sess k).regs (addr r i) (resetWord r i 0)

/-- The block with the session-copy word of NAME[i] set (R380). -/
def Block.setSessWord (b : Block) (k : Sess) (r : Reg) (i : Nat) (v : Word) : Block :=
  b.modSess k (fun s => { s with regs := fileSet s.regs (addr r i) (resetWord r i 0) v })

/-- The number of a session, as register indices and payloads give it. -/
def sessIndex : Sess → Nat
  | .main => 0
  | .service => 1

/-- The other session. -/
def otherSess : Sess → Sess
  | .main => .service
  | .service => .main

/-! ### Time -/

/-- The length of a Tick in ns (R38). -/
def tickNs : Nat := 100000

/-- The instant `at_` ns after the current Tick edge, on the model's clock. -/
def Block.now (b : Block) (at_ : Nat) : Nat := b.time.now + at_

/-- Device time at the instant `at_` ns after the current Tick edge. -/
def Block.devNow (b : Block) (at_ : Nat) : Nat := b.time.dev + at_

/-- The calendar stamp of device time `t` ns with TAI-UTC `taiUtc` s (R58). -/
def stampOf (t : Nat) (taiUtc : Int) : BitVec 48 :=
  let s : Int := (t / 1000000000 : Nat)
  let sec := narrow 34 (s - taiUtc - 946684800)
  let tick := t % 1000000000 / 100000
  BitVec.ofNat 48 (sec * 16384 + tick)

/-- The instant of a Tick from which what is staged waits for the next COMMIT (R17). -/
def closeNs : Nat := 72000

/-- The block at an instant of the current Tick that a request or a fault names. -/
def Block.reaches (b : Block) (at_ : Nat) : Block :=
  { b with time := { b.time with hand := max b.time.hand at_ } }

/-- The instant, on the model's clock, of what is staged now (R17): after 72 us once the Tick is closed. -/
def Block.stagedAt (b : Block) : Nat :=
  b.now (if b.time.closed then max b.time.hand (closeNs + 1) else b.time.hand)

/-- Something staged at an instant is taken by the COMMIT of the current Tick (R17). -/
def Block.inTime (b : Block) (since : Nat) : Bool := decide (since ≤ b.now closeNs)

/-- The Tick whose COMMIT applies a request dispatched now (R17, R351, R352). -/
def Block.commitTick (b : Block) : Word :=
  if b.inTime b.stagedAt then b.time.count else b.time.count + 1

/-! ### Units -/

/-- The entry of unit `u` in the Unit State Table. -/
def Block.unit (b : Block) (u : Nat) : UnitEntry := nth b.vig.units u { state := .absent }

/-- The unit is fitted (R1, R4). -/
def Block.present (b : Block) (u : Nat) : Bool := (b.unit u).state != .absent

/-- The unit is ACTIVE or SERVICE. -/
def Block.runs (b : Block) (u : Nat) : Bool :=
  (b.unit u).state == .active || (b.unit u).state == .service

/-- The entry of a unit changed, ABSENT units excepted: they never leave that state (R1). -/
def setEntry (f : UnitEntry → UnitEntry) (e : UnitEntry) : UnitEntry :=
  if e.state = .absent then e
  else
    let e' := f e
    if e'.state = .absent then e else e'

/-- The Unit State Table with the entry of unit `u` changed. -/
def Block.setUnit (b : Block) (u : Nat) (f : UnitEntry → UnitEntry) : Block :=
  { b with vig := { b.vig with units := modNth b.vig.units u (setEntry f) } }

/-- A request for a unit state, posted for the next COMMIT (R403, R406): from each source the last
    request for a unit stands. -/
def Block.postUnit (b : Block) (q : UnitReq) : Block :=
  { b with vig := { b.vig with
      reqs := b.vig.reqs.filter (fun r =>
        q.release || !(r.unit == q.unit && r.source == q.source && b.inTime r.since == b.inTime b.stagedAt))
        ++ [{ q with since := b.stagedAt }] } }

/-- The FAULTED request that a fault latched at an instant posts (R17, R228, R406). -/
def Block.faultUnit (b : Block) (u : Nat) (at_ : Nat := 0) (c : Cause := .latchedFault) : Block :=
  (b.reaches at_).postUnit { unit := u, source := .vigil, target := .faulted, cause := c }

/-- The code of a unit state (R402). -/
def UnitState.code : UnitState → Nat
  | .absent => 0
  | .standby => 1
  | .active => 2
  | .fenced => 3
  | .faulted => 4
  | .service => 5

/-- The unit indices of R35. -/
def unitNoz (n : Nat) : Nat := n
def unitProp (k : Nat) : Nat := 96 + k
def unitLsw (k : Nat) : Nat := 104 + k
def unitMot (u : Nat) : Nat := 120 + u
def unitLoop (s : Nat) : Nat := 136 + s
def unitAxis (a : Nat) : Nat := 168 + a
def unitBst (c : Nat) : Nat := 200 + c

/-- The session that governs a unit in its present state (R402, R410). -/
def Block.governor (b : Block) (u : Nat) : Option Sess :=
  match (b.unit u).state with
  | .active => some .main
  | .service => some .service
  | _ => none

/-! ### Payloads of occurrences (R428) -/

/-- The payload of an occurrence and the length of its key in bytes. -/
structure Payload where
  bytes : BitVec 128
  keyLen : Nat
  deriving DecidableEq, Repr

/-- Form Z. -/
def payZ : Payload := ⟨0, 16⟩

/-- Form S, with its bytes as one little-endian number. -/
def payS (n : Nat) : Payload := ⟨BitVec.ofNat 128 n, 16⟩

/-- Form K: product, fid, tx, ty, sequence number of the frame. -/
def payK (prod fid tx ty seq : Nat) : Payload :=
  ⟨BitVec.ofNat 128 (prod + fid * 2 ^ 8 + tx * 2 ^ 32 + ty * 2 ^ 64 + seq * 2 ^ 96), 12⟩

/-- Form B of the items of a kind under one base. -/
def payB (kind base : Nat) (items : List Nat) : Payload :=
  let mine := (items.filter (fun i => base ≤ i && i < base + 96)).eraseDups
  ⟨BitVec.ofNat 128 (base + kind * 2 ^ 16 + (mine.map (fun i => 2 ^ (32 + (i - base)))).sum), 4⟩

/-- Two occurrences are identical by source, code and key (R428, R434, R438). -/
def sameKey (o : Occurrence) (src : Nat) (code : Byte) (p : Payload) : Bool :=
  o.src == src && o.code == code && o.keyLen == p.keyLen
    && o.payload.toNat % 2 ^ (8 * p.keyLen) == p.bytes.toNat % 2 ^ (8 * p.keyLen)

/-- An occurrence with another merged into it: the count advances and form B bitmaps are ORed. -/
def mergeOcc (o : Occurrence) (p : Payload) : Occurrence :=
  { o with
    repeats := min (o.repeats + 1) 65535
    payload := if p.keyLen = 4 then o.payload ||| p.bytes else o.payload }

/-! ### The Diary intake (R438, R439) -/

/-- The entry admitted last, where it still stands (R438). -/
def Diary.newestRec (d : Diary) : Option DiaryRec :=
  match d.newest with
  | .nowhere => none
  | .fifo => d.fifo.getLast?
  | .staging => d.staging.getLast?
  | .ring => d.ring.getLast?

/-- An occurrence admitted to the intake FIFO with the next sequence number (R438). -/
def Diary.take (d : Diary) (o : Occurrence) : Diary :=
  { d with fifo := d.fifo ++ [{ seq := d.next, occ := o }], next := d.next + 1, newest := .fifo }

/-- The merge that R438 allows for an occurrence, if any. -/
def Diary.merge (d : Diary) (src : Nat) (code : Byte) (p : Payload) (now mergeNs : Nat) :
    Option Diary :=
  match d.newestRec with
  | none => none
  | some r =>
    if src = 122 ∨ r.occ.src = 122 ∨ 65535 ≤ r.occ.repeats ∨ mergeNs < now - r.occ.first then none
    else
      match d.newest with
      | .fifo =>
        if sameKey r.occ src code p then
          some { d with fifo := modNth d.fifo (d.fifo.length - 1)
                          (fun x => { x with occ := mergeOcc x.occ p }) }
        else none
      | .staging =>
        if r.occ.src = src ∧ r.occ.code = code ∧ r.occ.payload = p.bytes then
          some { d with staging := modNth d.staging (d.staging.length - 1)
                          (fun x => { x with occ := { x.occ with repeats := x.occ.repeats + 1 } }) }
        else none
      | .ring =>
        if d.freeze = none ∧ r.occ.src = src ∧ r.occ.code = code ∧ r.occ.payload = p.bytes then
          some { d with ring := modNth d.ring (d.ring.length - 1)
                          (fun x => { x with occ := { x.occ with repeats := x.occ.repeats + 1 } }) }
        else none
      | .nowhere => none

/-- An occurrence offered to the Diary (R438, R439, R446). -/
def Block.intake (b : Block) (src : Nat) (code : Byte) (p : Payload) (now : Nat) : Block :=
  let o : Occurrence :=
    { src := src, code := code, payload := p.bytes, keyLen := p.keyLen, tick := b.time.count,
      stamp := b.time.stamp, first := now }
  if b.diary.failed then b.count .DIARY_CNT0 0 31 16
  else
    match b.diary.merge src code p now (b.fld .DIARY_CFG 0 23 16 * 1000000000) with
    | some d => ({ b with diary := d }).count .DIARY_CNT0 0 15 0
    | none =>
      if b.diary.fifo.length < 64 then { b with diary := b.diary.take o }
      else
        ({ b with diary := { b.diary with
            lostPending := b.diary.lostPending + 1
            lostFirst := if b.diary.lostPending = 0 then b.time.stamp else b.diary.lostFirst
            lostLast := b.time.stamp } }).count .DIARY_CNT0 0 31 16

/-! ### Trouble codes (R370, R433) -/

/-- The source is enabled: EVT_CFG.EN, which reads 1 for source 126 (R427, R430). -/
def Block.evtEnabled (b : Block) (s : Nat) : Bool := s == 126 || b.flag .EVT_CFG s 0

/-- The asserted state of a source (R431). -/
def Block.asserted (b : Block) (s : Nat) : Bool :=
  let pend := b.evt.pend.getLsbD s
  let cond := b.evt.cond.getLsbD s
  b.evtEnabled s &&
    (if b.flag .EVT_CFG s 7 then cond || (b.flag .EVT_CFG s 6 && pend) else pend)

/-- The source is an active trouble code (R370, R433). -/
def Block.dtcActive (b : Block) (s : Nat) : Bool :=
  (s == 126 || b.flag .EVT_CFG s 4) && b.evtEnabled s &&
    (b.asserted s
      || (!b.flag .EVT_CFG s 7 && !b.flag .EVT_CFG s 6 && (look b.evt.lastSeen s).isSome))

/-- The trouble-code lists brought up to date for one source: a code that becomes active counts an
    occurrence, one that becomes inactive moves to the previously-active list of 32 (R370). -/
def Block.dtcUpdate (b : Block) (s : Nat) : Block :=
  let held := b.can.active.find? (fun d => d.source == s)
  match b.dtcActive s, held with
  | true, none =>
    let before := ((b.can.previous.find? (fun d => d.source == s)).map (·.count)).getD 0
    { b with can := { b.can with
        active := b.can.active ++ [{ source := s, count := min (before + 1) 126 }]
        newCode := true
        previous := b.can.previous.filter (fun d => d.source != s) } }
  | false, some d =>
    { b with can := { b.can with
        active := b.can.active.filter (fun x => x.source != s)
        previous := lastN 32 (b.can.previous ++ [d]) } }
  | _, _ => b

/-! ### Raising an event (R430 to R434) -/

/-- An occurrence offered to a session's EVENT queue (R434). -/
def Session.event (x : Session) (o : Occurrence) (p : Payload) : Session × Bool :=
  match x.events.getLast? with
  | some l =>
    if sameKey l o.src o.code p then
      ({ x with events := modNth x.events (x.events.length - 1) (fun e => mergeOcc e p) }, false)
    else if x.events.length < 128 then ({ x with events := x.events ++ [o] }, false)
    else ({ x with evDiscarded := min (x.evDiscarded + 1) 65535 }, true)
  | none => ({ x with events := [o] }, false)

/-- The occurrence sent to the EVENT queue of session `k` when it is open. -/
def Block.toPackets (b : Block) (k : Sess) (o : Occurrence) (p : Payload) : Block :=
  if b.isOpen k then
    let r := (b.link.sess k).event o p
    let b1 := b.modSess k (fun _ => r.1)
    if r.2 then
      match k with
      | .main => b1.count .EVT_PKT_STAT 0 31 16
      | .service => b1.count .EVT_PKT_STAT 0 15 0
    else b1
  else b

/-- The pending bit and the condition of a source after an occurrence (R431); `still` tells that the
    condition that ends for one item holds for another. Both codes of source 126 begin its condition, which
    lasts until a cold reset (R446). -/
def Block.assert (b : Block) (s : Nat) (code : Byte) (now : Nat) (still : Bool := false) : Block :=
  let bit : BitVec 128 := BitVec.ofNat 128 (2 ^ s)
  let c := isCondition s && s != 126
  let cond := if isCondition s then (if c && code = 2 && !still then b.evt.cond &&& ~~~bit else b.evt.cond ||| bit)
              else b.evt.cond
  let level := b.flag .EVT_CFG s 7
  let starts := !c || code = 1
  let pend :=
    if level then
      (if starts then b.evt.pend ||| bit
       else if b.flag .EVT_CFG s 6 then b.evt.pend else b.evt.pend &&& ~~~bit)
    else (if starts then b.evt.pend ||| bit else b.evt.pend)
  { b with evt := { b.evt with
      cond := cond
      pend := pend
      age := if !level && starts then put b.evt.age s 0 else b.evt.age
      lastSeen := if !level && starts then put b.evt.lastSeen s now else b.evt.lastSeen } }

/-- An occurrence sent to the EVENT queues, where its source is routed to packets (R430, R434). -/
def Block.toQueues (b : Block) (o : Occurrence) (p : Payload) : Block :=
  if b.flag .EVT_CFG o.src 2 then (b.toPackets .main o p).toPackets .service o p else b

/-- An occurrence offered to the Diary, where its source is routed there (R430). The routes of source 126
    follow R447; source 122 makes its own records. -/
def Block.toDiary (b : Block) (o : Occurrence) (p : Payload) : Block :=
  if b.flag .EVT_CFG o.src 5 && o.src != 122 && !(o.src == 126 && (o.code == 1 || b.diary.failed)) then
    b.intake o.src o.code p o.first
  else b

/-- One occurrence of source `s` raised at the instant `at_` ns after the Tick edge: counted
    always; with EN = 1 routed to packets, ALERT_N, DM1 and the Diary (R430). -/
def Block.raise (b : Block) (s : Nat) (code : Byte) (p : Payload) (at_ : Nat := 0) (still : Bool := false) :
    Block :=
  let o : Occurrence :=
    { src := s, code := code, payload := p.bytes, keyLen := p.keyLen, tick := b.time.count,
      stamp := b.time.stamp, first := b.now at_ }
  let b1 := b.countWrap .EVT_CNT s 31 0
  if b1.evtEnabled s then (((b1.assert s code (b.now at_) still).toQueues o p).toDiary o p).dtcUpdate s
  else b1

/-- An occurrence that concerns items of a kind: one raise for each base, ascending (R428). -/
def Block.raiseItems (b : Block) (s : Nat) (code : Byte) (kind : Nat) (items : List Nat)
    (at_ : Nat := 0) (still : Bool := false) : Block :=
  [0, 96, 192].foldl (fun acc base =>
    if items.any (fun i => base ≤ i && i < base + 96) then
      acc.raise s code (payB kind base items) at_ still
    else acc) b

/-- A source was raised under this key within the last 100 ms (R425). -/
def Events.quiet (e : Events) (key now : Nat) : Bool :=
  match look e.lastRaise key with
  | some t => decide (now - t < 100000000)
  | none => false

/-- A raise held to at most one in 100 ms for each key (R425). -/
def Block.raiseKeyed (b : Block) (key s : Nat) (code : Byte) (p : Payload) (at_ : Nat) : Block :=
  if b.evt.quiet key (b.now at_) then b
  else
    ({ b with evt := { b.evt with lastRaise := put b.evt.lastRaise key (b.now at_) } }).raise s code p at_

/-- A raise held to at most one in 100 ms for its source (R425). -/
def Block.raiseLimited (b : Block) (s : Nat) (code : Byte) (p : Payload) (at_ : Nat) : Block :=
  b.raiseKeyed s s code p at_

/-- A port is asCapable (R335): three peer-delay exchanges in a row have succeeded, and the measured link delay is at
    most NBR_THRESH. -/
def Block.asCapable (b : Block) (p : Port) : Bool :=
  decide (3 ≤ p.goodExchanges) && decide (p.linkDelay ≤ b.fld .LINK_PTP_CFG 0 15 0)

/-! ### How an effect reaches the state -/

/-- The effect of a command that always has one: the block changes, the queue does not. -/
def lift (f : Block → Block) (s : State) : Host.Outcome State Fault Refusal :=
  .next { s with blk := f s.blk }

end Sys2Proof.Machine
end

