-- ==== Sys2Proof/Machine/Operands.lean ====
section
/-! DEFINITION. The forms in which a command's operands reach the block: the request header and its
    checks (R338 to R341, R349, R350), the reply (R340, R352, R361), the queues and the requests in
    progress (R351 to R356), and the packets sent on the V96's own account (R362, R363). -/

namespace Sys2Proof.Machine

open Sys2Proof (Word Byte Bytes Sess Hdr Instr)

/-- The code of a status (R361). -/
def Status.code : Status → BitVec 16
  | .ok => 0x0000
  | .accepted => 0x0001
  | .deferred => 0x0002
  | .badOpcode => 0x0100
  | .badLength => 0x0101
  | .badCrc => 0x0102
  | .badAddress => 0x0103
  | .readOnly => 0x0104
  | .range => 0x0105
  | .noSession => 0x0200
  | .sessionBusy => 0x0201
  | .authFailed => 0x0202
  | .txnNone => 0x0300
  | .txnBusy => 0x0301
  | .txnConflict => 0x0302
  | .txnOverflow => 0x0303
  | .txnExpired => 0x0304
  | .fenced => 0x0400
  | .resourceOwned => 0x0401
  | .updSequence => 0x0500
  | .updSignature => 0x0501
  | .updSpace => 0x0502
  | .migrationFailed => 0x0503
  | .busy => 0x0600
  | .denied => 0x0700

/-- The success codes of R340. -/
def Status.success : Status → Bool
  | .ok => true
  | .accepted => true
  | .deferred => true
  | _ => false

/-- What the header of a request's opcode row says (R357): its code, whether only SERVICE may send
    it, and the payload lengths it takes. -/
structure OpRow where
  code : BitVec 16
  serviceOnly : Bool := false
  lengthOk : Nat → Bool

/-- A row whose payload has one length. -/
def opRow (code : BitVec 16) (len : Nat) (serviceOnly : Bool := false) : OpRow :=
  { code := code, serviceOnly := serviceOnly, lengthOk := fun n => n == len }

/-- The bytes of a packet: header, payload, CRC-32C (R336, R337). -/
def Packet.bytes (p : Packet) : Bytes :=
  let b0 := 1 + 16 * p.queue.val + 64 * p.kind.toNat
  let body := leBytes 1 b0 ++ leBytes 1 0 ++ leBytes 2 p.opcode.toNat ++ leBytes 2 p.tag.toNat
    ++ leBytes 2 p.session.toNat ++ leBytes 2 p.payload.length ++ leBytes 2 p.status.code.toNat
    ++ leBytes 4 p.tick.toNat ++ p.payload
  body ++ leBytes 4 (crc32c body).toNat

/-! ### Replies -/

/-- The session a request belongs to: open, with the request's identity, bound to its source
    address and port (R345). -/
def Block.sessionOf (b : Block) (h : Hdr) : Option Sess :=
  let fits (x : Session) := x.state == .opened && x.id == h.session && h.session != 0
    && x.addr == h.addr && x.port == h.port
  if fits b.link.main then some .main else if fits b.link.service then some .service else none

/-! ### The transmit buffers (R364) -/

/-- How long a packet with `n` bytes of payload takes on a 1000BASE-T1 wire, in ns: 20 bytes of header and CRC, 86 of
    overheads (R365). -/
def wireNs (n : Nat) : Nat := 8 * (n + 106)

/-- The priority of a packet: replies, EVENT and TILE_FAULT, AS_APPLIED, then TILE_WRITEBACK and TRACE_DATA (R364). -/
def Packet.priority (p : Packet) : Nat :=
  if p.kind = 1 then 0
  else if p.opcode = 0x0080 ∨ p.opcode = 0x0081 then 1
  else if p.opcode = 0x0084 then 2
  else 3

/-- The packet put on the wire next: the oldest of the first class that has one. TILE_WRITEBACK and TRACE_DATA take
    turns (R364). -/
def Transmit.next (x : Transmit) : Option Packet :=
  match ([0, 1, 2] : List Nat).findSome? (fun c => x.waiting.find? (fun p => p.priority == c)) with
  | some p => some p
  | none =>
    match x.waiting.find? (fun p => (p.opcode == 0x0083) != x.traceLast) with
    | some p => some p
    | none => x.waiting.head?

/-- The next packet is put on the wire, not before `from_`. -/
def Transmit.begin_ (x : Transmit) (from_ : Nat) : Transmit :=
  match x.next with
  | none => x
  | some p => { x with
      waiting := x.waiting.erase p
      begun := x.begun ++ [p]
      busyTill := max from_ x.busyTill + wireNs p.payload.length
      traceLast := if p.priority = 3 then p.opcode == 0x0083 else x.traceLast }

/-- Packets follow each other on the wire till `t`, at most `n` of them. -/
def Transmit.drain : Nat → Nat → Transmit → Transmit
  | 0, _, x => x
  | n + 1, t, x => if x.waiting.isEmpty || Nat.blt t x.busyTill then x else Transmit.drain n t (x.begin_ x.busyTill)

/-- The transmit side at instant `t`. -/
def Transmit.upTo (x : Transmit) (t : Nat) : Transmit :=
  { Transmit.drain x.waiting.length t x with looked := max x.looked t }

/-- A packet to send, made at instant `t`: put on the wire at once where that is free. -/
def Transmit.put (x : Transmit) (t : Nat) (p : Packet) : Transmit :=
  let y := x.upTo t
  let z := { y with waiting := y.waiting ++ [p] }
  if y.busyTill ≤ y.looked then z.begin_ y.looked else z

/-- One of the 32 transmit buffers is free at instant `t`: a packet holds its buffer until it has left (R364). -/
def Transmit.free (x : Transmit) (t : Nat) : Bool :=
  let y := x.upTo t
  decide (y.waiting.length + (if y.looked < y.busyTill then 1 else 0) < 32)

/-- The reply that a reset waits for has left by instant `t`: the reply to a request of one of the opcodes `ops` is
    neither waiting nor on the wire (R358, R463). -/
def Transmit.left (x : Transmit) (ops : List (BitVec 16)) (t : Nat) : Bool :=
  let y := x.upTo t
  let one (p : Packet) : Bool := p.kind == 1 && ops.contains p.opcode
  !y.waiting.any one && !(Nat.blt t y.busyTill && y.begun.getLast?.any one)

/-- The instant at which the endpoint sends what it makes now: not before the last request had arrived. -/
def Block.wireNow (b : Block) : Nat := max b.link.arriveAt b.stagedAt

/-- A transmit buffer is free now. -/
def Block.bufferFree (b : Block) : Bool := b.link.tx.free b.wireNow

/-- A packet to send: it takes a transmit buffer, and the wire in its turn (R364, log entry 10). -/
def Block.send (b : Block) (p : Packet) (at_ : Nat := 0) : Block :=
  { b with link := { b.link with
      sent := b.link.sent ++ [p]
      tx := b.link.tx.put (max b.wireNow (b.now at_)) p } }

/-- A reply kept for its session: the last 64 are kept, keyed by queue and tag; the final reply of
    an accepted request takes the place of its ACCEPTED (R339, R353). -/
def keepReply (l : List Packet) (p : Packet) : List Packet :=
  if l.any (fun q => q.queue == p.queue && q.tag == p.tag) then
    l.map (fun q => if q.queue == p.queue && q.tag == p.tag then p else q)
  else lastN 64 (l ++ [p])

/-- A reply to request `h` of session `k` (R340). A refusal carries only the payload that R361
    gives it. With NO_REPLY a success is not answered (R354). -/
def Block.reply (b : Block) (k : Option Sess) (h : Hdr) (op : BitVec 16) (st : Status) (tick : Word)
    (payload : Bytes := []) : Block :=
  if h.noReply && st.success && op != 0x001F then b
  else
    let p : Packet :=
      { kind := 1, queue := h.queue, opcode := op, tag := h.tag, session := h.session, status := st,
        tick := tick, payload := payload, addr := h.addr, port := h.port }
    let b1 := b.send p
    match k with
    | some k => b1.modSess k (fun s => { s with replies := keepReply s.replies p })
    | none => b1

/-- A reply at dispatch to a request that acts at once: it carries the Tick of dispatch (R352). -/
def Block.replyNow (b : Block) (k : Option Sess) (h : Hdr) (op : BitVec 16) (st : Status)
    (payload : Bytes := []) : Block :=
  b.reply k h op st b.time.count payload

/-- A refusal that names a register address (R359). -/
def addressPayload (a : Nat) : Bytes := leBytes 4 a

/-! ### Packets on the V96's own account -/

/-- A packet sent to session `k` on the V96's own account, when that session is open (R362,
    R363). -/
def Block.sendOwn (b : Block) (k : Sess) (op : BitVec 16) (queue : Fin 4) (payload : Bytes)
    (at_ : Nat := 0) : Block :=
  let s := b.link.sess k
  if s.state = .opened then
    let b1 := b.send { kind := 2, queue := queue, opcode := op, tag := s.ownSeq, session := s.id,
                       status := .ok, tick := b.time.count, payload := payload, addr := s.addr,
                       port := s.port } at_
    b1.modSess k (fun s => { s with ownSeq := s.ownSeq + 1 })
  else b

/-! ### Requests in progress -/

/-- A dispatched request that has not completed (R351). -/
def Block.begins (b : Block) (seq : Nat) (k : Sess) (h : Hdr) (op : BitVec 16) (ends : Until)
    (holds : Bool := h.fenceAfter) : Block :=
  { b with link := { b.link with
      progress := b.link.progress ++ [{ seq := seq, sess := k, hdr := h, opcode := op, ends := ends,
                                        since := b.stagedAt, holds := holds }] } }

/-- A request that acts at the next COMMIT: posted for it, answered now with the Tick of that
    COMMIT, complete when it finishes (R351, R352). -/
def Block.postsWith (b : Block) (seq arrived : Nat) (k : Sess) (h : Hdr) (op : BitVec 16) (i : Instr)
    (st : Status) (payload : Bytes) : Block :=
  let b1 : Block := { b with
    posted := b.posted ++ [{ seq := seq, sess := some k, arrived := arrived, since := b.stagedAt, act := .req i }] }
  (b1.begins seq k h op .commit).reply (some k) h op st b.commitTick payload

/-- The same, answered OK. -/
def Block.posts (b : Block) (seq arrived : Nat) (k : Sess) (h : Hdr) (op : BitVec 16) (i : Instr) :
    Block :=
  b.postsWith seq arrived k h op i .ok []

/-- The request in progress completes: it leaves the list. -/
def Block.completes (b : Block) (seq : Nat) : Block :=
  { b with link := { b.link with progress := b.link.progress.filter (fun p => p.seq != seq) } }

/-- The requests of an opcode in progress for their final reply. -/
def Block.finalsOf (b : Block) (op : BitVec 16) : List InProgress :=
  b.link.progress.filter (fun p => p.opcode == op && p.ends == .final)

/-- A request that replies only on completion: with ASYNC_OK it is answered ACCEPTED now (R353). -/
def Block.awaits (b : Block) (seq : Nat) (k : Sess) (h : Hdr) (op : BitVec 16) : Block :=
  let b1 := b.begins seq k h op .final
  if h.asyncOk then b1.reply (some k) h op .accepted b.time.count else b1

/-- The final reply of a request in progress (R353). Once its session has ended it is not sent, that to
    SESSION_CLOSE excepted (R347). -/
def Block.finishes (b : Block) (p : InProgress) (st : Status) (payload : Bytes := []) : Block :=
  let x := b.link.sess p.sess
  let b1 :=
    if p.opcode = 0x0004 then b.reply none p.hdr p.opcode st b.time.count payload
    else if x.state = .opened ∧ x.id = p.hdr.session then
      b.reply (some p.sess) p.hdr p.opcode st b.time.count payload
    else b
  b1.completes p.seq

/-! ### Fences and holds -/

/-- A Tick hint is due: 0, or at most 2^31 Ticks behind the present count (R341). -/
def hintDue (count hint : Word) : Bool := hint == 0 || (count - hint).toNat ≤ 2147483648

/-- The hint is refused: more than 20 000 Ticks ahead (R341). -/
def hintTooFar (count hint : Word) : Bool :=
  !hintDue count hint && 20000 < (hint - count).toNat

/-- The requests waiting in a queue. -/
def Block.queue (b : Block) (q : Fin 4) : List Waiting := nth b.link.queues q.val []

/-- The slots of a queue (R349). -/
def queueSlots (q : Fin 4) : Nat := if q = 2 then 128 else 32

/-- A fence holds the queue, or ORDERED holds the request (R356). -/
def Block.fenceHolds (b : Block) (h : Hdr) : Bool :=
  b.link.progress.any (fun p => p.hdr.queue == h.queue && (p.holds || h.ordered))

/-- The request at the head of its queue cannot be dispatched yet: a halt (R421), HOLD and DOZE until the
    exit to ACTIVE (R311), its Tick hint (R341), a fence or ORDERED (R356). -/
def Block.held (b : Block) (h : Hdr) : Bool :=
  b.vig.dbg == .halted || b.eng.pwr.state == .hold || b.eng.pwr.state == .doze || b.time.dozing || !hintDue b.time.count h.hint || b.fenceHolds h

/-- An earlier request of the session, in any queue, has not completed (R356). -/
def Block.earlierOpen (b : Block) (k : Sess) (seq : Nat) : Bool :=
  b.link.progress.any (fun p => p.sess == k && p.seq < seq)
    || b.link.queues.any (fun l => l.any (fun w => w.sess == some k && w.seq < seq))

/-- A TILE_DATA of the session waits that arrived before (R152). -/
def Block.earlierChunk (b : Block) (p : InProgress) : Bool :=
  b.link.queues.any (fun l => l.any (fun w =>
    w.sess == some p.sess && decide (w.seq < p.seq) && w.opcode == 0x0028))

/-- What becomes of one fence in progress now (R356): a COMPLETION fence completes, a TICK fence
    starts to wait for the next COMMIT, a DMA fence completes when no fill it covers is left. -/
def Block.fenceStep (b : Block) (p : InProgress) : Block :=
  match p.ends with
  | .earlier tick =>
    if b.earlierOpen p.sess p.seq then b
    else if tick then
      { b with link := { b.link with
          progress := b.link.progress.map
            (fun x => if x.seq == p.seq then { x with ends := .tickCommit } else x) } }
    else b.finishes p .ok
  | .fills [] => if b.earlierChunk p then b else b.finishes p .ok
  | _ => b

/-- The fences in progress brought up to date, oldest first. -/
def Block.fences (b : Block) : Block := b.link.progress.foldl (fun acc p => acc.fenceStep p) b

/-! ### Arrival of a request (R338) -/

/-- The request is a repeat of one that is queued or in progress (R339). -/
def Block.repeats (b : Block) (k : Sess) (h : Hdr) : Bool :=
  (b.queue h.queue).any (fun w => w.sess == some k && w.hdr.tag == h.tag)
    || b.link.progress.any (fun p => p.sess == k && p.hdr.queue == h.queue && p.hdr.tag == h.tag)

/-- The reply kept for the request's queue and tag (R339). -/
def Block.keptReply (b : Block) (k : Sess) (h : Hdr) : Option Packet :=
  (b.link.sess k).replies.find? (fun p => p.queue == h.queue && p.tag == h.tag)

/-- The keepalive timer restarted by a valid request (R346). -/
def Block.keepAlive (b : Block) (k : Sess) (h : Hdr) : Block :=
  b.modSess k (fun s => { s with since := b.now h.at_ })

/-- Peak use of a queue (CMDQ_STAT.PEAK, R399): `used` slots were in use. -/
def Block.peak (b : Block) (q : Fin 4) (used : Nat) : Block :=
  b.setFld .CMDQ_STAT q.val 31 24 (max used (b.fld .CMDQ_STAT q.val 31 24))

/-- A request refused at a full queue (R350, R399), and event 17. -/
def Block.queueFull (b : Block) (k : Sess) (h : Hdr) (op : BitVec 16) : Block :=
  let b1 := (b.count .LINK_CNT1 0 15 0).count .CMDQ_BUSY h.queue.val 15 0
  (b1.raiseLimited 17 1 (payS h.queue.val) h.at_).replyNow (some k) h op .busy

/-- A request put at the end of its queue (R349). -/
def Block.enqueue (b : Block) (w : Waiting) : Block :=
  { b with link := { b.link with
      queues := modNth b.link.queues w.hdr.queue.val (fun l => l ++ [w]) } }

/-- What dispatching a request does, given its session, its place in the order of arrival and the
    instant of its arrival on the model's clock. -/
abbrev Dispatch := Sess → Nat → Nat → Block → Block

/-- Core 2 takes a request from its queue (R350, R351): the dispatch is counted. -/
def Block.dispatched (b : Block) (h : Hdr) : Block := b.countWrap .CMDQ_DISP h.queue.val 31 0

/-- When a request has arrived whole: one request follows another on the wire, its header's instant is the earliest
    (R365, log entry 10). -/
def Block.arrivalAt (b : Block) (h : Hdr) : Nat := max (b.now h.at_) (b.link.arriveAt + wireNs h.len)

/-- A transmit buffer is free as a request arrives (R364). -/
def Block.roomFor (b : Block) (h : Hdr) : Bool := b.link.tx.free (max (b.arrivalAt h) b.stagedAt)

/-- A request counted as an arrival. -/
def Block.arrives (b : Block) (h : Hdr) : Block :=
  { b with link := { b.link with arrivals := b.link.arrivals + 1, arriveAt := b.arrivalAt h } }

/-- A request of an open session that passed every check takes a slot of its queue (R349, R399): dispatched
    at once where the queue is empty, nothing holds it and a transmit buffer is free (R364), else left to wait. -/
def Block.takeSlot (b : Block) (k : Sess) (i : Instr) (h : Hdr) (op : OpRow) (d : Dispatch) : Block :=
  let seq := b.link.arrivals
  let b1 := ((b.reaches h.at_).arrives h).peak h.queue ((b.queue h.queue).length + 1)
  if (b.queue h.queue).isEmpty && !b.held h && b.roomFor h then (d k seq (b.now h.at_) (b1.dispatched h)).fences
  else b1.enqueue { seq := seq, sess := some k, arrived := b.now h.at_, hdr := h, opcode := op.code, req := i }

/-- A request of an open session arrives. The checks of R338 are made in order, then R339 and
    R341; a request that nothing holds is dispatched at once, any other waits in its queue. -/
def Block.arrive (b : Block) (k : Sess) (i : Instr) (h : Hdr) (op : OpRow) (d : Dispatch) : Block :=
  let b0 := b.keepAlive k h
  match b0.keptReply k h with
  | some p => b0.send p
  | none =>
    if b0.repeats k h then b0
    else if k = .main ∧ (op.serviceOnly ∨ h.queue = 3) then b0.replyNow (some k) h op.code .denied
    else if queueSlots h.queue ≤ (b0.queue h.queue).length then b0.queueFull k h op.code
    else if !op.lengthOk h.len then b0.replyNow (some k) h op.code .badLength
    else if hintTooFar b0.time.count h.hint then b0.replyNow (some k) h op.code .range
    else b0.takeSlot k i h op d

/-- The requests of an open session that recovery mode accepts (R473). -/
def recoveryTakes (op : BitVec 16) : Bool :=
  [0x0001, 0x0004, 0x0010, 0x0012].contains op.toNat || (0x0050 ≤ op.toNat && op.toNat ≤ 0x0056)

/-- The endpoint is reachable: ETH_A is up, the links are powered (R334), Vigil holds no cores in reset
    (R415). -/
def Block.linked (b : Block) : Bool :=
  b.link.portA.up && b.eng.pwr.state != .dormant && !b.vig.clockFault

/-- Requests of an open session reach their checks: until the first COMMIT after a reset the endpoint
    accepts only IDENTIFY (R413). -/
def Block.reachable (b : Block) : Bool := b.linked && (!b.vig.starting || b.upd.recovery)

/-- A request that needs an open session: NO_SESSION where there is none (R338). Until the first
    COMMIT after a reset the endpoint accepts only IDENTIFY (R413): the request is discarded. -/
def Block.request (b : Block) (i : Instr) (h : Hdr) (op : OpRow) (d : Dispatch) : Block :=
  if !b.reachable then b
  else
    match b.sessionOf h with
    | some k =>
      if h.multicast then b
      else if b.upd.recovery ∧ !recoveryTakes op.code then
        (b.keepAlive k h).replyNow (some k) h op.code .denied
      else b.arrive k i h op d
    | none =>
      if h.multicast then b
      else (b.count .LINK_CNT1 0 23 16).replyNow none h op.code .noSession

end Sys2Proof.Machine
end

