-- ==== Sys2Proof/Machine/Diary.lean ====
section
/-! DEFINITION. The EVENT packets (R434), the Diary and the Ember Page (15): writing, freezing, reading,
    draining and failing, R435 to R448. -/

namespace Sys2Proof.Machine

open Sys2Proof (Word Byte Bytes Sess Hdr Instr)

/-! ### EVENT packets (R434) -/

/-- The 32 bytes of an event entry (R434). -/
def Occurrence.eventBytes (o : Occurrence) : Bytes :=
  leBytes 4 o.tick.toNat ++ leBytes 6 o.stamp.toNat ++ leBytes 1 o.src ++ [o.code] ++ leBytes 2 o.repeats
    ++ leBytes 16 o.payload.toNat ++ leBytes 2 0

/-- EVENT_PACKET_SEND (R434): 43 entries wait, or PKT_WAIT has passed since the oldest was taken. -/
def execEventPacketSend (k : Sess) (at_ : Nat) : State → Host.Outcome State Fault Refusal :=
  lift (fun b =>
    let s := b.link.sess k
    match s.events with
    | [] => b
    | o :: _ =>
      if s.state = .opened ∧ (43 ≤ s.events.length
          ∨ o.first + b.fld .EVT_CTRL 0 7 0 * 1000000 ≤ b.now at_) then
        let l := s.events.take 43
        let payload := leBytes 1 l.length ++ leBytes 1 0 ++ leBytes 2 s.evDiscarded
          ++ (l.map Occurrence.eventBytes).flatten
        (b.sendOwn k 0x0080 0 payload at_).modSess k (fun s => { s with
          events := s.events.drop 43, evDiscarded := 0 })
      else b)

/-- DM1_ACTIVE_TIMEOUT (R433): 1 s after the last occurrence. -/
def execDm1ActiveTimeout (source : Fin 128) (at_ : Nat) : State → Host.Outcome State Fault Refusal :=
  lift (fun b =>
    match look b.evt.lastSeen source.val with
    | some t =>
      if t + 1000000000 ≤ b.now at_ then
        ({ b with evt := { b.evt with
            lastSeen := b.evt.lastSeen.filter (fun p => p.1 != source.val) } }).dtcUpdate source.val
      else b
    | none => b)

/-- BASE_HOT (R426): above EVT_THERM.WARN, and at 5.0 degrees below it again. -/
def execBaseHot (temp : Int) : State → Host.Outcome State Fault Refusal :=
  lift (fun b =>
    let warn : Int := b.fld .EVT_THERM 0 15 0
    let set (b : Block) (hot : Bool) : Block := { b with evt := { b.evt with
      baseTemp := temp, baseHot := hot } }
    if b.evt.baseHot = false ∧ warn < temp then (set b true).raise 120 1 (payS (narrow 16 temp))
    else if b.evt.baseHot = true ∧ temp ≤ warn - 50 then (set b false).raise 120 2 (payS (narrow 16 temp))
    else set b b.evt.baseHot)

/-! ### Records (R436) -/

/-- The slots of the ring and of the staging area (R435). -/
def ringSlots : Nat := 389120
def stagingSlots : Nat := 4096

/-- The MRAM offsets of R22: settings store A, the Diary, the learned valve data, the boot records. -/
def mramStore : Nat := 0x1000000
def mramDiary : Nat := 0x1100000
def mramLearned : Nat := 0x1D40000
def mramBoot : Nat := 0x1D80000

/-- The 32 bytes of a record (R436). -/
def DiaryRec.bytes (r : DiaryRec) : Bytes :=
  let head := leBytes 4 r.seq.toNat ++ leBytes 6 r.occ.stamp.toNat ++ leBytes 1 r.occ.src ++ [r.occ.code]
  let pay := leBytes 16 r.occ.payload.toNat
  head ++ leBytes 2 r.occ.repeats ++ pay ++ [crc8 (head ++ pay), 0xA5]

/-- Sequence number `a` is newer than `m`, modulo 2^32. -/
def seqNewer (a m : Word) : Bool := decide (0 < (a - m).toNat) && decide ((a - m).toNat < 2147483648)

/-- The records held, oldest first, staging included. -/
def Diary.held (d : Diary) : List DiaryRec := d.ring ++ d.staging

/-- The number of undrained records (R445). -/
def Diary.undrained (d : Diary) : Nat := (d.held.filter (fun r => seqNewer r.seq d.drained)).length

/-- DIARY_FILL brought up to date (R445). -/
def Block.fillCheck (b : Block) (at_ : Nat) : Block :=
  let pct := b.fld .DIARY_CFG 0 31 24
  let n := b.diary.undrained
  let set (b : Block) (f : Bool) : Block := { b with diary := { b.diary with fill := f } }
  if !b.diary.fill && pct * ringSlots ≤ 100 * n then (set b true).raise 124 1 (payS n) at_
  else if b.diary.fill && 100 * n < (pct - 5) * ringSlots then (set b false).raise 124 2 (payS n) at_
  else b

/-! ### Writing (R437 to R439, R446 to R448) -/

/-- A record is written and read back, a second time in the same place after a bad read-back (R446): whether
    it holds, and the read-backs that follow. A read-back not given is good. -/
def twoTries : List Bool → Bool × List Bool
  | [] => (true, [])
  | true :: r => (true, r)
  | [false] => (true, [])
  | false :: t :: r => (t, r)

/-- The Ember Page takes a failure of the Diary memory or of main MRAM (R447), or VIG_LOGFAIL alone does
    (R448): `src`, `code` name the record that could not be kept. -/
def Block.emberWrite (b : Block) (failCode : Byte) (p : Payload) (src : Nat) (code : Byte)
    (readBack : List Bool) : Block :=
  let d := b.diary
  if (twoTries readBack).1 then
    let o : Occurrence := { src := 126, code := failCode, payload := p.bytes, keyLen := 16
                            tick := b.time.count, stamp := b.time.stamp, first := b.time.now }
    { b with diary := { d with
        ember := lastN 2048 (d.ember ++ [{ seq := d.emberNext, occ := o }])
        emberNext := d.emberNext + 1 } }
  else
    { b with diary := { d with
        logSource := if d.logEmber then d.logSource else BitVec.ofNat 8 src
        logCode := if d.logEmber then d.logCode else code
        logEmber := true
        logDiary := d.logDiary || failCode == 1
        logMram := d.logMram || failCode == 2 } }

/-- The payload of source 126 (R429). -/
def failPayload (offset : Nat) (r : Option DiaryRec) : Payload :=
  let tail : Nat := match r with
    | some r => r.occ.src * 2 ^ 32 + r.occ.code.toNat * 2 ^ 40 + r.seq.toNat * 2 ^ 64
    | none => 0xFFFF * 2 ^ 32 + 0xFFFFFFFF * 2 ^ 64
  payS (offset + tail)

/-- The Diary has FAILED (R446): what waits is discarded and counted, and the episode goes to the Ember
    Page and to source 126. -/
def Block.diaryFail (b : Block) (r : Option DiaryRec) (offset : Nat) (readBack : List Bool) (at_ : Nat) :
    Block :=
  let p := failPayload offset r
  let n := b.diary.fifo.length
  let src := match r with
    | some r => r.occ.src
    | none => 126
  let code := match r with
    | some r => r.occ.code
    | none => 1
  let b1 := ({ b with diary := { b.diary with
    failed := true, fifo := [], newest := .nowhere, protectHold := false } }).count
      .DIARY_CNT0 0 31 16 n
  (b1.emberWrite 1 p src code readBack).raise 126 1 p at_

/-- A failure that another MRAM service reports (R446, R447), at an MRAM offset. -/
def Block.mramFail (b : Block) (offset : Nat) (at_ : Nat) : Block :=
  let p := failPayload offset none
  let new := !b.diary.mramFailed.contains offset
  let b1 := if new then
      ({ b with diary := { b.diary with mramFailed := b.diary.mramFailed ++ [offset] } }).emberWrite 2 p 126 2 []
    else b
  b1.raise 126 2 p at_

/-- A slot at or after `s` that is not marked bad; `fuel` bounds the bad slots passed over. -/
def Diary.goodSlot (d : Diary) : Nat → Nat → Nat
  | 0, s => s % ringSlots
  | fuel + 1, s =>
    if d.badSlots.contains (s % ringSlots) then Diary.goodSlot d fuel (s + 1) else s % ringSlots

/-- How a write to the ring ended. -/
inductive Wrote where
  | done
  | waits
  | failed (offset : Nat) (readBack : List Bool)
  deriving DecidableEq, Repr

/-- A record written to the ring (R437, R445, R446), `fuel` slots being tried in a row. -/
def Block.ringWrite (r : DiaryRec) : Nat → List Bool → Block → Wrote × Block
  | 0, rb, b => (.failed (mramDiary + 32 * ((b.diary.writeSlot + ringSlots - 1) % ringSlots)) rb, b)
  | fuel + 1, rb, b =>
    let d := b.diary
    let s := d.goodSlot d.badSlots.length d.writeSlot
    let old := d.ring.find? (fun x => x.slot == s)
    let undrained := match old with
      | some x => seqNewer x.seq d.drained
      | none => false
    if undrained && b.flag .DIARY_CFG 0 0 then
      (.waits, { b with diary := { d with protectHold := true } })
    else
      let b1 : Block := { b with diary := { d with
        ring := d.ring.filter (fun x => x.slot != s), writeSlot := (s + 1) % ringSlots
        protectHold := false } }
      let b2 := if undrained then b1.count .DIARY_CNT1 0 31 16 else b1
      match twoTries rb with
      | (true, _) =>
        (.done, { b2 with diary := { b2.diary with ring := b2.diary.ring ++ [{ r with slot := s }] } })
      | (false, rest) =>
        let b3 : Block := { b2 with diary := { b2.diary with badSlots := b2.diary.badSlots ++ [s] } }
        Block.ringWrite r fuel rest (b3.count .DIARY_CNT1 0 7 0)

/-- The LOST record is admitted when at least 8 slots of the intake are free again (R439). -/
def Block.admitLost (b : Block) (at_ : Nat) : Block :=
  let d := b.diary
  if 0 < d.lostPending ∧ d.fifo.length ≤ 56 ∧ !d.failed then
    let p := payS (min d.lostPending 0xFFFFFFFF + d.lostFirst.toNat * 2 ^ 32 + d.lostLast.toNat * 2 ^ 80)
    let o : Occurrence := { src := 122, code := 1, payload := p.bytes, keyLen := 16, tick := b.time.count
                            stamp := b.time.stamp, first := b.now at_ }
    ({ b with diary := { d.take o with lostPending := 0 } }).raise 122 1 p at_
  else b

/-- The head of the intake leaves it; the newest entry follows it to where it is written. -/
def Diary.takeHead (d : Diary) (to_ : Newest) : Diary :=
  let rest := d.fifo.drop 1
  { d with fifo := rest, newest := if rest.isEmpty && d.newest == Newest.fifo then to_ else d.newest }

/-- The head of the intake written to staging (R441, R442). -/
def Block.stageHead (b : Block) (at_ : Nat) : Block :=
  match b.diary.fifo with
  | [] => b
  | r :: _ =>
    if b.diary.staging.length < stagingSlots then
      let b1 : Block := { b with diary := b.diary.takeHead .staging }
      ({ b1 with diary := { b1.diary with staging := b1.diary.staging ++ [r] } }).admitLost at_
    else b

/-- A freeze ends (R442); one that ends on its own raises its cause. -/
def Block.thaw (b : Block) (cause : Option Nat) (at_ : Nat) : Block :=
  match b.diary.freeze with
  | none => b
  | some _ =>
    let b1 : Block := { b with diary := { b.diary with freeze := none } }
    match cause with
    | some c => b1.raise 123 1 (payS c) at_
    | none => b1

/-- One record is written (R437): to staging while the ring is frozen; from staging to the ring after a
    freeze, an entry admitted meanwhile going to staging behind; else from the intake to the ring. -/
def Block.writeRecord (b : Block) (readBack : List Bool) (writable : Bool) (at_ : Nat) : Block :=
  if b.diary.failed then b
  else if !writable then b.diaryFail b.diary.fifo.head? mramDiary readBack at_
  else if b.diary.freeze.isSome then
    let b1 := b.stageHead at_
    let b2 := if 3072 ≤ b1.diary.staging.length then b1.thaw (some 2) at_ else b1
    b2.fillCheck at_
  else
    let b1 := if b.diary.staging.isEmpty then b else b.stageHead at_
    match b1.diary.staging with
    | r :: rest =>
      match Block.ringWrite r 4 readBack b1 with
      | (.done, b2) =>
        let d := b2.diary
        ({ b2 with diary := { d with
          staging := rest
          newest := if rest.isEmpty && d.newest == Newest.staging then .ring else d.newest } }).fillCheck at_
      | (.waits, b2) => b2
      | (.failed o rb, b2) => b2.diaryFail (some r) o rb at_
    | [] =>
      match b1.diary.fifo with
      | [] => b1
      | r :: _ =>
        match Block.ringWrite r 4 readBack b1 with
        | (.done, b2) =>
          (({ b2 with diary := b2.diary.takeHead .ring }).admitLost at_).fillCheck at_
        | (.waits, b2) => b2
        | (.failed o rb, b2) => b2.diaryFail (some r) o rb at_

/-- The application cores run: no halt (R421), no HOLD or DORMANT, no clock fault (R415), no recovery mode
    (R473). -/
def Block.coresRun (b : Block) : Bool :=
  b.vig.dbg != .halted && b.eng.pwr.state != .hold && b.eng.pwr.state != .dormant && !b.vig.clockFault
    && !b.upd.recovery

/-- DIARY_RECORD_WRITE (R437): the read-backs of the writes that are made, and whether the MRAM controller
    reports the region writable. -/
def execDiaryRecordWrite (readBack : List Bool) (writable : Bool) :
    State → Host.Outcome State Fault Refusal :=
  lift (fun b => if b.coresRun then b.writeRecord readBack writable 0 else b)

/-- Everything admitted is written: `fuel` records, each read back good (R314, R440). -/
def Block.flushDiary (at_ : Nat) : Nat → Block → Block
  | 0, b => b
  | fuel + 1, b =>
    if b.diary.fifo.isEmpty then b else Block.flushDiary at_ fuel (b.writeRecord [] true at_)

/-! ### Freezing, reading, draining (R441 to R445) -/

/-- The rows of the Diary's requests (R357). -/
def diaryFreezeRow : OpRow := opRow 0x0040 4
def diaryReadRow : OpRow := opRow 0x0041 8
def diaryThawRow : OpRow := opRow 0x0042 4
def diaryMarkRow : OpRow := opRow 0x0043 20

/-- The first sequence number of a list of records; a free value where there is none (log entry 2). -/
def Block.firstSeq (b : Block) (l : List DiaryRec) : Word × Block :=
  match l.head? with
  | some r => (r.seq, b)
  | none => let (v, b1) := b.draw; (BitVec.ofNat 32 v, b1)

/-- Dispatch of DIARY_FREEZE (R441). -/
def dispatchFreeze (h : Hdr) (timeout : BitVec 16) : Dispatch := fun k _ arrived b =>
  let other := match b.diary.freeze with
    | some f => f.by_ != k
    | none => false
  let t := if timeout = 0 then 60 else timeout.toNat
  if b.diary.failed then b.replyNow (some k) h diaryFreezeRow.code .denied
  else if other then b.replyNow (some k) h diaryFreezeRow.code .busy
  else if 600 < t then b.replyNow (some k) h diaryFreezeRow.code .range
  else
    let b1 : Block := { b with diary := { b.diary with
      freeze := some { by_ := k, since := arrived, timeoutS := t } } }
    let (oldest, b2) := b1.firstSeq b1.diary.ring
    let (newest, b3) := b2.firstSeq b2.diary.ring.reverse
    b3.replyNow (some k) h diaryFreezeRow.code .ok (leBytes 4 oldest.toNat ++ leBytes 4 newest.toNat)

/-- DIARY_FREEZE (R441). -/
def execDiaryFreeze (h : Hdr) (timeout : BitVec 16) : State → Host.Outcome State Fault Refusal :=
  lift (fun b => b.request (.diaryFreeze h timeout) h diaryFreezeRow (dispatchFreeze h timeout))

/-- Dispatch of DIARY_THAW (R442). -/
def dispatchThaw (h : Hdr) : Dispatch := fun k _ _ b =>
  match b.diary.freeze with
  | none => b.replyNow (some k) h diaryThawRow.code .ok
  | some f =>
    if f.by_ = k then (b.thaw none h.at_).replyNow (some k) h diaryThawRow.code .ok
    else b.replyNow (some k) h diaryThawRow.code .denied

/-- DIARY_THAW (R442). -/
def execDiaryThaw (h : Hdr) : State → Host.Outcome State Fault Refusal :=
  lift (fun b => b.request (.diaryThaw h) h diaryThawRow (dispatchThaw h))

/-- FREEZE_TIMEOUT (R442). -/
def execFreezeTimeout (at_ : Nat) : State → Host.Outcome State Fault Refusal :=
  lift (fun b =>
    match b.diary.freeze with
    | some f => if f.since + f.timeoutS * 1000000000 ≤ b.now at_ then b.thaw (some 1) at_ else b
    | none => b)

/-- The records that a read returns, its flags, and the slots passed over (R443): those held from `first` up to the newest. -/
def readRecords (held : List DiaryRec) (first : Word) (count : Nat) : List DiaryRec × Nat × Nat :=
  match held.head?, held.getLast? with
  | some o, some n =>
    if seqNewer first n.seq then ([], 0, 0)
    else
      let gap := seqNewer o.seq first
      let span := (n.seq - first).toNat
      let wanted := if gap then held else held.filter (fun r => decide ((r.seq - first).toNat ≤ span))
      let good := wanted.filter (fun r => r.good)
      let out := good.take count
      let skipped : Nat := match out.getLast? with
        | some l => (wanted.filter (fun r => !r.good && seqNewer l.seq r.seq)).length
        | none => (wanted.filter (fun r => !r.good)).length
      let ends := out.any (fun r => r.seq == n.seq)
      (out, (if gap then 1 else 0) + (if ends then 2 else 0) + (if skipped = 0 then 0 else 4), skipped)
  | _, _ => ([], 0, 0)

/-- Dispatch of DIARY_READ (R443). -/
def dispatchDiaryRead (h : Hdr) (first : Word) (count flags : Byte) : Dispatch := fun k _ _ b =>
  if count.toNat = 0 ∨ 43 < count.toNat then b.replyNow (some k) h diaryReadRow.code .range
  else
    let ember := flags.getLsbD 0
    let (out, fl, skipped) := readRecords (if ember then b.diary.ember else b.diary.held) first count.toNat
    let b1 := if ember then b else b.count .DIARY_CNT1 0 15 8 skipped
    let (seq, b2) := b1.firstSeq out
    b2.replyNow (some k) h diaryReadRow.code .ok
      (leBytes 4 seq.toNat ++ leBytes 1 out.length ++ leBytes 1 fl ++ leBytes 2 0
        ++ (out.map DiaryRec.bytes).flatten)

/-- DIARY_READ (R443). -/
def execDiaryRead (h : Hdr) (first : Word) (count flags : Byte) :
    State → Host.Outcome State Fault Refusal :=
  lift (fun b => b.request (.diaryRead h first count flags) h diaryReadRow
    (dispatchDiaryRead h first count flags))

/-- Dispatch of DIARY_MARK (R444): the reply names the record that holds the mark. -/
def dispatchMark (h : Hdr) (code : Byte) (payload : BitVec 128) : Dispatch := fun k _ _ b =>
  if 64 ≤ b.diary.fifo.length then b.replyNow (some k) h diaryMarkRow.code .busy
  else if !b.flag .EVT_CFG 23 5 || b.diary.failed then b.replyNow (some k) h diaryMarkRow.code .denied
  else
    let b1 := b.raise 23 code ⟨payload, 16⟩ h.at_
    let (seq, b2) := b1.firstSeq (if b.evtEnabled 23 then b1.diary.newestRec.toList else [])
    b2.replyNow (some k) h diaryMarkRow.code .ok (leBytes 4 seq.toNat)

/-- DIARY_MARK (R444). -/
def execDiaryMark (h : Hdr) (code : Byte) (payload : BitVec 128) :
    State → Host.Outcome State Fault Refusal :=
  lift (fun b => b.request (.diaryMark h code payload) h diaryMarkRow (dispatchMark h code payload))

/-- The drained number copied to MRAM. -/
def Block.saveDrained (b : Block) (at_ : Nat) : Block :=
  { b with diary := { b.diary with drainedMram := b.diary.drained, drainedAt := some (b.now at_) } }

/-- DRAINED_MRAM_WRITE (R445): at most once in each second. -/
def execDrainedMramWrite (at_ : Nat) : State → Host.Outcome State Fault Refusal :=
  lift (fun b =>
    let due := match b.diary.drainedAt with
      | some t => decide (t + 1000000000 ≤ b.now at_)
      | none => true
    if due && b.coresRun && b.diary.drained != b.diary.drainedMram then b.saveDrained at_ else b)

/-- A write of DIARY_DRAINED (R445), refused with RANGE when newer than the newest record. -/
def Block.drainTo (b : Block) (v : Word) (at_ : Nat) : Option Block :=
  let newest := match b.diary.held.getLast? with
    | some r => r.seq
    | none => b.diary.next - 1
  if seqNewer v newest then none
  else some (({ b with diary := { b.diary with drained := v } }).fillCheck at_)

end Sys2Proof.Machine
end

