-- ==== Sys2Proof/Machine/Float32.lean ====
section
/-! DEFINITION. IEEE 754 binary32 arithmetic for the loop engine (R277): round to nearest, ties to even,
    with subnormal numbers; the sign and the payload of a result that is not a number are free values (log entry 50). -/

namespace Sys2Proof.Machine

open Sys2Proof (Word)

/-- A binary32 value: finite values are a signed mantissa times a power of two. -/
inductive FVal where
  | nan
  | inf (neg : Bool)
  | fin (neg : Bool) (m : Nat) (e : Int)
  deriving DecidableEq, Repr

/-- The value of a word. -/
def unpackF (w : Word) : FVal :=
  let neg := w.getLsbD 31
  let ex := bits w 30 23
  let m := bits w 22 0
  if ex = 255 then (if m = 0 then .inf neg else .nan)
  else if ex = 0 then .fin neg m (-149)
  else .fin neg (m + 8388608) ((ex : Int) - 150)

/-- A result that is not a number: quiet, with a sign and a payload that are not stated. -/
def nanF (a c : Word) : Word := 0x7FC00000 ||| Config.nan a c &&& 0x803FFFFF

/-- The sign bit. -/
def signF (neg : Bool) : Word := if neg then 0x80000000 else 0

/-- A nonzero quotient by a power of two, rounded to nearest even; `sticky` says that the number had
    more bits below. -/
def shiftRound (m sh : Nat) (sticky : Bool) : Nat :=
  let q := m / 2 ^ sh
  let r := m % 2 ^ sh
  if sh = 0 then q
  else
    let half := 2 ^ (sh - 1)
    if half < r || (r == half && (sticky || q % 2 == 1)) then q + 1 else q

/-- The word nearest to m x 2^e. A caller with more bits below has shifted `m` left first. -/
def packF (neg : Bool) (m : Nat) (e : Int) (sticky : Bool := false) : Word :=
  if m = 0 then signF neg
  else
    let q : Int := max (e + m.log2 + 1 - 24) (-149)
    let m1 := if e < q then shiftRound m (q - e).toNat sticky else m * 2 ^ (e - q).toNat
    let (m2, q2) : Nat × Int := if m1 = 16777216 then (8388608, q + 1) else (m1, q)
    if 104 < q2 then signF neg ||| 0x7F800000
    else if m2 < 8388608 then signF neg ||| BitVec.ofNat 32 m2
    else signF neg ||| BitVec.ofNat 32 ((q2 + 150).toNat * 8388608 + (m2 - 8388608))

/-- A signed mantissa as an integer. -/
def signedM (neg : Bool) (m : Nat) : Int := if neg then -(m : Int) else m

/-- Sum. -/
def fadd (a c : Word) : Word :=
  match unpackF a, unpackF c with
  | .nan, _ => nanF a c
  | _, .nan => nanF a c
  | .inf x, .inf y => if x = y then a else nanF a c
  | .inf _, _ => a
  | _, .inf _ => c
  | .fin x m e, .fin y n f =>
    let g := min e f
    let s := signedM x m * 2 ^ (e - g).toNat + signedM y n * 2 ^ (f - g).toNat
    if s = 0 then (if x && y then signF true else 0) else packF (decide (s < 0)) s.natAbs g

/-- Negation. -/
def fneg (a : Word) : Word := a ^^^ 0x80000000

/-- Difference. -/
def fsub (a c : Word) : Word := fadd a (fneg c)

/-- Absolute value. -/
def fabs (a : Word) : Word := a &&& 0x7FFFFFFF

/-- Product. -/
def fmul (a c : Word) : Word :=
  match unpackF a, unpackF c with
  | .nan, _ => nanF a c
  | _, .nan => nanF a c
  | .inf x, .inf y => signF (x != y) ||| 0x7F800000
  | .inf x, .fin y n _ => if n = 0 then nanF a c else signF (x != y) ||| 0x7F800000
  | .fin x m _, .inf y => if m = 0 then nanF a c else signF (x != y) ||| 0x7F800000
  | .fin x m e, .fin y n f => packF (x != y) (m * n) (e + f)

/-- Quotient. -/
def fdiv (a c : Word) : Word :=
  match unpackF a, unpackF c with
  | .nan, _ => nanF a c
  | _, .nan => nanF a c
  | .inf _, .inf _ => nanF a c
  | .inf x, .fin y _ _ => signF (x != y) ||| 0x7F800000
  | .fin x _ _, .inf y => signF (x != y)
  | .fin x m e, .fin y n f =>
    if n = 0 then (if m = 0 then nanF a c else signF (x != y) ||| 0x7F800000)
    else packF (x != y) (m * 2 ^ 64 / n) (e - f - 64) (m * 2 ^ 64 % n != 0)

/-- Integer square root by bits, from bit `k`. -/
def sqrtBits (x : Nat) : Nat → Nat → Nat
  | 0, r => if (r + 1) * (r + 1) ≤ x then r + 1 else r
  | k + 1, r =>
    let r' := r + 2 ^ (k + 1)
    sqrtBits x k (if r' * r' ≤ x then r' else r)

/-- Square root. -/
def fsqrt (a : Word) : Word :=
  match unpackF a with
  | .nan => nanF a a
  | .inf neg => if neg then nanF a a else a
  | .fin neg m e =>
    if m = 0 then a
    else if neg then nanF a a
    else
      let odd := e % 2 != 0
      let m1 := (if odd then 2 * m else m) * 2 ^ 64
      let e1 : Int := (if odd then e - 1 else e) - 64
      let r := sqrtBits m1 46 0
      packF false r (e1 / 2) (r * r != m1)

/-- Less than; false with anything that is not a number. -/
def flt (a c : Word) : Bool :=
  match unpackF a, unpackF c with
  | .nan, _ => false
  | _, .nan => false
  | .inf x, .inf y => x && !y
  | .inf x, .fin _ _ _ => x
  | .fin _ _ _, .inf y => !y
  | .fin x m e, .fin y n f =>
    let g := min e f
    decide (signedM x m * 2 ^ (e - g).toNat < signedM y n * 2 ^ (f - g).toNat)

/-- The lesser of two values. -/
def fmin (a c : Word) : Word := if flt c a then c else a

/-- A value held to a range. -/
def fclamp (u lo hi : Word) : Word := if flt u lo then lo else if flt hi u then hi else u

/-- The sign of a value: -1, 0 or 1. -/
def fsign (a : Word) : Int := if flt a 0 then -1 else if flt 0 a then 1 else 0

/-- The value with the sign of another. -/
def fwithSign (s : Int) (a : Word) : Word := if s < 0 then fneg a else if s = 0 then 0 else a

/-- The word nearest to a quotient of integers. -/
def fofRat (n : Int) (d : Nat) : Word :=
  if d = 0 then nanF (BitVec.ofInt 32 n) 0
  else packF (decide (n < 0)) (n.natAbs * 2 ^ 128 / d) (-128) (n.natAbs * 2 ^ 128 % d != 0)

/-- The word nearest to a fixed-point number of 16 fraction bits (R277). -/
def fofFixed (n : Int) : Word := packF (decide (n < 0)) n.natAbs (-16)

/-- A value times `scale`, rounded to the nearest integer, ties away from zero; what is not finite gives
    a value that is not stated. -/
def ftoScaled (a : Word) (scale : Nat) : Int :=
  match unpackF a with
  | .fin neg m e =>
    let n := m * scale
    let v : Int := if 0 ≤ e then n * 2 ^ e.toNat else divRound n (2 ^ (-e).toNat)
    if neg then -v else v
  | _ => Config.whole a scale

/-- A value is finite. -/
def ffinite (a : Word) : Bool := bits a 30 23 != 255

/-- 1.0. -/
def oneF : Word := 0x3F800000

end Sys2Proof.Machine
end

