-- ==== Sys2Proof/Machine/LoadSwitch.lean ====
section
/-! DEFINITION. The protected load switches LS00 to LS15 (11), with the admission of their starts by
    the arbiter (R301, R302). -/

namespace Sys2Proof.Machine

open Sys2Proof (Word Sess)

/-- Load switch `k`. -/
def Block.sw (b : Block) (k : Nat) : Lsw := nth b.eng.lsw k {}

/-- The block with load switch `k` replaced by its image. -/
def Block.modSw (b : Block) (k : Nat) (f : Lsw → Lsw) : Block :=
  { b with eng := { b.eng with lsw := modNth b.eng.lsw k f } }

/-- The block with the arbiter's state replaced by its image. -/
def Block.modPwr (b : Block) (f : Power → Power) : Block :=
  { b with eng := { b.eng with pwr := f b.eng.pwr } }

/-- VPWR: the higher of the two input voltages latched in CAPTURE, in mV (R299). -/
def Block.vpwrMv (b : Block) : Nat := max b.sup.inA.mv b.sup.inB.mv

/-- A VPWR input is present (R297, R489). -/
def Block.vpwrPresent (b : Block) : Bool := b.sup.inA.present || b.sup.inB.present

/-- The output stages have their supply: VPWR is present, and after its return a COMMIT has come (R489). -/
def Block.stagesOn (b : Block) : Bool := b.vpwrPresent && !b.sup.resume

/-- The standing command is an on request (R321). -/
def Lsw.asksOn (s : Lsw) : Bool := s.on && 0 < s.duty

/-- The switch conducts: in its inrush window, on, or held by Vigil (R321, R327). -/
def Lsw.conducts (s : Lsw) : Bool := s.held || s.seq == .inrush || s.seq == .on

/-- The switch has been shed and not restored (R303). -/
def Block.isShed (b : Block) (k : Nat) : Bool := b.eng.pwr.shed.any (fun x => x.sw == k)

/-- Continuous limit in mA (LSW_LIMIT.ILIM). -/
def Block.lswIlim (b : Block) (k : Nat) : Nat := b.fld .LSW_LIMIT k 6 0 * 100

/-- Inrush limit in mA (LSW_LIMIT.IR_LIM). -/
def Block.lswIrLim (b : Block) (k : Nat) : Nat := b.fld .LSW_LIMIT k 31 24 * 100

/-- The pair sensor is above PAIR_T (R326). -/
def Block.pairHot (b : Block) (k : Nat) : Bool :=
  (b.fld .LSW_PAIR_CFG 0 7 0 * 10 : Nat) < (b.sw k).tpair

/-- A start of the switch would have an inrush window (R321). -/
def Block.hasWindow (b : Block) (k : Nat) : Bool :=
  b.fld .LSW_LIMIT k 22 14 != 0 && !b.pairHot k

/-- The start charge in mA: the limit that will be in force at the start (R301). -/
def Block.startCharge (b : Block) (k : Nat) : Nat :=
  if b.hasWindow k then b.lswIrLim k else b.lswIlim k

/-- The duty of a period in 0.1 % (R324). -/
def lswDuty (comp : Bool) (base vnom vpwrMv : Nat) : Nat :=
  if comp then
    (if vpwrMv = 0 then 1000
     else min 1000 (divRound ((base * (vnom * 100) * (vnom * 100) : Nat) : Int)
                     ((vpwrMv * vpwrMv : Nat) : Int)).toNat)
  else min 1000 base

/-! ### PWM (R324) -/

/-- The committed settings of a load switch. -/
def Block.lswWords (b : Block) (k : Nat) : LswSet :=
  { cfg := b.word .LSW_CFG k 0, limit := b.word .LSW_LIMIT k 0, prot := b.word .LSW_PROT k 0
    comp := b.word .LSW_COMP k 0 }

/-- The number of the period at device time `dev` ns: periods are whole ones of device time (R324). -/
def LswSet.period (x : LswSet) (dev : Nat) : Nat := dev * bits x.cfg 26 16 / 1000000000

/-- The limits of the settings in mA. -/
def LswSet.ilim (x : LswSet) : Nat := bits x.limit 6 0 * 100
def LswSet.irLim (x : LswSet) : Nat := bits x.limit 31 24 * 100

/-- The duty that a period begun now has (R324), full under a hold (R327). -/
def Lsw.dutyNow (s : Lsw) (vpwrMv : Nat) : Nat :=
  if s.held then 1000 else lswDuty (s.set.cfg.getLsbD 0) s.duty (bits s.set.comp 8 0) vpwrMv

/-- A period start that has passed by the instant `at_`: the switch takes up the committed settings (R330) and, where
    it conducts, the duty of the new period (R324). One that is off keeps the duty of its last period. -/
def Block.lswRoll (b : Block) (k : Nat) (at_ : Nat) : Block :=
  let dev := b.devNow at_
  if (b.sw k).set.period dev = (b.sw k).period then b
  else
    let set := b.lswWords k
    b.modSw k (fun s =>
      let t : Lsw := { s with set := set, period := set.period dev }
      if !t.conducts then t
      else { t with
        dPrev := s.d, d := t.dutyNow b.eng.pwr.latch.vpwr
        limitMa := if s.seq = .on then set.ilim else if s.seq = .inrush then set.irLim else s.limitMa })

/-- Every switch brought up to the instant `at_`. -/
def Block.lswRollAll (b : Block) (at_ : Nat) : Block := (List.range 16).foldl (fun acc k => acc.lswRoll k at_) b

/-- The output of a load switch `at_` ns after the Tick edge (R324): channel `k` switches on k / 16 of the period after
    its start, for the duty's share of it; no pulse below 20 us, no gap below 20 us; without VPWR none (R489). -/
def Block.lswOut (b : Block) (k : Nat) (at_ : Nat) : Bool :=
  let s := (b.lswRoll k at_).sw k
  let f := bits s.set.cfg 26 16
  let phase := b.devNow at_ * f * 16 % 16000000000
  let begun := Nat.ble (k * 1000000000) phase
  let d := if begun then s.d else s.dPrev
  let on := (phase + 16000000000 - k * 1000000000) % 16000000000
  s.conducts && b.stagesOn
    && (s.held || (!Nat.blt (d * 50) f && (Nat.blt ((1000 - d) * 50) f || Nat.blt on (d * 16000000))))

/-- A start the arbiter has admitted (R321, R325, R326): it takes up the committed settings. Until the next period
    start the duty is that of a period begun at the start (log entry 82). -/
def Block.lswStart (b : Block) (k : Nat) (at_ : Nat) : Block :=
  let s := b.sw k
  let window := b.hasWindow k
  let cut := b.fld .LSW_LIMIT k 22 14 != 0 && b.pairHot k
  let b1 := b.modSw k (fun s => { s with
    seq := if window then .inrush else .on
    limitMa := if window then b.lswIrLim k else b.lswIlim k
    set := b.lswWords k, period := (b.lswWords k).period (b.devNow at_)
    d := { s with set := b.lswWords k }.dutyNow b.eng.pwr.latch.vpwr
    dPrev := { s with set := b.lswWords k }.dutyNow b.eng.pwr.latch.vpwr
    cut := cut, queued := false, want := false, retry := false, since := b.now at_ })
  let b2 := b1.count .LSW_CNT k 15 0
  let b3 := if s.retry then b2.count .LSW_CNT k 23 16 else b2
  if cut then (b3.count .LSW_CNT k 31 24).raiseItems 83 1 0 [unitLsw k] at_ else b3

/-- A start abandoned after WAIT: the switch stays off, its bit in PWRB_DENIED is set (R302). -/
def Block.lswAbandon (b : Block) (k : Nat) (at_ : Nat) : Block :=
  let b1 := b.modSw k (fun s => { s with want := false, retry := false })
  let b2 := b1.modPwr (fun p => { p with waits := p.waits.filter (fun w => w.sw != k) })
  (b2.latch .PWRB_DENIED 0 k).raiseItems 2 1 0 [unitLsw k] at_

/-- The switch asks for a start and may start as far as it is concerned. -/
def Block.lswReady (b : Block) (k : Nat) : Bool :=
  let s := b.sw k
  s.want && s.seq == .quiet && s.asksOn && !s.held && b.runs (unitLsw k) && !b.isShed k
    && b.vpwrPresent

/-- A start asked for during the Tick: admitted when its charge fits the allowance still unused,
    otherwise it waits, or with WAIT = 0 is abandoned (R301, R302). -/
def Block.lswAdmit (b : Block) (k : Nat) (at_ : Nat) : Block :=
  if !b.lswReady k || b.eng.pwr.waits.any (fun w => w.sw == k) then b
  else if (b.startCharge k * 1000 : Nat) ≤ b.eng.pwr.allowance then
    let c := b.startCharge k * 1000
    (b.lswStart k at_).modPwr (fun p => { p with allowance := p.allowance - c })
  else if b.fld .PWRB_GRANT 0 31 16 = 0 then b.lswAbandon k at_
  else b.modPwr (fun p => { p with waits := p.waits ++ [{ sw := k, since := b.now at_ }] })

/-- The switch goes off through DEMAG when it conducts; a queued or waiting start is withdrawn and
    its shed bit clears (R304, R321, R322). -/
def Block.lswOff (b : Block) (k : Nat) (at_ : Nat) : Block :=
  let s := b.sw k
  let b1 := b.modSw k (fun s => { s with
    seq := if s.seq = .inrush ∨ s.seq = .on then .demag else s.seq
    since := if s.seq = .inrush ∨ s.seq = .on then b.now at_ else s.since
    queued := false, want := false, retry := false })
  if s.seq = .fault then b
  else b1.modPwr (fun p => { p with
    waits := p.waits.filter (fun w => w.sw != k), shed := p.shed.filter (fun x => x.sw != k) })

/-- What the switch does about its standing command while its unit is ACTIVE or SERVICE: an on
    request starts from QUIET and is queued in DEMAG and COOL, any other is an off request. A start
    after RETRY or shedding is left to those (R304, R321, R322). -/
def Block.lswFollow (b : Block) (k : Nat) (at_ : Nat) : Block :=
  let s := b.sw k
  if !b.runs (unitLsw k) then b
  else if s.asksOn then
    if b.isShed k then b
    else
      match s.seq with
      | .quiet => b.modSw k (fun s => { s with want := true })
      | .demag => b.modSw k (fun s => { s with queued := true })
      | .cool => b.modSw k (fun s => { s with queued := true })
      | _ => b
  else b.lswOff k at_

/-- The standing command set: by a committed LSW_CTRL, or by a lane action at delivery (R323). -/
def Block.lswCommand (b : Block) (k : Nat) (on : Bool) (duty : Nat) (at_ : Nat) : Block :=
  ((b.lswRoll k at_).modSw k (fun s => { s with on := on, duty := duty })).lswFollow k at_

/-- A switch whose unit has changed state at a COMMIT (R321, R323, R327). -/
def Block.lswUnitChange (b : Block) (k : Nat) (old new : UnitState) (at_ : Nat) : Block :=
  let enters := (new = .active ∨ new = .service) ∧ old ≠ .active ∧ old ≠ .service
  let b1 := if old = .faulted ∧ new ≠ .faulted then
      b.modSw k (fun s => if s.seq = .fault then { s with seq := .quiet, since := b.now at_ } else s)
    else b
  if new = .faulted then
    (b1.modSw k (fun s => { s with seq := .fault, held := false, queued := false, want := false,
                                   since := b.now at_ })).modPwr (fun p => { p with
      waits := p.waits.filter (fun w => w.sw != k), shed := p.shed.filter (fun x => x.sw != k) })
  else if enters then
    let s := b1.sw k
    if s.held then
      let b2 := b1.modSw k (fun s => { s with held := false, seq := .on, limitMa := b.lswIlim k })
      if s.asksOn then b2 else b2.lswOff k at_
    else b1.lswFollow k at_
  else if new = .standby ∨ new = .fenced then b1.lswOff k at_
  else b1

/-- The switch enters FAULT on a trip: its unit is FAULTED at the next COMMIT (R325). -/
def Block.lswFault (b : Block) (k flag : Nat) (at_ : Nat) : Block :=
  let b1 := b.modSw k (fun s => { s with seq := .fault, held := false, queued := false,
                                         want := false, since := b.now at_ })
  let b2 := b1.modPwr (fun p => { p with
    waits := p.waits.filter (fun w => w.sw != k), shed := p.shed.filter (fun x => x.sw != k) })
  ((b2.latch .LSW_FLT k flag).faultUnit (unitLsw k) at_).raiseItems 80 1 0 [unitLsw k] at_

/-- A trip of the switch is retried: under RETRY, while TRIPS is below RETRY_N; a held switch never is
    (R325, R327). -/
def Block.lswRetries (b : Block) (k : Nat) : Bool :=
  (b.sw k).set.cfg.getLsbD 1 && decide ((b.sw k).trips < bits (b.sw k).set.prot 23 20) && !(b.sw k).held

/-- Overcurrent and over-temperature are acted on: the switch conducts, or it is in DEMAG with no retry
    left (R321; in COOL the trip that led there stands, log entry 56). -/
def Block.lswTrips (b : Block) (k : Nat) : Bool :=
  (b.sw k).conducts || ((b.sw k).seq == .demag && !b.lswRetries k)

/-- An overcurrent or thermal trip: COOL while it is retried, otherwise FAULT (R325). -/
def Block.lswTrip (b : Block) (k flag : Nat) (at_ : Nat) : Block :=
  if b.lswRetries k then
    let b1 := b.modSw k (fun s => { s with seq := .cool, trips := s.trips + 1, since := b.now at_ })
    let b2 := b1.latch .LSW_FLT k flag
    let p := payB 0 96 [unitLsw k]
    b2.raiseLimited 81 1 p at_
  else b.lswFault k flag at_

/-! ### The commands of the load switches -/

/-- LOAD_START_REQUEST (R301). -/
def execLoadStartRequest (k : Fin 16) (at_ : Nat) : State → Host.Outcome State Fault Refusal :=
  lift (fun b => b.lswAdmit k at_)

/-- GRANT_WAIT_TIMEOUT (R302): a start that has waited longer than WAIT is abandoned. -/
def execGrantWaitTimeout (k : Fin 16) (at_ : Nat) : State → Host.Outcome State Fault Refusal :=
  lift (fun b =>
    if b.eng.pwr.waits.any (fun w =>
        w.sw == k.val && decide (b.fld .PWRB_GRANT 0 31 16 * 1000000 < b.now at_ - w.since)) then
      b.lswAbandon k at_
    else b)

/-- INRUSH_WINDOW_END (R321): IR_T has elapsed since the start. -/
def execInrushWindowEnd (k : Fin 16) (at_ : Nat) : State → Host.Outcome State Fault Refusal :=
  lift (fun b =>
    let b := b.lswRoll k at_
    let s := b.sw k
    if s.seq = .inrush ∧ bits s.set.limit 22 14 * 1000000 ≤ b.now at_ - s.since then
      b.modSw k (fun s => { s with seq := .on, limitMa := s.set.ilim, since := b.now at_ })
    else b)

/-- The window of one channel cut by the pair sensor (R326). -/
def Block.lswCut (b : Block) (k : Nat) (at_ : Nat) : Block :=
  if (b.sw k).seq = .inrush then
    ((b.modSw k (fun s => { s with seq := .on, limitMa := s.set.ilim, cut := true,
                                   since := b.now at_ })).count
      .LSW_CNT k 31 24).raiseItems 83 1 0 [unitLsw k] at_
  else b

/-- INRUSH_CUT (R326): the sensor of pair `m` reads `temp` (0.1 degree C). -/
def execInrushCut (m : Fin 8) (temp : Int) (at_ : Nat) : State → Host.Outcome State Fault Refusal :=
  lift (fun b =>
    let k := 2 * m.val
    let b1 := (b.modSw k (fun s => { s with tpair := temp })).modSw (k + 1)
                (fun s => { s with tpair := temp })
    if (b.fld .LSW_PAIR_CFG 0 7 0 * 10 : Nat) < temp then
      (((b1.lswRoll k at_).lswRoll (k + 1) at_).lswCut k at_).lswCut (k + 1) at_
    else b1)

/-- LS_OVERCURRENT (R325): `ma` above the limit in force for `ns`. -/
def execLsOvercurrent (k : Fin 16) (ma ns : Nat) (at_ : Nat) :
    State → Host.Outcome State Fault Refusal :=
  lift (fun b =>
    let b := b.lswRoll k at_
    let s := b.sw k
    if b.lswTrips k ∧ s.limitMa < ma ∧ bits s.set.prot 19 16 * 1000 ≤ ns then b.lswTrip k 1 at_
    else b)

/-- LS_SHORT (R325): current at the internal clamp, 25 A or more (R320), for 2 us, in any state in which the
    switch conducts or is being shut down (R321). -/
def execLsShort (k : Fin 16) (ma ns : Nat) (at_ : Nat) : State → Host.Outcome State Fault Refusal :=
  lift (fun b =>
    if ((b.sw k).conducts ∨ (b.sw k).seq = .demag ∨ (b.sw k).seq = .cool) ∧ 25000 ≤ ma ∧ 2000 ≤ ns then b.lswFault k 0 at_ else b)

/-- LS_THERMAL (R325): the channel junction above 170 degree C. -/
def execLsThermal (k : Fin 16) (tj : Int) (at_ : Nat) : State → Host.Outcome State Fault Refusal :=
  lift (fun b =>
    let b1 := (b.lswRoll k at_).modSw k (fun s => { s with tj := tj })
    if b1.lswTrips k ∧ 1700 < tj then b1.lswTrip k 2 at_ else b1)

/-- LS_OPEN_LOAD_ON (R325): current below OL_I on every on-interval for 100 ms at 10 % or more;
    suspended without VPWR (R489) and under a hold (R327). -/
def execLsOpenLoadOn (k : Fin 16) (ma ns : Nat) (at_ : Nat) :
    State → Host.Outcome State Fault Refusal :=
  lift (fun b =>
    let b := b.lswRoll k at_
    let s := b.sw k
    if s.conducts ∧ !s.held ∧ 100 ≤ s.d ∧ ma < bits s.set.prot 8 0 * 2 ∧ 100000000 ≤ ns ∧ b.vpwrPresent then
      if s.set.cfg.getLsbD 2 then (b.lswFault k 3 at_).raiseItems 82 1 0 [unitLsw k] at_
      else (b.latch .LSW_FLT k 3).raiseItems 82 1 0 [unitLsw k] at_
    else b)

/-- LS_OFF_STATE_TEST (R325): with the pull-up the output stayed at `pulledMv` for `pulledNs`,
    without it at `freeMv`; suspended without VPWR (R489). -/
def execLsOffStateTest (k : Fin 16) (pulledMv pulledNs freeMv : Nat) (at_ : Nat) :
    State → Host.Outcome State Fault Refusal :=
  lift (fun b =>
    if (b.sw k).seq = .quiet ∧ !(b.sw k).held ∧ b.vpwrPresent then
      let openLoad : Bool := 3000 < pulledMv && 10000000 ≤ pulledNs
      let shortBat : Bool := 6000 < freeMv
      let b1 := if openLoad then b.latch .LSW_FLT k 3 else b
      let b2 := if shortBat then b1.latch .LSW_FLT k 4 else b1
      if openLoad || shortBat then b2.raiseItems 82 1 0 [unitLsw k] at_ else b2
    else b)

/-- LS_DEMAG_DONE (R321): current below 20 mA. -/
def execLsDemagDone (k : Fin 16) (ma : Nat) (at_ : Nat) : State → Host.Outcome State Fault Refusal :=
  lift (fun b =>
    if (b.sw k).seq = .demag ∧ ma < 20 then
      b.modSw k (fun s => { s with seq := .quiet, since := b.now at_ })
    else b)

/-- LS_RETRY_DELAY_END (R321, R325): RETRY_T elapsed, current below 20 mA, junction below
    140 degree C; then a retry start when the standing command is on. -/
def execLsRetryDelayEnd (k : Fin 16) (ma : Nat) (tj : Int) (at_ : Nat) :
    State → Host.Outcome State Fault Refusal :=
  lift (fun b =>
    let b := b.lswRoll k at_
    let s := b.sw k
    if s.seq = .cool ∧ bits s.set.prot 31 24 * 10000000 ≤ b.now at_ - s.since ∧ ma < 20
        ∧ tj < 1400 then
      let b1 := b.modSw k (fun s => { s with seq := .quiet, since := b.now at_, tj := tj })
      if s.asksOn && b.runs (unitLsw k) then
        (b1.modSw k (fun s => { s with want := true, retry := true, queued := false })).lswAdmit k at_
      else b1
    else b)

/-- LS_TRIP_COUNT_RESET (R325): 1 s in ON without a trip. -/
def execLsTripCountReset (k : Fin 16) (at_ : Nat) : State → Host.Outcome State Fault Refusal :=
  lift (fun b =>
    let s := b.sw k
    if s.seq = .on ∧ 1000000000 ≤ b.now at_ - s.since then b.modSw k (fun s => { s with trips := 0 })
    else b)

end Sys2Proof.Machine
end

