-- ==== Sys2Proof/Machine/Tick.lean ====
section
/-! DEFINITION. The time base (02): the servo that disciplines the Tick, CLOCK_SET, leap seconds and
    the real-time clock. -/

namespace Sys2Proof.Machine

open Sys2Proof (Word Sess Hdr Instr)

/-- The block with the time base replaced by its image. -/
def Block.modTime (b : Block) (f : Time → Time) : Block := { b with time := f b.time }

/-- TICK_CTRL.SRC as committed (R50). -/
def Block.timeSource (b : Block) : Nat := b.fld .TICK_CTRL 0 2 0

/-- The code of a servo state (TICK_STATUS.SERVO). -/
def Servo.code : Servo → Nat
  | .free => 0
  | .acquiring => 1
  | .locked => 2
  | .holdover => 3

/-- A change of servo state, with its event (R54). -/
def Block.servoTo (b : Block) (s : Servo) (at_ : Nat) : Block :=
  if b.time.servo = s then b
  else
    (b.modTime (fun t => { t with servo := s, near := 0, far := 0 })).raise 114 1
      (payS (s.code + b.timeSource * 256)) at_

/-- The entry to ACQUIRING on a measurement: whole Ticks of the offset are stepped at the next edge,
    the rest is left to the slew (R52, R53). -/
def Block.acquire (b : Block) (offset : Int) (at_ : Nat) : Block :=
  let n := if b.timeSource = 2 then 0 else divRound offset tickNs
  let rest := offset - n * tickNs
  (b.servoTo .acquiring at_).modTime (fun t => { t with
    stepDue := t.stepDue - n, residual := rest, phaseErr := rest })

/-- A valid measurement of the time source in force: `offset` is device time less source time, in ns
    (R50, R52). -/
def Block.measure (b : Block) (offset : Int) (at_ : Nat) : Block :=
  let b0 := b.modTime (fun t => { t with
    lastMeas := b.now at_
    freqHist := lastN 16 (t.freqHist ++ [t.freq])
    phaseErr := clampInt (-2147483647) 2147483647 offset
    residual := offset
    near := if offset.natAbs ≤ 1000 then t.near + 1 else 0
    far := if 10000 < offset.natAbs then t.far + 1 else 0 })
  match b.time.servo with
  | .free => b0.acquire offset at_
  | .holdover => b0.acquire offset at_
  | .acquiring => if 16 ≤ b0.time.near ∧ !b0.time.sat then b0.servoTo .locked at_ else b0
  | .locked => if 4 ≤ b0.time.far then b0.acquire offset at_ else b0

/-- The servo when the committed source changes (R52). -/
def Block.followSource (b : Block) (at_ : Nat) : Block :=
  if b.timeSource = b.time.src then b
  else
    let b1 := b.servoTo .free at_
    b1.modTime (fun t => { t with
      src := b.timeSource, freqHist := [], residual := 0, sat := false
      freq := if b.timeSource = 0 then 0 else t.freq })

/-- The mean of the last corrections (R52). -/
def meanOf (l : List Int) : Int := if l.isEmpty then 0 else divRound l.sum l.length

/-- The servo's correction in one Tick, in ns, never beyond 20 (R51): in ACQUIRING a part of what is left of
    the offset, in LOCKED what the control law asks for; the law is not in the specification, so both
    take the free value `free` (log entry 22). -/
def Time.correction (t : Time) (free : Nat) : Int :=
  match t.servo with
  | .acquiring => clampInt (-(free % 21 : Nat)) (free % 21 : Nat) (-t.residual)
  | .locked => (free % 41 : Nat) - 20
  | .free => divRound t.freq 10000
  | .holdover => divRound t.freq 10000

/-- One Tick of the servo: the correction is taken off the offset and shown as frequency; FREQ_SAT
    while the correction is at its limit (R51, R69). An edge of DOZE counts as one Tick here (log entry 74). -/
def Time.servoTick (t : Time) (free : Nat) : Time :=
  let c := t.correction free
  match t.servo with
  | .acquiring => { t with residual := t.residual + c, freq := c * 10000, sat := c.natAbs == 20 }
  | .locked => { t with residual := t.residual + c, freq := c * 10000, sat := c.natAbs == 20 }
  | _ => { t with sat := t.freq.natAbs == 200000 }

/-- The shorter way round from `ofs` to `want`, modulo one Tick (R39). -/
def shortWay (ofs want : Nat) : Int :=
  let d : Int := (want : Int) - ofs
  if 50000 < d then d - 100000 else if d < -50000 then d + 100000 else d

/-- The move of the effective Tick offset in one Tick: the part of 20 ns that the servo leaves
    free, none while FREQ_SAT (R39); an edge of DOZE counts as one Tick here (log entry 74). -/
def Time.offsetTick (t : Time) (want : Nat) : Time :=
  let room : Int := if t.sat then 0 else 20 - ((divRound t.freq 10000).natAbs : Int)
  let step := clampInt (-room) room (shortWay t.ofsEff want)
  let ofs := narrow 64 (((t.ofsEff : Int) + step) % 100000)
  { t with ofsEff := ofs, ofsSlew := ofs != want }

/-- OFS_SLEW from the COMMIT that applies a change of TICK_OFS on: the effective offset has not reached
    it (R39). -/
def Block.offsetCommit (b : Block) : Block :=
  b.modTime (fun t => { t with ofsSlew := t.ofsEff != b.fld .TICK_OFS 0 13 0 * 10 })

/-- The first instant of device time not before `from_` at which device time less the offset is a
    whole multiple of the Tick (R38). -/
def edgeFrom (from_ ofs : Nat) : Nat :=
  from_ + (tickNs - (from_ + tickNs - ofs % tickNs) % tickNs) % tickNs

/-- Stamp seconds of device time `t`, not reduced (R58). -/
def stampSeconds (t : Nat) (taiUtc : Int) : Int := (t / 1000000000 : Nat) - taiUtc - 946684800

/-- The second at which a pending leap applies (R64): S for an insertion, S - 1 for a deletion. -/
def Leap.threshold (l : Leap) : Int := if l.insert then l.at_ else (l.at_ : Int) - 1

/-- A pending leap applied at the edge that would first give its second (R64). -/
def Time.leapTick (t : Time) : Time :=
  match t.leap with
  | none => t
  | some l =>
    if l.threshold ≤ stampSeconds t.dev t.taiUtc then
      { t with taiUtc := if l.insert then t.taiUtc + 1 else t.taiUtc - 1, leap := none }
    else t

/-! ### The real-time clock -/

/-- The clock brought up to the instant `now` on the model's clock (R65). -/
def Rtc.upTo (r : Rtc) (now : Nat) : Rtc :=
  if r.running then
    let ns := r.sub * 1000000000 / 32768 + (now - r.since)
    { r with sec := (r.sec + ns / 1000000000) % 2 ^ 34, sub := ns % 1000000000 * 32768 / 1000000000,
             since := now }
  else r

/-- The clock written from device time `dev` at the instant `now` (R62, R66); a clock that VBAK has
    stopped stays stopped until the next start (R67). -/
def Rtc.write (r : Rtc) (dev now : Nat) (taiUtc : Int) (valid : Bool) : Rtc :=
  if !r.running then r
  else
  { r with sec := narrow 34 (stampSeconds dev taiUtc), sub := dev % 1000000000 * 32768 / 1000000000,
           taiUtc := taiUtc, valid := valid, since := now }

/-- Device time rebuilt from the real-time clock (R68). -/
def Rtc.deviceTime (r : Rtc) : Nat :=
  let s : Int := if r.sec < 2 ^ 33 then r.sec else (r.sec : Int) - 2 ^ 34
  ((s + 946684800 + r.taiUtc) * 1000000000).toNat + r.sub * 1000000000 / 32768

/-- The clock written at the instant `at_`, where it keeps running (R66). -/
def Block.rtcWrite (b : Block) (at_ : Nat) (valid : Bool) : Block :=
  b.modTime (fun t => { t with rtc := t.rtc.write (t.dev + at_) (t.now + at_) t.taiUtc valid })

/-! ### A Tick edge -/

/-- The time base at the next Tick edge, `ticks` nominal Ticks on (R38 to R42, R58, R64). -/
def Time.edge (t : Time) (wantOfs ticks free : Nat) : Time :=
  let t1 := (t.servoTick free).offsetTick wantOfs
  let start := if t.rebuilt then t.dev else t.dev + ticks * tickNs - tickNs / 2
  let dev := edgeFrom start t1.ofsEff
  let stepped := ((dev : Int) + t1.stepDue * tickNs).toNat
  let t2 := ({ t1 with dev := stepped, stepDue := 0, rebuilt := false, now := t.now + (dev - t.dev),
                       count := if t.first then 0 else t.count + BitVec.ofNat 32 ticks,
                       first := false, dozing := false, closed := false, hand := 0, finished := false
                       lastEnd := t.thisEnd, thisEnd := 1023 }).leapTick
  { t2 with stamp := stampOf t2.dev t2.taiUtc }

/-- The clock work of a Tick edge: the time base moves on, a step of device time raises its event
    (R54), an applied SET writes the real-time clock at a whole second (R62). -/
def Block.timeEdge (b : Block) (ticks : Nat) : Block :=
  let step := b.time.stepDue
  let (free, b0) := if b.time.servo = .acquiring ∨ b.time.servo = .locked then b.draw else (0, b)
  let b1 := b0.modTime (fun t => t.edge (b.fld .TICK_OFS 0 13 0 * 10) ticks free)
  let b2 := if step = 0 then b1 else b1.raise 115 1 (payS (narrow 32 step))
  if b2.time.rtcDue ∧ b.time.dev / 1000000000 < b2.time.dev / 1000000000 then
    (b2.rtcWrite 0 b2.time.rtc.valid).modTime (fun t => { t with rtcDue := false })
  else b2

/-! ### CLOCK_SET (R61 to R64) -/

/-- The servo follows a source that owns device time (R62); a source just committed in place of another
    one finds the servo in FREE (R52). -/
def Block.sourceOwnsTime (b : Block) : Bool :=
  b.time.servo != .free && b.timeSource == b.time.src && (b.timeSource == 1 || b.timeSource == 3)

/-- A SET applied at its COMMIT (R62, R64). -/
def Block.clockSet (b : Block) (arrived : Nat) (tai : Int) (seconds nanos : Nat) : Block :=
  let s : Int := if seconds < 2 ^ 33 then seconds else (seconds : Int) - 2 ^ 34
  let keep (l : Leap) : Option Leap := if l.threshold ≤ s then none else some l
  let b1 := b.modTime (fun t => { t with
    taiUtc := tai, utcValid := true, rtcDue := true, leap := t.leap.bind keep
    rtc := { t.rtc with valid := t.rtc.running } })
  if b.sourceOwnsTime then b1
  else
    let want : Int := (s + 946684800 + tai) * 1000000000 + nanos
    let have_ : Int := (b.time.dev : Int) - ((b.time.now : Int) - arrived)
    let n := divRound (want - have_) tickNs
    if n = 0 then b1
    else
      (b1.modTime (fun t => { t with dev := ((t.dev : Int) + n * tickNs).toNat })).raise 115 1
        (payS (narrow 32 n)) 72000

/-- The row of CLOCK_SET (R357). -/
def clockSetRow : OpRow := opRow 0x0060 16

/-- Dispatch of a SET: refused with RANGE by R62, otherwise applied at the next COMMIT. -/
def dispatchClockSet (h : Hdr) (tai : BitVec 16) (seconds : BitVec 64) (nanos : Word) (i : Instr) :
    Dispatch := fun k seq arrived b =>
  if 2 ^ 34 ≤ seconds.toNat ∨ 999999999 < nanos.toNat ∨ signed 16 tai.toNat < 0
      ∨ 100 < signed 16 tai.toNat then
    b.replyNow (some k) h clockSetRow.code .range
  else b.posts seq arrived k h clockSetRow.code i

/-- The pending leap of a leap kind is refused with RANGE (R63). -/
def Block.leapRefused (b : Block) (seconds : Nat) : Bool :=
  seconds % 86400 != 0 || decide ((seconds : Int) ≤ stampSeconds b.time.dev b.time.taiUtc)
    || decide (2 ^ 32 ≤ seconds)

/-- Dispatch of a leap kind: the pending leap second is set (R63), at the next COMMIT like every
    CLOCK_SET (R347). -/
def dispatchLeap (h : Hdr) (seconds : BitVec 64) (i : Instr) : Dispatch :=
  fun k seq arrived b =>
    if b.leapRefused seconds.toNat then b.replyNow (some k) h clockSetRow.code .range
    else b.posts seq arrived k h clockSetRow.code i

/-- Dispatch of LEAP_CANCEL (R63). -/
def dispatchLeapCancel (h : Hdr) (i : Instr) : Dispatch :=
  fun k seq arrived b => b.posts seq arrived k h clockSetRow.code i

/-- CLOCK_SET of kind SET (R61, R62). -/
def execClockSetSet (h : Hdr) (tai : BitVec 16) (seconds : BitVec 64) (nanos : Word) :
    State → Host.Outcome State Fault Refusal :=
  let i : Instr := .clockSetSet h tai seconds nanos
  lift (fun b => b.request i h clockSetRow (dispatchClockSet h tai seconds nanos i))

/-- CLOCK_SET of kind LEAP_INSERT (R63). -/
def execClockSetLeapInsert (h : Hdr) (seconds : BitVec 64) :
    State → Host.Outcome State Fault Refusal :=
  let i : Instr := .clockSetLeapInsert h seconds
  lift (fun b => b.request i h clockSetRow (dispatchLeap h seconds i))

/-- CLOCK_SET of kind LEAP_DELETE (R63). -/
def execClockSetLeapDelete (h : Hdr) (seconds : BitVec 64) :
    State → Host.Outcome State Fault Refusal :=
  let i : Instr := .clockSetLeapDelete h seconds
  lift (fun b => b.request i h clockSetRow (dispatchLeap h seconds i))

/-- CLOCK_SET of kind LEAP_CANCEL (R63). -/
def execClockSetLeapCancel (h : Hdr) : State → Host.Outcome State Fault Refusal :=
  let i : Instr := .clockSetLeapCancel h
  lift (fun b => b.request i h clockSetRow (dispatchLeapCancel h i))

/-! ### The events of the time base -/

/-- The servo runs: the Tick runs (R42). -/
def Block.ticking (b : Block) : Bool :=
  match b.eng.pwr.state with
  | .active => true
  | .idle => true
  | .doze => true
  | _ => false

/-- The level of SYNC_OUT at the instant `at_` ns after the Tick edge; none while it drives nothing (R57,
    R505). -/
def Block.syncOut (b : Block) (at_ : Nat) : Option Bool :=
  if !b.ticking || b.vig.starting then none
  else
    match b.fld .TICK_CTRL 0 7 6 with
    | 1 => some (decide (at_ < 1000))
    | 2 => some (decide (b.devNow at_ % 1000000000 < 100000000))
    | _ => some false

/-- The time-aware relay (R55, R335): with RELAY_EN a Sync from ETH_A goes out on an asCapable ETH_B,
    corrected for its residence in the switch, which is a free value (log entry 2), and for the link delay
    measured on ETH_B. -/
def Block.relaySync (b : Block) (at_ : Nat) : Block :=
  if b.flag .LINK_PTP_CFG 0 16 && b.link.portB.up && b.asCapable b.link.portB then
    let (residence, b1) := b.draw
    { b1 with link := { b1.link with
        relays := b1.link.relays ++ [{ at_ := b.now at_, correction := residence + b.link.portB.linkDelay }] } }
  else b

/-- AS_SYNC_RECEIVED (R50, R52, R55): `offset` is device time less the grandmaster's time, in ns. The switch
    relays the Sync whatever the servo follows. -/
def execAsSyncReceived (offset : Int) (at_ : Nat) : State → Host.Outcome State Fault Refusal :=
  lift (fun b =>
    if !b.link.portA.up || b.eng.pwr.state == .dormant then b
    else
      let b1 := b.relaySync at_
      if b1.timeSource = 1 ∧ b1.ticking then (b1.followSource at_).measure offset at_ else b1)

/-- The offset that an active edge of SYNC_IN gives (R50). -/
def Block.syncOffset (b : Block) (at_ : Nat) : Int :=
  let t : Int := (b.devNow at_ : Int) - b.fld .TICK_SYNC_DLY 0 15 0
  if b.timeSource = 2 then
    let p := (t - b.time.ofsEff) % 100000
    if p < 50000 then p else p - 100000
  else
    let p := t % 1000000000
    if p < 500000000 then p else p - 1000000000

/-- SYNC_IN_EDGE (R50, R53). -/
def execSyncInEdge (rising : Bool) (at_ : Nat) : State → Host.Outcome State Fault Refusal :=
  lift (fun b =>
    if (b.timeSource = 2 ∨ b.timeSource = 3) ∧ rising ≠ b.flag .TICK_CTRL 0 4 ∧ b.ticking then
      (b.followSource at_).measure (b.syncOffset at_) at_
    else b)

/-- The return to FREE at the end of HOLDOVER: the frozen correction is kept (R52). -/
def Block.holdoverEnds (b : Block) (at_ : Nat) : Block := b.servoTo .free at_

/-- TICK_LOSS_TIMEOUT (R52): no valid measurement for TICK_LOSS_TMO. With TICK_HOLD_MAX 0 HOLDOVER is entered and
    left at once (log entry 74). -/
def execTickLossTimeout (at_ : Nat) : State → Host.Outcome State Fault Refusal :=
  lift (fun b =>
    if (b.time.servo = .acquiring ∨ b.time.servo = .locked)
        ∧ b.fld .TICK_LOSS_TMO 0 13 0 * 1000000 ≤ b.now at_ - b.time.lastMeas then
      let b1 := (b.servoTo .holdover at_).modTime (fun t => { t with
        freq := meanOf t.freqHist, holdSince := b.now at_ })
      if b.fld .TICK_HOLD_MAX 0 11 0 = 0 then b1.holdoverEnds at_ else b1
    else b)

/-- HOLDOVER_LIMIT (R52): TICK_HOLD_MAX in HOLDOVER. -/
def execHoldoverLimit (at_ : Nat) : State → Host.Outcome State Fault Refusal :=
  lift (fun b =>
    if b.time.servo = .holdover
        ∧ b.fld .TICK_HOLD_MAX 0 11 0 * 1000000000 ≤ b.now at_ - b.time.holdSince then
      b.holdoverEnds at_
    else b)

/-- RTC_MINUTE_WRITE (R66): at a whole minute of device time. -/
def execRtcMinuteWrite (at_ : Nat) : State → Host.Outcome State Fault Refusal :=
  lift (fun b =>
    if b.time.utcValid ∧ b.ticking ∧ b.devNow at_ % 60000000000 = 0 then
      b.rtcWrite at_ b.time.rtc.valid
    else b)

/-- VBAK_LOW (R67): the real-time clock stops. -/
def execVbakLow : State → Host.Outcome State Fault Refusal :=
  lift (fun b => b.modTime (fun t => { t with
    rtc := { t.rtc.upTo t.now with running := false, valid := false } }))

end Sys2Proof.Machine
end

