-- ==== Sys2Proof/Machine/Feedback.lean ====
section
/-! DEFINITION. Feedback inputs, axes, serial sensor ports and speed signals (03). -/

namespace Sys2Proof.Machine

open Sys2Proof (Word Byte)

/-- Axis `a`. -/
def Block.axis (b : Block) (a : Nat) : Axis := nth b.eng.fb.axes a {}

/-- The block with the feedback group replaced by its image. -/
def Block.modFb (b : Block) (f : Feedback → Feedback) : Block :=
  { b with eng := { b.eng with fb := f b.eng.fb } }

/-- The block with axis `a` replaced by its image. -/
def Block.modAxis (b : Block) (a : Nat) (f : Axis → Axis) : Block :=
  b.modFb (fun x => { x with axes := modNth x.axes a f })

/-- Serial port `p`. -/
def Block.port (b : Block) (p : Nat) : SPort := nth b.eng.fb.ports p {}

/-- The block with serial port `p` replaced by its image. -/
def Block.modPort (b : Block) (p : Nat) (f : SPort → SPort) : Block :=
  b.modFb (fun x => { x with ports := modNth x.ports p f })

/-- AXIS_CFG.TYPE (R74). -/
def Block.axisType (b : Block) (a : Nat) : Nat := b.fld .AXIS_CFG a 3 0

/-- The inputs that AXIS_BIND names. -/
def Block.inA (b : Block) (a : Nat) : Nat := b.fld .AXIS_BIND a 5 0
def Block.inB (b : Block) (a : Nat) : Nat := b.fld .AXIS_BIND a 13 8
def Block.inC (b : Block) (a : Nat) : Nat := b.fld .AXIS_BIND a 21 16
def Block.inZ (b : Block) (a : Nat) : Nat := b.fld .AXIS_BIND a 29 24

/-- The axis is rotary (R83). -/
def Block.rotary (b : Block) (a : Nat) : Bool := b.flag .AXIS_CFG a 4

/-- AXIS_CPR. -/
def Block.cpr (b : Block) (a : Nat) : Nat := b.fld .AXIS_CPR a 30 0

/-- The restart of an axis (R77). -/
def axisRestart (_ : Axis) : Axis := {}

/-! ### Counting (R78 to R91) -/

/-- The consumers of an axis read its counts: ACTIVE, FENCED or SERVICE (R93). -/
def Block.axisRead (b : Block) (a : Nat) : Bool :=
  match (b.unit (unitAxis a)).state with
  | .active => true
  | .fenced => true
  | .service => true
  | _ => false

/-- A divider takes `n` counts: a pulse of `width` ns from the instant `now` for every `div` of them. -/
def PtPort.take (q : PtPort) (n div width now : Nat) : PtPort :=
  if q.count + n < div then { q with count := q.count + n }
  else { count := (q.count + n) % div, pulses := q.pulses + (q.count + n) / div, pulseEnd := now + width }

/-- The accepted counts of an axis advance the dividers that follow it (R93, R102). -/
def Block.divideCount (b : Block) (a n : Nat) (at_ : Nat) : Block :=
  b.modFb (fun x => { x with pts := x.pts.mapIdx (fun p q =>
    if n ≠ 0 ∧ b.axisRead a = true ∧ b.fld .PT_CFG p 1 0 = 2 ∧ b.fld .PT_CFG p 13 8 = a then
      q.take n (b.fld .PT_CFG p 31 24) (b.fld .PT_CFG p 23 16 * 100) (b.now at_)
    else q) })

/-- The position moved by one count: saturating on a linear axis, wrapping with AXIS_REV on a rotary
    one (R82, R83). The answer says whether a limit discarded the count: one that would take the position past
    a limit, or further out where it lies outside already; a count back takes effect at once. -/
def axisMove (rotary : Bool) (cpr : Nat) (lo hi : Int) (x : Axis) (d : Int) : Axis × Bool :=
  if rotary then
    let p := x.pos + d
    if p < 0 then ({ x with pos := p + cpr, rev := x.rev - 1 }, false)
    else if (cpr : Int) ≤ p then ({ x with pos := p - cpr, rev := x.rev + 1 }, false)
    else ({ x with pos := p }, false)
  else
    let p := x.pos + d
    if d < 0 ∧ p < lo then ({ x with atLo := true }, true)
    else if 0 < d ∧ hi < p then ({ x with atHi := true }, true)
    else ({ x with pos := p, atLo := false, atHi := false }, false)

/-- A movement of the position recorded for the axis-referenced compare lanes (R185). -/
def Axis.stepped (x : Axis) (from_ d : Int) (now : Nat) : Axis :=
  if d = 0 then x
  else { x with
    steps := x.steps ++ [{ no := x.stepNo + 1, at_ := now, from_ := from_, to_ := from_ + d }]
    stepNo := x.stepNo + 1 }

/-- One count applied to the position of axis `a`, with its limit event, its INDEX_LOST check and
    the dividers (R82, R83, R88, R102). -/
def Block.moveAxis (b : Block) (a : Nat) (forward : Bool) (at_ : Nat) : Block :=
  let d : Int := if forward then 1 else -1
  let r := axisMove (b.rotary a) (b.cpr a) (b.sfld .AXIS_LIM_LO a 31 0) (b.sfld .AXIS_LIM_HI a 31 0)
             (b.axis a) d
  let travel := (b.axis a).travel + d
  let y : Axis := { r.1 with travel := travel }
  let b1 := (b.modAxis a (fun x => if r.2 then y else y.stepped x.pos d (b.now at_))).divideCount a 1 at_
  let b2 := if r.2 then
      (b1.count .AXIS_ERR_CNT a 31 24).raiseItems 33 1 0 [unitAxis a] at_
    else b1
  let checks := b.rotary a && b.flag .AXIS_CFG a 12 && b.inZ a != 63
  if checks && !(b.axis a).indexLost && decide (3 * b.cpr a < 2 * travel.natAbs) then
    let b3 := (b2.modAxis a (fun x => { x with indexLost := true })).raiseItems 36 1 0
                [unitAxis a] at_
    if b.fld .AXIS_CFG a 14 13 = 2 then b3.faultUnit (unitAxis a) at_ else b3
  else b2

/-- The edge history with a new stamp, 64 at most (R90). -/
def Axis.stampCount (x : Axis) (now : Nat) : Axis :=
  if x.stop || x.hist.isEmpty then
    { x with hist := [now], stop := false, starting := x.stop || x.starting, lastCount := now }
  else { x with hist := (now :: x.hist).take 64, starting := false, lastCount := now }

/-- One count of axis `a` (R80, R81, R91): `hyst` is the one-count direction hysteresis. -/
def Block.countAxis (b : Block) (a : Nat) (fwd hyst : Bool) (at_ : Nat) : Block :=
  let forward := fwd != b.flag .AXIS_CFG a 8
  let now := b.now at_
  let x := b.axis a
  match x.pending with
  | some (pf, ps) =>
    if forward = pf then
      let b1 := b.modAxis a (fun x => { x with
        pending := none, dir := some pf, reversing := false, starting := false, stop := false,
        hist := [now, ps], lastCount := now })
      (b1.moveAxis a forward at_).moveAxis a forward at_
    else
      b.modAxis a (fun x => { x with
        pending := none, reversing := false, starting := true, stop := false, hist := [now],
        lastCount := now })
  | none =>
    if x.dir = none ∨ x.dir = some forward then
      (b.modAxis a (fun x => { (x.stampCount now) with dir := some forward })).moveAxis a forward at_
    else if hyst then
      b.modAxis a (fun x => { x with
        pending := some (forward, now), reversing := true, stop := false, starting := false,
        hist := [now], lastCount := now })
    else
      (b.modAxis a (fun x => { x with
        dir := some forward, hist := [now], stop := false, starting := true,
        lastCount := now })).moveAxis a forward at_

/-- An illegal transition (R78, R79, R104). -/
def Block.countError (b : Block) (a : Nat) (at_ : Nat) : Block :=
  (b.count .AXIS_ERR_CNT a 7 0).raiseItems 32 1 0 [unitAxis a] at_

/-- The place of a hall code in the forward sequence 1, 3, 2, 6, 4, 5 (R79). -/
def hallPlace : Nat → Option Nat
  | 1 => some 0
  | 3 => some 1
  | 2 => some 2
  | 6 => some 3
  | 4 => some 4
  | 5 => some 5
  | _ => none

/-- The hall code that levels give for the inputs of axis `a`: H3 x 4 + H2 x 2 + H1 (R79). -/
def Block.hallCode (b : Block) (levels : BitVec 49) (a : Nat) : Nat :=
  let bit (i n : Nat) : Nat := if levels.getLsbD i then n else 0
  bit (b.inC a) 4 + bit (b.inB a) 2 + bit (b.inA a) 1

/-- A HALL axis shows code 0 or 7 (R79, R94). -/
def Block.hallInvalid (b : Block) (a : Nat) : Bool :=
  b.axisType a == 2 && (hallPlace (b.hallCode b.eng.fb.levels a)).isNone

/-- A change of hall code on axis `a` (R79), judged against the last valid code, which right after a restart is
    the code that was present. -/
def Block.hallStep (b : Block) (a before code : Nat) (at_ : Nat) : Block :=
  let last := if (b.axis a).hall = 0 then before else (b.axis a).hall
  match hallPlace code, hallPlace last with
  | none, _ =>
    ((b.modAxis a (fun x => { x with hall := if (hallPlace last).isSome then last else 0 })).count
      .AXIS_ERR_CNT a 15 8).raiseItems 32 1 0 [unitAxis a] at_
  | some _, none => b.modAxis a (fun x => { x with hall := code })
  | some p, some q =>
    let b1 := b.modAxis a (fun x => { x with hall := code })
    match (p + 6 - q) % 6 with
    | 0 => b1
    | 1 => b1.countAxis a true true at_
    | 5 => b1.countAxis a false true at_
    | 2 => (((b1.countAxis a true true at_).countAxis a true true at_)).countError a at_
    | 4 => (((b1.countAxis a false true at_).countAxis a false true at_)).countError a at_
    | _ =>
      (b1.modAxis a (fun x => { x with hist := [], starting := true })).countError a at_

/-- An accepted index edge on axis `a` (R86 to R88). -/
def Block.indexEdge (b : Block) (a : Nat) (at_ : Nat) : Block :=
  let x := b.axis a
  let cpr : Int := b.cpr a
  let idxPos := b.sfld .AXIS_IDX_POS a 31 0
  if !x.indexed then
    b.modAxis a (fun x => { x with
      pos := idxPos, referenced := true, indexed := true, travel := 0, indexLost := false })
  else
    let pend : Int := match x.pending with
      | some (f, _) => if f then 1 else -1
      | none => 0
    let e0 := (x.pos + pend - idxPos) % cpr
    let err := if e0 < cpr - cpr / 2 then e0 else e0 - cpr
    let b1 := b.modAxis a (fun x => { x with idxErr := err, travel := 0, indexLost := false })
    if b.fld .AXIS_CFG a 31 24 < err.natAbs then
      let b2 := (b1.count .AXIS_ERR_CNT a 23 16).raiseItems 38 1 0 [unitAxis a] at_
      match b.fld .AXIS_CFG a 14 13 with
      | 0 => b2.modAxis a (fun x => { x with pos := (x.pos - err) % cpr })
      | 2 => b2.faultUnit (unitAxis a) at_
      | _ => b2
    else b1

/-- The level of an input number after INV; 63 reads low (R75, FB_CFG.INV). -/
def levelOf (levels : BitVec 49) (i : Nat) : Bool := levels.getLsbD i

/-- Input `i` works as a variable-reluctance receiver (R73). -/
def Block.isVr (b : Block) (i : Nat) : Bool := decide (i < 8) && b.flag .FB_CFG i 15

/-- The glitch filter of an input, in samples of 10 ns (R72, R100). -/
def Block.filter (b : Block) (i : Nat) : Nat :=
  if i = 48 then b.fld .GSPD_CFG 0 7 0 else b.fld .FB_CFG i 23 16

/-- The level of input `i` as the axes see it (R72, R73, FB_CFG.INV): a comparator's new level is accepted once
    it has held for the filter's samples; a receiver stands low but in the sample of a cycle that counts. -/
def Block.acceptedLevel (b : Block) (old levels : BitVec 49) (held : Nat) (counts : List Nat) (i : Nat) : Bool :=
  if b.isVr i then counts.contains i
  else
    let new := levels.getLsbD i != (decide (i < 48) && b.flag .FB_CFG i 14)
    if b.filter i ≤ held then new else old.getLsbD i

/-- The accepted levels of FB00 to FB47 (bits 0 to 47) and GSPD_IN (bit 48). -/
def Block.accepted (b : Block) (old levels : BitVec 49) (held : Nat) (counts : List Nat) : BitVec 49 :=
  (List.range 49).foldl (fun acc i =>
    if b.acceptedLevel old levels held counts i then acc ||| BitVec.ofNat 49 (2 ^ i) else acc) 0

/-- The arm level of a receiver in mV: the larger of VR_MIN and VR_PCT of the previous cycle's positive peak
    (R73). -/
def Block.vrArm (b : Block) (i : Nat) : Nat :=
  max (b.fld .FB_CFG i 31 28 * 50) (b.fld .FB_CFG i 27 24 * 5 * nth b.eng.fb.vrPeak i 0 / 100)

/-- The receivers whose cycle, ending in this sample, counts: its peak rose above the arm level (R73). -/
def Block.vrCounts (b : Block) (cycles : List (Fin 8 × Nat)) : List Nat :=
  (cycles.filter (fun c => b.isVr c.1 && decide (b.vrArm c.1 < c.2))).map (·.1.val)

/-- The peaks of the cycles that end are what the next arm levels come from (R73). -/
def vrPeaksAfter (cycles : List (Fin 8 × Nat)) (l : List Nat) : List Nat :=
  cycles.foldl (fun acc c => modNth acc c.1.val (fun _ => c.2)) l

/-- The direction of a count on a PULSE axis (R80); before any valid speed message it is forward (log entry
    76). -/
def Block.pulseForward (b : Block) (a : Nat) : Bool :=
  match b.fld .AXIS_CFG a 10 9 with
  | 0 => true
  | 1 => false
  | _ => b.eng.fb.msgForward.getD true

/-- What one sample of the inputs does to axis `a`: the count first, then the index, which only an axis that has
    an index input in R74 takes (R74, R85, R86). The rising edge of IN_Z is the index edge (log entry 76). -/
def Block.sampleAxis (b : Block) (old new : BitVec 49) (a : Nat) (at_ : Nat) : Block :=
  let ia := b.inA a
  let ib := b.inB a
  let ic := b.inC a
  let a0 := levelOf old ia
  let a1 := levelOf new ia
  let b0 := levelOf old ib
  let b1 := levelOf new ib
  let rises := !a0 && a1
  let counted :=
    match b.axisType a with
    | 1 =>
      if a0 != a1 && b0 != b1 then b.countError a at_
      else if a0 == a1 && b0 == b1 then b
      else
        let fwd := if a0 != a1 then a1 != b1 else a1 == b1
        match b.fld .AXIS_CFG a 6 5 with
        | 0 => b.countAxis a fwd true at_
        | 1 => if a0 != a1 then b.countAxis a fwd true at_ else b
        | _ => if rises then b.countAxis a fwd true at_ else b
    | 2 =>
      let before := b.hallCode old a
      let code := b.hallCode new a
      if code = before then b else b.hallStep a before code at_
    | 3 =>
      if rises || (b.flag .AXIS_CFG a 7 && a0 != a1) then
        b.countAxis a (b.pulseForward a) (b.fld .AXIS_CFG a 10 9 == 2) at_
      else b
    | 4 => if rises then b.countAxis a (levelOf new ic) true at_ else b
    | _ => b
  let iz := b.inZ a
  let gate := b.fld .AXIS_CFG a 18 16
  let ba := (if b1 then 2 else 0) + (if a1 then 1 else 0)
  let gated := b.axisType a == 1 && 4 ≤ gate && gate - 4 != ba
  let indexed := decide (1 ≤ b.axisType a) && decide (b.axisType a ≤ 4)
  if indexed && b.rotary a && b.flag .AXIS_CFG a 12 && iz != 63 && !levelOf old iz && levelOf new iz && !gated
  then counted.indexEdge a at_ else counted

/-- What an accepted edge does to the axes (R72 to R91). The receivers' inputs fall back at once. -/
def Block.fbEdges (b : Block) (levels : BitVec 49) (held : Nat) (cycles : List (Fin 8 × Nat)) (at_ : Nat) : Block :=
  let old := b.eng.fb.levels
  let counts := b.vrCounts cycles
  let new := b.accepted old levels held counts
  let b1 := (List.range 32).foldl (fun acc a => acc.sampleAxis old new a at_) b
  b1.modFb (fun x => { x with
    levels := b.accepted old levels held [], vrPeak := vrPeaksAfter cycles x.vrPeak })

/-- AXIS_STOP_TIMEOUT (R91): no accepted count for STOP_TMO. -/
def execAxisStopTimeout (a : Fin 32) (at_ : Nat) : State → Host.Outcome State Fault Refusal :=
  lift (fun b =>
    if b.fld .AXIS_SPD_CFG a 10 0 * 1000000 ≤ b.now at_ - (b.axis a).lastCount then
      b.modAxis a (fun x => { x with hist := [], histPos := [], stop := true, starting := false })
    else b)

/-! ### Speed (R90) -/

/-- How far back the speed reaches in the edge history: the count `k` of R90. -/
def spanOf (h : List Nat) (win : Nat) : Nat → Nat → Nat
  | 0, k => k
  | fuel + 1, k =>
    if k + 1 < h.length ∧ h.getD 0 0 - h.getD (k + 1) 0 ≤ win then spanOf h win fuel (k + 1) else k

/-- The speed of R90 in units of `scale` per second times 10^6 over ns: `moved` counts over the
    span, truncated towards zero, with the decay bound. A span of no time has no stated speed: `free`
    (log entry 2). -/
def spanSpeed (h : List Nat) (win : Nat) (quad4 : Bool) (latchAt : Nat) (dir : Int) (unit : Nat)
    (moved : Nat → Nat) (free : Nat) : Int :=
  if h.length < 2 then 0
  else
    let k0 := spanOf h win 64 1
    let k := if quad4 && 4 ≤ k0 then k0 - k0 % 4 else k0
    let h0 := h.getD 0 0
    let span := h0 - h.getD k 0
    if span = 0 then signed 32 (free % 2 ^ 32)
    else
      let v := moved k * unit / span
      let e := latchAt - h0
      if h0 - h.getD 1 0 < e then dir * (min v (unit / e) : Nat) else dir * (v : Nat)

/-- The axis has lost its sensor: its message source, or the port it is bound to (R99, R103). -/
def Block.axisLost (b : Block) (a : Nat) : Bool :=
  (b.axis a).sensorLost || (b.axisType a == 5 && (b.port (b.inA a)).lost)

/-- The speed of an axis at a latch (R90, R98, R103). -/
def Block.axisSpeed (b : Block) (a : Nat) (unit : Nat) (free : Nat) : Int :=
  let x := b.axis a
  let win := b.fld .AXIS_SPD_CFG a 23 16 * 100000
  let quad4 := b.flag .AXIS_SPD_CFG a 24
  if x.stop || b.axisLost a then 0
  else if x.reversing then 0
  else if b.axisType a = 5 then
    let p0 := x.histPos.getD 0 0
    let k0 := spanOf x.hist win 64 1
    let k := if quad4 && 4 ≤ k0 then k0 - k0 % 4 else k0
    let d := p0 - x.histPos.getD k 0
    let sgn : Int := if d < 0 then -1 else 1
    spanSpeed x.hist win quad4 b.time.now sgn unit (fun k => (p0 - x.histPos.getD k 0).natAbs) free
  else
    let sgn : Int := if x.dir = some false then -1 else 1
    spanSpeed x.hist win quad4 b.time.now sgn unit (fun k => k) free

/-- STATUS.VALID apart from the unit state (R94). -/
def Block.axisValid (b : Block) (a : Nat) : Bool :=
  let x := b.axis a
  let t := b.axisType a
  t != 0 && !b.hallInvalid a && !b.axisLost a && !((t == 5 || t == 6) && !x.sampled)

/-- The latch of one axis at a Tick edge (R92). -/
def Block.latchAxis (b : Block) (a : Nat) : Block :=
  let x := b.axis a
  let (f, b1) := b.draw
  let msg := b.axisType a == 6
  let speed := if msg then (if b.axisLost a then 0 else x.msgSpeed)
               else b.axisSpeed a (b.fld .AXIS_SCALE a 31 0 * 1000000) f
  let rate := if msg then (if b.axisLost a then 0 else x.msgSpeed * 64 / 1000)
              else b.axisSpeed a (64 * 1000000000) f
  let stamp := if msg then x.lastMsg else x.hist.getD 0 x.lastCount
  b1.modAxis a (fun x => { x with latch := {
    pos := x.pos, rev := x.rev, speed := clampInt (-2147483648) 2147483647 speed,
    rate := clampInt (-2147483648) 2147483647 rate
    age := if x.lastCount = 0 ∧ x.lastMsg = 0 then 0xFFFFFFFF
           else min 0xFFFFFFFF ((b.time.now - stamp) / 10)
    hall := if b.axisType a = 2 then b.hallCode b.eng.fb.levels a else 0, valid := b.axisValid a, stop := x.stop, starting := x.starting,
    reversing := x.reversing, reverse := x.dir == some false, referenced := x.referenced,
    atLo := x.atLo, atHi := x.atHi, hallInvalid := b.hallInvalid a, sensorLost := b.axisLost a,
    indexLost := x.indexLost, dirUnknown := x.dirUnknown
    pend := match x.pending with
      | some (f, _) => if f then 1 else -1
      | none => 0
    idxErr := x.idxErr } })

/-- What the register views of an axis show: its latch, frozen while it is FAULTED (R92 to R94). -/
def Block.axisShown (b : Block) (a : Nat) : AxisLatch :=
  let x := b.axis a
  if (b.unit (unitAxis a)).state = .faulted then { (x.frozen.getD x.latch) with valid := false } else x.latch

/-- What the consumers of an axis see (R93). -/
def Block.axisSeen (b : Block) (a : Nat) : AxisLatch :=
  let x := b.axis a
  match (b.unit (unitAxis a)).state with
  | .active => x.latch
  | .fenced => x.latch
  | .service => x.latch
  | .faulted => { (x.frozen.getD x.latch) with valid := false }
  | _ => { x.latch with valid := false, speed := 0, rate := 0 }

/-- An axis whose unit has changed state (R93); the event tells that the FAULT policy has set it FAULTED (R87,
    R104). -/
def Block.axisUnitChange (b : Block) (a : Nat) (old new : UnitState) (at_ : Nat) : Block :=
  if new = .faulted ∧ old ≠ .faulted then
    let b1 := b.modAxis a (fun x => { x with frozen := some x.latch })
    if (b.unit (unitAxis a)).cause = .latchedFault then b1.raiseItems 35 1 0 [unitAxis a] at_ else b1
  else if old = .faulted ∧ new ≠ .faulted then
    b.modAxis a (fun x => { x with
      frozen := none, hist := [], histPos := [], referenced := false, indexed := false })
  else b

/-! ### Serial sensor ports (R95 to R99) -/

/-- The axes bound to port `p`. -/
def Block.portAxes (b : Block) (p : Nat) : List Nat :=
  (List.range 32).filter (fun a => b.axisType a == 5 && b.inA a == p)

/-- The port is lost (R99). -/
def Block.portLost (b : Block) (p : Nat) (at_ : Nat) : Block :=
  if (b.port p).lost then b
  else
    let axes := b.portAxes p
    let b1 := b.modPort p (fun x => { x with lost := true })
    let b2 := axes.foldl (fun acc a => acc.modAxis a (fun x => { x with sensorLost := true })) b1
    b2.raiseItems 34 1 0 (axes.map unitAxis) at_

/-- A bad frame (R96, R97, R99). -/
def Block.badFrame (b : Block) (p : Nat) (crc : Bool) (at_ : Nat) : Block :=
  let b1 := if crc then b.count .SP_ERR p 15 0 else b.count .SP_ERR p 23 16
  let b2 := b1.modPort p (fun x => { x with badRun := x.badRun + 1 })
  if b.fld .SP_FIELD p 23 16 ≤ (b2.port p).badRun then b2.portLost p at_ else b2

/-- The field that SP_FIELD extracts from a word (R98). -/
def Block.portField (b : Block) (p : Nat) (word : Nat) : Int :=
  let len := b.fld .SP_FIELD p 13 8
  let v := word / 2 ^ b.fld .SP_FIELD p 4 0 % 2 ^ len
  if b.flag .SP_FIELD p 15 then signed len v else v

/-- The position moved by a whole number of counts at once; the counts past a limit are discarded (R82, R83,
    R98). -/
def Block.jumpAxis (b : Block) (a : Nat) (d : Int) (at_ : Nat) : Block :=
  let x := b.axis a
  if b.rotary a then
    let cpr : Int := b.cpr a
    let p := x.pos + d
    b.modAxis a (fun x =>
      ({ x with pos := p % cpr, rev := x.rev + p / cpr } : Axis).stepped x.pos d (b.now at_))
  else if d = 0 then b
  else
    let lo := b.sfld .AXIS_LIM_LO a 31 0
    let hi := b.sfld .AXIS_LIM_HI a 31 0
    let want := x.pos + d
    let p := if d < 0 then max want (min x.pos lo) else min want (max x.pos hi)
    let lost := (want - p).natAbs
    let b1 := b.modAxis a (fun x =>
      ({ x with pos := p, atLo := decide (d < 0) && lost != 0, atHi := decide (0 < d) && lost != 0 } : Axis).stepped
        x.pos (p - x.pos) (b.now at_))
    if lost = 0 then b1 else (b1.count .AXIS_ERR_CNT a 31 24 lost).raiseItems 33 1 0 [unitAxis a] at_

/-- One good sample on a SERIAL axis (R98), with its time stamp. -/
def Block.serialSample (b : Block) (a p : Nat) (field : Int) (stamp : Nat) (at_ : Nat) : Block :=
  let x := b.axis a
  let len := b.fld .SP_FIELD p 13 8
  if !x.sampled || x.sensorLost then
    b.modAxis a (fun x => { x with
      pos := field, referenced := true, sampled := true, sensorLost := false, prevField := field,
      hist := [stamp], histPos := [field], lastCount := stamp })
  else
    let d0 := signed len (narrow len (field - x.prevField))
    let d := if b.flag .AXIS_CFG a 8 then -d0 else d0
    let b1 := (b.jumpAxis a d at_).divideCount a d.natAbs at_
    b1.modAxis a (fun y => { y with
      prevField := field
      hist := (stamp :: y.hist).take 64
      histPos := ((y.histPos.getD 0 y.pos + d) :: y.histPos).take 64
      stop := y.stop && d == 0
      dir := if d = 0 then y.dir else some (decide (0 < d))
      lastCount := if d = 0 then y.lastCount else stamp })

/-- Some axis has lost its sensor, or some serial port with an axis its frames: the condition of source 34
    (R99, R103). -/
def Block.sensorsLost (b : Block) : Bool :=
  (List.range 32).any (fun a => (b.axis a).sensorLost)
    || (List.range 4).any (fun p => (b.port p).lost && !(b.portAxes p).isEmpty)

/-- A good frame on port `p` (R98, R99). -/
def Block.goodFrame (b : Block) (p : Nat) (word : Nat) (stamp : Nat) (at_ : Nat) : Block :=
  let axes := b.portAxes p
  let wasLost := (b.port p).lost
  let b1 := b.modPort p (fun x => { x with
    word := BitVec.ofNat 32 word, good := true, lost := false, badRun := 0, stamp := stamp })
  let b2 := axes.foldl (fun acc a => acc.serialSample a p (acc.portField p word) stamp at_) b1
  if wasLost then b2.raiseItems 34 2 0 (axes.map unitAxis) at_ b2.sensorsLost else b2

/-- The CRC-4 table of SAE J2716 (polynomial x^4 + x^3 + x^2 + 1; PRESUMED, log entry 20). -/
def crc4Step (c : Nat) : Nat :=
  [0, 13, 7, 10, 14, 3, 9, 4, 1, 12, 6, 11, 15, 2, 8, 5].getD c 0

/-- The CRC-4 of the data nibbles, seed 5: the recommended form ends with one more zero nibble, the
    legacy form does not (R96). -/
def sentCrc (legacy : Bool) (data : List Nat) : Nat :=
  let c := data.foldl (fun c d => d ^^^ crc4Step c) 5
  if legacy then c else crc4Step c

/-- The bits of the slow channel, oldest first, from the status nibbles of the last `n` frames. -/
def slowBits (n bit : Nat) (l : List Nat) : List Nat := ((l.take n).map (fun s => s / 2 ^ bit % 2)).reverse

/-- The number that bits spell, first bit most significant. -/
def bitsNat (l : List Nat) : Nat := l.foldl (fun acc x => 2 * acc + x) 0

/-- The 6-bit CRC of an enhanced slow message over bits 2 and 3 of its frames 7 to 18, polynomial
    x^6 + x^4 + x^3 + 1, seed 010101b (SAE J2716's, PRESUMED, log entry 20). -/
def crc6 (l : List (Nat × Nat)) : Nat :=
  let step (c bit : Nat) : Nat :=
    let d := 2 * c + bit
    if d < 64 then d else (d - 64) ^^^ 25
  ((l.map (fun (p : Nat × Nat) => [p.1, p.2])).flatten ++ [0, 0, 0, 0, 0, 0]).foldl step 21

/-- The slow message that the last frames complete with a good CRC: kind, identifier and data (R96; the frame
    layout is SAE J2716's, PRESUMED, log entry 20). -/
def slowMessage (l : List Nat) : Option (Nat × Nat × Nat) :=
  let s18 := slowBits 18 3 l
  let d18 := slowBits 18 2 l
  let s16 := slowBits 16 3 l
  let d16 := slowBits 16 2 l
  if s18.length = 18 ∧ s18.take 7 = [1, 1, 1, 1, 1, 1, 0] ∧ s18.getD 12 1 = 0 ∧ s18.getD 17 1 = 0 then
    let data := bitsNat (d18.drop 6)
    let hi := bitsNat ((s18.drop 8).take 4)
    let lo := bitsNat ((s18.drop 13).take 4)
    if crc6 ((d18.drop 6).zip (s18.drop 6)) ≠ bitsNat (d18.take 6) then none
    else if s18.getD 7 0 = 0 then some (2, hi * 16 + lo, data) else some (3, hi, lo * 4096 + data)
  else if s16.length = 16 ∧ s16.getD 0 0 = 1 ∧ (s16.drop 1).all (fun x => x == 0) then
    let nibble (i : Nat) : Nat := bitsNat ((d16.drop (4 * i)).take 4)
    if sentCrc false [nibble 0, nibble 1, nibble 2] ≠ nibble 3 then none
    else some (1, nibble 0, nibble 1 * 16 + nibble 2)
  else none

/-- SENT_FRAME (R96): the length of the sync pulse and of the status, data and CRC nibbles, in ns, and the
    instant at which the CRC nibble ends; the frame's stamp is the falling edge that opened its sync pulse. A
    frame that is discarded breaks the slow channel's sequence. -/
def execSentFrame (p : Fin 4) (syncNs : Nat) (nibbleNs : List Nat) (at_ : Nat) :
    State → Host.Outcome State Fault Refusal :=
  lift (fun b =>
    if b.fld .SP_CFG p 1 0 ≠ 1 then b
    else
      let nominal := 56 * b.fld .SP_CFG p 31 24 * 500
      let prev := (b.port p).lastSync
      let syncOk : Bool := decide (4 * syncNs ≤ 5 * nominal) && decide (3 * nominal ≤ 4 * syncNs)
        && (match prev with
            | some q => decide (64 * (max q syncNs - min q syncNs) ≤ q)
            | none => true)
      let b0 := b.modPort p (fun x => { x with lastSync := some syncNs })
      let bad (crc : Bool) : Block := (b0.modPort p (fun x => { x with slow := [] })).badFrame p crc at_
      let stamp := b.now at_ - (syncNs + nibbleNs.sum)
      let ticks := nibbleNs.map (fun n => (n * 112 + syncNs) / (2 * syncNs))
      let nibOk := ticks.length == b.fld .SP_CFG p 10 8 + 2
        && ticks.all (fun t => 12 ≤ t && t ≤ 27) && syncNs != 0
      if !syncOk || !nibOk then bad false
      else
        let vals := ticks.map (fun t => t - 12)
        let data := (vals.drop 1).take (b.fld .SP_CFG p 10 8)
        if sentCrc (b.flag .SP_CFG p 5) data ≠ vals.getLastD 0 then bad true
        else
          let word := data.foldl (fun acc d => acc * 16 + d) 0
          let status := vals.getD 0 0
          let b1 := b0.modPort p (fun x =>
            let slow := if b.flag .SP_CFG p 6 then (status :: x.slow).take 18 else []
            let y := { x with status := status, slow := slow }
            match slowMessage slow with
            | some (k, i, d) => { y with slowKind := k, slowId := i, slowData := d }
            | none => y)
          b1.goodFrame p word stamp at_)

/-- Gray code to binary, `n` bits at most. -/
def grayToBinary : Nat → Nat → Nat
  | 0, w => w
  | n + 1, w => w ^^^ grayToBinary n (w / 2)

/-- The parity of a word's low 32 bits. -/
def parityOf (w : Nat) : Nat := ((List.range 32).map (fun i => w / 2 ^ i % 2)).sum % 2

/-- SSI_FRAME (R97): the data line before the first clock edge, and the bits read. The frame ends
    1 us before the next Tick edge; its first falling clock edge is its time stamp, BITS clock periods before.
    The parity bit leaves the word before it is converted and shown (both DESIGN CHOICE, log entry 76). -/
def execSsiFrame (p : Fin 4) (idleHigh : Bool) (raw : Word) :
    State → Host.Outcome State Fault Refusal :=
  lift (fun b =>
    if b.fld .SP_CFG p 1 0 ≠ 2 then b
    else
      let n := b.fld .SP_CFG p 21 16
      let w := raw.toNat % 2 ^ n
      let par := b.fld .SP_CFG p 4 3
      let parityOk := par == 0 || (par == 1 && parityOf w == 0) || (par == 2 && parityOf w == 1)
      if !idleHigh || !parityOk then b.badFrame p false 99000
      else
        let data := if par = 0 then w else w / 2
        let word := if b.flag .SP_CFG p 2 then grayToBinary 32 data else data
        b.goodFrame p word (b.now 99000 - n * 20 * b.fld .SP_CFG p 31 24) 99000)

/-- SPORT_LOSS_TIMEOUT (R99): no good frame for SP_FIELD.TMO. -/
def execSportLossTimeout (p : Fin 4) (at_ : Nat) : State → Host.Outcome State Fault Refusal :=
  lift (fun b =>
    if b.fld .SP_CFG p 1 0 ≠ 0 ∧ !(b.port p).lost
        ∧ b.fld .SP_FIELD p 31 24 * 1000000 ≤ b.now at_ - (b.port p).stamp then
      (b.count .SP_ERR p 31 24).portLost p at_
    else b)

/-! ### Tractor speed messages (R103) -/

/-- The MSG axes of one of the two messages. -/
def Block.msgAxes (b : Block) (ground : Bool) : List Nat :=
  (List.range 32).filter (fun a => b.axisType a == 6 && b.inA a == (if ground then 1 else 0))

/-- The range of the distance field of ISO 11783-7, in mm (PRESUMED, log entry 20). -/
def distanceRange : Int := 4211081216

/-- A message's values taken by one MSG axis (R103): the position counts the increase of the distance whatever
    the direction, which gives the speed its sign; before any valid direction that is forward (log entry 76). -/
def Block.msgSample (b : Block) (a : Nat) (speed : Nat) (distance : Nat) (direction : BitVec 2)
    (at_ : Nat) : Block :=
  let x := b.axis a
  let known := direction == 0 || direction == 1
  let ahead := if known then (direction == 1) != b.flag .AXIS_CFG a 8 else x.dir.getD (!b.flag .AXIS_CFG a 8)
  let sgn : Int := if ahead then 1 else -1
  let d : Int := if x.sampled then ((distance : Int) - x.prevField) % distanceRange else 0
  let b1 := (b.jumpAxis a (if b.flag .AXIS_CFG a 8 then -d else d) at_).divideCount a d.natAbs at_
  b1.modAxis a (fun y => { y with
    prevField := distance, sampled := true, sensorLost := false, dirUnknown := !known
    dir := some ahead, msgSpeed := sgn * (speed * 1000), lastMsg := b.now at_
    lastCount := if d = 0 then y.lastCount else b.now at_
    stop := y.stop && d == 0 })

/-- TRACTOR_SPEED_MSG (R103): direction 0 reverse, 1 forward, 2 error, 3 not available. -/
def execTractorSpeedMsg (ground : Bool) (source : Byte) (speed : BitVec 16) (distance : Word)
    (direction : BitVec 2) (at_ : Nat) : State → Host.Outcome State Fault Refusal :=
  lift (fun b =>
    let sa := b.fld .MSG_CFG 0 23 16
    if !b.flag .CANB_CFG 0 0 ∨ (sa ≠ 255 ∧ sa ≠ source.toNat) ∨ 0xFE00 ≤ speed.toNat then b
    else
      let axes := b.msgAxes ground
      let back := axes.filter (fun a => (b.axis a).sensorLost)
      let b1 := axes.foldl
        (fun acc a => acc.msgSample a speed.toNat distance.toNat direction at_) b
      let b2 := b1.modFb (fun x => { x with
        msgForward := if direction = 1 then some true else if direction = 0 then some false
                      else x.msgForward })
      b2.raiseItems 34 2 0 (back.map unitAxis) at_ b2.sensorsLost)

/-- MSG_TIMEOUT (R103): no valid message for MSG_CFG.TMO. -/
def execMsgTimeout (ground : Bool) (at_ : Nat) : State → Host.Outcome State Fault Refusal :=
  lift (fun b =>
    let lost := (b.msgAxes ground).filter (fun a =>
      !(b.axis a).sensorLost
        && decide (b.fld .MSG_CFG 0 15 0 * 1000000 ≤ b.now at_ - (b.axis a).lastMsg))
    let b1 := lost.foldl (fun acc a => acc.modAxis a (fun x => { x with
      sensorLost := true, msgSpeed := 0 })) b
    b1.raiseItems 34 1 0 (lost.map unitAxis) at_)

/-! ### Speed outputs (R101, R102) -/

/-- The pins without a unit are in the safe state: from a reset entry to the first COMMIT, and after a safe state of
    Vigil's own (R396, R408, log entry 83). -/
def Block.pinsSafe (b : Block) : Bool := b.vig.starting || b.vig.safePins

/-- The level of pass-through output `p` at the instant `at_` (R102), low in the safe state (R408). -/
def Block.ptLevel (b : Block) (p : Nat) (at_ : Nat) : Bool :=
  let inv := b.flag .PT_CFG p 2
  if b.pinsSafe then false
  else match b.fld .PT_CFG p 1 0 with
  | 1 => levelOf b.eng.fb.levels (b.fld .PT_CFG p 13 8) != inv
  | 2 => decide (b.now at_ < (nth b.eng.fb.pts p {}).pulseEnd) != inv
  | _ => inv

/-- The speed that GSPD_OUT follows, in um/s, when its source is valid and at least OUT_MIN (R101):
    `poseSpeed` is the pose unit's forward speed when it is valid. -/
def Block.gspdSpeed (b : Block) (poseSpeed : Option Int) : Nat :=
  let src := b.fld .GSPD_CFG 0 13 8
  let v : Nat :=
    if src < 32 then (if (b.axisSeen src).valid then (b.axisSeen src).speed.natAbs else 0)
    else if src = 32 then (poseSpeed.getD 0).natAbs else 0
  if v < b.fld .GSPD_CFG 0 31 16 * 1000 then 0 else v

/-- The distance accumulator of GSPD_OUT at the instant `at_`: it advances every 10 ns at the speed published last
    (R101). -/
def Block.gspdDistance (b : Block) (at_ : Nat) : Nat :=
  let x := b.eng.fb
  x.gspdAcc + x.gspdV * ((b.now at_ - x.gspdAt) / 10 * 10)

/-- GSPD_OUT takes up the speed published at the instant `at_`: 20 kHz at most (R101). -/
def Block.gspdTake (b : Block) (poseSpeed : Option Int) (at_ : Nat) : Block :=
  let v := min (b.gspdSpeed poseSpeed) 153846153
  b.modFb (fun x => { x with
    gspdAcc := b.gspdDistance at_, gspdAt := b.now at_, gspdV := v, gspdFreq := v * 13 / 1000 })

/-- The level of GSPD_OUT at the instant `at_`: one period for each 1/130 m (R101), low in the safe state (R408). -/
def Block.gspdLevel (b : Block) (at_ : Nat) : Bool :=
  !b.pinsSafe && b.fld .GSPD_CFG 0 13 8 != 63
    && decide (500000000000000 ≤ b.gspdDistance at_ * 130 % 1000000000000000)

/-- The feedback part of CAPTURE at a Tick edge: every axis latches (R92). -/
def Block.latchFeedback (b : Block) : Block :=
  let b1 := (List.range 32).foldl (fun acc a => acc.latchAxis a) b
  b1.modFb (fun x => { x with latched := x.levels, vrLatched := x.vrPeak })

end Sys2Proof.Machine
end

