-- ==== Sys2Proof/Machine/Fixed.lean ====
section
/-! DEFINITION. Fixed-point arithmetic that the pose unit and the Almanac share: square roots, sine,
    cosine and arctangent of angles in units of 2^-48 turn. The manual gives real-valued formulas
    and no number format for them; the formats here are log entry 30. -/

namespace Sys2Proof.Machine

/-- Integer square root, one bit a step from bit `n`. -/
def isqrtFrom (x : Nat) : Nat → Nat → Nat
  | 0, r => if (r + 1) * (r + 1) ≤ x then r + 1 else r
  | n + 1, r =>
    let r' := r + 2 ^ (n + 1)
    isqrtFrom x n (if r' * r' ≤ x then r' else r)

/-- The integer square root of a number below 2^192. -/
def isqrt (x : Nat) : Nat := isqrtFrom x (min 95 (x.log2 / 2 + 1)) 0

/-- The length of a plane vector. -/
def norm2 (x y : Int) : Nat := isqrt (x.natAbs * x.natAbs + y.natAbs * y.natAbs)

/-- One turn, in the angle unit. -/
def turn : Int := 281474976710656

/-- An angle wrapped to the half-open half turn either side of 0. -/
def wrapAngle (a : Int) : Int := signed 48 (narrow 48 a)

/-- Sine of `x` rad, both in units of 2^-40, for |x| at most pi/4. -/
def sinSmall (x : Int) : Int :=
  let one : Int := 1099511627776
  let y := x * x / one
  let t := one - y / 110
  let t := one - y * t / one / 72
  let t := one - y * t / one / 42
  let t := one - y * t / one / 20
  let t := one - y * t / one / 6
  x * t / one

/-- Cosine of `x` rad, both in units of 2^-40, for |x| at most pi/4. -/
def cosSmall (x : Int) : Int :=
  let one : Int := 1099511627776
  let y := x * x / one
  let t := one - y / 132
  let t := one - y * t / one / 90
  let t := one - y * t / one / 56
  let t := one - y * t / one / 30
  let t := one - y * t / one / 12
  one - y * t / one / 2

/-- Sine and cosine of an angle, in units of 2^-40. -/
def sinCos (a : Int) : Int × Int :=
  let q := (a + 35184372088832) / 70368744177664
  let rest := a - q * 70368744177664
  let x := rest * 6908435304715 / turn
  let s := sinSmall x
  let c := cosSmall x
  match (q % 4).toNat with
  | 0 => (s, c)
  | 1 => (c, -s)
  | 2 => (-s, -c)
  | _ => (-c, s)

/-- A length times a sine or cosine. -/
def mulTrig (x t : Int) : Int := divRound (x * t) 1099511627776

/-- A vector (forward, right) turned into east and north by a heading given as sine and cosine. -/
def toField (sc : Int × Int) (x y : Int) : Int × Int :=
  (mulTrig x sc.1 + mulTrig y sc.2, mulTrig x sc.2 - mulTrig y sc.1)

/-- The angle in the first quadrant whose direction is (`n`, `e`), found a bit at a time. -/
def atanFrom (e n : Int) : Nat → Int → Int
  | 0, a => a
  | k + 1, a =>
    let a' := a + 2 ^ (k + 16)
    let sc := sinCos a'
    atanFrom e n k (if sc.1 * n ≤ sc.2 * e then a' else a)

/-- The heading of a displacement east `e`, north `n`. -/
def headingOf (e n : Int) : Int :=
  if 0 ≤ e ∧ 0 ≤ n then atanFrom e n 30 0
  else if 0 ≤ e then turn / 4 + atanFrom (-n) e 30 0
  else if n < 0 then turn / 2 + atanFrom (-e) (-n) 30 0
  else 3 * turn / 4 + atanFrom n (-e) 30 0

/-- The power series of exp(-x), from its term `k` inwards, in units of 2^-40. -/
def expSeries (x : Int) : Nat → Int → Int
  | 0, t => t
  | k + 1, t => expSeries x k (1099511627776 - x * t / 1099511627776 / (k + 1))

/-- exp(-x) for x at or above 0, both in units of 2^-40. -/
def expNeg (x : Int) : Int :=
  let n := x / 762123384786
  if 40 < n then 0 else expSeries (x - n * 762123384786) 14 1099511627776 / 2 ^ n.toNat

/-- The angle in radians, in units of 2^-40. -/
def toRadians (a : Int) : Int := divRound (a * 6908435304715) turn

end Sys2Proof.Machine
end

