-- ==== Sys2Proof/Machine/Pose.lean ====
section
/-! DEFINITION. The pose unit: odometer, pose, fixes and aiding, nozzle and row kinematics (04).
    Number formats are log entry 30; what the manual leaves to an estimator it does not describe is a
    free value (log entry 31). -/

namespace Sys2Proof.Machine

open Sys2Proof (Word Byte Sess Hdr Instr PoseFix AidItem ImuSample)

/-- The block with the pose unit replaced by its image. -/
def Block.modPose (b : Block) (f : Pose → Pose) : Block :=
  { b with eng := { b.eng with pose := f b.eng.pose } }

/-- 1 mm in the unit of positions. -/
def mmUnit : Int := 10000000

/-- The saturated sigma of the heading (POSE_STATUS.HDG_SIG = 65 535). -/
def sigHdgMax : Nat := 512401738853691

/-- A sigma in units of 0.01 degree, in the unit of angles. -/
def sigmaAngle (s : Nat) : Nat := s * 281474976710656 / 36000

/-- A free value read as a signed 32-bit number. -/
def freeInt (f : Nat) : Int := signed 32 (f % 2 ^ 32)

/-! ### Travel sources (R110 to R112) -/

/-- The classes of R110. -/
inductive Travel where
  | measuring
  | moving
  | atRest
  | absent
  deriving DecidableEq, Repr

/-- The class of travel-source axis `j` (R110). -/
def Block.travelClass (b : Block) (j : Nat) : Travel :=
  let l := b.axisSeen (b.fld .POSE_TRAVEL j 4 0)
  if !b.flag .POSE_TRAVEL j 7 || !l.valid then .absent
  else if l.starting || l.reversing then .moving
  else if l.stop then .atRest
  else .measuring

/-- A measuring source: speed in um/s, lateral offset in cm, sigma in mm/s. -/
structure Source where
  v : Int
  y : Int
  sigma : Nat
  deriving DecidableEq, Repr

/-- The host-supplied speeds within their 200 ms of the Tick edge (R110). -/
def Block.liveSpeeds (b : Block) : List HostSpeed :=
  b.eng.pose.hostSpeeds.filter (fun s => b.time.dev ≤ s.time + 200000000)

/-- The measuring sources: axes in order, then host-supplied speeds at y = 0 (R110, R111). The
    estimated scale of R112 applies to an axis with SCALE_EST. -/
def Block.measuring (b : Block) : List Source :=
  let axes := (List.range 4).filter (fun j => b.travelClass j == .measuring)
  axes.map (fun j =>
      let v := (b.axisSeen (b.fld .POSE_TRAVEL j 4 0)).speed
      { v := if b.flag .POSE_TRAVEL j 6 then divRound (v * nth b.eng.pose.scales j 65536) 65536 else v
        y := b.sfld .POSE_TRAVEL j 31 16, sigma := 2 * b.fld .POSE_TRAVEL j 13 8 })
    ++ b.liveSpeeds.map (fun s => { v := s.v, y := 0, sigma := s.sigma })

/-- The weight of a source: the inverse of its sigma squared, in 2^-80. -/
def Source.weight (s : Source) : Nat := 2 ^ 80 / (s.sigma * s.sigma)

/-- The inverse-variance mean of R111, for the course yaw rate `r`. -/
def meanSpeed (l : List Source) (r : Int) : Int :=
  divRound (l.map (fun s => (s.v + divRound (r * s.y) 100) * s.weight)).sum
    (l.map (fun s => (s.weight : Int))).sum

/-- The sigma of the mean, in um/s (R115). -/
def meanSigma (l : List Source) : Nat :=
  1000 * 2 ^ 40 / max 1 (isqrt (l.map Source.weight).sum)

/-- The wheel differential: the first two measuring sources at least 1.0 m apart in y (R113; which
    pair, log entry 32). -/
def wheelDifferential : List Source → Option Int
  | [] => none
  | s :: rest =>
    match rest.find? (fun t => 100 ≤ (t.y - s.y).natAbs) with
    | some t => some (divRound ((s.v - t.v) * 100) (t.y - s.y))
    | none => wheelDifferential rest

/-- The axis of the inertial sensor that a mount code names: sign and value. -/
def mountAxis (code : Nat) (x y z : Int) : Int :=
  match code with
  | 0 => x
  | 1 => -x
  | 2 => y
  | 3 => -y
  | 4 => z
  | _ => -z

/-- The yaw rate about the axis that points down, clockwise positive (R106, R113). -/
def Block.imuYaw (b : Block) : Int :=
  let m := b.eng.pose.imu
  mountAxis (b.fld .POSE_IMU_MOUNT 0 6 4) m.gx m.gy m.gz

/-- The acceleration along the axis that points forward. -/
def Block.imuForward (b : Block) : Int :=
  let m := b.eng.pose.imu
  mountAxis (b.fld .POSE_IMU_MOUNT 0 2 0) m.ax m.ay m.az

/-- The course yaw rate under IMU_FAULT (R113). -/
def Block.faultYaw (b : Block) (l : List Source) : Int :=
  let p := b.eng.pose
  let byHeadings : Int :=
    match p.headings with
    | x :: y :: _ =>
      let new := if x.1 < y.1 then y else x
      let old := if x.1 < y.1 then x else y
      if new.1 ≤ old.1 + 2000000000 ∧ old.1 < new.1 ∧ b.time.dev ≤ new.1 + 1000000000 then
        -- wrapped difference over the time, in urad/s
        divRound (wrapAngle (new.2 - old.2) * 6283185307180000) (turn * ((new.1 : Int) - old.1))
      else 0
    | _ => 0
  match wheelDifferential l, p.yawItem with
  | some r, _ => r
  | none, some (t, y) => if b.time.dev ≤ t + 200000000 then y else byHeadings
  | none, none => byHeadings

/-! ### The rows of R111 -/

/-- TRAVEL_LOST moved, with its event on entry and exit (R111, R133). -/
def Block.setTravelLost (b : Block) (lost : Bool) (at_ : Nat) : Block :=
  if b.eng.pose.travelLost = lost then b
  else
    (b.modPose (fun p => { p with travelLost := lost, bridgeEnded := p.bridgeEnded && lost })).raise
      42 (if lost then 1 else 2) payZ at_

/-- IMU_FAULT moved, with its event. -/
def Block.setImuFault (b : Block) (fault : Bool) (at_ : Nat) : Block :=
  if b.eng.pose.imuFault = fault then b
  else (b.modPose (fun p => { p with imuFault := fault })).raise 43 (if fault then 1 else 2) payZ at_

/-- The forward speed bounded to 30 m/s (R111). -/
def satSpeed (v : Int) : Int := clampInt (-30000000) 30000000 v

/-- The forward speed chosen by the first row of R111 that applies, with its sigma (R115), over a
    Tick of `ticks` x 100 us. TRAVEL_LOST stays 1, rather than clearing and coming back, where a source is at
    rest but the last row applies, one other moving and bridging being out of use (log entry 77). -/
def Block.chooseSpeed (b : Block) (l : List Source) (r : Int) (ticks : Nat) : Block :=
  let classes := (List.range 4).map b.travelClass
  let still := b.eng.pose.standstills.any (fun t => b.time.dev ≤ t + 200000000)
  let rest := still || classes.contains .atRest
  let moving := classes.contains .moving
  let mayBridge := b.flag .POSE_CTRL 0 2 && !b.eng.pose.imuFault
  let b0 := if !l.isEmpty || (rest && (!moving || mayBridge)) then b.setTravelLost false 20000 else b
  let p := b0.eng.pose
  let bridges := mayBridge && !p.bridgeEnded
  let vmax : Int := b.fld .POSE_BRIDGE 0 31 16 * 1000
  if !l.isEmpty then
    b0.modPose (fun p => { p with
      bridge := false, zupt := false
      now := { p.now with v := satSpeed (meanSpeed l r), sigV := meanSigma l } })
  else if (moving || !rest) && bridges then
    b0.modPose (fun p => { p with
      bridge := true, zupt := false
      bridgeSince := if p.bridge then p.bridgeSince else b.time.now
      now := { p.now with
        v := satSpeed (clampInt (-vmax) vmax (p.now.v + divRound (p.acc * ticks) 10000))
        sigV := p.now.sigV + 5 * ticks } })
  else if rest && !moving then
    b0.modPose (fun p => { p with
      bridge := false, zupt := b.flag .POSE_CTRL 0 3, now := { p.now with v := 0, sigV := 0 } })
  else
    (b0.modPose (fun p => { p with
      bridge := false, zupt := false, now := { p.now with v := 0 } })).setTravelLost true 20000

/-! ### Fixes and aiding (R119 to R122) -/

/-- A value between two, at `num`/`den` of the way. -/
def between (a z : Int) (num den : Nat) : Int := a + divRound ((z - a) * num) den

/-- The state between two snapshots (R119). -/
def Snap.mix (a z : Snap) (t : Nat) : Snap :=
  let num := t - a.time
  let den := z.time - a.time
  if den = 0 then z
  else
    { time := t, e := between a.e z.e num den, n := between a.n z.n num den
      hdg := a.hdg + divRound (wrapAngle (z.hdg - a.hdg) * num) den
      v := between a.v z.v num den, r := between a.r z.r num den
      sigPos := (between a.sigPos z.sigPos num den).toNat
      sigHdg := (between a.sigHdg z.sigHdg num den).toNat
      sigV := (between a.sigV z.sigV num den).toNat }

/-- The history at `t`: interpolated between the two snapshots around it; the oldest, or the newest,
    where `t` lies outside them. `later` is the snapshot after the list. -/
def historyAt (later : Snap) : List Snap → Nat → Snap
  | [], _ => later
  | s :: rest, t =>
    if later.time ≤ t then later
    else if s.time ≤ t then s.mix later t
    else historyAt s rest t

/-- The reasons of a rejection (R429). -/
inductive Reject where
  | frame
  | window
  | step
  | gate
  deriving DecidableEq, Repr

/-- The code of a reason in the FIX_REJECT payload (R429). -/
def Reject.code : Reject → Nat
  | .frame => 1
  | .window => 2
  | .step => 3
  | .gate => 4

/-- A rejection: counted in POSE_FIX_REJ, and FIX_REJECT at the first in any 100 ms (R120). -/
def Block.fixReject (b : Block) (why : Reject) : Block :=
  let b1 := match why with
    | .window => b.count .POSE_FIX_REJ 0 31 24
    | .gate => b.count .POSE_FIX_REJ 0 23 16
    | .step => b.count .POSE_FIX_REJ 0 15 8
    | .frame => b.count .POSE_FIX_REJ 0 7 0
  let n := b1.eng.pose.rejects + 1
  let quiet := match look b1.evt.lastRaise 41 with
    | some t => decide (b1.now 20000 - t < 100000000)
    | none => false
  if quiet then b1.modPose (fun p => { p with rejects := n })
  else (b1.modPose (fun p => { p with rejects := 0 })).raiseLimited 41 1
        (payS (why.code + n * 2 ^ 32)) 20000

/-- The window and step tests of R119 on a time stamp; `last` is the time it must come after. -/
def Block.timeTest (b : Block) (t : Nat) (last : Option Nat) : Option Reject :=
  let maxage : Int := b.fld .POSE_FIX_CFG 0 8 0 * 1000000
  let age : Int := (b.time.dev : Int) - t
  let late := match last with
    | some l => decide (t ≤ l)
    | none => false
  let stepped := match b.eng.pose.stepAt with
    | some s => decide (t < s) && decide ((b.time.dev : Int) - s ≤ maxage)
    | none => false
  if maxage < age || age < -1000000 || late then some .window
  else if stepped then some .step
  else none

/-- The innovation gate in sigma. -/
def Block.gate (b : Block) : Nat := b.fld .POSE_FIX_CFG 0 31 28

/-- |d| exceeds gate x sqrt(a^2 + c^2). -/
def outsideGate (d : Int) (gate a c : Nat) : Bool :=
  decide (gate * gate * (a * a + c * c) < d.natAbs * d.natAbs)

/-- The Kalman gain a^2 / (a^2 + c^2) applied to a value. -/
def gain (d : Int) (a c : Nat) : Int := divRound (d * (a * a : Nat)) (a * a + c * c : Nat)

/-- A sigma reduced by sqrt(1 - k) (R119). -/
def reduced (s a c : Nat) : Nat := if a * a + c * c = 0 then s else s * c / isqrt (a * a + c * c)

/-- The gyro bias re-estimated (R114): its value is free. -/
def Block.rebias (b : Block) : Block :=
  if b.eng.pose.imuFault then b
  else
    let (f, b1) := b.draw
    b1.modPose (fun p => { p with bias := freeInt f })

/-- The scale factors re-estimated from a host-supplied speed, within 10 % (R112): free. -/
def Block.rescale (b : Block) : Block :=
  (List.range 4).foldl (fun acc j =>
    if acc.flag .POSE_TRAVEL j 6 then
      let (f, b1) := acc.draw
      b1.modPose (fun p => { p with scales := modNth p.scales j (fun _ => 58983 + f % 13107) })
    else acc) b

/-- A host-supplied speed accepted (R119, R112). -/
def Block.hostSpeed (b : Block) (s : HostSpeed) : Block :=
  (b.modPose (fun p => { p with hostSpeeds := p.hostSpeeds ++ [s] })).rescale

/-- A heading accepted at time `t`: applied with the gain of R119, the sigma reduced, the bias
    re-estimated (R114, R119). -/
def Block.headingIn (b : Block) (t : Nat) (hist : Snap) (hdg : Int) (sigma : Nat) : Block :=
  let dh := gain (wrapAngle (hdg - hist.hdg)) hist.sigHdg sigma
  (b.modPose (fun p => { p with
    now := { p.now with hdg := (p.now.hdg + dh) % turn
                        sigHdg := reduced p.now.sigHdg hist.sigHdg sigma }
    headings := (t, hdg) :: p.headings.take 1 })).rebias

/-- A HEADING measurement gated and applied; the answer says whether it passed (R119). -/
def Block.headingGated (b : Block) (t : Nat) (hdg : Int) (sigma : Nat) : Bool × Block :=
  let hist := historyAt b.eng.pose.now b.eng.pose.history t
  if b.eng.pose.now.sigHdg < sigHdgMax
      && outsideGate (wrapAngle (hdg - hist.hdg)) b.gate hist.sigHdg sigma then
    (false, b)
  else (true, b.headingIn t hist hdg sigma)

/-- A speed gated; the answer says whether it passed (R119). -/
def Block.speedPasses (b : Block) (hist : Snap) (v : Int) (sigma : Nat) : Bool :=
  b.eng.pose.travelLost || !outsideGate (v - hist.v) b.gate hist.sigV (sigma * 1000)

/-- The course measurement of R121, from a fix without heading and the one before it. -/
def Block.course (b : Block) (prev : LastFix) (cur : LastFix) : Block :=
  let de := cur.e - prev.e
  let dn := cur.n - prev.n
  let d := norm2 de dn
  if 500000 ≤ prev.v ∧ 500000 ≤ cur.v ∧ cur.time ≤ prev.time + 2000000000 ∧ 10000000000 ≤ d then
    let s := isqrt (prev.sigma * prev.sigma + cur.sigma * cur.sigma)
    let sigma := s * 281474976710656 * 1000000000000 / (d * 6283185307180)
    let r := b.headingGated ((prev.time + cur.time) / 2) (headingOf de dn) sigma
    if r.1 then r.2 else r.2.fixReject .gate
  else b

/-- The position part of an accepted fix: applied whole where the position is not initialised
    (R121), otherwise made pending (R119). -/
def Block.fixPosition (b : Block) (hist : Snap) (de dn : Int) (dh : Int) (sigma : Nat) : Block :=
  b.modPose (fun p =>
    let me := p.now.e - hist.e
    let mn := p.now.n - hist.n
    let sc := sinCos dh
    let re := mulTrig me sc.2 + mulTrig mn sc.1 - me
    let rn := mulTrig mn sc.2 - mulTrig me sc.1 - mn
    if p.init then
      { p with pendE := p.pendE + gain de hist.sigPos sigma + re
               pendN := p.pendN + gain dn hist.sigPos sigma + rn
               now := { p.now with sigPos := reduced p.now.sigPos hist.sigPos sigma } }
    else
      { p with init := true, pendE := 0, pendN := 0
               now := { p.now with e := p.now.e + de + re, n := p.now.n + dn + rn
                                   sigPos := sigma } })

/-- The speed of an accepted fix: a measurement apart from its position (R110, R119). -/
def Block.fixSpeed (b : Block) (hist : Snap) (f : PoseFix) : Block :=
  if f.speed = 0x80000000 then b
  else
    let v := signed 32 f.speed.toNat
    if b.speedPasses hist v f.speedSigma.toNat then
      b.hostSpeed { time := f.time.toNat, v := v, sigma := f.speedSigma.toNat }
    else b.fixReject .gate

/-- One fix tested and applied (R119 to R122). -/
def Block.applyFix (b : Block) (f : PoseFix) : Block :=
  let p := b.eng.pose
  let t := f.time.toNat
  if f.frame ≠ p.frame ∨ f.frame = 0 ∨ !p.frameSet then b.fixReject .frame
  else
    match b.timeTest t p.lastFixTime with
    | some why => b.fixReject why
    | none =>
      let hist := historyAt p.now p.history t
      let ant := toField (sinCos hist.hdg) (b.sfld .POSE_ANT 0 31 16 * 10 * mmUnit)
                   (b.sfld .POSE_ANT 0 15 0 * 10 * mmUnit)
      let off := if f.flags.getLsbD 0 then ant else (0, 0)
      let fe := signed 32 f.east.toNat * mmUnit
      let fn := signed 32 f.north.toNat * mmUnit
      let de := fe - (hist.e + off.1)
      let dn := fn - (hist.n + off.2)
      let sigma := f.posSigma.toNat * 10000000
      let d := norm2 de dn
      if p.init && outsideGate d b.gate hist.sigPos sigma then b.fixReject .gate
      else
        let hasHdg := f.headingSigma != 0xFFFF
        let hs := sigmaAngle f.headingSigma.toNat
        let hdg : Int := f.heading.toNat * 4294967296
        let dh := if !hasHdg then 0
                  else if p.init then gain (wrapAngle (hdg - hist.hdg)) hist.sigHdg hs
                  else wrapAngle (hdg - hist.hdg)
        let cur : LastFix := { time := t, e := fe - off.1, n := fn - off.2, sigma := sigma, v := hist.v }
        let b1 := b.fixPosition hist de dn dh sigma
        let b2 :=
          if hasHdg then
            if p.init then b1.headingIn t hist hdg hs
            else
              (b1.modPose (fun p => { p with
                now := { p.now with hdg := (p.now.hdg + dh) % turn, sigHdg := hs }
                headings := (t, hdg) :: p.headings.take 1 })).rebias
          else
            match p.lastFix with
            | some prev => b1.course prev cur
            | none => b1
        (b2.modPose (fun p => { p with
          lastFixTime := some t, lastFixNow := b.time.now, stale := false
          lastFix := some cur, accepted := p.accepted + 1
          lastAge := ((b.time.dev : Int) - t).toNat / 1000000 })).fixSpeed hist f

/-- One aiding item tested and applied (R119). -/
def Block.applyAid (b : Block) (t : Nat) (i : AidItem) : Block :=
  let p := b.eng.pose
  let ty := i.kind.toNat
  match b.timeTest t (look p.lastAid ty) with
  | some why => b.fixReject why
  | none =>
    let hist := historyAt p.now p.history t
    let v := signed 32 i.value.toNat
    let s := i.sigma.toNat
    let take (x : Block) : Block := x.modPose (fun p => { p with lastAid := put p.lastAid ty t })
    if ty = 1 then
      if b.speedPasses hist v s then take (b.hostSpeed { time := t, v := v, sigma := s })
      else b.fixReject .gate
    else if ty = 2 then
      let r := b.headingGated t ((i.value.toNat % 65536 * 4294967296 : Nat) : Int) (sigmaAngle s)
      if r.1 then take r.2 else r.2.fixReject .gate
    else if ty = 3 then
      if outsideGate (v - hist.r) b.gate 5000 (s * 100) then b.fixReject .gate
      else take ((b.modPose (fun p => { p with yawItem := some (t, v) })).rebias)
    else
      take (b.modPose (fun p => { p with
        standstills := if i.value = 1 then t :: p.standstills else p.standstills }))

/-- What waits for the POSE phase, one fix or one aiding item with its time stamp. -/
inductive Late where
  | fix (f : PoseFix)
  | aid (t : Nat) (i : AidItem)
  deriving DecidableEq, Repr

/-- The time stamp of a waiting fix or item. -/
def Late.time : Late → Nat
  | .fix f => f.time.toNat
  | .aid t _ => t

/-- A list kept in the order of time stamps, equal stamps in order of arrival (R118). -/
def insertLate (x : Late) : List Late → List Late
  | [] => [x]
  | y :: rest => if x.time < y.time then x :: y :: rest else y :: insertLate x rest

/-- Everything that waits, applied in the order of time stamps (R118). -/
def Block.applyLate (b : Block) : Block :=
  let p := b.eng.pose
  let all := p.fixes.map Late.fix ++ (p.aids.map (fun a => a.items.map (Late.aid a.time))).flatten
  let sorted := all.foldl (fun acc x => insertLate x acc) []
  let b1 := b.modPose (fun p => { p with fixes := [], aids := [] })
  sorted.foldl (fun acc x =>
    match x with
    | .fix f => acc.applyFix f
    | .aid t i => acc.applyAid t i) b1

/-- The pending position correction applied (R122). -/
def Block.slewPosition (b : Block) (ticks : Nat) : Block :=
  let p := b.eng.pose
  let d := norm2 p.pendE p.pendN
  if d = 0 then b
  else if b.fld .POSE_SLEW 0 31 24 * 1000000000 < d then
    (b.modPose (fun p => { p with
      now := { p.now with e := p.now.e + p.pendE, n := p.now.n + p.pendN }
      pendE := 0, pendN := 0 })).raise 40 1
        (payS (narrow 32 (divRound p.pendE mmUnit) + narrow 32 (divRound p.pendN mmUnit) * 2 ^ 32))
        20000
  else
    let step := b.fld .POSE_SLEW 0 23 12 * 1000 * ticks
    let part (x : Int) : Int := if d ≤ step then x else divRound (x * step) d
    b.modPose (fun p => { p with
      now := { p.now with e := p.now.e + part p.pendE, n := p.now.n + part p.pendN }
      pendE := p.pendE - part p.pendE, pendN := p.pendN - part p.pendN })

/-! ### Confidence (R131) -/

/-- The grade by the first row of R131 that applies. -/
def Block.gradeNow (b : Block) : Nat :=
  let p := b.eng.pose
  if !p.enabled || !p.init || decide (b.fld .POSE_GRADE_CFG 0 7 0 * 1000000000 < p.now.sigPos) then 0
  else if p.stale then 1
  else if decide (b.fld .POSE_GRADE_CFG 0 31 16 * 10000000 < p.now.sigPos)
      || decide (sigmaAngle (b.fld .POSE_GRADE_CFG 0 15 8 * 5) < p.now.sigHdg) || p.imuFault then 2
  else 3

/-- The grade brought up to date, with its event at a change (R131). -/
def Block.regrade (b : Block) (at_ : Nat) : Block :=
  let g := b.gradeNow
  let old := b.eng.pose.grade
  if g = old then b
  else (b.modPose (fun p => { p with grade := g })).raise 39 1 (payS (g + old * 256)) at_

/-! ### Nozzle and row kinematics (R129, R130) -/

/-- The ground point and speeds of nozzle `n`, for the sine and cosine of the boom heading. -/
def Block.nozPoint (b : Block) (sc : Int × Int) (n : Nat) : NozPoint :=
  let p := b.eng.pose
  let g := b.word .ALM_NOZ_GEOM n
  let x := sbits g 31 16
  let y := sbits g 15 0
  let off := toField sc (x * mmUnit) (y * mmUnit)
  let w := p.now.r + p.sway
  let v := p.now.v - divRound (w * y) 1000
  { e := divRound (p.now.e + off.1) mmUnit, n := divRound (p.now.n + off.2) mmUnit, v := v
    u := divRound (w * x) 1000, slow := decide (v < (b.fld .POSE_CTRL 0 31 16 * 1000 : Nat)) }

/-- Every nozzle's ground point and speeds (R129). -/
def Block.nozPoints (b : Block) : Block :=
  let sc := sinCos (b.eng.pose.now.hdg + b.eng.pose.psi)
  let l := (List.range 96).map (fun n => b.nozPoint sc n)
  b.modPose (fun p => { p with noz := l })

/-- The forward speed of a row point at lateral offset `y` mm, 0 while the unit is not enabled (R130,
    R518). -/
def Pose.rowSpeed (p : Pose) (y : Int) : Int :=
  if p.enabled then p.now.v - divRound ((p.now.r + p.sway) * y) 1000 else 0

/-- The travel of a row point in the last Tick, in units of 0.05 nm (R130). -/
def Pose.rowTravel (p : Pose) (y : Int) (ticks : Nat) : Nat :=
  let before := p.prevV - divRound (p.prevRS * y) 1000
  if p.enabled then ((before + p.rowSpeed y).toNat) * ticks else 0

/-! ### The odometer (R125 to R127) -/

/-- The interpolator moved over `ns` of real time: 2 000 additions at the old rate, the rest at the
    new (R125, R128). -/
def Pose.odoAdvance (p : Pose) (ns : Nat) : Nat :=
  let adds := ns / 10
  p.odo + p.incOld * min adds 2000 + p.inc * (adds - 2000)

/-- The odometer's integer part at the instant `at_` ns after the Tick edge (R12, R125). -/
def Block.odoAt (b : Block) (at_ : Nat) : Nat :=
  b.eng.pose.odoAdvance at_ / 2 ^ 32 % 2 ^ 48

/-- The odometer latched in CAPTURE, `ns` after the last Tick edge (R128). -/
def Pose.odoLatch (p : Pose) (ns : Nat) : Pose :=
  { p with odo := p.odoAdvance ns, incOld := p.inc }

/-- The new rate of the interpolator (R126). -/
def Block.odoRate (b : Block) : Block :=
  let p := b.eng.pose
  let v := p.now.v
  let resid : Int := (p.odoEst * 4294967296 / 200000 : Nat) - (p.odo : Int)
  let cap : Int := v * b.fld .POSE_SLEW 0 11 6 * 65536 / 100
  let corr := clampInt (-cap) cap (divRound (resid * 100000) (b.fld .POSE_SLEW 0 5 0 * 65536))
  let rate : Nat := if 0 < v then (v * 65536 + corr).toNat else 0
  b.modPose (fun p => { p with
    resid := resid, rate := rate
    inc := (rate * 4294967296 + 32768000000000) / 65536000000000 })

/-! ### The estimate of one Tick (R114, R115) -/

/-- Course yaw rate, sway rate and the corrected forward acceleration of this Tick (R113, R114). The
    low-pass of the sway split and the correction of the acceleration are free values. -/
def Block.rates (b : Block) (l : List Source) (ticks : Nat) : Block :=
  let p := b.eng.pose
  if p.imuFault then
    b.modPose (fun p => { p with now := { p.now with r := b.faultYaw l }, sway := 0, psi := 0, acc := 0,
                                 swaySat := false })
  else
    let g := b.imuYaw - p.bias
    let (f, b1) := b.draw
    let acc := b.imuForward - freeInt f
    if b.flag .POSE_CTRL 0 1 then
      let (f2, b2) := b1.draw
      let r := freeInt f2
      let s := g - r
      let lim : Int := b.fld .POSE_SWAY_CFG 0 31 16 * 4294967296
      let step := divRound (s * ticks * turn * 1000000) 62831853071795865
      let psi := clampInt (-lim) lim (p.psi + step)
      b2.modPose (fun p => { p with
        now := { p.now with r := r }, sway := s, psi := psi, acc := acc
        swaySat := decide (lim ≤ psi.natAbs) })
    else
      let lim : Int := b.fld .POSE_SWAY_CFG 0 31 16 * 4294967296
      let psi := clampInt (-lim) lim p.psi
      b1.modPose (fun p => { p with
        now := { p.now with r := g }, sway := 0, psi := psi, acc := acc
        swaySat := decide (lim ≤ psi.natAbs) })

/-- Heading, position and uncertainties advanced by one Tick (R114, R115). -/
def Block.integrate (b : Block) (ticks : Nat) : Block :=
  b.modPose (fun p =>
    let hdg := (p.now.hdg + divRound (p.now.r * ticks * turn * 1000000) 62831853071795865) % turn
    let sc := sinCos hdg
    let d := p.now.v * ticks
    let lateral := p.now.v.natAbs * ticks * p.now.sigHdg / 44798133900177
    { p with now := { p.now with
        time := b.time.dev, hdg := hdg
        e := p.now.e + mulTrig d sc.1, n := p.now.n + mulTrig d sc.2
        sigPos := min 655350000000 (p.now.sigPos + p.now.sigV * ticks + lateral)
        sigHdg := min sigHdgMax (p.now.sigHdg + 130312 * ticks) } })

/-- A snapshot every 1 ms, 512 deep (R119). -/
def Block.snapshot (b : Block) (ticks : Nat) : Block :=
  b.modPose (fun p =>
    if 10 ≤ p.sinceSnap + ticks then
      { p with history := (p.now :: p.history).take 512, sinceSnap := 0 }
    else { p with sinceSnap := p.sinceSnap + ticks })

/-- What is no longer within its time of validity is forgotten. -/
def Block.forget (b : Block) : Block :=
  b.modPose (fun p => { p with
    hostSpeeds := p.hostSpeeds.filter (fun s => b.time.dev ≤ s.time + 200000000)
    standstills := p.standstills.filter (fun t => b.time.dev ≤ t + 200000000) })

/-- The POSE phase of an enabled pose unit (R114 to R130). -/
def Block.poseRun (b : Block) (ticks : Nat) : Block :=
  let b0 := b.modPose (fun p => { p with
    prevV := p.now.v, prevRS := p.now.r + p.sway })
  let l := b0.measuring
  let b1 := b0.rates l ticks
  let b2 := b1.chooseSpeed l b1.eng.pose.now.r ticks
  let b3 := if b2.eng.pose.zupt || (wheelDifferential l).isSome then b2.rebias else b2
  let b4 := ((b3.integrate ticks).applyLate).slewPosition ticks
  let b5 := b4.modPose (fun p => { p with
    odoEst := p.odoEst + (p.prevV + p.now.v).toNat * ticks })
  let b6 := (b5.odoRate.snapshot ticks).forget
  (b6.nozPoints).regrade 20000

/-- The pose unit stopped `ns` after the Tick edge: the odometer holds from there, the registers keep
    their values (R518). -/
def Pose.halted (p : Pose) (ns : Nat) : Pose :=
  { p with odo := p.odoAdvance ns, inc := 0, incOld := 0, prevV := 0, prevRS := 0 }

/-- The forward speed that the pose unit delivers: 0 while it is not enabled (R518), which is also what
    POSE_SPEED and the probe speeds then read (log entry 77). -/
def Pose.speed (p : Pose) : Int := if p.enabled then p.now.v else 0

/-- The ground point and speeds of nozzle `n` that the pose unit delivers (R129, R518). -/
def Block.nozSeen (b : Block) (n : Nat) : NozPoint :=
  let x := nth b.eng.pose.noz n {}
  if b.eng.pose.enabled then x else { x with v := 0, u := 0, slow := true }

/-- The POSE phase (R114, R518): `ns` is the real time since the last Tick edge. -/
def Block.posePhase (b : Block) (ns ticks : Nat) : Block :=
  let b1 := b.modPose (fun p => p.odoLatch ns)
  if b1.eng.pose.enabled then b1.poseRun ticks else b1

/-! ### Steps of device time, resets, enabling -/

/-- A time stamp moved by a step of device time. -/
def moveTime (d : Int) (t : Nat) : Nat := ((t : Int) + d).toNat

/-- The time stamps of the pose unit relabelled by a step of device time of `d` ns; `dev` is device
    time after it (R119). -/
def Pose.relabel (p : Pose) (d : Int) (dev : Nat) : Pose :=
  let m := moveTime d
  { p with
    history := p.history.map (fun s => { s with time := m s.time })
    now := { p.now with time := m p.now.time }
    lastFixTime := p.lastFixTime.map m
    lastAid := p.lastAid.map (fun x => (x.1, m x.2))
    hostSpeeds := p.hostSpeeds.map (fun s => { s with time := m s.time })
    standstills := p.standstills.map m
    yawItem := p.yawItem.map (fun x => (m x.1, x.2))
    headings := p.headings.map (fun x => (m x.1, x.2))
    lastFix := p.lastFix.map (fun x => { x with time := m x.time })
    stepAt := some dev }

/-- The pose unit after a warm reset `ns` after the Tick edge (R133, R134): the odometer, as it stands then, and
    the frame are kept. -/
def Pose.warm (p : Pose) (ns : Nat) : Pose :=
  { odo := p.odoAdvance ns, odoEst := p.odoEst, frame := p.frame, frameSet := p.frameSet
    originLat := p.originLat, originLon := p.originLon, originAlt := p.originAlt, imu := p.imu
    imuAt := p.imuAt, stepAt := p.stepAt }

/-- The position made uninitialised and the history emptied (R124, R133, an exit from HOLD). -/
def Pose.uninit (p : Pose) : Pose :=
  { p with init := false, pendE := 0, pendN := 0, psi := 0, history := [], sinceSnap := 0
           lastFix := none, headings := []
           now := { p.now with sigPos := 655350000000, sigHdg := sigHdgMax } }

/-- A change of POSE_CTRL.EN at a COMMIT that finishes at `at_` (R44, R518). -/
def Block.poseEnable (b : Block) (at_ : Nat) : Block :=
  let en := b.flag .POSE_CTRL 0 0
  if en = b.eng.pose.enabled then b
  else if en then
    ((b.setTravelLost false at_).setImuFault false at_).modPose (fun p => { p.warm at_ with enabled := true })
  else
    (b.modPose (fun p => { p.halted at_ with enabled := false, fixes := [], aids := [] })).regrade at_

/-- A field frame applied at its COMMIT (R124); the map's part is in `Map`. -/
def Block.fieldOrigin (b : Block) (frame : BitVec 16) (lat lon alt : Word) : Block :=
  (b.modPose (fun p => { p.uninit with
    frame := frame, frameSet := true, originLat := lat, originLon := lon, originAlt := alt })).regrade
      72000

/-! ### The commands -/

/-- BRIDGE_TIMEOUT (R111): a bridge longer than POSE_BRIDGE.MAX ends. -/
def execBridgeTimeout (at_ : Nat) : State → Host.Outcome State Fault Refusal :=
  lift (fun b =>
    if b.eng.pose.bridge ∧ b.eng.pose.enabled
        ∧ b.fld .POSE_BRIDGE 0 15 0 * 1000000 ≤ b.now at_ - b.eng.pose.bridgeSince then
      (b.modPose (fun p => { p with
        bridge := false, bridgeEnded := true, now := { p.now with v := 0 } })).setTravelLost true at_
    else b)

/-- IMU_SAMPLE (R113): a good sample also ends IMU_FAULT. The registers of a pose unit that is not enabled keep
    their values (R518). -/
def execImuSample (sample : ImuSample) (at_ : Nat) : State → Host.Outcome State Fault Refusal :=
  lift (fun b =>
    let b1 := b.modPose (fun p => { p with imu := sample, imuAt := b.now at_ })
    if b.eng.pose.enabled then b1.setImuFault false at_ else b1)

/-- IMU_SAMPLE_TIMEOUT (R113, R518): 5 ms without a sample, or a failed self-check. -/
def execImuSampleTimeout (selfCheckFailed : Bool) (at_ : Nat) :
    State → Host.Outcome State Fault Refusal :=
  lift (fun b =>
    if b.eng.pose.enabled ∧ (selfCheckFailed ∨ 5000000 ≤ b.now at_ - b.eng.pose.imuAt) then
      (b.modPose (fun p => { p with
        bridge := false, sway := 0, psi := 0, swaySat := false })).setImuFault true at_
    else b)

/-- The row of POSE_FIX (R357). -/
def poseFixRow : OpRow := opRow 0x0020 32

/-- A POSE_FIX field outside its range (R116). -/
def poseFixBad (f : PoseFix) : Bool :=
  f.headingSigma == 0 || f.posSigma == 0 || f.posSigma == 0xFFFF
    || (f.speed != 0x80000000 && f.speedSigma == 0) || decide (5 ≤ f.quality.toNat)

/-- Dispatch of POSE_FIX (R116, R118, R518). -/
def dispatchPoseFix (h : Hdr) (f : PoseFix) : Dispatch := fun k _ _ b =>
  if !b.eng.pose.enabled then b.replyNow (some k) h poseFixRow.code .denied
  else if poseFixBad f then b.replyNow (some k) h poseFixRow.code .range
  else if 4 ≤ b.eng.pose.fixes.length then b.replyNow (some k) h poseFixRow.code .busy
  else (b.modPose (fun p => { p with fixes := p.fixes ++ [f] })).replyNow (some k) h poseFixRow.code .ok

/-- POSE_FIX (R116). -/
def execPoseFix (h : Hdr) (f : PoseFix) : State → Host.Outcome State Fault Refusal :=
  lift (fun b => b.request (.poseFix h f) h poseFixRow (dispatchPoseFix h f))

/-- The row of POSE_AIDING (R357): 8 bytes and 1 to 8 items. -/
def poseAidingRow : OpRow :=
  { code := 0x0021, lengthOk := fun n => n % 8 == 0 && decide (16 ≤ n) && decide (n ≤ 72) }

/-- An aiding item that causes the packet to be refused (R117). -/
def aidItemBad (i : AidItem) : Bool :=
  i.kind == 0 || decide (5 ≤ i.kind.toNat) || (i.kind != 4 && i.sigma == 0)

/-- Dispatch of POSE_AIDING (R117, R118, R518). -/
def dispatchPoseAiding (h : Hdr) (time : BitVec 64) (items : List AidItem) : Dispatch := fun k _ _ b =>
  if !b.eng.pose.enabled then b.replyNow (some k) h poseAidingRow.code .denied
  else if items.any aidItemBad then b.replyNow (some k) h poseAidingRow.code .range
  else if 4 ≤ b.eng.pose.aids.length then b.replyNow (some k) h poseAidingRow.code .busy
  else
    (b.modPose (fun p => { p with
      aids := p.aids ++ [{ time := time.toNat, items := items }] })).replyNow (some k) h
        poseAidingRow.code .ok

/-- POSE_AIDING (R117). -/
def execPoseAiding (h : Hdr) (time : BitVec 64) (items : List AidItem) :
    State → Host.Outcome State Fault Refusal :=
  lift (fun b => b.request (.poseAiding h time items) h poseAidingRow (dispatchPoseAiding h time items))

/-- FIX_TIMEOUT (R131): no fix accepted for FIX_TMO. -/
def execFixTimeout (at_ : Nat) : State → Host.Outcome State Fault Refusal :=
  lift (fun b =>
    if b.eng.pose.enabled
        ∧ b.fld .POSE_FIX_CFG 0 27 16 * 10000000 ≤ b.now at_ - b.eng.pose.lastFixNow then
      (b.modPose (fun p => { p with stale := true })).regrade at_
    else b)

/-- The row of FIELD_ORIGIN (R357). -/
def fieldOriginRow : OpRow := opRow 0x0022 16

/-- Dispatch of FIELD_ORIGIN (R123, R124). -/
def dispatchFieldOrigin (h : Hdr) (frame : BitVec 16) (i : Instr) : Dispatch := fun k seq arrived b =>
  if frame = 0 then b.replyNow (some k) h fieldOriginRow.code .range
  else if (List.range 96).any (fun n => (b.unit (unitNoz n)).state == .active) then
    b.replyNow (some k) h fieldOriginRow.code .busy
  else b.posts seq arrived k h fieldOriginRow.code i

/-- FIELD_ORIGIN (R123). -/
def execFieldOrigin (h : Hdr) (frame : BitVec 16) (lat lon alt : Word) :
    State → Host.Outcome State Fault Refusal :=
  let i : Instr := .fieldOrigin h frame lat lon alt
  lift (fun b => b.request i h fieldOriginRow (dispatchFieldOrigin h frame i))

end Sys2Proof.Machine
end

