-- ==== Sys2Proof/Machine/Map.lean ====
section
/-! DEFINITION. The field map: tile cache, translation, missing tiles, fills, coverage and writebacks
    (05). -/

namespace Sys2Proof.Machine

open Sys2Proof (Word Byte Bytes Sess Hdr Instr)

/-- The block with the field map replaced by its image. -/
def Block.modMap (b : Block) (f : FieldMap → FieldMap) : Block :=
  { b with eng := { b.eng with map := f b.eng.map } }

/-- Frame `f`. -/
def Block.frame (b : Block) (f : Nat) : Frame := nth b.eng.map.frames f {}

/-- The block with frame `f` replaced by its image. -/
def Block.modFrame (b : Block) (f : Nat) (g : Frame → Frame) : Block :=
  b.modMap (fun m => { m with frames := modNth m.frames f g })

/-- MAP_PROD[p] (R136). -/
def Block.prodOn (b : Block) (p : Nat) : Bool := b.flag .MAP_PROD p 0
def Block.prodFid (b : Block) (p : Nat) : Nat := b.fld .MAP_PROD p 15 8

/-- The cell size of a product in mm (R136). -/
def Block.cellMm (b : Block) (p : Nat) : Nat := 50 * 2 ^ b.fld .MAP_PROD p 2 1

/-! ### Sequence numbers (R194) -/

/-- No sequence number. -/
def seqNone : Word := 0xFFFFFFFF

/-- `a` is above `c` (R194). -/
def seqAbove (a c : Word) : Bool :=
  a != seqNone
    && (c == seqNone
        || (let d := (a.toNat + (2 ^ 32 - 1) - c.toNat) % (2 ^ 32 - 1)
            decide (1 ≤ d) && decide (d ≤ 2 ^ 31 - 1)))

/-- The higher of two sequence numbers (R194). -/
def seqMax (a c : Word) : Word := if seqAbove a c then a else c

/-- The sequence number after `a` (R194). -/
def seqNext (a : Word) : Word := if a = 0xFFFFFFFE then 0 else a + 1

/-! ### Cells -/

/-- The cell at index j x 128 + i (R137). -/
def Cells.get (c : Cells) (k : Nat) : BitVec 16 :=
  match nth c.chunks (k / 512) [] with
  | [] => c.fill
  | l => nth l (k % 512) c.fill

/-- The cells with one replaced by its image. -/
def Cells.modify (c : Cells) (k : Nat) (f : BitVec 16 → BitVec 16) : Cells :=
  { c with chunks := modNth c.chunks (k / 512) (fun l =>
      let full := match l with
        | [] => List.replicate 512 c.fill
        | l => l
      modNth full (k % 512) f) }

/-- A cell with its coverage raised by 1, 7 at most (R135, R153). -/
def raiseCov (c : BitVec 16) : BitVec 16 :=
  if bitsOf c.toNat 14 12 = 7 then c else c + 0x1000

/-- 1 024 bytes as 512 cells, little-endian (R137). -/
def cellsOf : Nat → Bytes → List (BitVec 16)
  | 0, _ => []
  | n + 1, l => BitVec.ofNat 16 (leNat (l.take 2)) :: cellsOf n (l.drop 2)

/-- 1 024 bytes as 256 words, little-endian (R138). -/
def wordsOf : Nat → Bytes → List Word
  | 0, _ => []
  | n + 1, l => BitVec.ofNat 32 (leNat (l.take 4)) :: wordsOf n (l.drop 4)

/-- The bytes of chunk `k` (R137). -/
def Cells.bytes (c : Cells) (k : Nat) : Bytes :=
  ((List.range 512).map (fun i => leBytes 2 (c.get (k * 512 + i)).toNat)).flatten

/-! ### Keys and frames -/

/-- The tile coordinate lies in the map extent (R139). -/
def tileInRange (t : Int) : Bool := decide (-65536 ≤ t) && decide (t ≤ 65535)

/-- The 42-bit tile key (R139). -/
def Key.code (k : Key) : Nat := k.fid * 2 ^ 34 + narrow 17 k.tx * 2 ^ 17 + narrow 17 k.ty

/-- The frame holds cells of the present field frame, into which coverage is written (R143, R144). -/
def Frame.coverable (f : Frame) : Bool :=
  (f.state == .valid || f.state == .dirty || f.state == .writingBack) && f.retired == none

/-- The frame holds cells that lookups use (R143, R158). -/
def Frame.live (f : Frame) : Bool := f.coverable && !f.dropped

/-- The number of the first frame that satisfies a condition. -/
def Block.findFrame (b : Block) (p : Frame → Bool) : Option Nat :=
  let i := b.eng.map.frames.findIdx p
  if i < b.eng.map.frames.length then some i else none

/-- The live frame of a key (R139). -/
def Block.frameOf (b : Block) (k : Key) : Option Nat :=
  b.findFrame (fun f => f.live && f.key == k)

/-- The frame into which coverage of a key is written (R143, R154). -/
def Block.coverOf (b : Block) (k : Key) : Option Nat :=
  b.findFrame (fun f => f.coverable && f.key == k)

/-- The frame in which a key is being filled. -/
def Block.fillOf (b : Block) (k : Key) : Option Nat :=
  b.findFrame (fun f => f.state == .filling && f.key == k)

/-- The payload of a map event (R161, R428). -/
def keyPayload (p : Nat) (k : Key) (seq : Word) : Payload :=
  payK p k.fid (narrow 32 k.tx) (narrow 32 k.ty) seq.toNat

/-- The fault slot outstanding for a key. -/
def Block.faultOf (b : Block) (k : Key) : Option Nat :=
  let i := b.eng.map.faults.findIdx (fun x => match x with
    | some f => f.key == k
    | none => false)
  if i < b.eng.map.faults.length then some i else none

/-- TILE_FAULT for a fault slot sent to MAIN (R146). -/
def Block.sendFault (b : Block) (slot : Nat) (resend : Bool) (at_ : Nat := 0) : Block :=
  match nth b.eng.map.faults slot none with
  | none => b
  | some f =>
    let flags := (if resend then 1 else 0) + (if f.poison then 2 else 0)
      + (if f.timedOut then 4 else 0)
    let payload := leBytes 1 slot ++ leBytes 1 f.prod ++ leBytes 1 f.key.fid ++ leBytes 1 flags
      ++ leBytes 4 (narrow 32 f.key.tx) ++ leBytes 4 (narrow 32 f.key.ty) ++ leBytes 4 f.tick.toNat
      ++ leBytes 4 f.seq.toNat
    (b.sendOwn .main 0x0081 0 payload at_).modMap (fun m => { m with
      faults := modNth m.faults slot (fun x => x.map (fun f => { f with lastSent := b.now at_ })) })

/-- Replay-log entries of a key deleted (R154). -/
def Block.dropReplay (b : Block) (k : Key) : Block :=
  b.modMap (fun m => { m with replay := m.replay.filter (fun r => r.key != k) })

/-- The fault slot of a key released (R146, R154). -/
def Block.releaseFault (b : Block) (k : Key) : Block :=
  match b.faultOf k with
  | some s => (b.modMap (fun m => { m with faults := modNth m.faults s (fun _ => none) })).dropReplay k
  | none => b

/-- A fill's frame freed before it became VALID (R143, R161): `event` is false for TILE_INVALIDATE. -/
def Block.endFill (b : Block) (f : Nat) (event : Bool) (at_ : Nat) : Block :=
  let x := b.frame f
  let b1 := (b.modFrame f (fun _ => {})).count .MAP_CNT_FILL 0 7 0
  if event then b1.raise 56 1 (keyPayload x.prod x.key seqNone) at_ else b1

/-- A fill abandoned, and with it its entries of the replay log (R143, R154). -/
def Block.abandonFill (b : Block) (f : Nat) (event : Bool) (at_ : Nat) : Block :=
  (b.endFill f event at_).dropReplay (b.frame f).key

/-- The fault outstanding for a key, if there is one, sent again (R159). -/
def Block.resendFault (b : Block) (k : Key) (at_ : Nat := 0) : Block :=
  match b.faultOf k with
  | some s => b.sendFault s true at_
  | none => b

/-- TLB entries of frames that no lookup may use removed (R140). -/
def Block.purgeTlb (b : Block) : Block :=
  b.modMap (fun m => { m with tlb := m.tlb.map (fun t =>
    let f := nth m.frames t.frame {}
    if t.valid && !(f.live && f.key == t.key) then {} else t) })

/-! ### Lookups (R139 to R142, R145) -/

/-- What a lookup answers: a cell, nothing under HOLD, a park, or no slot left in the phase. -/
inductive Looked where
  | cell (c : BitVec 16)
  | unknown
  | parked
  | noSlot
  deriving DecidableEq, Repr

/-- The result of a product's missing-tile policy (R145). -/
def Block.policyResult (b : Block) (p : Nat) : Looked :=
  match b.fld .MAP_POLICY p 1 0 with
  | 0 => .unknown
  | 2 => .cell 0
  | _ => .cell 0x8000

/-- The wait of a product on a key. -/
def Block.waitOf (b : Block) (p : Nat) (k : Key) : Option KeyWait :=
  b.eng.map.waits.find? (fun w => w.prod == p && w.key == k)

/-- An evaluation of product `p` is parked on a key (R145). -/
def Block.parkedOn (b : Block) (p : Nat) (k : Key) : Bool :=
  (List.range 96).any (fun n =>
    let x := nth b.eng.alm.noz n {}
    x.parked && x.parkKey == k && b.fld .ALM_NOZ_CFG n 17 16 == p)

/-- The fault slot of a key is in use now (R146). -/
def Block.useFault (b : Block) (k : Key) : Block :=
  b.modMap (fun m => { m with
    faults := m.faults.map (fun x => x.map (fun f =>
      if f.key == k then { f with lastUse := b.time.now } else f)) })

/-- A request for a key recorded: the time-out of its product runs from the Tick in which the first of the
    evaluations now parked on it was parked, and its fault slot is in use (R145, R146). -/
def Block.touchWait (b : Block) (p : Nat) (k : Key) : Block :=
  let mine (w : KeyWait) : Bool := w.prod == p && w.key == k
  let fresh : KeyWait := { prod := p, key := k, since := b.time.now, timedOut := false }
  let b1 := b.modMap (fun m => { m with
    waits :=
      if !m.waits.any mine then m.waits ++ [fresh]
      else if b.parkedOn p k then m.waits
      else m.waits.map (fun w => if mine w && !w.timedOut then fresh else w) })
  b1.useFault k

/-- The key times out for a product: MAP_FAULT_TMO (R145). -/
def Block.keyTimesOut (b : Block) (p : Nat) (k : Key) (at_ : Nat) : Block :=
  ((b.modMap (fun m => { m with
    waits := m.waits.map (fun w =>
      if w.prod == p && w.key == k then { w with timedOut := true } else w)
    faults := m.faults.map (fun x => x.map (fun f =>
      if f.key == k then { f with timedOut := true } else f)) })).count .MAP_CNT_FAULT 0 31 16).raise
    55 1 (keyPayload p k seqNone) at_

/-- A fault slot taken for a key and TILE_FAULT sent (R145, R146, R159). -/
def Block.takeFault (b : Block) (p : Nat) (k : Key) : Block :=
  let slot := b.eng.map.faults.findIdx (fun x => x == none)
  if slot < b.eng.map.faults.length then
    let lost := b.eng.map.lost.find? (fun x => x.1 == k)
    let f : TileFault :=
      { prod := p, key := k, tick := b.time.count, seq := (lost.map (·.2)).getD seqNone
        poison := lost.isSome, timedOut := false, lastSent := b.time.now, lastUse := b.time.now }
    ((b.modMap (fun m => { m with
      faults := modNth m.faults slot (fun _ => some f)
      lost := m.lost.filter (fun x => x.1 != k) })).count .MAP_CNT_FAULT 0 15 0).sendFault slot false
  else b.count .MAP_CNT_FILL 0 23 16

/-- A lookup of a missing tile (R145). -/
def Block.missing (b : Block) (p : Nat) (k : Key) : Looked × Block :=
  match b.waitOf p k with
  | some { timedOut := true, .. } => (b.policyResult p, b.touchWait p k)
  | _ =>
    let b1 := b.touchWait p k
    let b2 := if (b1.faultOf k).isSome || (b1.fillOf k).isSome then b1 else b1.takeFault p k
    if b2.fld .MAP_POLICY p 26 16 = 0 then (b2.policyResult p, b2.keyTimesOut p k 20000)
    else (.parked, b2)

/-- `n` walker slots used (R141). -/
def Block.useSlots (b : Block) (n : Nat) : Block :=
  b.modMap (fun m => { m with slots := m.slots - n, slotsUsed := m.slotsUsed + n })

/-- A lookup recorded in the frame's age and in the TLB: the least recently used entry is replaced
    (R139, R140). -/
def Block.tlbUse (b : Block) (k : Key) (f : Nat) : Block :=
  b.modMap (fun m =>
    let now := m.lookups + 1
    let hit := m.tlb.findIdx (fun t => t.valid && t.key == k && t.frame == f)
    let free := m.tlb.findIdx (fun t => !t.valid)
    let oldest := (m.tlb.map (·.used)).foldl min now
    let lru := m.tlb.findIdx (fun t => t.used == oldest)
    let i := if hit < m.tlb.length then hit else if free < m.tlb.length then free else lru
    { m with
      lookups := now
      tlb := modNth m.tlb i (fun _ => { valid := true, key := k, frame := f, used := now })
      frames := modNth m.frames f (fun x => { x with age := 0, looked := true }) })

/-- The tile and the cell index of a field coordinate (R139). -/
def Block.place (b : Block) (p : Nat) (e n : Int) : Key × Nat :=
  let cs : Int := b.cellMm p
  let cx := e / cs
  let cy := n / cs
  ({ fid := b.prodFid p, tx := cx / 128, ty := cy / 128 },
   (cy % 128).toNat * 128 + (cx % 128).toNat)

/-- A lookup of product `p` at a field coordinate in mm (R139 to R142, R145). -/
def Block.lookup (b : Block) (p : Nat) (e n : Int) : Looked × Block :=
  if !b.prodOn p then (b.policyResult p, b)
  else
    let (k, cell) := b.place p e n
    if !(tileInRange k.tx && tileInRange k.ty) then
      if b.eng.map.slots < 1 then (.noSlot, b)
      else (.cell 0x8000, (b.useSlots 1).count .MAP_CNT_OOR 0 31 0)
    else
      match b.frameOf k with
      | some f =>
        let inTlb := b.eng.map.tlb.any (fun t => t.valid && t.key == k && t.frame == f)
        let cost := if inTlb then 1 else 4
        if b.eng.map.slots < cost then (.noSlot, b)
        else (.cell ((b.frame f).cells.get cell), (b.useSlots cost).tlbUse k f)
      | none =>
        if b.eng.map.slots < 4 then (.noSlot, b) else (b.useSlots 4).missing p k

/-- The probe of a session, evaluated at a COMMIT: it raises no fault and changes no age
    (MAP_PROBE_RES). -/
def Block.probe (b : Block) (k : Sess) : Word :=
  let sel := b.sessWord k .MAP_PROBE_RES
  let p := bits sel 16 16
  let e := sbits (b.sessWord k .MAP_PROBE_E) 31 0
  let n := sbits (b.sessWord k .MAP_PROBE_N) 31 0
  let (key, cell) := b.place p e n
  if !(tileInRange key.tx && tileInRange key.ty) then 0xFF020000
  else
    match b.frameOf key with
    | some f => fieldAt 24 f ||| BitVec.ofNat 32 ((b.frame f).cells.get cell).toNat
    | none => 0xFF000000

/-- The rate of a rate code: entries 1 to 4 095 of the active table, 0 while none is active (R138). -/
def FieldMap.rate (m : FieldMap) (p code : Nat) : Nat :=
  if code = 0 then 0 else (nth (nth (nth m.rates p []) (code / 256) []) (code % 256) 0).toNat

/-! ### Fills (R148 to R150) -/

/-- The frames in a state. -/
def Block.framesIn (b : Block) (s : FrameState) : Nat :=
  (b.eng.map.frames.filter (fun f => f.state == s)).length

/-- A writeback of a DIRTY frame called for (R156). -/
def Block.wantWriteback (b : Block) (f : Nat) : Block :=
  b.modFrame f (fun x => if x.state == .dirty then { x with wanted := true } else x)

/-- A chunk refused with BUSY (R149). -/
def Block.chunkBusy (b : Block) (k : Sess) (h : Hdr) : Block :=
  (b.count .MAP_CNT_FILL 0 15 8).replyNow (some k) h 0x0028 .busy

/-- The key is resident in a DIRTY or WRITING_BACK frame, one that is kept only to be written back
    among them (R149). -/
def Block.dirtyOf (b : Block) (key : Key) : Option Nat :=
  b.findFrame (fun f => (f.state == .dirty || f.state == .writingBack) && f.key == key)

/-- The frame that takes a chunk of a key, or the refusal of R149 with what else it does. -/
def Block.fillTarget (b : Block) (k : Sess) (h : Hdr) (key : Key) : Option Nat × Block :=
  match b.dirtyOf key with
  | some f => (none, (b.wantWriteback f).chunkBusy k h)
  | none =>
    match b.fillOf key with
    | some f => (some f, b)
    | none =>
      if 16 ≤ b.framesIn .filling then (none, b.chunkBusy k h)
      else
        match b.findFrame (fun f => f.state == .free) with
        | some f => (some f, b)
        | none => (none, (b.modMap (fun m => { m with evictDue := true })).chunkBusy k h)

/-- The instant at which a request that is dispatched now is carried out. -/
def Block.actAt (b : Block) (arrived : Nat) : Nat := max arrived b.time.now

/-- The fields of a TILE or CONST chunk lie in range (R149). -/
def Block.chunkOk (b : Block) (product chunk fid : Byte) (tx ty : Int) (chunks : Nat) : Bool :=
  decide (product.toNat ≤ 1) && b.prodOn product.toNat && fid.toNat == b.prodFid product.toNat
    && decide (chunk.toNat < chunks) && tileInRange tx && tileInRange ty

/-- A chunk stored in its frame: `store` puts the data in place (R148). -/
def storeChunk (p : Nat) (key : Key) (seq : Word) (now : Nat) (bit : Word) (full : Bool)
    (store : Cells → Cells) (f : Frame) : Frame :=
  let base : Frame := if f.state = .filling then f else { state := .filling, prod := p, key := key }
  let stored := base.stored ||| bit
  { base with
    cells := store base.cells, stored := stored, seq := seq, since := now
    doneAt := if base.doneAt.isSome then base.doneAt
              else if full || stored == 0xFFFFFFFF then some now else none }

/-- The row of TILE_DATA (R357). -/
def tileDataRow (len : Nat) : OpRow := opRow 0x0028 len

/-- Dispatch of a TILE or CONST chunk (R148, R149). -/
def dispatchChunk (h : Hdr) (product chunk fid : Byte) (tx ty seq : Word) (chunks : Nat) (bit : Word)
    (full : Bool) (store : Cells → Cells) : Dispatch := fun k _ arrived b =>
  let x := signed 32 tx.toNat
  let y := signed 32 ty.toNat
  if !b.chunkOk product chunk fid x y chunks then b.replyNow (some k) h 0x0028 .range
  else
    let key : Key := { fid := fid.toNat, tx := x, ty := y }
    match b.fillTarget k h key with
    | (none, b1) => b1
    | (some f, b1) =>
      (b1.modFrame f (storeChunk product.toNat key seq (b1.actAt arrived) bit full store)).replyNow
        (some k) h 0x0028 .ok

/-- TILE_DATA of kind TILE (R148). -/
def execTileDataTile (h : Hdr) (product chunk fid : Byte) (tx ty seq : Word) (data : Bytes) :
    State → Host.Outcome State Fault Refusal :=
  lift (fun b => b.request (.tileDataTile h product chunk fid tx ty seq data) h (tileDataRow 1048)
    (dispatchChunk h product chunk fid tx ty seq 32 (BitVec.ofNat 32 (2 ^ chunk.toNat)) false
      (fun c => { c with chunks := modNth c.chunks chunk.toNat (fun _ => cellsOf 512 data) })))

/-- TILE_DATA of kind CONST (R148). -/
def execTileDataConst (h : Hdr) (product chunk fid : Byte) (tx ty seq : Word) (cell : BitVec 16) :
    State → Host.Outcome State Fault Refusal :=
  lift (fun b => b.request (.tileDataConst h product chunk fid tx ty seq cell) h (tileDataRow 28)
    (dispatchChunk h product chunk fid tx ty seq 1 1 true (fun _ => { fill := cell })))

/-- Dispatch of a RATE_TABLE chunk (R138, R149). -/
def dispatchRateTable (h : Hdr) (product chunk : Byte) (data : Bytes) : Dispatch :=
  fun k _ arrived b =>
    let p := product.toNat
    if 2 ≤ p ∨ 16 ≤ chunk.toNat ∨ !b.prodOn p then b.replyNow (some k) h 0x0028 .range
    else
      let s := nth b.eng.map.shadows p {}
      if s.doneAt.isSome then b.chunkBusy k h
      else
        let chunks := modNth s.chunks chunk.toNat (fun _ => wordsOf 256 data)
        let done := chunks.all (fun c => !c.isEmpty)
        (b.modMap (fun m => { m with shadows := modNth m.shadows p (fun _ =>
          { chunks := chunks, doneAt := if done then some (b.actAt arrived) else none }) })).replyNow
          (some k) h 0x0028 .ok

/-- TILE_DATA of kind RATE_TABLE (R138). -/
def execTileDataRateTable (h : Hdr) (product chunk : Byte) (data : Bytes) :
    State → Host.Outcome State Fault Refusal :=
  lift (fun b => b.request (.tileDataRateTable h product chunk data) h (tileDataRow 1048)
    (dispatchRateTable h product chunk data))

/-- One completed fill at a COMMIT (R148): the replay log applied, an older frame of the key freed,
    the frame VALID, the fault slot released; a marked fill is abandoned and the fault raised again (R154, R159). -/
def Block.validate (b : Block) (f : Nat) : Block :=
  let x := b.frame f
  if x.marked then
    let b1 := b.abandonFill f true 72000
    if (b1.faultOf x.key).isSome then b1.resendFault x.key else b1.takeFault x.prod x.key
  else
    let mine := b.eng.map.replay.filter (fun r => r.key == x.key && seqAbove r.seq x.seq)
    let cells := mine.foldl (fun c r => c.modify r.cell raiseCov) x.cells
    let seq := mine.foldl (fun s r => seqMax r.seq s) x.seq
    let b1 := match b.frameOf x.key with
      | some old => b.modFrame old (fun _ => {})
      | none => b
    let b2 := b1.modFrame f (fun x => { x with
      state := .valid, cells := cells, seq := seq, ackSeq := x.seq, age := 0, looked := false, doneAt := none, stored := 0
      raised := mine.length, raisedNew := mine.length })
    ((b2.releaseFault x.key).dropReplay x.key).modMap (fun m => { m with
      waits := m.waits.filter (fun w => w.key != x.key)
      lost := m.lost.filter (fun l => l.1 != x.key) })

/-- Completed fills that this COMMIT takes (R148). -/
def Block.validateAll (b : Block) : Block :=
  (List.range 128).foldl (fun acc f =>
    let x := acc.frame f
    match x.state, x.doneAt with
    | .filling, some t => if t ≤ acc.time.now + 72000 then acc.validate f else acc
    | _, _ => acc) b

/-- Completed rate tables become active (R138). -/
def Block.activateTables (b : Block) : Block :=
  [0, 1].foldl (fun acc p =>
    let s := nth acc.eng.map.shadows p {}
    match s.doneAt with
    | some t =>
      if t ≤ acc.time.now + 72000 then
        acc.modMap (fun m => { m with
          rates := modNth m.rates p (fun _ => s.chunks), shadows := modNth m.shadows p (fun _ => {}) })
      else acc
    | none => acc) b

/-- The frame that satisfies a condition with the largest age. -/
def Block.oldest (b : Block) (p : Frame → Bool) : Option Nat :=
  let ages := (b.eng.map.frames.filter p).map (·.age)
  match ages.max? with
  | some a => b.findFrame (fun f => p f && f.age == a)
  | none => none

/-- The VALID frame that an eviction takes: the one with the largest age that no lookup has used in this Tick
    or the one before (R150). -/
def Block.evictable (b : Block) : Option Nat :=
  b.oldest (fun f => f.state == .valid && (!f.looked || decide (2 ≤ f.age)))

/-- One frame evicted, where one qualifies (R150). -/
def Block.evictOne (b : Block) : Block :=
  match b.evictable with
  | some f => (b.modFrame f (fun _ => {})).count .MAP_CNT_FILL 0 31 24
  | none => b

/-- Fewer frames are FREE than MAP_CFG.FREE_MIN (R150). -/
def Block.shortOfFree (b : Block) : Bool := decide (b.framesIn .free < b.fld .MAP_CFG 0 15 12)

/-- The evictions of a COMMIT; where one is due and no VALID frame qualifies, a writeback of the DIRTY frame
    with the largest age is called for (R150). -/
def Block.evict (b : Block) : Block :=
  let owed := b.eng.map.evictDue && b.evictable.isNone
  let b1 := if b.eng.map.evictDue then
      (b.modMap (fun m => { m with evictDue := false })).evictOne
    else b
  let b2 := (List.range 15).foldl (fun acc _ => if acc.shortOfFree then acc.evictOne else acc) b1
  if owed || b2.shortOfFree then
    match b2.oldest (fun f => f.state == .dirty) with
    | some f => b2.wantWriteback f
    | none => b2
  else b2

/-- Step 3 of a COMMIT for the map (R28, R138, R140, R148, R150). -/
def Block.mapCommit (b : Block) : Block :=
  (b.validateAll.activateTables.evict).purgeTlb

/-! ### TILE_INVALIDATE, field origin, product changes -/

/-- TILE_INVALIDATE applied to one frame (R158). -/
def Block.invalidateFrame (b : Block) (f : Nat) (discard : Bool) : Block :=
  let x := b.frame f
  match x.state with
  | .filling => b.abandonFill f false 72000
  | .valid => b.modFrame f (fun _ => {})
  | .dirty =>
    if discard then (b.modFrame f (fun _ => {})).count .MAP_CNT_COV 0 15 0 x.raised
    else b.modFrame f (fun y => { y with wanted := true, dropped := true })
  | .writingBack =>
    if discard then
      ((b.modFrame f (fun _ => {})).count .MAP_CNT_COV 0 15 0 x.raised).modMap (fun m => { m with
        buffers := m.buffers.map (fun w => match w with
          | some v => if v.frame = some f then none else some v
          | none => none) })
    else b.modFrame f (fun y => { y with dropped := true })
  | _ => b

/-- TILE_INVALIDATE applied to every frame that satisfies a condition. -/
def Block.invalidate (b : Block) (p : Frame → Bool) (discard : Bool) : Block :=
  (List.range 128).foldl (fun acc f => if p (acc.frame f) then acc.invalidateFrame f discard else acc) b

/-- TILE_INVALIDATE at its COMMIT (R158). -/
def Block.tileInvalidate (b : Block) (scope product flags : Byte) (tx ty : Word) : Block :=
  let p := product.toNat
  let key : Key := { fid := b.prodFid p, tx := signed 32 tx.toNat, ty := signed 32 ty.toNat }
  let discard := flags.getLsbD 0
  match scope.toNat with
  | 0 => b.invalidate (fun f => f.prod == p && f.key == key) discard
  | 1 => b.invalidate (fun f => f.prod == p) discard
  | _ => b.invalidate (fun _ => true) discard

/-- A committed change of MAP_PROD[p] (R136). -/
def Block.prodChanged (b : Block) (p : Nat) : Block :=
  (b.invalidate (fun f => f.prod == p) false).modMap (fun m => { m with
    replay := m.replay.filter (fun r => r.prod != p) })

/-- Every outstanding fault cancelled (R144, R160). -/
def Block.cancelFaults (b : Block) : Block :=
  b.modMap (fun m => { m with faults := m.faults.map (fun _ => none) })

/-- The map at the COMMIT that applies FIELD_ORIGIN (R144); `old` is the frame identity until then. -/
def Block.mapOrigin (b : Block) (old : BitVec 16) : Block :=
  let b1 := (List.range 128).foldl (fun acc f =>
    match (acc.frame f).state with
    | .valid => acc.modFrame f (fun _ => {})
    | .filling => acc.abandonFill f true 72000
    | .dirty => acc.modFrame f (fun y => { y with wanted := true, retired := some (y.retired.getD old) })
    | .writingBack => acc.modFrame f (fun y => { y with retired := some (y.retired.getD old) })
    | _ => acc) b
  b1.cancelFaults.modMap (fun m => { m with tlb := m.tlb.map (fun _ => {}), replay := [] })

/-- The map when a session is lost or reset (R143, R160): fills are abandoned and faults cancelled, and the
    replay log is kept. -/
def Block.mapSessionLoss (b : Block) : Block :=
  ((List.range 128).foldl (fun acc f =>
    if (acc.frame f).state = .filling then acc.endFill f true 72000 else acc) b).cancelFaults

/-- The map after a reset (R160, R143): a frame whose scrub failed stays POISONED through a warm
    reset. -/
def FieldMap.afterReset (m : FieldMap) (cold : Bool) : FieldMap :=
  if cold then {}
  else { frames := m.frames.map (fun f => if f.dead then { state := .poisoned, dead := true } else {}) }

/-! ### Coverage (R153 to R155) -/

/-- A point lies on or ahead of the boom line through (`e`, `n`) with the given sine and cosine. -/
def forwardOf (sc : Int × Int) (e n pe pn : Int) : Int := (pe - e) * sc.1 + (pn - n) * sc.2

/-- How far to the right of (`e`, `n`) a point lies, along the boom line. -/
def rightOf (sc : Int × Int) (e n pe pn : Int) : Int := (pe - e) * sc.2 - (pn - n) * sc.1

/-- The centre of a cell lies in a segment (R153). -/
def Segment.covers (s : Segment) (sc0 sc1 : Int × Int) (pe pn : Int) : Bool :=
  let a := forwardOf sc0 s.e0 s.n0 pe pn
  let full := forwardOf sc0 s.e0 s.n0 s.e1 s.n1
  let drift := if full ≤ 0 then 0 else rightOf sc0 s.e0 s.n0 s.e1 s.n1 * a / full
  let off := rightOf sc0 s.e0 s.n0 pe pn - drift
  decide (0 ≤ a) && decide (forwardOf sc1 s.e1 s.n1 pe pn < 0)
    && decide (2 * off.natAbs < s.w * 1099511627776)

/-- The cells a segment covers, as cell coordinates (R139, R153). -/
def Segment.cells (s : Segment) (cs : Nat) : List (Int × Int) :=
  let sc0 := sinCos s.hb0
  let sc1 := sinCos s.hb1
  let half : Int := s.w
  let c0 := toField sc0 0 half
  let c1 := toField sc1 0 half
  let es := [s.e0 - c0.1, s.e0 + c0.1, s.e1 - c1.1, s.e1 + c1.1]
  let ns := [s.n0 - c0.2, s.n0 + c0.2, s.n1 - c1.2, s.n1 + c1.2]
  let loE := es.foldl min s.e0 / cs
  let hiE := es.foldl max s.e0 / cs
  let loN := ns.foldl min s.n0 / cs
  let hiN := ns.foldl max s.n0 / cs
  ((List.range (hiE - loE + 1).toNat).map (fun (i : Nat) =>
    ((List.range (hiN - loN + 1).toNat).map (fun (j : Nat) => (loE + i, loN + j))))).flatten.filter
      (fun c => s.covers sc0 sc1 (c.1 * cs + cs / 2) (c.2 * cs + cs / 2))

/-- The tile and index of a cell coordinate. -/
def cellPlace (fid : Nat) (c : Int × Int) : Key × Nat :=
  ({ fid := fid, tx := c.1 / 128, ty := c.2 / 128 }, (c.2 % 128).toNat * 128 + (c.1 % 128).toNat)

/-- The frame's cell raised under a segment's sequence number (R154). -/
def Frame.raiseCell (x : Frame) (cell : Nat) (seq : Word) (now : Nat) : Frame :=
  let y := { x with cells := x.cells.modify cell raiseCov, seq := seqMax seq x.seq
                    raised := x.raised + 1, raisedNew := x.raisedNew + 1 }
  match x.state with
  | .valid => { y with state := .dirty, since := now, wanted := false }
  | .writingBack => { y with redirty := true }
  | _ => y

/-- An entry put into the replay log: when it is full the oldest is dropped and its fill marked
    (R154). -/
def Block.logReplay (b : Block) (r : Replay) : Block :=
  match b.eng.map.replay with
  | old :: rest =>
    if 4096 ≤ rest.length + 1 then
      let b1 := (b.modMap (fun m => { m with replay := rest ++ [r] })).count .MAP_CNT_COV 0 31 16
      match b1.fillOf old.key with
      | some f => b1.modFrame f (fun x => { x with marked := true })
      | none => b1
    else b.modMap (fun m => { m with replay := m.replay ++ [r] })
  | [] => b.modMap (fun m => { m with replay := [r] })

/-- One cell of a segment written (R154): a frame that becomes DIRTY ends a fill of its key, and a
    writeback of it is called for (R148). -/
def Block.writeCell (b : Block) (s : Segment) (c : Int × Int) (at_ : Nat) : Block :=
  let (key, cell) := cellPlace (b.prodFid s.prod) c
  match b.coverOf key with
  | some f =>
    let wasValid := (b.frame f).state == .valid
    let b1 := b.modFrame f (fun x => x.raiseCell cell s.seq (b.now at_))
    if wasValid then
      match b1.fillOf key with
      | some g => (b1.abandonFill g true at_).wantWriteback f
      | none => b1
    else b1
  | none =>
    if (b.fillOf key).isSome || (b.faultOf key).isSome then
      b.logReplay { prod := s.prod, key := key, cell := cell, seq := s.seq }
    else b.count .MAP_CNT_COV 0 15 0

/-- Segments put into the walker's queue of 4 096 (R155). -/
def Block.queueSegments (b : Block) (l : List Segment) (at_ : Nat) : Block :=
  l.foldl (fun acc s =>
    if acc.eng.map.queue.length < 4096 then
      acc.modMap (fun m => { m with queue := m.queue ++ [s] })
    else
      let key := (acc.place s.prod s.e0 s.n0).1
      (acc.count .MAP_CNT_COV 0 15 0 (s.cells (acc.cellMm s.prod)).length).raiseLimited 59 1
        (keyPayload s.prod key s.seq) at_) b

/-- The walker writes the oldest queued segment (R154, R155). -/
def Block.coverNext (b : Block) (at_ : Nat) : Block :=
  match b.eng.map.queue with
  | [] => b
  | s :: rest =>
    (s.cells (b.cellMm s.prod)).foldl (fun acc c => acc.writeCell s c at_)
      (b.modMap (fun m => { m with queue := rest }))

/-! ### Writebacks (R156, R157) -/

/-- One TILE_WRITEBACK packet (R156). -/
def Block.sendWbChunk (b : Block) (tag : Nat) (w : Writeback) (at_ chunk : Nat) : Block :=
  b.sendOwn .main 0x0082 2 (leBytes 1 tag ++ leBytes 1 w.prod ++ leBytes 1 chunk ++ leBytes 1 w.key.fid
    ++ leBytes 4 (narrow 32 w.key.tx) ++ leBytes 4 (narrow 32 w.key.ty) ++ leBytes 4 w.seq.toNat
    ++ leBytes 2 w.frameId.toNat ++ leBytes 6 0 ++ w.cells.bytes chunk) at_

/-- The chunks of a writeback that a bitmap does not name, sent in order; the timer restarts (R156,
    R157). -/
def Block.sendWriteback (b : Block) (tag : Nat) (have_ : Word) (at_ : Nat) : Block :=
  match nth b.eng.map.buffers tag none with
  | none => b
  | some w =>
    let b1 := (List.range 32).foldl (fun acc c =>
      if have_.getLsbD c then acc else acc.sendWbChunk tag w at_ c) b
    b1.modMap (fun m => { m with
      buffers := modNth m.buffers tag (fun x => x.map (fun v => { v with lastSent := b.now at_ })) })

/-- A queued segment still has cells in a tile (R193). -/
def Block.segmentsTouch (b : Block) (prod : Nat) (key : Key) : Bool :=
  b.eng.map.queue.any (fun s => s.prod == prod
    && (s.cells (b.cellMm s.prod)).any (fun c => (cellPlace (b.prodFid s.prod) c).1 == key))

/-- WRITEBACK_START (R156): a DIRTY frame that calls for it is snapshotted and sent when a buffer is
    free. -/
def execWritebackStart (f : Fin 128) (at_ : Nat) : State → Host.Outcome State Fault Refusal :=
  lift (fun b =>
    let x := b.frame f
    let tag := b.eng.map.buffers.findIdx (fun w => w == none)
    if x.state = .dirty ∧ x.wanted ∧ tag < b.eng.map.buffers.length ∧ !b.segmentsTouch x.prod x.key then
      let w : Writeback := { frame := some f, prod := x.prod, key := x.key, seq := x.seq
                             frameId := x.retired.getD b.eng.pose.frame, cells := x.cells
                             lastSent := b.now at_ }
      (((b.modMap (fun m => { m with buffers := modNth m.buffers tag (fun _ => some w) })).modFrame f
        (fun x => { x with state := .writingBack, redirty := false, wanted := false, raisedNew := 0 }))
        ).sendWriteback tag 0 at_
    else b)

/-- DIRTY_AGE_EXPIRY (R156): a frame DIRTY for WB_AGE calls for a writeback. -/
def execDirtyAgeExpiry (f : Fin 128) (at_ : Nat) : State → Host.Outcome State Fault Refusal :=
  lift (fun b =>
    if (b.frame f).state = .dirty
        ∧ b.fld .MAP_CFG 0 31 24 * 1000000000 ≤ b.now at_ - (b.frame f).since then
      b.wantWriteback f
    else b)

/-- A frame whose writeback has been acknowledged in full (R143, R144, R158): one kept only to be written back
    is freed, also where coverage has reached it since (log entry 78). -/
def Frame.acknowledged (x : Frame) (seq : Word) (now : Nat) : Frame :=
  if x.state ≠ .writingBack then x
  else if x.retired.isSome || x.dropped then {}
  else if x.redirty then
    { x with state := .dirty, redirty := false, since := now, ackSeq := seq, raised := x.raisedNew }
  else { x with state := .valid, ackSeq := seq, raised := 0 }

/-- The row of TILE_WRITEBACK_ACK (R357). -/
def writebackAckRow : OpRow := opRow 0x002A 8

/-- Dispatch of TILE_WRITEBACK_ACK (R157). The snapshot of a poisoned frame is acknowledged like any other, and
    what the next POISON fault of its key reports follows it (R159). -/
def dispatchWritebackAck (h : Hdr) (tag : Byte) (bitmap : Word) : Dispatch := fun k _ arrived b =>
  let t := tag.toNat
  match nth b.eng.map.buffers t none with
  | none => b.replyNow (some k) h writebackAckRow.code .range
  | some w =>
    let b1 := b.replyNow (some k) h writebackAckRow.code .ok
    if bitmap = 0xFFFFFFFF then
      let b2 := (b1.modMap (fun m => { m with buffers := modNth m.buffers t (fun _ => none) })).count
        .MAP_CNT_WB 0 31 16
      match w.frame with
      | some f => b2.modFrame f (fun x => x.acknowledged w.seq (b.actAt arrived))
      | none => b2.modMap (fun m => { m with
          lost := m.lost.map (fun l => if l.1 == w.key then (l.1, w.seq) else l) })
    else (b1.sendWriteback t bitmap (b.actAt arrived - b.time.now)).count .MAP_CNT_WB 0 15 8

/-- TILE_WRITEBACK_ACK (R157). -/
def execTileWritebackAck (h : Hdr) (tag : Byte) (bitmap : Word) :
    State → Host.Outcome State Fault Refusal :=
  lift (fun b => b.request (.tileWritebackAck h tag bitmap) h writebackAckRow
    (dispatchWritebackAck h tag bitmap))

/-- WRITEBACK_TIMEOUT (R157): all chunks are resent, three times at most; then the writeback fails.
    While no MAIN session is open a writeback in flight waits for one (R160). -/
def execWritebackTimeout (buffer : Fin 4) (at_ : Nat) : State → Host.Outcome State Fault Refusal :=
  lift (fun b =>
    match nth b.eng.map.buffers buffer none with
    | none => b
    | some w =>
      if !b.isOpen .main || decide (b.now at_ - w.lastSent < b.fld .MAP_CFG 0 23 16 * 10000000) then b
      else if w.resends < 3 then
        ((b.modMap (fun m => { m with
          buffers := modNth m.buffers buffer (fun _ => some { w with resends := w.resends + 1 }) })
          ).sendWriteback buffer 0 at_).count .MAP_CNT_WB 0 15 8
      else
        let b1 := ((b.modMap (fun m => { m with
          buffers := modNth m.buffers buffer (fun _ => none) })).count .MAP_CNT_WB 0 7 0).raise 57 1
            (keyPayload w.prod w.key w.seq) at_
        match w.frame with
        | some f => b1.modFrame f (fun x =>
            if x.state = .writingBack then
              { x with state := .dirty, since := b.now at_, redirty := false
                       wanted := x.retired.isSome || x.dropped }
            else x)
        | none => b1)

/-- Writebacks in flight restart in full (R160), and the faults outstanding are sent to a MAIN session
    that opens (R362). -/
def Block.mapMainOpens (b : Block) : Block :=
  let b1 := (List.range 4).foldl (fun acc t =>
    (acc.modMap (fun m => { m with
      buffers := modNth m.buffers t (fun x => x.map (fun w => { w with resends := 0 })) })).sendWriteback
        t 0 0) b
  (List.range 16).foldl (fun acc s => acc.sendFault s false) b1

/-! ### Faults of the cache (R159) -/

/-- An uncorrectable error in a frame (R143, R159). -/
def Block.poison (b : Block) (f : Nat) (at_ : Nat) : Block :=
  let x := b.frame f
  match x.state with
  | .free => b
  | .poisoned => b
  | .filling =>
    let b1 := ((b.modFrame f (fun _ => { state := .poisoned, prod := x.prod, key := x.key, age := x.age })
      ).count .MAP_CNT_FILL 0 7 0).dropReplay x.key
    (b1.raise 58 1 (keyPayload x.prod x.key seqNone) at_).resendFault x.key at_
  | _ =>
    ((b.modFrame f (fun _ => { state := .poisoned, prod := x.prod, key := x.key, age := x.age
                               seq := x.seq })).modMap (fun m => { m with
      tlb := m.tlb.map (fun t => if t.frame == f then {} else t)
      lost := if x.retired.isSome then m.lost else (x.key, x.ackSeq) :: m.lost
      buffers := m.buffers.map (fun w => match w with
        | some v => some (if v.frame = some f then { v with frame := none } else v)
        | none => none) })).raise 58 1 (keyPayload x.prod x.key x.seq) at_

/-- FRAME_SCRUB (R143, R159): `good` is the outcome of reading the frame back. -/
def execFrameScrub (f : Fin 128) (good : Bool) (at_ : Nat) : State → Host.Outcome State Fault Refusal :=
  lift (fun b =>
    let x := b.frame f
    if x.state = .poisoned then
      if x.dead then b
      else if good then b.modFrame f (fun _ => {})
      else (b.modFrame f (fun x => { x with dead := true })).raise 58 1
        (keyPayload x.prod x.key seqNone) at_
    else if good then b
    else b.poison f at_)

/-! ### The remaining commands -/

/-- MAP_FAULT_TMO (R145): an evaluation has been parked on the key for the product's time-out. -/
def execMapFaultTmo (p : Fin 2) (tx ty : Int) (at_ : Nat) : State → Host.Outcome State Fault Refusal :=
  lift (fun b =>
    let k : Key := { fid := b.prodFid p, tx := tx, ty := ty }
    match b.waitOf p k with
    | some w =>
      if !w.timedOut ∧ b.parkedOn p k ∧ b.fld .MAP_POLICY p 26 16 * 1000000 ≤ b.now at_ - w.since then
        b.keyTimesOut p k at_
      else b
    | none => b)

/-- TILE_FAULT_RESEND (R146). -/
def execTileFaultResend (slot : Fin 16) (at_ : Nat) : State → Host.Outcome State Fault Refusal :=
  lift (fun b =>
    match nth b.eng.map.faults slot none with
    | some f =>
      if b.fld .MAP_CFG 0 11 8 * 10000000 ≤ b.now at_ - f.lastSent then b.sendFault slot true at_ else b
    | none => b)

/-- FAULT_SLOT_RELEASE (R146): not requested for 500 ms, and no evaluation parked on the key. -/
def execFaultSlotRelease (slot : Fin 16) (at_ : Nat) : State → Host.Outcome State Fault Refusal :=
  lift (fun b =>
    match nth b.eng.map.faults slot none with
    | some f =>
      if 500000000 ≤ b.now at_ - f.lastUse ∧ !b.parkedOn 0 f.key ∧ !b.parkedOn 1 f.key then b.releaseFault f.key
      else b
    | none => b)

/-- FILL_TIMEOUT (R143, R159): no chunk for FILL_TMO. -/
def execFillTimeout (f : Fin 128) (at_ : Nat) : State → Host.Outcome State Fault Refusal :=
  lift (fun b =>
    let x := b.frame f
    if x.state = .filling ∧ x.doneAt = none
        ∧ b.fld .MAP_CFG 0 7 0 * 1000000 ≤ b.now at_ - x.since then
      (b.abandonFill f true at_).resendFault x.key at_
    else b)

/-- The row of MAP_POLICY (R357). -/
def mapPolicyRow : OpRow := opRow 0x002B 8

/-- Dispatch of MAP_POLICY (R147). -/
def dispatchMapPolicy (h : Hdr) (product policy : Byte) (tmo : BitVec 16) (i : Instr) : Dispatch :=
  fun k seq arrived b =>
    if 2 ≤ product.toNat ∨ 3 ≤ policy.toNat ∨ 2000 < tmo.toNat then
      b.replyNow (some k) h mapPolicyRow.code .range
    else b.posts seq arrived k h mapPolicyRow.code i

/-- MAP_POLICY at its COMMIT (R147). -/
def Block.mapPolicy (b : Block) (product policy : Byte) (tmo : BitVec 16) : Block :=
  b.setWord .MAP_POLICY product.toNat 0 (fieldAt 16 tmo.toNat ||| fieldAt 0 policy.toNat)

/-- MAP_POLICY (R147). -/
def execMapPolicy (h : Hdr) (product policy : Byte) (tmo : BitVec 16) :
    State → Host.Outcome State Fault Refusal :=
  let i : Instr := .mapPolicy h product policy tmo
  lift (fun b => b.request i h mapPolicyRow (dispatchMapPolicy h product policy tmo i))

/-- The row of TILE_INVALIDATE (R357). -/
def tileInvalidateRow : OpRow := opRow 0x0029 12

/-- Dispatch of TILE_INVALIDATE (R158). -/
def dispatchTileInvalidate (h : Hdr) (scope product flags : Byte) (i : Instr) : Dispatch :=
  fun k seq arrived b =>
    if 3 ≤ scope.toNat ∨ (scope ≠ 2 ∧ 2 ≤ product.toNat) then
      b.replyNow (some k) h tileInvalidateRow.code .range
    else if k = .main ∧ flags.getLsbD 0
        ∧ (List.range 96).any (fun n => (b.unit (unitNoz n)).state == .active) then
      b.replyNow (some k) h tileInvalidateRow.code .denied
    else b.posts seq arrived k h tileInvalidateRow.code i

/-- TILE_INVALIDATE (R158). -/
def execTileInvalidate (h : Hdr) (scope product flags : Byte) (tx ty : Word) :
    State → Host.Outcome State Fault Refusal :=
  let i : Instr := .tileInvalidate h scope product flags tx ty
  lift (fun b => b.request i h tileInvalidateRow (dispatchTileInvalidate h scope product flags i))

/-- The map's part of a Tick edge: every frame ages (MAP_FRAME_STATE.AGE), and the walker's slots of
    the next ALMANAC phase are filled (R141). -/
def Block.mapTick (b : Block) (ticks : Nat) : Block :=
  b.modMap (fun m => { m with
    slots := 2080, slotsUsed := 0
    frames := m.frames.map (fun f =>
      if f.state = .free then f else { f with age := min 65535 (f.age + ticks) }) })

end Sys2Proof.Machine
end

