-- ==== Sys2Proof/Machine/Nozzle.lean ====
section
/-! DEFINITION. Nozzle channels and banks: the actuation, spray PWM, armature detection, learned
    delays, diagnostics and NOZZLE_FORCE (07). Instants are on the model's clock, in ns. -/

namespace Sys2Proof.Machine

open Sys2Proof (Word Byte Sess Hdr Instr Estimate Probe)

/-- The block with the valve drive replaced by its image. -/
def Block.modValve (b : Block) (f : Valve → Valve) : Block :=
  { b with eng := { b.eng with valve := f b.eng.valve } }

/-- Nozzle channel `n`. -/
def Block.noz (b : Block) (n : Nat) : Noz := nth b.eng.valve.noz n {}

/-- The block with channel `n` replaced by its image. -/
def Block.modNoz (b : Block) (n : Nat) (f : Noz → Noz) : Block :=
  b.modValve (fun v => { v with noz := modNth v.noz n f })

/-- The low side carries the pulse: RISE, PEAK or HOLD (R208). -/
def NozSeq.energised : NozSeq → Bool
  | .rise => true
  | .peak => true
  | .hold => true
  | _ => false

/-- The bank of a nozzle and the boost of a bank (R200). -/
def bankOf (n : Nat) : Nat := n / 8
def boostOf (bank : Nat) : Nat := bank / 4

/-- Boost `c`. -/
def Block.boost (b : Block) (c : Nat) : Boost := nth b.eng.valve.boosts c {}

/-- The channels of a bank. -/
def bankChannels (bank : Nat) : List Nat := (List.range 8).map (fun j => 8 * bank + j)

/-- The settings of a channel as they stand (R238), times in ns. -/
def Block.iPeak (b : Block) (n : Nat) : Nat := b.fld .NOZ_PEAK n 11 0
def Block.tPeak (b : Block) (n : Nat) : Nat := b.fld .NOZ_PEAK n 31 16 * 10000
def Block.iHold (b : Block) (n : Nat) : Nat := b.fld .NOZ_HOLD n 10 0
def Block.minOff (b : Block) (n : Nat) : Nat := b.fld .NOZ_HOLD n 24 16 * 100000
def Block.detEn (b : Block) (n : Nat) : Bool := b.flag .NOZ_CFG n 0
def Block.detMin (b : Block) (n : Nat) (opening : Bool) : Nat :=
  (if opening then b.fld .NOZ_DET_OPEN n 19 8 else b.fld .NOZ_DET_CLOSE n 19 8) * 100000
def Block.detMax (b : Block) (n : Nat) (opening : Bool) : Nat :=
  (if opening then b.fld .NOZ_DET_OPEN n 31 20 else b.fld .NOZ_DET_CLOSE n 31 20) * 100000

/-- The settings that a pulse starting now runs with (R238): a committed change does not reach the pulse in
    progress, but for I_HOLD and I_PEAK of its later chop frames. -/
def Block.pulseSet (b : Block) (n : Nat) : PulseSet :=
  { iPeak := b.iPeak n, tPeak := b.tPeak n, minOff := b.minOff n
    slowPeak := !b.flag .NOZ_CFG n 3, slowClose := !b.flag .NOZ_CFG n 1, det := b.detEn n
    openMin := b.detMin n true, openMax := b.detMax n true
    openStep := b.fld .NOZ_DET_OPEN n 7 4, openConf := b.fld .NOZ_DET_OPEN n 3 0
    closeMin := b.detMin n false, closeMax := b.detMax n false, closeStep := b.fld .NOZ_DET_CLOSE n 7 4
    boost := b.flag .BANK_CFG (bankOf n) 0 }

/-- The spray-PWM period of a bank (R211). -/
def Block.periodNs (b : Block) (bank : Nat) : Nat :=
  let f := b.fld .BANK_CFG bank 31 21
  if f = 0 then 100000000 else (20000000000 + f) / (2 * f)

/-- The bank's high side is energised: no bank fault stands, and some channel of the bank is ACTIVE
    or SERVICE or still finishing (R201, R227, R229; log entry 40). -/
def Block.hsOn (b : Block) (bank : Nat) : Bool :=
  b.fld .BANK_FLT bank 2 0 == 0
    && (bankChannels bank).any (fun n => b.runs (unitNoz n)
          || (b.noz n).seq.energised || (b.noz n).seq == .decay || (b.noz n).seq == .settle)

/-- The channels of a bank that are rising. -/
def Block.rising (b : Block) (bank : Nat) : List Nat :=
  (bankChannels bank).filter (fun n => (b.noz n).seq == .rise)

/-- The bank node stands on the boost (R201). -/
def Block.nodeOnBoost (b : Block) (bank : Nat) : Bool :=
  (b.rising bank).any (fun n => (b.noz n).pset.boost && !(b.noz n).battPull)

/-- The node voltage of a bank in mV. -/
def Block.nodeMv (b : Block) (bank : Nat) : Nat :=
  if b.nodeOnBoost bank then (b.boost (boostOf bank)).vout else b.vpwrMv

/-- The bank load in mA (R209): a channel in RISE counts with the I_PEAK of its rise, one in PEAK or HOLD
    with the level its next chop frame uses (R238). -/
def Block.bankLoad (b : Block) (bank : Nat) : Nat :=
  ((bankChannels bank).map (fun n =>
    match (b.noz n).seq with
    | .rise => (b.noz n).pset.iPeak
    | .peak => b.iPeak n
    | .hold => b.iHold n
    | _ => 0)).sum

/-! ### Bands and learned delays (R225, R226) -/

/-- The supply band of a node voltage in mV. -/
def supplyBand (mv : Nat) : Nat :=
  if mv < 16000 then 0 else if mv < 28000 then 1 else if mv < 44000 then 2 else 3

/-- The temperature band of an estimate in 10^-7 degree C. -/
def tempBand (t : Int) : Nat :=
  if t < 0 then 0 else if t < 400000000 then 1 else if t < 800000000 then 2 else 3

/-- The supply band that the Almanac plans with; VPWR is that of the last CAPTURE latch (R225). -/
def Block.planBand (b : Block) (n : Nat) (opening : Bool) : Nat :=
  let bank := bankOf n
  let c := boostOf bank
  if opening && b.flag .BANK_CFG bank 0 && (b.boost c).state == .ready then
    supplyBand (b.fld .BST_CFG c 9 0 * 100)
  else supplyBand b.eng.pwr.latch.vpwr

/-- How near a measured cell is to the cell wanted: supply band first, then temperature band, then
    the lower bands (R226). -/
def cellRank (v t i : Nat) : Nat :=
  let v' := i / 4
  let t' := i % 4
  (max v v' - min v v') * 1000 + (max t t' - min t t') * 100 + v' * 10 + t'

/-- The learned delay of a cell in units of 10 us; an unmeasured cell takes the nearest measured one,
    or the initial value (R226). -/
def cellValue (l : List (Option Nat)) (init v t : Nat) : Nat :=
  match nth l (4 * v + t) none with
  | some x => x
  | none =>
    let ranks := ((List.range 16).filter (fun i => (nth l i none).isSome)).map (cellRank v t)
    match ranks.min? with
    | none => init
    | some r =>
      let i := (List.range 16).find? (fun i => (nth l i none).isSome && cellRank v t i == r)
      ((i.bind (fun i => nth l i none)).getD init)

/-- A learned delay of a channel, in units of 10 us. -/
def Block.learnedCell (b : Block) (n : Nat) (opening : Bool) (v t : Nat) : Nat :=
  let x := (b.noz n).learned
  if opening then cellValue x.opens (b.fld .NOZ_INIT n 15 0) v t
  else cellValue x.closes (b.fld .NOZ_INIT n 31 16) v t

/-- The learned delay of the planning bands, in units of 10 us (R172, R225). -/
def Block.learnedPlan (b : Block) (n : Nat) (opening : Bool) : Nat :=
  b.learnedCell n opening (b.planBand n opening) (b.noz n).tband

/-- The same in ns. -/
def Block.delayNs (b : Block) (n : Nat) (opening : Bool) : Nat := b.learnedPlan n opening * 10000

/-- A measured delay `m`, in units of 10 us, learned into the cell of its band (R226). -/
def Block.learn (b : Block) (n : Nat) (opening : Bool) (v m : Nat) : Block :=
  let t := (b.noz n).tband
  let l := b.learnedCell n opening v t
  let new := ((l : Int) + divRound (((m : Int) - l) * b.fld .NOZ_LEARN n 31 24) 256).toNat
  let b1 := b.modNoz n (fun x => { x with
    learned := if opening then { x.learned with opens := modNth x.learned.opens (4 * v + t) (fun _ => some new) }
               else { x.learned with closes := modNth x.learned.closes (4 * v + t) (fun _ => some new) }
    measOpen := if opening then m else x.measOpen
    measClose := if opening then x.measClose else m })
  b1.modValve (fun x => { x with learnedDirty := true })

/-- A committed write of NOZ_INIT resets the channel's 32 cells (R226). -/
def Block.learnedReset (b : Block) (n : Nat) : Block :=
  (b.modNoz n (fun x => { x with learned := {} })).modValve (fun x => { x with learnedDirty := true })

/-- The coil temperature from the means of a HOLD of at least 2 ms (R225). -/
def Block.measureCoil (b : Block) (n now : Nat) : Block :=
  let x := b.noz n
  if x.seq = .hold ∧ x.holdFrom + 2000000 ≤ now ∧ 0 < x.holdMa then
    let rc : Int := divRound ((x.holdMv * x.holdOn : Nat) - (500 * (1000 - x.holdOn) : Nat)) x.holdMa
      - x.pathMohm
    let ref : Int := b.fld .NOZ_LEARN n 15 0 * 10
    let raw : Int := 200000000 + divRound ((rc - ref) * 1000000000000) (393 * ref)
    let dt : Int := min (now - x.tempAt) 10000000000
    b.modNoz n (fun x => { x with
      temp := x.temp + divRound ((raw - x.temp) * dt) 10000000000
      tempAt := now, lastHold := now
      tband := tempBand (x.temp + divRound ((raw - x.temp) * dt) 10000000000) })
  else if x.seq = .hold then b.modNoz n (fun x => { x with lastHold := now })
  else b

/-! ### Outcomes (R222, R223) -/

/-- The outcome of an actuation recorded for the next COMMIT; a confirmation sets FAILS to 0. -/
def Block.result (b : Block) (n : Nat) (r : ActResult) : Block :=
  b.modNoz n (fun x => { x with
    outcomes := x.outcomes ++ [r]
    fails := if r.fail = none ∧ r.act ≠ .rate then 0 else x.fails })

/-- The act that the present pull-in belongs to. -/
def pullAct (p : Pull) : Act :=
  match p with
  | .pulse => .pulse
  | _ => .opens

/-- A fast or slow turn-off bookkeeping: energised time counted up to `now` (R215). -/
def Block.countEnergised (b : Block) (n now : Nat) : Block :=
  b.modNoz n (fun x =>
    let add := if x.seq.energised then now - x.countedTo else 0
    let bins := match x.bins with
      | [] => [add]
      | h :: t => (h + add) :: t
    if x.binFrom + 100000000 ≤ now then
      { x with bins := (0 :: bins).take 600, binFrom := now, countedTo := now }
    else { x with bins := bins, countedTo := now })

/-- The low side switches off: DECAY, with close detection; `bearing` is true where a CLOSE caused it.
    A lead-in's open time is taken off acc, and the supply band is that of the node at this instant (R225); an OPEN, PULSE or force start whose signature is still
    awaited has FAILED with kind 1 (R208, R214, R222, R224). -/
def Block.turnOff (b : Block) (n : Nat) (bearing : Bool) (now : Nat) : Block :=
  let x := b.noz n
  if !x.seq.energised then b
  else
    let dOpen := b.delayNs n true
    let dClose := b.delayNs n false
    let det := x.pset.det
    let b1 := (b.countEnergised n now).measureCoil n now
    let b2 := if x.openDet && x.pull != .period then
        b1.result n { act := pullAct x.pull, fail := some 1, at_ := now }
      else b1
    b2.modNoz n (fun y => { y with
      seq := .decay, offAt := now, falling := false, leadIn := false, pulseEnd := none
      openDet := false, vband := supplyBand (b.nodeMv (bankOf n))
      acc := if x.leadIn && x.on then x.acc - ((now - x.riseAt : Nat) - (dOpen : Int) + dClose) else y.acc
      closeDet := if det then some { since := now, bearing := bearing, from_ := now } else none
      assumeClose := if !det && bearing then some (now + dClose) else y.assumeClose
      closeFound := false })

/-- The spray PWM of a channel stops: no further periods (R214), and none that the limiter shortens (R215). -/
def Noz.stopSpray (x : Noz) : Noz :=
  { x with on := false, nextPeriod := none, acc := 0, rateWait := false, limited := false }

/-- The lead-in or PULSE of a request that will not happen: its entry has FAILED. -/
def Block.failPull (b : Block) (n : Nat) (p : Pull) (kind now : Nat) : Block :=
  match p with
  | .period => b
  | _ => b.result n { act := pullAct p, fail := some kind, at_ := now }

/-- A waiting, deferred or held request cancelled; the OPEN it was the lead-in of has FAILED with
    kind 3, without counting (R214). -/
def Block.cancelPull (b : Block) (n now : Nat) : Block :=
  let x := b.noz n
  let p : Option Pull :=
    if x.seq = .wait ∨ (x.seq = .quiet ∧ x.deferUntil.isSome) then some x.pull else x.held
  let b1 := b.modNoz n (fun x => { x with
    seq := if x.seq = .wait then .quiet else x.seq, deferUntil := none, held := none })
  match p with
  | some q => b1.failPull n q 3 now
  | none => b1

/-- The channel is held off as STUCK (R223). -/
def Block.nozStuck (b : Block) (n : Nat) (at_ : Nat) : Block :=
  let now := b.now at_
  let b1 := ((b.turnOff n false now).cancelPull n now).modNoz n (fun x => { x.stopSpray with stuck := true })
  (b1.latch .NOZ_FLT n 5).raiseItems 66 1 0 [unitNoz n] at_

/-- One failed detection (R223). -/
def Block.countFail (b : Block) (n : Nat) (at_ : Nat) : Block :=
  let f := (b.noz n).fails + 1
  let b1 := (b.modNoz n (fun x => { x with fails := min f 3 })).count .NOZ_CNT0 n 7 0
  if 3 ≤ f && !(b.noz n).stuck then b1.nozStuck n at_ else b1

/-! ### Requests (R208, R209, R217) -/

/-- A CLOSE that awaits a detection which ends now counts as confirmed once its learned close delay
    has elapsed from the turn-off, as with detection disabled, and not before its delivery (R217, R222, R224). -/
def Block.abandonClose (b : Block) (n : Nat) : Block :=
  match (b.noz n).closeDet with
  | some c =>
    let due := max c.from_ ((b.noz n).offAt + b.delayNs n false)
    b.modNoz n (fun x => { x with
      closeDet := none, assumeClose := if c.bearing then some due else x.assumeClose })
  | none => b

/-- A pull-in request delivered at `at_`, under a firm deferral of `delta` ns (R208, R217, R223). -/
def Block.pullIn (b : Block) (n : Nat) (p : Pull) (delta : Nat) (at_ : Nat) : Block :=
  let now := b.now at_
  let x := b.noz n
  if x.stuck then
    ((b.count .NOZ_CNT1 n 7 0).modNoz n Noz.stopSpray).failPull n p 3 now
  else
    match x.seq with
    | .quiet =>
      let b := b.abandonClose n
      if 0 < delta then
        b.modNoz n (fun x => { x with deferUntil := some (now + delta), waitFrom := now, pull := p })
      else b.modNoz n (fun x => { x with seq := .wait, waitFrom := now, pull := p })
    | .wait => b.modNoz n (fun x => { x with pull := if p = .period then x.pull else p })
    | .decay =>
      ((b.abandonClose n).count .NOZ_CNT1 n 7 0).modNoz n (fun x => { x with held := some p })
    | .settle =>
      ((b.abandonClose n).count .NOZ_CNT1 n 7 0).modNoz n (fun x => { x with held := some p })
    | .fault => (b.modNoz n Noz.stopSpray).failPull n p 1 now
    | _ =>
      match p with
      | .pulse => b.modNoz n (fun x => { x with pulseEnd := some (now + x.pulseNs) })
      | .leadIn => b.modNoz n (fun x => { x with leadIn := true, pull := .leadIn })
      | .period => b

/-- A channel whose firm deferral has elapsed waits (R187, R209). -/
def Noz.waiting (x : Noz) (now : Nat) : Bool :=
  x.seq == .wait || (x.seq == .quiet && (match x.deferUntil with
    | some t => decide (t ≤ now)
    | none => false))

/-- A channel whose firm deferral has elapsed by `now` enters WAIT (R208, R209). -/
def Block.enterWait (b : Block) (n now : Nat) : Block :=
  if (b.noz n).waiting now then b.modNoz n (fun x => { x with seq := .wait }) else b

/-- A pull-in dropped; the period of a dropped period pull-in is skipped and stays owed (R207, R209, R212,
    R213). -/
def Block.dropPull (b : Block) (n : Nat) (at_ : Nat) : Block :=
  let x := b.noz n
  let b1 := ((b.count .BANK_CNT (bankOf n) 15 8).count .NOZ_CNT1 n 23 16).raiseItems 70 1 0 [unitNoz n] at_
  let b2 := b1.modNoz n (fun y =>
    let z := { y with seq := .quiet, deferUntil := none }
    match x.pull with
    | .period => { z with acc := z.acc + z.give }
    | _ => z.stopSpray)
  let b3 := if x.pull = .period then b2.count .NOZ_CNT0 n 15 8 else b2
  b3.failPull n x.pull 3 (b.now at_)

/-! ### Spray PWM (R211 to R216) -/

/-- The speed that a channel's duty follows (R212). -/
def Block.nozSpeed (b : Block) (n : Nat) : Int :=
  let v := if b.flag .NOZ_CFG n 2 then (b.nozSeen n).v else b.eng.pose.speed
  max v (b.fld .POSE_CTRL 0 31 16 * 1000 : Nat)

/-- The open fraction d in 0.1 % (R212, R216). -/
def Block.openFraction (b : Block) (n : Nat) : Nat :=
  let x := b.noz n
  if x.byRate then
    let q := (x.rate : Int) * b.fld .ALM_NOZ_CFG n 15 0 * b.nozSpeed n * 6
    min 1000 (divRound q (1000000000 * max 1 (b.fld .NOZ_FLOW n 15 0))).toNat
  else x.duty

/-- What a period does (R212): no pulse, one pulse of a length, or energised to the next period. -/
inductive Choice where
  | skip
  | pulse (ns : Nat)
  | stay
  deriving DecidableEq, Repr

/-- The open time that one pulse of a period gives: the owed time, its pulse held to the shortest and
    the longest pulse (R212). -/
def pulseGives (owed period tPeak minOff dOpen dClose : Int) : Int :=
  clampInt (tPeak + dOpen) (period - minOff) (owed + dOpen - dClose) - dOpen + dClose

/-- The choice of one period: `acc` with the owed time added, times in ns (R212). The answer is the
    choice, what it gives, and the regime. -/
def choosePulse (acc owed : Int) (period tPeak minOff dOpen dClose : Int) :
    Choice × Int × Bool × Bool :=
  let t0 := owed + dOpen - dClose
  let tmin := tPeak + dOpen
  let tmax := period - minOff
  if tmax < tmin then
    if 2 * acc ≥ period then (.stay, period, true, false) else (.skip, 0, true, false)
  else
    let t := clampInt tmin tmax t0
    let g := t - dOpen + dClose
    if t0 < tmin then
      if 2 * acc ≥ g then (.pulse t.toNat, g, true, false) else (.skip, 0, true, false)
    else if tmax < t0 then
      if 2 * acc ≥ g + period then (.stay, period, false, true) else (.pulse t.toNat, g, false, true)
    else (.pulse t.toNat, g, false, false)

/-- The energised time that NOZ_DLIM still allows, none when the limiter is disabled (R215). -/
def Block.limitLeft (b : Block) (n : Nat) : Option Nat :=
  let limit := b.fld .NOZ_DLIM n 7 0
  if limit = 100 then none
  else
    let win := b.fld .NOZ_DLIM n 15 8
    some (win * 10000000 * limit - (((b.noz n).bins.take (win * 10)).sum))

/-- A choice under the limiter: the choice, and whether the limiter acted (R215). -/
def limitChoice (c : Choice) (left : Option Nat) (tmin period : Nat) : Choice × Bool :=
  match left with
  | none => (c, false)
  | some l =>
    match c with
    | .skip => (.skip, false)
    | .pulse t => if t ≤ l then (c, false) else if tmin ≤ l then (.pulse l, true) else (.skip, true)
    | .stay => if period ≤ l then (c, false) else if tmin ≤ l then (.pulse l, true) else (.skip, true)

/-- The event of a pulse that the limiter has shortened or skipped (R215). -/
def Block.limitEvent (b : Block) (n : Nat) (limited : Bool) (at_ : Nat) : Block :=
  if limited then b.raiseLimited 67 1 (payB 0 0 [unitNoz n]) at_ else b

/-- A choice carried out at a period start: an energised channel needs no pull-in (R212); a pulse ends from
    HOLD alone (R208). -/
def Block.doChoice (b : Block) (n : Nat) (c : Choice) (at_ : Nat) : Block :=
  let now := b.now at_
  let energised := (b.noz n).seq.energised
  match c with
  | .skip =>
    if (b.noz n).seq = .hold then b.turnOff n false now
    else if energised then b.modNoz n (fun x => { x with pulseEnd := some now })
    else b
  | .pulse t =>
    if energised then b.modNoz n (fun x => { x with pulseEnd := some (now + t) })
    else (b.modNoz n (fun x => { x with pulseNs := t })).pullIn n .period 0 at_
  | .stay =>
    if energised then b.modNoz n (fun x => { x with pulseEnd := none })
    else (b.modNoz n (fun x => { x with pulseNs := 0 })).pullIn n .period 0 at_

/-- The choice of a period and what follows from it (R212 to R215). -/
def Block.period (b : Block) (n : Nat) (at_ : Nat) : Block :=
  let x := b.noz n
  let d := b.openFraction n
  let b0 := b.modNoz n (fun x => { x with lastDuty := d, leadIn := false })
  let dOpen := b.delayNs n true
  let dClose := b.delayNs n false
  let tmin := b.tPeak n + dOpen
  if d = 0 then
    (b0.modNoz n (fun x => { x with skipping := false, merging := false, limited := false, give := 0 })
      ).doChoice n .skip at_
  else
    let owed : Int := d * x.periodNs / 1000
    let acc := x.acc + owed
    let r : Choice × Int × Bool × Bool :=
      if d = 1000 then (.stay, acc, false, false)
      else choosePulse acc owed x.periodNs (b.tPeak n) (b.minOff n) dOpen dClose
    let lim := limitChoice r.1 (b.limitLeft n) tmin x.periodNs
    let give : Int := match lim.1, lim.2 with
      | .skip, _ => 0
      | .pulse t, true => (t : Int) - dOpen + dClose
      | _, _ => r.2.1
    let g := pulseGives owed x.periodNs (b.tPeak n) (b.minOff n) dOpen dClose
    let acc1 := if d = 1000 && !lim.2 then 0 else acc - give
    let b1 := b0.modNoz n (fun x => { x with
      acc := if lim.2 then min acc1 g else acc1
      give := give, skipping := r.2.2.1, merging := r.2.2.2, limited := lim.2 })
    let b2 := if lim.1 = .skip then b1.count .NOZ_CNT0 n 15 8 else b1
    (b2.limitEvent n lim.2 at_).doChoice n lim.1 at_

/-- The times that the lead-in's length is computed from (R212, R214): the owed time of its period, the
    length that would give it, the shortest and the longest pulse. -/
structure LeadInTimes where
  owed : Int
  t0 : Int
  tmin : Int
  tmax : Int
  deriving DecidableEq, Repr

/-- The times of a lead-in that starts now. -/
def Block.leadInTimes (b : Block) (n : Nat) : LeadInTimes :=
  let t := b.periodNs (bankOf n)
  let dOpen : Int := b.delayNs n true
  let owed : Int := b.openFraction n * t / 1000
  { owed := owed, t0 := owed + dOpen - b.delayNs n false, tmin := b.tPeak n + dOpen
    tmax := (t : Int) - b.minOff n }

/-- The length of a lead-in: tmin where tmin exceeds tmax (R214). -/
def LeadInTimes.length (l : LeadInTimes) : Int :=
  if l.tmax < l.tmin then l.tmin else clampInt l.tmin l.tmax l.t0

/-- The first pulse of an OPEN or a PULSE under the limiter (R214 to R216): a pulse cut below tmin is
    skipped. -/
def Block.firstPulse (b : Block) (n : Nat) : Choice × Bool :=
  let l := b.leadInTimes n
  let c : Choice := match (b.noz n).pull with
    | .pulse => .pulse (max (b.noz n).pulseNs (b.tPeak n))
    | _ => if b.openFraction n = 1000 then .stay else .pulse l.length.toNat
  limitChoice c (b.limitLeft n) l.tmin.toNat (b.periodNs (bankOf n))

/-- The end of a pulse that a choice starts now. -/
def Choice.endAt (c : Choice) (now : Nat) : Option Nat :=
  match c with
  | .skip => some now
  | .pulse t => some (now + t)
  | .stay => none

/-- The lead-in at its start, or where it would have started (R213 to R215): spray PWM runs, its first
    period begins here, and that period's owed time is in acc. -/
def Block.leadInStart (b : Block) (n : Nat) (c : Choice) (limited : Bool) (at_ : Nat) : Block :=
  let now := b.now at_
  let t := b.periodNs (bankOf n)
  let d := b.openFraction n
  let l := b.leadInTimes n
  let inRegime := d != 0 && d != 1000
  let skips := decide (l.tmax < l.tmin) || decide (l.t0 < l.tmin)
  b.modNoz n (fun x => { x with
    on := true, leadIn := c != .skip, lastDuty := d, origin := now, periodNs := t, give := 0
    acc := if limited then
        min l.owed (pulseGives l.owed t (b.tPeak n) (b.minOff n) (b.delayNs n true) (b.delayNs n false))
      else l.owed
    nextPeriod := some (now + t), skipping := inRegime && skips
    merging := inRegime && !skips && decide (l.tmax < l.t0)
    limited := limited, pulseEnd := c.endAt now })

/-- A first pulse that the limiter skips: no rise is made, and its OPEN or PULSE has FAILED with kind 1
    (R215, R222; log entry 80). -/
def Block.skipFirst (b : Block) (n at_ : Nat) : Block :=
  let x := b.noz n
  let b1 := (b.modNoz n (fun x => { x with seq := .quiet, deferUntil := none, limited := true })).count
    .NOZ_CNT0 n 15 8
  let b2 := if x.pull = .leadIn then
      (b1.leadInStart n .skip true at_).modNoz n (fun x => { x with pulseEnd := none })
    else b1
  (b2.failPull n x.pull 1 (b.now at_)).limitEvent n true at_

/-- RISE begins, with the settings as they stand (R207, R208, R211, R214, R220, R224, R238). -/
def Block.riseNow (b : Block) (n : Nat) (batt : Bool) (c : Choice) (limited : Bool) (at_ : Nat) : Block :=
  let now := b.now at_
  let x := b.noz n
  let det := b.detEn n
  let b1 := b.modNoz n (fun x => { x with
    seq := .rise, riseAt := now, deferUntil := none, falling := false, peakAt := none, battPull := batt
    pset := b.pulseSet n, settleAt := none
    openDet := det
    assumeOpen := if !det && x.pull != .period then some (now + b.delayNs n true) else x.assumeOpen
    closeDet := none, countedTo := now })
  let b2 := (b1.modNoz n (fun x => { x with vband := supplyBand (b1.nodeMv (bankOf n)) })).count
    .NOZ_CNT0 n 31 16
  match x.pull with
  | .leadIn => (b2.leadInStart n c limited at_).limitEvent n limited at_
  | .period => b2.modNoz n (fun x => { x with
      leadIn := false, pulseEnd := if x.pulseNs = 0 then none else some (now + x.pulseNs) })
  | .pulse => (b2.modNoz n (fun x => { x with
      leadIn := false, limited := limited, pulseEnd := c.endAt now })).limitEvent n limited at_

/-- The start of RISE of an admitted channel, unless the limiter skips its pulse. -/
def Block.startRise (b : Block) (n : Nat) (batt : Bool) (at_ : Nat) : Block :=
  let f := b.firstPulse n
  if f.1 = .skip ∧ (b.noz n).pull ≠ .period then b.skipFirst n at_ else b.riseNow n batt f.1 f.2 at_

/-! ### The sequencer's events (R208, R209) -/

/-- Event 68 for a boost, at most once in each 100 ms for each boost (R207). -/
def Block.boostNotReady (b : Block) (c : Nat) (at_ : Nat) : Block :=
  b.raiseKeyed (1000 + c) 68 1 (payB 0 192 [unitBst c]) at_

/-- A waiting channel may be admitted now (R209); without VPWR none is (R489). -/
def Block.admissible (b : Block) (n : Nat) (now : Nat) : Bool :=
  let bank := bankOf n
  b.stagesOn && (b.noz n).waiting now
    && !(bankChannels bank).any (fun m => decide (m < n) && (b.noz m).waiting now)
    && decide ((b.rising bank).length < b.fld .BANK_CFG bank 4 2)
    && decide (b.bankLoad bank + b.iPeak n ≤ 8000)

/-- PULL_IN_ADMIT (R207, R209). -/
def execPullInAdmit (n : Fin 96) (at_ : Nat) : State → Host.Outcome State Fault Refusal :=
  lift (fun b0 =>
    let now := b0.now at_
    let b := b0.enterWait n now
    if b.admissible n now then
      let x := b.noz n
      let bank := bankOf n
      let c := boostOf bank
      let b1 := if max x.waitFrom (x.deferUntil.getD 0) < now then
          (b.count .BANK_CNT bank 31 16).count .NOZ_CNT1 n 31 24
        else b
      if b.flag .BANK_CFG bank 0 ∧ (b.boost c).state ≠ .ready then
        let b2 := b1.boostNotReady c at_
        if b.flag .BANK_CFG bank 1 then b2.dropPull n at_
        else (b2.count .BANK_CNT bank 7 0).startRise n true at_
      else b1.startRise n false at_
    else b)

/-- PULL_DROP (R209): not admitted within 400 us of delivery. -/
def execPullDrop (n : Fin 96) (at_ : Nat) : State → Host.Outcome State Fault Refusal :=
  lift (fun b =>
    if (b.noz n).waiting (b.now at_) ∧ 400000 ≤ b.now at_ - (b.noz n).waitFrom then b.dropPull n at_
    else b)

/-- RISE_PEAK_REACHED (R208). -/
def execRisePeakReached (n : Fin 96) (ma : Nat) (at_ : Nat) :
    State → Host.Outcome State Fault Refusal :=
  lift (fun b =>
    if (b.noz n).seq = .rise ∧ (b.noz n).pset.iPeak ≤ ma then
      b.modNoz n (fun x => { x with seq := .peak, peakAt := some (b.now at_) })
    else b)

/-- T_PEAK_EXPIRY (R208, R210): `sustained` is false where the node could not hold I_PEAK. -/
def execTPeakExpiry (n : Fin 96) (sustained : Bool) (at_ : Nat) :
    State → Host.Outcome State Fault Refusal :=
  lift (fun b =>
    let now := b.now at_
    let x := b.noz n
    if now < x.riseAt + x.pset.tPeak then b
    else
      match x.seq with
      | .rise =>
        (b.modNoz n (fun x => { x with seq := .hold, holdFrom := now })).count .NOZ_CNT1 n 15 8
      | .peak =>
        let b1 := b.modNoz n (fun x => { x with seq := .hold, falling := true, holdFrom := now })
        if sustained then b1 else b1.count .NOZ_CNT1 n 15 8
      | _ => b)

/-- HOLD_LEVEL_REACHED (R208). -/
def execHoldLevelReached (n : Fin 96) (ma : Nat) (at_ : Nat) :
    State → Host.Outcome State Fault Refusal :=
  lift (fun b =>
    if (b.noz n).seq = .hold ∧ ma < b.iHold n then
      b.modNoz n (fun x => { x with falling := false, holdFrom := b.now at_ })
    else b)

/-- DECAY_COMPLETE (R208). -/
def execDecayComplete (n : Fin 96) (ma : Nat) (at_ : Nat) :
    State → Host.Outcome State Fault Refusal :=
  lift (fun b =>
    if (b.noz n).seq = .decay ∧ ma < 20 then
      b.modNoz n (fun x => { x with seq := .settle, settleAt := some (b.now at_) })
    else b)

/-- SETTLE_END (R208, R217): a held request then waits. -/
def execSettleEnd (n : Fin 96) (at_ : Nat) : State → Host.Outcome State Fault Refusal :=
  lift (fun b =>
    let x := b.noz n
    let now := b.now at_
    if x.seq = .settle ∧ x.closeDet = none ∧ x.pset.minOff ≤ now - x.offAt then
      match x.held with
      | some p => b.modNoz n (fun x => { x with seq := .wait, waitFrom := now, pull := p, held := none })
      | none => b.modNoz n (fun x => { x with seq := .quiet })
    else b)

/-- SPRAY_PERIOD_START (R211 to R216). -/
def execSprayPeriodStart (n : Fin 96) (at_ : Nat) : State → Host.Outcome State Fault Refusal :=
  lift (fun b =>
    let now := b.now at_
    let x := b.noz n
    match x.on, x.nextPeriod with
    | true, some p =>
      if now < p then b
      else
        let t := b.periodNs (bankOf n)
        let b1 := (b.countEnergised n now).modNoz n (fun x => { x with
          origin := p, periodNs := t, nextPeriod := some (p + t) })
        let b2 := if x.rateWait then
            (b1.modNoz n (fun x => { x with rateWait := false })).result n
              { act := .rate, fail := none, at_ := now }
          else b1
        if x.seq.energised && x.leadIn && (x.pulseEnd.isSome || x.openDet) then
          let owed : Int := b2.openFraction n * t / 1000
          b2.modNoz n (fun x => { x with acc := x.acc + owed })
        else if x.seq.energised && x.leadIn then
          let give : Int := (now - x.riseAt : Nat) - (b.delayNs n true : Int) + b.delayNs n false
          (b2.modNoz n (fun x => { x with acc := x.acc - give })).period n at_
        else b2.period n at_
    | _, _ => b)

/-- PULSE_END (R208, R214): from HOLD; a lead-in lasts until its open detection has ended, unless the limiter
    ends it (R215, R222). -/
def execPulseEnd (n : Fin 96) (at_ : Nat) : State → Host.Outcome State Fault Refusal :=
  lift (fun b =>
    let x := b.noz n
    match x.pulseEnd with
    | some t =>
      if x.seq == .hold && decide (t ≤ b.now at_) && !(x.leadIn && x.openDet && !x.limited) then
        b.turnOff n false (b.now at_)
      else b
    | none => b)

/-! ### Armature detection (R220 to R223) -/

/-- The scan for an open signature: `low` is the smallest earlier estimate of the region, `run` the
    instants of the estimates above it so far (R220). -/
def openScan (detMin detMax step conf : Nat) : List Estimate → Option Nat → Bool → List Nat → Option Nat
  | [], _, _, _ => none
  | e :: rest, low, region, run =>
    let low0 := if e.inRise = region then low else none
    let run0 := if e.inRise = region then run else []
    let above := match low0 with
      | some l => decide (l * 100 + l * 5 * step < e.value * 100) && decide (detMin ≤ e.ns)
          && decide (e.ns ≤ detMax)
      | none => false
    let run1 := if above then run0 ++ [e.ns] else []
    if above && conf ≤ run1.length then run1.head?
    else
      let low1 := match low0 with
        | some l => if above then some l else some (min l e.value)
        | none => some e.value
      openScan detMin detMax step conf rest low1 e.inRise run1

/-- OPEN_SIGNATURE (R220, R222, R226): the estimates made since the start of RISE. -/
def execOpenSignature (n : Fin 96) (estimates : List Estimate) (at_ : Nat) :
    State → Host.Outcome State Fault Refusal :=
  lift (fun b =>
    let x := b.noz n
    if !x.openDet then b
    else
      match openScan x.pset.openMin x.pset.openMax x.pset.openStep x.pset.openConf estimates none true [] with
      | none => b
      | some ns =>
        let b1 := (b.modNoz n (fun x => { x with openDet := false, closeFailed := false })).learn n true
          x.vband ((ns + 5000) / 10000)
        if x.pull = .period then b1
        else b1.result n { act := pullAct x.pull, fail := none, measured := ns, at_ := b.now at_ })

/-- The close signature among the probes since the turn-off (R221): ns from the turn-off. -/
def closeScan (detMin detMax step : Nat) (probes : List Probe) : Option Nat :=
  let base := (probes.take 4).map (·.value)
  if base.length < 4 then none
  else
    ((probes.drop 4).find? (fun p =>
      decide (detMin ≤ p.ns) && decide (p.ns ≤ detMax)
        && decide (base.sum * 100 + base.sum * 5 * step < p.value * 400))).map (·.ns)

/-- CLOSE_SIGNATURE (R221, R222, R226): the probes since the low side switched off. A window that a later
    CLOSE has opened confirms, but its delay from the turn-off lies outside the window that is learned from. -/
def execCloseSignature (n : Fin 96) (probes : List Probe) (at_ : Nat) :
    State → Host.Outcome State Fault Refusal :=
  lift (fun b =>
    let x := b.noz n
    match x.closeDet with
    | none => b
    | some c =>
      let late := c.since - x.offAt
      match closeScan (x.pset.closeMin + late) (x.pset.closeMax + late) x.pset.closeStep probes with
      | none => b
      | some ns =>
        let b1 := b.modNoz n (fun x => { x with closeDet := none, closeFound := true, closeFailed := false })
        let b2 := if late = 0 then b1.learn n false x.vband ((ns + 5000) / 10000) else b1
        if c.bearing then
          b2.result n { act := .closes, fail := none, measured := x.offAt + ns - c.from_, at_ := b.now at_ }
        else b2)

/-- DETECTION_TIMEOUT (R222, R223): no signature by DET_MAX. -/
def execDetectionTimeout (n : Fin 96) (opening : Bool) (at_ : Nat) :
    State → Host.Outcome State Fault Refusal :=
  lift (fun b =>
    let now := b.now at_
    let x := b.noz n
    if opening then
      if x.openDet ∧ x.pset.openMax ≤ now - x.riseAt then
        let b1 := b.modNoz n (fun x => { x with openDet := false })
        if x.pull = .period then b1
        else
          (((b1.turnOff n false now).modNoz n Noz.stopSpray).result n
            { act := pullAct x.pull, fail := some 1, at_ := now }).countFail n at_
      else b
    else
      match x.closeDet with
      | some c =>
        if x.pset.closeMax ≤ now - c.since then
          let b1 := b.modNoz n (fun x => { x with closeDet := none, closeFailed := c.bearing })
          if c.bearing then
            (b1.result n { act := .closes, fail := some 2, at_ := now }).countFail n at_
          else b1
        else b
      | none => b)

/-! ### Actions delivered to a channel (R186, R214, R216) -/

/-- A CLOSE that finds its motion already made is confirmed at delivery (R214). -/
def Block.closeNow (b : Block) (n now : Nat) : Block :=
  b.result n { act := .closes, fail := none, at_ := now }

/-- A new close-detection window from now (R214, R222); with detection disabled the learned delay from the
    turn-off confirms instead (R224). -/
def Block.closeWindow (b : Block) (n now : Nat) : Block :=
  let x := b.noz n
  if x.pset.det then
    b.modNoz n (fun x => { x with closeDet := some { since := now, bearing := true, from_ := now } })
  else b.modNoz n (fun x => { x with assumeClose := some (max now (x.offAt + b.delayNs n false)) })

/-- The channel's close detection takes the settings as they stand: a window that no pulse opened (R222,
    R238). -/
def Block.detectAfresh (b : Block) (n : Nat) : Block :=
  b.modNoz n (fun x => { x with pset := b.pulseSet n })

/-- A CLOSE delivered to a channel in QUIET or WAIT (R214, R222). -/
def Block.closeIdle (b : Block) (n now : Nat) : Block :=
  if (b.noz n).closeFailed then ((b.cancelPull n now).detectAfresh n).closeWindow n now
  else (b.cancelPull n now).closeNow n now

/-- A CLOSE delivered (R208, R214, R222). -/
def Block.deliverClose (b : Block) (n : Nat) (at_ : Nat) : Block :=
  let now := b.now at_
  let x := b.noz n
  let b0 := b.modNoz n Noz.stopSpray
  match x.seq with
  | .rise => b0.turnOff n true now
  | .peak => b0.turnOff n true now
  | .hold => b0.turnOff n true now
  | .fault => b0.closeNow n now
  | .quiet => b0.closeIdle n now
  | .wait => b0.closeIdle n now
  | _ =>
    let b1 := b0.cancelPull n now
    match x.closeDet with
    | some _ =>
      b1.modNoz n (fun x => { x with closeDet := x.closeDet.map (fun c => { c with
        bearing := true, from_ := now }) })
    | none =>
      if x.closeFound then b1.closeNow n now
      else b1.closeWindow n now

/-- An OPEN delivered, at a rate or a duty, under a firm deferral (R214, R216, R222). -/
def Block.deliverOpen (b : Block) (n : Nat) (byRate : Bool) (param delta : Nat) (at_ : Nat) : Block :=
  let now := b.now at_
  let x := b.noz n
  let set (y : Noz) : Noz := { y with
    byRate := byRate, rate := if byRate then param else y.rate, duty := if byRate then y.duty else param
    acc := 0 }
  if x.on && !x.stuck then
    (b.modNoz n set).result n { act := .opens, fail := none, atOnce := true, at_ := now }
  else
    (b.modNoz n set).pullIn n .leadIn delta at_

/-- A RATE delivered (R180, R216). -/
def Block.deliverRate (b : Block) (n rate : Nat) (at_ : Nat) : Block :=
  let b1 := b.modNoz n (fun x => { x with rate := rate, byRate := true })
  if (b.noz n).on then b1.modNoz n (fun x => { x with rateWait := true })
  else b1.result n { act := .rate, fail := none, at_ := b.now at_ }

/-- A PULSE of `ns` delivered (R216). -/
def Block.deliverPulse (b : Block) (n ns : Nat) (at_ : Nat) : Block :=
  (b.modNoz n (fun x => { x with pulseNs := max ns (b.tPeak n) })).pullIn n .pulse 0 at_

/-! ### Faults and unit states (R227 to R230) -/

/-- The channel in FAULT: low side off with FAST decay, every request gone. An OPEN that awaited its
    signature has FAILED with kind 1; a CLOSE that awaited its signature, or a channel that was on,
    counts as closed once the learned close delay has elapsed from the turn-off (R208, R222). -/
def Block.nozToFault (b : Block) (n : Nat) (at_ : Nat) : Block :=
  let now := b.now at_
  let x := b.noz n
  if x.seq = .fault then b
  else
    let b0 := ((b.turnOff n true now).cancelPull n now).modNoz n (fun y => { y with
      closeDet := y.closeDet.map (fun c => { c with bearing := c.bearing || x.on }) })
    let b1 := if x.on ∧ !x.seq.energised ∧ x.closeDet = none then b0.closeNow n now else b0.abandonClose n
    b1.modNoz n (fun x => { x.stopSpray with
      seq := .fault, closeDet := none, openDet := false, force := none, forceEnd := none
      queuedForce := none })

/-- A latched channel fault: flag, FAULT, event 64, and the FAULTED request (R227, R228). -/
def Block.nozFault (b : Block) (n bit : Nat) (at_ : Nat) : Block :=
  (((b.latch .NOZ_FLT n bit).nozToFault n at_).faultUnit (unitNoz n) at_).raiseItems 64 1 0 [unitNoz n] at_

/-- A bank fault: the high side off, every channel of the bank in FAULT, every unit of it FAULTED,
    event 65 (R227, R228). -/
def Block.bankFault (b : Block) (bank bit : Nat) (at_ : Nat) : Block :=
  let ns := (bankChannels bank).filter (fun n => b.present (unitNoz n))
  let b1 := ns.foldl (fun acc n => (acc.nozToFault n at_).faultUnit (unitNoz n) at_)
    (b.latch .BANK_FLT bank bit)
  b1.raiseItems 65 1 0 (ns.map unitNoz) at_

/-- NOZ_OPEN_LOAD (R227): below 50 mA, 100 us into RISE. The channel goes through DECAY into FAULT. -/
def execNozOpenLoad (n : Fin 96) (ma : Nat) (at_ : Nat) : State → Host.Outcome State Fault Refusal :=
  lift (fun b =>
    if (b.noz n).seq = .rise ∧ ma < 50 ∧ 100000 ≤ b.now at_ - (b.noz n).riseAt ∧ b.vpwrPresent then b.nozFault n 0 at_
    else b)

/-- NOZ_OPEN_OFF_TEST (R227, R228): in QUIET with HSb energised, the drain more than 2 V below the
    node. -/
def execNozOpenOffTest (n : Fin 96) (drainMv nodeMv : Nat) (at_ : Nat) :
    State → Host.Outcome State Fault Refusal :=
  lift (fun b =>
    if (b.noz n).seq = .quiet ∧ b.present (unitNoz n) ∧ b.hsOn (bankOf n) ∧ b.vpwrPresent
        ∧ drainMv + 2000 < nodeMv then
      let b1 := b.latch .NOZ_FLT n 6
      if b.flag .NOZ_FLT n 6 then b1 else b1.raiseItems 64 2 0 [unitNoz n] at_
    else b)

/-- NOZ_SHORT_LOAD (R227): I_PEAK within 10 us of the start of RISE. -/
def execNozShortLoad (n : Fin 96) (at_ : Nat) : State → Host.Outcome State Fault Refusal :=
  lift (fun b =>
    let x := b.noz n
    let early := match x.peakAt with
      | some t => decide (t ≤ x.riseAt + 10000)
      | none => x.seq == .rise && decide (b.now at_ ≤ x.riseAt + 10000)
    if x.seq.energised && early then b.nozFault n 1 at_ else b)

/-- NOZ_SHORT_BAT (R227): switch current above 6.0 A. -/
def execNozShortBat (n : Fin 96) (ma : Nat) (at_ : Nat) : State → Host.Outcome State Fault Refusal :=
  lift (fun b =>
    if b.present (unitNoz n) ∧ 6000 < ma ∧ (b.noz n).seq ≠ .fault then b.nozFault n 2 at_ else b)

/-- NOZ_SHORT_GND (R227): low side off, drain below 2 V and node above 6 V for 50 us. -/
def execNozShortGnd (n : Fin 96) (drainMv nodeMv ns : Nat) (at_ : Nat) :
    State → Host.Outcome State Fault Refusal :=
  lift (fun b =>
    if b.present (unitNoz n) ∧ !(b.noz n).seq.energised ∧ b.hsOn (bankOf n) ∧ drainMv < 2000
        ∧ 6000 < nodeMv ∧ 50000 ≤ ns then
      (b.nozFault n 3 at_).bankFault (bankOf n) 2 at_
    else b)

/-- NOZ_THERMAL (R227): junction above 170 degree C, in units of 0.1 degree. -/
def execNozThermal (n : Fin 96) (tj : Int) (at_ : Nat) : State → Host.Outcome State Fault Refusal :=
  lift (fun b =>
    if b.present (unitNoz n) ∧ 1700 < tj ∧ !b.flag .NOZ_FLT n 4 then b.nozFault n 4 at_ else b)

/-- HS_OVERCURRENT (R227): above 10 A for 5 us. -/
def execHsOvercurrent (k : Fin 12) (ma ns : Nat) (at_ : Nat) :
    State → Host.Outcome State Fault Refusal :=
  lift (fun b => if b.hsOn k ∧ 10000 < ma ∧ 5000 ≤ ns then b.bankFault k 0 at_ else b)

/-- HS_THERMAL (R227). -/
def execHsThermal (k : Fin 12) (tj : Int) (at_ : Nat) : State → Host.Outcome State Fault Refusal :=
  lift (fun b => if b.hsOn k ∧ 1700 < tj then b.bankFault k 1 at_ else b)

/-- A start of a unit queued behind a shutdown takes effect when the channel is QUIET (R218). -/
def Noz.isQuiet (x : Noz) : Bool := x.seq == .quiet && x.deferUntil.isNone

/-- A nozzle unit has changed state at a COMMIT (R208, R223, R229): a channel that was on, or energised,
    closes as on a CLOSE. -/
def Block.nozUnitChange (b : Block) (n : Nat) (old new : UnitState) (at_ : Nat) : Block :=
  let now := b.now at_
  let runs (s : UnitState) : Bool := s == .active || s == .service
  let b1 := if runs old && !runs new then
      let x := b.noz n
      if new = .faulted then b.nozToFault n at_
      else
        let b0 := if x.on || x.seq.energised then b.deliverClose n at_ else b.cancelPull n now
        b0.modNoz n (fun x => { x with force := none, forceEnd := none, queuedForce := none })
    else if new = .faulted then b.nozToFault n at_
    else b
  let b2 := if old = .faulted && new != .faulted then
      b1.modNoz n (fun x => if x.seq = .fault then { x with seq := .quiet, offAt := now } else x)
    else b1
  if new = .standby then
    b2.modNoz n (fun x => { x with stuckSoon := x.stuckSoon || x.stuck, closeFailed := false })
  else b2

/-- STUCK cleared at this COMMIT, and the clearing that this COMMIT's change to STANDBY brings at the next
    (R223). -/
def Block.stuckCommit (b : Block) (n : Nat) : Block :=
  let x := b.noz n
  let b1 := if x.stuckClear then
      (b.modNoz n (fun x => { x with stuck := false, fails := 0 })).unlatch .NOZ_FLT n 32
    else b
  b1.modNoz n (fun x => { x with stuckClear := x.stuckSoon && x.stuck, stuckSoon := false })

/-- What a COMMIT does to a channel: WAIT entered (R208), STUCK cleared (R223), outcomes that the learned
    delay gives (R217, R222, R224). -/
def Block.nozCommit (b : Block) (n : Nat) (at_ : Nat) : Block :=
  let now := b.now at_
  let x := b.noz n
  let b1 := (b.enterWait n now).stuckCommit n
  let b2 := match x.assumeOpen with
    | some t =>
      if t ≤ now then
        (b1.modNoz n (fun x => { x with assumeOpen := none })).result n
          { act := pullAct x.pull, fail := none, assumed := true, measured := b.delayNs n true, at_ := t }
      else b1
    | none => b1
  match x.assumeClose with
  | some t =>
    if t ≤ now then
      (b2.modNoz n (fun x => { x with assumeClose := none })).result n
        { act := .closes, fail := none, assumed := true, measured := b.delayNs n false, at_ := t }
    else b2
  | none => b2

/-- A nozzle channel after a reset (R225, R230): learned delays are kept, the temperature estimate
    starts at the baseplate temperature, given in 0.1 degree C. -/
def Noz.afterReset (x : Noz) (base : Int) (now : Nat) : Noz :=
  { learned := x.learned, pathMohm := x.pathMohm, temp := base * 1000000, tempAt := now, lastHold := now
    tband := tempBand (base * 1000000) }

/-- The channel's part of a Tick edge: the temperature of a channel that has not held for 60 s moves
    towards the baseplate (R225), energised time is counted (R215), and an elapsed deferral ends in WAIT
    (R208). -/
def Block.nozTick (b : Block) (n ticks : Nat) : Block :=
  let now := b.time.now
  let b1 := (b.countEnergised n now).enterWait n now
  b1.modNoz n (fun x =>
    if x.seq = .hold then { x with lastHold := now }
    else if x.lastHold + 60000000000 ≤ now then
      let t := x.temp + divRound ((b.evt.baseTemp * 1000000 - x.temp) * ticks) 3000000
      { x with temp := t, tempAt := now, tband := tempBand t }
    else x)

/-! ### The output stage (R203, R210, R221, R230) -/

/-- What a channel's output stage does with the coil: low side on, SLOW decay through the recirculation
    switch, or both off with the clamp (FAST decay) (R200, R203). -/
inductive CoilPath where
  | on
  | slow
  | fast
  deriving DecidableEq, Repr

/-- The chop frame of a channel, in ns, and its switch-on point in the frames of device time (R210). -/
def chopFrameNs : Nat := 50000
def chopPoint (n : Nat) : Nat := (n % 8) * 6250

/-- How far device time has run into the channel's present chop interval, from its switch-on point (R210). -/
def chopPhase (n dev : Nat) : Nat := (dev + chopFrameNs - chopPoint n) % chopFrameNs

/-- The coil current as the channel's comparator sees it: above its level at the last switch-on point, or its
    level reached since then (R210). -/
structure CoilSense where
  aboveAtOn : Bool
  reached : Bool
  deriving DecidableEq, Repr

/-- A chopping channel (R203, R210): on from its switch-on point until the level is reached, SLOW decay for
    the rest; off for the whole frame where the current was above the level already. -/
def chopPath (s : CoilSense) : CoilPath := if s.aboveAtOn || s.reached then .slow else .on

/-- A probe is running (R221): every PROBE_PER from the low-side turn-off, from SETTLE until the next pull-in,
    for PROBE_W (log entry 80). -/
def Block.probing (b : Block) (n now : Nat) : Bool :=
  let x := b.noz n
  let per := b.fld .BANK_CFG (bankOf n) 15 8 * 10000
  let into := (now - x.offAt) % per
  match x.settleAt with
  | some t => decide (t ≤ now - into) && decide (into < b.fld .BANK_CFG (bankOf n) 20 16 * 1000)
  | none => false

/-- The output of a channel at an instant (R203, R208, R210, R221): the drop from peak to hold in PK_DECAY, a
    closing in CLOSE_DECAY; in FAULT, and after a reset, both switches are off. -/
def Block.coilPath (b : Block) (n now : Nat) (s : CoilSense) : CoilPath :=
  let x := b.noz n
  match x.seq with
  | .rise => .on
  | .peak => chopPath s
  | .hold => if x.falling then (if x.pset.slowPeak then .slow else .fast) else chopPath s
  | .decay => if x.pset.slowClose then .slow else .fast
  | .fault => .fast
  | _ => if b.probing n now then .on else .fast

/-! ### Learned data (R226) -/

/-- The learned data written to MRAM. -/
def Block.saveLearned (b : Block) (now : Nat) : Block :=
  let b1 := b.modValve (fun v => { v with learnedDirty := false, learnedAt := now })
  { b1 with upd := { b1.upd with learned := b.eng.valve.noz.map (·.learned) } }

/-- LEARNED_DATA_SAVE (R226): every 60 s while the data has changed. -/
def execLearnedDataSave (at_ : Nat) : State → Host.Outcome State Fault Refusal :=
  lift (fun b =>
    if b.eng.valve.learnedDirty ∧ b.eng.valve.learnedAt + 60000000000 ≤ b.now at_ then
      b.saveLearned (b.now at_)
    else b)

/-! ### NOZZLE_FORCE (R218, R219) -/

/-- The row of NOZZLE_FORCE (R357). -/
def nozzleForceRow : OpRow := opRow 0x0032 20 true

/-- The payload of a FENCED reply: the state of each named nozzle, 0xFF elsewhere (R190). -/
def Block.nozStates (b : Block) (mask : BitVec 96) : Bytes :=
  (List.range 96).map (fun n =>
    if mask.getLsbD n then BitVec.ofNat 8 (b.unit (unitNoz n)).state.code else 0xFF)

/-- The nozzles a mask names. -/
def maskNozzles (mask : BitVec 96) : List Nat := (List.range 96).filter (fun n => mask.getLsbD n)

/-- A force start on one channel (R218, R219). -/
def Block.forceStart (b : Block) (n : Nat) (f : Force) (at_ : Nat) : Block :=
  if !(b.noz n).isQuiet then b.modNoz n (fun x => { x with queuedForce := some f })
  else
    let now := b.now at_
    let b1 := b.modNoz n (fun x => { x with
      force := some f, queuedForce := none
      forceEnd := if f.durationMs = 0 then none else some (now + f.durationMs * 1000000) })
    if f.pulse then b1.deliverPulse n (f.durationMs * 1000000) at_
    else b1.deliverOpen n false f.duty 0 at_

/-- A force CLOSE or RELEASE on one channel (R218, R219). -/
def Block.forceStop (b : Block) (n : Nat) (at_ : Nat) : Block :=
  (b.modNoz n (fun x => { x with force := none, forceEnd := none, queuedForce := none })).deliverClose n at_

/-- NOZZLE_FORCE at its COMMIT: it acts on the named nozzles whose unit is SERVICE. -/
def Block.forceApply (b : Block) (mask : BitVec 96) (f : Option Force) (at_ : Nat) : Block :=
  (maskNozzles mask).foldl (fun acc n =>
    if (acc.unit (unitNoz n)).state = .service then
      match f with
      | some f => acc.forceStart n f at_
      | none => acc.forceStop n at_
    else acc) b

/-- Dispatch of NOZZLE_FORCE: posted for the next COMMIT, answered OK, DEFERRED where a start waits
    for a shutdown, or FENCED with the states (R218, R219, R190). -/
def dispatchForce (h : Hdr) (mask : BitVec 96) (start bad : Bool) (i : Instr) : Dispatch :=
  fun k seq arrived b =>
    if bad then b.replyNow (some k) h nozzleForceRow.code .range
    else
      let ns := maskNozzles mask
      if ns.any (fun n => (b.unit (unitNoz n)).state != .service) then
        b.postsWith seq arrived k h nozzleForceRow.code i .fenced (b.nozStates mask)
      else if start && ns.any (fun n => !(b.noz n).isQuiet) then
        b.postsWith seq arrived k h nozzleForceRow.code i .deferred []
      else b.posts seq arrived k h nozzleForceRow.code i

/-- NOZZLE_FORCE RELEASE (R219). -/
def execNozzleForceRelease (h : Hdr) (mask : BitVec 96) : State → Host.Outcome State Fault Refusal :=
  let i : Instr := .nozzleForceRelease h mask
  lift (fun b => b.request i h nozzleForceRow (dispatchForce h mask false false i))

/-- NOZZLE_FORCE CLOSE (R219). -/
def execNozzleForceClose (h : Hdr) (mask : BitVec 96) : State → Host.Outcome State Fault Refusal :=
  let i : Instr := .nozzleForceClose h mask
  lift (fun b => b.request i h nozzleForceRow (dispatchForce h mask false false i))

/-- A force OPEN outside its ranges (R219). -/
def forceOpenBad (duty : BitVec 16) (duration : Word) : Bool :=
  decide (1000 < duty.toNat) || decide (600000 < duration.toNat)

/-- NOZZLE_FORCE OPEN (R219). -/
def execNozzleForceOpen (h : Hdr) (duty : BitVec 16) (duration : Word) (mask : BitVec 96) :
    State → Host.Outcome State Fault Refusal :=
  let i : Instr := .nozzleForceOpen h duty duration mask
  lift (fun b => b.request i h nozzleForceRow (dispatchForce h mask true (forceOpenBad duty duration) i))

/-- A force PULSE outside its range (R219). -/
def forcePulseBad (duration : Word) : Bool :=
  decide (duration.toNat < 1) || decide (600000 < duration.toNat)

/-- NOZZLE_FORCE PULSE (R219). -/
def execNozzleForcePulse (h : Hdr) (duration : Word) (mask : BitVec 96) :
    State → Host.Outcome State Fault Refusal :=
  let i : Instr := .nozzleForcePulse h duration mask
  lift (fun b => b.request i h nozzleForceRow (dispatchForce h mask true (forcePulseBad duration) i))

/-- FORCE_DURATION_END (R219): the nozzle closes; a PULSE has ended with its own pulse. -/
def execForceDurationEnd (n : Fin 96) (at_ : Nat) : State → Host.Outcome State Fault Refusal :=
  lift (fun b =>
    match (b.noz n).forceEnd with
    | some t =>
      if b.now at_ < t then b
      else if ((b.noz n).force.map (·.pulse)).getD false then
        b.modNoz n (fun x => { x with force := none, forceEnd := none })
      else b.forceStop n at_
    | none => b)

end Sys2Proof.Machine
end

