-- ==== Sys2Proof/Machine/Boost.lean ====
section
/-! DEFINITION. The three boost converters (R205 to R207). -/

namespace Sys2Proof.Machine

open Sys2Proof (Word BoostFault)

/-- The block with boost `c` replaced by its image. -/
def Block.modBoost (b : Block) (c : Nat) (f : Boost → Boost) : Block :=
  b.modValve (fun v => { v with boosts := modNth v.boosts c f })

/-- The ready threshold in mV: READY x the slewed setting (R205, BST_CFG). -/
def Block.boostReadyMv (b : Block) (c : Nat) : Nat :=
  b.fld .BST_CFG c 23 16 * (b.boost c).setMv / 100

/-- A boost enters a state. -/
def Block.boostTo (b : Block) (c : Nat) (s : BoostState) (at_ : Nat) : Block :=
  b.modBoost c (fun x => { x with state := s, since := b.now at_ })

/-- A boost enters FAULT: its flag, event 69, and the FAULTED request (R206). -/
def Block.boostFault (b : Block) (c bit : Nat) (at_ : Nat) : Block :=
  (((b.latch .BST_FLT c bit).boostTo c .fault at_).faultUnit (unitBst c) at_).raiseItems 69 1 0 [unitBst c]
    at_

/-- BOOST_READY (R206): the output, in mV, is at or above the ready threshold. -/
def execBoostReady (c : Fin 3) (mv : Nat) (at_ : Nat) : State → Host.Outcome State Fault Refusal :=
  lift (fun b =>
    let x := b.boost c
    let b1 := b.modBoost c (fun x => { x with vout := mv })
    if (x.state = .softStart ∨ x.state = .low) ∧ b.boostReadyMv c ≤ mv then b1.boostTo c .ready at_
    else b1)

/-- BOOST_LOW (R206): the output has fallen below the ready threshold. -/
def execBoostLow (c : Fin 3) (mv : Nat) (at_ : Nat) : State → Host.Outcome State Fault Refusal :=
  lift (fun b =>
    let x := b.boost c
    let b1 := b.modBoost c (fun x => { x with vout := mv })
    if x.state = .ready ∧ mv < b.boostReadyMv c then b1.boostTo c .low at_ else b1)

/-- BOOST_SOFT_START_TIMEOUT (R206): 50 ms without READY; suspended without VPWR (R489). -/
def execBoostSoftStartTimeout (c : Fin 3) (at_ : Nat) : State → Host.Outcome State Fault Refusal :=
  lift (fun b =>
    let x := b.boost c
    if x.state = .softStart ∧ x.since + 50000000 ≤ b.now at_ ∧ b.vpwrPresent then b.boostFault c 1 at_ else b)

/-- BOOST_LOW_TIMEOUT (R206): 20 ms below the threshold; suspended without VPWR (R489). -/
def execBoostLowTimeout (c : Fin 3) (at_ : Nat) : State → Host.Outcome State Fault Refusal :=
  lift (fun b =>
    let x := b.boost c
    if x.state = .low ∧ x.since + 20000000 ≤ b.now at_ ∧ b.vpwrPresent then b.boostFault c 1 at_ else b)

/-- The flag bit of a boost fault (BST_FLT). -/
def boostBit : BoostFault → Nat
  | .overvolt => 0
  | .overload => 2
  | .thermal => 3

/-- BOOST_FAULT (R206). -/
def execBoostFault (c : Fin 3) (fault : BoostFault) (at_ : Nat) :
    State → Host.Outcome State Fault Refusal :=
  lift (fun b =>
    let x := b.boost c
    if x.state = .ready ∨ x.state = .low then b.boostFault c (boostBit fault) at_ else b)

/-- A boost unit has changed state at a COMMIT (R206, R229). A soft start whose output still holds the charge
    of the ready threshold is READY at once. -/
def Block.boostUnitChange (b : Block) (c : Nat) (old new : UnitState) (at_ : Nat) : Block :=
  let runs (s : UnitState) : Bool := s == .active || s == .service
  let x := b.boost c
  if runs new && !runs old then
    if x.state = .off then
      b.boostTo c (if b.boostReadyMv c ≤ x.vout then .ready else .softStart) at_
    else b
  else if old = .faulted ∧ new ≠ .faulted then b.boostTo c .off at_
  else if runs old && !runs new && x.state != .fault then b.boostTo c .off at_
  else b

/-- The safe state of a boost (R408). -/
def Block.boostSafe (b : Block) (c : Nat) (at_ : Nat) : Block :=
  if (b.boost c).state = .fault then b else b.boostTo c .off at_

/-- The boost's part of a Tick edge: its measured output and mean power, and its setting slewed at
    1 V/ms (BST_CFG, BST_STATE, BST_POWER). -/
def Block.boostTick (b : Block) (c ticks vout avg peak : Nat) : Block :=
  let want := b.fld .BST_CFG c 9 0 * 100
  let b1 := b.modBoost c (fun x => { x with
    vout := vout, avg := avg
    setMv := (clampInt ((x.setMv : Int) - 100 * ticks) ((x.setMv : Int) + 100 * ticks) want).toNat })
  b1.setFld .BST_POWER c 31 16 (max peak (b1.fld .BST_POWER c 31 16))

end Sys2Proof.Machine
end

