-- ==== Sys2Proof/Machine/Prop.lean ====
section
/-! DEFINITION. The proportional channels PV0 to PV7 (R231 to R236). Targets are in 0.5 mA. -/

namespace Sys2Proof.Machine

open Sys2Proof (Word)

/-- Proportional channel `k`. -/
def Block.prop (b : Block) (k : Nat) : Prop_ := nth b.eng.valve.props k {}

/-- The block with channel `k` replaced by its image. -/
def Block.modProp (b : Block) (k : Nat) (f : Prop_ → Prop_) : Block :=
  b.modValve (fun v => { v with props := modNth v.props k f })

/-- The channel is the even channel of a pair, or the odd one claimed by it (R235). -/
def Block.propPaired (b : Block) (k : Nat) : Bool := k % 2 == 0 && b.flag .PROP_CFG k 2
def Block.propClaimed (b : Block) (k : Nat) : Bool := k % 2 == 1 && b.flag .PROP_CFG (k - 1) 2

/-- The greatest target of a channel in 0.5 mA (R231, R235). -/
def Block.propMax (b : Block) (k : Nat) : Nat := if b.propPaired k then 12000 else 6000

/-- The target that the channel's source asks for; in SERVICE what the SERVICE session wrote to the register,
    alone (R229, R232). -/
def Block.propWanted (b : Block) (k : Nat) : Nat :=
  let x := b.prop k
  if !b.runs (unitProp k) then 0
  else if b.fld .PROP_CFG k 1 0 = 1 ∧ (b.unit (unitProp k)).state = .active then (if x.loopOn then min x.loop (b.propMax k) else 0)
  else if (b.unit (unitProp k)).state = .service ∧ !x.byService then 0
  else min x.value (b.propMax k)

/-- The setpoint that the current loop follows before dither, in 0.5 mA (R234): I_PEAK in PEAK, a move from
    `rampFrom` at RAMP mA/ms in RAMP (0: a step), the target in REGULATE. -/
def Block.propSetpoint (b : Block) (k now : Nat) : Nat :=
  let x := b.prop k
  match x.seq with
  | .peak => 2 * b.fld .PROP_PEAK k 12 0
  | .ramp =>
    let rate := b.fld .PROP_CFG k 31 16
    let moved := 2 * rate * (now - x.since) / 1000000
    if rate = 0 then x.target
    else if x.rampFrom ≤ x.target then min x.target (x.rampFrom + moved)
    else max x.target (x.rampFrom - moved)
  | .regulate => x.target
  | _ => 0

/-- The channel moves to RAMP from its present setpoint, or its ramp turns to a new target (R234). -/
def Block.propRamp (b : Block) (k target at_ : Nat) : Block :=
  let from_ := b.propSetpoint k (b.now at_)
  b.modProp k (fun x => { x with seq := .ramp, since := b.now at_, rampFrom := from_, target := target })

/-- The channel enters DECAY with its target at 0 (R234). -/
def Block.propDecay (b : Block) (k at_ : Nat) : Block :=
  b.modProp k (fun x => { x with seq := .decay, since := b.now at_, target := 0 })

/-- The sequencer follows the target that its source asks for (R234). -/
def Block.propFollow (b : Block) (k : Nat) (at_ : Nat) : Block :=
  let want := b.propWanted k
  let x := b.prop k
  match x.seq with
  | .quiet =>
    if want = 0 then b.modProp k (fun x => { x with target := 0 })
    else if b.flag .PROP_CFG k 3 then
      b.modProp k (fun x => { x with seq := .peak, since := b.now at_, target := want })
    else b.propRamp k want at_
  | .peak => if want = 0 then b.propDecay k at_ else b.modProp k (fun x => { x with target := want })
  | .ramp =>
    if want = 0 then b.propDecay k at_ else if want = x.target then b else b.propRamp k want at_
  | .regulate =>
    if want = 0 then b.propDecay k at_ else if want = x.target then b else b.propRamp k want at_
  | _ => b.modProp k (fun x => { x with target := want })

/-- A register or lane value applied, in 0.5 mA (R232), and whether the SERVICE session wrote it. -/
def Block.propValue (b : Block) (k v : Nat) (service : Bool) (at_ : Nat) : Block :=
  (b.modProp k (fun x => { x with value := v, byService := service })).propFollow k at_

/-- A lane SET carried out by an ACTIVE channel: its parameter in mA, or the loop output let through (R229,
    R232). -/
def Block.propSet (b : Block) (k ma : Nat) (at_ : Nat) : Block :=
  if (b.unit (unitProp k)).state ≠ .active then b
  else if b.fld .PROP_CFG k 1 0 = 1 then
    (b.modProp k (fun x => { x with loopOn := true })).propFollow k at_
  else b.propValue k (2 * ma) false at_

/-- A lane CLEAR (R232). -/
def Block.propClear (b : Block) (k : Nat) (at_ : Nat) : Block :=
  if (b.unit (unitProp k)).state ≠ .active then b
  else if b.fld .PROP_CFG k 1 0 = 1 then
    (b.modProp k (fun x => { x with loopOn := false })).propFollow k at_
  else b.propValue k 0 false at_

/-- The output of a loop slot written to the channels that take it, in 0.5 mA (R232). -/
def Block.propLoop (b : Block) (slot v : Nat) (at_ : Nat) : Block :=
  (List.range 8).foldl (fun acc k =>
    if acc.fld .PROP_CFG k 1 0 = 1 ∧ acc.fld .PROP_CFG k 12 8 = slot then
      (acc.modProp k (fun x => { x with loop := v })).propFollow k at_
    else acc) b

/-- The dither is clipped at 0 or at the channel maximum (R233). -/
def Block.propClipped (b : Block) (k : Nat) : Bool :=
  let x := b.prop k
  let amp := b.fld .PROP_DITHER k 9 0
  x.seq == .regulate && x.target != 0 && amp != 0
    && (decide (x.target < amp) || decide (b.propMax k < x.target + amp))

/-- The dither's height at a phase of its period, in thousandths of its amplitude: triangle, sine or square,
    each from 0 rising (R233; log entry 80). -/
def ditherShape (shape phase : Nat) : Int :=
  let p : Int := (phase % 1000 : Nat)
  match shape with
  | 0 => if p < 250 then 2 * p else if p < 750 then 1000 - 2 * p else 2 * p - 2000
  | 1 => divRound (500 * (sinCos (2 ^ 48 * p / 1000)).1) (2 ^ 40)
  | _ => if p < 500 then 500 else -500

/-- The dither of a channel in 0.5 mA, its period counted from the entry to REGULATE; none outside REGULATE or
    at target 0 (R233). -/
def Block.propDither (b : Block) (k now : Nat) : Int :=
  let x := b.prop k
  if x.seq = .regulate ∧ 0 < x.target then
    let phase := (now - x.since) * b.fld .PROP_DITHER k 24 16 / 1000000
    divRound (ditherShape (b.fld .PROP_DITHER k 11 10) phase * (2 * b.fld .PROP_DITHER k 9 0 : Nat)) 1000
  else 0

/-- The current that a channel regulates at an instant, in 0.5 mA: the setpoint with its dither, clipped at 0
    and at the channel maximum (R233, R234). Each half of a pair regulates half of it (R235). -/
def Block.propCurrent (b : Block) (k now : Nat) : Nat :=
  (clampInt 0 (b.propMax k) ((b.propSetpoint k now : Int) + b.propDither k now)).toNat

/-- What a proportional channel's switches do (R231): the high side on with the low side, the low side alone,
    or both off. -/
inductive PropPath where
  | drive
  | recirculate
  | off
  deriving DecidableEq, Repr

/-- The switches of a channel at an instant (R229, R231): `below` tells that its current, in its 20 kHz
    interval, is to rise. A falling target leaves through PROP_CFG.DECAY; in FAULT both are off. -/
def Block.propPath (b : Block) (k : Nat) (below : Bool) : PropPath :=
  let x := b.prop k
  let falls := if b.flag .PROP_CFG k 4 then PropPath.recirculate else .off
  match x.seq with
  | .quiet => .off
  | .fault => .off
  | .decay => falls
  | .ramp => if below then .drive else if x.target < x.rampFrom then falls else .recirculate
  | _ => if below then .drive else .recirculate

/-- PROP_PEAK_END (R234): T_PEAK has elapsed. -/
def execPropPeakEnd (k : Fin 8) (at_ : Nat) : State → Host.Outcome State Fault Refusal :=
  lift (fun b =>
    let x := b.prop k
    if x.seq = .peak ∧ x.since + b.fld .PROP_PEAK k 31 16 * 10000 ≤ b.now at_ then b.propRamp k x.target at_
    else b)

/-- A current in mA has reached the target of a ramp, from the side the ramp moves from (R234). -/
def Prop_.reached (x : Prop_) (ma : Nat) : Bool :=
  if x.rampFrom ≤ x.target then decide (x.target ≤ 2 * ma) else decide (2 * ma ≤ x.target)

/-- PROP_RAMP_DONE (R234): the current, in mA, has reached the target. -/
def execPropRampDone (k : Fin 8) (ma : Nat) (at_ : Nat) : State → Host.Outcome State Fault Refusal :=
  lift (fun b =>
    if (b.prop k).seq = .ramp && (b.prop k).reached ma then
      b.modProp k (fun x => { x with seq := .regulate, since := b.now at_ })
    else b)

/-- PROP_DECAY_DONE (R234): below 10 mA. A target above 0 then starts the channel again. -/
def execPropDecayDone (k : Fin 8) (ma : Nat) (at_ : Nat) : State → Host.Outcome State Fault Refusal :=
  lift (fun b =>
    if (b.prop k).seq = .decay ∧ ma < 10 then
      (b.modProp k (fun x => { x with seq := .quiet, since := b.now at_ })).propFollow k at_
    else b)

/-- A latched fault of a proportional channel (R228, R234, R236). -/
def Block.propFault (b : Block) (k bit : Nat) (at_ : Nat) : Block :=
  (((b.latch .PROP_FLT k bit).modProp k (fun x => { x with
    seq := .fault, since := b.now at_, target := 0, saturated := false })).faultUnit (unitProp k) at_
    ).raiseItems 71 1 0 [unitProp k] at_

/-- PROP_OPEN_LOAD (R236): duty in 0.1 %, mean current in mA, for how long. -/
def execPropOpenLoad (k : Fin 8) (dutyPm meanMa ns : Nat) (at_ : Nat) :
    State → Host.Outcome State Fault Refusal :=
  lift (fun b =>
    if 200 ≤ (b.prop k).target ∧ 500 ≤ dutyPm ∧ meanMa < 10 ∧ 10000000 ≤ ns
        ∧ (b.prop k).seq ≠ .fault ∧ b.vpwrPresent then b.propFault k 0 at_ else b)

/-- PROP_SHORT (R236): above 4.5 A in either half. -/
def execPropShort (k : Fin 8) (ma : Nat) (at_ : Nat) : State → Host.Outcome State Fault Refusal :=
  lift (fun b => if 4500 < ma ∧ (b.prop k).seq ≠ .fault then b.propFault k 1 at_ else b)

/-- PROP_THERMAL (R236): junction above 170 degree C, in units of 0.1 degree. -/
def execPropThermal (k : Fin 8) (tj : Int) (at_ : Nat) : State → Host.Outcome State Fault Refusal :=
  lift (fun b => if 1700 < tj ∧ (b.prop k).seq ≠ .fault then b.propFault k 2 at_ else b)

/-- PROP_UNDERCURRENT (R236): full duty for 20 ms with the mean current below the target by more than
    max(50 mA, 10 %). -/
def execPropUndercurrent (k : Fin 8) (dutyPm meanMa ns : Nat) (at_ : Nat) :
    State → Host.Outcome State Fault Refusal :=
  lift (fun b =>
    let t := (b.prop k).target / 2
    if 1000 ≤ dutyPm ∧ 20000000 ≤ ns ∧ meanMa + max 50 (t / 10) < t ∧ b.vpwrPresent then
      ((b.modProp k (fun x => { x with saturated := true })).latch .PROP_FLT k 3).raiseLimited 72 1
        (payB 0 96 [unitProp k]) at_
    else b)

/-- A proportional unit has changed state at a COMMIT (R229, R232, R234). -/
def Block.propUnitChange (b : Block) (k : Nat) (old new : UnitState) (at_ : Nat) : Block :=
  if new = .faulted then
    b.modProp k (fun x => { x with seq := .fault, since := b.now at_, target := 0, saturated := false })
  else
    let b1 := if old = .faulted then
        b.modProp k (fun x => { x with seq := .quiet, since := b.now at_ })
      else b
    let b2 := if new = .active then b1.modProp k (fun x => { x with loopOn := true }) else b1
    b2.propFollow k at_

/-- The channel's part of a Tick edge: what it measured over the last Tick (PROP_STATE, PROP_OUT). -/
def Block.propTick (b : Block) (k meanMa dutyPm : Nat) : Block :=
  b.modProp k (fun x => { x with
    meanMa := meanMa, dutyPm := dutyPm, saturated := x.saturated && decide (1000 ≤ dutyPm) })

end Sys2Proof.Machine
end

