-- ==== Sys2Proof/Machine/Compare.lean ====
section
/-! DEFINITION. The compare unit (06): the 160 lanes, their references and crossings, the delivery of
    fired actions, the CMP pins, and the entries that host software writes. -/

namespace Sys2Proof.Machine

open Sys2Proof (Word Byte Hdr Instr)

/-- The block with the Almanac and the compare unit replaced by their image. -/
def Block.modAlm (b : Block) (f : Almanac → Almanac) : Block :=
  { b with eng := { b.eng with alm := f b.eng.alm } }

/-- Lane `l`. -/
def Block.lane (b : Block) (l : Nat) : Lane := nth b.eng.alm.lanes l {}

/-- The block with lane `l` replaced by its image. -/
def Block.modLane (b : Block) (l : Nat) (f : Lane → Lane) : Block :=
  b.modAlm (fun a => { a with lanes := modNth a.lanes l f })

/-- What the Almanac keeps for nozzle `n`. -/
def Block.alm (b : Block) (n : Nat) : AlmNoz := nth b.eng.alm.noz n {}

/-- The block with the Almanac's part of nozzle `n` replaced by its image. -/
def Block.modAlmNoz (b : Block) (n : Nat) (f : AlmNoz → AlmNoz) : Block :=
  b.modAlm (fun a => { a with noz := modNth a.noz n f })

/-! ### References (R184, R185) -/

/-- The reference of a lane. -/
inductive LaneRef where
  | odometer
  | axis (a : Nat)
  | time
  deriving DecidableEq, Repr

/-- The reference of lane `l`: the odometer for the nozzle lanes, else CMP_CFG.REF (R184). -/
def Block.laneRef (b : Block) (l : Nat) : LaneRef :=
  if l < 96 then .odometer
  else
    match b.fld .CMP_CFG l 1 0 with
    | 1 => .axis (b.fld .CMP_CFG l 6 2)
    | 2 => .time
    | _ => .odometer

/-- The unit whose state a lane follows: its own for lanes 0 to 119, its claimant for the others (R37,
    R395). -/
def Block.laneUnit (b : Block) (l : Nat) : Option Nat :=
  if l < 120 then some l
  else
    let u := b.fld .RES_LANE (l - 120) 7 0
    if u < 203 then some u else none

/-- The lane may fire (R184). -/
def Block.laneMayFire (b : Block) (l : Nat) : Bool :=
  (match b.laneUnit l with
   | some u => b.runs u
   | none => false)
    && (match b.laneRef l with
        | .axis a => (b.axisSeen a).valid
        | _ => true)

/-- The 48-bit reference of an odometer or TIME lane at an instant of this Tick (R184). -/
def Block.refAt (b : Block) (r : LaneRef) (at_ : Nat) : Nat :=
  match r with
  | .time => b.devNow at_ / 10 % 2 ^ 48
  | _ => b.odoAt at_

/-- How far the reference is past a position, modulo 2^48. -/
def pastBy (ref pos : Nat) : Nat := (ref + 2 ^ 48 - pos % 2 ^ 48) % 2 ^ 48

/-- The reference has reached the position: the window of 2^47 ahead (R185). -/
def reached (ref pos : Nat) : Bool := decide (pastBy ref pos < 2 ^ 47)

/-- An entry's tag is current at an instant: a kill takes effect after the 10 ns sample of its write, in which the
    crossing wins (R181). -/
def Lane.current (x : Lane) (e : Eve) (now : Nat) : Bool :=
  e.tag == x.gen || (e.tag + 1 == x.gen && Nat.ble (now / 10) (x.killedAt / 10))

/-- An entry put in its place in the order in which entries of one sample fire: by position, then in
    the order in which they were written (R185). -/
def insertEve (key : Eve → Nat) (e : Eve) : List Eve → List Eve
  | [] => [e]
  | x :: rest => if key x ≤ key e then x :: insertEve key e rest else e :: x :: rest

/-- Entries in the order in which they fire. -/
def sortEves (key : Eve → Nat) (l : List Eve) : List Eve :=
  l.foldl (fun acc e => insertEve key e acc) []

/-- An entry taken out of its lane. -/
def Block.dropEve (b : Block) (l order : Nat) : Block :=
  b.modLane l (fun x => { x with eves := x.eves.filter (fun e => e.order != order) })

/-! ### Ground points (R192) -/

/-- The interpolated odometer of a Tick's view at an instant `ns` after its edge, not wrapped. -/
def TickView.odoAt (t : TickView) (ns : Nat) : Nat :=
  (t.odo + t.incOld * min (ns / 10) 2000 + t.inc * (ns / 10 - 2000)) / 2 ^ 32

/-- The view of the Tick in which an instant falls (R192). -/
def Block.viewOf (b : Block) (t : Nat) : TickView :=
  ((b.eng.alm.view :: b.eng.alm.past).find? (fun v => decide (v.edge ≤ t))).getD b.eng.alm.view

/-- The ground point of nozzle `n` at an instant, in mm (R192). -/
def TickView.ground (v : TickView) (n t : Nat) : Int × Int :=
  let p := nth v.noz n {}
  let d : Int := (v.odoAt (t - v.edge) : Int) - v.odoAt 0
  if v.v ≤ 0 then (p.e, p.n)
  else
    let off := toField (sinCos v.hb) (divRound (d * 100000 * p.v) v.v) (divRound (d * 100000 * p.u) v.v)
    (divRound (p.e * mmUnit + off.1) mmUnit, divRound (p.n * mmUnit + off.2) mmUnit)

/-! ### Delivery (R186, R187) -/

/-- A CMP pin's action (R186). -/
def CmpPin.act (p : CmpPin) (act param now : Nat) : CmpPin :=
  match act with
  | 4 => { level := true }
  | 5 => { level := false }
  | 6 => { level := !p.level }
  | 7 => { level := true, pulseEnd := some (now + param * 1000) }
  | _ => p

/-- The entry in flight that a fired nozzle entry becomes (R180). -/
def Block.flightOf (b : Block) (n : Nat) (e : Eve) (act : Act) (at_ : Nat) : Flight :=
  let t := b.now at_
  let v := b.viewOf t
  let g := v.ground n t
  { order := e.order, act := act, param := e.param, ovr := e.ovr, counter := e.counter
    baseBefore := (b.alm n).base, at_ := t, odo := v.odoAt (t - v.edge), stamp := v.stamp, e := g.1, n := g.2 }

/-- The entry in flight whose place a newly delivered one takes: an OPEN that spray PWM has not begun for, or a
    CLOSE, of which a nozzle has one in flight at most (R180, log entry 79). -/
def Block.joins (b : Block) (n : Nat) (act : Act) (f : Flight) : Bool :=
  f.act == act && (act == .closes || (act == .opens && !(b.noz n).on))

/-- The entry fired is in flight: held by the Almanac, no more by the lane (R180). -/
def Block.takeFlight (b : Block) (n : Nat) (e : Eve) (act : Act) (at_ : Nat) : Block :=
  let old := (b.alm n).flights.find? (b.joins n act)
  let new := b.flightOf n e act at_
  let f : Flight := { new with baseBefore := (old.map (·.baseBefore)).getD new.baseBefore }
  b.modAlmNoz n (fun x => { x with
    flights := x.flights.filter (fun g => !b.joins n act g) ++ [f], base := e.tp, lateFired := false
    lateKept := false
    openOdo := if act = .opens then some f.odo else x.openOdo
    closeOdo := if act = .closes then some f.odo else x.closeOdo })

/-- An action delivered to a nozzle channel whose unit is ACTIVE (one in SERVICE takes NOZZLE_FORCE only, R229); `byRate` for the lanes of
    MODE MAP. An OPEN starts its pull-in after the firm deferral of its reservation; one that is only
    projected is consumed without a deferral, and counted (R178, R186, R306). -/
def Block.deliverNoz (b : Block) (n : Nat) (byRate : Bool) (e : Eve) (at_ : Nat) : Block :=
  if (b.unit (unitNoz n)).state ≠ .active then b
  else
    match e.act with
    | 1 =>
      let delta := if e.firm then e.delta.getD 0 else 0
      let b := if !e.firm && e.want.isSome && e.delta.isSome then b.count .PWRB_CNT1 0 23 16 else b
      (b.takeFlight n e .opens at_).deliverOpen n byRate e.param delta at_
    | 2 => (b.takeFlight n e .closes at_).deliverClose n at_
    | 3 => (b.takeFlight n e .rate at_).deliverRate n e.param at_
    | 7 => (b.takeFlight n e .pulse at_).deliverPulse n (e.param * 100000) at_
    | _ => b

/-- An action delivered to the target of its lane (R186). -/
def Block.deliver (b : Block) (l : Nat) (e : Eve) (at_ : Nat) : Block :=
  let pin (p : Nat) : Block :=
    b.modAlm (fun a => { a with pins := modNth a.pins p (fun x => x.act e.act e.param (b.now at_)) })
  if l < 96 then b.deliverNoz l (b.fld .ALM_NOZ_CFG l 21 20 == 1) e at_
  else if l < 104 then
    match e.act with
    | 4 => b.propSet (l - 96) e.param at_
    | 5 => b.propClear (l - 96) at_
    | _ => b
  else if l < 120 then
    match e.act with
    | 4 => b.lswCommand (l - 104) true e.param at_
    | 5 => b.lswCommand (l - 104) false (b.sw (l - 104)).duty at_
    | _ => b
  else if l < 128 then pin (l - 120)
  else
    let t := b.fld .CMP_CFG l 23 16
    if t < 8 then pin t
    else if 16 ≤ t ∧ t < 112 then b.deliverNoz (t - 16) false e at_
    else b

/-- An entry fires: recorded, delivered, its slot freed unless it repeats (R180, R185, R187).
    `ref` is the reference at the fire. -/
def Block.fire (b : Block) (l : Nat) (e : Eve) (ref : Nat) (at_ : Nat) : Block :=
  let b1 := if e.repeats then b else b.dropEve l e.order
  let b2 := b1.modLane l (fun x => { x with
    lastAct := e.act, fireTime := b.devNow at_, capt := BitVec.ofNat 32 ref })
  (b2.count .CMP_CNT l 15 0).deliver l e at_

/-- An entry crossed with a stale tag, or an odometer or TIME entry crossed while its lane may not fire:
    RETRACTED, and counted (R180, R184). -/
def Block.stale (b : Block) (l : Nat) (e : Eve) : Block :=
  (b.dropEve l e.order).count .CMP_CNT l 23 16

/-- The entries of an odometer or TIME lane whose positions the reference has reached fire, in position
    order (R185). -/
def Block.crossPassed (b : Block) (l : Nat) (at_ : Nat) : Block :=
  let ref := b.refAt (b.laneRef l) at_
  let crossed := sortEves (fun e => 2 ^ 48 - pastBy ref e.pos)
    ((b.lane l).eves.filter (fun e => reached ref e.pos))
  crossed.foldl (fun acc e =>
    if !(acc.lane l).current e (b.now at_) || !acc.laneMayFire l then acc.stale l e
    else acc.fire l e ref at_) b

/-- How many counts after its start a movement steps onto a position: the first time, and on a rotary
    axis every further one (R185). -/
def stepHits (cpr : Option Int) (s : AxisStep) (pos : Int) : List Nat :=
  let len := (s.to_ - s.from_).natAbs
  let along := if s.from_ < s.to_ then pos - s.from_ else s.from_ - pos
  match cpr with
  | none => if 1 ≤ along ∧ along ≤ len then [along.toNat] else []
  | some c =>
    let first := if (along % c).toNat = 0 then c.toNat else (along % c).toNat
    ((List.range (len / c.toNat + 1)).map (fun i => first + i * c.toNat)).filter
      (fun k => decide (k ≤ len))

/-- One movement of its axis compared by an axis-referenced lane: entries fire in the order in which the
    position steps onto them (R185). One crossed while the lane may not fire stays (R184). -/
def Block.crossStep (b : Block) (l a : Nat) (s : AxisStep) (at_ : Nat) : Block :=
  let dir := b.fld .CMP_CFG l 9 8
  let fits := dir == 2 || (dir == 0) == decide (s.from_ < s.to_)
  if !fits then b
  else
    let cpr : Option Int := if b.rotary a then some (b.cpr a) else none
    let hits (e : Eve) : List Nat := stepHits cpr s (signed 48 (e.pos % 2 ^ 48))
    let crossed := sortEves (fun e => (hits e).headD 0) ((b.lane l).eves.filter (fun e => hits e != []))
    crossed.foldl (fun acc e =>
      if !(acc.lane l).current e (b.now at_) then acc.stale l e
      else if !acc.laneMayFire l then acc
      else if e.repeats then
        (hits e).foldl (fun acc _ => acc.fire l e e.pos at_) acc
      else acc.fire l e e.pos at_) b

/-- The movements of its axis in this sample that an axis-referenced lane has not compared yet. -/
def Block.crossAxis (b : Block) (l a : Nat) (at_ : Nat) : Block :=
  let steps := (b.axis a).steps.filter (fun s => s.at_ == b.now at_ && decide ((b.lane l).seen < s.no))
  steps.foldl (fun acc s =>
    (acc.crossStep l a s at_).modLane l (fun x => { x with seen := s.no })) b

/-- PIN_PULSE_END (R186): the pin returns low. -/
def execPinPulseEnd (p : Fin 8) (at_ : Nat) : State → Host.Outcome State Fault Refusal :=
  lift (fun b =>
    b.modAlm (fun a => { a with pins := modNth a.pins p (fun x =>
      match x.pulseEnd with
      | some t => if t ≤ b.now at_ then { level := false } else x
      | none => x) }))

/-! ### Publication (R28, R29, R181, R185) -/

/-- An entry of an odometer or TIME lane published at the COMMIT update `at_`: it fires there when its
    position lies behind the reference, by design or through lateness (R185). -/
def Block.publishEve (b : Block) (l : Nat) (e : Eve) (at_ : Nat) : Block :=
  let b1 := b.modLane l (fun x => { x with eves := x.eves ++ [{ e with tag := x.gen }] })
  match b.laneRef l with
  | .axis _ => b1
  | r =>
    let ref := b.refAt r at_
    if !reached ref e.pos then b1
    else if !b1.laneMayFire l then b1.stale l e
    else
      let b2 := (b1.fire l e ref at_).count .CMP_CNT l 31 24
      if e.design then b2
      else
        let item : Nat × Nat := if l < 96 then (0, unitNoz l) else (1, l)
        (b2.count .ALM_CNT 0 31 16).modAlm (fun a => { a with lateItems := a.lateItems ++ [item] })

/-- Entries published: those behind the reference fire in position order, then in the order in which
    they were written (R185). -/
def Block.publishAll (b : Block) (l : Nat) (es : List Eve) (at_ : Nat) : Block :=
  let ref := b.refAt (b.laneRef l) at_
  (sortEves (fun e => 2 ^ 48 - pastBy ref e.pos) es).foldl (fun acc e => acc.publishEve l e at_) b

/-- The entries of host software for a lane published (R28, R188). -/
def Block.publishFresh (b : Block) (l : Nat) (at_ : Nat) : Block :=
  (b.modLane l (fun x => { x with fresh := [] })).publishAll l (b.lane l).fresh at_

/-- The event of the entries fired through lateness in a COMMIT, at most once in 100 ms (R185, R197). -/
def Block.lateEvent (b : Block) (at_ : Nat) : Block :=
  let items (kind : Nat) : List Nat := (b.eng.alm.lateItems.filter (fun x => x.1 == kind)).map (·.2)
  let b1 := b.modAlm (fun a => { a with lateItems := [] })
  if b.eng.alm.lateItems.isEmpty || b.evt.quiet 51 (b.now at_) then b1
  else
    let b2 : Block := { b1 with evt := { b1.evt with lastRaise := put b1.evt.lastRaise 51 (b.now at_) } }
    (b2.raiseItems 51 1 0 (items 0) at_).raiseItems 51 1 1 (items 1) at_

/-- Every entry of a lane RETRACTED, its reservations with it (R29, R188, R395). -/
def Block.clearLane (b : Block) (l : Nat) : Block := b.modLane l (fun x => { x with eves := [], fresh := [] })

/-- The lanes that follow a unit (R37). -/
def Block.lanesOf (b : Block) (u : Nat) : List Nat :=
  (List.range 160).filter (fun l => b.laneUnit l == some u)

/-- What a plan pass has staged for a nozzle is not published any more, and asks for no reservation (R29). -/
def Block.unstage (b : Block) (n : Nat) : Block :=
  b.modAlmNoz n (fun x => { x with staged := x.staged.map (fun s => { s with keep := [], add := [] }) })

/-- A unit leaves ACTIVE at a COMMIT: the entries of its lanes are RETRACTED, published or staged (R29). -/
def Block.laneUnitChange (b : Block) (u : Nat) (old new : UnitState) : Block :=
  if old = .active ∧ new ≠ .active then
    ((b.lanesOf u).foldl (fun acc l => acc.clearLane l) b).unstage u
  else b

/-! ### Entries that host software writes (R186, R188) -/

/-- The entries that a lane holds, those about to be published among them. -/
def Lane.held (x : Lane) : Nat := x.eves.length + x.fresh.length

/-- The greatest SET of a proportional lane, in mA (R186). -/
def Block.propLaneMax (b : Block) (k : Nat) : Nat := if b.propPaired k then 6000 else 3000

/-- An action suits its lane and target, and its parameter lies in range (R186). -/
def Block.actionOk (b : Block) (l act param : Nat) : Bool :=
  let nozzle (pulse : Bool) : Bool :=
    match act with
    | 1 => decide (param ≤ 1000)
    | 2 => true
    | 7 => pulse && decide (1 ≤ param) && decide (param ≤ 10000)
    | 8 => true
    | _ => false
  let pin : Bool :=
    match act with
    | 4 => true
    | 5 => true
    | 6 => true
    | 7 => decide (1 ≤ param) && decide (param ≤ 65535)
    | 8 => true
    | _ => false
  if l < 96 then nozzle false
  else if l < 120 then
    match act with
    | 4 => decide (param ≤ if l < 104 then b.propLaneMax (l - 96) else 1000)
    | 5 => true
    | 8 => true
    | _ => false
  else if l < 128 then pin
  else
    let t := b.fld .CMP_CFG l 23 16
    if t < 8 then pin else if 16 ≤ t ∧ t < 112 then nozzle true else act == 8

/-- One staged write of CMP_WR_CMD, with the values of the other three window registers when it was
    written (R188). -/
structure LaneOp where
  pos : Nat
  param : Nat
  cmd : Word
  deriving DecidableEq, Repr

def LaneOp.lane (o : LaneOp) : Nat := bits o.cmd 7 0
def LaneOp.clear (o : LaneOp) : Bool := bits o.cmd 9 8 == 1
def LaneOp.act (o : LaneOp) : Nat := bits o.cmd 15 12
def LaneOp.repeats (o : LaneOp) : Bool := o.cmd.getLsbD 16

/-- Why an operation fails at its COMMIT, if it does (R188). -/
def Block.laneOpStatus (b : Block) (o : LaneOp) : Option Status :=
  let l := o.lane
  let rotary := match b.laneRef l with
    | .axis a => b.rotary a
    | _ => false
  let active := match b.laneUnit l with
    | some u => (b.unit u).state == .active
    | none => false
  if l < 96 ∧ b.fld .ALM_NOZ_CFG l 21 20 ≠ 0 then some .denied
  else if !active then some .fenced
  else if o.clear then none
  else if 8 ≤ (b.lane l).held then some .busy
  else if o.repeats ∧ !rotary then some .range
  else if !b.actionOk l o.act o.param then some .range
  else none

/-- An operation applied at its COMMIT (R185, R188): an entry added waits for step 5 (R28). -/
def Block.laneOp (b : Block) (o : LaneOp) : Block :=
  let l := o.lane
  if o.clear then b.clearLane l
  else
    let behind := match b.laneRef l with
      | .axis _ => false
      | r => reached (b.refAt r 0) o.pos
    let e : Eve := { order := b.eng.alm.entries, pos := o.pos % 2 ^ 48, act := o.act
                     repeats := o.repeats, param := o.param, design := behind }
    (b.modAlm (fun a => { a with entries := a.entries + 1 })).modLane l (fun x => { x with fresh := x.fresh ++ [e] })

end Sys2Proof.Machine
end

