-- ==== Sys2Proof/Machine/Almanac.lean ====
section
/-! DEFINITION. The Almanac (06): predicted path, profile, decisions, transitions, entries, kills,
    confirmations, the AS_APPLIED stream, overrides and targets. Travel is in units of 10 um of
    odometer, not wrapped; plane positions are in 0.1 nm; angles are in 2^-48 turn. -/

namespace Sys2Proof.Machine

open Sys2Proof (Word Byte Bytes Hdr Instr)

/-- ALM_NOZ_CFG[n] (R163, R164). -/
def Block.almMode (b : Block) (n : Nat) : Nat := b.fld .ALM_NOZ_CFG n 21 20
def Block.almProd (b : Block) (n : Nat) : Nat := b.fld .ALM_NOZ_CFG n 17 16
def Block.almSwath (b : Block) (n : Nat) : Nat := b.fld .ALM_NOZ_CFG n 15 0

/-- The odometer at the Tick edge, not wrapped. -/
def Block.odoEdge (b : Block) : Nat := b.eng.pose.odo / 2 ^ 32

/-- An odometer value of 48 bits, as the value nearest the present odometer. -/
def Block.odoNear (b : Block) (o : Nat) : Int :=
  (b.odoEdge : Int) + signed 48 (narrow 48 ((o : Int) - b.odoEdge))

/-! ### The predicted path (R166, R167) -/

/-- The horizon H (R166). -/
def Block.horizon (b : Block) : Nat :=
  let t := b.fld .ALM_HORIZON 0 7 0 * b.eng.pose.speed.natAbs / 100
  min (b.fld .ALM_HORIZON 0 19 8 * 10000) (max t (b.fld .ALM_HORIZON 0 31 24 * 10000))

/-- The predicted IRP after `s` of travel, and the boom heading there (R167). -/
def Block.irpAt (b : Block) (s : Int) : Int × Int × Int :=
  let p := b.eng.pose
  let v := p.speed
  let theta : Int :=
    if v.natAbs < 100000 then 0 else divRound (p.now.r * s * turn * 10000000) (v * 6283185307180)
  let half := theta / 2
  let x := toRadians half
  let len := s * 100000
  let chord := if x.natAbs < 1000 then len else divRound (len * (sinCos half).1) x
  let off := toField (sinCos (p.now.hdg + half)) chord 0
  let psi : Int :=
    if !b.flag .POSE_CTRL 0 1 then 0
    else if s ≤ 0 then p.psi
    else if v = 0 then 0
    else mulTrig p.psi (expNeg (s * b.fld .POSE_SWAY_CFG 0 7 0 * 6908435304715 / (10 * v.natAbs)))
  (p.now.e + off.1, p.now.n + off.2, p.now.hdg + theta + psi)

/-- The number of samples across a nozzle's swath (R167). -/
def Block.samples (b : Block) (n : Nat) : Nat :=
  let cs := b.cellMm (b.almProd n)
  min 8 (max 1 ((b.almSwath n + cs - 1) / cs))

/-- The predicted point of a nozzle at lateral offset `dy` (0.1 nm) from its own, after `s` of travel
    (R129, R167). -/
def Block.pointAt (b : Block) (n : Nat) (s dy : Int) : Int × Int :=
  let (e, no, hb) := b.irpAt s
  let g := b.word .ALM_NOZ_GEOM n
  let off := toField (sinCos hb) (sbits g 31 16 * mmUnit) (sbits g 15 0 * mmUnit + dy)
  (e + off.1, no + off.2)

/-- The lateral offset of sample `k` from the nozzle (R167). -/
def Block.sampleOffset (b : Block) (n k : Nat) : Int :=
  let m := b.samples n
  divRound (((2 * k + 1 : Nat) - (m : Int)) * b.almSwath n * mmUnit) (2 * m)

/-- The spacing of a nozzle's stations (R168). -/
def Block.stationGap (b : Block) (n : Nat) : Nat :=
  let v := b.eng.pose.speed
  let cs := b.cellMm (b.almProd n) * 100
  if v.natAbs < 100000 then cs
  else
    let y := sbits (b.word .ALM_NOZ_GEOM n) 15 0
    let d := (v * 1000 - b.eng.pose.now.r * y).natAbs
    let one := v.natAbs * 1000
    max 1 (cs * one / min (4 * one) (max one d))

/-! ### The profile (R168, R174, R176) -/

/-- Stations behind the odometer dropped, but for the last of them, which begins the stretch in which
    the odometer lies (R168; log entry 41). -/
def dropBehind (odo : Nat) : List Station → List Station
  | a :: c :: rest => if c.odo ≤ odo then dropBehind odo (c :: rest) else a :: c :: rest
  | l => l

/-- A check station (R168): every sixteenth, and each that holds a planned transition, before the next station
    at `next`. -/
def checkStation (eves : List Eve) (next : Nat) (s : Station) : Bool :=
  s.no % 16 == 0
    || eves.any (fun e => decide ((s.odo : Int) ≤ e.tp) && decide (e.tp < (next : Nat)))

/-- A station's predicted centre has moved by more than PATH_TOL (R168). -/
def Block.strayed (b : Block) (n : Nat) (s : Station) : Bool :=
  let c := b.pointAt n ((s.odo : Int) - b.odoEdge) 0
  decide (b.fld .ALM_TIMING 0 23 16 * mmUnit.toNat < norm2 (c.1 - s.e) (c.2 - s.n))

/-- The number of the first station to discard, if any (R168): `prev` is the previous check station, `front` the
    scan front that ends the last stretch. -/
def Block.firstStray (b : Block) (n front : Nat) (eves : List Eve) : List Station → Nat → Option Nat
  | [], _ => none
  | s :: rest, prev =>
    if checkStation eves ((rest.head?.map (·.odo)).getD front) s && decide (b.odoEdge ≤ s.odo) then
      if b.strayed n s then some prev else b.firstStray n front eves rest s.no
    else b.firstStray n front eves rest prev

/-- The path check of a nozzle (R168). -/
def Block.pathCheck (b : Block) (n : Nat) : Block :=
  let x := b.alm n
  let sts := dropBehind b.odoEdge x.stations
  let first := (sts.head?.map (·.no)).getD 0
  match b.firstStray n x.front (b.lane n).eves sts first with
  | none => b.modAlmNoz n (fun x => { x with stations := sts })
  | some no =>
    let front := ((sts.find? (fun s => s.no == no)).map (·.odo)).getD b.odoEdge
    b.modAlmNoz n (fun x => { x with
      stations := sts.filter (fun s => decide (s.no < no)), front := max front b.odoEdge
      nextNo := no, partial_ := [], parked := false })

/-- A parked scan waits without a lookup while a fault for its tile is outstanding or a fill of it in progress,
    until the tile is there or has timed out (R145). -/
def Block.waitsForTile (b : Block) (n : Nat) : Bool :=
  let x := b.alm n
  x.parked && ((b.faultOf x.parkKey).isSome || (b.fillOf x.parkKey).isSome) && (b.frameOf x.parkKey).isNone
    && !(b.waitOf (b.almProd n) x.parkKey).any (·.timedOut)

/-- One step of a nozzle's scan (R168, R174): a sample, or a station completed. False where the scan
    can go no further in this Tick; a nozzle whose lookup gets no slot is unfinished (R141). -/
def Block.scanStep (b : Block) (n : Nat) : Bool × Block :=
  let x := b.alm n
  if b.odoEdge + b.horizon < x.front || 1024 ≤ x.stations.length || b.waitsForTile n then (false, b)
  else
    let s : Int := (x.front : Int) - b.odoEdge
    if x.partial_.length < b.samples n then
      let pt := b.pointAt n s (b.sampleOffset n x.partial_.length)
      let (r, b1) := b.lookup (b.almProd n) (pt.1 / mmUnit) (pt.2 / mmUnit)
      let took (c : Option (BitVec 16)) : Bool × Block :=
        (true, b1.modAlmNoz n (fun x => { x with partial_ := x.partial_ ++ [c], parked := false }))
      match r with
      | .cell c => took (some c)
      | .unknown => took none
      | .parked =>
        let k := (b.place (b.almProd n) (pt.1 / mmUnit) (pt.2 / mmUnit)).1
        (false, b1.modAlmNoz n (fun x => { x with parked := true, parkKey := k }))
      | .noSlot => (false, b1.modAlm (fun a => { a with unserved := a.unserved ++ [n] }))
    else
      let c := b.pointAt n s 0
      (true, b.modAlmNoz n (fun x => { x with
        stations := x.stations ++ [{ no := x.nextNo, odo := x.front, e := c.1, n := c.2,
                                     cells := x.partial_ }]
        nextNo := x.nextNo + 1, front := x.front + b.stationGap n, partial_ := [] }))

/-- A nozzle's scan in one Tick. -/
def Block.scanNoz (n : Nat) : Nat → Block → Block
  | 0, b => b
  | fuel + 1, b =>
    match b.scanStep n with
    | (true, b1) => Block.scanNoz n fuel b1
    | (false, b1) => b1

/-! ### Decisions (R169) -/

/-- A station's decision. -/
structure Dec where
  on : Bool
  excl : Bool := false
  rate : Nat := 0
  deriving DecidableEq, Repr

/-- A sample is excluded, or covered (R169). -/
def cellExcl (c : BitVec 16) : Bool := c.getLsbD 15
def cellCov (c : BitVec 16) : Nat := bitsOf c.toNat 14 12

/-- A rate under its product's scale (R169, R191), no more than the 32 bits of a parameter hold (R186). -/
def Block.scaled (b : Block) (p rate : Nat) : Nat :=
  min 0xFFFFFFFF ((rate * b.fld .ALM_PROD_SCALE p 10 0 + 500) / 1000)

/-- The default target of a product, under its scale. -/
def Block.target (b : Block) (p : Nat) : Nat := b.scaled p (b.word .ALM_PROD_TARGET p).toNat

/-- The rate of one sample (R138, R169). -/
def Block.cellRate (b : Block) (p : Nat) (c : BitVec 16) : Nat :=
  let code := bitsOf c.toNat 11 0
  if code = 0 then (b.word .ALM_PROD_TARGET p).toNat else b.eng.map.rate p code

/-- The mean of rates; of none it is not stated: `free`. -/
def meanRate (l : List Nat) (free : Nat) : Nat :=
  if l.isEmpty then free % 2 ^ 32 else (2 * l.sum + l.length) / (2 * l.length)

/-- The combined rate of the samples that count (R169); `counts` says which do. -/
def Block.combine (b : Block) (p : Nat) (cells : List (Option (BitVec 16)))
    (counts : BitVec 16 → Bool) (free : Nat) : Nat :=
  let used := (cells.filterMap id).filter counts
  let rates := used.map (b.cellRate p)
  let centre := (nth cells (cells.length / 2) none).bind (fun c => if counts c then some c else none)
  let r := match b.fld .ALM_PROD_CFG p 21 20 with
    | 1 => if rates.isEmpty then meanRate rates free else rates.foldl max 0
    | 2 => (centre.map (b.cellRate p)).getD (meanRate rates free)
    | _ => meanRate rates free
  b.scaled p r

/-- The decision of a station's cells under an override (R169, R190): 0 AUTO, 1 OFF, 2 ON. -/
def Block.decideAt (b : Block) (p ovr : Nat) (cells : List (Option (BitVec 16))) (prev : Dec)
    (free : Nat) : Dec :=
  let known := cells.filterMap id
  match ovr with
  | 1 => { on := false }
  | 2 =>
    if known.all cellExcl then { on := true, rate := b.target p }
    else { on := true, rate := b.combine p cells (fun _ => true) free }
  | _ =>
    let s := cells.length
    let e := (known.filter cellExcl).length
    let c := (known.filter (fun c => !cellExcl c && decide (b.fld .ALM_PROD_CFG p 18 16 ≤ cellCov c))).length
    if known.length < s then prev
    else if b.fld .ALM_PROD_CFG p 6 0 * s < 100 * e then { on := false, excl := true }
    else if b.fld .ALM_PROD_CFG p 14 8 * s < 100 * (e + c) then { on := false }
    else { on := true, rate := b.combine p cells (fun c => !cellExcl c) free }

/-- A station with its decision, and whether an override made it. -/
structure Decided where
  st : Station
  dec : Dec
  ovr : Bool
  deriving DecidableEq, Repr

/-- The override that holds at an odometer value (R190). -/
def AlmNoz.ovrAtOdo (x : AlmNoz) (odo : Int) : Nat :=
  match x.ovrAt with
  | some a => if odo < a then x.ovrOld else x.ovr
  | none => x.ovr

/-- The decisions along a profile. -/
def Block.decideAll (b : Block) (n : Nat) (prev : Dec) (free : Nat) : List Station → List Decided
  | [] => []
  | s :: rest =>
    let ovr := (b.alm n).ovrAtOdo s.odo
    let d := b.decideAt (b.almProd n) ovr s.cells prev free
    { st := s, dec := d, ovr := ovr != 0 } :: b.decideAll n d free rest

/-! ### Transitions (R170, R171) -/

/-- What a planned entry does. -/
inductive Move where
  | opens
  | closes
  | rate
  deriving DecidableEq, Repr

/-- A planned transition: `covered` is set on a CLOSE when every station of the OFF stretch it begins is
    OFF_COV. -/
structure Trans where
  tp : Int
  dsw : Int
  move : Move
  rate : Nat := 0
  ovr : Bool := false
  counter : Bool := false
  covered : Bool := true
  deriving DecidableEq, Repr

/-- Where sample `k` moves into its new cell, as travel from station `a` in a stretch of `gap`: at its
    last grid line, or at the second station where its cell is the same (R170). -/
def Block.crossingOf (b : Block) (n : Nat) (a c : Station) (k : Nat) : Nat :=
  let cs : Int := b.cellMm (b.almProd n) * mmUnit
  let dy := b.sampleOffset n k
  let p0 := b.pointAt n ((a.odo : Int) - b.odoEdge) dy
  let p1 := b.pointAt n ((c.odo : Int) - b.odoEdge) dy
  let gap := c.odo - a.odo
  let along (x0 x1 : Int) : Nat :=
    let i0 := x0 / cs
    let i1 := x1 / cs
    if i0 = i1 then 0
    else
      let edge := if i0 < i1 then i1 * cs else (i1 + 1) * cs
      (divRound ((edge - x0) * gap) (x1 - x0)).toNat
  if p0.1 / cs = p1.1 / cs ∧ p0.2 / cs = p1.2 / cs then gap
  else min gap (max (along p0.1 p1.1) (along p0.2 p1.2))

/-- The changes of the samples between two stations: sample and travel, in the order of travel. -/
def Block.changesBetween (b : Block) (n : Nat) (a c : Station) : List (Nat × Nat) :=
  let ks := (List.range (min a.cells.length c.cells.length)).filter
    (fun k => nth a.cells k none != nth c.cells k none)
  (ks.map (fun k => (k, b.crossingOf n a c k))).foldl (fun acc x =>
    acc.filter (fun y => decide (y.2 ≤ x.2)) ++ [x] ++ acc.filter (fun y => decide (x.2 < y.2))) []

/-- The first travel at which the decision equals the new one (R170). -/
def Block.transitionIn (b : Block) (p ovr : Nat) (prev want : Dec) (free : Nat)
    (to_ : List (Option (BitVec 16))) : List (Option (BitVec 16)) → List (Nat × Nat) → Option Nat
  | _, [] => none
  | cells, (k, s) :: rest =>
    let cells' := modNth cells k (fun _ => nth to_ k none)
    if b.decideAt p ovr cells' prev free = want then some s
    else b.transitionIn p ovr prev want free to_ cells' rest

/-- The odometer of a SECTION_COMMAND that lies between two stations (R190). -/
def AlmNoz.switchIn (x : AlmNoz) (a c : Station) : Option Nat :=
  x.ovrAt.filter (fun at_ => decide (a.odo < at_) && decide (at_ ≤ c.odo))

/-- The transition point between two decided stations (R170, R190). -/
def Block.transitionPoint (b : Block) (n : Nat) (a c : Decided) (free : Nat) : Int :=
  let x := b.alm n
  match x.switchIn a.st c.st with
  | some at_ => at_
  | none =>
    a.st.odo + ((b.transitionIn (b.almProd n) (x.ovrAtOdo c.st.odo) a.dec c.dec free c.st.cells
      a.st.cells (b.changesBetween n a.st c.st)).getD (c.st.odo - a.st.odo) : Nat)

/-- A rate moves by more than the dead band (R170). -/
def Block.rateMoves (b : Block) (p old new : Nat) : Bool :=
  decide (b.fld .ALM_PROD_SCALE p 23 16 * old < 1000 * (max old new - min old new))

/-- The offset of a transition point, in 10 um (R170). -/
def Block.planOffset (b : Block) (p : Nat) (m : Move) : Int :=
  match m with
  | .opens => b.sfld .ALM_PROD_OFS p 15 0 * 100
  | .closes => b.sfld .ALM_PROD_OFS p 31 16 * 100
  | .rate => 0

/-- The transition from one state to a decision, if there is one; `exact` is true where a SECTION_COMMAND places
    it, which takes no offset (R190), `ovr` where an override makes the decision (R192). -/
def Block.transTo (b : Block) (p : Nat) (on : Bool) (rate : Nat) (d : Dec) (tp : Int) (exact ovr : Bool) :
    Option Trans :=
  let mk (m : Move) : Trans :=
    { tp := tp, dsw := tp + (if exact || ovr then 0 else b.planOffset p m), move := m, rate := d.rate
      ovr := ovr }
  if d.on && !on then some (mk .opens)
  else if !d.on && on then some (mk .closes)
  else if d.on && b.rateMoves p rate d.rate then some (mk .rate)
  else none

/-- The transitions from a decided station on (R170). -/
def Block.walk (b : Block) (n : Nat) (free : Nat) : Decided → Bool → Nat → List Decided → List Trans
  | _, _, _, [] => []
  | a, on, rate, c :: rest =>
    let same := decide (a.dec.on = c.dec.on) && !(c.dec.on && b.rateMoves (b.almProd n) rate c.dec.rate)
    if same then b.walk n free c on rate rest
    else
      match b.transTo (b.almProd n) on rate c.dec (b.transitionPoint n a c free)
          ((b.alm n).switchIn a.st c.st).isSome c.ovr with
      | some t => t :: b.walk n free c c.dec.on c.dec.rate rest
      | none => b.walk n free c on rate rest

/-- Whether every station of the OFF stretch that begins at each CLOSE is OFF_COV, read off the decided
    stations between it and the next OPEN. -/
def markCovered (ds : List Decided) : List Trans → List Trans
  | [] => []
  | t :: rest =>
    let stop := ((rest.find? (fun u => u.move == .opens)).map (·.tp))
    let other := ds.any (fun d => (d.dec.excl || (d.ovr && !d.dec.on)) && decide (t.tp ≤ d.st.odo)
      && (match stop with
          | some s => decide ((d.st.odo : Int) < s)
          | none => true))
    { t with covered := !other } :: markCovered ds rest

/-- Travel at the predicted speed in a time of `ns`. -/
def Block.travelIn (b : Block) (ns : Nat) : Int := b.eng.pose.speed * ns / 10000000000

/-- The lead of an opening or a closing (R172). -/
def Block.leadOf (b : Block) (n : Nat) (opening : Bool) : Int :=
  let v := b.eng.pose.speed
  let d : Int := b.learnedPlan n opening
  let a := clampInt (-3000000) 3000000 b.eng.pose.acc
  max 0 (divRound (v * d * 200000 + a * d * d) 200000000000)

/-- The lead of a transition: a RATE has none. -/
def Block.moveLead (b : Block) (n : Nat) (m : Move) : Int :=
  match m with
  | .opens => b.leadOf n true
  | .closes => b.leadOf n false
  | .rate => 0

/-- Where a transition takes effect at the earliest: its switching distance, or what a command given
    now reaches. -/
def Block.effective (b : Block) (n : Nat) (t : Trans) : Int := max t.dsw (b.odoEdge + b.moveLead n t.move)

/-- The list after its first transition of a kind, with that transition. -/
def splitAt (m : Move) : List Trans → Option (Trans × List Trans)
  | [] => none
  | t :: rest => if t.move = m then some (t, rest) else splitAt m rest

/-- The RATE that is left of an OPEN at the end of an OFF stretch that is not planned (R170, R171): the nozzle stays
    on at `rate`, and the new rate begins at the OPEN's transition point. -/
def Block.rateOf (b : Block) (n rate : Nat) (u : Trans) : List Trans :=
  if b.rateMoves (b.almProd n) rate u.rate then [{ u with move := .rate, dsw := u.tp }] else []

/-- The minimum stretches (R171); `rate` is the rate until the first transition. -/
def Block.stretches (b : Block) (n : Nat) : Nat → Nat → List Trans → List Trans
  | 0, _, l => l
  | _ + 1, _, [] => []
  | fuel + 1, rate, t :: rest =>
    match t.move with
    | .rate => t :: b.stretches n fuel t.rate rest
    | .opens =>
      match splitAt .closes rest with
      | some (u, after) =>
        if b.effective n u - b.effective n t < b.travelIn (b.fld .ALM_TIMING 0 14 0 * 100000) then
          b.stretches n fuel rate after
        else t :: b.stretches n fuel t.rate rest
      | none => t :: b.stretches n fuel t.rate rest
    | .closes =>
      match splitAt .opens rest with
      | some (u, after) =>
        let off := b.travelIn (b.minOff n)
        if b.effective n u - b.effective n t < off then
          if t.covered then b.rateOf n rate u ++ b.stretches n fuel u.rate after
          else t :: b.stretches n fuel rate ({ u with dsw := b.effective n t + off } :: after)
        else t :: b.stretches n fuel rate rest
      | none => t :: b.stretches n fuel rate rest

/-! ### A nozzle's plan (R172 to R182, R190) -/

/-- The state a nozzle will have once its entries in flight complete (R180). -/
def AlmNoz.after (x : AlmNoz) : Bool × Nat :=
  x.flights.foldl (fun acc f =>
    match f.act with
    | .opens => (true, f.param)
    | .closes => (false, acc.2)
    | .rate => (acc.1, f.param)
    | .pulse => acc) (x.on, x.rate)

/-- The Almanac evaluates nozzle `n` (R163, R198). -/
def Block.evaluates (b : Block) (n : Nat) : Bool :=
  b.flag .ALM_CTRL 0 0 && b.almMode n == 1 && decide (b.almProd n < 2)
    && (b.unit (unitNoz n)).state == .active && !(b.noz n).stuck

/-- The pose grade is too low for map decisions of a product (R177). -/
def Block.lowGrade (b : Block) (p : Nat) : Bool :=
  decide (b.eng.pose.grade < b.fld .ALM_PROD_CFG p 27 26)

/-- A single transition at the odometer, which fires at publication. -/
def atOdometer (odo base : Int) (m : Move) (rate : Nat) (ovr : Bool) : Trans :=
  { tp := base, dsw := odo, move := m, rate := rate, ovr := ovr }

/-- The transitions that bring the nozzle to the default target at publication (R177). -/
def Block.toTarget (b : Block) (n : Nat) (ovr : Bool) : List Trans :=
  let x := b.alm n
  let p := b.almProd n
  let (on, rate) := x.after
  let r := b.target p
  if !on then [{ atOdometer b.odoEdge x.base .opens r ovr with dsw := b.odoEdge + b.leadOf n true }]
  else if b.rateMoves p rate r then [atOdometer b.odoEdge x.base .rate r ovr]
  else []

/-- The transitions that close the nozzle at the odometer (R177). -/
def Block.closeAtOdometer (b : Block) (n : Nat) (ovr : Bool) : List Trans :=
  let x := b.alm n
  if x.after.1 then [{ atOdometer b.odoEdge x.base .closes 0 ovr with
    dsw := b.odoEdge + b.leadOf n false }]
  else []

/-- The move of an action code. -/
def moveOf (act : Nat) : Option Move :=
  match act with
  | 1 => some .opens
  | 2 => some .closes
  | 3 => some .rate
  | _ => none

/-- The transitions of waiting entries whose transition point the odometer has passed, where the profile
    no longer holds it (R168, log entry 42), and the state they leave. -/
def passed (front base : Int) : Bool × Nat → List Eve → List Trans × (Bool × Nat)
  | st, [] => ([], st)
  | (on, rate), e :: rest =>
    let acts := match e.act with
      | 1 => !on
      | 2 => on
      | 3 => on
      | _ => false
    match moveOf e.act with
    | some m =>
      if acts && decide (base ≤ e.tp ∧ e.tp < front ∧ front ≤ e.dsw) then
        let st := (if m = .rate then on else m == .opens, if m = .closes then rate else e.param)
        let r := passed front base st rest
        ({ tp := e.tp, dsw := e.dsw, move := m, rate := e.param, ovr := e.ovr
           counter := e.counter } :: r.1, r.2)
      else passed front base (on, rate) rest
    | none => passed front base (on, rate) rest

/-- The transitions of the map and the override from the last one carried out (R170, R190). -/
def Block.mapTransitions (b : Block) (n : Nat) (free : Nat) : List Trans :=
  let x := b.alm n
  let p := b.almProd n
  let now := x.ovrAt == none && (x.ovr != 0 || x.ovrDue)
  let kept := if now then ([], x.after)
    else passed b.odoEdge x.base x.after (b.lane n).eves
  let (on, rate) := kept.2
  let ds := b.decideAll n { on := on, rate := rate } free x.stations
  let ahead := ds.dropWhile (fun d => decide ((d.st.odo : Int) < x.base))
  let forced : Option Dec :=
    match x.ovrAtOdo b.odoEdge with
    | 1 => some { on := false }
    | 2 => some { on := true, rate := b.target p }
    | _ => none
  let first : Option Dec := match ahead.head? with
    | some d => some d.dec
    | none => forced
  match first with
  | none => kept.1
  | some d =>
    let begins := (ahead.head?.map (·.st.odo)).getD b.odoEdge
    let tp := match ahead.head? with
      | some h => if ds.head? = some h then max x.base h.st.odo else x.base
      | none => x.base
    let ovr := (ahead.head?.map (·.ovr)).getD true
    let due : Option Nat := if x.ovrDue then x.ovrAt.filter (fun a => decide (a ≤ begins)) else none
    let start := (b.transTo p on rate d tp (now || due.isSome) ovr).map (fun t =>
      if now then { t with dsw := b.odoEdge + b.moveLead n t.move }
      else match due with
        | some a => { t with tp := max x.base a, dsw := a }
        | none => t)
    let rest := match ahead with
      | [] => []
      | h :: tail => b.walk n free h d.on (if (start.map (·.move)).isSome then d.rate else rate) tail
    markCovered ds (kept.1 ++ start.toList ++ rest)

/-- What the counter-action rule makes of a plan after an entry that was retracted too late (R182): the
    transitions, the transition point from which the plan goes on, and whether the fired state is kept until the
    plan has a next transition. The counter-action is tried in one plan pass only. -/
def Block.counterRule (b : Block) (n : Nat) (l : List Trans) : List Trans × Option Int × Bool :=
  let x := b.alm n
  match l with
  | t :: rest =>
    if !(x.lateFired || x.lateKept) || t.move == .rate || decide ((b.odoEdge : Int) < t.tp) then (l, none, false)
    else
      let clear : Int := match t.move with
        | .opens => ((x.closeOdo.getD 0 : Nat) : Int) + b.travelIn (b.minOff n)
        | _ => ((x.openOdo.getD 0 : Nat) : Int) + b.travelIn (b.fld .ALM_TIMING 0 14 0 * 100000)
      if x.lateFired ∧ clear ≤ b.effective n t then ({ t with counter := true } :: rest, none, false)
      else
        match splitAt (if t.move = Move.opens then Move.closes else Move.opens) rest with
        | some (u, after) => (after, some u.tp, false)
        | none => ([], none, true)
  | [] => ([], none, false)

/-- The transition of an override whose odometer lies ahead, where the map is not followed: a SECTION_COMMAND
    of OFF always acts, one of ON where `ons` says so, at the default target (R177, R190). `on` is the state
    before it. -/
def Block.overrideAhead (b : Block) (n : Nat) (on ons : Bool) : List Trans :=
  let x := b.alm n
  match x.ovrAt with
  | some a =>
    let t (m : Move) (rate : Nat) : List Trans := [{ tp := a, dsw := a, move := m, rate := rate, ovr := true }]
    if (a : Int) ≤ b.odoEdge then []
    else if x.ovr = 1 ∧ on then t .closes 0
    else if x.ovr = 2 ∧ ons ∧ !on then t .opens (b.target (b.almProd n))
    else []
  | none => []

/-- The plan of a nozzle under the conditions of R177 and the overrides of R190. -/
def Block.transitions (b : Block) (n : Nat) (free : Nat) : List Trans × Option Int × Bool :=
  let x := b.alm n
  let p := b.almProd n
  let ovr := x.ovrAtOdo b.odoEdge
  let slow := (b.nozSeen n).slow
  let walked : List Trans × Option Int × Bool :=
    let r := b.counterRule n (b.mapTransitions n free)
    (b.stretches n 64 x.after.2 r.1, r.2)
  let hold (ons : Bool) : List Trans := b.overrideAhead n x.after.1 ons
  if ovr = 1 then walked
  else if slow then
    (if b.flag .ALM_PROD_CFG p 22 then hold false else b.closeAtOdometer n false, none, false)
  else if b.lowGrade p then
    match b.fld .ALM_PROD_CFG p 25 24 with
    | 2 => (b.toTarget n false ++ b.overrideAhead n true true, none, false)
    | 1 => (if ovr = 2 then b.toTarget n true ++ b.overrideAhead n true true
            else b.closeAtOdometer n false ++ b.overrideAhead n false true, none, false)
    | _ => (if ovr = 2 then b.toTarget n true ++ b.overrideAhead n true true else hold true, none, false)
  else walked

/-- The command distance of a transition (R172): `close` is the odometer at which the CLOSE before it
    fires, `fold` the deferral folded in, in ns. -/
def Block.commandAt (b : Block) (n : Nat) (t : Trans) (close : Option Int) (fold : Nat) : Int :=
  let v := b.eng.pose.speed
  match t.move with
  | .rate => t.dsw - divRound (v * (b.fld .ALM_TIMING 0 31 24 * 1000000 : Nat)) 10000000000
  | .closes => t.dsw - b.leadOf n false
  | .opens =>
    let cmd := t.dsw - b.leadOf n true - divRound (v * fold) 10000000000
    match close with
    | some c => max cmd (c + divRound (v * b.minOff n) 10000000000)
    | none => cmd

/-- The action code of a planned entry. -/
def Move.code : Move → Nat
  | .opens => 1
  | .closes => 2
  | .rate => 3

/-- The predicted fire instant of a position, on the model's clock (R178). -/
def Block.fireInstant (b : Block) (cmd : Int) : Nat :=
  let d := cmd - b.odoEdge
  let v := b.eng.pose.speed
  if d ≤ 0 ∨ v ≤ 0 then b.now 88000 else b.time.now + (d * 10000000000 / v).toNat

/-- The published entry for the same transition (R178): the same action, its switching distance within
    PATH_TOL (log entry 42). -/
def Block.matching (b : Block) (eves : List Eve) (t : Trans) : Option Eve :=
  eves.find? (fun e => e.act == t.move.code
    && decide ((e.dsw - t.dsw).natAbs ≤ b.fld .ALM_TIMING 0 23 16 * 100))

/-- What one plan pass has made so far. -/
structure Planned where
  keep : List Eve := []
  add : List Eve := []
  next : Nat
  close : Option Int
  folds : Nat := 0
  counters : Nat := 0

/-- One transition turned into its entry, kept or added (R172, R173, R178). -/
def Block.planEntry (b : Block) (n : Nat) (eves : List Eve) (acc : Planned) (t : Trans) : Planned :=
  let old := b.matching (eves.filter (fun e => !acc.keep.any (fun k => k.order == e.order))) t
  match old with
  | some e =>
    if e.firm then { acc with keep := acc.keep ++ [e] }
    else
      let fold := if t.move = .opens then e.delta.getD e.fold else 0
      let cmd := b.commandAt n t acc.close fold
      let e' : Eve := { e with
        tp := t.tp, dsw := t.dsw, fold := fold
        want := if t.move = .opens then some (b.fireInstant cmd) else none }
      let acc1 := { acc with
        close := if t.move = Move.closes then some cmd else acc.close
        folds := acc.folds + (if t.move = Move.opens ∧ fold ≠ e.fold then 1 else 0) }
      if e.pos = narrow 48 cmd ∧ (t.move = .closes ∨ e.param = t.rate) then
        { acc1 with keep := acc1.keep ++ [e'] }
      else
        { acc1 with
          add := acc1.add ++ [{ e' with order := acc.next, pos := narrow 48 cmd, param := t.rate
                                        moved := some e.order
                                        design := decide (cmd ≤ b.odoEdge) }]
          next := acc.next + 1 }
  | none =>
    let cmd := b.commandAt n t acc.close 0
    { acc with
      close := if t.move = .closes then some cmd else acc.close
      counters := acc.counters + (if t.counter then 1 else 0)
      add := acc.add ++ [{ order := acc.next, pos := narrow 48 cmd, act := t.move.code, param := t.rate
                           tp := t.tp, dsw := t.dsw, design := decide (cmd ≤ b.odoEdge)
                           ovr := t.ovr, counter := t.counter
                           want := if t.move = .opens then some (b.fireInstant cmd) else none }]
      next := acc.next + 1 }

/-- A nozzle whose scan is parked is BLIND where odometer plus lead has reached the scan front (R176). -/
def Block.blindNow (b : Block) (n : Nat) : Bool :=
  let x := b.alm n
  x.parked && decide ((x.front : Int) ≤ b.odoEdge + max (b.leadOf n true) (b.leadOf n false))

/-- The plan stands as published: the nozzle is BLIND, and no override of OFF closes it (R176, R177). -/
def Block.planStands (b : Block) (n : Nat) : Bool := b.blindNow n && (b.alm n).ovrAtOdo b.odoEdge != 1

/-- The switch of the last SECTION_COMMAND is in the plan made now: at once with NOW, else when the odometer has
    come to it (R190). -/
def Block.switchPlanned (b : Block) (x : AlmNoz) : Bool :=
  match x.ovrAt with
  | some a => decide (a ≤ b.odoEdge)
  | none => true

/-- A nozzle's profile made ready for its plan pass: begun at the odometer, or checked (R168). -/
def Block.planBegins (b : Block) (n : Nat) : Block :=
  if (b.alm n).planning then b.pathCheck n
  else b.modAlmNoz n (fun x => { x with
    planning := true, stations := [], front := b.odoEdge, partial_ := [], base := b.odoEdge
    parked := false, blind := false })

/-- The entries of a nozzle's plan: those kept and those added (R173, R176, R178). -/
def Block.planEntries (b : Block) (n : Nat) (ts : List Trans) : Planned :=
  let x := b.alm n
  let eves := (b.lane n).eves
  let start : Planned := { next := b.eng.alm.entries, close := x.closeOdo.map (fun (c : Nat) => (c : Int)) }
  if b.planStands n then { start with keep := eves }
  else
    ((ts.filter (fun t => decide (t.tp ≤ max (x.front : Int) x.base))).take 8).foldl
      (fun acc t => b.planEntry n eves acc t) start

/-- A kill, where an entry that the plan does not keep is predicted to cross before the COMMIT update (R181). -/
def Block.killFor (b : Block) (n : Nat) (gone : List Eve) : Block :=
  if b.flag .ALM_TIMING 0 15 && gone.any (fun e => reached (b.odoAt 88000) e.pos) then
    (b.modLane n (fun l => { l with gen := l.gen + 1, killedAt := b.now 20000 })).count .ALM_CNT 3 31 16
  else b

/-- The plan pass of a nozzle that the Almanac evaluates (R172 to R181): what it makes is staged for COMMIT, but
    for a kill. -/
def Block.planNoz (b : Block) (n : Nat) : Block :=
  let (free, b1) := (b.planBegins n).draw
  let x := b1.alm n
  let (ts, jump, late) := b1.transitions n free
  let r := b1.planEntries n ts
  let gone := (b1.lane n).eves.filter (fun e => !r.keep.any (fun k => k.order == e.order))
  let slow := (b.nozSeen n).slow
  let plan : LanePlan :=
    { keep := r.keep, retract := gone.map (·.order), add := r.add, planned := true
      openLead := b1.learnedPlan n true, closeLead := b1.learnedPlan n false
      slow := slow, low := !slow && b.lowGrade (b.almProd n), folds := r.folds, counters := r.counters
      from_ := x.base, jump := jump, late := late, ovrDone := x.ovrDue && b1.switchPlanned x }
  ((b1.modAlm (fun a => { a with entries := r.next })).modAlmNoz n (fun x => { x with
    staged := some plan })).killFor n gone

/-- A nozzle that is not evaluated: its entries are retracted where the Almanac wrote them, or where the
    Almanac is disabled (R177, R198). -/
def Block.idleNoz (b : Block) (n : Nat) : Block :=
  let retract := b.almMode n == 1 || !b.flag .ALM_CTRL 0 0
  b.modAlmNoz n (fun x => { x with
    planning := false, stations := [], partial_ := [], parked := false, blind := false
    slow := (b.nozSeen n).slow, low := false, lateFired := false, lateKept := false
    staged := if retract && !(b.lane n).eves.isEmpty then
        some { retract := (b.lane n).eves.map (·.order) } else none })

/-- The order of urgency (R174): the nozzles of `first`, left unfinished in the previous Tick, then by how long the
    gap between scan front and odometer plus lead lasts, then by channel. At rest no gap lasts less than
    another (log entry 79). -/
def Block.urgency (b : Block) (first : List Nat) (n : Nat) : Int :=
  let gap := if b.eng.pose.speed = 0 then 0 else ((b.alm n).front : Int) - b.leadOf n true
  if first.contains n then gap - 2 ^ 60 else gap

/-- A nozzle put in its place by urgency. -/
def insertNoz (u : Nat → Int) (n : Nat) : List Nat → List Nat
  | [] => [n]
  | m :: rest => if u m ≤ u n then m :: insertNoz u n rest else n :: m :: rest

/-- The view of the Tick that begins (R192). -/
def Block.tickView (b : Block) : TickView :=
  let p := b.eng.pose
  { edge := b.time.now, stamp := b.time.stamp, odo := p.odo, inc := p.inc, incOld := p.incOld
    v := p.speed, hb := p.now.hdg + p.psi, grade := p.grade, e := p.now.e, n := p.now.n
    yaw := p.now.r + p.sway, noz := (List.range 96).map b.nozSeen }

/-- The view of the Tick taken once its POSE phase has run; the one before joins those kept (R192). -/
def Block.noteView (b : Block) : Block :=
  b.modAlm (fun a => { a with past := a.view :: a.past, view := b.tickView })

/-- The views that no later outcome can need dropped: a finished COMMIT has taken up what was reached before it. -/
def Block.dropViews (b : Block) : Block := b.modAlm (fun a => { a with past := a.past.take 1 })

/-- An evaluation parked on a tile requests it in every Tick in which it stays parked (R146). -/
def Block.keepFault (b : Block) (n : Nat) : Block :=
  if (b.alm n).parked then b.useFault (b.alm n).parkKey else b

/-- After the scans, the nozzles that are BLIND: the event is raised on entry (R176). -/
def Block.blindPass (b : Block) (l : List Nat) : Block :=
  let entering := l.filter (fun n => b.blindNow n && !(b.alm n).blind)
  ((l.foldl (fun acc n => acc.modAlmNoz n (fun x => { x with blind := b.blindNow n })) b).count
    .ALM_CNT 3 15 0 entering.length).raiseItems 49 1 0 entering 20000

/-- Nozzles in order of urgency (R174). -/
def Block.byUrgency (b : Block) (first l : List Nat) : List Nat :=
  l.foldl (fun acc n => insertNoz (b.urgency first) n acc) []

/-- The ALMANAC phase (R174, R175): every plan, then the scans, each in order of urgency. -/
def Block.almanacPhase (b : Block) : Block :=
  let a := b.eng.alm
  let first := a.unfinished ++ a.unserved
  let mine := (List.range 96).filter b.evaluates
  let b0 := b.modAlm (fun a => { a with unserved := [] })
  let b1 := ((List.range 96).filter (fun n => !b.evaluates n)).foldl Block.idleNoz b0
  let b2 := (b.byUrgency first mine).foldl (fun acc n => (acc.planNoz n).keepFault n) b1
  let order := b2.byUrgency first mine
  (order.foldl (fun acc n => Block.scanNoz n 9216 acc) b2).blindPass order

/-! ### Publication (R175, R181, R182) -/

/-- A retraction applied at the COMMIT: the entry leaves the lane, or it has fired and becomes
    LATE_RETRACT (R180, R182). -/
def Block.retract (b : Block) (n order : Nat) (at_ : Nat) : Block :=
  let x := b.alm n
  match x.flights.find? (fun f => f.order == order) with
  | some f =>
    ((b.modAlmNoz n (fun x => { x with
      flights := x.flights.map (fun g => if g.order == order then { g with late := true } else g)
      base := f.baseBefore, lateFired := true, lateKept := false })).count .ALM_CNT 1 15 0).raiseItems 50 1 0 [unitNoz n] at_
  | none => b.dropEve n order

/-- What a plan pass that finished says of its nozzle beside its entries (R175, R182, R190); an entry fired since
    has changed the point from which it counts. -/
def AlmNoz.takePlan (x : AlmNoz) (s : LanePlan) : AlmNoz :=
  let stands := x.base == s.from_
  { x with
    openLead := s.openLead, closeLead := s.closeLead, slow := s.slow, low := s.low
    base := if stands then s.jump.getD x.base else x.base
    lateFired := x.lateFired && !stands, lateKept := s.late && stands
    ovrDue := x.ovrDue && !s.ovrDone }

/-- What follows a finished plan pass (ALM_CNT1, ALM_CNT2). -/
def Block.takePlan (b : Block) (n : Nat) (s : LanePlan) : Block :=
  if s.planned then
    ((b.modAlmNoz n (fun x => x.takePlan s)).count .ALM_CNT 2 31 16 s.folds).count .ALM_CNT 1 31 16 s.counters
  else b

/-- What a nozzle's plan has staged, published at the COMMIT update (R175, R181): kept entries take the
    lane's tag, a new entry that replaces one that has fired meanwhile is not published. -/
def Block.publishPlan (b : Block) (n : Nat) (at_ : Nat) : Block :=
  match (b.alm n).staged with
  | none => b
  | some s =>
    let b1 := s.retract.foldl (fun acc o => acc.retract n o at_) (b.takePlan n s)
    let b2 := b1.modLane n (fun l => { l with
      eves := (l.eves.map (fun e =>
        match s.keep.find? (fun k => k.order == e.order) with
        | some k => { k with tag := l.gen, delta := e.delta, firm := e.firm, off := e.off }
        | none => e)).filter (fun e => e.tag == l.gen) })
    let fresh := s.add.filter (fun e => match e.moved with
      | some o => (b.lane n).eves.any (fun x => x.order == o)
      | none => true)
    let b3 := if (b2.unit (unitNoz n)).state != .active then b2 else b2.publishAll n fresh at_
    b3.modAlmNoz n (fun x => { x with staged := none })

/-- The plans of a COMMIT: `unfinished` nozzles publish nothing (R175), but their entries with a stale tag are
    RETRACTED (R181). -/
def Block.publishPlans (b : Block) (unfinished : List Nat) (at_ : Nat) : Block :=
  let late := unfinished.filter (fun n => b.evaluates n)
  let b1 := late.foldl (fun acc n => (acc.modAlmNoz n (fun x => { x with staged := none })).modLane n
    (fun l => { l with eves := l.eves.filter (fun e => e.tag == l.gen) })) b
  let b2 := if late.isEmpty then b1
    else
      (b1.count .ALM_CNT 0 15 0 late.length).raiseLimited 48 1 (payB 0 0 (late.map unitNoz)) at_
  let planned := ((List.range 96).filter (fun n => (b2.alm n).staged.any (·.planned))).length
  (List.range 96).foldl (fun acc n => acc.publishPlan n at_)
    (b2.modAlm (fun a => { a with unfinished := late, planned := planned }))

/-- Step 5 of a COMMIT (R28): the entries of the plans and those of host software are published, lane by lane,
    and the ones that fired through lateness reported together. -/
def Block.publishEntries (b : Block) (unfinished : List Nat) (at_ : Nat) : Block :=
  ((List.range 160).foldl (fun acc l => acc.publishFresh l at_) (b.publishPlans unfinished at_)).lateEvent at_

/-- A COMMIT that does not finish drops what the plans have staged; the Almanac computes its entries
    again (R30). -/
def Block.dropPlans (b : Block) : Block :=
  b.modAlm (fun a => { a with noz := a.noz.map (fun x => { x with staged := none }) })

/-! ### The AS_APPLIED stream (R192 to R196) -/

/-- A coverage segment from where a nozzle's interval stands to an instant of the same Tick, none in a Tick in
    which the nozzle is SLOW or the grade NONE (R153). -/
def Block.segmentIn (b : Block) (n t : Nat) (e no hb : Int) : Block :=
  let x := b.alm n
  let p := b.almProd n
  if t ≤ x.segAt then b
  else
    let v := b.viewOf x.segAt
    let b1 := if p < 2 ∧ !(nth v.noz n {}).slow ∧ v.grade ≠ 0 then
        let s : Segment := { prod := p, noz := n, e0 := x.segE, n0 := x.segN, hb0 := x.segHb
                             e1 := e, n1 := no, hb1 := hb, w := b.almSwath n }
        b.modAlm (fun a => { a with
          tracks := modNth a.tracks p (fun k => { k with segments := k.segments ++ [s] }) })
      else b
    b1.modAlmNoz n (fun x => { x with segE := e, segN := no, segHb := hb, segAt := t })

/-- The end of a segment at the edge of a Tick. -/
def Block.segmentAtEdge (b : Block) (n : Nat) (v : TickView) : Block :=
  let g := v.ground n v.edge
  b.segmentIn n v.edge g.1 g.2 v.hb

/-- The coverage segments from where a nozzle's interval stands to an instant, one for each Tick (R153). -/
def Block.segmentTo (b : Block) (n t : Nat) (e no hb : Int) : Block :=
  let edges := (b.eng.alm.view :: b.eng.alm.past).reverse.filter (fun v => decide (v.edge < t))
  (edges.foldl (fun acc v => acc.segmentAtEdge n v) b).segmentIn n t e no hb

/-- The segments of every ON nozzle brought to the Tick edge (R153). -/
def Block.segmentsToEdge (b : Block) : Block :=
  let v := b.eng.alm.view
  (List.range 96).foldl (fun acc n =>
    if (acc.alm n).on then
      let g := v.ground n v.edge
      acc.segmentTo n v.edge g.1 g.2 v.hb
    else acc) b

/-- A record put into the ring of 4 096; one overwritten unsent is lost (R195). -/
def Block.keepRecord (b : Block) (r : AaRecord) (at_ : Nat) : Block :=
  let a := b.eng.alm
  let full := a.ring.length == 4096
  let lost := full && a.waiting == 4096
  let b1 := b.modAlm (fun a => { a with
    ring := (if full then a.ring.drop 1 else a.ring) ++ [r]
    waiting := if lost then a.waiting else a.waiting + 1, next := seqNext a.next })
  if lost then (b1.count .ALM_AA_STAT 0 15 0).raiseLimited 53 1 payZ at_ else b1

/-- A record made (R192, R193, R196): it closes its product's interval, whose segments take its sequence
    number and go to the walker together. -/
def Block.makeRecord (b : Block) (p : Nat) (r : AaRecord) (at_ : Nat) : Block :=
  let seq := if p < 2 then b.eng.alm.next else seqNone
  let r' : AaRecord := { r with seq := seq, made := b.now at_ }
  let b1 := if p < 2 then
      let segs := (nth b.eng.alm.tracks p {}).segments
      let b0 := b.modAlm (fun a => { a with
        tracks := modNth a.tracks p (fun k => { k with segments := [] }) })
      (b0.queueSegments (segs.map (fun s => { s with seq := seq })) at_).keepRecord r' at_
    else b
  if b.flag .ALM_CTRL 0 1 && (r.kind == 1 || r.kind == 2 || r.kind == 5) then
    b1.raise 54 (BitVec.ofNat 8 r.kind)
      (payS (r.noz + r.flags * 2 ^ 8 + r.odo % 2 ^ 48 * 2 ^ 16 + r.info * 2 ^ 64 + seq.toNat * 2 ^ 96))
      at_
  else b1

/-- Byte 11 of a record (R192). -/
def Block.recordFlags (b : Block) (p : Nat) (late counter ovr assumed stuck : Bool) : Nat :=
  (if p = 1 then 1 else 0) + b.eng.pose.grade * 2 + (if late then 8 else 0) + (if counter then 16 else 0)
    + (if ovr then 32 else 0) + (if assumed then 64 else 0) + (if stuck then 128 else 0)

/-- A record of nozzle `n` at an instant (R192). -/
def Block.nozRecord (b : Block) (n kind flags t info : Nat) : AaRecord :=
  let v := b.viewOf t
  let g := v.ground n t
  { seq := 0, stamp := v.stamp, kind := kind, flags := flags, noz := n,
    odo := v.odoAt (t - v.edge) % 2 ^ 48, e := g.1, n := g.2, info := info, made := 0 }

/-- With the grade NONE a record's positions read 0x8000_0000 (R177). -/
def Block.placed (b : Block) (r : AaRecord) : AaRecord :=
  if b.eng.pose.grade = 0 then { r with e := -2147483648, n := -2147483648 } else r

/-- A confirmed OPEN (R180, R192, R193). -/
def Block.confirmOpen (b : Block) (n : Nat) (f : Flight) (r : ActResult) (at_ : Nat) : Block :=
  let p := b.almProd n
  let first := !(List.range 96).any (fun m => (b.alm m).on && b.almProd m == p)
  let (free, b0) := if b.almMode n = 1 then (f.param, b) else b.draw
  let rate := free % 2 ^ 32
  let v := b.viewOf r.at_
  let g := v.ground n r.at_
  let b1 := if (b.alm n).on then b0.segmentTo n r.at_ g.1 g.2 v.hb
    else b0.modAlmNoz n (fun x => { x with segE := g.1, segN := g.2, segHb := v.hb, segAt := r.at_ })
  let b2 := b1.modAlmNoz n (fun x => { x with on := true, rate := f.param, closeFailed := false })
  let b3 := if first ∧ p < 2 then
      b2.modAlm (fun a => { a with tracks := modNth a.tracks p (fun k => { k with
        odo := b.odoEdge, at_ := b.time.now, running := true }) })
    else b2
  b3.makeRecord p (b.placed (b.nozRecord n 1 (b.recordFlags p f.late f.counter f.ovr r.assumed false)
    r.at_ rate)) at_

/-- A confirmed CLOSE, or the CLOSE that STUCK makes (R180, R192, R193). -/
def Block.confirmClose (b : Block) (n : Nat) (late counter ovr assumed stuck : Bool) (t measured : Nat)
    (at_ : Nat) : Block :=
  if !(b.alm n).on then b
  else
    let p := b.almProd n
    let v := b.viewOf t
    let g := v.ground n t
    let b1 := (b.segmentTo n t g.1 g.2 v.hb).modAlmNoz n (fun x => { x with
      on := false, closeFailed := false })
    b1.makeRecord p (b.placed (b.nozRecord n 2 (b.recordFlags p late counter ovr assumed stuck) t
      ((measured + 5000) / 10000 % 65536))) at_

/-- A confirmed RATE (R180, R192, R193). -/
def Block.confirmRate (b : Block) (n : Nat) (f : Flight) (r : ActResult) (at_ : Nat) : Block :=
  let p := b.almProd n
  if !(b.alm n).on then b
  else
    (b.modAlmNoz n (fun x => { x with rate := f.param })).makeRecord p
      (b.placed (b.nozRecord n 3 (b.recordFlags p f.late f.counter f.ovr r.assumed false) r.at_
        (f.param % 2 ^ 32))) at_

/-- A FAILED entry (R179, R180, R192, R193): the plan counts again from before it. -/
def Block.failEntry (b : Block) (n : Nat) (f : Flight) (kind : Nat) (at_ : Nat) : Block :=
  let p := b.almProd n
  let b1 := (b.modAlmNoz n (fun x => { x with
    base := f.baseBefore, closeFailed := x.closeFailed || f.act == .closes })).count .ALM_CNT 2 15 0
  let rec_ : AaRecord :=
    { seq := 0, stamp := f.stamp, kind := 5, flags := b.recordFlags p f.late f.counter f.ovr false false
      noz := n, odo := f.odo % 2 ^ 48, e := f.e, n := f.n, info := kind, made := 0 }
  (b1.raiseItems 52 1 0 [unitNoz n] at_).makeRecord p (b.placed rec_) at_

/-- The entry in flight that an outcome belongs to: the oldest of its action, or the newest for one reached at
    delivery (R214). -/
def AlmNoz.flightFor (x : AlmNoz) (r : ActResult) : Option Flight :=
  let l := x.flights.filter (fun f => f.act == r.act)
  if r.atOnce then l.getLast? else l.head?

/-- The RATEs in flight that a period start has taken up together, confirmed in the order in which they fired
    (R180). -/
def Block.confirmRates (b : Block) (n : Nat) (r : ActResult) (at_ : Nat) : Block :=
  let mine (f : Flight) : Bool := f.act == .rate && Nat.ble f.at_ r.at_
  ((b.alm n).flights.filter mine).foldl (fun acc f => acc.confirmRate n f r at_)
    (b.modAlmNoz n (fun x => { x with flights := x.flights.filter (fun f => !mine f) }))

/-- One outcome of nozzle `n` taken up at a COMMIT (R180). A motion that belongs to no entry makes no
    record, but for the closing of a nozzle that was ON. -/
def Block.takeOutcome (b : Block) (n : Nat) (r : ActResult) (at_ : Nat) : Block :=
  match (b.alm n).flightFor r with
  | none => if r.act = .closes ∧ r.fail = none then b.confirmClose n false false false r.assumed false r.at_ r.measured at_
            else b
  | some f =>
    let b1 := b.modAlmNoz n (fun x => { x with
      flights := x.flights.filter (fun g =>
        if r.act = .pulse then g.act != .pulse else g.order != f.order || g.act != f.act || r.act == .rate) })
    match r.fail with
    | some k => b1.failEntry n f k at_
    | none =>
      match r.act with
      | .opens => b1.confirmOpen n f r at_
      | .closes => b1.confirmClose n f.late f.counter f.ovr r.assumed false r.at_ r.measured at_
      | .rate => b1.confirmRates n r at_
      | .pulse => b1

/-- The outcomes of a nozzle that this COMMIT takes up, those reached before it finishes, and the CLOSE
    record of a nozzle found STUCK (R180, R193). -/
def Block.takeOutcomes (b : Block) (n : Nat) (at_ : Nat) : Block :=
  let os := (b.noz n).outcomes.filter (fun r => decide (r.at_ < b.now at_))
  let b1 := os.foldl (fun acc r => acc.takeOutcome n r at_) (b.modNoz n (fun x => { x with
    outcomes := x.outcomes.filter (fun r => !decide (r.at_ < b.now at_)) }))
  if (b1.noz n).stuck && (b1.alm n).on then
    let t := ((os.getLast?.map (·.at_)).getD (b.now at_))
    b1.confirmClose n false false false false true t 0 at_
  else b1

/-- The Almanac's part of a COMMIT before publication: outcomes and coverage. -/
def Block.almanacCommit (b : Block) (at_ : Nat) : Block :=
  (((List.range 96).foldl (fun acc n => acc.takeOutcomes n at_) b).segmentsToEdge).dropViews

/-- A nozzle of the product is ON (R193). -/
def Block.anyOn (b : Block) (p : Nat) : Bool :=
  (List.range 96).any (fun n => (b.alm n).on && b.almProd n == p)

/-- TRACK_RECORD_DUE (R193). -/
def execTrackRecordDue (p : Fin 2) (at_ : Nat) : State → Host.Outcome State Fault Refusal :=
  lift (fun b =>
    let k := nth b.eng.alm.tracks p {}
    let far := b.fld .ALM_AA_CFG 0 15 0 * 100 ≤ b.odoEdge - k.odo
    let long := b.fld .ALM_AA_CFG 0 23 16 * 10000000 ≤ b.time.now - k.at_
    if b.anyOn p ∧ (far ∨ long) then
      let v := b.eng.alm.view
      let hdg := narrow 16 (v.hb / 4294967296)
      let yaw := narrow 16 (divRound v.yaw 100)
      let r : AaRecord :=
        { seq := 0, stamp := v.stamp, kind := 4, flags := b.recordFlags p false false false false false
          noz := 0xFF, odo := v.odoAt 0 % 2 ^ 48, e := divRound v.e mmUnit, n := divRound v.n mmUnit
          info := hdg + yaw * 65536, made := 0 }
      (b.segmentsToEdge.modAlm (fun a => { a with tracks := modNth a.tracks p (fun k => { k with
        odo := b.odoEdge, at_ := b.time.now }) })).makeRecord p (b.placed r) at_
    else b)

/-- The 32 bytes of a record (R192). -/
def AaRecord.bytes (r : AaRecord) : Bytes :=
  leBytes 4 r.seq.toNat ++ leBytes 6 r.stamp.toNat ++ leBytes 1 r.kind ++ leBytes 1 r.flags
    ++ leBytes 1 r.noz ++ leBytes 1 0 ++ leBytes 6 r.odo ++ leBytes 4 (narrow 32 r.e)
    ++ leBytes 4 (narrow 32 r.n) ++ leBytes 4 r.info

/-- AS_APPLIED_SEND (R195): 43 records wait, or the oldest has waited 10 ms. -/
def execAsAppliedSend (at_ : Nat) : State → Host.Outcome State Fault Refusal :=
  lift (fun b =>
    let a := b.eng.alm
    let unsent := lastN a.waiting a.ring
    match unsent with
    | [] => b
    | r :: _ =>
      if b.isOpen .main ∧ (43 ≤ unsent.length ∨ r.made + 10000000 ≤ b.now at_) then
        let recs := unsent.take 43
        let payload := leBytes 4 r.seq.toNat ++ leBytes 1 recs.length ++ leBytes 1 0
          ++ leBytes 2 a.epoch.toNat ++ leBytes 6 b.time.stamp.toNat ++ leBytes 2 0
          ++ (recs.map AaRecord.bytes).flatten
        (b.sendOwn .main 0x0084 2 payload at_).modAlm (fun a => { a with
          waiting := a.waiting - recs.length })
      else b)

/-! ### Overrides and targets (R190, R191) -/

/-- The row of SECTION_COMMAND (R357). -/
def sectionRow : OpRow := opRow 0x0030 28

/-- SECTION_COMMAND at its COMMIT, for the named nozzles that are ACTIVE (R190). -/
def Block.sectionApply (b : Block) (command timing : Byte) (mask : BitVec 96) (odo : BitVec 48) : Block :=
  (maskNozzles mask).foldl (fun acc n =>
    if (acc.unit (unitNoz n)).state = .active then
      acc.modAlmNoz n (fun x => { x with
        ovrOld := x.ovrAtOdo b.odoEdge, ovr := command.toNat, ovrDue := true
        staged := x.staged.map (fun s => { s with ovrDone := false })
        ovrAt := if timing = 1 then some (b.odoNear odo.toNat).toNat else none })
    else acc) b

/-- Dispatch of SECTION_COMMAND (R4, R190): a present nozzle not in MODE MAP is answered RANGE before any unit state
    is looked at; an ABSENT one, which has no mode, is answered FENCED (log entry 75). -/
def dispatchSection (h : Hdr) (command timing : Byte) (mask : BitVec 96) (i : Instr) : Dispatch :=
  fun k seq arrived b =>
    let ns := maskNozzles mask
    if 2 < command.toNat || 1 < timing.toNat || ns.any (fun n => b.present (unitNoz n) && b.almMode n != 1) then
      b.replyNow (some k) h sectionRow.code .range
    else if ns.any (fun n => (b.unit (unitNoz n)).state != .active) then
      b.postsWith seq arrived k h sectionRow.code i .fenced (b.nozStates mask)
    else b.posts seq arrived k h sectionRow.code i

/-- SECTION_COMMAND (R190). -/
def execSectionCommand (h : Hdr) (command timing : Byte) (mask : BitVec 96) (odo : BitVec 48) :
    State → Host.Outcome State Fault Refusal :=
  let i : Instr := .sectionCommand h command timing mask odo
  lift (fun b => b.request i h sectionRow (dispatchSection h command timing mask i))

/-- The row of RATE_TARGET (R357). -/
def rateTargetRow : OpRow := opRow 0x0031 12

/-- RATE_TARGET at its COMMIT (R191). -/
def Block.rateTargetApply (b : Block) (product flags : Byte) (scale : BitVec 16) (target : Word) : Block :=
  let b1 := if flags.getLsbD 0 then b.setWord .ALM_PROD_TARGET product.toNat 0 target else b
  if flags.getLsbD 1 then b1.setFld .ALM_PROD_SCALE product.toNat 10 0 scale.toNat else b1

/-- Dispatch of RATE_TARGET (R191). -/
def dispatchRateTarget (h : Hdr) (product flags : Byte) (scale : BitVec 16) (i : Instr) : Dispatch :=
  fun k seq arrived b =>
    if 1 < product.toNat || (flags.getLsbD 1 && (scale.toNat < 1 || 2000 < scale.toNat)) then
      b.replyNow (some k) h rateTargetRow.code .range
    else b.posts seq arrived k h rateTargetRow.code i

/-- RATE_TARGET (R191). -/
def execRateTarget (h : Hdr) (product flags : Byte) (scale : BitVec 16) (target : Word) :
    State → Host.Outcome State Fault Refusal :=
  let i : Instr := .rateTarget h product flags scale target
  lift (fun b => b.request i h rateTargetRow (dispatchRateTarget h product flags scale i))

/-- At the COMMIT that applies FIELD_ORIGIN every parked evaluation starts over (R144). -/
def Block.unpark (b : Block) : Block :=
  b.modAlm (fun a => { a with noz := a.noz.map (fun x =>
    if x.parked then
      { x with parked := false, blind := false, stations := [], partial_ := [], front := b.odoEdge }
    else x) })

/-- A session's loss or reset sets every override to AUTO (R190). -/
def Block.almSessionLoss (b : Block) : Block :=
  b.modAlm (fun a => { a with noz := a.noz.map (fun x => { x with ovr := 0, ovrOld := 0, ovrAt := none, ovrDue := false }) })

/-- The Almanac and the compare unit after a warm or cold reset (R194, R198, R199). -/
def Almanac.afterReset (a : Almanac) : Almanac := { epoch := a.epoch + 1 }

end Sys2Proof.Machine
end

