-- ==== Sys2Proof/Machine/Motor.lean ====
section
/-! DEFINITION. The PWM units (08): carriers, compares, dead time, the minimum-pulse check, commutation,
    shadows and transfers, protection, trips and the run and stop sequencer. Times inside a carrier
    period are in fine steps of 156.25 ps. -/

namespace Sys2Proof.Machine

open Sys2Proof (Word Hdr Instr)

/-- The block with the PWM units replaced by their image. -/
def Block.modMots (b : Block) (f : Motors → Motors) : Block :=
  { b with eng := { b.eng with mot := f b.eng.mot } }

/-- PWM unit `u`. -/
def Block.mot (b : Block) (u : Nat) : Motor := nth b.eng.mot.units u {}

/-- The block with PWM unit `u` replaced by its image. -/
def Block.modMot (b : Block) (u : Nat) (f : Motor → Motor) : Block :=
  b.modMots (fun m => { m with units := modNth m.units u f })

/-- An instant in ns as fine steps (R242). -/
def fineOf (ns : Nat) : Nat := ns * 32 / 5

/-- Execution is halted: every unit is frozen (R267). -/
def Block.frozen (b : Block) : Bool := b.vig.dbg == .halted

/-! ### Settings as taken up at the last period start (R269) -/

def Motor.word (m : Motor) (i : Nat) : Word := nth m.cfg i 0
def Motor.mode (m : Motor) : Nat := bits (m.word 0) 1 0
def Motor.sixStep (m : Motor) : Bool := m.mode == 0
def Motor.src (m : Motor) : Nat := bits (m.word 0) 3 2
def Motor.centred (m : Motor) : Bool := (m.word 0).getLsbD 4
def Motor.syncRect (m : Motor) : Bool := (m.word 0).getLsbD 5
def Motor.legacy (m : Motor) : Bool := (m.word 0).getLsbD 6
def Motor.stretch (m : Motor) : Bool := (m.word 0).getLsbD 24
def Motor.brakes (m : Motor) : Bool := (m.word 0).getLsbD 25
def Motor.dtR (m : Motor) : Nat := bits (m.word 1) 14 0
def Motor.dtF (m : Motor) : Nat := bits (m.word 1) 30 16
def Motor.minPulse (m : Motor) : Nat := bits (m.word 2) 8 0 * 32
def Motor.bootEn (m : Motor) : Bool := (m.word 3).getLsbD 31
def Motor.bootN (m : Motor) : Nat := bits (m.word 3) 15 8
def Motor.bootW (m : Motor) : Nat := bits (m.word 3) 6 0 * 128
def Motor.blank (m : Motor) : Nat := bits (m.word 4) 8 0 * 64
def Motor.tripLow (m : Motor) : Bool := (m.word 4).getLsbD 12
def Motor.ilim (m : Motor) : Nat := bits (m.word 4) 27 16 * 10
def Motor.cbcLim (m : Motor) : Nat := bits (m.word 4) 31 28
def Motor.brakeNs (m : Motor) : Nat := bits (m.word 5) 11 0 * 1000000
def Motor.stopRamp (m : Motor) : Nat := bits (m.word 5) 31 16
def Motor.hallAxis (m : Motor) : Nat := bits (m.word 6) 4 0
def Motor.hallOfs (m : Motor) : Nat := bits (m.word 6) 10 8
def Motor.invDir (m : Motor) : Bool := (m.word 6).getLsbD 12
def Motor.invPol (m : Motor) : Nat := bits (m.word 6) 17 16
def Motor.invNs (m : Motor) : Nat := bits (m.word 6) 31 24 * 100000

/-- The unit's settings as the registers hold them. -/
def Block.motorWords (b : Block) (u : Nat) : List Word :=
  [b.word .MDRV_CFG u, b.word .MDRV_DT u, b.word .MDRV_MINP u, b.word .MDRV_BOOT u, b.word .MDRV_PROT u,
   b.word .MDRV_STOP u, b.word .MDRV_COMM u]

/-! ### The carrier and the reference (R242 to R244) -/

/-- The length of carrier period `m` of a Tick (R242). -/
def carrierPeriod (k m : Nat) : Nat :=
  match k with
  | 1 => 640000
  | 2 => 320000
  | 3 => if m % 3 = 2 then 213334 else 213333
  | _ => 160000

/-- The start of carrier period `m` of a Tick, after PHASE (R242). -/
def carrierStart (k m : Nat) : Nat := ((List.range m).map (carrierPeriod k)).sum

/-- A duty magnitude of 1, in the duty unit. -/
def fullDuty : Nat := 100000000

/-- The compares of a duty magnitude `d` (R244). -/
def dutyCompares (centred : Bool) (d p : Nat) : Nat × Nat :=
  if centred then
    ((2 * (fullDuty - d) * p + 2 * fullDuty) / (4 * fullDuty), (2 * (fullDuty + d) * p + 2 * fullDuty) / (4 * fullDuty))
  else (0, (2 * d * p + fullDuty) / (2 * fullDuty))

/-- The edges that two compares make in a period of length `p`, in order: a compare not below `p` is never
    reached, and RST wins over SET (R243). -/
def compareEdges (set rst p : Nat) : List (Nat × Bool) :=
  let up : List (Nat × Bool) := if set < p ∧ set ≠ rst then [(set, true)] else []
  let down : List (Nat × Bool) := if rst < p then [(rst, false)] else []
  if set ≤ rst then up ++ down else down ++ up

/-- The reference, and the instant of its last edge, once the given edges of a period starting at `start` have
    been made. -/
def PwmPhase.after (x : PwmPhase) (start : Nat) (es : List (Nat × Bool)) : Bool × Nat :=
  es.foldl (fun acc e => (e.2, if e.2 = acc.1 then acc.2 else start + e.1)) (x.level, x.lastEdge)

/-- The reference at an offset of the period. -/
def PwmPhase.at_ (x : PwmPhase) (start t : Nat) : Bool × Nat :=
  x.after start (x.edges.filter (fun e => Nat.ble e.1 t))

/-- An edge that the minimum-pulse check looks at: its offset, the level it makes, and whether a compare of the
    present period makes it rather than one of the next. -/
structure RefEdge where
  off : Nat
  high : Bool
  mine : Bool
  deriving DecidableEq, Repr

/-- The edges that change the reference, from a level on. -/
def toggles : Bool → List RefEdge → List RefEdge
  | _, [] => []
  | l, e :: rest => if e.high = l then toggles l rest else e :: toggles e.high rest

/-- The shortest interval of the reference at a level (R247). -/
def Motor.shortest (m : Motor) (high : Bool) : Nat := m.minPulse + if high then m.dtR else m.dtF

/-- The closing edge of an interval that began at `since`, moved later where the interval is too short. -/
def Motor.stretched (m : Motor) (since : Int) (e : RefEdge) : RefEdge :=
  { e with off := (max (e.off : Int) (since + m.shortest (!e.high))).toNat }

/-- The minimum-pulse check of the intervals ahead (R247), the present one begun at the offset `since`: the
    edges left, and how many edges of this period it removed with their interval or moved. An interval already
    begun cannot be removed, and closes late under either policy (log entry 81). -/
def Motor.checkPulses (m : Motor) (since : Int) : List RefEdge → List RefEdge × Nat
  | [] => ([], 0)
  | [e] =>
    let e1 := m.stretched since e
    ([e1], if e.mine && e1.off != e.off then 1 else 0)
  | e :: c :: rest =>
    let e1 := m.stretched since e
    let moved := if e.mine && e1.off != e.off then 1 else 0
    if !m.stretch && Nat.blt c.off (e1.off + m.shortest e.high) then
      let r := m.checkPulses since rest
      (r.1, r.2 + moved + if e.mine then 1 else 0)
    else
      let r := m.checkPulses e1.off (c :: rest)
      (e1 :: r.1, r.2 + moved)

/-- An edge put into its place by offset, behind those at the same one. -/
def insertEdge (e : RefEdge) : List RefEdge → List RefEdge
  | [] => [e]
  | x :: rest => if e.off < x.off then e :: x :: rest else x :: insertEdge e rest

/-- A phase with compares in use from an offset of the period on: the edges before it stand, an edge already
    behind the counter is not made in this period (R243, R255), and the intervals ahead are checked against
    those that the same compares make in the next period (R247). `carried` are edges that the check moved
    beyond the end of the last period. -/
def PwmPhase.take (x : PwmPhase) (m : Motor) (start p t set rst : Nat) (carried : List (Nat × Bool)) :
    PwmPhase × Nat :=
  let made := x.edges.filter (fun e => Nat.blt e.1 t)
  let now := x.after start made
  let edge (mine : Bool) (shift : Nat) (e : Nat × Bool) : RefEdge := { off := e.1 + shift, high := e.2, mine := mine }
  let own := ((compareEdges set rst p).filter (fun e => Nat.ble t e.1)).map (edge true 0)
  let next := (compareEdges set rst p).map (edge false p)
  let r := m.checkPulses ((now.2 : Int) - start)
    (toggles now.1 ((carried.map (edge true 0)).foldl (fun acc e => insertEdge e acc) (own ++ next)))
  ({ x with cmpSet := set, cmpRst := rst
            edges := made ++ (r.1.filter (·.mine)).map (fun e => (e.off, e.high)) }, r.2)

/-! ### Commutation (R250 to R252) -/

/-- What a phase does in a sector (R250): PWM, low side on, or floating. -/
inductive Role where
  | pwm
  | low
  | float
  deriving DecidableEq, Repr

/-- The role of phase `ph` in a sector (R250). -/
def roleIn (sector ph : Nat) : Role :=
  let t : List (Nat × Nat) := [(0, 1), (0, 2), (1, 2), (1, 0), (2, 0), (2, 1)]
  let (p, l) := nth t sector (3, 3)
  if ph = p then .pwm else if ph = l then .low else .float

/-- The role of a phase: every phase switches in COMPLEMENTARY mode (R249). -/
def Motor.role (m : Motor) (sector : Option Nat) (ph : Nat) : Role :=
  if m.sixStep then
    match sector with
    | some s => roleIn s ph
    | none => .float
  else .pwm

/-- The hall code of a unit's axis, if the axis is valid and the code stands for a sector. -/
def Block.motorHall (b : Block) (m : Motor) : Option Nat :=
  if (b.axisSeen m.hallAxis).valid then hallPlace (b.hallCode b.eng.fb.levels m.hallAxis) else none

/-- The duty in force is negative: compares carry no sign (R244, R250). -/
def Motor.backwards (m : Motor) : Bool := (m.src != 0 || m.seq == .rampDown) && decide (m.duty < 0)

/-- The sector driven for a place in the hall sequence (R250). -/
def Motor.sectorFor (m : Motor) (place : Nat) : Nat :=
  let s := (place + m.hallOfs) % 6
  if m.backwards != m.invDir then (s + 3) % 6 else s

/-! ### Output levels (R246, R248, R251, R252, R258, R262, R266) -/

/-- A switch that the limit opened at an instant has not met an edge of its reference since (R258). -/
def limitHolds (l : Option Nat) (edge t : Nat) : Bool :=
  match l with
  | some a => Nat.ble edge a && Nat.ble a t
  | none => false

/-- Both switches of phase `i` at an instant `t` (fine steps) while the phases drive with the masking of a
    sector (R246, R248). -/
def Motor.phaseOut (m : Motor) (sector : Option Nat) (i t : Nat) : Bool × Bool :=
  let x := nth m.ph i {}
  let off := t - m.start
  let (lvl, edge) := x.at_ m.start off
  match m.role sector i with
  | .float => (false, false)
  | .low => (false, !limitHolds x.limLow edge t)
  | .pwm =>
    if x.refresh && Nat.blt off (m.dtF + m.bootW + m.dtR) then
      (false, Nat.ble m.dtF off && Nat.blt off (m.dtF + m.bootW))
    else
      (lvl && Nat.ble m.dtR (t - edge) && !limitHolds x.limHigh edge t,
       !lvl && Nat.ble m.dtF (t - edge) && (m.syncRect || !m.sixStep) && !limitHolds x.limLow edge t)

/-- All three high sides (bits 0, 2, 4) and low sides (bits 1, 3, 5). -/
def highsOn : BitVec 6 := 0b010101
def lowsOn : BitVec 6 := 0b101010

/-- The levels that the phases ask for. -/
def Motor.phasesOut (m : Motor) (sector : Option Nat) (t : Nat) : BitVec 6 :=
  let bit (p : Bool) (n : Nat) : BitVec 6 := if p then BitVec.ofNat 6 (2 ^ n) else 0
  (List.range 3).foldl (fun acc i =>
    let o := m.phaseOut sector i t
    acc ||| bit o.1 (2 * i) ||| bit o.2 (2 * i + 1)) 0

/-- The low sides in a brake, but for one that the limit has opened since `from_` (R262, R266). -/
def Motor.brakeOut (m : Motor) (from_ t : Nat) : BitVec 6 :=
  (List.range 3).foldl (fun acc i =>
    if limitHolds (nth m.ph i {}).limLow from_ t then acc &&& ~~~BitVec.ofNat 6 (2 ^ (2 * i + 1)) else acc) lowsOn

/-- The levels that a drive asks for; the reset brake opens a limited low side for the rest of its 50 us
    frame. -/
def Motor.driven (m : Motor) (d : MotDrive) (t : Nat) : BitVec 6 :=
  match d with
  | .off => 0
  | .brake => m.brakeOut m.start t
  | .resetBrake => m.brakeOut (t / 320000 * 320000) t
  | .phases s => m.phasesOut s t

/-- The levels at an instant: a switch that was off when the drive changed comes on after its dead time, counted
    from the change (R247, R251). While the edges are coarse each falls on the 5 ns clock step nearest to it
    (R245). -/
def Motor.outAt (m : Motor) (coarse : Bool) (t : Nat) : BitVec 6 :=
  let t := if coarse then t / 32 * 32 + 15 else t
  match m.steps.find? (fun d => Nat.ble d.at_ t) with
  | none => 0
  | some d =>
    let high : BitVec 6 := if d.at_ + m.dtR ≤ t then highsOn else 0
    let low : BitVec 6 := if d.at_ + m.dtF ≤ t then lowsOn else 0
    m.driven d.drive t &&& (d.before ||| high ||| low)

/-- The levels of a unit at an instant in fine steps: held through a halt, and until the first period start
    after it, but for switches that a protection has opened (R267); nothing where the unit is ABSENT (R5). -/
def Block.motorOutAt (b : Block) (u t : Nat) : BitVec 6 :=
  let m := b.mot u
  if !b.present (unitMot u) then 0
  else if (b.frozen || m.resuming) && b.vig.brakeSince.isNone then m.out &&& ~~~m.opened
  else m.outAt b.eng.mot.coarse t

/-- The output levels `at_` ns after the Tick edge. -/
def Block.motorOut (b : Block) (u : Nat) (at_ : Nat) : BitVec 6 := b.motorOutAt u (fineOf (b.now at_))

/-- What drives the outputs of a unit now (R252, R258, R260, R262, R266); without VPWR nothing does but the brake of a
    reset (R489, log entry 81). -/
def Block.motorDrive (b : Block) (u : Nat) : MotDrive :=
  let m := b.mot u
  let tripped : MotDrive := if m.tripBrake.isSome then .brake else .off
  if b.vig.brakeSince.isSome then (if m.brakeOff then tripped else .resetBrake)
  else if m.undervolt || !b.stagesOn then .off
  else
    match m.seq with
    | .quiet => .off
    | .brake => .brake
    | .fault => tripped
    | _ =>
      if !m.sixStep then .phases none
      else
        match m.invalidSince.isSome, m.invPol with
        | true, 1 => .off
        | true, 2 => .brake
        | _, _ => .phases m.sector

/-- The instants at which outputs of a unit can change in the present period or at a change of what drives them
    (R246, R248, R251, R258). -/
def Motor.edgeTimes (m : Motor) : List Nat :=
  let ph := m.ph.map (fun x =>
    let refs := x.lastEdge :: x.edges.map (fun e => m.start + e.1)
    let boot := if x.refresh then
        [m.start, m.start + m.dtF, m.start + m.dtF + m.bootW, m.start + m.dtF + m.bootW + m.dtR]
      else []
    refs ++ refs.map (· + m.dtR) ++ refs.map (· + m.dtF) ++ boot ++ x.limHigh.toList ++ x.limLow.toList)
  (m.steps.map (fun d => [d.at_, d.at_ + m.dtR, d.at_ + m.dtF])).flatten ++ ph.flatten

/-- The last instant, up to `t`, at which any of the six outputs had an edge (R260). -/
def Motor.lastOutEdge (m : Motor) (coarse : Bool) (t : Nat) : Option Nat :=
  let real := (m.edgeTimes.map (fun e => if coarse then (e + 16) / 32 * 32 else e)).filter (fun e =>
    Nat.ble e t && Nat.blt 0 e && m.outAt coarse e != m.outAt coarse (e - 1))
  (m.edgeLast.toList ++ real).max?

/-- The outputs of a unit follow what drives it now, from the instant `t` on. -/
def Block.motorSettle (b : Block) (u t : Nat) : Block :=
  let d := b.motorDrive u
  let out := b.motorOutAt u t
  let coarse := b.eng.mot.coarse
  b.modMot u (fun m =>
    match m.steps with
    | [] => { m with steps := [{ at_ := t, drive := d, before := out }] }
    | s :: rest =>
      if s.drive = d then m
      else if s.at_ = t then { m with steps := { s with drive := d } :: rest }
      else { m with steps := ({ at_ := t, drive := d, before := out } :: m.steps).take 3
                    edgeLast := m.lastOutEdge coarse t })

/-- A change to a unit, and what drives its outputs after it, at an instant in ns after the Tick edge. -/
def Block.motorSet (b : Block) (u at_ : Nat) (f : Motor → Motor) : Block :=
  (b.modMot u f).motorSettle u (fineOf (b.now at_))

/-- The delay of a masking change behind the sample that accepted its hall edge (R251). -/
def maskLag : Nat := fineOf 100

/-- The unit follows its halls (R250 to R252) from an instant in fine steps; a masking change comes `lag`
    later. -/
def Block.followHall (b : Block) (u t lag : Nat) : Block :=
  let m := b.mot u
  if !m.sixStep || b.frozen || !b.present (unitMot u) then b
  else
    match b.motorHall m with
    | some p =>
      let s := m.sectorFor p
      let b1 := b.modMot u (fun m => { m with invalidSince := none, sector := some s })
      (if m.sector = some s then b1 else b1.countWrap .MDRV_COMM_CNT u 31 0).motorSettle u (t + lag)
    | none =>
      (if m.invalidSince.isSome then b
       else (b.modMot u (fun m => { m with invalidSince := some (t * 5 / 32) })).count .MDRV_CNT1 u 15 8
      ).motorSettle u t

/-! ### Duties and transfers (R253 to R257) -/

/-- A duty as the unit's mode takes it: a negative one is 0 in COMPLEMENTARY mode (R244). -/
def Motor.magnitude (m : Motor) (d : Int) : Nat := if m.sixStep then min fullDuty d.natAbs else min fullDuty d.toNat

/-- The high side of a phase is one that the unit may drive. -/
def Motor.drivesHigh (m : Motor) (i : Nat) : Bool :=
  (m.seq == .run || m.seq == .rampDown) && m.role m.sector i == .pwm

/-- New compares for the phases at an offset of the present period, with the minimum-pulse count of the
    phases that switch (R247). -/
def Block.takeCompares (b : Block) (u t : Nat) (c : List (Nat × Nat)) (carried : List (List (Nat × Bool))) :
    Block :=
  let m := b.mot u
  let r := (List.range 3).map (fun i =>
    let (s, e) := nth c i (0, 0)
    (nth m.ph i {}).take m m.start m.period t s e (nth carried i []))
  let n := (((List.range 3).filter m.drivesHigh).map (fun i => (nth r i ({}, 0)).2)).sum
  let b1 := b.modMot u (fun m => { m with ph := r.map (·.1) })
  if n = 0 then b1
  else (b1.count .MDRV_CNT0 u 31 16 n).raiseLimited 99 1 (payB 0 96 [unitMot u])
    ((m.start + t) * 5 / 32 - b.time.now)

/-- The compares of a duty in force (R244). -/
def Motor.dutyCmp (m : Motor) (d : Int) : List (Nat × Nat) :=
  List.replicate 3 (dutyCompares m.centred (m.magnitude d) m.period)

/-- A duty taken up at an offset of the present period (R244, R253, R255). -/
def Block.takeDuty (b : Block) (u : Nat) (d : Int) (t : Nat) : Block :=
  (b.modMot u (fun m => { m with duty := d })).takeCompares u t ((b.mot u).dutyCmp d) []

/-- The 5 ns clock step at or after an instant in fine steps (R255). -/
def nextClock (t : Nat) : Nat := (t + 31) / 32 * 32

/-- A loop duty whose instant lies in the present period transfers there; one that lies beyond it waits for that
    period. It acts in RUN alone (R255, R263). -/
def Block.loopDuty (b : Block) (u : Nat) (d : Int) (t : Nat) : Block :=
  let m := b.mot u
  if b.frozen then b.modMot u (fun m => { m with loopDuty := d, loopDue := none })
  else if m.start + m.period ≤ t then b.modMot u (fun m => { m with loopDue := some (d, t) })
  else
    let b1 := b.modMot u (fun m => { m with loopDuty := d, loopDue := none })
    if m.seq = .run then (b1.takeDuty u d (t - m.start)).followHall u t 0 else b1

/-- A duty written by a loop slot: the units that take it transfer it at the next clock step (R255). -/
def Block.motorLoop (b : Block) (slot : Nat) (d : Int) (at_ : Nat) : Block :=
  (List.range 16).foldl (fun acc u =>
    if (acc.mot u).src = 2 ∧ acc.fld .MDRV_CFG u 20 16 = slot then
      acc.loopDuty u d (nextClock (fineOf (acc.now at_)))
    else acc) b

/-- A shadow write: stored, and pending (R254). Bit 0 is the carrier, bits 1 to 6 SET A, RST A, SET B and
    so on. -/
def Block.shadowWrite (b : Block) (u bit : Nat) : Block :=
  b.modMot u (fun m => { m with
    pending := m.pending ||| BitVec.ofNat 7 (2 ^ bit)
    armed := if b.flag .MDRV_CFG u 6 then m.armed ||| BitVec.ofNat 7 (2 ^ bit) else m.armed
    age := if m.pending = 0 then 0 else m.age })

/-- An arm of the groups in `groups`: it has no effect on a unit in legacy mode (R254, R257). -/
def Block.armGroups (b : Block) (groups : Word) : Block :=
  (List.range 16).foldl (fun acc u =>
    if groups.getLsbD (acc.fld .MDRV_CFG u 10 8) && !acc.flag .MDRV_CFG u 6 then
      acc.modMot u (fun m => { m with armed := m.armed ||| m.pending })
    else acc) b

/-- Whether a transfer bit is set. -/
def Motor.moves (m : Motor) (bit : Nat) : Bool := m.armed.getLsbD bit

/-- The compares of SRC COMPARE after the transfer of armed shadows (R253, R254). -/
def Block.transferred (b : Block) (u : Nat) : List (Nat × Nat) :=
  let m := b.mot u
  (List.range 3).map (fun i =>
    let x := nth m.ph i {}
    (if m.moves (1 + 2 * i) then bits (b.word .MDRV_SET u i) 19 0 else x.shSet,
     if m.moves (2 + 2 * i) then bits (b.word .MDRV_RST u i) 19 0 else x.shRst))

/-- The duty of a unit that ramps down, at a period start (R262). -/
def Motor.ramped (m : Motor) (now : Nat) : Int :=
  let fall : Nat := m.stopRamp * 100000 * (now - m.since) / 1000000
  let left := m.rampFrom.natAbs - fall
  if m.rampFrom < 0 then -(left : Int) else left

/-- The high side of a phase has been driven through the whole period: no change of what drives it, and no
    limit, has made a gap (R248, R258). -/
def Motor.heldHigh (m : Motor) (i : Nat) : Bool :=
  let x := nth m.ph i {}
  (match m.steps with
   | { drive := .phases _, .. } :: _ => m.drivesHigh i
   | _ => false)
    && m.steps.all (fun d => Nat.ble (d.at_ + m.dtR) m.start || d.before.getLsbD (2 * i))
    && (match x.limHigh with
        | some a => Nat.blt a m.start
        | none => true)

/-- The end of one carrier period: the reference carried over, and the periods of a high side without a gap
    counted, one that a refresh began among them (R243, R248). -/
def PwmPhase.roll (x : PwmPhase) (m : Motor) (held : Bool) : PwmPhase :=
  let e := x.after m.start (x.edges.filter (fun e => Nat.blt e.1 m.period))
  let whole := held && e.1 && Nat.ble (e.2 + m.dtR) m.start
  { x with level := e.1, lastEdge := e.2, edges := [], refresh := false
           highRun := if !whole then 0 else if x.refresh then 1 else x.highRun + 1 }

/-- The edges that the minimum-pulse check has moved beyond the end of the period. -/
def PwmPhase.carried (x : PwmPhase) (m : Motor) : List (Nat × Bool) :=
  (x.edges.filter (fun e => Nat.ble m.period e.1)).map (fun e => (e.1 - m.period, e.2))

/-- The period that begins at a period start: the references carried over, a carrier transfer, the settings as
    they stand, and the limited period counted (R242, R243, R254, R258, R269). -/
def Block.rollPeriod (b : Block) (u j : Nat) : Block :=
  let m0 := b.mot u
  let carrier := m0.moves 0
  let w := b.word .MDRV_CARRIER u
  let k := if carrier then bits w 2 0 else m0.k
  let start := fineOf b.time.now + m0.phase + carrierStart m0.k j
  let edge := m0.lastOutEdge b.eng.mot.coarse start
  b.modMot u (fun m => { m with
    ph := m0.ph.mapIdx (fun i x => x.roll m0 (m0.heldHigh i)), k := k
    phase := if carrier then bits w 31 12 else m0.phase
    start := start, period := carrierPeriod k j, cfg := b.motorWords u, edgeLast := edge
    cbcRun := if m.cbcNow then m.cbcRun else 0, cbcNow := false })

/-- The armed shadows transferred at a period start (R253, R254, R256). -/
def Block.moveShadows (b : Block) (u : Nat) : Block :=
  let cmp := b.transferred u
  b.modMot u (fun m =>
    let left := m.pending &&& ~~~m.armed
    { m with
      ph := m.ph.mapIdx (fun i x => { x with shSet := (nth cmp i (0, 0)).1, shRst := (nth cmp i (0, 0)).2 })
      pending := left, armed := 0, age := if left = 0 then 0 else min 255 (m.age + 1)
      stale := m.stale && m.armed == 0 })

/-- The loop duty at a period start, and one whose instant lies in the period (R255). -/
def Block.loopAtStart (b : Block) (u : Nat) (carried : List (List (Nat × Bool))) : Block :=
  let take (b : Block) (d : Int) : Block :=
    (b.modMot u (fun m => { m with duty := d })).takeCompares u 0 ((b.mot u).dutyCmp d) carried
  match (b.mot u).loopDue with
  | none => take b (b.mot u).loopDuty
  | some (d, t) =>
    if t ≤ (b.mot u).start then take (b.modMot u (fun m => { m with loopDuty := d, loopDue := none })) d
    else (take b (b.mot u).loopDuty).loopDuty u d t

/-- The compares of a period as it begins (R244, R253, R262). -/
def Block.startCompares (b : Block) (u : Nat) (carried : List (List (Nat × Bool))) : Block :=
  let m := b.mot u
  let ofDuty (d : Int) : Block :=
    (b.modMot u (fun m => { m with duty := d })).takeCompares u 0 (m.dutyCmp d) carried
  let same := m.ph.map (fun x => (x.cmpSet, x.cmpRst))
  match m.seq, m.src with
  | .rampDown, _ => ofDuty (m.ramped (m.start * 5 / 32))
  | _, 0 => b.takeCompares u 0 (m.ph.map (fun x => (x.shSet, x.shRst))) carried
  | .run, 1 => ofDuty m.asked
  | .run, 2 => b.loopAtStart u carried
  | _, _ => b.takeCompares u 0 same carried

/-- The refreshes that begin with a period (R248). -/
def Motor.refreshed (m : Motor) : Motor :=
  { m with ph := m.ph.map (fun (x : PwmPhase) =>
      if m.bootEn && Nat.ble m.bootN x.highRun && x.level then { x with refresh := true, highRun := 0 } else x) }

/-- A unit that a halt has left takes up its outputs at its period start (R267). -/
def Block.motorResume (b : Block) (u : Nat) : Block :=
  let m := b.mot u
  if !m.resuming then b
  else b.modMot u (fun m => { m with
    resuming := false, opened := 0
    steps := [{ at_ := m.start, drive := b.motorDrive u, before := m.out &&& ~~~m.opened }] })

/-- CARRIER_PERIOD_START (R242, R244, R247, R248, R253 to R257, R269): period `j` of this Tick. -/
def Block.periodStart (b : Block) (u j : Nat) : Block :=
  let m0 := b.mot u
  let b1 := ((b.rollPeriod u j).moveShadows u).startCompares u (m0.ph.map (fun x => x.carried m0))
  let b2 := (b1.modMot u Motor.refreshed).motorResume u
  b2.followHall u (b2.mot u).start 0

/-- The refreshes that begin at a period start, counted (R248). -/
def Block.countRefreshes (b : Block) (u : Nat) : Block :=
  let n := ((b.mot u).ph.filter (fun x => x.refresh)).length
  if n = 0 then b else b.count .MDRV_CNT0 u 15 0 n

/-- CARRIER_PERIOD_START (R242, R254). A frozen unit makes no edge; its limited periods still count (R267). -/
def execCarrierPeriodStart (u : Fin 16) (m : Fin 4) : State → Host.Outcome State Fault Refusal :=
  lift (fun b =>
    if !b.present (unitMot u) || decide ((b.mot u).k ≤ m.val) then b
    else if b.frozen then
      b.modMot u (fun m => { m with cbcRun := if m.cbcNow then m.cbcRun else 0, cbcNow := false })
    else (b.periodStart u m).countRefreshes u)

/-- STALE_SHADOW (R256): 16 periods without an arm; once for each pending episode. -/
def execStaleShadow (u : Fin 16) (at_ : Nat) : State → Host.Outcome State Fault Refusal :=
  lift (fun b =>
    let m := b.mot u
    if m.pending ≠ 0 ∧ 16 ≤ m.age ∧ !m.stale then
      ((b.modMot u (fun m => { m with stale := true })).count .MDRV_CNT1 u 7 0).raiseItems 100 1 0
        [unitMot u] at_
    else b)

/-- PWM_CALIBRATION (R245): a tap outside 100 ps to 250 ps makes the edges coarse at once; one in range
    after that gives fine edges at the next Tick edge. -/
def execPwmCalibration (tapPs : Nat) (at_ : Nat) : State → Host.Outcome State Fault Refusal :=
  lift (fun b =>
    let b1 := b.modMots (fun m => { m with tap := tapPs % 65536, calAt := b.now at_ })
    if 100 ≤ tapPs ∧ tapPs ≤ 250 then b1.modMots (fun m => { m with fineDue := m.coarse })
    else
      let b2 := b1.modMots (fun m => { m with coarse := true, fineDue := false })
      if b.eng.mot.coarse then b2 else b2.raise 101 1 payZ at_)

/-! ### Faults and trips (R258 to R261) -/

/-- All six off, or the three low sides on for TRIP_ACT LOW, and the sequencer in FAULT (R260, R261). In FAULT
    already, and in a brake of Vigil's, a protection still turns all six off (R258, R266). -/
def Block.motorToFault (b : Block) (u : Nat) (low : Bool) (at_ : Nat) : Block :=
  let now := b.now at_
  let brakeOff := b.vig.brakeSince.isSome
  if (b.mot u).seq = .fault then
    if low && !brakeOff then b
    else b.motorSet u at_ (fun m => { m with
      brakeOff := m.brakeOff || brakeOff, opened := 63
      tripBrake := if low then some now else none })
  else b.motorSet u at_ (fun m => { m with
    seq := .fault, since := now, queuedStart := false, opened := 63, brakeOff := m.brakeOff || brakeOff
    tripBrake := if low then some now else none })

/-- A latched flag of MDRV_FLT with its event and the FAULTED request (R261). -/
def Block.motorFault (b : Block) (u bit src : Nat) (low : Bool) (at_ : Nat) : Block :=
  (((b.latch .MDRV_FLT u bit).motorToFault u low at_).faultUnit (unitMot u) at_).raiseItems src 1 0
    [unitMot u] at_

/-- HALL_INVALID_TIMEOUT (R252): in a unit that runs (log entry 81). -/
def execHallInvalidTimeout (u : Fin 16) (at_ : Nat) : State → Host.Outcome State Fault Refusal :=
  lift (fun b =>
    let m := b.mot u
    match m.invalidSince with
    | some t =>
      if m.sixStep ∧ b.runs (unitMot u) ∧ max t m.since + m.invNs ≤ b.now at_ ∧ m.seq ≠ .fault then
        b.motorFault u 8 97 false at_
      else b
    | none => b)

/-- An instant lies in the unit's blanking window (R260). -/
def Block.blanked (b : Block) (u : Nat) (at_ : Nat) : Bool :=
  let m := b.mot u
  let t := fineOf (b.now at_)
  match m.lastOutEdge b.eng.mot.coarse t with
  | some e => Nat.blt t (e + m.blank)
  | none => false

/-- The limit in force in mA (R258, R259). -/
def Motor.limit (m : Motor) : Nat := if m.foldback then min 8000 m.ilim else m.ilim

/-- The limit in force under the bridge cap of the arbiter (R303); 15 A while a reset brakes (R266). -/
def Block.motorLimit (b : Block) (u : Nat) : Nat :=
  if b.vig.brakeSince.isSome then 15000
  else if b.eng.pwr.cap && decide (u < 8) then min (b.mot u).limit (b.fld .PWRB_BRIDGE 0 10 0 * 10)
  else (b.mot u).limit

/-- A switch opened until the next edge of its reference. -/
def Motor.openSwitch (m : Motor) (switch t : Nat) : Motor :=
  { m with ph := modNth m.ph (switch / 2) (fun x =>
      if switch % 2 = 0 then { x with limHigh := some t } else { x with limLow := some t })
           opened := m.opened ||| BitVec.ofNat 6 (2 ^ switch) }

/-- CBC_LIMIT (R258): the switch opens; the limited period is counted, and OVERCURRENT latches after
    CBC_LIM of them in a row. -/
def execCbcLimit (u : Fin 8) (switch : Fin 6) (ma : Nat) (at_ : Nat) :
    State → Host.Outcome State Fault Refusal :=
  lift (fun b =>
    let m := b.mot u
    if b.motorLimit u < ma ∧ (b.motorOut u at_).getLsbD switch ∧ !b.blanked u at_ then
      let b1 := b.modMot u (fun m => m.openSwitch switch (fineOf (b.now at_)))
      if m.cbcNow || m.seq = .brake || b.vig.brakeSince.isSome then b1
      else
        let b2 := (b1.modMot u (fun m => { m with cbcNow := true, cbcRun := m.cbcRun + 1 })).count
          .MDRV_CNT1 u 31 16
        if m.cbcLim ≤ m.cbcRun + 1 then b2.motorFault u 4 97 false at_ else b2
    else b)

/-- MOTOR_HARD_TRIP (R258): above 20 A for 1 us, not blanked. -/
def execMotorHardTrip (u : Fin 8) (ma ns : Nat) (at_ : Nat) : State → Host.Outcome State Fault Refusal :=
  lift (fun b =>
    if b.present (unitMot u) ∧ 20000 < ma ∧ 1000 ≤ ns ∧ !b.flag .MDRV_FLT u 5 then b.motorFault u 5 97 false at_ else b)

/-- VIGIL_CURRENT_TRIP (R258): above 24 A for 5 us. -/
def execVigilCurrentTrip (u : Fin 8) (ma ns : Nat) (at_ : Nat) :
    State → Host.Outcome State Fault Refusal :=
  lift (fun b =>
    if b.present (unitMot u) ∧ 24000 < ma ∧ 5000 ≤ ns ∧ !b.flag .MDRV_FLT u 7 then b.motorFault u 7 97 false at_ else b)

/-- MOTOR_THERMAL (R258): junction above 170 degree C, in units of 0.1 degree. -/
def execMotorThermal (u : Fin 8) (tj : Int) (at_ : Nat) : State → Host.Outcome State Fault Refusal :=
  lift (fun b =>
    if b.present (unitMot u) ∧ 1700 < tj ∧ !b.flag .MDRV_FLT u 6 then b.motorFault u 6 97 false at_ else b)

/-- MOTOR_SUPPLY_LOW (R258): VPWR below 8.5 V turns the internal bridges off until it is above 9.0 V;
    suspended while no input is present (R489). -/
def execMotorSupplyLow (mv : Nat) (at_ : Nat) : State → Host.Outcome State Fault Refusal :=
  lift (fun b =>
    if !b.vpwrPresent then b
    else (List.range 8).foldl (fun acc u => acc.motorSet u at_ (fun m => { m with
      undervolt := if mv < 8500 then true else if 9000 < mv then false else m.undervolt })) b)

/-- The overload integrator over samples of 1 us: pairs of the largest phase current in mA and how many
    samples had it (R259). -/
def overload (ovl : Nat) : List (Nat × Nat) → Nat
  | [] => ovl
  | (ma, n) :: rest => overload (((ovl : Int) + n * ((ma * ma : Nat) - 64000000)).toNat) rest

/-- FOLDBACK (R259): the samples since the last Tick edge or FOLDBACK bring the integrator across a
    limit. -/
def execFoldback (u : Fin 8) (samples : List (Nat × Nat)) (at_ : Nat) :
    State → Host.Outcome State Fault Refusal :=
  lift (fun b =>
    let b1 := b.modMot u (fun m => { m with ovl := overload m.ovl samples })
    let m := b1.mot u
    if 322000000000000 ≤ m.ovl ∧ !m.foldback then
      (b1.modMot u (fun m => { m with foldback := true })).raiseItems 98 1 0 [unitMot u] at_
    else if m.ovl < 161000000000000 ∧ m.foldback then
      let b2 := b1.modMot u (fun m => { m with foldback := false })
      b2.raiseItems 98 2 0 [unitMot u] at_ (b2.eng.mot.units.any (·.foldback))
    else b1)

/-- TRIPt is enabled and active after its filter (R260). -/
def Block.tripOn (b : Block) (t : Nat) : Bool :=
  b.flag .MDRV_TRIP_CFG t 9 && b.eng.mot.tripLevel.getLsbD t == b.flag .MDRV_TRIP_CFG t 8

/-- The inputs that are active, a bit each (MDRV_TRIP_STATE). -/
def Block.tripBits (b : Block) : Nat := ((List.range 4).map (fun t => if b.tripOn t then 2 ^ t else 0)).sum

/-- The units that an active input trips now (R260): those of its MAP that are outside their blanking window and
    not in FAULT, and, where the input has just become active, those in FAULT that it has not tripped yet. -/
def Block.tripUnits (b : Block) (t : Nat) (fresh : Bool) (at_ : Nat) : List Nat :=
  (List.range 16).filter (fun u =>
    b.present (unitMot u) && (b.word .MDRV_TRIP_CFG t).getLsbD (16 + u) && !b.blanked u at_
      && ((b.mot u).seq != .fault || (fresh && !b.flag .MDRV_FLT u t)))

/-- The units of an active input tripped, with their event (R260). -/
def Block.tripNow (b : Block) (t : Nat) (fresh : Bool) (at_ : Nat) : Block :=
  let us := b.tripUnits t fresh at_
  let b1 := us.foldl (fun acc u =>
    ((acc.latch .MDRV_FLT u t).motorToFault u (acc.mot u).tripLow at_).faultUnit (unitMot u) at_) b
  b1.raiseItems 96 1 0 (us.map unitMot) at_

/-- Inputs still active trip the units whose blanking window has ended (R260, R261; log entry 81). -/
def Block.tripStill (b : Block) (at_ : Nat) : Block :=
  (List.range 4).foldl (fun acc t => if acc.tripOn t then acc.tripNow t false at_ else acc) b

/-- MOTOR_TRIP (R72, R260): a level of TRIPt that has stood for its filter is accepted. An input active until now
    has tripped what it could. -/
def execMotorTrip (t : Fin 4) (level : Sys2Proof.TripLevel) (at_ : Nat) : State → Host.Outcome State Fault Refusal :=
  lift (fun b =>
    if level.held < b.fld .MDRV_TRIP_CFG t 7 0 * 10 then b
    else
      let bit : BitVec 4 := BitVec.ofNat 4 (2 ^ t.val)
      let b1 := (b.tripStill at_).modMots (fun m => { m with
        tripLevel := if level.high then m.tripLevel ||| bit else m.tripLevel &&& ~~~bit })
      if b1.tripOn t then b1.tripNow t true at_ else b1)

/-! ### Run, stop, brake and coast (R262 to R266) -/

/-- The duty in force: with compares as the source, the width of phase A's high interval, which may straddle the
    period start (R243). -/
def Motor.presentDuty (m : Motor) : Int :=
  if m.src = 0 then
    let x := nth m.ph 0 {}
    if m.period ≤ x.cmpSet ∨ x.cmpSet = x.cmpRst then 0
    else if m.period ≤ x.cmpRst then fullDuty
    else ((x.cmpRst + m.period - x.cmpSet) % m.period * fullDuty / m.period : Nat)
  else m.duty

/-- The unit stops by its stop mode (R262). -/
def Block.motorStop (b : Block) (u : Nat) (at_ : Nat) : Block :=
  b.motorSet u at_ (fun m =>
    if m.seq = .run then
      if m.brakes then { m with seq := .rampDown, since := b.now at_, rampFrom := m.presentDuty
                                duty := m.presentDuty }
      else { m with seq := .quiet, since := b.now at_ }
    else m)

/-- The duty that the loop slot has written by an instant in fine steps. -/
def Motor.loopBy (m : Motor) (t : Nat) : Int :=
  match m.loopDue with
  | some (d, at_) => if at_ ≤ t then d else m.loopDuty
  | none => m.loopDuty

/-- RUN from QUIET (R262): a unit under LOOP resumes with the duty that its slot wrote last (R253, R255, R265). -/
def Block.motorRun (b : Block) (u : Nat) (at_ : Nat) : Block :=
  let t := fineOf (b.now at_)
  let b1 := b.modMot u (fun m => { m with seq := .run, since := b.now at_, queuedStart := false })
  let m := b1.mot u
  let b2 := if m.src = 2 then (b1.takeDuty u (m.loopBy t) (t - m.start)).followHall u t 0 else b1
  b2.motorSettle u t

/-- The unit starts, or its start is queued behind a shutdown (R262, R264). -/
def Block.motorStart (b : Block) (u : Nat) (at_ : Nat) : Block :=
  match (b.mot u).seq with
  | .quiet => b.motorRun u at_
  | .run => b
  | _ => b.modMot u (fun m => { m with queuedStart := true })

/-- COAST (R262). -/
def Block.motorCoast (b : Block) (u : Nat) (at_ : Nat) : Block :=
  b.motorSet u at_ (fun m =>
    let m1 := { m with queuedStart := false }
    if m.seq = .run then { m1 with seq := .quiet, since := b.now at_ } else m1)

/-- BRAKE (R262). -/
def Block.motorBrake (b : Block) (u : Nat) (at_ : Nat) : Block :=
  b.motorSet u at_ (fun m =>
    let m1 := { m with queuedStart := false }
    if m.seq = .run ∨ m.seq = .rampDown then { m1 with seq := .brake, since := b.now at_ } else m1)

/-- A PWM unit has changed state at a COMMIT (R262 to R264). -/
def Block.motorUnitChange (b : Block) (u : Nat) (old new : UnitState) (at_ : Nat) : Block :=
  let runs (s : UnitState) : Bool := s == .active || s == .service
  let b1 := if old = .faulted ∧ new ≠ .faulted then
      b.motorSet u at_ (fun m => if m.seq = .fault then
        { m with seq := .quiet, since := b.now at_, tripBrake := none } else m)
    else b
  if new = .faulted then b1.motorToFault u false at_
  else if runs new && !runs old then b1.motorStart u at_
  else if runs old && !runs new then
    (b1.motorStop u at_).modMot u (fun m => { m with queuedStart := false })
  else if new = .standby then b1.modMot u (fun m => { m with queuedStart := false })
  else b1

/-- RAMP_DOWN_DONE (R262). -/
def execRampDownDone (u : Fin 16) (at_ : Nat) : State → Host.Outcome State Fault Refusal :=
  lift (fun b =>
    let m := b.mot u
    if m.seq = .rampDown ∧ m.ramped (b.now at_) = 0 ∧ !b.frozen then
      b.motorSet u at_ (fun m => { m with seq := .brake, since := b.now at_, duty := 0 })
    else b)

/-- BRAKE_TIME_END (R262). -/
def execBrakeTimeEnd (u : Fin 16) (at_ : Nat) : State → Host.Outcome State Fault Refusal :=
  lift (fun b =>
    let m := b.mot u
    if m.seq = .brake ∧ m.since + m.brakeNs ≤ b.now at_ ∧ !b.frozen then
      b.motorSet u at_ (fun m => { m with seq := .quiet, since := b.now at_ })
    else b)

/-- TRIP_BRAKE_END (R260, R262): still in FAULT, all six go off. -/
def execTripBrakeEnd (u : Fin 16) (at_ : Nat) : State → Host.Outcome State Fault Refusal :=
  lift (fun b =>
    match (b.mot u).tripBrake with
    | some t =>
      if t + (b.mot u).brakeNs ≤ b.now at_ then b.motorSet u at_ (fun m => { m with tripBrake := none }) else b
    | none => b)

/-- Every unit's outputs follow what drives them now. -/
def Block.motorsSettle (b : Block) (at_ : Nat) : Block :=
  (List.range 16).foldl (fun acc u => acc.motorSettle u (fineOf (acc.now at_))) b

/-- Vigil brakes every present unit from now on (R266, R408). -/
def Block.motorsBrake (b : Block) (at_ : Nat) : Block :=
  let b1 : Block := { b with vig := { b.vig with brakeSince := some (b.now at_) } }
  (b1.modMots (fun x => { x with units := x.units.map (fun m => { m with brakeOff := false }) })).motorsSettle at_

/-- RESET_BRAKE_END (R266): 200 ms after a reset entry. -/
def execResetBrakeEnd (at_ : Nat) : State → Host.Outcome State Fault Refusal :=
  lift (fun b =>
    match b.vig.brakeSince with
    | some t =>
      if t + 200000000 ≤ b.now at_ then
        let b1 : Block := { b with vig := { b.vig with brakeSince := none } }
        b1.motorsSettle at_
      else b
    | none => b)

/-! ### DRIVE_COMMAND (R265) -/

/-- The row of DRIVE_COMMAND (R357). -/
def driveRow : OpRow := opRow 0x0038 40

/-- What a DRIVE_COMMAND asks for. -/
inductive Drive where
  | run
  | stop
  | coast
  | brake
  deriving DecidableEq, Repr

/-- The units a mask names. -/
def maskUnits (mask : BitVec 16) : List Nat := (List.range 16).filter (fun u => mask.getLsbD u)

/-- The state in which a session's DRIVE_COMMAND acts (R265). -/
def driveState : Sys2Proof.Sess → UnitState
  | .main => .active
  | .service => .service

/-- DRIVE_COMMAND at its COMMIT (R262 to R265). -/
def Block.driveApply (b : Block) (k : Sys2Proof.Sess) (d : Drive) (mask : BitVec 16)
    (duties : List (BitVec 16)) (at_ : Nat) : Block :=
  (maskUnits mask).foldl (fun acc u =>
    if (acc.unit (unitMot u)).state = driveState k then
      match d with
      | .run =>
        (acc.modMot u (fun m => { m with
          asked := if acc.fld .MDRV_CFG u 3 2 = 1 then signed 16 (nth duties u 0).toNat * 10000
                   else m.asked })).motorStart u at_
      | .stop => (acc.modMot u (fun m => { m with queuedStart := false })).motorStop u at_
      | .coast => acc.motorCoast u at_
      | .brake => acc.motorBrake u at_
    else acc) b

/-- A duty of a named unit is out of range (R265). -/
def dutiesBad (mask : BitVec 16) (duties : List (BitVec 16)) : Bool :=
  (maskUnits mask).any (fun u => decide (10000 < (signed 16 (nth duties u 0).toNat).natAbs))

/-- Dispatch of DRIVE_COMMAND (R264, R265). -/
def dispatchDrive (h : Hdr) (d : Drive) (mask : BitVec 16) (duties : List (BitVec 16)) (i : Instr) :
    Dispatch := fun k seq arrived b =>
  if dutiesBad mask duties then b.replyNow (some k) h driveRow.code .range
  else
    let us := maskUnits mask
    if us.any (fun u => (b.unit (unitMot u)).state != driveState k) then
      b.postsWith seq arrived k h driveRow.code i .fenced
        ((List.range 16).map (fun u =>
          if mask.getLsbD u then BitVec.ofNat 8 (b.unit (unitMot u)).state.code else 0xFF))
    else if d = .run && us.any (fun u => (b.mot u).seq == .rampDown || (b.mot u).seq == .brake
        || (b.mot u).seq == .fault) then
      b.postsWith seq arrived k h driveRow.code i .deferred []
    else b.posts seq arrived k h driveRow.code i

/-- DRIVE_COMMAND RUN (R265). -/
def execDriveCommandRun (h : Hdr) (mask : BitVec 16) (duties : List (BitVec 16)) :
    State → Host.Outcome State Fault Refusal :=
  let i : Instr := .driveCommandRun h mask duties
  lift (fun b => b.request i h driveRow (dispatchDrive h .run mask duties i))

/-- DRIVE_COMMAND STOP (R265). -/
def execDriveCommandStop (h : Hdr) (mask : BitVec 16) (duties : List (BitVec 16)) :
    State → Host.Outcome State Fault Refusal :=
  let i : Instr := .driveCommandStop h mask duties
  lift (fun b => b.request i h driveRow (dispatchDrive h .stop mask duties i))

/-- DRIVE_COMMAND COAST (R265). -/
def execDriveCommandCoast (h : Hdr) (mask : BitVec 16) (duties : List (BitVec 16)) :
    State → Host.Outcome State Fault Refusal :=
  let i : Instr := .driveCommandCoast h mask duties
  lift (fun b => b.request i h driveRow (dispatchDrive h .coast mask duties i))

/-- DRIVE_COMMAND BRAKE (R265). -/
def execDriveCommandBrake (h : Hdr) (mask : BitVec 16) (duties : List (BitVec 16)) :
    State → Host.Outcome State Fault Refusal :=
  let i : Instr := .driveCommandBrake h mask duties
  lift (fun b => b.request i h driveRow (dispatchDrive h .brake mask duties i))

/-! ### The units' part of Tick edges, COMMITs, halts and resets -/

/-- FB_EDGE_ACCEPTED (R72, R251): the axes count, then each unit's masking follows its halls; counting is
    stopped in HOLD and DORMANT (R311). -/
def execFbEdgeAccepted (seen : Sys2Proof.FbSample) (at_ : Nat) : State → Host.Outcome State Fault Refusal :=
  lift (fun b =>
    if b.ticking then
      (List.range 16).foldl (fun acc u => acc.followHall u (fineOf (acc.now at_)) maskLag)
        (b.fbEdges seen.levels seen.held seen.cycles at_)
    else b)

/-- What CAPTURE latches of an internal bridge: the mean phase currents in mA, the junction temperature
    in 0.1 degree C, and the samples of the overload integrator since the last Tick edge (R258, R259). -/
def Block.motorCapture (b : Block) (u : Nat) (ia ib ic tj : Int) (samples : List (Nat × Nat)) : Block :=
  b.modMot u (fun m => { m with ia := ia, ib := ib, ic := ic, tj := tj, ovl := overload m.ovl samples })

/-- The Tick edge: a tap table in range is taken up (R245), and the halls of axes that lost or regained
    validity are followed (R252). -/
def Block.motorTick (b : Block) : Block :=
  let b1 := if b.eng.mot.fineDue then
      (b.modMots (fun m => { m with coarse := false, fineDue := false })).raise 101 2 payZ 0
    else b
  ((List.range 16).foldl (fun acc u => acc.followHall u (fineOf acc.time.now) maskLag) b1).tripStill 0

/-- A COMMIT: queued starts that find the sequencer QUIET, and trip inputs still active, take effect
    (R261, R264); the output levels are latched. -/
def Block.motorCommit (b : Block) (at_ : Nat) : Block :=
  let b1 := (List.range 16).foldl (fun acc u =>
    let m := acc.mot u
    if m.queuedStart && m.seq == .quiet && acc.runs (unitMot u) then acc.motorStart u at_ else acc) b
  let b2 := b1.tripStill at_
  if b2.frozen then b2
  else (List.range 16).foldl (fun acc u =>
    acc.modMot u (fun m => { m with out := b2.motorOut u at_ })) b2

/-- A halt freezes every output at the level it has (R267). -/
def Block.motorFreeze (b : Block) (at_ : Nat) : Block :=
  (List.range 16).foldl (fun acc u =>
    acc.modMot u (fun m => { m with out := b.motorOut u at_, opened := 0 })) b

/-- The halt ends: each unit holds its outputs until its next period start (R267). -/
def Block.motorThaw (b : Block) : Block :=
  b.modMots (fun x => { x with units := x.units.map (fun m => { m with resuming := true }) })

/-- The levels of every unit latched at an instant on the model's clock, for a reset to start its brake from. -/
def Block.motorsAt (b : Block) (now : Nat) : Motors :=
  { b.eng.mot with units := b.eng.mot.units.mapIdx (fun u m => { m with out := b.motorOutAt u (fineOf now) }) }

/-- The PWM units after a reset at an instant: QUIET, shadows cleared, Vigil's brake begun (R266); MDRV_CAL as
    reset (R269). Settings are those of `words`. -/
def Motors.afterReset (m : Motors) (words : Nat → List Word) (now : Nat) : Motors :=
  { units := (List.range 16).map (fun u => {
      cfg := words u, invalidSince := some now
      steps := [{ at_ := fineOf now, drive := .resetBrake, before := (nth m.units u {}).out }] }) }

end Sys2Proof.Machine
end

