-- ==== Sys2Proof/Machine/Loop.lean ====
section
/-! DEFINITION. The loop engine (09): slots, the LOOP phase, the control law, profiles, row metering,
    observers and following errors, and the trace. -/

namespace Sys2Proof.Machine

open Sys2Proof (Word Byte Bytes Hdr Instr TraceArm)

/-- The block with the loop engine replaced by its image. -/
def Block.modLoops (b : Block) (f : Loops → Loops) : Block :=
  { b with eng := { b.eng with loop := f b.eng.loop } }

/-- Loop slot `s`. -/
def Block.slot (b : Block) (s : Nat) : LoopSlot := nth b.eng.loop.slots s {}

/-- The block with loop slot `s` replaced by its image. -/
def Block.modSlot (b : Block) (s : Nat) (f : LoopSlot → LoopSlot) : Block :=
  b.modLoops (fun l => { l with slots := modNth l.slots s f })

/-! ### Settings (R270 to R283) -/

def Block.loopType (b : Block) (s : Nat) : Nat := b.fld .LOOP_CFG s 1 0
def Block.loopN (b : Block) (s : Nat) : Nat := max 1 (b.fld .LOOP_CFG s 25 20)
def Block.loopPhase (b : Block) (s : Nat) : Nat := b.fld .LOOP_CFG s 19 14
def Block.loopSrc (b : Block) (s : Nat) : Nat := b.fld .LOOP_IN s 9 8
def Block.loopSrcSlot (b : Block) (s : Nat) : Nat := b.fld .LOOP_IN s 14 10
def Block.loopKind (b : Block) (s : Nat) : Nat := b.fld .LOOP_IN s 6 5
def Block.loopAxis (b : Block) (s : Nat) : Nat := b.fld .LOOP_IN s 4 0
def Block.loopPos (b : Block) (s : Nat) : Bool := b.loopKind s == 0
def Block.loopObs (b : Block) (s : Nat) : Option Nat :=
  if b.flag .LOOP_OBS_USE s 6 then some (b.fld .LOOP_OBS_USE s 4 0) else none

/-- The ten coefficients of a set: KP, KI, KD, TF, KFF, KAW, OUT_MIN, OUT_MAX, I_MIN, I_MAX (R280). -/
def Block.loopCoefs (b : Block) (s : Nat) (setB : Bool) : List Word :=
  (List.range 10).map (fun k => if setB then b.word .LOOP_SET_B s k else b.word .LOOP_SET_A s k)

/-- The slot's unit is ACTIVE or SERVICE. -/
def Block.slotRuns (b : Block) (s : Nat) : Bool := b.runs (unitLoop s)

/-- The slot is due in this Tick (R272). -/
def Block.slotDue (b : Block) (s : Nat) : Bool :=
  b.slotRuns s && b.time.count.toNat % b.loopN s == b.loopPhase s

/-- The level of a PID slot (R273): 0 without a source slot, else one more than its source's. -/
def Block.loopLevel (b : Block) : Nat → Nat → Nat
  | 0, _ => 0
  | fuel + 1, s => if b.loopSrc s = 1 then b.loopLevel fuel (b.loopSrcSlot s) + 1 else 0

/-- The slots that run in this LOOP phase, in order (R273). -/
def Block.loopOrder (b : Block) : List Nat :=
  let due := (List.range 32).filter b.slotDue
  due.filter (fun s => b.loopType s == 2)
    ++ ((List.range 5).map (fun l =>
          due.filter (fun s => b.loopType s == 1 && b.loopLevel 5 s == l))).flatten

/-- The LOOP phase cycles of a slot (R275). -/
def Block.loopCycles (b : Block) (s : Nat) : Nat :=
  match b.loopType s with
  | 1 =>
    220 + (if b.flag .LOOP_CFG s 8 then 40 else 0) + (if b.flag .LOOP_CFG s 9 then 40 else 0)
      + (if b.flag .LOOP_CFG s 12 then 60 else 0) + (if b.loopSrc s = 2 then 40 else 0)
  | 2 => let n := b.fld .LOOP_OBS_MODEL s 2 0
         60 + 5 * n * n
  | _ => 0

/-- The background cycles of a slot (R275). -/
def Block.loopBackground (b : Block) (s : Nat) : Nat :=
  if b.loopType s = 2 then
    let n := b.fld .LOOP_OBS_MODEL s 2 0
    120 + 15 * n * n
  else 0

/-- The declared sums of R275: LOOP phase and background. -/
def Block.loopBudget (b : Block) : Nat × Nat :=
  (((List.range 32).map b.loopCycles).sum, ((List.range 32).map b.loopBackground).sum)

/-! ### Feedback (R277) -/

/-- A quantity of a slot: a position in 2^-16 count, or a binary32 value. -/
structure Qty where
  fix : Int := 0
  w : Word := 0
  deriving DecidableEq, Repr

/-- A binary32 value as a position. -/
def fixOf (w : Word) : Int := ftoScaled w 65536

/-- A value as a quantity of the slot's kind. -/
def qtyOf (pos : Bool) (w : Word) : Qty := if pos then { fix := fixOf w, w := w } else { w := w }

/-- A position as a quantity. -/
def qtyFix (fix : Int) : Qty := { fix := fix, w := fofFixed fix }

/-- The feedback of a slot's own axis (R277). -/
def Block.loopSensor (b : Block) (s : Nat) : Qty :=
  let a := b.loopAxis s
  let x := b.axisSeen a
  match b.loopKind s with
  | 0 => qtyFix ((if b.rotary a then x.rev * b.cpr a + x.pos else x.pos) * 65536)
  | 2 => { w := fofRat x.speed 1000000 }
  | _ => { w := fofRat x.rate 64 }

/-- The axis of a slot is valid. -/
def Block.loopValid (b : Block) (s : Nat) : Bool := (b.axisSeen (b.loopAxis s)).valid

/-- A difference of positions wrapped into half a revolution either way (R277). -/
def wrapFix (cpr : Nat) (d : Int) : Int :=
  let m : Int := cpr * 65536
  if m = 0 then d else (d + m / 2) % m - m / 2

/-- The error r - y of a slot (R277). -/
def Block.loopDiff (b : Block) (s : Nat) (r y : Qty) : Word :=
  if b.loopPos s then
    let d := r.fix - y.fix
    let a := b.loopAxis s
    fofFixed (if b.rotary a && b.loopSrc s != 2 then wrapFix (b.cpr a) d else d)
  else fsub r.w y.w

/-- The period T of a slot in s (R272). -/
def Block.loopT (b : Block) (s : Nat) : Word := fofRat (b.loopN s) 10000

/-! ### Biquads (R279) -/

/-- One biquad: its output and its new state. -/
def biquad (c : List Word) (st : List Word) (x : Word) : Word × List Word :=
  let g (i : Nat) : Word := nth c i 0
  let h (i : Nat) : Word := nth st i 0
  let out := fsub (fsub (fadd (fadd (fmul (g 0) x) (fmul (g 1) (h 0))) (fmul (g 2) (h 1)))
    (fmul (g 3) (h 2))) (fmul (g 4) (h 3))
  (out, [x, h 0, out, h 2])

/-- The state of a biquad whose input has always been `x` (R271). -/
def biquadSteady (c : List Word) (x : Word) : List Word :=
  let g (i : Nat) : Word := nth c i 0
  let dc := fdiv (fadd (fadd (g 0) (g 1)) (g 2)) (fadd (fadd oneF (g 3)) (g 4))
  let out := fmul x dc
  [x, x, out, out]

/-- The coefficients of biquad `k` of a slot. -/
def Block.bqCoefs (b : Block) (s k : Nat) : List Word :=
  (List.range 5).map (fun j => b.word .LOOP_BIQUAD s (5 * k + j))

/-- The enabled biquads of a slot applied to a value, from the states given. -/
def Block.bqRun (b : Block) (s : Nat) (st : List Word) (x : Word) : Word × List Word :=
  let r0 := if b.flag .LOOP_CFG s 8 then biquad (b.bqCoefs s 0) (st.take 4) x else (x, st.take 4)
  let r1 := if b.flag .LOOP_CFG s 9 then biquad (b.bqCoefs s 1) (st.drop 4) r0.1 else (r0.1, st.drop 4)
  (r1.1, r0.2 ++ r1.2)

/-- The states of a slot's biquads for a steady input. -/
def Block.bqSteady (b : Block) (s : Nat) (x : Word) : List Word :=
  let s0 := biquadSteady (b.bqCoefs s 0) x
  let y := if b.flag .LOOP_CFG s 8 then nth s0 2 0 else x
  s0 ++ biquadSteady (b.bqCoefs s 1) y

/-! ### Row metering (R288, R289) -/

/-- One micrometre, in the travel unit of a row. -/
def umUnit : Int := 20000

/-- A row slot's target: the disk position and its rate, with the new row state (R288). -/
def Block.rowTarget (b : Block) (s : Nat) (x : LoopSlot) : Int × Word × LoopSlot :=
  let a := b.loopAxis s
  let cpr : Int := b.cpr a
  let cells : Int := b.fld .LOOP_ROW_CFG s 7 0
  let spacing : Int := (b.word .LOOP_ROW_SPACING s).toNat * umUnit
  let drop : Int := b.fld .LOOP_ROW_DROP s 30 0
  let phase : Int := (b.word .LOOP_ROW_PHASE s).toNat * umUnit
  let odo : Int := b.eng.pose.odo * 200000 / 4294967296
  let v := b.eng.pose.rowSpeed (b.sfld .LOOP_ROW_GEOM s 31 16)
  let lead : Int := v * b.fld .LOOP_ROW_GEOM s 15 0 * 2 - phase
  let th := (b.loopSensor s).fix
  let x0 := if x.locked then x
    else { x with
      locked := true, sRow := odo, rowAcc := 0
      j0 := divRound ((th - drop * 65536) * cells * spacing - (odo + lead) * cpr * 65536)
              (cpr * 65536 * spacing) }
  let g := (odo - x0.sRow + spacing / 2) % spacing - spacing / 2
  let inc : Int := x0.rowAcc
  let pct : Int := b.fld .LOOP_ROW_CFG s 31 24
  let lim := inc * pct / 100
  let pull := if 0 < pct ∧ b.eng.pose.now.r.natAbs ≤ b.fld .LOOP_ROW_CFG s 15 8 * 1000 then
      clampInt (-lim) lim g else 0
  let sRow := x0.sRow + inc + pull
  let target := drop * 65536
    + divRound ((sRow + lead + x0.j0 * spacing) * cpr * 65536) (spacing * cells)
  -- (v + pull / T) um/s over spacing in um, T = N x 0.1 ms
  let vt := fofRat ((v * b.loopN s * umUnit + pull * 10000) * cpr) (b.loopN s * (cells * spacing).toNat)
  (target, vt, { x0 with sRow := sRow, rowAcc := 0, g := g })

/-! ### Set-points (R283) -/

/-- The output of a source slot as a consumer sees it (R283). -/
def Block.sourceOutput (b : Block) (s : Nat) : Word :=
  let q := b.loopSrcSlot s
  let y := b.slot q
  if !b.slotRuns q then 0
  else if b.flag .LOOP_IN s 15 then
    let n := b.loopN s
    let m := (b.time.count - y.ranAt).toNat / n
    fadd y.uPrev (fmul (fsub y.u y.uPrev) (fofRat ((m + 1) * n : Nat) (b.loopN q)))
  else y.u

/-- The set-point of a slot, its own rate, and the slot with its row state moved (R283, R288). -/
def Block.setPoint (b : Block) (s : Nat) (x : LoopSlot) : Qty × Word × LoopSlot :=
  match b.loopSrc s with
  | 1 => (qtyOf (b.loopPos s) (b.sourceOutput s), 0, x)
  | 2 =>
    let (t, v, x1) := b.rowTarget s x
    (qtyFix t, v, x1)
  | _ => (qtyOf (b.loopPos s) (b.word .LOOP_SP s), 0, x)

/-! ### The profile generator (R282) -/

/-- One run of the profile generator: the set-point after it, the rate of it, and the slot. -/
def Block.profile (b : Block) (s : Nat) (x : LoopSlot) (r : Qty) (vt : Word) : Qty × Word × LoopSlot :=
  let vmax := b.word .LOOP_VMAX s
  let amax := b.word .LOOP_AMAX s
  let jmax := b.word .LOOP_JMAX s
  let t := b.loopT s
  let two : Word := 0x40000000
  let pos := b.loopPos s
  let e := fofFixed (r.fix - x.profP)
  let req := if pos then
      fadd vt (fwithSign (fsign e) (fmin vmax (fsqrt (fmul (fmul two amax) (fabs e)))))
    else r.w
  let vreq := fclamp req (fneg vmax) vmax
  let dv := fsub vreq x.profV
  let areq := fwithSign (fsign dv) (fmin amax (fsqrt (fmul (fmul two jmax) (fabs dv))))
  let jt := fmul jmax t
  let a := fadd x.profA (fclamp (fsub areq x.profA) (fneg jt) jt)
  let v := fclamp (fadd x.profV (fmul a t)) (fneg vmax) vmax
  if pos then
    let p := x.profP + fixOf (fmul v t)
    (qtyFix p, v, { x with profP := p, profV := v, profA := a })
  else ({ w := v }, vt, { x with profV := v, profA := a })

/-! ### The control law (R278, R281) -/

/-- The terms of one run under a set of coefficients: p, d, ff and the derivative state. -/
def loopTerms (c : List Word) (e x xPrev xd t ffIn : Word) : Word × Word × Word × Word :=
  let tf := nth c 3 0
  let xd' := fdiv (fadd (fmul tf xd) (fsub x xPrev)) (fadd tf t)
  (fmul (nth c 0 0) e, fmul (nth c 2 0) xd', fmul (nth c 4 0) ffIn, xd')

/-- The integrator after a swap of coefficients, and whether the output was saturated (R281). -/
def swapIntegrator (old new : List Word) (e x xPrev xd t ffIn i : Word) : Word × Bool :=
  let (p, d, ff, _) := loopTerms old e x xPrev xd t ffIn
  let s := fadd (fadd (fadd p i) d) ff
  let omin := nth old 6 0
  let omax := nth old 7 0
  let sat : Int := if flt omax s then 1 else if flt s omin then -1 else 0
  let (p', d', ff', _) := loopTerms new e x xPrev xd t ffIn
  let rest := fadd (fadd p' d') ff'
  let hold := if sat = 0 then s else if 0 < sat then nth new 7 0 else nth new 6 0
  (fclamp (fsub hold rest) (nth new 8 0) (nth new 9 0), sat != 0)

/-- The integrator that leaves the last output unchanged under the new terms (R285). -/
def holdIntegrator (new : List Word) (e x xPrev xd t ffIn u : Word) : Word :=
  let (p, d, ff, _) := loopTerms new e x xPrev xd t ffIn
  fclamp (fsub u (fadd (fadd p d) ff)) (nth new 8 0) (nth new 9 0)

/-- The integrator of the next run (R278). -/
def nextIntegrator (c : List Word) (backCalc : Bool) (i t e s u : Word) : Word :=
  let ovr := fsub s u
  let i' :=
    if backCalc then fadd i (fmul t (fadd (fmul (nth c 1 0) e) (fmul (nth c 5 0) (fsub u s))))
    else if !flt s u && !flt u s || fsign e != fsign ovr then fadd i (fmul (fmul (nth c 1 0) t) e)
    else i
  fclamp i' (nth c 8 0) (nth c 9 0)

/-- A slot's output written to its consumers at an instant (R274): duty to motors, mA to proportional
    channels. -/
def Block.loopWrite (b : Block) (s : Nat) (u : Word) (at_ : Nat) : Block :=
  (b.motorLoop s (ftoScaled u fullDuty) at_).propLoop s (ftoScaled u 2).toNat at_

/-- A flag of LOOP_FLT that faults the slot (R287). -/
def Block.loopFault (b : Block) (s bit : Nat) (at_ : Nat) (cause : Cause := .latchedFault) : Block :=
  ((b.latch .LOOP_FLT s bit).faultUnit (unitLoop s) at_ cause).raiseItems 103 1 0 [unitLoop s] at_

/-- An uncorrectable error in a word that holds the state of slots (R21, R287). -/
def Block.loopEcc (b : Block) (slots : List Nat) : Block :=
  slots.foldl (fun acc s => acc.loopFault s 2 0 .ecc) b

/-- What LOSS_ACT, as it stands, asks of a slot in LOST (R285). -/
def Block.lossAct (b : Block) (s : Nat) (at_ : Nat) : Block :=
  match b.fld .LOOP_CFG s 6 5 with
  | 1 =>
    if (b.slot s).u = 0 then b
    else (b.modSlot s (fun x => { x with uPrev := x.u, u := 0 })).loopWrite s 0 at_
  | 2 => if b.flag .LOOP_FLT s 1 then b else b.loopFault s 1 at_
  | _ => b

/-- A change of feedback mode (R285): into LOST the integrator is frozen and LOSS_ACT applies. -/
def Block.loopFb (b : Block) (s : Nat) (m : LoopFb) (at_ : Nat) : Block :=
  let b1 := ((b.modSlot s (fun x => { x with
    fb := m, resRuns := 0, backRuns := 0, obsSince := b.now at_ })).count .LOOP_CNT s 31 24).raiseItems
      105 1 0 [unitLoop s] at_
  if m = .lost then b1.lossAct s at_ else b1

/-- |y - yhat| does not exceed a limit. -/
def Block.residualOk (b : Block) (s : Nat) (y : Qty) (yhat : Word) : Bool :=
  let d := if b.loopPos s then fofFixed (y.fix - fixOf yhat) else fsub y.w yhat
  !flt (b.word .LOOP_RES_LIM s) (fabs d)

/-- The observer of a slot, when it is in use and READY (R284, R285). -/
def Block.readyObserver (b : Block) (s : Nat) : Option Nat :=
  match b.loopObs s with
  | some q => if 64 ≤ (b.slot q).corrected ∧ b.slotRuns q then some q else none
  | none => none

/-- The mode of a slot tested at a run (R285). -/
def Block.testFb (b : Block) (s : Nat) (y : Qty) (at_ : Nat) : Block :=
  let x := b.slot s
  let valid := b.loopValid s
  let backN := b.fld .LOOP_OBS_USE s 23 16
  match x.fb with
  | .sensor =>
    match b.readyObserver s with
    | none => if valid then b.modSlot s (fun x => { x with resRuns := 0 }) else b.loopFb s .lost at_
    | some q =>
      let n := if b.residualOk s y (b.slot q).yhat then 0 else x.resRuns + 1
      let b1 := b.modSlot s (fun x => { x with resRuns := n })
      if !valid || decide (b.fld .LOOP_OBS_USE s 15 8 ≤ n) then b1.loopFb s .observer at_ else b1
  | .observer =>
    let yhat := (b.slot (b.fld .LOOP_OBS_USE s 4 0)).yhat
    let n := if valid && b.residualOk s y yhat then x.backRuns + 1 else 0
    let b1 := b.modSlot s (fun x => { x with backRuns := n })
    if backN ≤ n then b1.loopFb s .sensor at_ else b1
  | .lost =>
    let n := if valid then x.backRuns + 1 else 0
    let b1 := b.modSlot s (fun x => { x with backRuns := n })
    if backN ≤ n then b1.loopFb s .sensor at_ else b1

/-- The following error of a run (R286): the timer in 0.1 ms. -/
def Block.followRun (b : Block) (s : Nat) (err : Word) : Block :=
  let ovr := flt (b.word .LOOP_FERR_LIM s) (fabs err)
  b.modSlot s (fun x => { x with
    follow := err
    ferrOver := b.flag .LOOP_FERR_CFG s 0 && ovr
    ferr := if b.flag .LOOP_FERR_CFG s 0 && ovr then x.ferr + b.loopN s else 0 })

/-- A position on a rotary axis as LOOP_R and LOOP_Y show it (R296). -/
def Block.shown (b : Block) (s : Nat) (q : Qty) : Word :=
  let a := b.loopAxis s
  if b.loopPos s && b.rotary a then fofFixed (q.fix % (b.cpr a * 65536 : Nat)) else q.w

/-- The control law of one run in SENSOR or OBSERVER mode (R278, R281, R282). -/
def Block.control (b : Block) (s : Nat) (y ySensor : Qty) (changed : Bool) (at_ : Nat) : Block :=
  let x0 := b.slot s
  let pos := b.loopPos s
  let t := b.loopT s
  let x1 := if x0.fresh then
      { x0 with i := 0, xd := 0, profP := y.fix, profV := if pos then 0 else y.w, profA := 0
                used := [] }
    else x0
  let (r0, v0, x2) := b.setPoint s x1
  let (r, vref, x3) := if b.flag .LOOP_CFG s 12 then b.profile s x2 r0 v0 else (r0, v0, x2)
  let raw := b.loopDiff s r y
  let bqIn := if pos then raw else y.w
  let st := if x3.fresh then b.bqSteady s bqIn else x3.bq
  let (f, st') := b.bqRun s st bqIn
  let e := if pos then f else fsub r.w f
  let xIn := if b.flag .LOOP_CFG s 10 then (if pos then fneg e else fneg f) else e
  let xPrev := if x3.fresh then xIn else x3.xPrev
  let setB := if x3.fb == .observer && b.flag .LOOP_OBS_USE s 7 then true else b.flag .LOOP_SEL s 0
  let new := b.loopCoefs s setB
  let ffIn := if pos then vref else r.w
  let swapped := !x3.used.isEmpty && (x3.used != new || x3.setUsed != setB)
  let (i, satSwap) :=
    if changed && !x3.fresh then (holdIntegrator new e xIn xPrev x3.xd t ffIn x3.u, false)
    else if swapped then swapIntegrator x3.used new e xIn xPrev x3.xd t ffIn x3.i
    else (x3.i, false)
  let (p, d, ff, xd) := loopTerms new e xIn xPrev x3.xd t ffIn
  let sum := fadd (fadd (fadd p i) d) ff
  let u := fclamp sum (nth new 6 0) (nth new 7 0)
  let i' := nextIntegrator new (b.flag .LOOP_CFG s 11) i t e sum u
  let b1 := b.modSlot s (fun _ => { x3 with
    fresh := false, i := i', xd := xd, xPrev := xIn, bq := st', uPrev := x3.u, u := u
    ranAt := b.time.count, used := new, setUsed := setB, sat := flt sum u || flt u sum
    r := b.shown s r, y := b.shown s y, e := e, p := p, d := d, ff := ff, ySensor := ySensor.w })
  let b2 := if satSwap then
      (b1.count .LOOP_CNT s 23 16).raiseItems 106 1 0 [unitLoop s] at_
    else b1
  (b2.followRun s raw).loopWrite s u at_

/-- A run in LOST mode (R285): no control law, the integrator frozen, LOSS_ACT as it stands; a row slot forms its
    target, and so locks and moves its row on (R288). -/
def Block.lostRun (b : Block) (s : Nat) (ySensor : Qty) (at_ : Nat) : Block :=
  let row (x : LoopSlot) : LoopSlot := if b.loopSrc s = 2 then (b.rowTarget s x).2.2 else x
  (b.modSlot s (fun x => { row x with uPrev := x.u, ranAt := b.time.count, ySensor := ySensor.w })).lossAct s at_

/-- A run of a PID slot (R278, R285). -/
def Block.runPid (b : Block) (s : Nat) (at_ : Nat) : Block :=
  let ySensor := b.loopSensor s
  let before := (b.slot s).fb
  let b1 := b.testFb s ySensor at_
  let x := b1.slot s
  match x.fb with
  | .lost => b1.lostRun s ySensor at_
  | .observer =>
    let yhat := (b1.slot (b1.fld .LOOP_OBS_USE s 4 0)).yhat
    (b1.modSlot s (fun x => { x with yhat := yhat })).control s (qtyOf (b.loopPos s) yhat) ySensor
      (before != x.fb) at_
  | .sensor =>
    let yhat := match b1.loopObs s with
      | some q => (b1.slot q).yhat
      | none => 0
    (b1.modSlot s (fun x => { x with yhat := yhat })).control s ySensor ySensor (before != x.fb) at_

/-! ### Observers (R284) -/

/-- The sum of products of two lists. -/
def fdot : List Word → List Word → Word
  | [], _ => 0
  | _, [] => 0
  | [a], c :: _ => fmul a c
  | a :: as, c :: cs => fadd (fmul a c) (fdot as cs)

/-- A row of LOOP_COEF. -/
def Block.coefRow (b : Block) (s from_ n : Nat) : List Word :=
  (List.range n).map (fun j => b.word .LOOP_COEF s (from_ + j))

/-- Some PID slot runs on the observer (R284). -/
def Block.observed (b : Block) (q : Nat) : Bool :=
  (List.range 32).any (fun s => b.loopType s == 1 && b.slotRuns s && b.loopObs s == some q
    && (b.slot s).fb == .observer)

/-- The correction step of an observer (R284). -/
def Block.observe (b : Block) (q : Nat) : Block :=
  let n := b.fld .LOOP_OBS_MODEL q 2 0
  let x := b.slot q
  let st := x.x.take n
  let c := b.coefRow q 48 n
  let y := b.loopSensor q
  let yhat := fdot c st
  let d := if b.loopPos q then fofFixed (y.fix - fixOf yhat) else fsub y.w yhat
  let corrects := b.loopValid q && !b.observed q
  let st' := if corrects then
      (List.range n).map (fun row => fadd (nth st row 0) (fmul (b.word .LOOP_COEF q (54 + row)) d))
    else st
  b.modSlot q (fun x => { x with
    x := st' ++ List.replicate (6 - n) 0
    yhat := if corrects then fdot c st' else yhat
    corrected := if corrects then min (x.corrected + 1) 64 else x.corrected
    y := b.shown q y, ySensor := y.w, ranAt := b.time.count, predictDue := true, fresh := false })

/-- OBSERVER_PREDICT (R284): x = A x + B [u1, u2], after the LOOP phase in which the observer ran. -/
def execObserverPredict (s : Fin 32) : State → Host.Outcome State Fault Refusal :=
  lift (fun b =>
    let x := b.slot s
    if !x.predictDue then b
    else
      let n := b.fld .LOOP_OBS_MODEL s 2 0
      let u1 := (b.slot (b.fld .LOOP_OBS_MODEL s 7 3)).u
      let u2 := if b.fld .LOOP_OBS_MODEL s 9 8 = 1 then fofRat b.vpwrMv 1000 else 0
      let st := x.x.take n
      let st' := (List.range n).map (fun row =>
        fadd (fdot (b.coefRow s (6 * row) n) st)
          (fadd (fmul (b.word .LOOP_COEF s (36 + 2 * row)) u1)
            (fmul (b.word .LOOP_COEF s (37 + 2 * row)) u2)))
      b.modSlot s (fun x => { x with x := st' ++ List.replicate (6 - n) 0, predictDue := false }))

/-- OBSERVER_TIMEOUT (R285): OBS_MAX on the observer. -/
def execObserverTimeout (s : Fin 32) (at_ : Nat) : State → Host.Outcome State Fault Refusal :=
  lift (fun b =>
    let x := b.slot s
    if x.fb = .observer ∧ b.slotRuns s ∧ x.obsSince + b.fld .LOOP_OBS_USE s 31 24 * 100000000 ≤ b.now at_
    then (b.latch .LOOP_FLT s 3).loopFb s .lost at_
    else b)

/-- FOLLOW_ERR (R286): the timer reaches FERR_T. -/
def execFollowErr (s : Fin 32) (at_ : Nat) : State → Host.Outcome State Fault Refusal :=
  lift (fun b =>
    let x := b.slot s
    if b.flag .LOOP_FERR_CFG s 0 ∧ b.slotRuns s ∧ !b.flag .LOOP_FLT s 0
        ∧ b.fld .LOOP_FERR_CFG s 12 2 * 10 ≤ x.ferr then
      let b1 := (b.latch .LOOP_FLT s 0).raiseItems 104 1 0 [unitLoop s] at_
      if b.flag .LOOP_FERR_CFG s 1 then
        (b1.faultUnit (unitLoop s) at_).raiseItems 103 1 0 [unitLoop s] at_
      else b1
    else b)

/-! ### The LOOP phase (R273 to R276) -/

/-- One slot of the LOOP phase: `ns` is the instant at which the engine starts it. -/
def Block.runSlot (b : Block) (s ns : Nat) : Nat × Block :=
  let end_ := ns + b.loopCycles s * 5 / 2
  (end_, if b.loopType s = 2 then b.observe s else b.runPid s end_)

/-- The LOOP phase: `limit` is how many slots run before 48 us when memory stalls cut the phase. -/
def Block.loopPhaseRun (b : Block) (ticks : Nat) (limit : Option Nat) : Block :=
  let b0 := b.modLoops (fun l => { l with
    slots := l.slots.mapIdx (fun s x =>
      if b.loopSrc s = 2 ∧ b.slotRuns s then
        { x with rowAcc := x.rowAcc + b.eng.pose.rowTravel (b.sfld .LOOP_ROW_GEOM s 31 16) ticks }
      else x) })
  let order := b0.loopOrder
  let run := match limit with
    | some n => order.take n
    | none => order
  let skipped := order.drop run.length
  let r := run.foldl (fun acc s => acc.2.runSlot s acc.1) (22000, b0)
  let b1 := skipped.foldl (fun acc s => acc.count .LOOP_CNT s 15 0) r.2
  let last := (if skipped.isEmpty then r.1 else 48000) / 100
  let b2 := b1.modLoops (fun l => { l with cut := !skipped.isEmpty, cutSlots := skipped, last := last })
  b2.setFld .LOOP_USE 0 25 16 (max last (b2.fld .LOOP_USE 0 25 16))

/-- LOOP_OVERRUN (R276): the phase was cut at 48 us. -/
def execLoopOverrun (at_ : Nat) : State → Host.Outcome State Fault Refusal :=
  lift (fun b =>
    if b.eng.loop.cut then
      ((b.modLoops (fun l => { l with cut := false })).count .LOOP_OVR 0 15 0).raiseLimited 102 1
        (payB 0 96 (b.eng.loop.cutSlots.map unitLoop)) at_
    else b)

/-- A loop unit has changed state at a COMMIT (R271): leaving ACTIVE or SERVICE writes an output of 0,
    entering them starts afresh, STANDBY clears the state. -/
def Block.loopUnitChange (b : Block) (s : Nat) (old new : UnitState) (at_ : Nat) : Block :=
  let runs (x : UnitState) : Bool := x == .active || x == .service
  let b1 := if runs old && !runs new then
      (b.modSlot s (fun x => { x with uPrev := 0, u := 0 })).loopWrite s 0 at_
    else if runs new && !runs old then
      b.modSlot s (fun x => { ({} : LoopSlot) with fresh := true, x := if x.fresh then x.x else [0, 0, 0, 0, 0, 0] })
    else b
  if new = .standby then b1.modSlot s (fun _ => {}) else b1

/-- Each ACTIVE or SERVICE slot starts afresh: return from DOZE or HOLD (R294). -/
def Block.loopsAfresh (b : Block) : Block :=
  b.modLoops (fun l => { l with slots := l.slots.mapIdx (fun s x => if b.slotRuns s then {} else x) })

/-! ### The trace (R290 to R293) -/

/-- The block with the trace replaced by its image. -/
def Block.modTrace (b : Block) (f : Trace → Trace) : Block :=
  b.modLoops (fun l => { l with trace := f l.trace })

/-- One signal of the trace (R291). -/
def Block.traceSignal (b : Block) (sig : Byte × Byte) : Word :=
  let s := sig.1.toNat
  let x := b.slot s
  if sig.2 = 0xFF ∨ (b.unit (unitLoop s)).state = .standby then 0
  else
    match sig.2.toNat with
    | 0 => x.r
    | 1 => x.y
    | 2 => x.e
    | 3 => x.u
    | 4 => x.i
    | 5 => x.p
    | 6 => x.d
    | 7 => x.ff
    | 8 => x.yhat
    | 9 => x.profA
    | 10 => x.ySensor
    | _ => x.follow

/-- The 16 signals of one sample. -/
def Block.traceSample (b : Block) : List Word :=
  (List.range 16).map (fun k => b.traceSignal (nth b.eng.loop.trace.cfg.signals k (0, 0xFF)))

/-- The trigger condition at a sample (R292). -/
def Block.traceFires (b : Block) (t : Trace) (sample : List Word) : Bool :=
  let cur := nth sample (t.cfg.source.toNat % 16) 0
  match t.cfg.trigger.toNat with
  | 0 => true
  | 1 => match t.prev with
    | some p => flt p t.cfg.level && !flt cur t.cfg.level
    | none => false
  | 2 => match t.prev with
    | some p => flt t.cfg.level p && !flt t.cfg.level cur
    | none => false
  | _ => b.word .EVT_CNT t.cfg.source.toNat != t.seen

/-- The bytes of samples (R293). -/
def traceBytes (l : List (List Word)) : Bytes := (l.map (fun s => (s.map (fun w => leBytes 4 w.toNat)).flatten)).flatten

/-- A TRACE_DATA payload (R293). -/
def Trace.data (t : Trace) (first count : Nat) : Bytes :=
  leBytes 2 first ++ leBytes 1 count ++ leBytes 1 0 ++ leBytes 4 t.trigTick.toNat
    ++ traceBytes ((t.samples.drop first).take count)

/-- The trace is DONE: its event, and with STREAM its packets (R292, R293). -/
def Block.traceDone (b : Block) : Block :=
  let t := b.eng.loop.trace
  let b1 := (b.modTrace (fun t => { t with state := .done })).raise 107 1 payZ 48000
  match t.cfg.stream, t.owner with
  | true, some (k, _) =>
    (List.range ((t.samples.length + 20) / 21)).foldl (fun acc i =>
      acc.sendOwn k 0x0083 2 (t.data (21 * i) (min 21 (t.samples.length - 21 * i)))) b1
  | _, _ => b1

/-- The trace after the LOOP phase of a Tick (R292). -/
def Block.traceTick (b : Block) : Block :=
  let t := b.eng.loop.trace
  if t.state ≠ .armed ∧ t.state ≠ .triggered then b
  else if (b.time.count - t.armedAt).toNat % (t.cfg.decimation.toNat + 1) ≠ 0 then b
  else
    let sample := b.traceSample
    let pre := t.cfg.pre.toNat
    let fires := t.state == .armed && (t.forced || b.traceFires t sample)
    let all := lastN 4096 (t.samples ++ [sample])
    let kept := if fires then lastN (pre + 1) all else all
    let b1 := b.modTrace (fun t => { t with
      samples := kept, forced := false
      prev := some (nth sample (t.cfg.source.toNat % 16) 0)
      seen := b.word .EVT_CNT t.cfg.source.toNat
      state := if fires then .triggered else t.state
      trigIdx := if fires then kept.length - 1 else t.trigIdx
      trigTick := if fires then b.time.count else t.trigTick })
    let u := b1.eng.loop.trace
    if u.state = .triggered ∧ 4096 - pre ≤ kept.length - u.trigIdx then b1.traceDone else b1

/-- The row of TRACE_ARM (R357). -/
def traceArmRow : OpRow := opRow 0x0048 76

/-- The owner word of a session (R361). -/
def sessionOwner (id : BitVec 16) : Word := fieldAt 24 1 ||| BitVec.ofNat 32 id.toNat

/-- The session that owns the trace buffer, where it is not `k` (R290). -/
def Block.traceRival (b : Block) (k : Sys2Proof.Sess) : Option (BitVec 16) :=
  match b.eng.loop.trace.owner with
  | some (o, id) => if o = k then none else some id
  | none => none

/-- TRACE_ARM refused to all but the owner (R290, R399). -/
def dispatchTrace (h : Hdr) (d : Dispatch) : Dispatch := fun k seq arrived b =>
  match b.traceRival k with
  | some id =>
    (b.count .RES_CNT 0 15 0).replyNow (some k) h traceArmRow.code .resourceOwned
      (leBytes 4 (sessionOwner id).toNat)
  | none => d k seq arrived b

/-- Dispatch of TRACE_ARM RELEASE. -/
def dispatchTraceRelease (h : Hdr) : Dispatch := dispatchTrace h (fun k _ _ b =>
  (b.modTrace (fun _ => {})).replyNow (some k) h traceArmRow.code .ok)

/-- TRACE_ARM RELEASE (R290, R292). -/
def execTraceArmRelease (h : Hdr) (arm : TraceArm) : State → Host.Outcome State Fault Refusal :=
  lift (fun b => b.request (.traceArmRelease h arm) h traceArmRow (dispatchTraceRelease h))

/-- A field of an ARM is out of range (R291). -/
def armBad (a : TraceArm) : Bool :=
  3 < a.trigger.toNat || 4095 < a.pre.toNat
    || (a.trigger.toNat != 3 && a.trigger.toNat != 0 && 15 < a.source.toNat)
    || (a.trigger.toNat == 3 && 127 < a.source.toNat)
    || a.signals.any (fun s => 31 < s.1.toNat || (11 < s.2.toNat && s.2 != 0xFF))

/-- Dispatch of TRACE_ARM ARM. -/
def dispatchTraceArm (h : Hdr) (arm : TraceArm) : Dispatch := dispatchTrace h (fun k _ _ b =>
  if armBad arm then b.replyNow (some k) h traceArmRow.code .range
  else
    (b.modTrace (fun _ => { state := .armed, owner := some (k, (b.link.sess k).id), cfg := arm, armedAt := b.time.count
                            seen := b.word .EVT_CNT arm.source.toNat })).replyNow (some k) h
      traceArmRow.code .ok)

/-- TRACE_ARM ARM (R290, R291, R292). -/
def execTraceArmArm (h : Hdr) (arm : TraceArm) : State → Host.Outcome State Fault Refusal :=
  lift (fun b => b.request (.traceArmArm h arm) h traceArmRow (dispatchTraceArm h arm))

/-- Dispatch of TRACE_ARM FORCE. -/
def dispatchTraceForce (h : Hdr) : Dispatch := dispatchTrace h (fun k _ _ b =>
  if b.eng.loop.trace.state = .armed then
    (b.modTrace (fun t => { t with forced := true })).replyNow (some k) h traceArmRow.code .ok
  else b.replyNow (some k) h traceArmRow.code .busy)

/-- TRACE_ARM FORCE (R292): the next sample is the trigger sample. -/
def execTraceArmForce (h : Hdr) (arm : TraceArm) : State → Host.Outcome State Fault Refusal :=
  lift (fun b => b.request (.traceArmForce h arm) h traceArmRow (dispatchTraceForce h))

/-- The row of TRACE_READ (R357). -/
def traceReadRow : OpRow := opRow 0x0049 4

/-- Dispatch of TRACE_READ. -/
def dispatchTraceRead (h : Hdr) (first : BitVec 16) (count : Byte) : Dispatch := fun k _ _ b =>
  let t := b.eng.loop.trace
  if t.state ≠ .done then b.replyNow (some k) h traceReadRow.code .busy
  else if count.toNat < 1 ∨ 21 < count.toNat ∨ t.samples.length < first.toNat + count.toNat then
    b.replyNow (some k) h traceReadRow.code .range
  else b.replyNow (some k) h traceReadRow.code .ok (t.data first.toNat count.toNat)

/-- TRACE_READ (R293). -/
def execTraceRead (h : Hdr) (first : BitVec 16) (count : Byte) :
    State → Host.Outcome State Fault Refusal :=
  lift (fun b => b.request (.traceRead h first count) h traceReadRow (dispatchTraceRead h first count))

/-- The trace claim of a session ends (R290, R294). -/
def Block.traceLoss (b : Block) (k : Sys2Proof.Sess) : Block :=
  match b.eng.loop.trace.owner with
  | some (o, _) => if o = k then b.modTrace (fun _ => {}) else b
  | none => b

/-- An uncorrectable error in the trace buffer (R21, R292). -/
def Block.traceEcc (b : Block) : Block := b.modTrace (fun t => { t with state := .invalid })

end Sys2Proof.Machine
end

