-- ==== Sys2Proof/Machine/Power.lean ====
section
/-! DEFINITION. The power arbiter: the input budget, classes and shedding, boost energy, pull-in
    reservations (R297 to R310), and the power states (R311 to R316). -/

namespace Sys2Proof.Machine

open Sys2Proof (Word Byte Bytes Sess Hdr Instr VpwrInput WakeCause PowerPolicy)

/-! ### The input budget (R297 to R299) -/

/-- What CAPTURE latches for the next COMMIT (R299). -/
def Block.pwrLatch (b : Block) : PwrLatch :=
  let v := b.eng.valve
  { noz := BitVec.ofNat 96 ((v.noz.mapIdx (fun n x => if x.on then 2 ^ n else 0)).sum)
    props := v.props.map (fun x => x.dutyPm * x.meanMa)
    boosts := v.boosts.map (fun x => if x.state = .off then none else some x.avg)
    bridges := (b.eng.mot.units.take 8).map (·.ibus)
    drives := BitVec.ofNat 16 ((b.eng.mot.units.mapIdx (fun u m =>
      if m.seq == .run || (8 ≤ u && m.seq == .rampDown) then 2 ^ u else 0)).sum)
    vpwr := b.vpwrMv
    lsw := b.eng.lsw.map (fun s =>
      if !s.conducts then 0 else if s.seq = .inrush then max s.currentMa s.limitMa else s.currentMa) }

/-- IMAX_eff in uA (R297). -/
def Block.imaxEff (b : Block) : Int :=
  let n := (if b.sup.inA.present then 1 else 0) + (if b.sup.inB.present then 1 else 0)
  (min (b.fld .PWRB_BUDGET 0 9 0 * 100000) (40000000 * n) : Nat)

/-- A power in nW taken from VPWR as latched at CAPTURE, as a current in uA; at 0 V the manual gives none, and
    the value is free (log entry 2). -/
def Block.perVolt (b : Block) (nw : Nat) (free : Nat) : Int :=
  let v := b.eng.pwr.latch.vpwr
  if v = 0 then free else divRound nw v

/-- The charge of a nozzle channel whose spray PWM runs (R299). -/
def Block.chargeNoz (b : Block) (n free : Nat) : Int :=
  let r := b.fld .NOZ_LEARN n 15 0 * 10
  let hold := b.iHold n * b.iHold n * r
  let pull := b.fld .BANK_CFG (bankOf n) 31 21 * b.iPeak n * b.iPeak n * r * b.tPeak n / 10000000000
  b.perVolt (hold + pull) free

/-- Class 0: nozzles and proportional channels; one that has stopped since the latch is charged 0 A
    (R299, R301). -/
def Block.charge0 (b : Block) (free : Nat) : Int :=
  let l := b.eng.pwr.latch
  let noz := (List.range 96).map (fun n =>
    if l.noz.getLsbD n && (b.noz n).on then b.chargeNoz n free else 0)
  let props := (List.range 8).map (fun k =>
    if (b.prop k).seq = .quiet then (0 : Int) else ((nth l.props k 0 : Nat) : Int))
  noz.sum + props.sum

/-- The period starts of a channel that runs spray PWM, from now until an instant (R307). -/
def Noz.periodStarts (x : Noz) (till : Nat) : List Nat :=
  match x.on, x.nextPeriod with
  | true, some p =>
    if till ≤ p || x.periodNs == 0 then []
    else (List.range ((till - p - 1) / x.periodNs + 1)).map (fun k => p + k * x.periodNs)
  | _, _ => []

/-- The instant of a pull-in that waits, is deferred or is held through a shutdown (R307, R308). -/
def Block.waitingPull (b : Block) (n now : Nat) : Option Nat :=
  let x := b.noz n
  match x.seq with
  | .wait => some now
  | .quiet => x.deferUntil
  | _ => x.held.map (fun _ => max now (x.offAt + x.pset.minOff))

/-- The pull-ins that the block foresees on a boost within 100 ms of `now` (R299). -/
def Block.pullsSoon (b : Block) (c now : Nat) : Nat :=
  let till := now + 100000000
  ((List.range 96).map (fun n =>
    if boostOf (bankOf n) = c ∧ b.flag .BANK_CFG (bankOf n) 0 then
      ((b.noz n).periodStarts till).length + (if (b.waitingPull n now).isSome then 1 else 0)
        + ((b.lane n).eves.filter (fun e => match e.want with
            | some t => decide (t + e.delta.getD 0 < till)
            | none => false)).length
    else 0)).sum

/-- The charge of a boost (R299): its mean output, or the pull-ins foreseen, at EPULL each. -/
def Block.chargeBoost (b : Block) (c avg now free : Nat) : Int :=
  let soon := b.pullsSoon c now * b.fld .PWRB_CFG 0 15 8 * 1000000
  b.perVolt (max (avg * 10000000) soon * 100 / max 1 (b.fld .PWRB_CFG 0 31 24)) free

/-- The charge of the internal bridges that have not stopped since the latch: measured, or with the cap in
    force FLOOR for each one latched in RUN (R299, R301, R303). -/
def Block.chargeBridges (b : Block) (cap : Bool) : Int :=
  let l := b.eng.pwr.latch
  ((List.range 8).map (fun u =>
    if (b.mot u).seq = .quiet ∨ (b.mot u).seq = .fault then 0
    else if !cap then nth l.bridges u 0 * 1000
    else if l.drives.getLsbD u then ((b.fld .PWRB_BRIDGE 0 10 0 * 10000 : Nat) : Int)
    else 0)).sum

/-- Class 1 but for the internal bridges: boosts and gate-drive sets (R299). -/
def Block.charge1 (b : Block) (now free : Nat) : Int :=
  let l := b.eng.pwr.latch
  let boosts := (List.range 3).map (fun c =>
    match nth l.boosts c none with
    | some avg => if (b.boost c).state = .off then 0 else b.chargeBoost c avg now free
    | none => 0)
  let drives := (List.range 16).map (fun u =>
    if l.drives.getLsbD u && ((b.mot u).seq == .run || (b.mot u).seq == .rampDown) then
      ((b.fld .PWRB_BRIDGE 0 31 24 * 100000 : Nat) : Int) else 0)
  boosts.sum + drives.sum

/-- LSk is class 3 (R300). -/
def Block.sheddable (b : Block) (k : Nat) : Bool := b.flag .PWRB_GRANT 0 k

/-- The charge of a load switch in uA (R299). -/
def Block.chargeSw (b : Block) (k : Nat) : Int :=
  if (b.sw k).conducts then ((nth b.eng.pwr.latch.lsw k 0 * 1000 : Nat) : Int) else 0

/-- Classes 2 and 3 (R299). -/
def Block.chargeLoads (b : Block) (class3 : Bool) : Int :=
  ((List.range 16).map (fun k => if b.sheddable k = class3 then b.chargeSw k else 0)).sum

/-- The current by which inputs exceed 40 A over 1 s, in uA (R298). -/
def Block.overCharge (b : Block) : Int :=
  let ovr (i : Input) : Int := if 40000 < i.mean1s then ((i.mean1s - 40000) * 1000 : Nat) else 0
  ovr b.sup.inA + ovr b.sup.inB

/-- The charges of a COMMIT: the four classes, and the total, never less than 0 A (R299). -/
structure Charges where
  c0 : Int
  c1 : Int
  c2 : Int
  c3 : Int
  total : Int
  deriving DecidableEq, Repr

/-- Every charge recomputed (R299); `cap` says whether the bridge cap is charged. -/
def Block.charges (b : Block) (now free : Nat) (cap : Bool) : Charges :=
  let c0 := b.charge0 free
  let c1 := b.charge1 now free + b.chargeBridges cap
  let c2 := b.chargeLoads false
  let c3 := b.chargeLoads true
  { c0 := c0, c1 := c1, c2 := c2, c3 := c3, total := max 0 (c0 + c1 + c2 + c3 + b.overCharge) }

/-! ### Shedding (R302, R303) -/

/-- The arbiter may shed the switch: it is on and not held by Vigil (R303, R327). -/
def Block.mayShed (b : Block) (k : Nat) : Bool :=
  ((b.sw k).seq == .inrush || (b.sw k).seq == .on) && !(b.sw k).held

/-- A switch shed at a COMMIT (R303). -/
def Block.shedOne (b : Block) (k : Nat) (at_ : Nat) : Block :=
  ((b.lswOff k at_).modPwr (fun p => { p with shed := p.shed ++ [{ sw := k, since := none }] })).count
    .PWRB_CNT0 0 7 0

/-- What step 4 of a COMMIT has done so far: the total charge, the switches shed, the units restored, the start
    charges of the starts admitted in classes 2 and 3. -/
structure Arb where
  total : Int
  shed : List Nat := []
  restored : List Nat := []
  start2 : Int := 0
  start3 : Int := 0
  deriving DecidableEq, Repr

/-- Switches of a list shed in its order until the total is at most `limit` (R302, R303). -/
def Block.shedUntil (limit : Int) (at_ : Nat) : List Nat → Arb → Block → Arb × Block
  | [], a, b => (a, b)
  | k :: rest, a, b =>
    if a.total ≤ limit then (a, b)
    else if b.mayShed k then
      Block.shedUntil limit at_ rest { a with total := a.total - b.chargeSw k, shed := a.shed ++ [k] }
        (b.shedOne k at_)
    else Block.shedUntil limit at_ rest a b

/-- The switches of a class, highest index first. -/
def Block.classDown (b : Block) (class3 : Bool) : List Nat :=
  ((List.range 16).reverse).filter (fun k => b.sheddable k == class3)

/-- The present internal bridge units. -/
def Block.bridgeUnits (b : Block) : List Nat :=
  ((List.range 8).map unitMot).filter b.present

/-- Step 3 of R301: class 3 switches, the bridge cap, class 2 switches (R303). The answer says whether
    the cap was set. -/
def Block.shedToFit (b : Block) (total : Int) (at_ : Nat) : Arb × Bool × Block :=
  let limit := b.imaxEff
  if !b.flag .PWRB_CFG 0 0 then ({ total := total }, false, b)
  else
    let (a1, b1) := Block.shedUntil limit at_ (b.classDown true) { total := total } b
    let caps := decide (limit < a1.total) && !b1.eng.pwr.cap
    let (a2, b2) := if caps then
        ({ a1 with total := max 0 (a1.total - b1.chargeBridges false + b1.chargeBridges true) },
          b1.modPwr (fun p => { p with cap := true, capSince := none }))
      else (a1, b1)
    let (a3, b3) := Block.shedUntil limit at_ (b2.classDown false) a2 b2
    (a3, caps, b3)

/-- HYST in uA (R304). -/
def Block.hyst (b : Block) : Int := (b.fld .PWRB_BUDGET 0 31 24 * 100000 : Nat)

/-- A start of switch `k` admitted in step 4 (R301). -/
def Block.admitStart (k : Nat) (at_ : Nat) (a : Arb) (b : Block) : Arb × Block :=
  let c : Int := (b.startCharge k * 1000 : Nat)
  ({ a with total := a.total + c
            start2 := if b.sheddable k then a.start2 else a.start2 + c
            start3 := if b.sheddable k then a.start3 + c else a.start3 },
    (b.lswStart k at_).modPwr (fun p => { p with
      waits := p.waits.filter (fun w => w.sw != k), shed := p.shed.filter (fun x => x.sw != k) }))

/-- A shed switch whose restore is due is a new start, where the headroom still allows it (R304). -/
def Block.serveRestore (limit : Int) (at_ : Nat) (r : Arb × Block) (k : Nat) : Arb × Block :=
  let (a, b) := r
  let c : Int := (b.startCharge k * 1000 : Nat)
  let asks := b.eng.pwr.shed.any (fun x => x.sw == k && x.due) && (b.sw k).seq == .quiet && (b.sw k).asksOn
    && b.runs (unitLsw k) && b.vpwrPresent
  if asks && Decidable.decide (a.total + c + b.hyst ≤ limit) then
    Block.admitStart k at_ { a with restored := a.restored ++ [unitLsw k] } b
  else r

/-- One waiting start served in step 4 of R301, shedding class 3 for a class 2 start where that frees
    enough (R302). -/
def Block.serveStart (limit : Int) (at_ : Nat) (r : Arb × Block) (k : Nat) : Arb × Block :=
  let (a, b) := r
  if !b.lswReady k then r
  else
    let c : Int := (b.startCharge k * 1000 : Nat)
    let frees := ((List.range 16).map (fun j =>
      if b.sheddable j && b.mayShed j then b.chargeSw j else 0)).sum
    if a.total + c ≤ limit then Block.admitStart k at_ a b
    else if !b.sheddable k && Decidable.decide (a.total - frees + c ≤ limit) then
      let (a1, b1) := Block.shedUntil (limit - c) at_ (b.classDown true) a b
      Block.admitStart k at_ a1 b1
    else if b.fld .PWRB_GRANT 0 31 16 = 0 then (a, b.lswAbandon k at_)
    else if b.eng.pwr.waits.any (fun w => w.sw == k) then r
    else (a, b.modPwr (fun p => { p with waits := p.waits ++ [{ sw := k, since := b.now at_ }] }))

/-- The pending start or restore of a switch served in step 4 (R301, R304). -/
def Block.serve (limit : Int) (at_ : Nat) (r : Arb × Block) (k : Nat) : Arb × Block :=
  if r.2.isShed k then Block.serveRestore limit at_ r k else Block.serveStart limit at_ r k

/-- The total as it would be without the bridge cap (R304). -/
def Block.bareTotal (b : Block) (total : Int) : Int :=
  if b.eng.pwr.cap then max 0 (total - b.chargeBridges true + b.chargeBridges false) else total

/-- The bridge cap lifted in step 4, class 1 before the loads, where that is due and the headroom without it still
    allows it (R304). -/
def Block.serveCap (limit : Int) (r : Arb × Block) : Arb × Block :=
  let (a, b) := r
  let bare := b.bareTotal a.total
  if b.eng.pwr.cap && b.eng.pwr.capDue && Decidable.decide (bare + b.hyst ≤ limit) then
    ({ a with total := bare, restored := a.restored ++ b.bridgeUnits },
      b.modPwr (fun p => { p with cap := false, capSince := none, capDue := false }))
  else r

/-- A start queued behind DEMAG or COOL becomes a request at the first COMMIT after QUIET (R322). -/
def Block.lswQueued (b : Block) (k : Nat) : Block :=
  let s := b.sw k
  if s.queued && s.seq == .quiet && s.asksOn && b.runs (unitLsw k) && !b.isShed k then
    b.modSw k (fun s => { s with queued := false, want := true })
  else b

/-- The headroom that a restore must find, kept since when it has been found (R304). -/
def Block.trackRestores (b : Block) (head bare : Int) (now : Nat) : Block :=
  let since (ok : Bool) (old : Option Nat) : Option Nat := if ok then some (old.getD now) else none
  let fits (k : Nat) : Bool := Decidable.decide ((b.startCharge k * 1000 : Nat) + b.hyst ≤ head)
  let lifts := b.eng.pwr.cap && Decidable.decide (b.hyst ≤ bare)
  b.modPwr (fun p => { p with
    shed := p.shed.map (fun x => { x with since := since (fits x.sw) x.since, due := x.due && fits x.sw })
    capSince := since lifts p.capSince, capDue := p.capDue && lifts })

/-! ### Boost energy (R305) -/

/-- The energy of a boost between two output voltages in mV, in nJ. -/
def boostEnergy (capNf vout from_ : Nat) : Int :=
  (capNf * vout * vout / 2000000 : Nat) - (capNf * from_ * from_ / 2000000 : Nat)

/-- E of a boost now, 0 while it is not READY (R305, PWRB_BST_E). -/
def Block.boostE (b : Block) (c : Nat) : Int :=
  let x := b.boost c
  if x.state = .ready then boostEnergy x.capNf x.vout (b.boostReadyMv c) else 0

/-- E of a full boost (R305). -/
def Block.boostFull (b : Block) (c : Nat) : Int :=
  let x := b.boost c
  boostEnergy x.capNf x.setMv (b.boostReadyMv c)

/-- The energy a recharge begun at `since` gives from `t0` to `t1`: 40 W for its first 100 ms, then
    24 W (R205, R305). -/
def rechargeNj (since t0 t1 : Nat) : Int :=
  let fast := min t1 (since + 100000000) - t0
  (40 * fast + 24 * (t1 - t0 - fast) : Nat)

/-- E projected from `e` at `t` over the pull-ins of a list, in time order, to the instant `till`: each
    lets it fall by `epull`, and it recharges to `full` between them (R305). -/
def projectE (full epull : Int) (till : Nat) : List Nat → Int → Nat → Nat → Int
  | [], e, t, since => if full ≤ e then full else min full (e + rechargeNj since t till)
  | p :: rest, e, t, since =>
    if till ≤ p then (if full ≤ e then full else min full (e + rechargeNj since t till))
    else
      let e1 := if full ≤ e then full else min full (e + rechargeNj since t p)
      projectE full epull till rest (e1 - epull) p (if full ≤ e1 then p else since)

/-- When a boost is projected READY: at once, after its soft start, or when 24 W have recharged it;
    never while OFF or in FAULT (R305). -/
def Block.boostReadyAt (b : Block) (c now : Nat) : Option Nat :=
  let x := b.boost c
  let thr := b.boostReadyMv c
  match x.state with
  | .ready => some now
  | .softStart => if thr ≤ x.vout then some now else some (max now (x.since + 20000000))
  | .low => some (now + (boostEnergy x.capNf thr x.vout).toNat / 24)
  | _ => none

/-! ### Pull-in reservations (R306 to R309) -/

/-- A pull-in placed on a bank's timeline: its channel, its start, the end of its rise and of T_PEAK. -/
structure Pulled where
  noz : Nat
  at_ : Nat
  rise : Nat
  peak : Nat
  deriving DecidableEq, Repr

/-- A request of the Almanac: the entry, whether it is staged and not yet published, its predicted fire
    instant. -/
structure Reserve where
  noz : Nat
  order : Nat
  staged : Bool
  want : Nat
  deriving DecidableEq, Repr

/-- A pull-in of a channel at an instant; the manual does not say how long a rise the arbiter projects,
    which is a free length of at most T_PEAK (log entry 33). -/
def Block.pulled (b : Block) (free n t : Nat) : Pulled :=
  { noz := n, at_ := t, rise := t + min (b.tPeak n) free, peak := t + b.tPeak n }

/-- The holding load of a channel: it runs or is energised (R307). -/
def Block.holds (b : Block) (n : Nat) : Bool := (b.noz n).on || (b.noz n).seq.energised

/-- R209 admits a pull-in of channel `n` at `t` on its bank's timeline. -/
def Block.admits (b : Block) (l : List Pulled) (n t : Nat) : Bool :=
  let bank := bankOf n
  let mine := l.filter (fun p => bankOf p.noz == bank && decide (p.at_ ≤ t))
  let rising := (mine.filter (fun p => decide (t < p.rise))).length
  let load := ((bankChannels bank).map (fun m =>
    if mine.any (fun p => p.noz == m && decide (t < p.peak)) then b.iPeak m
    else if b.holds m || mine.any (fun p => p.noz == m) then b.iHold m else 0)).sum
  decide (rising < b.fld .BANK_CFG bank 4 2) && decide (load + b.iPeak n ≤ 8000)

/-- The starts of a list put in time order. -/
def insertTime (t : Nat) : List Nat → List Nat
  | [] => [t]
  | x :: rest => if t ≤ x then t :: x :: rest else x :: insertTime t rest

/-- R305 allows a pull-in of channel `n` at `t`. -/
def Block.energyAllows (b : Block) (l : List Pulled) (n t now : Nat) : Bool :=
  let bank := bankOf n
  let c := boostOf bank
  if !b.flag .BANK_CFG bank 0 then true
  else if (b.boost c).state = .ready then
    let epull : Int := (b.fld .PWRB_CFG 0 15 8 * 100000 : Nat)
    let times := (l.filter (fun p => boostOf (bankOf p.noz) == c && b.flag .BANK_CFG (bankOf p.noz) 0
      && decide (now ≤ p.at_))).foldl (fun acc p => insertTime p.at_ acc) []
    let e := projectE (b.boostFull c) epull t times (b.boostE c) now
      ((nth b.eng.pwr.recharge c none).getD now)
    decide (epull ≤ e)
  else if b.flag .BANK_CFG bank 1 then
    match b.boostReadyAt c now with
    | some r => decide (r ≤ t)
    | none => false
  else true

/-- R209 and R305 let the pull-in start at `t`. -/
def Block.admissibleAt (b : Block) (l : List Pulled) (now n t : Nat) : Bool :=
  b.admits l n t && b.energyAllows l n t now

/-- The first deferral in ns, in steps of 10 us to 400 us, at which the pull-in is admitted (R307). -/
def Block.firstDelta (b : Block) (l : List Pulled) (now n t : Nat) : Option Nat :=
  ((List.range 41).map (fun d => d * 10000)).find? (fun d => b.admissibleAt l now n (t + d))

/-- A channel has a period start within `w` of `t`: periods of length `p` from `o` on (R309). -/
def startNear (o p w t : Nat) : Bool :=
  if p = 0 ∨ t + w < o then false
  else
    let d := (t + p - o % p) % p
    decide (min d (p - d) ≤ w)

/-- How many channels of a set of banks have a period start near `t` (R309). -/
def Block.starts (b : Block) (firm : List (Nat × Nat)) (banks : List Nat) (w t : Nat) : Nat :=
  ((List.range 96).filter (fun m => banks.contains (bankOf m)
    && (((b.noz m).on && startNear (b.noz m).origin (b.noz m).periodNs w t)
        || firm.any (fun f => f.1 == m && startNear f.2 (b.periodNs (bankOf m)) w t)))).length

/-- The score of a lead-in at `t` (R309). -/
def Block.score (b : Block) (firm : List (Nat × Nat)) (n t : Nat) : Nat :=
  let bank := bankOf n
  let w := b.fld .PWRB_CFG 0 23 16 * 10000
  let others := (List.range 12).filter (fun k => boostOf k == boostOf bank && k != bank)
  4 * b.starts firm [bank] w t + b.starts firm others w t

/-- The deferral chosen with phase interleave (R309): of the admissible instants 50 us apart, the first
    with the lowest score. -/
def Block.interleave (b : Block) (l : List Pulled) (firm : List (Nat × Nat)) (now n t dmin : Nat) : Nat :=
  let tries := ((List.range 8).map (fun k => dmin + 50000 * (k + 1))).filter (fun d => decide (d ≤ 400000))
  (tries.foldl (fun (best : Nat × Nat) d =>
    if !b.admissibleAt l now n (t + d) then best
    else
      let s := b.score firm n (t + d)
      if s < best.2 then (d, s) else best) (dmin, b.score firm n (t + dmin))).1

/-- The entry of a reservation changed: in its lane, or where it is staged. -/
def Block.modReserved (b : Block) (r : Reserve) (f : Eve → Eve) : Block :=
  let g (l : List Eve) : List Eve := l.map (fun e => if e.order == r.order then f e else e)
  if r.staged then
    b.modAlmNoz r.noz (fun x => { x with staged := x.staged.map (fun s => { s with add := g s.add }) })
  else b.modLane r.noz (fun l => { l with eves := g l.eves })

/-- The predicted fire instants of kept entries renewed from the plan pass (R178, R306). -/
def Block.renewWants (b : Block) (n : Nat) : Block :=
  match (b.alm n).staged with
  | none => b
  | some s =>
    b.modLane n (fun l => { l with eves := l.eves.map (fun e =>
      match s.keep.find? (fun k => k.order == e.order) with
      | some k => if e.firm then e else { e with want := k.want }
      | none => e) })

/-- The projection of one request (R306, R307, R309): its deferral, fixed where the next Tick holds the
    predicted fire instant of an entry that was projected before, also one re-timed in this Tick's plan. -/
def Block.project (now edge free : Nat) (firm : List (Nat × Nat)) (r : List Pulled × Block)
    (q : Reserve) : List Pulled × Block :=
  let (l, b) := r
  let fix (e : Eve) (d : Nat) : Eve :=
    { e with delta := some d, firm := e.delta.isSome && decide (q.want < edge + 2 * tickNs) }
  match b.firstDelta l now q.noz q.want with
  | none => (l, (b.modReserved q (fun e => fix e 400000)).count .PWRB_CNT0 0 15 8)
  | some dmin =>
    let d := if b.flag .PWRB_CFG 0 1 then b.interleave l firm now q.noz q.want dmin else dmin
    let b1 := b.modReserved q (fun e => fix e d)
    let b2 := if d = 0 then b1 else b1.count .PWRB_CNT0 0 31 16
    let b3 := if dmin < d then b2.count .PWRB_CNT1 0 7 0 else b2
    (l ++ [b.pulled free q.noz (q.want + d)], b3)

/-- A request put in its place: by predicted fire instant, then by lane (R307). -/
def insertReserve (q : Reserve) : List Reserve → List Reserve
  | [] => [q]
  | x :: rest =>
    if q.want < x.want ∨ (q.want = x.want ∧ q.noz < x.noz) then q :: x :: rest
    else x :: insertReserve q rest

/-- The requests to be projected at this COMMIT: entries kept, and staged ones (R306). -/
def Block.requests (b : Block) : List Reserve :=
  ((List.range 96).flatMap (fun n =>
    let staged := (b.alm n).staged
    let gone (e : Eve) : Bool := match staged with
      | some s => s.retract.contains e.order
      | none => false
    let kept := (b.lane n).eves.filterMap (fun e =>
      if e.firm || gone e then none
      else e.want.map (fun t => { noz := n, order := e.order, staged := false, want := t : Reserve }))
    let added := match staged with
      | some s => s.add.filterMap (fun e =>
          e.want.map (fun t => { noz := n, order := e.order, staged := true, want := t : Reserve }))
      | none => []
    kept ++ added)).foldl (fun acc q => insertReserve q acc) []

/-- A FIRM entry whose reserved Tick has ended without a fire (R306). -/
def Block.offSlots (b : Block) (edge n : Nat) : Block :=
  let isOff (e : Eve) : Bool := e.firm && !e.off && (match e.want with
    | some t => decide (t < edge)
    | none => false)
  let k := ((b.lane n).eves.filter isOff).length
  if k = 0 then b
  else
    (b.modLane n (fun l => { l with
      eves := l.eves.map (fun e => if isOff e then { e with off := true } else e) })).count .PWRB_CNT1 0
        31 24 k

/-- The FIRM reservations, and those of entries retracted at this COMMIT, which hold their capacity until
    the next: channel and instant (R306, R307). -/
def Block.fixedPulls (b : Block) (firm : Bool) (now : Nat) : List (Nat × Nat) :=
  (List.range 96).flatMap (fun n =>
    let replaced (e : Eve) : Bool := match (b.alm n).staged with
      | some s => s.add.any (fun a => a.moved == some e.order)
      | none => false
    let gone (e : Eve) : Bool := match (b.alm n).staged with
      | some s => s.retract.contains e.order
      | none => false
    (b.lane n).eves.filterMap (fun e =>
      match e.want, e.delta with
      | some t, some d =>
        if e.firm then (if e.off then some (n, max now t + d) else some (n, t + d))
        else if !firm && gone e && !replaced e then some (n, t + d) else none
      | _, _ => none))

/-- Step 5 of R301: the bank timelines and the projection of every reservation (R306 to R309). -/
def Block.projectAll (b : Block) (at_ : Nat) : Block :=
  let now := b.now at_
  let edge := b.time.now
  let b1 := (List.range 96).foldl (fun acc n => (acc.renewWants n).offSlots edge n) b
  let reqs := b1.requests
  let b2 := if reqs.isEmpty then b1
    else
      let (free, b2) := b1.draw
      let till := reqs.foldl (fun t q => max t (q.want + 400001)) now
      let running := (List.range 96).flatMap (fun n =>
        let x := b2.noz n
        (if x.seq = .rise ∨ x.seq = .peak then [b2.pulled free n x.riseAt] else [])
          ++ ((b2.waitingPull n now).toList ++ x.periodStarts till).map (b2.pulled free n))
      let fixed := (b2.fixedPulls false now).map (fun f => b2.pulled free f.1 f.2)
      (reqs.foldl (Block.project now edge free (b2.fixedPulls true now)) (running ++ fixed, b2)).2
  let held := (List.range 96).flatMap (fun n =>
    let staged := match (b2.alm n).staged with
      | some s => s.add.filter (fun e => e.moved.isNone)
      | none => []
    ((b2.lane n).eves ++ staged).filter (fun e => e.delta.isSome))
  b2.modPwr (fun p => { p with
    resHeld := held.length, resFirm := (held.filter (·.firm)).length })

/-- The boosts' part of a COMMIT: E, and since when they recharge (R305). -/
def Block.trackEnergy (b : Block) (now : Nat) : Block :=
  b.modPwr (fun p => { p with
    boostE := (List.range 3).map (fun c => (b.boostE c).toNat)
    recharge := (List.range 3).map (fun c =>
      if (b.boost c).state = .ready ∧ b.boostFull c ≤ b.boostE c then none
      else some ((nth p.recharge c none).getD now)) })

/-- Step 4 of a COMMIT (R301). -/
def Block.arbiter (b : Block) (at_ : Nat) : Block :=
  let now := b.now at_
  let (free, b0) := b.draw
  let b1 := (List.range 16).foldl (fun acc k => acc.lswQueued k) b0
  let ch := b1.charges now free b1.eng.pwr.cap
  let limit := b1.imaxEff
  let (a1, caps, b2) := b1.shedToFit ch.total at_
  let ovr := decide (limit < a1.total)
  let b3 := if ovr then (b2.count .PWRB_CNT1 0 15 8).raiseLimited 0 1 payZ at_ else b2
  let order := (List.range 16).filter (fun k => !b3.sheddable k)
    ++ (List.range 16).filter (fun k => b3.sheddable k)
  let (a2, b4) := order.foldl (Block.serve limit at_) (if caps then (a1, b3) else Block.serveCap limit (a1, b3))
  let items := a2.shed.map unitLsw ++ (if caps then b4.bridgeUnits else [])
  let b5 := (b4.raiseItems 1 1 0 items at_).raiseItems 1 2 0 a2.restored at_
    (!b4.eng.pwr.shed.isEmpty || b4.eng.pwr.cap)
  let head := limit - a2.total
  let ch2 := b5.charges now free b5.eng.pwr.cap
  let b6 := (b5.trackRestores head (limit - b5.bareTotal a2.total) now).modPwr (fun p => { p with
    charge0 := ch2.c0, charge1 := ch2.c1
    charge2 := ch2.c2 + a2.start2, charge3 := ch2.c3 + a2.start3
    total := a2.total, head := head, allowance := head })
  (b6.trackEnergy now).projectAll at_

/-- SHED_RESTORE (R304): RESTORE_T has elapsed with the headroom there at every COMMIT, for a shed switch, or with
    `none` for the bridge cap: the next COMMIT serves the restore with the waiting starts (R301). -/
def execShedRestore (k : Option (Fin 16)) (at_ : Nat) : State → Host.Outcome State Fault Refusal :=
  lift (fun b =>
    let elapsed (since : Option Nat) : Bool := match since with
      | some t => Decidable.decide (t + b.fld .PWRB_BUDGET 0 23 16 * 100000000 ≤ b.now at_)
      | none => false
    b.modPwr (fun p =>
      match k with
      | some k => { p with shed := p.shed.map (fun x =>
          if x.sw = k.val then { x with due := x.due || elapsed x.since } else x) }
      | none => { p with capDue := p.cap && (p.capDue || elapsed p.capSince) }))

/-! ### The inputs (R297, R298) -/

/-- An input of the supplies. -/
def Supply.input (s : Supply) : VpwrInput → Input
  | .a => s.inA
  | .b => s.inB

/-- The block with the supplies replaced by their image. -/
def Block.modSup (b : Block) (f : Supply → Supply) : Block := { b with sup := f b.sup }

/-- The block with one input replaced by its image. -/
def Block.modInput (b : Block) (i : VpwrInput) (f : Input → Input) : Block :=
  match i with
  | .a => b.modSup (fun s => { s with inA := f s.inA })
  | .b => b.modSup (fun s => { s with inB := f s.inB })

/-- The number of an input in payloads (R429). -/
def inputNo : VpwrInput → Nat
  | .a => 0
  | .b => 1

/-- An input lost: INPUT_LOST (R298). -/
def Block.inputLost (b : Block) (i : VpwrInput) (mv : Nat) : Block :=
  if (b.sup.input i).present then
    ((b.modInput i (fun x => { x with present := false, lost := true, mv := mv })).motorsSettle b.time.hand).raise 3 1
      (payS (inputNo i + mv * 2 ^ 32))
  else b.modInput i (fun x => { x with mv := mv })

/-- An input present: its return after a loss is raised (R298, R317), and where no input was present the
    output stages take up their commands at the next COMMIT (R489). -/
def Block.inputPresent (b : Block) (i : VpwrInput) (mv : Nat) : Block :=
  if (b.sup.input i).present then b.modInput i (fun x => { x with mv := mv })
  else
    let alone := !b.vpwrPresent
    let b1 := (b.modInput i (fun x => { x with present := true, lost := false, mv := mv })).modSup (fun s => { s with
      resume := s.resume || alone })
    if (b.sup.input i).lost then
      b1.raise 3 2 (payS (inputNo i + mv * 2 ^ 32)) 0 (b1.sup.inA.lost || b1.sup.inB.lost)
    else b1

/-- INPUT_OVER (R298): the mean current of one input over 1 s, in mA. -/
def execInputOver (i : VpwrInput) (meanMa : Nat) : State → Host.Outcome State Fault Refusal :=
  lift (fun b =>
    let ovr := decide (40000 < meanMa)
    let b1 := b.modInput i (fun x => { x with mean1s := meanMa, overLatched := ovr })
    if ovr && !(b.sup.input i).overLatched then
      b1.raise 4 1 (payS (inputNo i + meanMa * 2 ^ 32))
    else b1)

/-- VPWR_INPUT_LOST (R297, R298): below 8.5 V. -/
def execVpwrInputLost (i : VpwrInput) (mv : Nat) : State → Host.Outcome State Fault Refusal :=
  lift (fun b => if mv < 8500 then b.inputLost i mv else b)

/-- VPWR_INPUT_PRESENT (R297, R487): at least 9.0 V on the bus side of its closed switch. -/
def execVpwrInputPresent (i : VpwrInput) (mv : Nat) : State → Host.Outcome State Fault Refusal :=
  lift (fun b => if 9000 ≤ mv ∧ (b.sup.input i).closed then b.inputPresent i mv else b)

/-- The output stages take up their commands at the first COMMIT after VPWR has come back: a boost starts
    again from SOFT_START (R489). -/
def Block.supplyResume (b : Block) (at_ : Nat) : Block :=
  if b.sup.resume then
    let b1 := b.modSup (fun s => { s with resume := false })
    ((List.range 3).foldl (fun acc c =>
      if (acc.boost c).state = .off ∨ (acc.boost c).state = .fault then acc
      else acc.boostTo c .softStart at_) b1).motorsSettle at_
  else b

/-! ### Power states (R311 to R315) -/

/-- The code of a power state (DEV_PSTATE.STATE). -/
def PState.code : PState → Nat
  | .active => 0
  | .idle => 1
  | .doze => 2
  | .hold => 3
  | .dormant => 4

/-- The longest exit latency of a power state in us (R311). -/
def PState.latency : PState → Nat
  | .active => 0
  | .idle => 20
  | .doze => 1000
  | .hold => 30000
  | .dormant => 400000

/-- An output is energised (R312). -/
def Block.energised (b : Block) : Bool :=
  let v := b.eng.valve
  v.noz.any (fun x => x.seq != .quiet) || (List.range 12).any b.hsOn
    || v.props.any (fun x => x.seq != .quiet) || b.eng.mot.units.any (fun m => m.seq != .quiet)
    || b.eng.lsw.any (·.conducts) || v.boosts.any (fun x => x.state != .off)

/-- A unit of the output kinds is ACTIVE or SERVICE (R312). -/
def Block.outputUnit (b : Block) : Bool :=
  (List.range 136).any b.runs || (List.range 3).any (fun c => b.runs (unitBst c))

/-- A transaction is open (R312, R384). -/
def Session.inTxn (x : Session) : Bool := x.txn.state == .opened || x.txn.state == .committing

/-- The tolerance in force in us: the smaller copy of the open sessions, none with none open (R380). -/
def Block.tolerance (b : Block) : Option Nat :=
  let of (k : Sess) : Option Nat := if b.isOpen k then some (b.sessWord k .DEV_LTOL).toNat else none
  match of .main, of .service with
  | some x, some y => some (min x y)
  | some x, none => some x
  | none, y => y

/-- The tolerance allows a state (R313). -/
def Block.tolerates (b : Block) (s : PState) : Bool :=
  match b.tolerance with
  | some t => decide (s.latency ≤ t)
  | none => true

/-- The conditions of R312 that do not hold, as DEV_PSTATE.BLOCK shows them; bit 7 where the tolerance
    does not reach the deepest state. -/
def Block.blocks (b : Block) : Nat :=
  let bit (n : Nat) (p : Bool) : Nat := if p then 2 ^ n else 0
  bit 0 b.energised + bit 1 (b.eng.alm.lanes.any (fun l => !l.eves.isEmpty))
    + bit 2 (b.eng.loop.trace.state == .armed || b.eng.loop.trace.state == .triggered)
    + bit 3 b.outputUnit + bit 4 (b.link.main.inTxn || b.link.service.inTxn)
    + bit 5 (b.isOpen .service) + bit 6 (b.sup.key && !b.flag .DEV_PCTRL 0 3)
    + bit 7 (!b.tolerates .dormant)

/-- The conditions of a state's row and of every row above it hold (R312). -/
def condMask : PState → Nat
  | .active => 0
  | .idle => 0
  | .doze => 7
  | .hold => 31
  | .dormant => 127

/-- A state may be the target (R313). -/
def Block.mayEnter (b : Block) (blocks : Nat) (s : PState) : Bool :=
  let enabled := match s with
    | .doze => b.flag .DEV_PCTRL 0 0
    | .hold => b.flag .DEV_PCTRL 0 1
    | .dormant => b.flag .DEV_PCTRL 0 2
    | _ => true
  enabled && b.tolerates s && (blocks &&& condMask s) == 0

/-- The target after a COMMIT (R313). -/
def Block.targetState (b : Block) (blocks : Nat) : PState :=
  if b.mayEnter blocks .dormant then .dormant
  else if b.mayEnter blocks .hold then .hold
  else if b.mayEnter blocks .doze then .doze
  else if b.mayEnter blocks .idle then .idle
  else .active

/-- The choice of a power state after a COMMIT: IDLE is entered at once, the dwells of the deeper states
    run (R313). -/
def Block.chooseState (b : Block) (at_ : Nat) : Block :=
  let blocks := b.blocks
  let t := b.targetState blocks
  let now := b.now at_
  let since (s : PState) (old : Option Nat) : Option Nat :=
    if s.code ≤ t.code then some (old.getD now) else none
  b.modPwr (fun p => { p with
    block := blocks, target := t
    state := if p.state = .active ∧ 1 ≤ t.code then .idle else p.state
    dozeSince := since .doze p.dozeSince, holdSince := since .hold p.holdSince
    dormSince := since .dormant p.dormSince })

/-- DEV_PSTATE as published. -/
def Block.pstateWord (b : Block) : Word :=
  let p := b.pub.pwr
  fieldAt 8 p.block ||| fieldAt 4 p.target.code ||| fieldAt 0 p.state.code

/-- The dwell of a state has elapsed (R313). -/
def Block.dwelt (b : Block) (since : Option Nat) (ns : Nat) (at_ : Nat) : Bool :=
  match since with
  | some t => decide (t + ns ≤ b.now at_)
  | none => false

/-- DOZE_DWELL_EXPIRY (R313). -/
def execDozeDwellExpiry (at_ : Nat) : State → Host.Outcome State Fault Refusal :=
  lift (fun b =>
    let p := b.eng.pwr
    if p.state.code ≤ 1 ∧ 2 ≤ p.target.code ∧ b.dwelt p.dozeSince (b.fld .DEV_PCTRL 0 15 8 * 10000000) at_ then
      b.modPwr (fun p => { p with state := .doze })
    else b)

/-- The orderly entry to HOLD or DORMANT (R314): a freeze ends (R442), the Diary's records are completed,
    learned valve data, the real-time clock and the drained number are written, the Tick stops; fills and
    faults of the map end (R160). -/
def Block.powerDown (b : Block) (s : PState) (at_ : Nat) : Block :=
  let b0 := Block.flushDiary at_ 4300 (b.thaw (some 4) at_)
  let b1 := b0.saveLearned (b.now at_)
  let b2 := b1.rtcWrite at_ b1.time.rtc.valid
  let b3 := b2.mapSessionLoss
  (b3.saveDrained at_).modPwr (fun p => { p with state := s })

/-- HOLD_DWELL_EXPIRY (R313, R314). -/
def execHoldDwellExpiry (at_ : Nat) : State → Host.Outcome State Fault Refusal :=
  lift (fun b =>
    let p := b.eng.pwr
    if p.state.code ≤ 2 ∧ 3 ≤ p.target.code
        ∧ b.dwelt p.holdSince (b.fld .DEV_PCTRL 0 23 16 * 100000000) at_ then
      b.powerDown .hold at_
    else b)

/-- DORMANT_DWELL_EXPIRY (R313, R314). -/
def execDormantDwellExpiry (at_ : Nat) : State → Host.Outcome State Fault Refusal :=
  lift (fun b =>
    let p := b.eng.pwr
    if p.state.code ≤ 3 ∧ p.target = .dormant
        ∧ b.dwelt p.dormSince (b.fld .DEV_PCTRL 0 31 24 * 1000000000) at_ then
      b.powerDown .dormant at_
    else b)

/-- The code of a wake event (DEV_WAKE.LAST_CAUSE). -/
def wakeCode : WakeCause → Nat
  | .packet => 1
  | .canFrame => 2
  | .event => 3
  | .key => 4
  | .ecuPower => 5
  | .input => 6
  | .alarm => 7
  | .condition => 8
  | .latency => 9

/-- A wake event that the present state knows (R311, R313). -/
def wakes (s : PState) (c : WakeCause) : Bool :=
  match s, c with
  | .idle, _ => true
  | .doze, .packet => true
  | .doze, .canFrame => true
  | .doze, .event => true
  | .doze, .key => true
  | .doze, .condition => true
  | .doze, .latency => true
  | .hold, .packet => true
  | .hold, .canFrame => true
  | .hold, .key => true
  | .hold, .ecuPower => true
  | .hold, .input => true
  | .hold, .alarm => true
  | .hold, .latency => true
  | _, _ => false

/-- Device time after HOLD: rebuilt from the real-time clock, the Tick count advanced by the whole Ticks
    elapsed, the servo FREE (R40, R42, R68); the position is no longer initialised (R133), and
    writebacks start over (R160); coil temperatures start at the baseplate's (R225). -/
def Block.leaveHold (b : Block) (heldTicks : Nat) : Block :=
  let b1 := b.modTime (fun t =>
    let now := t.now + heldTicks * tickNs
    let rtc := t.rtc.upTo now
    { t with now := now, rtc := rtc, dev := rtc.deviceTime, count := t.count + BitVec.ofNat 32 heldTicks
             rebuilt := true, freqHist := [], residual := 0, sat := false })
  let b2 := (((b1.servoTo .free 0).modPose Pose.uninit).regrade 0).modValve (fun v => { v with
    noz := v.noz.map (fun x =>
      let t := b.evt.baseTemp * 1000000
      { x with temp := t, tempAt := b1.time.now, tband := tempBand t }) })
  (List.range 4).foldl (fun acc i => acc.sendWriteback i 0 0) b2

/-- The return to ACTIVE with the wake event that caused it (R311, R317); slots start afresh after DOZE
    and HOLD (R294). The dwells go on while the target stays (R313); after HOLD, in which no COMMIT takes a
    target, they start over (DEDUCED, log entry 55). -/
def Block.wake (b : Block) (c : WakeCause) (heldTicks : Nat) : Block :=
  let s := b.eng.pwr.state
  let b1 := if s = .hold then b.leaveHold heldTicks else b
  let b2 := b1.modPwr (fun p =>
    if s = .hold then { p with state := .active, dozeSince := none, holdSince := none, dormSince := none }
    else { p with state := .active })
  if s = .idle then b2
  else
    let b3 := (b2.loopsAfresh.modPwr (fun p => { p with lastCause := wakeCode c })).modTime (fun t => { t with
      dozing := s == .doze })
    b3.raise 5 1 (payS (wakeCode c + s.code * 256))

/-- WAKE_EVENT (R311, R313, R314): `heldTicks` is the whole Ticks that a HOLD lasted, by the real-time
    clock. -/
def execWakeEvent (cause : WakeCause) (heldTicks : Nat) : State → Host.Outcome State Fault Refusal :=
  lift (fun b => if wakes b.eng.pwr.state cause then b.wake cause heldTicks else b)

/-- KEY_CHANGE (R485): active above 6.0 V, inactive below 3.0 V, filtered over 10 ms. -/
def execKeyChange (mv : Nat) (stableNs : Nat) (_at : Nat) : State → Host.Outcome State Fault Refusal :=
  lift (fun b =>
    if stableNs < 10000000 then b
    else b.modSup (fun s => { s with
      key := if 6000 < mv then true else if mv < 3000 then false else s.key }))

/-! ### POWER_POLICY (R316) -/

/-- The row of POWER_POLICY (R357). -/
def powerPolicyRow : OpRow := opRow 0x0058 16

/-- An alarm that R316 refuses. -/
def Block.alarmBad (b : Block) (p : PowerPolicy) : Bool :=
  let a := p.alarm.toNat
  p.setAlarm && a != 0
    && (decide (2 ^ 34 ≤ a) || decide ((a : Int) ≤ stampSeconds b.time.dev b.time.taiUtc))

/-- Dispatch of POWER_POLICY (R316). -/
def dispatchPolicy (h : Hdr) (p : PowerPolicy) (i : Instr) : Dispatch := fun k seq arrived b =>
  if b.alarmBad p then b.replyNow (some k) h powerPolicyRow.code .range
  else if p.dormantNow && (b.blocks &&& 63) != 0 then
    b.replyNow (some k) h powerPolicyRow.code .busy (leBytes 4 b.pstateWord.toNat)
  else b.posts seq arrived k h powerPolicyRow.code i

/-- POWER_POLICY at its COMMIT (R316): the tolerance of the sender's session, the alarm. -/
def Block.policyApply (b : Block) (k : Sess) (p : PowerPolicy) : Block :=
  let b1 := if p.setLtol then b.setSessWord k .DEV_LTOL 0 p.ltol else b
  if p.setAlarm then
    b1.modTime (fun t => { t with rtc := { t.rtc with
      alarm := BitVec.ofNat 34 p.alarm.toNat, alarmEn := p.alarm != 0 } })
  else b1

/-- POWER_POLICY with SET_LTOL (R316). -/
def execPowerPolicySetLtol (h : Hdr) (p : PowerPolicy) : State → Host.Outcome State Fault Refusal :=
  let i : Instr := .powerPolicySetLtol h p
  lift (fun b => b.request i h powerPolicyRow (dispatchPolicy h p i))

/-- POWER_POLICY with SET_ALARM (R316). -/
def execPowerPolicySetAlarm (h : Hdr) (p : PowerPolicy) : State → Host.Outcome State Fault Refusal :=
  let i : Instr := .powerPolicySetAlarm h p
  lift (fun b => b.request i h powerPolicyRow (dispatchPolicy h p i))

/-- POWER_POLICY with DORMANT_NOW (R316). -/
def execPowerPolicyDormantNow (h : Hdr) (p : PowerPolicy) : State → Host.Outcome State Fault Refusal :=
  let i : Instr := .powerPolicyDormantNow h p
  lift (fun b => b.request i h powerPolicyRow (dispatchPolicy h p i))

end Sys2Proof.Machine
end

