-- ==== Sys2Proof/Machine/Debug.lean ====
section
/-! DEFINITION. The debug port (14): R418 to R421. -/

namespace Sys2Proof.Machine

open Sys2Proof (Word Byte Bytes Sess Hdr Instr)

/-- The block with Vigil replaced by its image. -/
def Block.modVig (b : Block) (f : Vigil → Vigil) : Block := { b with vig := f b.vig }

/-- The challenge renewed: a free value (R419, log entry 2). -/
def Block.renewChallenge (b : Block) : Block :=
  let (v, b1) := b.draw
  b1.modVig (fun g => { g with challenge := BitVec.ofNat 128 v })

/-- The resume of a halt: the PWM units wait for their next period start (R267), and the overrun count starts from 0 (R420, R421). -/
def Block.dbgResume (b : Block) (at_ : Nat) : Block :=
  if b.vig.dbg = .halted then
    (((b.modVig (fun g => { g with dbg := .unlocked })).motorThaw).modTime (fun t => { t with run := 0 })).raise 118 1
      (payS 4) at_
  else b

/-- The port locks; a halt ends first (R419). -/
def Block.dbgLock (b : Block) (at_ : Nat) : Block :=
  let b1 := b.dbgResume at_
  if b1.vig.dbg = .locked then b1
  else (b1.modVig (fun g => { g with dbg := .locked })).raise 118 1 (payS 2) at_

/-- The response that the present challenge wants (R419). -/
def Block.dbgResponse (b : Block) : Bytes :=
  hmacSha256 b.link.keyService (ascii "VRKG1" ++ leBytes 16 b.vig.challenge.toNat
    ++ leBytes 8 b.ident.serial.toNat)

/-- The response in VIG_DBG_RESP. -/
def Block.dbgGiven (b : Block) : Bytes :=
  ((List.range 8).map (fun w => leBytes 4 (b.sessWord .service .VIG_DBG_RESP w).toNat)).flatten

/-- An unlock attempt (R419): three wrong responses within 60 s lock attempts out for 10 s. -/
def Block.dbgUnlock (b : Block) (at_ : Nat) : Block :=
  let now := b.now at_
  let out := b.vig.dbgLockSince.any (fun t => decide (now < t + 10000000000))
  if !out && b.dbgGiven == b.dbgResponse then
    let b1 := b.renewChallenge
    if b.vig.dbg = .locked then
      (b1.modVig (fun g => { g with dbg := .unlocked })).raise 118 1 (payS 1) at_
    else b1
  else
    let fails := if out then b.vig.dbgFails
      else b.vig.dbgFails.filter (fun t => decide (now < t + 60000000000)) ++ [now]
    let b1 := (b.renewChallenge.modVig (fun g => { g with
      dbgFails := fails
      dbgLockSince := if !out && Nat.ble 3 fails.length then some now else g.dbgLockSince })).count .VIG_DBG_STAT 0 23 16
    b1.raise 119 1 payZ at_

/-- A PWM unit is ACTIVE or SERVICE (R420). -/
def Block.motorLive (b : Block) : Bool := (List.range 16).any (fun u => b.runs (unitMot u))

/-- DEBUG_HALT (R420): refused with a live motor unit unless ALLOW_LIVE is set. -/
def execDebugHalt (at_ : Nat) : State → Host.Outcome State Fault Refusal :=
  lift (fun b =>
    if b.vig.dbg ≠ .unlocked then b
    else if b.motorLive && !(b.sessWord .service .VIG_DBG_CTRL).getLsbD 2 then
      b.count .VIG_DBG_STAT 0 31 24
    else
      ((b.motorFreeze at_).modVig (fun g => { g with
        dbg := .halted, haltSince := b.now at_, haltLimited := false })).raise 118 1 (payS 3) at_)

/-- DEBUG_RESUME (R420). -/
def execDebugResume (at_ : Nat) : State → Host.Outcome State Fault Refusal :=
  lift (fun b => b.dbgResume at_)

/-- DEBUG_LOCKOUT_END (R419): after 10 s. -/
def execDebugLockoutEnd (at_ : Nat) : State → Host.Outcome State Fault Refusal :=
  lift (fun b =>
    match b.vig.dbgLockSince with
    | some t => if t + 10000000000 ≤ b.now at_ then b.modVig (fun g => { g with dbgLockSince := none }) else b
    | none => b)

end Sys2Proof.Machine
end

