-- ==== Sys2Proof/Machine/Session.lean ====
section
/-! DEFINITION. Sessions, the requests of the Varrik protocol itself, fences and the Ethernet ports (12,
    17): R331 to R358, R490, R491, R495. -/

namespace Sys2Proof.Machine

open Sys2Proof (Word Byte Bytes Sess Hdr Instr EthPort BadRequest Kinded)

/-- The block with the Varrik endpoint replaced by its image. -/
def Block.modLink (b : Block) (f : Link → Link) : Block := { b with link := f b.link }

/-! ### The end and the reset of a session (R347) -/

/-- What ends with a session, or is withdrawn by its reset: requests not dispatched, requests dispatched
    that act at a COMMIT not yet begun, the transaction, the replies kept. -/
def Block.withdraw (b : Block) (k : Sess) (ended : Bool) : Block :=
  let source : ReqSource := match k with
    | .main => .main
    | .service => .service
  let stays (p : InProgress) : Bool :=
    if ended then p.ends == .final && p.opcode != 0x0019 && p.opcode != 0x0005
    else p.ends != .commit && p.opcode != 0x0019
  let b1 := b.modLink (fun l => { l with
    queues := l.queues.map (fun q => q.filter (fun w => w.sess != some k))
    progress := l.progress.filter (fun p => p.sess != k || stays p) })
  let b2 : Block := { b1 with
    posted := b1.posted.filter (fun p => p.sess != some k || (match p.act with
      | .loss _ _ => true
      | _ => false))
    vig := { b1.vig with
      reqs := b1.vig.reqs.filter (fun r => r.source != source)
      units := b1.vig.units.map (fun e => if e.queued = some source then { e with queued := none } else e) } }
  b2.modSess k (fun s => { s with
    replies := []
    txn := { num := s.txn.num, lastStatus := s.txn.lastStatus, lastIndex := s.txn.lastIndex } })

/-- The session-loss state of a unit that session `k` governs; none keeps it as it is (R294, R328,
    R410). -/
def Block.lossState (b : Block) (k : Sess) (u : Nat) : Option UnitState :=
  let or (fenced : Bool) : Option UnitState := some (if fenced then .fenced else .standby)
  let unless_ (kept : Bool) : Option UnitState := if kept then none else some .standby
  if k = .service then some .standby
  else if u < 96 then or (b.flag .VIG_SLOSS 0 0)
  else if u < 104 then or (b.flag .VIG_SLOSS 0 1)
  else if u < 120 then unless_ (b.flag .LSW_CFG (u - 104) 3)
  else if u < 136 then or (b.flag .VIG_SLOSS 0 2)
  else if u < 168 then unless_ (b.flag .LOOP_CFG (u - 136) 13)
  else if u < 200 then unless_ (!b.flag .VIG_SLOSS 0 3)
  else unless_ (b.flag .VIG_SLOSS 0 4)

/-- The part of a session's end or reset that takes place at the next COMMIT, posted, with the
    session-loss states of the units it governs (R347, R410). -/
def Block.postLoss (b : Block) (k : Sess) (ended : Bool) (at_ : Nat) : Block :=
  let seq := b.link.arrivals
  let b1 : Block := { (b.reaches at_).modLink (fun l => { l with arrivals := seq + 1 }) with
    posted := b.posted ++ [{ seq := seq, sess := some k, arrived := b.now at_, since := (b.reaches at_).stagedAt, act := .loss k ended }] }
  (List.range 203).foldl (fun acc u =>
    if acc.governor u = some k then
      match acc.lossState k u with
      | some t => acc.postUnit { unit := u, source := .vigil, target := t, cause := .sessionLoss }
      | none => acc
    else acc) b1

/-- The code of LINK_SESS.END (R373). -/
def SessEnd.code : SessEnd → Nat
  | .none => 0
  | .keepalive => 1
  | .linkLost => 2
  | .close => 3
  | .reset => 4
  | .helloExpired => 5
  | .authFailed => 6

/-- What ends with a session besides its requests: its freeze of the Diary (R442), the debug unlock with
    the SERVICE session (R419). -/
def Block.sessionThaw (b : Block) (k : Sess) (at_ : Nat) : Block :=
  match b.diary.freeze with
  | some f => if f.by_ = k then b.thaw (some 3) at_ else b
  | none => b

/-- A session ends (R347): every cause but SESSION_CLOSE raises the session-loss event. -/
def Block.endSession (b : Block) (k : Sess) (cause : SessEnd) (at_ : Nat) : Block :=
  let wasOpen := b.isOpen k
  let b1 := if wasOpen then (b.withdraw k true).postLoss k true at_ else b
  let b2 := b1.modSess k (fun s => { s with
    state := .closed, id := 0, addr := 0, port := 0, hostNonce := [], devNonce := [], endCause := cause
    events := [], evDiscarded := 0, latches := {} })
  let b3 := b2.sessionThaw k at_
  let b4 := if wasOpen && k == .service then b3.dbgLock at_ else b3
  if wasOpen && cause != .close then b4.raise 6 1 (payS (sessIndex k + cause.code * 256)) at_ else b4

/-- KEEPALIVE_TIMEOUT (R346, R347). -/
def execKeepaliveTimeout (k : Sess) (at_ : Nat) : State → Host.Outcome State Fault Refusal :=
  lift (fun b =>
    let ms := match k with
      | .main => b.fld .LINK_SESS_CFG 0 12 0
      | .service => b.fld .LINK_SESS_CFG 0 28 16
    if b.isOpen k ∧ (b.link.sess k).since + ms * 1000000 ≤ b.now at_ then b.endSession k .keepalive at_
    else b)

/-- HELLO_TIMEOUT (R343): 1 s without a PROOF. -/
def execHelloTimeout (k : Sess) (at_ : Nat) : State → Host.Outcome State Fault Refusal :=
  lift (fun b =>
    if (b.link.sess k).state = .hello ∧ (b.link.sess k).since + 1000000000 ≤ b.now at_ then
      b.endSession k .helloExpired at_
    else b)

/-! ### Requests outside a session -/

/-- A dispatch without a session. -/
abbrev FreeDispatch := Nat → Block → Block

/-- A request with session 0 arrives: the later checks of R338. -/
def Block.arriveFree (b : Block) (i : Instr) (h : Hdr) (op : OpRow) (d : FreeDispatch) : Block :=
  if queueSlots h.queue ≤ (b.queue h.queue).length then
    (((b.count .LINK_CNT1 0 15 0).count .CMDQ_BUSY h.queue.val 15 0).raiseLimited 17 1
      (payS h.queue.val) h.at_).replyNow none h op.code .busy
  else if !op.lengthOk h.len then b.replyNow none h op.code .badLength
  else if hintTooFar b.time.count h.hint then b.replyNow none h op.code .range
  else
    let seq := b.link.arrivals
    let b1 := ((b.reaches h.at_).arrives h).peak h.queue ((b.queue h.queue).length + 1)
    if (b.queue h.queue).isEmpty && !b.held h && b.roomFor h then d (b.now h.at_) (b1.dispatched h)
    else b1.enqueue { seq := seq, sess := none, arrived := b.now h.at_, hdr := h, opcode := op.code
                      req := i }

/-! ### NOP and IDENTIFY (R358) -/

/-- The row of NOP (R357). -/
def nopRow : OpRow := { code := 0x0001, lengthOk := fun n => decide (n ≤ 1400) }

/-- Dispatch of NOP (R358). -/
def dispatchNop (h : Hdr) (payload : Bytes) : Dispatch := fun k _ _ b =>
  b.replyNow (some k) h nopRow.code .ok payload

/-- NOP (R358). -/
def execNop (h : Hdr) (payload : Bytes) : State → Host.Outcome State Fault Refusal :=
  lift (fun b => b.request (.nop h payload) h nopRow (dispatchNop h payload))

/-- The code of a variant (DEV_ID.VARIANT). -/
def Variant.code : Variant → Nat
  | .f => 1
  | .s => 2
  | .p => 3

/-- DEV_ID (R7). -/
def Block.devId (b : Block) : Word :=
  fieldAt 16 0xC096 ||| fieldAt 8 b.ident.variant.code ||| fieldAt 4 b.ident.boardIssue.toNat
    ||| fieldAt 0 b.ident.asicStep.toNat

/-- What the manifest of a slot's image says (R456). -/
def Slot.info (s : Slot) : Manifest :=
  match s.image with
  | none => s.factory
  | some m =>
    { svn := leAt 12 2 m, fwMajor := leAt 16 1 m, fwMinor := leAt 17 1 m, fwBuild := leAt 18 2 m % 16384
      vigMajor := leAt 20 1 m, vigMinor := leAt 21 1 m, schema := leAt 22 2 m }

/-- A firmware slot: false for A, true for B. -/
def Update.slot (u : Update) (k : Bool) : Slot := if k then u.slotB else u.slotA

/-- The manifest of the running image. -/
def Block.runInfo (b : Block) : Manifest := (b.upd.slot b.upd.running).info

/-- DEV_FWVER (R7): TRIAL while the running image awaits confirmation. No image runs in recovery mode,
    where it is 0 (R473). -/
def Block.devFwver (b : Block) : Word :=
  let m := b.upd.info
  if b.upd.recovery then 0
  else fieldAt 24 m.fwMajor ||| fieldAt 16 m.fwMinor ||| fieldAt 2 m.fwBuild
    ||| flagAt 1 (b.upd.state == .trial || b.upd.state == .migrationFailed) ||| flagAt 0 b.upd.running

/-- DEV_VIGVER (R7). -/
def Block.devVigver (b : Block) : Word :=
  let m := b.upd.info
  if b.upd.recovery then fieldAt 0 b.ident.romStage.toNat
  else fieldAt 24 m.vigMajor ||| fieldAt 16 m.vigMinor ||| fieldAt 0 b.ident.romStage.toNat

/-- DEV_CAPS (R2, R7). -/
def Block.devCaps (b : Block) : Word :=
  match b.ident.variant with
  | .f => 0xFFFF0FFF
  | .s => 0xFF000FFF
  | .p => 0xFFFF003F

/-- The payload of an IDENTIFY reply (R358). -/
def Block.identity (b : Block) : Bytes :=
  leBytes 4 b.devId.toNat ++ leBytes 4 b.devFwver.toNat ++ leBytes 4 b.devVigver.toNat
    ++ leBytes 4 b.devCaps.toNat ++ leBytes 8 b.ident.serial.toNat ++ leBytes 1 1
    ++ leBytes 1 ((if b.isOpen .main then 1 else 0) + (if b.isOpen .service then 2 else 0))
    ++ leBytes 2 1400 ++ leBytes 4 b.time.count.toNat

/-- The row of IDENTIFY (R357). -/
def identifyRow : OpRow := opRow 0x0002 0

/-- Dispatch of IDENTIFY (R358); a multicast IDENTIFY has at most 10 replies in a second (R333). -/
def dispatchIdentify (h : Hdr) (k : Option Sess) (arrived : Nat) (b : Block) : Block :=
  if h.multicast then
    let recent := b.link.identifies.filter (fun t => decide (arrived < t + 1000000000))
    if 10 ≤ recent.length then b
    else
      (b.modLink (fun l => { l with identifies := recent ++ [arrived] })).replyNow k h identifyRow.code .ok
        b.identity
  else b.replyNow k h identifyRow.code .ok b.identity

/-- IDENTIFY (R333, R358): with session 0, or within an open session. -/
def execIdentify (h : Hdr) : State → Host.Outcome State Fault Refusal :=
  let i : Instr := .identify h
  lift (fun b =>
    if !b.linked then b
    else if h.session = 0 then
      b.arriveFree i h identifyRow (fun arrived b => dispatchIdentify h none arrived b)
    else if h.multicast then
      match b.sessionOf h with
      | some k => b.arrive k i h identifyRow (fun k _ arrived b => dispatchIdentify h (some k) arrived b)
      | none => b
    else b.request i h identifyRow (fun k _ arrived b => dispatchIdentify h (some k) arrived b))

/-! ### SESSION_OPEN (R342 to R345) -/

/-- The kind of session that a HELLO names (R343). -/
def sessKind (kind : Byte) : Option Sess :=
  if kind = 1 then some .main else if kind = 2 then some .service else none

/-- The row of SESSION_OPEN (R357). -/
def sessionOpenRow : OpRow := opRow 0x0003 40

/-- The address is locked out (R344). -/
def Block.lockedOut (b : Block) (addr : BitVec 128) (now : Nat) : Bool :=
  b.link.lockouts.any (fun f => f.addr == addr && decide (now < f.at_ + 10000000000))

/-- An AUTH_FAILED reply, counted and raised (R344). -/
def Block.authFail (b : Block) (h : Hdr) : Block :=
  ((b.count .LINK_CNT1 0 31 24).raise 7 1 (payS (leNat (netBytes h.addr))) h.at_).replyNow none h sessionOpenRow.code
    .authFailed

/-- A wrong proof noted: the third within 60 s locks its address out (R344). -/
def Block.noteFail (b : Block) (addr : BitVec 128) (now : Nat) : Block :=
  let fails := (b.link.authFails.filter (fun f => decide (now < f.at_ + 60000000000)))
    ++ [{ addr := addr, at_ := now }]
  if 3 ≤ (fails.filter (fun f => f.addr == addr)).length then
    b.modLink (fun l => { l with
      authFails := fails
      lockouts := l.lockouts.filter (fun f => f.addr != addr) ++ [{ addr := addr, at_ := now }] })
  else b.modLink (fun l => { l with authFails := fails })

/-- Sixteen bytes of a nonce, free values (R343, log entry 2). -/
def Block.nonce : Nat → Block → Bytes × Block
  | 0, b => ([], b)
  | n + 1, b =>
    let (v, b1) := b.draw
    let (rest, b2) := Block.nonce n b1
    (BitVec.ofNat 8 v :: rest, b2)

/-- A session identity: a free value from 1 to 65 535 that the other session does not hold (R342). -/
def Block.newId (b : Block) (k : Sess) : BitVec 16 × Block :=
  let (v, b1) := b.draw
  let n := v % 65535
  let other := (b.link.sess (otherSess k)).id.toNat
  let id := if n + 1 = other then (n + 1) % 65535 + 1 else n + 1
  (BitVec.ofNat 16 id, b1)

/-- Dispatch of a HELLO (R342 to R344). -/
def dispatchHello (h : Hdr) (kind : Byte) (nonce : BitVec 128) : FreeDispatch := fun arrived b =>
  match sessKind kind with
  | none => b.replyNow none h sessionOpenRow.code .range
  | some k =>
    let s := b.link.sess k
    if b.lockedOut h.addr arrived then b.authFail h
    else if k = .main ∧ b.upd.state = .migrationFailed then
      b.replyNow none h sessionOpenRow.code .migrationFailed
    else if s.state = .opened ∨ (s.state = .hello ∧ s.addr ≠ h.addr) then
      b.replyNow none h sessionOpenRow.code .sessionBusy
    else
      let (nd, b1) := Block.nonce 16 b
      let (id, b2) := b1.newId k
      let b3 := b2.modSess k (fun s => { s with
        state := .hello, id := id, addr := h.addr, port := h.port, since := arrived
        hostNonce := leBytes 16 nonce.toNat, devNonce := nd })
      b3.replyNow none h sessionOpenRow.code .ok (nd ++ leBytes 2 id.toNat ++ leBytes 2 0)

/-- SESSION_OPEN of phase HELLO (R343): session field 0. -/
def execSessionOpenHello (h : Hdr) (kind : Byte) (nonce : BitVec 128) :
    State → Host.Outcome State Fault Refusal :=
  let i : Instr := .sessionOpenHello h kind nonce
  lift (fun b =>
    if !b.reachable || h.multicast then b
    else if b.upd.recovery ∧ kind ≠ 2 then b.replyNow none h sessionOpenRow.code .denied
    else if h.session ≠ 0 ∧ (b.sessionOf h).isNone then
      (b.count .LINK_CNT1 0 23 16).replyNow none h sessionOpenRow.code .noSession
    else b.arriveFree i h sessionOpenRow (dispatchHello h kind nonce))

/-- The 43 bytes of a proof's message after its label: kind, identity, nonces, serial number (R343). -/
def Block.proofTail (b : Block) (k : Sess) : Bytes :=
  let s := b.link.sess k
  leBytes 1 (sessIndex k + 1) ++ leBytes 2 s.id.toNat ++ s.hostNonce ++ s.devNonce
    ++ leBytes 8 b.ident.serial.toNat

/-- The key of a session kind (R345). -/
def Link.key (l : Link) : Sess → Bytes
  | .main => l.keyMain
  | .service => l.keyService

/-- A proof (R343): the label is VRKH1 for the host, VRKD1 for the device. -/
def Block.proof (b : Block) (k : Sess) (label : String) : Bytes :=
  hmacSha256 (b.link.key k) (ascii label ++ b.proofTail k)

/-- The session in HELLO that a PROOF belongs to. -/
def Block.helloOf (b : Block) (h : Hdr) (kind : Byte) : Option Sess :=
  match sessKind kind with
  | none => none
  | some k =>
    let s := b.link.sess k
    if s.state = .hello ∧ s.id = h.session ∧ s.addr = h.addr ∧ s.port = h.port then some k else none

/-- Dispatch of a PROOF (R343, R344). -/
def dispatchProof (h : Hdr) (kind : Byte) (proof : BitVec 256) : FreeDispatch := fun arrived b =>
  match b.helloOf h kind with
  | none => (b.count .LINK_CNT1 0 23 16).replyNow none h sessionOpenRow.code .noSession
  | some k =>
    if b.lockedOut h.addr arrived then b.authFail h
    else if leBytes 32 proof.toNat = b.proof k "VRKH1" then
      let pd := b.proof k "VRKD1"
      let b1 := b.modSess k (fun s => { s with
        state := .opened, since := arrived, ownSeq := 0, replies := [], latches := {}, events := [], evDiscarded := 0
        txn := { num := s.txn.num, lastStatus := s.txn.lastStatus, lastIndex := s.txn.lastIndex } })
      let b2 := b1.replyNow (some k) h sessionOpenRow.code .ok pd
      match k with
      | .main => b2.mapMainOpens
      | .service => b2
    else ((b.endSession k .authFailed h.at_).noteFail h.addr arrived).authFail h

/-- A PROOF of a session that is open already (R339, R342): the kept reply to it is sent again; any other is
    refused. -/
def Block.proofAgain (b : Block) (k : Sess) (h : Hdr) : Block :=
  match b.keptReply k h with
  | some p => (b.keepAlive k h).send p
  | none => b.replyNow none h sessionOpenRow.code .sessionBusy

/-- SESSION_OPEN of phase PROOF (R343): the session field names the session in HELLO. -/
def execSessionOpenProof (h : Hdr) (kind : Byte) (proof : BitVec 256) :
    State → Host.Outcome State Fault Refusal :=
  let i : Instr := .sessionOpenProof h kind proof
  lift (fun b =>
    if !b.reachable || h.multicast then b
    else if (sessKind kind).isNone then b.replyNow none h sessionOpenRow.code .range
    else
      match b.sessionOf h with
      | some k => b.proofAgain k h
      | none =>
        if (b.helloOf h kind).isNone then
          (b.count .LINK_CNT1 0 23 16).replyNow none h sessionOpenRow.code .noSession
        else b.arriveFree i h sessionOpenRow (dispatchProof h kind proof))

/-- AUTH_LOCKOUT_END (R344): after 10 s. -/
def execAuthLockoutEnd (addr : BitVec 128) (at_ : Nat) : State → Host.Outcome State Fault Refusal :=
  lift (fun b => b.modLink (fun l => { l with
    lockouts := l.lockouts.filter (fun f =>
      !(f.addr == addr && decide (f.at_ + 10000000000 ≤ b.now at_))) }))

/-! ### SESSION_CLOSE, SESSION_RESET, DEVICE_RESET (R347, R358) -/

/-- The rows of SESSION_CLOSE, SESSION_RESET and DEVICE_RESET (R357). -/
def sessionCloseRow : OpRow := opRow 0x0004 0
def sessionResetRow : OpRow := opRow 0x0005 0
def deviceResetRow : OpRow := opRow 0x0006 4

/-- Dispatch of SESSION_CLOSE: the session ends, and the reply follows the COMMIT of the effects
    (R347). -/
def dispatchSessionClose (h : Hdr) : Dispatch := fun k seq _ b =>
  (b.endSession k .close h.at_).awaits seq k h sessionCloseRow.code

/-- SESSION_CLOSE (R347). -/
def execSessionClose (h : Hdr) : State → Host.Outcome State Fault Refusal :=
  lift (fun b => b.request (.sessionClose h) h sessionCloseRow (dispatchSessionClose h))

/-- Dispatch of SESSION_RESET (R347). -/
def dispatchSessionReset (h : Hdr) : Dispatch := fun k seq _ b =>
  ((((b.withdraw k false).sessionThaw k h.at_).postLoss k false h.at_).awaits seq k h sessionResetRow.code)

/-- SESSION_RESET (R347). -/
def execSessionReset (h : Hdr) : State → Host.Outcome State Fault Refusal :=
  lift (fun b => b.request (.sessionReset h) h sessionResetRow (dispatchSessionReset h))

/-- Dispatch of DEVICE_RESET: the reply, then a warm reset at the next Tick edge (R358). -/
def dispatchDeviceReset (h : Hdr) (confirm : BitVec 16) : Dispatch := fun k _ _ b =>
  if confirm ≠ 0x7A5C then b.replyNow (some k) h deviceResetRow.code .range
  else
    let b1 := b.replyNow (some k) h deviceResetRow.code .ok
    { b1 with vig := { b1.vig with resetDue := true } }

/-- DEVICE_RESET (R358). -/
def execDeviceReset (h : Hdr) (confirm : BitVec 16) : State → Host.Outcome State Fault Refusal :=
  lift (fun b => b.request (.deviceReset h confirm) h deviceResetRow (dispatchDeviceReset h confirm))

/-! ### Fences (R356, R152) -/

/-- The row of FENCE (R357). -/
def fenceRow : OpRow := opRow 0x001F 4

/-- Dispatch of a fence: it holds its queue until the condition of its kind holds. -/
def dispatchFence (h : Hdr) (ends : Until) : Dispatch := fun k seq _ b =>
  let b1 := b.begins seq k h fenceRow.code ends true
  if h.asyncOk then b1.reply (some k) h fenceRow.code .accepted b.time.count else b1

/-- FENCE COMPLETION (R356). -/
def execFenceCompletion (h : Hdr) : State → Host.Outcome State Fault Refusal :=
  lift (fun b => b.request (.fenceCompletion h) h fenceRow (dispatchFence h (.earlier false)))

/-- FENCE TICK (R356). -/
def execFenceTick (h : Hdr) : State → Host.Outcome State Fault Refusal :=
  lift (fun b => b.request (.fenceTick h) h fenceRow (dispatchFence h (.earlier true)))

/-- The tile frames whose complete fills have not become VALID (R152). -/
def Block.openFills (b : Block) : List Nat :=
  (List.range 128).filter (fun f => (b.frame f).state == .filling && (b.frame f).doneAt.isSome)

/-- Dispatch of FENCE DMA (R152, R356). -/
def dispatchFenceDma (h : Hdr) : Dispatch := fun k seq arrived b =>
  dispatchFence h (.fills b.openFills) k seq arrived b

/-- FENCE DMA (R152, R356). -/
def execFenceDma (h : Hdr) : State → Host.Outcome State Fault Refusal :=
  lift (fun b => b.request (.fenceDma h) h fenceRow (dispatchFenceDma h))

/-- The DMA fences brought up to date: a fill they wait for may have become VALID or been abandoned (R152). -/
def Block.fillFences (b : Block) : Block :=
  (b.modLink (fun l => { l with progress := l.progress.map (fun p =>
    match p.ends with
    | .fills fs => { p with ends := .fills (fs.filter b.openFills.contains) }
    | _ => p) })).fences

/-- A chunk that was waiting has completed the fills `opened`: the later DMA fences of its session wait for them
    (R152). -/
def Block.fencesTake (b : Block) (sess : Option Sess) (seq : Nat) (opened : List Nat) : Block :=
  b.modLink (fun l => { l with progress := l.progress.map (fun p =>
    match p.ends with
    | .fills fs => if some p.sess = sess ∧ seq < p.seq then { p with ends := .fills (fs ++ opened) } else p
    | _ => p) })

/-! ### What is no request (R338) -/

/-- The row of a request that begins with a kind or an action (R357). -/
def kindedRow (q : Kinded) : OpRow :=
  match q with
  | .clockSet => opRow 0x0060 16
  | .tileData => { code := 0x0028, lengthOk := fun n => n == 1048 || n == 28 }
  | .nozzleForce => opRow 0x0032 20 true
  | .driveCommand => opRow 0x0038 40
  | .traceArm => opRow 0x0048 76
  | .fence => fenceRow

/-- Dispatch of a request with a reserved kind or action: RANGE. -/
def dispatchReserved (h : Hdr) (q : Kinded) : Dispatch := fun k _ _ b =>
  b.replyNow (some k) h (kindedRow q).code .range

/-- INVALID_REQUEST (R338): a datagram that fails one of the first checks, or whose kind
    or action is reserved. -/
def execInvalidRequest (h : Hdr) (why : BadRequest) : State → Host.Outcome State Fault Refusal :=
  lift (fun b =>
    if !b.linked then b
    else
      match why with
      | .wrongLength => b.count .LINK_CNT0 0 31 16
      | .notRequest => b.count .LINK_CNT0 0 31 16
      | .badCrc op =>
        let b1 := b.count .LINK_CNT0 0 15 0
        let from_ (x : Session) : Bool := x.state == .opened && x.id == h.session && x.addr == h.addr
          && x.port == h.port
        if from_ b.link.main || from_ b.link.service then b1.replyNow none h op .badCrc else b1
      | .badVersion op => b.replyNow none h op .badOpcode
      | .unknownOpcode op =>
        if h.multicast then b
        else
          match b.sessionOf h with
          | some k => (b.keepAlive k h).replyNow (some k) h op .badOpcode
          | none => (b.count .LINK_CNT1 0 23 16).replyNow none h op .noSession
      | .reservedKind q =>
        b.request (.invalidRequest h (.reservedKind q)) h (kindedRow q) (dispatchReserved h q))

/-! ### The Ethernet ports (R331, R335, R490, R491, R495) -/

/-- A port. -/
def Link.port (l : Link) : EthPort → Port
  | .a => l.portA
  | .b => l.portB

/-- The index of a port in the LINK_PHY registers. -/
def portNo : EthPort → Nat
  | .a => 0
  | .b => 1

/-- The block with a port replaced by its image. -/
def Block.modPort_ (b : Block) (p : EthPort) (f : Port → Port) : Block :=
  match p with
  | .a => b.modLink (fun l => { l with portA := f l.portA })
  | .b => b.modLink (fun l => { l with portB := f l.portB })

/-- A port declares link loss: event 8 or 9, and through ETH_A every session ends (R347, R491, R495). -/
def Block.linkDown (b : Block) (p : EthPort) (at_ : Nat) : Block :=
  if !(b.link.port p).up then b
  else
    let b1 := (b.count .LINK_PHY_CNT (portNo p) 7 0).modPort_ p (fun x => { x with
      up := false, goodExchanges := 0, sqi := 0 })
    match p with
    | .a =>
      let b2 := b1.raise 8 1 payZ at_
      let close (acc : Block) (k : Sess) : Block :=
        if (acc.link.sess k).state = .closed then acc else acc.endSession k .linkLost at_
      close (close b2 .main) .service
    | .b => b1.raise 9 1 payZ at_

/-- ETH_LINK_DOWN (R491). -/
def execEthLinkDown (p : EthPort) (at_ : Nat) : State → Host.Outcome State Fault Refusal :=
  lift (fun b => b.linkDown p at_)

/-- ETH_LINK_UP (R331, R491): the port has trained for `trainMs`, with signal quality `sqi`; duplicate
    address detection follows. -/
def execEthLinkUp (p : EthPort) (trainMs : Nat) (sqi : Fin 8) :
    State → Host.Outcome State Fault Refusal :=
  lift (fun b =>
    if (b.link.port p).up ∨ b.eng.pwr.state = .dormant then b
    else
      let b1 := b.modPort_ p (fun x => { x with up := true, trainMs := min trainMs 65535, sqi := sqi.val })
      let b2 := b1.modLink (fun l => { l with dadDone := true })
      let src := 8 + portNo p
      if b2.evt.cond.getLsbD src then b2.raise src 2 payZ else b2)

/-- The interface identifier of the endpoint's link-local address (R331): the modified EUI-64 of the MAC
    address 0x02 followed by the low 40 bits of the serial number. -/
def Block.linkLocal (b : Block) : BitVec 128 :=
  let s := b.ident.serial.toNat % 2 ^ 40
  let upper := s / 2 ^ 24
  BitVec.ofNat 128 (0xFE80 * 2 ^ 112 + upper * 2 ^ 40 + 0xFFFE * 2 ^ 24 + s % 2 ^ 24)

/-- NEIGHBOUR_SOLICITATION (R331, R332): answered for the endpoint's own address, from ETH_A alone. -/
def execNeighbourSolicitation (p : EthPort) (target source : BitVec 128) :
    State → Host.Outcome State Fault Refusal :=
  lift (fun b =>
    if p = .a ∧ target = b.linkLocal ∧ b.linked then
      b.modLink (fun l => { l with advertisements := l.advertisements ++ [source] })
    else b)

/-- PDELAY_EXCHANGE (R335): the measured link delay in ns, none where the exchange failed. -/
def execPdelayExchange (p : EthPort) (delay : Option Nat) : State → Host.Outcome State Fault Refusal :=
  lift (fun b =>
    if !(b.link.port p).up then b
    else
      b.modPort_ p (fun x =>
        match delay with
        | some d =>
          let n := x.goodExchanges + 1
          { x with linkDelay := min d 65535, goodExchanges := n, lastExchange := b.time.now }
        | none => { x with goodExchanges := 0 }))

/-- PHY_ROLE_CHANGE (R490): 100 ms after the COMMIT of a change of role, the port drops its link with
    its new role. -/
def execPhyRoleChange (p : EthPort) (at_ : Nat) : State → Host.Outcome State Fault Refusal :=
  lift (fun b =>
    match (b.link.port p).roleAt with
    | some t =>
      if t ≤ b.now at_ then
        let leader := match p with
          | .a => b.flag .LINK_PHY_ROLE 0 0
          | .b => b.flag .LINK_PHY_ROLE 0 1
        (b.linkDown p at_).modPort_ p (fun x => { x with roleAt := none, leader := leader })
      else b
    | none => b)

end Sys2Proof.Machine
end

