-- ==== Sys2Proof/Machine/Vigil.lean ====
section
/-! DEFINITION. Vigil (14): the Unit State Table, its requests and transitions, the safe state: R402 to
    R410, R416, R421. -/

namespace Sys2Proof.Machine

open Sys2Proof (Word Byte Bytes Sess Hdr Instr)

/-- The unit classes of R35. -/
inductive UnitClass where
  | nozzle
  | prop
  | lsw
  | motor
  | loop
  | axis
  | boost
  deriving DecidableEq, Repr

/-- The class of a unit (R35). -/
def unitClass (u : Nat) : UnitClass :=
  if u < 96 then .nozzle else if u < 104 then .prop else if u < 120 then .lsw else if u < 136 then .motor
  else if u < 168 then .loop else if u < 200 then .axis else .boost

/-- The units of the table (R35). -/
def allUnits : List Nat := List.range 203

/-! ### What R404 and R405 permit -/

/-- A session's or Vigil's source. -/
def ReqSource.isSession : ReqSource → Bool
  | .main => true
  | .service => true
  | _ => false

/-- The transition is permitted from the unit's present state, or the unit already holds the state
    (R404, R405). -/
def UnitEntry.permits (e : UnitEntry) (src : ReqSource) (target : UnitState) (release : Bool) : Bool :=
  if e.state = .absent then false
  else if target = e.state then true
  else
    match target with
    | .faulted => src == .vigil
    | .fenced => e.state == .standby || e.state == .active || e.state == .service
    | .standby =>
      match e.state with
      | .active => true
      | .service => src != .main
      | .fenced => if release then e.mgmtFence else src.isSession && !e.mgmtFence
      | .faulted => src.isSession
      | _ => false
    | .active => e.state == .standby && src == .main
    | .service => e.state == .standby && src == .service
    | .absent => false

/-- A latched flag of the unit, or of its bank, is set (R206, R228, R236, R261, R287, R325). -/
def Block.unitLatched (b : Block) (u : Nat) : Bool :=
  match unitClass u with
  | .nozzle => b.fld .NOZ_FLT u 4 0 != 0 || b.fld .BANK_FLT (bankOf u) 2 0 != 0
  | .prop => b.fld .PROP_FLT (u - 96) 2 0 != 0
  | .lsw => b.fld .LSW_FLT (u - 104) 2 0 != 0
      || (b.flag .LSW_FLT (u - 104) 3 && b.flag .LSW_CFG (u - 104) 2)
  | .motor => b.fld .MDRV_FLT (u - 120) 8 0 != 0
  | .loop => b.fld .LOOP_FLT (u - 136) 3 0 != 0
  | .axis => false
  | .boost => b.fld .BST_FLT (u - 200) 3 0 != 0

/-- The states that a session may request (R403). -/
def mayRequest : Sess → UnitState → Bool
  | _, .standby => true
  | _, .fenced => true
  | .main, .active => true
  | .service, .service => true
  | _, _ => false

/-- The source of a session's requests. -/
def sessSource : Sess → ReqSource
  | .main => .main
  | .service => .service

/-- The checks of R403, R471 and R235 on a session's request for a unit state; none passes. -/
def Block.requestStatus (b : Block) (k : Sess) (u : Nat) (t : UnitState) : Option Status :=
  let e := b.unit u
  if !mayRequest k t then some .denied
  else if b.upd.state = .migrationFailed ∧ (t = .active ∨ t = .service) then some .migrationFailed
  else if !e.permits (sessSource k) t false then some .fenced
  else if t = .standby ∧ e.state = .faulted ∧ b.unitLatched u then some .denied
  else if (t = .active ∨ t = .service) ∧ 96 ≤ u ∧ u < 104 ∧ b.propClaimed (u - 96) then some .resourceOwned
  else none

/-- The state that VIG_UNIT.REQ asks for; 0 asks for nothing (R403). -/
def reqState (req : Nat) : Option UnitState :=
  match req with
  | 1 => some .standby
  | 2 => some .active
  | 3 => some .fenced
  | 5 => some .service
  | _ => none

/-- The channel or sequencer of the unit is QUIET, so that a start takes effect (R218, R264, R413). -/
def Block.unitQuiet (b : Block) (u : Nat) : Bool :=
  match unitClass u with
  | .nozzle => (b.noz u).isQuiet
  | .prop => (b.prop (u - 96)).seq == .quiet
  | .motor =>
    let s := (b.mot (u - 120)).seq
    s != .rampDown && s != .brake && s != .fault && b.vig.brakeSince.isNone
  | _ => true

/-- A request for `t` is answered DEFERRED: it would start a unit that has not reached QUIET (R322,
    R403). -/
def Block.deferred (b : Block) (u : Nat) (t : UnitState) : Bool :=
  (t == .active || t == .service) && (b.unit u).state != t &&
    (!b.unitQuiet u || (unitClass u == .lsw && (b.sw (u - 104)).asksOn
      && ((b.sw (u - 104)).seq == .demag || (b.sw (u - 104)).seq == .cool)))

/-! ### Step 1 of COMMIT (R28, R406) -/

/-- What the blocks do about a unit's change of state (R29 and the owning chapters). -/
def Block.unitChange (b : Block) (u : Nat) (old new : UnitState) (at_ : Nat) : Block :=
  let b1 := b.laneUnitChange u old new
  match unitClass u with
  | .nozzle => b1.nozUnitChange u old new at_
  | .prop => b1.propUnitChange (u - 96) old new at_
  | .lsw => b1.lswUnitChange (u - 104) old new at_
  | .motor => b1.motorUnitChange (u - 120) old new at_
  | .loop => b1.loopUnitChange (u - 136) old new at_
  | .axis => b1.axisUnitChange (u - 168) old new at_
  | .boost => b1.boostUnitChange (u - 200) old new at_

/-- The rank of a target, the safest first (R406). -/
def safety : UnitState → Nat
  | .faulted => 0
  | .fenced => 1
  | .standby => 2
  | _ => 3

/-- The requests of a unit that stand: from each source the last, a RELEASE of a unit that no management
    request has fenced being no request at all (R368, R406). -/
def Block.standing (b : Block) (u : Nat) : List UnitReq :=
  let e := b.unit u
  let l := b.vig.reqs.filter (fun r => r.unit == u && b.inTime r.since && (!r.release || (e.state == .fenced && e.mgmtFence)))
  let last (s : ReqSource) : List UnitReq := lastN 1 (l.filter (fun r => r.source == s))
  last .management ++ last .vigil ++ last .main ++ last .service

/-- What deciding a unit counts: requests dropped, requests outranked, the units concerned. -/
structure Decision where
  dropped : Nat := 0
  overruled : Nat := 0
  units : List Nat := []
  deriving DecidableEq, Repr

/-- The request changes something if granted (R404). -/
def UnitReq.moves (e : UnitEntry) (r : UnitReq) : Bool :=
  r.target != e.state || (r.target == .fenced && r.source == .management && !e.mgmtFence)

/-- The safest request of a list. -/
def safest : List UnitReq → Option UnitReq
  | [] => none
  | r :: rest =>
    match safest rest with
    | some q => if safety q.target < safety r.target then some q else some r
    | none => some r

/-- A granted request takes effect on its unit's entry and on its blocks (R405, R406, R423). -/
def Block.grant (b : Block) (u : Nat) (r : UnitReq) (byMgmt lost : Bool) (at_ : Nat) : Block :=
  let e := b.unit u
  let fence := r.target == .fenced && (e.mgmtFence || byMgmt)
  let b1 := b.setUnit u (fun e => { e with
    state := r.target, ovr := lost, queued := none, mgmtFence := fence
    cause := if r.target = e.state && !(fence && !e.mgmtFence) then e.cause else r.cause })
  if r.target = e.state then b1 else b1.unitChange u e.state r.target at_

/-- Step 1 for one unit (R218, R403 to R406). -/
def Block.decide (b : Block) (d : Decision) (u : Nat) (at_ : Nat) : Decision × Block :=
  let e := b.unit u
  let reqs := b.standing u
  let bad (r : UnitReq) : Bool :=
    match r.source with
    | .main => (b.requestStatus .main u r.target).isSome
    | .service => (b.requestStatus .service u r.target).isSome
    | _ => !e.permits r.source r.target r.release
  let good := reqs.filter (fun r => !bad r)
  let dropped := (reqs.filter (fun r => bad r && r.source.isSession)).length
  let refused := (reqs.filter (fun r => bad r && !r.source.isSession)).length
  let stops := good.any (fun r => r.target == .standby && !r.moves e)
  let asked := good.filter (fun r => r.moves e)
  let quiet := b.unitQuiet u
  let waiting : List UnitReq := match e.queued with
    | some s =>
      if asked.isEmpty && !stops && quiet && e.state == .standby
          && !(96 ≤ u && u < 104 && b.propClaimed (u - 96)) then
        [{ unit := u, source := s, target := if s = .main then .active else .service
           cause := if s = .main then .main else .service }]
      else []
    | none => []
  let b1 := if e.queued.isSome && (!asked.isEmpty || stops || quiet) then
      b.setUnit u (fun e => { e with queued := none })
    else b
  let l := asked ++ waiting
  let lost0 := dropped + refused != 0
  match safest l with
  | none =>
    let d1 : Decision := { d with
      dropped := d.dropped + dropped, overruled := d.overruled + refused
      units := if lost0 then d.units ++ [u] else d.units }
    (d1, if lost0 then b1.setUnit u (fun e => { e with ovr := true }) else b1)
  | some r =>
    let starts := safety r.target == 3
    let tie := starts && l.any (fun q => q.target != r.target)
    let losers := if tie then l.length else (l.filter (fun q => q.target != r.target)).length
    let lost := lost0 || losers != 0
    let d1 : Decision := {
      dropped := d.dropped + dropped, overruled := d.overruled + refused + losers
      units := if lost then d.units ++ [u] else d.units }
    let mark (b : Block) : Block := if lost then b.setUnit u (fun e => { e with ovr := true }) else b
    if tie then (d1, mark b1)
    else if starts && !quiet then (d1, mark (b1.setUnit u (fun e => { e with queued := some r.source })))
    else (d1, b1.grant u r (l.any (fun q => q.source == .management && q.target == .fenced)) lost at_)

/-- UNIT_OVERRULED, at most once in each 100 ms (R422). -/
def Block.raiseOverruled (b : Block) (units : List Nat) (at_ : Nat) : Block :=
  let now := b.now at_
  let quiet := match look b.evt.lastRaise 117 with
    | some t => Decidable.decide (now - t < 100000000)
    | none => false
  if units.isEmpty || quiet then b
  else ({ b with evt := { b.evt with lastRaise := put b.evt.lastRaise 117 now } }).raiseItems 117 1 0 units at_

/-- Every unit decided in the order of the table (R406). -/
def Block.decideUnits (b : Block) (at_ : Nat) : Decision × Block :=
  allUnits.foldl (fun (acc : Decision × Block) u => acc.2.decide acc.1 u at_) ({}, b)

/-- The decided requests leave, those posted after 72 us waiting for the next COMMIT (R17), and what they came to is counted and raised (R406, R422). -/
def unitsDecided (at_ : Nat) (r : Decision × Block) : Block :=
  (((r.2.modVig (fun g => { g with reqs := g.reqs.filter (fun q => !r.2.inTime q.since) })).count .VIG_CNT 0 15 8 r.1.dropped).count .VIG_CNT 0 31 16
    r.1.overruled).raiseOverruled r.1.units at_

/-- Step 1 of COMMIT: the Unit State Table transitions (R28, R406). -/
def Block.unitsCommit (b : Block) (at_ : Nat) : Block := unitsDecided at_ (b.decideUnits at_)

/-! ### The safe state (R49, R408, R409, R416, R421) -/

/-- What the units' register views show changes at once, without a COMMIT (R49). -/
def Block.publishUnits (b : Block) : Block :=
  { b with pub := { b.pub with
      lsw := b.eng.lsw, fb := b.eng.fb, valve := b.eng.valve, mot := b.eng.mot, loop := b.eng.loop } }

/-- Every present unit driven to its safe state and set FAULTED on Vigil's own account, at once. -/
def Block.safeState (b : Block) (c : Cause) (code flag : Nat) (at_ : Nat) : Block :=
  let hold := (List.range 16).filter (fun k =>
    b.present (unitLsw k) && (b.sw k).latchOn && (b.sw k).conducts)
  let b1 := allUnits.foldl (fun acc u =>
    let e := acc.unit u
    if e.state = .absent then acc
    else
      let acc1 := acc.setUnit u (fun e => { e with
        state := .faulted, cause := c, mgmtFence := false, queued := none })
      let acc2 := if e.state = .faulted then acc1 else acc1.unitChange u e.state .faulted at_
      if unitClass u = .boost then acc2.boostSafe (u - 200) at_ else acc2) b
  let b2 := hold.foldl (fun acc k => acc.modSw k (fun s => { s with
    held := true, seq := .quiet, limitMa := s.latchMa })) b1
  let b3 := b2.motorsBrake at_
  let b4 := (b3.modAlm (fun a => { a with pins := a.pins.map (fun _ => {}) })).modVig (fun g => { g with safePins := true })
  let b5 := ((b4.latch .VIG_SAFE 0 flag).setFld .VIG_SAFE 0 31 16 (b.time.count.toNat % 65536)).count
    .VIG_CNT 0 7 0
  b5.publishUnits.raise 112 1 (payS code) at_

/-- HALT_LIMIT (R421): the halt has lasted HALT_MAX. -/
def execHaltLimit (at_ : Nat) : State → Host.Outcome State Fault Refusal :=
  lift (fun b =>
    let m := b.fld .VIG_DBG_CFG 0 7 0
    if b.vig.dbg = .halted ∧ m ≠ 0 ∧ !b.vig.haltLimited ∧ b.vig.haltSince + m * 1000000000 ≤ b.now at_ then
      (b.safeState .haltLimit 9 1 at_).modVig (fun g => { g with haltLimited := true })
    else b)

end Sys2Proof.Machine
end

