-- ==== Sys2Proof/Machine/Can.lean ====
section
/-! DEFINITION. CAN_M, the management path and the trouble codes, and CAN_S (12): R366 to R372, R375. The
    frame formats of ISO 11783-3, -5 and -12 are PRESUMED (log entry 20). -/

namespace Sys2Proof.Machine

open Sys2Proof (Word Byte Bytes Sess Hdr Instr)

/-- The block with the CAN controllers replaced by their image. -/
def Block.modCan (b : Block) (f : Can → Can) : Block := { b with can := f b.can }

/-- CAN_M is enabled and on the bus (R311, R371, R473). -/
def Block.canOn (b : Block) : Bool :=
  b.flag .CANB_CFG 0 0 && b.can.claim != .busOff && b.ticking && !b.vig.clockFault
    && !b.upd.recovery

/-- A message put on CAN_M. -/
def Block.canPut (b : Block) (m : CanMsg) : Block := b.modCan (fun c => { c with sent := c.sent ++ [m] })

/-- The packets of a message of the transport protocol from number `from_` on, at most `n` of them: the number, then
    7 bytes, the last filled up with 0xFF (R366). -/
def tpPackets (data : Bytes) (from_ n : Nat) : List Bytes :=
  ((List.range n).map (fun k => k + from_)).filterMap (fun i =>
    let part := (data.drop (7 * (i - 1))).take 7
    if part.isEmpty then none else some (leBytes 1 i ++ part ++ List.replicate (7 - part.length) 0xFF))

/-- How a transport of `data` is announced: 32 to all nodes, 16 as a request to send to one (R366). -/
def tpAnnounce (control : Byte) (pgn : Nat) (data : Bytes) : Bytes :=
  [control] ++ leBytes 2 data.length ++ leBytes 1 ((data.length + 6) / 7) ++ [0xFF] ++ leBytes 3 pgn

/-- A message sent by a controller that holds its address: one frame up to 8 bytes. A longer one goes by transport
    protocol: broadcast to the global address, connection mode to one node, which clears the packets (R366, R370). -/
def Can.message (c : Can) (pgn : Nat) (dst : Byte) (data : Bytes) : Can :=
  let frame (pgn : Nat) (d : Bytes) : CanMsg := { pgn := pgn, src := c.sa, dst := dst, data := d }
  if data.length ≤ 8 then { c with sent := c.sent ++ [frame pgn data] }
  else if dst = 0xFF then { c with
    sent := c.sent ++ frame 60416 (tpAnnounce 32 pgn data) :: (tpPackets data 1 255).map (frame 60160) }
  else { c with
    sent := c.sent ++ [frame 60416 (tpAnnounce 16 pgn data)]
    outgoing := c.outgoing.filter (fun o => o.dst != dst) ++ [{ dst := dst, pgn := pgn, data := data }] }

/-- A message sent from the address in use, which the V96 must hold (R367). -/
def Block.canSend (b : Block) (pgn : Nat) (dst : Byte) (data : Bytes) : Block :=
  if b.canOn && b.can.claim == .claimed then b.modCan (fun c => c.message pgn dst data) else b

/-! ### The address (R367) -/

/-- The 64-bit NAME (R367). -/
def Block.canName (b : Block) : Nat :=
  b.ident.canIdent.toNat + (b.word .CANB_NAME_HI).toNat * 2 ^ 32

/-- The next address of 128 to 247 that has not been seen claimed, from `a` on. -/
def freeAddress (taken : List Byte) : Nat → Nat → Option Byte
  | 0, _ => none
  | fuel + 1, a =>
    let x := if a < 128 ∨ 247 < a then 128 else a
    if taken.contains (BitVec.ofNat 8 x) then freeAddress taken fuel (x + 1) else some (BitVec.ofNat 8 x)

/-- An address claimed message (PGN 60928) from the address claimed, or a cannot-claim from 254. -/
def Block.sendClaim (b : Block) : Block :=
  let src : Byte := if b.can.claim = .cannotClaim then 254 else b.can.sa
  b.canPut { pgn := 60928, src := src, dst := 0xFF, data := leBytes 8 b.canName }

/-- The claim of an address from `a` on (R367). -/
def Block.claimFrom (b : Block) (a : Nat) : Block :=
  (match freeAddress b.can.taken 121 a with
  | some x => b.modCan (fun c => { c with claim := .claiming, sa := x, claimedAt := b.time.now })
  | none => b.modCan (fun c => { c with claim := .cannotClaim, sa := 0xFE })).sendClaim

/-- CAN_ADDRESS_CLAIM (R367): at start. -/
def execCanAddressClaim : State → Host.Outcome State Fault Refusal :=
  lift (fun b =>
    if b.canOn ∧ b.can.claim = .claiming ∧ b.can.sa = 0xFE then b.claimFrom (b.fld .CANB_CFG 0 23 16)
    else b)

/-- ADDRESS_CONTENTION (R367): another node claims `other` with its NAME; the lower NAME keeps it
    (ISO 11783-5, log entry 20). -/
def execAddressContention (other : Byte) (name : BitVec 64) : State → Host.Outcome State Fault Refusal :=
  lift (fun b =>
    if !b.canOn then b
    else
      let mine := (b.can.claim = .claiming ∨ b.can.claim = .claimed) ∧ other = b.can.sa
      if mine ∧ b.canName < name.toNat then b.sendClaim
      else
        let b1 := b.modCan (fun c => { c with taken := other :: c.taken.filter (fun x => x != other) })
        if mine then (b1.count .CANB_CNT 0 7 0).claimFrom (other.toNat + 1) else b1)

/-- ADDRESS_CLAIMED (R367): 250 ms after the claim, without contention. -/
def execAddressClaimed (at_ : Nat) : State → Host.Outcome State Fault Refusal :=
  lift (fun b =>
    if b.canOn ∧ b.can.claim = .claiming ∧ b.can.sa ≠ 0xFE ∧ b.can.claimedAt + 250000000 ≤ b.now at_ then
      b.modCan (fun c => { c with claim := .claimed })
    else b)

/-- ADDRESS_CLAIM_REQUEST (R366, R367): answered with the claim, or with cannot-claim. -/
def execAddressClaimRequest (_source : Byte) : State → Host.Outcome State Fault Refusal :=
  lift (fun b => if b.canOn ∧ (b.can.sa ≠ 0xFE ∨ b.can.claim = .cannotClaim) then b.sendClaim else b)

/-- CAN_BUSOFF (R371): counted and raised; the address is given up. -/
def execCanBusoff : State → Host.Outcome State Fault Refusal :=
  lift (fun b =>
    if !b.canOn then b
    else
      ((b.modCan (fun c => { c with claim := .busOff, sa := 0xFE, transfers := [], outgoing := [], tec := 255 })).count
        .CANB_CNT 0 15 8).raise 10 1 payZ)

/-- BUSOFF_RECOVERY (R371): the V96 rejoins and claims again. -/
def execBusoffRecovery : State → Host.Outcome State Fault Refusal :=
  lift (fun b =>
    if b.can.claim = .busOff then
      let b1 := b.modCan (fun c => { c with claim := .claiming, sa := 0xFE, tec := 0, rec_ := 0 })
      if b1.canOn then b1.claimFrom (b1.fld .CANB_CFG 0 23 16) else b1
    else b)

/-! ### The management path (R368, R369) -/

/-- The units of a UNIT_REQ group. -/
def groupUnits (group : Nat) : Option (List Nat) :=
  let of_ (c : UnitClass) : Option (List Nat) := some (allUnits.filter (fun u => unitClass u == c))
  match group with
  | 0 => of_ .nozzle
  | 1 => of_ .prop
  | 2 => of_ .lsw
  | 3 => of_ .motor
  | 4 => of_ .loop
  | 5 => of_ .axis
  | 6 => of_ .boost
  | 255 => some allUnits
  | _ => none

/-- The source address is accepted for management requests (R368). -/
def Block.mgmtAccepts (b : Block) (source : Byte) : Bool :=
  let sa := b.fld .CANB_MGMT 0 15 8
  sa == 255 || sa == source.toNat

/-- An Acknowledgement (PGN 59392) of a proprietary A message: control 0 positive, 1 negative. -/
def Block.canAck (b : Block) (good : Bool) (function source : Byte) : Block :=
  b.canSend 59392 0xFF ([if good then 0 else 1, function, 0xFF, 0xFF, source] ++ leBytes 3 61184)

/-- The target of a UNIT_REQ (R368): the state and whether it is a RELEASE. -/
def mgmtTarget (t : Byte) : Option (UnitState × Bool) :=
  if t = 1 then some (.standby, false) else if t = 2 then some (.fenced, false)
  else if t = 3 then some (.standby, true) else none

/-- UNIT_REQ (R368). -/
def execUnitReq (source function target group : Byte) : State → Host.Outcome State Fault Refusal :=
  lift (fun b =>
    if !b.canOn ∨ b.can.claim ≠ .claimed ∨ !b.mgmtAccepts source then b
    else
      match b.flag .CANB_MGMT 0 0 && function == 1, mgmtTarget target, groupUnits group.toNat with
      | true, some (t, release), some us =>
        (us.foldl (fun acc u =>
          if acc.present u then
            acc.postUnit { unit := u, source := .management, target := t, cause := .management
                           release := release }
          else acc) b).canAck true function source
      | _, _, _ => b.canAck false function source)

/-- The number of units in a state. -/
def Block.unitsIn (b : Block) (s : UnitState) (us : List Nat) : Nat :=
  (us.filter (fun u => (b.unit u).state == s)).length

/-- The STATUS message (R369). -/
def Block.statusMsg (b : Block) : Bytes :=
  let flags := (if b.isOpen .main then 1 else 0) + (if b.isOpen .service then 2 else 0)
    + (if b.flag .VIG_SAFE 0 0 then 4 else 0)
    + (if allUnits.any (fun u => (b.unit u).mgmtFence) then 8 else 0)
  [0x81] ++ leBytes 1 (b.unitsIn .active (List.range 96)) ++ leBytes 1 (min 255 (b.unitsIn .faulted allUnits))
    ++ leBytes 1 (min 255 (b.unitsIn .fenced allUnits)) ++ leBytes 1 flags
    ++ leBytes 1 b.pub.pwr.state.code ++ leBytes 2 b.time.count.toNat

/-- A STATUS message sent to CANB_MGMT.SA, or to the global address (R369). -/
def Block.sendStatus (b : Block) : Block :=
  b.canSend 61184 (BitVec.ofNat 8 (b.fld .CANB_MGMT 0 15 8)) b.statusMsg

/-- STATUS_REQ (R368, R369): with EN = 0 it is answered with a negative Acknowledgement. -/
def execStatusReq (source : Byte) : State → Host.Outcome State Fault Refusal :=
  lift (fun b =>
    if !b.mgmtAccepts source then b
    else if !b.flag .CANB_MGMT 0 0 then b.canAck false 2 source
    else if b.fld .CANB_MGMT 0 23 16 = 0 then b
    else b.sendStatus)

/-- STATUS_PERIODIC (R369): every PER x 10 ms. -/
def execStatusPeriodic (at_ : Nat) : State → Host.Outcome State Fault Refusal :=
  lift (fun b =>
    let per := b.fld .CANB_MGMT 0 23 16
    if per ≠ 0 ∧ b.can.lastStatus + per * 10000000 ≤ b.now at_ then
      b.sendStatus.modCan (fun c => { c with lastStatus := b.now at_ })
    else b)

/-! ### Trouble codes (R370) -/

/-- The FMI of a source (R426). -/
def fmiOf (s : Nat) : Nat :=
  if [0, 67, 83, 98, 120].contains s then 16
  else if [6, 7, 8, 9, 10, 41, 56, 57, 119].contains s then 19
  else if [4, 65, 81, 96].contains s then 6
  else if [19, 20, 22, 43, 58, 69, 126].contains s then 12
  else if [21, 101].contains s then 13
  else if [32, 35, 36, 38, 105].contains s then 2
  else if [34, 42, 49, 55].contains s then 9
  else if [52, 66, 104].contains s then 7
  else if [64, 71, 80, 97, 103].contains s then 11
  else if [68, 72].contains s then 18
  else if s = 3 then 4 else if s = 11 then 1 else if s = 33 then 0 else if s = 40 then 10
  else if s = 82 then 5 else 31

/-- The four bytes of a trouble code: SPN 520192 + source, FMI, occurrence count (ISO 11783-12). -/
def dtcBytes (d : Dtc) : Bytes :=
  let spn := 520192 + d.source
  leBytes 2 spn ++ leBytes 1 (spn / 65536 * 32 + fmiOf d.source) ++ leBytes 1 d.count

/-- The lamps (R370): amber while any code is active, red while any unit is FAULTED. -/
def Block.lamps (b : Block) : Bytes :=
  let amber := if b.can.active.isEmpty then 0 else 4
  let red := if allUnits.any (fun u => (b.unit u).state == .faulted) then 16 else 0
  leBytes 1 (amber + red) ++ [0xFF]

/-- The data of a DM1 or DM2: the lamps and the codes, one code of zeros where there is none, at least
    8 bytes. -/
def Block.dmData (b : Block) (l : List Dtc) : Bytes :=
  let d := b.lamps ++ (if l.isEmpty then [0, 0, 0, 0] else (l.map dtcBytes).flatten)
  d ++ List.replicate (8 - d.length) 0xFF

/-- DM1 (PGN 65226). -/
def Block.sendDm1 (b : Block) : Block :=
  (b.canSend 65226 0xFF (b.dmData b.can.active)).modCan (fun c => { c with newCode := false })

/-- DM1_PERIODIC (R370): every 1 s; once at once when a code has become active, at most one such extra
    DM1 in each second. -/
def execDm1Periodic (at_ : Nat) : State → Host.Outcome State Fault Refusal :=
  lift (fun b =>
    let now := b.now at_
    let extra := b.can.newCode && (match b.can.lastExtraDm1 with
      | some t => decide (t + 1000000000 ≤ now)
      | none => true)
    if b.can.lastDm1 + 1000000000 ≤ now then b.sendDm1.modCan (fun c => { c with lastDm1 := now })
    else if extra then b.sendDm1.modCan (fun c => { c with lastExtraDm1 := some now })
    else b)

/-- DM2_REQUEST (R370): the previously-active list (PGN 65227), broadcast or to the requester. -/
def execDm2Request (source : Byte) (global : Bool) : State → Host.Outcome State Fault Refusal :=
  lift (fun b => b.canSend 65227 (if global then 0xFF else source) (b.dmData b.can.previous))

/-! ### Transport protocols (R366) -/

/-- Byte `i` of a frame. -/
def frameByte (d : BitVec 64) (i : Nat) : Nat := bitsOf d.toNat (8 * i + 7) (8 * i)

/-- Bytes of a frame as a little-endian number. -/
def frameNum (d : BitVec 64) (i n : Nat) : Nat := bitsOf d.toNat (8 * (i + n) - 1) (8 * i)

/-- The parameter groups that the V96 takes on CAN_M (R366): Request, Acknowledgement, proprietary A. -/
def takesPgn (pgn : Nat) : Bool := [59904, 59392, 61184].contains pgn

/-- A connection management frame of the transport protocol (PGN 60416) or the extended one (51200). -/
def Block.sendCm (b : Block) (ext : Bool) (dst : Byte) (head : Bytes) (pgn : Nat) : Block :=
  b.canSend (if ext then 51200 else 60416) dst (head ++ List.replicate (5 - head.length) 0xFF ++ leBytes 3 pgn)

/-- Clear to send from packet `next` on. -/
def Block.sendCts (b : Block) (t : Transfer) : Block :=
  let left := (t.size + 6) / 7 + 1 - t.nextSeq
  b.sendCm t.extended t.src ([if t.extended then 21 else 17] ++ leBytes 1 (min left 255)
    ++ leBytes (if t.extended then 3 else 1) t.nextSeq) t.pgn

/-- The transfers but that of `src` on the same protocol. -/
def otherTransfers (l : List Transfer) (src dst : Byte) (ext : Bool) : List Transfer :=
  l.filter (fun t => !(t.src == src && t.dst == dst && t.extended == ext))

/-- A receiver clears `n` packets, from number `from_` on, of the message that the V96 sends it (R366). -/
def Block.tpCleared (b : Block) (source : Byte) (pgn n from_ : Nat) : Block :=
  match b.can.outgoing.find? (fun o => o.dst == source && o.pgn == pgn) with
  | some o => (tpPackets o.data from_ n).foldl (fun acc d => acc.canSend 60160 source d) b
  | none => b

/-- The message that the V96 sends to a node ends: acknowledged, or given up (R366). -/
def Block.tpEnds (b : Block) (source : Byte) : Block :=
  b.modCan (fun c => { c with outgoing := c.outgoing.filter (fun o => o.dst != source) })

/-- A connection management frame received. -/
def Block.cmFrame (b : Block) (source dest : Byte) (ext : Bool) (d : BitVec 64) : Block :=
  let pgn := frameNum d 5 3
  let opens (bam : Bool) (size : Nat) : Transfer :=
    { src := source, dst := dest, pgn := pgn, size := size, extended := ext, broadcast := bam, data := []
      nextSeq := 1 }
  let keep (b : Block) (t : Transfer) : Block := b.modCan (fun c => { c with
    transfers := otherTransfers c.transfers source dest ext ++ [t] })
  match ext, frameByte d 0 with
  | false, 16 =>
    let t := opens false (frameNum d 1 2)
    if 1785 < t.size then b.sendCm false source [255] pgn else (keep b t).sendCts t
  | false, 32 => if frameNum d 1 2 ≤ 1785 then keep b (opens true (frameNum d 1 2)) else b
  | true, 20 =>
    let t := opens false (frameNum d 1 4)
    if 16384 < t.size ∨ !takesPgn pgn then b.sendCm true source [255] pgn else (keep b t).sendCts t
  | true, 22 => b.modCan (fun c => { c with
      transfers := c.transfers.map (fun t =>
        if t.src = source ∧ t.extended then { t with offset := frameNum d 2 3 } else t) })
  | false, 17 => b.tpCleared source pgn (frameByte d 1) (frameByte d 2)
  | false, 19 => b.tpEnds source
  | _, 255 => (b.modCan (fun c => { c with transfers := otherTransfers c.transfers source dest ext })).tpEnds source
  | _, _ => b

/-- A data frame received: 7 bytes, in sequence; the last one ends the transfer. -/
def Block.dtFrame (b : Block) (source dest : Byte) (ext : Bool) (d : BitVec 64) : Block :=
  match b.can.transfers.find? (fun t => t.src == source && t.dst == dest && t.extended == ext) with
  | none => b
  | some t =>
    if frameByte d 0 + t.offset ≠ t.nextSeq then b
    else
      let data := (t.data ++ leBytes 7 (frameNum d 1 7)).take t.size
      let t1 := { t with data := data, nextSeq := t.nextSeq + 1 }
      if data.length < t.size then
        let b1 := b.modCan (fun c => { c with
          transfers := otherTransfers c.transfers source dest ext ++ [t1] })
        if ext && frameByte d 0 == 255 then b1.sendCts t1 else b1
      else
        let b1 := b.modCan (fun c => { c with
          transfers := otherTransfers c.transfers source dest ext
          received := c.received ++ [{ pgn := t.pgn, src := source, dst := dest, data := data }] })
        if t.broadcast then b1
        else b1.sendCm ext source ([if ext then 23 else 19] ++ leBytes (if ext then 4 else 2) t.size
          ++ (if ext then [] else leBytes 1 ((t.size + 6) / 7))) t.pgn

/-- TRANSPORT_PROTOCOL_FRAME (R366): a frame addressed to the V96, or a broadcast. -/
def execTransportProtocolFrame (source dest : Byte) (extended connection : Bool) (data : BitVec 64) :
    State → Host.Outcome State Fault Refusal :=
  lift (fun b =>
    if !b.canOn ∨ b.can.claim ≠ .claimed ∨ (dest ≠ b.can.sa ∧ dest ≠ 0xFF) then b
    else if connection then b.cmFrame source dest extended data
    else b.dtFrame source dest extended data)

/-! ### CAN_S (R372, R375) -/

/-- The data length of a DLC. -/
def dlcLength (fd : Bool) (dlc : Nat) : Nat :=
  if dlc ≤ 8 then dlc else if !fd then 8 else nth [12, 16, 20, 24, 32, 48, 64] (dlc - 9) 64

/-- A filter passes an identity word. -/
def Block.filterPasses (b : Block) (f : Nat) (ident : Word) : Bool :=
  let id := b.word .CANS_FILT_ID f
  let mask := b.word .CANS_FILT_MASK f &&& 0x1FFFFFFF
  id.getLsbD 31 && id.getLsbD 30 == ident.getLsbD 29 && (id ^^^ ident) &&& mask == 0

/-- CAN_S_FRAME_RECEIVED (R372): a frame that passes a filter enters the FIFO of 64. -/
def execCanSFrameReceived (ident : Word) (dlc : Fin 16) (data : Bytes) :
    State → Host.Outcome State Fault Refusal :=
  lift (fun b =>
    let fd := ident.getLsbD 30
    if !b.flag .CANS_CFG 0 0 ∨ (fd ∧ !b.flag .CANS_CFG 0 1) ∨ !b.ticking then b
    else
      match (List.range 8).find? (fun f => b.filterPasses f ident) with
      | none => b
      | some f =>
        if 64 ≤ b.can.fifoS.length then b.count .CANS_RX_STAT 0 31 16
        else
          b.modCan (fun c => { c with fifoS := c.fifoS ++ [{
            ident := ident
            control := fieldAt 16 (b.time.count.toNat % 65536) ||| fieldAt 4 f ||| fieldAt 0 dlc.val
            data := data.take (dlcLength fd dlc.val) }] }))

/-- CAN_S_TRANSMIT_COMPLETE (R372). -/
def execCanSTransmitComplete (errors : Nat) : State → Host.Outcome State Fault Refusal :=
  lift (fun b =>
    match b.can.sendingS with
    | none => b
    | some m =>
      (b.modCan (fun c => { c with sendingS := none, sentS := c.sentS ++ [m] })).count .CANS_TX_STAT 0 15 8
        errors)

end Sys2Proof.Machine
end

