-- ==== Sys2Proof/Machine/Flags.lean ====
section
/-! DEFINITION. The status words that register reads show, field by field as the register tables give
    them. Engine status is what the last finished COMMIT published (R44, R379): the functions named
    `shown…` are evaluated on the block of `Block.published`. -/

namespace Sys2Proof.Machine

open Sys2Proof (Word Byte Bytes Sess Hdr Instr)

/-- A word of fields given by their lowest bits and values; a flag is the value 0 or 1. -/
def wordOf (l : List (Nat × Nat)) : Word := l.foldl (fun w f => w ||| fieldAt f.1 f.2) 0

/-- A value held to what `n` bits can show. -/
def sat (n v : Nat) : Nat := min v (2 ^ n - 1)

/-- A word of a signed quantity, wrapping. -/
def wordInt (i : Int) : Word := BitVec.ofNat 32 (narrow 32 i)

/-- The block as the last finished COMMIT published it. -/
def Block.published (b : Block) : Block :=
  { b with eng := b.pub, time := b.pubTime, sup := b.pubSup }

/-! ### Tick and time (02) -/

/-- TICK_STATUS (R70). -/
def Time.status (t : Time) : Word :=
  let kind := match t.leap with
    | none => 0
    | some l => if l.insert then 1 else 2
  wordOf [(8, kind), (7, t.ofsSlew.toNat), (6, t.sat.toNat), (5, t.rtc.valid.toNat),
    (4, t.utcValid.toNat), (0, t.servo.code)]

/-- The real-time clock's stamp seconds and sub-second count at an instant of the model's clock. -/
def Block.rtcAt (b : Block) (now : Nat) : Rtc := b.time.rtc.upTo now

/-- The words of the time base, the latched ones apart; `now` is the instant of the read on the model's
    clock. -/
def Block.shownTime (b : Block) (now : Nat) (r : Reg) : Option Word :=
  let p := b.pubTime
  match r with
  | .TICK_STATUS => some p.status
  | .TICK_COUNT => some b.time.count
  | .TICK_PHASE_ERR => some (wordInt (clampInt (-2147483647) 2147483647 p.phaseErr))
  | .TICK_FREQ => some (wordInt p.freq)
  | .DEVTIME_LO => some (BitVec.ofNat 32 (b.time.dev + (now - b.time.now)))
  | .TICK_UTC => some (BitVec.ofNat 32 (narrow 16 p.taiUtc))
  | .TICK_LEAP_AT => some (match p.leap with
    | some l => BitVec.ofNat 32 l.at_
    | none => 0)
  | .TICK_CAL_LO => some (BitVec.ofNat 32 b.time.stamp.toNat)
  | .TICK_CAL_HI => some (BitVec.ofNat 32 (b.time.stamp.toNat / 2 ^ 32))
  | .TICK_OVR_STAT => some (wordOf [(16, sat 10 b.time.lastEnd), (0, sat 8 b.time.run)])
  | .RTC_SEC => some (BitVec.ofNat 32 (b.rtcAt now).sec)
  | _ => none

/-! ### Feedback (03) -/

/-- AXIS_STATUS[a] (R105). -/
def Block.axisStatus (b : Block) (a : Nat) : Word :=
  let x := b.axisShown a
  wordOf [(16, x.hall), (12, ((b.unit (unitAxis a)).state == .faulted).toNat), (11, x.dirUnknown.toNat),
    (10, x.indexLost.toNat), (9, x.sensorLost.toNat), (8, x.hallInvalid.toNat), (7, x.atHi.toNat),
    (6, x.atLo.toNat), (5, x.referenced.toNat), (4, x.reverse.toNat), (3, x.reversing.toNat),
    (2, x.starting.toNat), (1, x.stop.toNat), (0, x.valid.toNat)]

/-- SP_STATUS[p]: the age runs from the stamp of the newest good frame to the latch. -/
def Block.portStatus (b : Block) (p : Nat) : Word :=
  let x := b.port p
  let age := if x.good then sat 24 ((b.time.now - x.stamp) / 1000) else 0xFFFFFF
  wordOf [(8, age), (4, x.status), (1, x.lost.toNat), (0, x.good.toNat)]

/-- The status words of the feedback inputs; `b` is as published. -/
def Block.shownFb (b : Block) (r : Reg) (i : Nat) : Option Word :=
  match r with
  | .AXIS_POS => some (wordInt (b.axisShown i).pos)
  | .AXIS_REV => some (wordInt (b.axisShown i).rev)
  | .AXIS_RATE => some (wordInt (b.axisShown i).rate)
  | .AXIS_SPEED => some (wordInt (b.axisShown i).speed)
  | .AXIS_STATUS => some (b.axisStatus i)
  | .AXIS_EDGE_AGE => some (BitVec.ofNat 32 (b.axisShown i).age)
  | .AXIS_IDX_ERR => some (wordInt (b.axisShown i).idxErr)
  | .FB_STATE =>
    let peak := if b.flag .FB_CFG i 15 then sat 16 (nth b.eng.fb.vrLatched i 0 / 10) else 0
    some (wordOf [(16, peak), (0, (b.eng.fb.latched.getLsbD i).toNat)])
  | .GSPD_OUT_FREQ => some (BitVec.ofNat 32 b.eng.fb.gspdFreq)
  | .SP_DATA => some (b.port i).word
  | .SP_STATUS => some (b.portStatus i)
  | .SP_SLOW =>
    let x := b.port i
    some (wordOf [(24, x.slowKind), (16, x.slowId), (0, x.slowData)])
  | .RES_GPI =>
    let bit (p : Nat) : Nat :=
      if b.fld .RES_PIN_CFG p 1 0 = 3 then
        (b.eng.fb.gpi.getLsbD p != b.flag .RES_PIN_CFG p 3).toNat
      else 0
    some (wordOf ((List.range 8).map (fun p => (p, bit p))))
  | _ => none

/-! ### Pose (04) -/

/-- POSE_STATUS (R134). -/
def Pose.status (p : Pose) : Word :=
  let v := p.speed
  wordOf [(16, sat 16 (divRound (p.now.sigHdg * 36000) turn).toNat), (9, p.swaySat.toNat),
    (8, p.imuFault.toNat), (7, p.travelLost.toNat), (6, p.stale.toNat), (5, (decide (v ≤ 0)).toNat),
    (4, (decide (v < 0)).toNat), (3, p.zupt.toNat), (2, p.bridge.toNat), (0, p.grade)]

/-- The status words of the pose unit; `b` is as published, `n` the nozzle that the reading session
    selects. -/
def Block.shownPose (b : Block) (r : Reg) (n : Nat) : Option Word :=
  let p := b.eng.pose
  let heading (a : Int) : Nat := narrow 16 (divRound a 4294967296)
  match r with
  | .POSE_E => some (wordInt (divRound p.now.e mmUnit))
  | .POSE_N => some (wordInt (divRound p.now.n mmUnit))
  | .POSE_HDG => some (wordOf [(16, heading p.psi), (0, heading p.now.hdg)])
  | .POSE_SPEED => some (wordInt p.speed)
  | .POSE_YAW => some (wordInt p.now.r)
  | .POSE_SWAY_RATE => some (wordInt p.sway)
  | .POSE_ODO_LO => some (BitVec.ofNat 32 b.odoEdge)
  | .POSE_ODO_RATE => some (BitVec.ofNat 32 (divRound p.rate 65536).toNat)
  | .POSE_ODO_RESID =>
    some (wordInt (clampInt (-2147483648) 2147483647 (divRound p.resid 4294967296)))
  | .POSE_SIGMA =>
    some (wordOf [(16, sat 16 (divRound p.now.sigPos mmUnit).toNat),
      (0, sat 16 (divRound p.now.sigV 1000).toNat)])
  | .POSE_STATUS => some p.status
  | .POSE_FIX_CNT => some (wordOf [(16, p.accepted.toNat), (0, sat 16 p.lastAge)])
  | .POSE_FRAME => some (wordOf [(16, p.frameSet.toNat), (0, p.frame.toNat)])
  | .POSE_PROBE_SEL => some (wordOf [(31, (b.nozSeen n).slow.toNat), (0, n)])
  | .POSE_PROBE_E => some (wordInt (b.nozSeen n).e)
  | .POSE_PROBE_N => some (wordInt (b.nozSeen n).n)
  | .POSE_PROBE_SPEED => some (wordInt (b.nozSeen n).v)
  | _ => none

/-! ### Field map (05) -/

/-- The code of a frame state (MAP_FRAME_STATE). -/
def FrameState.code : FrameState → Nat
  | .free => 0
  | .filling => 1
  | .valid => 2
  | .dirty => 3
  | .writingBack => 4
  | .poisoned => 5

/-- The status words of the field map; `b` is as published. -/
def Block.shownMap (b : Block) (k : Sess) (r : Reg) (i : Nat) : Option Word :=
  let m := b.eng.map
  let f := b.frame i
  let parked := (b.eng.alm.noz.filter (·.parked)).length
  let sel := b.sessWord k .MAP_RATE_SEL
  match r with
  | .MAP_FRAMES =>
    some (wordOf [(24, b.framesIn .poisoned), (16, b.framesIn .dirty + b.framesIn .writingBack),
      (8, b.framesIn .valid), (0, b.framesIn .free)])
  | .MAP_FLOW =>
    some (wordOf [(24, parked), (16, (m.buffers.filter (·.isSome)).length), (8, b.framesIn .filling),
      (0, (m.faults.filter (·.isSome)).length)])
  | .MAP_LOOKUPS => some (wordOf [(16, b.fld .MAP_LOOKUPS 0 31 16), (0, m.slotsLast)])
  | .MAP_RATE_SEL =>
    some (sel ||| wordOf [(31, (!(nth m.rates 1 []).isEmpty).toNat), (30, (!(nth m.rates 0 []).isEmpty).toNat)])
  | .MAP_RATE_VAL => some (BitVec.ofNat 32 (m.rate (bits sel 16 16) (bits sel 11 0)))
  | .MAP_PROBE_RES =>
    let res := match k with
      | .main => m.probeMain
      | .service => m.probeService
    some (res ||| (b.sessWord k .MAP_PROBE_RES &&& 0x10000))
  | .MAP_FRAME_KEY_LO => some (BitVec.ofNat 32 f.key.code)
  | .MAP_FRAME_KEY_HI => some (BitVec.ofNat 32 (f.key.code / 2 ^ 32))
  | .MAP_FRAME_STATE =>
    some (wordOf [(16, f.age), (8, ((List.range 32).filter (fun n => f.stored.getLsbD n)).length),
      (5, f.prod), (4, f.redirty.toNat), (0, f.state.code)])
  | .MAP_FRAME_SEQ => some f.seq
  | .MAP_TLB =>
    let t := nth m.tlb i {}
    some (wordOf [(31, t.valid.toNat), (0, t.frame)])
  | _ => none

/-! ### Almanac and compare (06) -/

/-- The words of an entry as CMP_NEXT and CMP_RD_POS show its high half. -/
def Eve.high (e : Eve) (window : Bool) : Word :=
  wordOf [(24, e.tag.toNat), (20, if window then e.repeats.toNat + 2 else 0), (16, e.act),
    (0, e.pos / 2 ^ 32 % 65536)]

/-- The next entry of a lane to fire: the nearest ahead of the reference; the oldest on a lane that an axis
    refers (log entry 51). -/
def Block.nextEve (b : Block) (l : Nat) : Option Eve :=
  let x := b.lane l
  match b.laneRef l with
  | .axis _ => (sortEves (·.order) x.eves).head?
  | r =>
    let ref := b.refAt r 0
    (sortEves (fun e => (e.pos + 2 ^ 48 - ref) % 2 ^ 48) x.eves).head?

/-- The entry in the slot of CMP_RD_SEL: the slots are numbered in the order in which the lane holds its
    entries (log entry 51). -/
def Block.windowEve (b : Block) (k : Sess) : Option Eve :=
  let sel := b.sessWord k .CMP_RD_SEL
  (b.lane (bits sel 7 0)).eves[bits sel 10 8]?

/-- The record that ALM_AA_SEL selects. -/
def Block.windowRecord (b : Block) (k : Sess) : Option AaRecord :=
  b.eng.alm.ring.find? (fun r => r.seq == b.sessWord k .ALM_AA_SEL)

/-- The status words of the Almanac and the compare unit, the latched ones apart; `b` is as published,
    `live` is the block at the read. -/
def Block.shownAlm (b live : Block) (k : Sess) (r : Reg) (i : Nat) : Option Word :=
  let a := b.eng.alm
  let x := b.alm i
  let l := b.lane i
  match r with
  | .ALM_STAT => some (wordOf [(22, sat 10 a.end1), (12, sat 10 a.end0), (0, a.planned)])
  | .ALM_AA_STAT => some (wordOf [(16, a.epoch.toNat), (0, b.fld .ALM_AA_STAT 0 15 0)])
  | .ALM_AA_SEQ => some a.next
  | .ALM_AA_WIN => some (match b.windowRecord k with
    | some r => BitVec.ofNat 32 (leAt (4 * i) 4 r.bytes)
    | none => 0)
  | .ALM_AA_WSTAT => some (wordOf [(0, (b.windowRecord k).isSome.toNat)])
  | .ALM_NOZ_STATE =>
    some (wordOf [(16, l.gen.toNat), (11, x.low.toNat), (10, (b.noz i).stuck.toNat), (9, x.blind.toNat),
      (8, x.parked.toNat), (7, x.slow.toNat), (5, x.ovr), (4, x.on.toNat), (0, l.eves.length)])
  | .ALM_NOZ_LEAD => some (wordOf [(16, sat 16 x.closeLead), (0, sat 16 x.openLead)])
  | .CMP_STATUS => some (wordOf [(16, l.lastAct), (8, l.gen.toNat), (0, l.eves.length)])
  | .CMP_NEXT_LO => some (((b.nextEve i).map (fun e => BitVec.ofNat 32 e.pos)).getD 0)
  | .CMP_FIRE_LO => some (BitVec.ofNat 32 (live.lane i).fireTime)
  | .CMP_CAPT => some (live.lane i).capt
  | .CMP_RD_POS_LO => some (((b.windowEve k).map (fun e => BitVec.ofNat 32 e.pos)).getD 0)
  | _ => none

/-! ### Valve drive (07) -/

/-- The code of a nozzle state (NOZ_STATE.SEQ). -/
def NozSeq.code : NozSeq → Nat
  | .quiet => 0
  | .wait => 1
  | .rise => 2
  | .peak => 3
  | .hold => 4
  | .decay => 5
  | .settle => 6
  | .fault => 7

/-- NOZ_STATE[n] (R238). -/
def Block.nozState (b : Block) (n : Nat) : Word :=
  let x := b.noz n
  wordOf [(22, x.lastDuty), (16, sat 2 x.fails), (14, x.tband), (12, x.vband), (11, x.battPull.toNat),
    (10, ((b.unit (unitNoz n)).queued.isSome || x.queuedForce.isSome).toNat), (9, x.held.isSome.toNat),
    (8, x.stuck.toNat), (7, x.limited.toNat), (6, x.merging.toNat), (5, x.skipping.toNat),
    (4, x.on.toNat), (0, x.seq.code)]

/-- The code of a boost state (BST_STATE). -/
def BoostState.code : BoostState → Nat
  | .off => 0
  | .softStart => 1
  | .ready => 2
  | .low => 3
  | .fault => 4

/-- The code of a proportional state (PROP_STATE.SEQ). -/
def PropSeq.code : PropSeq → Nat
  | .quiet => 0
  | .peak => 1
  | .ramp => 2
  | .regulate => 3
  | .decay => 4
  | .fault => 5

/-- The status words of the valve drive; `b` is as published. -/
def Block.shownValve (b : Block) (r : Reg) (i : Nat) : Option Word :=
  let n := b.noz i
  let p := b.prop i
  match r with
  | .NOZ_STATE => some (b.nozState i)
  | .NOZ_OUT => some (wordOf [(16, saturate 16 (divRound n.temp 1000000)), (0, sat 16 n.currentMa)])
  | .NOZ_MEAS => some (wordOf [(16, sat 16 n.measClose), (0, sat 16 n.measOpen)])
  | .NOZ_DLY => some (wordOf [(16, sat 16 (b.learnedPlan i false)), (0, sat 16 (b.learnedPlan i true))])
  | .BANK_STATE =>
    let waiting := (bankChannels i).filter (fun c => (b.noz c).seq == .wait)
    some (wordOf [(16, sat 16 (nth b.eng.valve.banks i {}).currentMa), (8, waiting.length),
      (2, (b.rising i).length), (1, (b.nodeOnBoost i).toNat), (0, (b.hsOn i).toNat)])
  | .BST_STATE => some (wordOf [(16, sat 16 (b.boost i).vout), (0, (b.boost i).state.code)])
  | .BST_POWER => some (wordOf [(16, b.fld .BST_POWER i 31 16), (0, sat 16 (b.boost i).avg)])
  | .PROP_STATE =>
    some (wordOf [(16, sat 16 p.meanMa), (5, (b.propClipped i).toNat), (4, p.saturated.toNat),
      (3, (b.unit (unitProp i)).queued.isSome.toNat), (0, p.seq.code)])
  | .PROP_OUT => some (wordOf [(16, p.dutyPm), (0, p.target / 2)])
  | .PROP_TARGET => some (BitVec.ofNat 32 p.value)
  | _ => none

/-! ### Motor PWM (08) -/

/-- The code of a motor state (MDRV_STATE.SEQ): FROZEN during a halt. -/
def MotSeq.code (frozen : Bool) : MotSeq → Nat
  | .quiet => if frozen then 5 else 0
  | .run => if frozen then 5 else 1
  | .rampDown => if frozen then 5 else 2
  | .brake => if frozen then 5 else 3
  | .fault => if frozen then 5 else 4

/-- MDRV_STATE[u] (R269). -/
def Block.motorState (b : Block) (u : Nat) : Word :=
  let m := b.mot u
  wordOf [(16, m.out.toNat), (11, m.undervolt.toNat), (10, b.eng.mot.coarse.toNat), (9, m.foldback.toNat),
    (8, (m.queuedStart || (b.unit (unitMot u)).queued.isSome).toNat),
    (7, (m.sixStep && m.sector.isSome && m.invalidSince.isSome && m.invPol == 0).toNat),
    (4, if m.sixStep then m.sector.getD 7 else 7), (0, m.seq.code b.frozen)]

/-- The status words of the PWM units; `b` is as published. -/
def Block.shownMot (b : Block) (r : Reg) (i : Nat) : Option Word :=
  let m := b.mot i
  match r with
  | .MDRV_SHADOW => some (wordOf [(16, m.stale.toNat), (8, sat 8 m.age), (0, m.pending.toNat)])
  | .MDRV_ACT => some (wordOf [(12, m.phase), (0, m.k)])
  | .MDRV_DUTY => some (BitVec.ofNat 32 (narrow 16 (divRound m.presentDuty 10000)))
  | .MDRV_STATE => some (b.motorState i)
  | .MDRV_I_AB => some (wordOf [(16, saturate 16 m.ib), (0, saturate 16 m.ia)])
  | .MDRV_I_C => some (wordOf [(16, saturate 16 m.tj), (0, saturate 16 m.ic)])
  | .MDRV_OVL => some (wordOf [(0, sat 16 (m.ovl / 100000000000))])
  | .MDRV_TRIP_STATE => some (wordOf [(0, b.tripBits)])
  | .MDRV_CAL => some (wordOf [(16, b.eng.mot.coarse.toNat), (0, sat 16 b.eng.mot.tap)])
  | _ => none

/-! ### Loop engine (09) -/

/-- The code of a feedback mode (LOOP_STATE.FB). -/
def LoopFb.code : LoopFb → Nat
  | .sensor => 0
  | .observer => 1
  | .lost => 2

/-- The code of a trace state (LOOP_TRACE_STAT.STATE). -/
def TraceState.code : TraceState → Nat
  | .idle => 0
  | .armed => 1
  | .triggered => 2
  | .done => 3
  | .invalid => 4

/-- The status words of the loop engine; `b` is as published. -/
def Block.shownLoop (b : Block) (r : Reg) (i : Nat) : Option Word :=
  let s := b.slot i
  let t := b.eng.loop.trace
  match r with
  | .LOOP_R => some s.r
  | .LOOP_Y => some s.y
  | .LOOP_U => some s.u
  | .LOOP_I => some s.i
  | .LOOP_E => some s.follow
  | .LOOP_YHAT => some (b.shown i (qtyOf (b.loopPos i) s.yhat))
  | .LOOP_ROW_G => some (wordInt (divRound s.g umUnit))
  | .LOOP_STATE =>
    some (wordOf [(16, sat 16 (s.ferr / 10)), (15, (b.loopType i == 2 && Decidable.decide (64 ≤ s.corrected)).toNat),
      (14, s.ferrOver.toNat), (13, s.sat.toNat), (12, s.setUsed.toNat), (10, s.fb.code),
      (9, s.locked.toNat)])
  | .LOOP_BUDGET => some (wordOf [(16, sat 16 b.loopBudget.2), (0, sat 16 b.loopBudget.1)])
  | .LOOP_USE => some (wordOf [(16, b.fld .LOOP_USE 0 25 16), (0, sat 10 b.eng.loop.last)])
  | .LOOP_TRACE_STAT => some (wordOf [(20, sat 12 t.trigIdx), (3, t.samples.length), (0, t.state.code)])
  | .LOOP_TRACE_TICK => some t.trigTick
  | _ => none

/-! ### Power and load switches (10, 11) -/

/-- The code of a load-switch state (LSW_STATE.SEQ). -/
def LswSeq.code : LswSeq → Nat
  | .quiet => 0
  | .inrush => 1
  | .on => 2
  | .demag => 3
  | .cool => 4
  | .fault => 5

/-- The status words of the arbiter, the supplies and the load switches; `b` is as published. -/
def Block.shownPower (b : Block) (r : Reg) (i : Nat) : Option Word :=
  let p := b.eng.pwr
  let s := b.sw i
  let u10 (x : Int) : Nat := sat 16 (divRound x 10000).toNat
  match r with
  | .PWRB_IN => some (wordOf [(16, sat 16 (b.sup.inB.currentMa / 10)), (0, sat 16 (b.sup.inA.currentMa / 10))])
  | .PWRB_VIN => some (wordOf [(16, sat 16 b.sup.inB.mv), (0, sat 16 b.sup.inA.mv)])
  | .PWRB_DEMAND => some (wordOf [(16, saturate 16 (divRound p.head 10000)), (0, u10 p.total)])
  | .PWRB_CHG01 => some (wordOf [(16, saturate 16 (divRound p.charge1 10000)), (0, u10 p.charge0)])
  | .PWRB_CHG23 => some (wordOf [(16, u10 p.charge3), (0, u10 p.charge2)])
  | .PWRB_SHED =>
    some (wordOf ((16, p.cap.toNat) :: (List.range 16).map (fun k => (k, (b.isShed k).toNat))))
  | .PWRB_BST_E => some (wordOf [(0, sat 16 (nth p.boostE i 0 / 100000))])
  | .PWRB_RES => some (wordOf [(16, sat 16 p.resFirm), (0, sat 16 p.resHeld)])
  | .DEV_PSTATE => some b.pstateWord
  | .DEV_WAKE => some (wordOf [(4, p.lastCause), (0, p.dormCause)])
  | .LSW_STATE =>
    some (wordOf [(16, s.d), (12, sat 4 s.trips), (6, s.held.toNat), (5, s.queued.toNat), (4, s.cut.toNat),
      (0, s.seq.code)])
  | .LSW_CTRL => some (wordOf [(16, s.on.toNat), (0, s.duty)])
  | .LSW_MEAS => some (wordOf [(16, sat 16 s.limitMa), (0, sat 16 s.currentMa)])
  | .LSW_TEMP => some (wordOf [(16, saturate 16 s.tpair), (0, saturate 16 s.tj)])
  | .LSW_HOLD => some (wordOf ((List.range 16).map (fun k => (16 + k, (b.sw k).held.toNat))))
  | _ => none

/-! ### Sessions, links and CAN (12, 17) -/

/-- The code of a session state (LINK_SESS.STATE). -/
def SessState.code : SessState → Nat
  | .closed => 0
  | .hello => 1
  | .opened => 2

/-- The session of an index of the LINK and TXN blocks. -/
def sessOf (i : Nat) : Sess := if i = 0 then .main else .service

/-- LINK_PHY_STAT of a port. In HOLD the links run in low-power idle (R334). -/
def Block.phyStat (b : Block) (p : Port) : Word :=
  wordOf [(16, sat 16 p.trainMs), (8, if p.up then p.sqi else 0),
    (2, (p.up && b.eng.pwr.state == .hold).toNat), (1, p.leader.toNat), (0, p.up.toNat)]

/-- The code of a claim state (CANB_ADDR.STATE). -/
def ClaimState.code : ClaimState → Nat
  | .claiming => 0
  | .claimed => 1
  | .cannotClaim => 2
  | .busOff => 3

/-- A word of a CAN_S window (R375). -/
def CanSFrame.word (f : CanSFrame) (w : Nat) : Word :=
  match w with
  | 0 => f.ident
  | 1 => f.control
  | _ => BitVec.ofNat 32 (leAt (4 * (w - 2)) 4 f.data)

/-- The status words of the sessions, the links and the CAN controllers. -/
def Block.shownLink (b : Block) (r : Reg) (i j : Nat) : Option Word :=
  let s := b.link.sess (sessOf i)
  let c := b.can
  match r with
  | .LINK_SESS => some (wordOf [(16, s.id.toNat), (4, s.endCause.code), (0, s.state.code)])
  | .LINK_SESS_ADDR => some (BitVec.ofNat 32 (s.addr.toNat / 2 ^ (32 * (3 - j))))
  | .LINK_SESS_PORT => some (wordOf [(16, b.link.service.port.toNat), (0, b.link.main.port.toNat)])
  | .LINK_PTP_STAT => some (wordOf [(1, (b.asCapable b.link.portB).toNat), (0, (b.asCapable b.link.portA).toNat)])
  | .LINK_PTP_PD => some (wordOf [(16, sat 16 b.link.portB.linkDelay), (0, sat 16 b.link.portA.linkDelay)])
  | .LINK_PHY_STAT => some (b.phyStat (if i = 0 then b.link.portA else b.link.portB))
  | .CANB_NAME_LO => some b.ident.canIdent
  | .CANB_ADDR => some (wordOf [(8, c.claim.code), (0, c.sa.toNat)])
  | .CANB_CNT => some (wordOf [(24, sat 8 c.tec), (16, sat 8 c.rec_), (8, b.fld .CANB_CNT 0 15 8),
      (0, b.fld .CANB_CNT 0 7 0)])
  | .CANB_DTC => some (wordOf [(8, c.previous.length), (0, c.active.length)])
  | .CANS_RX_STAT => some (wordOf [(16, b.fld .CANS_RX_STAT 0 31 16), (0, c.fifoS.length)])
  | .CANS_RX_WIN => some ((c.fifoS.head?.map (fun f => f.word i)).getD 0)
  | .CANS_TX_STAT => some (wordOf [(8, b.fld .CANS_TX_STAT 0 15 8), (0, c.sendingS.isSome.toNat)])
  | _ => none

/-! ### Queues, transactions, Vigil, events (13 to 15) -/

/-- CMDQ_STAT[q] (R399): why the head request of the queue is held. -/
def Block.queueStat (b : Block) (q : Nat) : Word :=
  let l := nth b.link.queues q []
  let head := l.head?.map (·.hdr)
  let hinted := (head.map (fun h => !hintDue b.time.count h.hint)).getD false
  let fenced := (head.map (fun h => b.fenceHolds h)).getD false
  wordOf [(24, b.fld .CMDQ_STAT q 31 24), (9, fenced.toNat), (8, hinted.toNat), (0, l.length)]

/-- The code of a transaction state (R384). -/
def TxnState.code : TxnState → Nat
  | .none => 0
  | .opened => 1
  | .committing => 2
  | .expired => 3

/-- Whole ms before the timeout of an open transaction (TXN_LEFT, R360). -/
def Txn.left (t : Txn) (now : Nat) : Nat :=
  if t.state = .opened then (t.began + t.timeoutMs * 1000000 - now) / 1000000 else 0

/-- A settings save runs or still holds the store (R392). -/
def Block.saveBusy (b : Block) : Bool := b.upd.save.isSome || b.link.saveBusySince.isSome

/-- The code of a debug state (VIG_DBG_STAT). -/
def DbgState.code : DbgState → Nat
  | .locked => 0
  | .unlocked => 1
  | .halted => 2

/-- The code of a cause (VIG_UNIT.CAUSE). -/
def Cause.code : Cause → Nat
  | .reset => 0
  | .main => 1
  | .service => 2
  | .management => 3
  | .sessionLoss => 4
  | .latchedFault => 5
  | .overrun => 6
  | .ecc => 7
  | .migration => 8
  | .haltLimit => 9

/-- The code of a reset kind (R411). -/
def ResetKind.code : ResetKind → Nat
  | .powerOn => 0
  | .resetN => 1
  | .dormantExit => 2
  | .deviceReset => 3
  | .watchdog => 4
  | .ecc => 5
  | .clockMonitor => 6
  | .lockstep => 7
  | .image => 8

/-- VIG_UNIT[u] (R423). -/
def Block.unitWord (b : Block) (u : Nat) : Word :=
  let e := b.unit u
  let lsw := 104 ≤ u && u < 120 && (b.sw (u - 104)).queued
  if e.state = .absent then 0
  else wordOf [(16, e.cause.code), (15, e.ovr.toNat), (14, (e.queued.isSome || lsw).toNat),
    (13, e.mgmtFence.toNat), (0, e.state.code)]

/-- How many units are in a state. -/
def Block.unitsHolding (b : Block) (s : UnitState) : Nat :=
  (b.vig.units.filter (fun e => e.state == s)).length

/-- The asserted sources as a bit map (EVT_ACT, R431). -/
def Block.assertedMap (b : Block) : BitVec 128 :=
  BitVec.ofNat 128 ((List.range 128).map (fun s => if b.asserted s then 2 ^ s else 0)).sum

/-- ALERT_N is low: an enabled source with R_ALERT = 1 is asserted, the first COMMIT after a reset entry
    has not come, or the V96 is in recovery mode (R432, R473). -/
def Block.alertLow (b : Block) : Bool :=
  b.evt.alertHeld || b.upd.recovery || (List.range 128).any (fun s => b.flag .EVT_CFG s 3 && b.asserted s)

/-- The status words of the queues, transactions, Vigil, events and the Diary; `now` is the instant of the
    read on the model's clock. -/
def Block.shownVig (b : Block) (now : Nat) (r : Reg) (i : Nat) : Option Word :=
  let t := (b.link.sess (sessOf i)).txn
  let d := b.diary
  match r with
  | .CMDQ_STAT => some (b.queueStat i)
  | .TXN_STAT => some (wordOf [(16, t.staged.length), (0, t.state.code)])
  | .TXN_NUM => some t.num
  | .TXN_LEFT => some (wordOf [(0, t.left now)])
  | .TXN_LAST => some (wordOf [(16, t.lastStatus.code.toNat), (0, t.lastIndex.toNat)])
  | .TXN_SAVE => some 0
  | .TXN_SAVE_STAT =>
    some (wordOf [(16, b.upd.saveCount.toNat), (1, b.upd.saveFailed.toNat), (0, b.saveBusy.toNat)])
  | .VIG_STAT =>
    some (wordOf [(24, b.unitsHolding .fenced), (16, b.unitsHolding .faulted), (8, b.unitsHolding .active),
      (0, b.unitsHolding .service)])
  | .VIG_LOGFAIL =>
    some (wordOf [(24, d.logSource.toNat), (16, d.logCode.toNat), (2, d.logEmber.toNat), (1, d.logMram.toNat),
      (0, d.logDiary.toNat)])
  | .VIG_DBG_CHAL => some (BitVec.ofNat 32 (b.vig.challenge.toNat / 2 ^ (32 * i)))
  | .VIG_DBG_STAT =>
    some (wordOf [(24, b.fld .VIG_DBG_STAT 0 31 24), (16, b.fld .VIG_DBG_STAT 0 23 16),
      (8, b.vig.dbgLockSince.isSome.toNat), (0, b.vig.dbg.code)])
  | .VIG_UNIT => some (b.unitWord i)
  | .DEV_RST_CAUSE => some (wordOf [(16, b.vig.wdtCores.toNat), (0, b.vig.kind.code)])
  | .EVT_CFG => some (if i = 126 then b.word .EVT_CFG i ||| 0x11 else b.word .EVT_CFG i)
  | .EVT_PEND => some (BitVec.ofNat 32 (b.evt.pend.toNat / 2 ^ (32 * i)))
  | .EVT_ACT => some (BitVec.ofNat 32 (b.assertedMap.toNat / 2 ^ (32 * i)))
  | .EVT_CTRL => some (b.word .EVT_CTRL ||| flagAt 31 b.alertLow)
  | .EVT_THERM => some (wordOf [(16, saturate 16 b.evt.baseTemp), (0, b.fld .EVT_THERM 0 15 0)])
  | .DIARY_STATE =>
    let by_ := match d.freeze with
      | some f => sessIndex f.by_
      | none => 0
    some (wordOf [(16, d.staging.length), (8, d.fifo.length), (3, d.protectHold.toNat), (2, by_),
      (1, d.freeze.isSome.toNat), (0, d.failed.toNat)])
  | .DIARY_DRAINED => some d.drained
  | .DIARY_EMBER => some ((d.ember.getLast?.map (·.seq)).getD 0xFFFFFFFF)
  | .DIARY_FREEZE => some (match d.freeze with
    | some f => wordOf [(0, sat 10 ((f.since + f.timeoutS * 1000000000 - now) / 1000000000))]
    | none => 0)
  | _ => none

/-! ### Identity and update (00, 16) -/

/-- The code of a slot state (R451). -/
def SlotState.code : SlotState → Nat
  | .empty => 0
  | .partialImage => 1
  | .complete => 2
  | .verified => 3
  | .installed => 4

/-- The code of an update state (R459). -/
def UpdState.code : UpdState → Nat
  | .idle => 0
  | .receiving => 1
  | .complete => 2
  | .verifying => 3
  | .verified => 4
  | .trial => 5
  | .migrationFailed => 6

/-- UPD_STATE.STATE: RECOVERY in recovery mode until the slot is VERIFIED (R473). -/
def Update.shown (u : Update) : Nat := if u.recovery && u.state != .verified then 7 else u.state.code

/-- The winning boot record (R453). -/
def Update.winner (u : Update) : Option BootRecord :=
  match u.rec0.valid, u.rec1.valid with
  | true, true => if seqNewer u.rec1.seq u.rec0.seq then some u.rec1 else some u.rec0
  | true, false => some u.rec0
  | false, true => some u.rec1
  | false, false => none

/-- The target slot: the one that the winning record does not name, slot A in recovery mode (R459,
    R473). -/
def Update.target (u : Update) : Bool :=
  if u.recovery then false
  else match u.winner with
    | some r => !r.slot
    | none => true

/-- A settings store: false for A, true for B. -/
def Update.store (u : Update) (k : Bool) : Store := if k then u.storeB else u.storeA

/-- The active copy of a store: the valid copy with the higher generation (R454). -/
def Store.active (s : Store) : Option SettingsCopy :=
  match s.copy0.valid, s.copy1.valid with
  | true, true => if s.copy0.generation < s.copy1.generation then some s.copy1 else some s.copy0
  | true, false => some s.copy0
  | false, true => some s.copy1
  | false, false => none

/-- The status words of identity and update. -/
def Block.shownUpd (b : Block) (r : Reg) (i : Nat) : Option Word :=
  let u := b.upd
  let t := u.slot u.target
  let w := u.winner.getD {}
  match r with
  | .DEV_ID => some b.devId
  | .DEV_FWVER => some b.devFwver
  | .DEV_VIGVER => some b.devVigver
  | .DEV_CAPS => some b.devCaps
  | .DEV_SERIAL_LO => some (BitVec.ofNat 32 b.ident.serial.toNat)
  | .DEV_SERIAL_HI => some (BitVec.ofNat 32 (b.ident.serial.toNat / 2 ^ 32))
  | .DEV_ALARM_LO => some (BitVec.ofNat 32 b.time.rtc.alarm.toNat)
  | .DEV_ALARM_HI =>
    some (wordOf [(31, b.time.rtc.alarmEn.toNat), (0, b.time.rtc.alarm.toNat / 2 ^ 32)])
  | .UPD_STATE =>
    some (wordOf [(24, u.vpart), (16, u.vres), (12, w.starts), (10, u.running.toNat), (8, u.target.toNat),
      (0, u.shown)])
  | .UPD_OFFSET => some (BitVec.ofNat 32 t.offset)
  | .UPD_LEN => some (BitVec.ofNat 32 t.length)
  | .UPD_ID => some (BitVec.ofNat 32 (leAt (4 * i) 4 t.identity))
  | .UPD_BOOT => some w.seq
  | .UPD_SEC => some (wordOf [(16, if u.recovery then 0 else u.info.svn), (0, w.minSvn)])
  | .UPD_KEYS => some (wordOf [(0, u.revoked.toNat)])
  | .UPD_SLOT =>
    let s := u.slot (i == 1)
    let svn := if s.state = .empty ∨ s.state = .partialImage then 0 else s.info.svn
    some (wordOf [(16, svn), (0, s.state.code)])
  | .UPD_STORE =>
    let c := (u.store (i == 1)).active
    let held : SettingsCopy := c.getD {}
    some (wordOf [(16, held.schema), (2, held.generation % 16384), (1, (w.valid && w.store == (i == 1)).toNat),
      (0, c.isSome.toNat)])
  | .UPD_MIG => some (wordOf [(8, u.migAddr), (0, u.migResult)])
  | .UPD_CNT => some (wordOf [(16, u.activations.toNat), (8, sat 8 u.reverts), (0, sat 8 u.vfail)])
  | _ => none

/-! ### What a read returns (R8, R9, R379) -/

/-- The bits of a register that a read returns: reserved and WO bits read 0 (R8, R9). -/
def readMask (d : RegDesc) : Word :=
  d.fields.foldl (fun w f =>
    if f.acc == .wo then w else w ||| BitVec.ofNat 32 (bitsOf 0xFFFFFFFF (f.msb - f.lsb) 0 * 2 ^ f.lsb)) 0

/-- The word that a plain read of NAME[i][j] by session `k` returns at the instant `now` of the model's
    clock: latched registers, RES_OWNER and the registers whose read draws a free value apart. -/
def Block.readWord (b : Block) (k : Sess) (now : Nat) (r : Reg) (i j : Nat) : Word :=
  let p := b.published
  let sel := bits (b.sessWord k .POSE_PROBE_SEL) 6 0
  let found := (b.shownTime now r).orElse (fun _ => (p.shownFb r i).orElse (fun _ =>
    (p.shownPose r sel).orElse (fun _ => (p.shownMap k r i).orElse (fun _ =>
    (p.shownAlm b k r i).orElse (fun _ => (p.shownValve r i).orElse (fun _ =>
    (p.shownMot r i).orElse (fun _ => (p.shownLoop r i).orElse (fun _ =>
    (p.shownPower r i).orElse (fun _ => (b.shownLink r i j).orElse (fun _ =>
    (b.shownVig now r i).orElse (fun _ => b.shownUpd r i)))))))))))
  let stored := if (desc r).source == .session then b.sessWord k r i else b.word r i j
  readMask (desc r) &&& found.getD stored

end Sys2Proof.Machine
end

