-- ==== Sys2Proof/Machine/Claims.lean ====
section
/-! DEFINITION. Resource claims (13, R393 to R397) and what a configuration must satisfy at a commit:
    ranges and encodings, consistency between registers, the unit states that changes need (checks 2 to 5
    of R387). -/

namespace Sys2Proof.Machine

open Sys2Proof (Word Byte Bytes Sess Hdr Instr)

/-! ### Claims (R393) -/

/-- A claim: the resource by its index in RES_OWNER, its owner's word, the configuration words that
    cause it. -/
structure Claim where
  res : Nat
  owner : Word
  words : List Nat
  deriving DecidableEq, Repr

/-- The owner word of a unit and of a function (R361). -/
def unitOwner (u : Nat) : Word := fieldAt 24 2 ||| BitVec.ofNat 32 u
def fnOwner (f : Nat) : Word := fieldAt 24 3 ||| BitVec.ofNat 32 f

/-- The inputs that AXIS_BIND names: A, B, C, Z. -/
def Block.bound (b : Block) (a : Nat) : List Nat :=
  [b.fld .AXIS_BIND a 5 0, b.fld .AXIS_BIND a 13 8, b.fld .AXIS_BIND a 21 16, b.fld .AXIS_BIND a 29 24]

/-- The claims of an axis (R76, R393): each input that AXIS_BIND names, whatever TYPE, and the port of a SERIAL
    axis. -/
def Block.axisClaims (b : Block) (a : Nat) : List Claim :=
  let t := b.axisType a
  let words := [addr .AXIS_CFG a, addr .AXIS_BIND a]
  let claim (r : Nat) : Claim := { res := r, owner := unitOwner (unitAxis a), words := words }
  let inputs (l : List Nat) : List Claim := (l.filter (fun i => Decidable.decide (i ≤ 48))).map claim
  if t = 5 then claim (49 + b.fld .AXIS_BIND a 5 0 % 4) :: inputs ((b.bound a).drop 1)
  else if t = 6 then inputs ((b.bound a).drop 1)
  else inputs (b.bound a)

/-- The claims of a serial port's mode (R480). -/
def Block.portClaims (b : Block) (p : Nat) : List Claim :=
  let claim (r : Nat) : Claim := { res := r, owner := fnOwner (0x220 + p), words := [addr .SP_CFG p] }
  match b.fld .SP_CFG p 1 0 with
  | 1 => [claim (40 + p)]
  | 2 => [claim (40 + p), claim (44 + p)]
  | _ => []

/-- The claims of pin CMPp (R393, R396, R481): its lane, its function, or the trip input on its contact. -/
def Block.pinClaims (b : Block) (p : Nat) : List Claim :=
  let fn := b.fld .RES_PIN_CFG p 1 0
  let claim (o : Word) (words : List Nat) : Claim := { res := 58 + p, owner := o, words := words }
  let trip := 4 ≤ p ∧ b.flag .MDRV_TRIP_CFG (p - 4) 9
  let owned := (b.laneUnit (120 + p)).isSome
  (if fn = 1 ∧ (owned ∨ trip) then [claim (fnOwner (0x100 + 120 + p)) [addr .RES_PIN_CFG p, addr .RES_LANE p]]
   else [])
  ++ (if 2 ≤ fn then [claim (fnOwner (0x300 + p)) [addr .RES_PIN_CFG p]] else [])
  ++ (if trip then [claim (fnOwner (0x230 + (p - 4))) [addr .MDRV_TRIP_CFG (p - 4)]] else [])

/-- The claims of the target of lane 128 to 159 (R189). -/
def Block.targetClaims (b : Block) (l : Nat) : List Claim :=
  let t := b.fld .CMP_CFG l 23 16
  let claim (r : Nat) : Claim := { res := r, owner := fnOwner (0x100 + l), words := [addr .CMP_CFG l] }
  if t < 8 then [claim (58 + t)] else if 16 ≤ t ∧ t < 112 then [claim (106 + (t - 16))] else []

/-- The claims that the committed configuration makes (R393). -/
def Block.claims (b : Block) : List Claim :=
  ((List.range 32).map b.axisClaims).flatten ++ ((List.range 4).map b.portClaims).flatten
  ++ ((List.range 4).filter (fun p => b.fld .PT_CFG p 1 0 != 0)).map (fun p =>
      { res := 53 + p, owner := fnOwner (0x210 + p), words := [addr .PT_CFG p] })
  ++ (if b.fld .GSPD_CFG 0 13 8 ≠ 63 then
      [{ res := 57, owner := fnOwner 0x200, words := [addr .GSPD_CFG] }] else [])
  ++ ((List.range 8).map b.pinClaims).flatten
  ++ ((List.range 40).filter (fun j => (b.laneUnit (120 + j)).isSome)).map (fun j =>
      { res := 66 + j, owner := unitOwner (b.fld .RES_LANE j 7 0), words := [addr .RES_LANE j] })
  ++ ((List.range 32).map (fun j => b.targetClaims (128 + j))).flatten
  ++ ((List.range 4).filter (fun j => b.propPaired (2 * j))).map (fun j =>
      { res := 202 + j, owner := unitOwner (unitProp (2 * j)), words := [addr .PROP_CFG (2 * j)] })
  ++ ((List.range 16).filter (fun u => b.fld .MDRV_CFG u 3 2 == 2)).map (fun u =>
      { res := 206 + b.fld .MDRV_CFG u 20 16, owner := unitOwner (unitMot u), words := [addr .MDRV_CFG u] })
  ++ ((List.range 8).filter (fun k => b.fld .PROP_CFG k 1 0 == 1)).map (fun k =>
      { res := 206 + b.fld .PROP_CFG k 12 8, owner := unitOwner (unitProp k), words := [addr .PROP_CFG k] })

/-- RES_OWNER[i] (R393, R397): the trace buffer's owner is its session, every other's the configuration's;
    nothing is owned before the first COMMIT after a reset. -/
def Block.ownerWord (b : Block) (i : Nat) : Word :=
  if b.vig.starting then 0
  else if i = 238 then
    match b.pub.loop.trace.owner with
    | some o => sessionOwner o.2
    | none => 0
  else ((b.claims.find? (fun c => c.res == i)).map (·.owner)).getD 0

/-! ### Absent resources (R1 to R3) -/

/-- NAME[i] belongs only to an absent resource of the variant. The owner entries of absent nozzles stand in the
    claim table: they read 0 and answer a write READ_ONLY as every RES_OWNER does (log entry 75). -/
def Block.absentReg (b : Block) (r : Reg) (i : Nat) : Bool :=
  let nozzle := b.ident.variant == .p && Decidable.decide (48 ≤ i)
  let lane := nozzle && Decidable.decide (i < 96)
  let bank := b.ident.variant == .p && Decidable.decide (6 ≤ i)
  let bridge := b.ident.variant == .s && Decidable.decide (i < 8)
  match r with
  | .NOZ_CFG | .NOZ_PEAK | .NOZ_HOLD | .NOZ_FLOW | .NOZ_DET_OPEN | .NOZ_DET_CLOSE | .NOZ_LEARN | .NOZ_DLIM
  | .NOZ_STATE | .NOZ_OUT | .NOZ_MEAS | .NOZ_DLY | .NOZ_FLT | .NOZ_CNT0 | .NOZ_CNT1 | .NOZ_INIT
  | .ALM_NOZ_GEOM | .ALM_NOZ_CFG | .ALM_NOZ_STATE | .ALM_NOZ_LEAD => nozzle
  | .CMP_CFG | .CMP_STATUS | .CMP_NEXT_LO | .CMP_NEXT_HI | .CMP_CNT | .CMP_FIRE_LO | .CMP_FIRE_HI
  | .CMP_CAPT => lane
  | .BANK_CFG | .BANK_STATE | .BANK_CNT | .BANK_FLT => bank
  | .MDRV_CFG | .MDRV_DT | .MDRV_MINP | .MDRV_BOOT | .MDRV_PROT | .MDRV_STOP | .MDRV_COMM | .MDRV_CARRIER
  | .MDRV_SET | .MDRV_RST | .MDRV_SHADOW | .MDRV_ACT | .MDRV_DUTY | .MDRV_STATE | .MDRV_I_AB | .MDRV_I_C
  | .MDRV_OVL | .MDRV_CNT0 | .MDRV_CNT1 | .MDRV_COMM_CNT | .MDRV_FLT => bridge
  | _ => false

/-! ### Check 2: ranges and encodings (R10, R387) -/

/-- A value lies in its field's range; a range that begins below 0 is of a signed field. -/
def Field.accepts (f : Field) (v : Word) : Bool :=
  let x : Int := if f.min < 0 then sbits v f.msb f.lsb else bits v f.msb f.lsb
  Decidable.decide (f.min ≤ x) && Decidable.decide (x ≤ f.max)

/-- The field takes writes. -/
def Field.writable (f : Field) : Bool := f.acc != .ro && f.acc != .rc

/-- The carrier periods P in fine steps for K = 1 to 4 (R242). -/
def carrierP (k : Nat) : Nat :=
  match k with
  | 1 => 640000
  | 2 => 320000
  | 3 => 213333
  | _ => 160000

/-- A float register value is acceptable: finite (R279), and not negative where R296 says so. -/
def floatOk (notNeg : Bool) (v : Word) : Bool := ffinite v && !(notNeg && flt v 0)

/-- Encodings that the fields' ranges alone do not tell (R10 and the owning chapters). -/
def Block.encodingOk (b : Block) (r : Reg) (i j : Nat) (v : Word) : Bool :=
  let f (msb lsb : Nat) : Nat := bits v msb lsb
  let input (n : Nat) : Bool := n ≤ 48 || n == 63
  match r with
  | .AXIS_CFG => f 18 16 == 0 || 4 ≤ f 18 16
  | .AXIS_BIND => input (f 5 0) && input (f 13 8) && input (f 21 16) && input (f 29 24)
  | .FB_CFG => !v.getLsbD 15 || i ≤ 7
  | .GSPD_CFG => f 13 8 ≤ 32 || f 13 8 == 63
  | .CMP_CFG =>
    if i < 96 then f 1 0 == 0
    else if i < 128 then true
    else f 23 16 < 8 || (16 ≤ f 23 16 && f 23 16 < 112) || f 23 16 == 255
  | .RES_LANE => f 7 0 == 255 || (f 7 0 < 203 && b.present (f 7 0))
  | .EVT_CFG =>
    let w := bits v 7 0 &&& 0xFD
    if sourceNamed i then isCondition i || !v.getLsbD 7 else w == 0
  | .PROP_CFG => !v.getLsbD 2 || i % 2 == 0
  | .MDRV_CARRIER => f 31 12 < carrierP (f 2 0)
  | .VIG_UNIT => [0, 1, 2, 3, 5].contains (f 26 24)
  | .LOOP_SET_A | .LOOP_SET_B => floatOk (j == 3) v
  | .LOOP_BIQUAD | .LOOP_COEF | .LOOP_RES_LIM | .LOOP_FERR_LIM => floatOk false v
  | .LOOP_VMAX | .LOOP_AMAX | .LOOP_JMAX => floatOk true v
  | .PROP_TARGET => f 13 0 ≤ b.propMax i
  | .DIARY_DRAINED => (b.drainTo v 0).isSome
  | _ => true

/-- A word lies in the range of each of its fields. -/
def Block.rangeOk (b : Block) (r : Reg) (i j : Nat) (v : Word) : Bool :=
  (desc r).fields.all (fun f => !f.writable || f.accepts v) && b.encodingOk r i j v

/-! ### Check 3: consistency -/

/-- A rule on the configuration that a written word takes part in. With `main` the write fails whenever
    the rule does not hold; without, when the transaction breaks it. -/
structure Rule where
  main : Bool := true
  ok : Block → Bool

/-- AXIS_BIND suits the axis's type (R75). -/
def bindOk (a : Nat) (b : Block) : Bool :=
  let t := b.axisType a
  let l := b.bound a
  let has (k : Nat) : Bool := nth l k 63 != 63
  let named := (if t = 5 ∨ t = 6 then l.drop 1 else l).filter (· != 63)
  let needs := match t with
    | 1 => has 0 && has 1
    | 2 => has 0 && has 1 && has 2
    | 3 => has 0
    | 4 => has 0 && has 2
    | 5 => nth l 0 63 ≤ 3 && !has 3
    | 6 => nth l 0 63 ≤ 1 && !has 3
    | _ => true
  needs && named.eraseDups.length == named.length
    && ((l.drop 1).all (· != 48)) && (t == 3 || nth l 0 63 != 48)

/-- The soft limits of a linear axis are in order (R82), and it does not check an index (R86). -/
def linearOk (a : Nat) (b : Block) : Bool :=
  b.rotary a || (Decidable.decide ((b.word .AXIS_LIM_LO a).toInt ≤ (b.word .AXIS_LIM_HI a).toInt)
    && !b.flag .AXIS_CFG a 12)

/-- A rotary axis has at least 2 counts, and its index lies below CPR (R83, AXIS_IDX_POS). -/
def rotaryOk (a : Nat) (b : Block) : Bool :=
  let cpr := b.fld .AXIS_CPR a 30 0
  !b.rotary a || (2 ≤ cpr && Decidable.decide ((b.word .AXIS_IDX_POS a).toNat < cpr))

/-- The index of an axis lies below CPR (AXIS_IDX_POS, R105). -/
def indexOk (a : Nat) (b : Block) : Bool :=
  Decidable.decide ((b.word .AXIS_IDX_POS a).toNat < b.fld .AXIS_CPR a 30 0)

/-- A preset lies within the linear limits, or below CPR (R84). -/
def presetOk (a : Nat) (b : Block) : Bool :=
  let p := (b.word .AXIS_PRESET a).toInt
  if b.rotary a then Decidable.decide (0 ≤ p) && Decidable.decide (p < b.fld .AXIS_CPR a 30 0)
  else Decidable.decide ((b.word .AXIS_LIM_LO a).toInt ≤ p)
    && Decidable.decide (p ≤ (b.word .AXIS_LIM_HI a).toInt)

/-- A pass-through output names a source of its mode (R102). -/
def passOk (p : Nat) (b : Block) : Bool :=
  match b.fld .PT_CFG p 1 0 with
  | 1 => b.fld .PT_CFG p 13 8 ≤ 48
  | 2 => b.fld .PT_CFG p 13 8 ≤ 31
  | _ => true

/-- A serial port's clock suits its mode (R96, R97). -/
def portOk (p : Nat) (b : Block) : Bool :=
  let period := b.fld .SP_CFG p 31 24
  match b.fld .SP_CFG p 1 0 with
  | 1 => 6 ≤ period && period ≤ 180
  | 2 => 25 ≤ period && (b.fld .SP_CFG p 21 16 + 1) * 2 * period * 10 + b.fld .SP_CFG p 15 11 * 2000 ≤ 90000
  | _ => true

/-- The inertial sensor's two directions are not parallel (POSE_IMU_MOUNT). -/
def mountOk (b : Block) : Bool := b.fld .POSE_IMU_MOUNT 0 6 4 / 2 != b.fld .POSE_IMU_MOUNT 0 2 0 / 2

/-- Enabled products have field identities, and different ones (R136). -/
def prodOk (b : Block) : Bool :=
  (!b.prodOn 0 || b.prodFid 0 != 0) && (!b.prodOn 1 || b.prodFid 1 != 0)
    && !(b.prodOn 0 && b.prodOn 1 && b.prodFid 0 == b.prodFid 1)

/-- A nozzle in MODE MAP has an enabled product (R164). -/
def nozProdOk (n : Nat) (b : Block) : Bool :=
  b.fld .ALM_NOZ_CFG n 21 20 != 1
    || (b.fld .ALM_NOZ_CFG n 17 16 ≤ 1 && b.prodOn (b.fld .ALM_NOZ_CFG n 17 16))

/-- A lane's nozzle target is in MODE AXIS (R393). -/
def targetOk (l : Nat) (b : Block) : Bool :=
  let t := b.fld .CMP_CFG l 23 16
  !(16 ≤ t && t < 112) || b.fld .ALM_NOZ_CFG (t - 16) 21 20 == 2

/-- A detection window ends after it starts (NOZ_DET_OPEN). -/
def detOk (r : Reg) (n : Nat) (b : Block) : Bool := b.fld r n 19 8 < b.fld r n 31 20

/-- A proportional channel's peak current suits its pairing (R239). -/
def peakOk (k : Nat) (b : Block) : Bool := b.fld .PROP_PEAK k 12 0 ≤ if b.propPaired k then 6000 else 3000

/-- SIX_STEP reads a HALL axis (R250). -/
def hallOk (u : Nat) (b : Block) : Bool :=
  b.fld .MDRV_CFG u 1 0 != 0 || b.axisType (b.fld .MDRV_COMM u 4 0) == 2

/-- A slot's run phase lies below its divider (R272). -/
def phaseOk (s : Nat) (b : Block) : Bool := b.loopPhase s < b.loopN s

/-- The declared loop budgets (R275). -/
def budgetOk (b : Block) : Bool := b.loopBudget.1 ≤ 10400 && b.loopBudget.2 ≤ 27080

/-- A biquad's poles lie inside the unit circle (R279). -/
def biquadOk (s k : Nat) (b : Block) : Bool :=
  let a1 := b.word .LOOP_BIQUAD s (5 * k + 3)
  let a2 := b.word .LOOP_BIQUAD s (5 * k + 4)
  flt (fabs a2) oneF && flt (fabs a1) (fadd oneF a2)

/-- The output and integrator limits of the sets that a PID slot uses are in order (R279). -/
def limitsOk (s : Nat) (b : Block) : Bool :=
  let ok (setB : Bool) : Bool :=
    let c := b.loopCoefs s setB
    flt (nth c 6 0) (nth c 7 0) && !flt (nth c 9 0) (nth c 8 0)
  b.loopType s != 1 || (ok (b.flag .LOOP_SEL s 0)
    && (!(b.flag .LOOP_OBS_USE s 6 && b.flag .LOOP_OBS_USE s 7) || ok true))

/-- How many set-point sources lie above a slot, up to `fuel`. -/
def Block.chainOf (b : Block) : Nat → Nat → Nat
  | 0, _ => 0
  | fuel + 1, s => if b.loopSrc s = 1 then b.chainOf fuel (b.loopSrcSlot s) + 1 else 0

/-- A slot's set-point source (R283): a PID slot, in no loop and no chain of more than 4 levels, with a
    rate and phase that fit. -/
def sourceOk (s : Nat) (b : Block) : Bool :=
  let q := b.loopSrcSlot s
  b.loopType s != 1 || b.loopSrc s != 1
    || (b.loopType q == 1 && b.loopN q % b.loopN s == 0
      && b.loopPhase q % b.loopN s == b.loopPhase s % b.loopN s && b.chainOf 5 s ≤ 3)

/-- A slot's observer runs with it (R284). -/
def observerOk (s : Nat) (b : Block) : Bool :=
  match b.loopObs s with
  | some q => b.loopType s != 1 || (b.loopN q == b.loopN s && b.loopPhase q == b.loopPhase s)
  | none => true

/-- A row's phase lies below its spacing, the drop position of a row slot below CPR (LOOP_ROW_PHASE,
    LOOP_ROW_DROP). -/
def rowOk (s : Nat) (b : Block) : Bool :=
  Decidable.decide ((b.word .LOOP_ROW_PHASE s).toNat < (b.word .LOOP_ROW_SPACING s).toNat)
    && (b.loopType s != 1 || b.loopSrc s != 2
      || b.fld .LOOP_ROW_DROP s 30 0 < b.fld .AXIS_CPR (b.loopAxis s) 30 0)

/-- A switch's inrush limit lies from ILIM to min(3 ILIM, 24 A) (LSW_LIMIT). -/
def inrushOk (k : Nat) (b : Block) : Bool :=
  let i := b.fld .LSW_LIMIT k 6 0
  let ir := b.fld .LSW_LIMIT k 31 24
  i ≤ ir && ir ≤ min (3 * i) 240

/-- The rules of every loop slot that can depend on another slot. -/
def slotRules : List Rule :=
  ((List.range 32).map (fun s => [{ main := false, ok := sourceOk s }, { main := false, ok := observerOk s }])).flatten

/-- The rules that a write of NAME[i][j] takes part in. -/
def rulesOf (r : Reg) (i j : Nat) : List Rule :=
  let all (l : List (Block → Bool)) : List Rule := l.map (fun p => { ok := p })
  match r with
  | .AXIS_CFG =>
    all [bindOk i, linearOk i, rotaryOk i] ++ (List.range 16).map (fun u => { main := false, ok := hallOk u })
  | .AXIS_BIND => all [bindOk i]
  | .AXIS_CPR => all [rotaryOk i] ++ (List.range 32).map (fun s => { main := false, ok := rowOk s })
  | .AXIS_IDX_POS => all [indexOk i]
  | .AXIS_LIM_LO | .AXIS_LIM_HI => all [linearOk i]
  | .AXIS_PRESET => all [presetOk i]
  | .PT_CFG => all [passOk i]
  | .SP_CFG => all [portOk i]
  | .POSE_IMU_MOUNT => all [mountOk]
  | .MAP_PROD => all [prodOk] ++ (List.range 96).map (fun n => { main := false, ok := nozProdOk n })
  | .ALM_NOZ_CFG =>
    all [nozProdOk i] ++ (List.range 32).map (fun l => { main := false, ok := targetOk (128 + l) })
  | .CMP_CFG => if 128 ≤ i then all [targetOk i] else []
  | .NOZ_DET_OPEN => all [detOk .NOZ_DET_OPEN i]
  | .NOZ_DET_CLOSE => all [detOk .NOZ_DET_CLOSE i]
  | .PROP_PEAK => all [peakOk i]
  | .PROP_CFG => [{ main := false, ok := peakOk i }]
  | .MDRV_CFG | .MDRV_COMM => all [hallOk i]
  | .LOOP_CFG =>
    all [phaseOk i, budgetOk, limitsOk i, sourceOk i, observerOk i] ++ slotRules ++ [{ main := false, ok := rowOk i }]
  | .LOOP_IN => all [budgetOk, sourceOk i, rowOk i] ++ slotRules
  | .LOOP_OBS_USE => all [observerOk i, limitsOk i]
  | .LOOP_OBS_MODEL => all [budgetOk]
  | .LOOP_BIQUAD => all [biquadOk i (j / 5)]
  | .LOOP_SET_A | .LOOP_SET_B | .LOOP_SEL => all [limitsOk i]
  | .LOOP_ROW_SPACING | .LOOP_ROW_PHASE | .LOOP_ROW_DROP => all [rowOk i]
  | .LSW_LIMIT => all [inrushOk i]
  | _ => []

/-- A rule holds for a transaction from one configuration to another. -/
def Rule.holds (r : Rule) (old new : Block) : Bool := r.ok new || (!r.main && !r.ok old)

/-! ### Check 4: the unit states that a change needs -/

/-- Some of the bits msb:lsb differ. -/
def differ (old new : Word) (l : List (Nat × Nat)) : Bool :=
  l.any (fun f => bits old f.1 f.2 != bits new f.1 f.2)

/-- The units that must be STANDBY for a committed change of NAME[i] (R77, R108, R136, R164, R253,
    R270). -/
def standbyFor (r : Reg) (i : Nat) (old new : Word) : List Nat :=
  let when_ (l : List (Nat × Nat)) (us : List Nat) : List Nat := if differ old new l then us else []
  match r with
  | .AXIS_CFG => when_ [(6, 0)] [unitAxis i]
  | .AXIS_BIND | .AXIS_CPR => when_ [(31, 0)] [unitAxis i]
  | .ALM_NOZ_GEOM | .ALM_NOZ_CFG => when_ [(31, 0)] [unitNoz i]
  | .MAP_PROD => when_ [(31, 0)] (List.range 96)
  | .MDRV_CFG => when_ [(3, 0), (6, 6), (10, 8), (20, 16)] [unitMot i]
  | .LOOP_CFG => when_ [(1, 0), (25, 14)] [unitLoop i]
  | .LOOP_IN | .LOOP_OBS_USE | .LOOP_OBS_MODEL => when_ [(31, 0)] [unitLoop i]
  | _ => []

/-- The unit that bars a committed change of NAME[i], if one does (R77 and the others; R395). -/
def Block.barredBy (b : Block) (r : Reg) (i : Nat) (old new : Word) : Option Nat :=
  match r with
  | .RES_LANE =>
    if old = new then none
    else [bits old 7 0, bits new 7 0].find? (fun u => Decidable.decide (u < 203) && b.runs u)
  | _ => (standbyFor r i old new).find? (fun u => b.present u && (b.unit u).state != .standby)

/-! ### Check 5: claims (R394) -/

/-- The place of a claim in a transaction's order: one more than the last staged write among the words
    that cause it. -/
def claimOrder (staged : List Nat) (c : Claim) : Nat :=
  (staged.zipIdx.foldl (fun acc x => if c.words.contains x.1 then x.2 + 1 else acc) 0)

/-- A claim that meets another owner: the staged write that fails, and the owner it names. -/
def claimClash : List Claim → List (Nat × Claim) → Option (Nat × Word)
  | _, [] => none
  | held, (n, c) :: rest =>
    match held.find? (fun x => x.res == c.res && x.owner != c.owner) with
    | some x => some (n - 1, x.owner)
    | none => claimClash (c :: held) rest

/-- A claim put in its place. -/
def insertClaim (x : Nat × Claim) : List (Nat × Claim) → List (Nat × Claim)
  | [] => [x]
  | y :: rest => if y.1 ≤ x.1 then y :: insertClaim x rest else x :: y :: rest

/-- The first new claim of a transaction that fails (R394): claims given up are released first, and new
    ones are made in staging order. -/
def claimsFail (old new : Block) (staged : List Nat) : Option (Nat × Word) :=
  let before := old.claims
  let same (c d : Claim) : Bool := c.res == d.res && c.owner == d.owner
  let kept := new.claims.filter (fun c => before.any (same c))
  let fresh := new.claims.filter (fun c => !before.any (same c))
  claimClash kept ((fresh.map (fun c => (claimOrder staged c, c))).foldl (fun acc x => insertClaim x acc) [])

/-- A new pairing whose other channel is not STANDBY (R235): the staged write and the unit it names. -/
def pairFails (old new : Block) (staged : List Nat) : Option (Nat × Word) :=
  ((List.range 4).find? (fun j =>
    new.propPaired (2 * j) && !old.propPaired (2 * j) && (new.unit (unitProp (2 * j + 1))).state != .standby)).map
    (fun j => (claimOrder staged { res := 0, owner := 0, words := [addr .PROP_CFG (2 * j)] } - 1,
      unitOwner (unitProp (2 * j + 1))))

end Sys2Proof.Machine
end

