-- ==== Sys2Proof/Machine/Stores.lean ====
section
/-! DEFINITION. The settings stores (13, 16): what they hold, the saving of the configuration and of the
    session keys: R374, R391, R392, R454, R455. -/

namespace Sys2Proof.Machine

open Sys2Proof (Word Byte Bytes Sess Hdr Instr)

/-- The block with the update state replaced by its image. -/
def Block.modUpd (b : Block) (f : Update → Update) : Block := { b with upd := f b.upd }

/-- The update state with a settings store replaced by its image. -/
def Update.modStore (u : Update) (k : Bool) (f : Store → Store) : Update :=
  if k then { u with storeB := f u.storeB } else { u with storeA := f u.storeA }

/-- The active store: the one that the winning boot record names (R454). -/
def Update.storeNow (u : Update) : Bool :=
  match u.winner with
  | some r => r.store
  | none => false

/-- The copy that is active is copy 1. -/
def Store.second (s : Store) : Bool :=
  s.copy1.valid && (!s.copy0.valid || Decidable.decide (s.copy0.generation < s.copy1.generation))

/-- The store with the settings copy that is not active replaced by its image (R455). -/
def Store.modSpare (s : Store) (f : SettingsCopy → SettingsCopy) : Store :=
  if s.second then { s with copy0 := f s.copy0 } else { s with copy1 := f s.copy1 }

/-- The active key copy of a store (R454). -/
def Store.keys (s : Store) : KeyCopy :=
  if s.key1.valid && (!s.key0.valid || Decidable.decide (s.key0.generation < s.key1.generation)) then s.key1
  else s.key0

/-- A key write (R374, R455): into the copy that is not active, one generation higher. -/
def Store.putKeys (s : Store) (main service : Bytes) : Store :=
  let k : KeyCopy := { valid := true, generation := s.keys.generation + 1, main := main, service := service }
  if s.key1.valid && (!s.key0.valid || Decidable.decide (s.key0.generation < s.key1.generation)) then
    { s with key0 := k }
  else { s with key1 := k }

/-- A whole committed key stored in both stores; it governs the next SESSION_OPEN of its kind (R374). During
    a trial the old store is not written (R468). -/
def Block.storeKey (b : Block) (k : Sess) (key : Bytes) : Block :=
  let b1 := match k with
    | .main => b.modLink (fun l => { l with keyMain := key })
    | .service => b.modLink (fun l => { l with keyService := key })
  let main := b1.link.keyMain
  let service := b1.link.keyService
  let now := b1.upd.storeNow
  let both := b1.upd.state != .trial
  b1.modUpd (fun u => { u with
    storeA := if both || !now then u.storeA.putKeys main service else u.storeA
    storeB := if both || now then u.storeB.putKeys main service else u.storeB })

/-- The bits of a register's fields whose access code is one of `l`. -/
def fieldMask (d : RegDesc) (l : List Acc) : Word :=
  d.fields.foldl (fun w f =>
    if l.contains f.acc then w ||| BitVec.ofNat 32 ((2 ^ (f.msb + 1 - f.lsb) - 1) * 2 ^ f.lsb) else w) 0

/-- The running configuration: the words that hold an RWS field and differ from their reset word, each
    with its RWS fields only (R391, R454). -/
def Block.rwsWords (b : Block) : RegFile :=
  b.regs.filterMap (fun x =>
    match regAt x.1 with
    | none => none
    | some (r, i, j) =>
      let m := fieldMask (desc r) [.rws]
      let w := (resetWord r i j &&& ~~~m) ||| (x.2 &&& m)
      if m = 0 ∨ w = resetWord r i j then none else some (x.1, w))

/-- A settings word loaded into its register (R391). -/
def Block.loadWord (b : Block) (a : Nat) (w : Word) : Block :=
  match regAt a with
  | none => b
  | some (r, i, j) =>
    let m := fieldMask (desc r) [.rws]
    b.setWord r i j ((b.word r i j &&& ~~~m) ||| (w &&& m))

/-- A save starts (R392, R455): the copy that is not active loses its valid mark. -/
def Block.saveStart (b : Block) (at_ : Nat) : Block :=
  let k := b.upd.storeNow
  let gen := ((b.upd.store k).active.map (·.generation)).getD 0 + 1
  let b1 := b.modUpd (fun u => { u.modStore k (fun s => s.modSpare (fun c =>
      { c with valid := false, broken := true, reported := false })) with
    save := some { since := b.now at_, words := [], generation := gen } })
  b1.modLink (fun l => { l with saveBusySince := some (b.now at_) })

/-- The words that a save begun at this COMMIT writes: the configuration as it stands after the COMMIT
    (R392). -/
def Block.saveTake (b : Block) (at_ : Nat) : Block :=
  match b.upd.save with
  | some s =>
    if s.since = b.now at_ then
      let words := b.rwsWords
      b.modUpd (fun u => { u with save := some { s with words := words } })
    else b
  | none => b

/-- A SAVE_FAIL (R455, R474): its code, the generation not written. -/
def Block.saveFail (b : Block) (code : Byte) (generation : Nat) (at_ : Nat) : Block :=
  (b.modUpd (fun u => { u with saveFailed := true })).raise 22 code
    (payS (b.upd.storeNow.toNat + generation % 2 ^ 32 * 2 ^ 32)) at_

/-- SETTINGS_SAVE_COMPLETE (R455): the copy has been read back, well or badly. -/
def execSettingsSaveComplete (good : Bool) : State → Host.Outcome State Fault Refusal :=
  lift (fun b =>
    match b.upd.save with
    | none => b
    | some s =>
      if !b.coresRun then b
      else
        let k := b.upd.storeNow
        let schema := b.runInfo.schema
        let mark := (b.upd.store k).active.bind (·.mark)
        if good then
          b.modUpd (fun u => { u.modStore k (fun x => x.modSpare (fun _ =>
              { valid := true, generation := s.generation, schema := schema, words := s.words
                mark := mark })) with
            save := none, saveFailed := false, saveCount := u.saveCount + 1 })
        else
          let place := (if k then 0x1080000 else 0x1000000)
            + (if (b.upd.store k).second then 0x2000 else 0x41000)
          let b1 := (b.modUpd (fun u => { u.modStore k (fun x => x.modSpare (fun c =>
            { c with reported := true })) with save := none })).mramFail place 0
          b1.saveFail 1 s.generation 0)

/-- SAVE_HOLD_END (R392): 200 ms from a save's start. -/
def execSaveHoldEnd (at_ : Nat) : State → Host.Outcome State Fault Refusal :=
  lift (fun b =>
    match b.link.saveBusySince with
    | some t =>
      if t + 200000000 ≤ b.now at_ then b.modLink (fun l => { l with saveBusySince := none }) else b
    | none => b)

end Sys2Proof.Machine
end

