-- ==== Sys2Proof/Machine/RegAccess.lean ====
section
/-! DEFINITION. Register access (13): reads, the checks of a write, what a write does at dispatch and at a
    COMMIT: R8, R9, R33, R34, R359, R376 to R383, R396. -/

namespace Sys2Proof.Machine

open Sys2Proof (Word Byte Bytes Sess Hdr Instr)

/-! ### Reads (R379 to R381) -/

/-- A HI register's latch (R380). -/
def Block.latched (b : Block) (k : Sess) (r : Reg) (i : Nat) : Option Word :=
  let l := (b.link.sess k).latches
  match r with
  | .DEVTIME_HI => some l.devtimeHi
  | .RTC_SUB => some l.rtcSub
  | .POSE_ODO_HI => some l.odoHi
  | .CMP_NEXT_HI => some ((look l.cmpNextHi i).getD 0)
  | .CMP_FIRE_HI => some ((look l.cmpFireHi i).getD 0)
  | .CMP_RD_POS_HI => some l.cmpRdHi
  | .CMP_RD_PARAM => some l.cmpRdParam
  | _ => none

/-- What a read of a LO register does to the session's latches (R380). -/
def Block.latchHi (b : Block) (k : Sess) (now : Nat) (r : Reg) (i : Nat) : Block :=
  let p := b.published
  let set (f : Latches → Latches) : Block := b.modSess k (fun s => { s with latches := f s.latches })
  match r with
  | .DEVTIME_LO =>
    set (fun l => { l with devtimeHi := BitVec.ofNat 32 ((b.time.dev + (now - b.time.now)) / 2 ^ 32) })
  | .RTC_SEC =>
    let c := b.rtcAt now
    set (fun l => { l with rtcSub := wordOf [(16, c.sec / 2 ^ 32 % 4), (0, c.sub % 32768)] })
  | .POSE_ODO_LO => set (fun l => { l with odoHi := BitVec.ofNat 32 (p.odoEdge / 2 ^ 32 % 65536) })
  | .CMP_NEXT_LO =>
    set (fun l => { l with cmpNextHi := put l.cmpNextHi i (((p.nextEve i).map (·.high false)).getD 0) })
  | .CMP_FIRE_LO =>
    set (fun l => { l with cmpFireHi := put l.cmpFireHi i (BitVec.ofNat 32 ((b.lane i).fireTime / 2 ^ 32)) })
  | .CMP_RD_POS_LO =>
    let e := p.windowEve k
    set (fun l => { l with cmpRdHi := (e.map (·.high true)).getD 0
                           cmpRdParam := (e.map (fun e => BitVec.ofNat 32 e.param)).getD 0 })
  | _ => b

/-- The RC fields of a register cleared by a read of it (R8, R381). -/
def Block.clearRc (b : Block) (r : Reg) (i j : Nat) : Block :=
  let m := fieldMask (desc r) [.rc]
  if m = 0 then b else b.setWord r i j (b.word r i j &&& ~~~m)

/-- A read of NAME[i][j] by session `k` at the instant `now` of the model's clock: what it returns, and
    what it does (R8, R379 to R381). The watchdog slack is a free value (log entry 2). -/
def Block.readReg (b : Block) (k : Sess) (now : Nat) (r : Reg) (i j : Nat) : Word × Block :=
  if b.absentReg r i then (0, b)
  else
    match b.latched k r i with
    | some w => (w, b)
    | none =>
      match r with
      | .RES_OWNER => (b.ownerWord i, b)
      | .VIG_WDT_STAT => let (v, b1) := b.draw; (BitVec.ofNat 32 (v % 65536), b1)
      | .DIARY_OLDEST => b.firstSeq b.diary.held
      | .DIARY_NEWEST => b.firstSeq b.diary.held.reverse
      | _ => (b.readWord k now r i j, (b.latchHi k now r i).clearRc r i j)

/-- Consecutive words read in ascending order within one dispatch (R379). -/
def Block.readWords (b : Block) (k : Sess) (now : Nat) : Nat → Nat → List Word × Block
  | 0, _ => ([], b)
  | n + 1, a =>
    match regAt a with
    | none => ([], b)
    | some (r, i, j) =>
      let (w, b1) := b.readReg k now r i j
      let (ws, b2) := Block.readWords b1 k now n (a + 4)
      (w :: ws, b2)

/-- Why a read of a word is refused (R33, R34, R359, R473). -/
def Block.readCheck (b : Block) (a : Nat) : Option Status :=
  match regAt a with
  | none => some .badAddress
  | some _ =>
    let block := a / 65536
    if b.upd.recovery ∧ block ≠ 0 ∧ block ≠ 0x12 then some .denied else none

/-- The first of a run of words whose read is refused. -/
def Block.readsCheck (b : Block) : Nat → Nat → Option (Status × Nat)
  | 0, _ => none
  | n + 1, a =>
    match b.readCheck a with
    | some st => some (st, a)
    | none => Block.readsCheck b n (a + 4)

/-- The row of REG_READ and of REG_READ_BLOCK (R357). -/
def regReadRow : OpRow := opRow 0x0010 4
def regReadBlockRow : OpRow := opRow 0x0012 8

/-- Dispatch of a read of `n` words (R359, R379). -/
def dispatchRead (h : Hdr) (op : BitVec 16) (address : Word) (n : Nat) : Dispatch := fun k _ arrived b =>
  match b.readsCheck n address.toNat with
  | some (st, a) => b.replyNow (some k) h op st (addressPayload a)
  | none =>
    let (ws, b1) := b.readWords k (b.actAt arrived) n address.toNat
    b1.replyNow (some k) h op .ok (ws.map (fun w => leBytes 4 w.toNat)).flatten

/-- Dispatch of REG_READ_BLOCK: count 1 to 350 (R359). -/
def dispatchReadBlock (h : Hdr) (address : Word) (count : BitVec 16) : Dispatch := fun k seq arrived b =>
  if count.toNat = 0 ∨ 350 < count.toNat then
    b.replyNow (some k) h regReadBlockRow.code .range (addressPayload address.toNat)
  else dispatchRead h regReadBlockRow.code address count.toNat k seq arrived b

/-! ### The checks of a write (R376, R378) -/

/-- The registers of which each session has a copy (R380). -/
def perSession (r : Reg) : Bool := (desc r).source == .session || r == .MAP_PROBE_RES

/-- The session may not write the register (R271, R323, R370, R374, R419). -/
def Block.rightDenied (b : Block) (k : Sess) (r : Reg) (i : Nat) : Bool :=
  let other (u : Nat) : Bool :=
    match b.governor u with
    | some g => g != k
    | none => false
  match r with
  | .LINK_KEY | .VIG_DBG_CTRL | .VIG_DBG_RESP | .CANB_DTC_CLR => k == .main
  | .LOOP_SP => other (unitLoop i)
  | .LSW_CTRL => other (unitLsw i)
  | .PROP_TARGET => k == .main && (b.unit (unitProp i)).state == .service
  | _ => false

/-- The row names of registers without a writable field (R378); LOOP_COEF 60 to 63 are reserved
    (R284). -/
def noWritable (r : Reg) (j : Nat) : Bool :=
  (desc r).fields.all (fun f => !f.writable) || (r == .LOOP_COEF && 60 ≤ j)

/-- A refusal: its status and payload (R359). -/
structure Refuse where
  status : Status
  payload : Bytes
  deriving DecidableEq, Repr

/-- A refusal that names a register address. -/
def refuseAt (st : Status) (a : Nat) : Refuse := { status := st, payload := addressPayload a }

/-- A write of VIG_UNIT.REQ at dispatch (R403), and R235 for a channel whose output stage is claimed. -/
def Block.unitWriteCheck (b : Block) (k : Sess) (a u : Nat) (v : Word) : Option Refuse :=
  match reqState (bits v 26 24) with
  | none => none
  | some t =>
    match b.requestStatus k u t with
    | some .migrationFailed => some { status := .migrationFailed, payload := [] }
    | some .resourceOwned =>
      some { status := .resourceOwned, payload := leBytes 4 (unitOwner (u - 1)).toNat }
    | some st => some (refuseAt st a)
    | none => none

/-- The words of a transmit window (R372). -/
def Block.txFrame (b : Block) (k : Sess) : CanSFrame :=
  let w (n : Nat) : Word := b.sessWord k .CANS_TX_WIN n
  let ident := w 0
  let dlc := bits (w 1) 3 0
  let fd := ident.getLsbD 30
  { ident := ident, control := BitVec.ofNat 32 dlc
    data := (((List.range 16).map (fun n => leBytes 4 (w (2 + n)).toNat)).flatten).take (dlcLength fd dlc) }

/-- A frame that CANS_TX_GO refuses (R375). -/
def CanSFrame.bad (f : CanSFrame) : Bool :=
  !f.ident.getLsbD 30 && (f.ident.getLsbD 31 || 8 < bits f.control 3 0)

/-- The checks of one word written by session `k`; `staged` within an open transaction, where values are
    left for the commit (R376, R378, R385). -/
def Block.writeCheck (b : Block) (k : Sess) (staged : Bool) (a : Nat) (v : Word) : Option Refuse :=
  match regAt a with
  | none => some (refuseAt .badAddress a)
  | some (r, i, j) =>
    if b.absentReg r i then some (refuseAt .badAddress a)
    else if noWritable r j then some (refuseAt .readOnly a)
    else if b.rightDenied k r i || (r == .LINK_KEY && !staged) then some (refuseAt .denied a)
    else if staged then none
    else if (desc r).fields.any (fun f => f.acc == .rws) then some (refuseAt .txnNone a)
    else if !b.rangeOk r i j v then some (refuseAt .range a)
    else
      match r with
      | .VIG_UNIT => b.unitWriteCheck k a i v
      | .CANS_TX_GO =>
        if !v.getLsbD 0 then none
        else if b.can.sendingS.isSome then some { status := .busy, payload := [] }
        else if (b.txFrame k).bad then some (refuseAt .range a)
        else none
      | _ => none

/-- What a word holds after a write of its RW and RWS fields (R378). -/
def merged (d : RegDesc) (old v : Word) : Word :=
  let m := fieldMask d [.rw, .rwc, .rws]
  (old &&& ~~~m) ||| (v &&& m)

/-- A stored register word written: the session's copy, or the module's (R380). -/
def Block.store (b : Block) (k : Sess) (r : Reg) (i j : Nat) (v : Word) : Block :=
  if perSession r then b.setSessWord k r i (merged (desc r) (b.sessWord k r i) v)
  else b.setWord r i j (merged (desc r) (b.word r i j) v)

/-- The checks of a run of words, each met with the session's own windows as the words before it leave
    them (R359). -/
def Block.writesCheck (b : Block) (k : Sess) (staged : Bool) : List (Nat × Word) → Option Refuse
  | [] => none
  | (a, v) :: rest =>
    match b.writeCheck k staged a v with
    | some e => some e
    | none =>
      let b1 := match regAt a with
        | some (r, i, j) => if perSession r then b.store k r i j v else b
        | none => b
      Block.writesCheck b1 k staged rest

/-! ### What a write does -/

/-- The write acts on a COMMIT-applied field (R376). -/
def actsAtCommit (r : Reg) (v : Word) : Bool :=
  match r with
  | .LSW_CTRL | .PROP_TARGET | .LOOP_SP | .DEV_LTOL => true
  | .NOZ_FLT => v.getLsbD 5
  | .VIG_UNIT => bits v 26 24 != 0
  | _ => false

/-- EVT_PEND: pending bits written 1 clear (R431). -/
def Block.clearPend (b : Block) (w : Nat) (v : Word) : Block :=
  let m : BitVec 128 := BitVec.ofNat 128 (v.toNat * 2 ^ (32 * w))
  let b1 : Block := { b with evt := { b.evt with pend := b.evt.pend &&& ~~~m } }
  (List.range 32).foldl (fun acc n => if v.getLsbD n then acc.dtcUpdate (32 * w + n) else acc) b1

/-- LSW_HOLD.RELEASE (R327): the holds of the switches named end, and they go off through DEMAG. -/
def Block.releaseHolds (b : Block) (v : Word) (at_ : Nat) : Block :=
  (List.range 16).foldl (fun acc k =>
    if v.getLsbD k && (acc.sw k).held then
      acc.modSw k (fun s => { s with held := false, seq := .demag, since := b.now at_ })
    else acc) b

/-- The part of a write that acts at dispatch (R376), by session `k` at the instant `at_`. -/
def Block.applyDirect (b : Block) (k : Sess) (r : Reg) (i j : Nat) (v : Word) (at_ : Nat) : Block :=
  match r with
  | .NOZ_FLT => b.unlatch .NOZ_FLT i (v &&& 0x5F)
  | .BANK_FLT | .BST_FLT | .PROP_FLT | .MDRV_FLT | .LOOP_FLT | .LSW_FLT | .PWRB_DENIED | .VIG_SAFE =>
    b.unlatch r i (v &&& fieldMask (desc r) [.w1c])
  | .EVT_PEND => b.clearPend i v
  | .MDRV_ARM => b.armGroups v
  | .MDRV_CARRIER => (b.store k r i j v).shadowWrite i 0
  | .MDRV_SET => (b.store k r i j v).shadowWrite i (1 + 2 * j)
  | .MDRV_RST => (b.store k r i j v).shadowWrite i (2 + 2 * j)
  | .LSW_HOLD => b.releaseHolds v at_
  | .CANB_DTC_CLR => if v.getLsbD 0 then b.modCan (fun c => { c with previous := [] }) else b
  | .CANS_RX_POP => if v.getLsbD 0 then b.modCan (fun c => { c with fifoS := c.fifoS.drop 1 }) else b
  | .CANS_TX_GO =>
    if v.getLsbD 0 then b.modCan (fun c => { c with sendingS := some (b.txFrame k) }) else b
  | .VIG_DBG_RESP => b.setSessWord k .VIG_DBG_RESP i v
  | .VIG_DBG_CTRL =>
    let b1 := b.store k r i j v
    let b2 := if v.getLsbD 0 then b1.dbgUnlock at_ else b1
    if v.getLsbD 1 then b2.dbgLock at_ else b2
  | .DEV_ALARM_LO => b.modSess k (fun s => { s with latches := { s.latches with alarmLo := v } })
  | .DEV_ALARM_HI =>
    let lo := (b.link.sess k).latches.alarmLo
    b.modTime (fun t => { t with rtc := { t.rtc with
      alarm := BitVec.ofNat 34 (bits v 1 0 * 2 ^ 32 + lo.toNat), alarmEn := v.getLsbD 31 } })
  | .DIARY_DRAINED => (b.drainTo v at_).getD b
  | .LSW_CTRL | .PROP_TARGET | .LOOP_SP | .DEV_LTOL | .VIG_UNIT | .LINK_KEY => b
  | _ => if (desc r).fields.any (fun f => f.acc == .rw) then b.store k r i j v else b

/-- The part of a write that acts at a COMMIT (R376, R377). -/
def Block.applyCommit (b : Block) (k : Sess) (r : Reg) (i j : Nat) (v : Word) (at_ : Nat) : Block :=
  match r with
  | .LSW_CTRL => b.lswCommand i (v.getLsbD 16) (bits v 9 0) at_
  | .PROP_TARGET => b.propValue i (bits v 13 0) (k == .service) at_
  | .LOOP_SP => b.setWord .LOOP_SP i j v
  | .DEV_LTOL => b.setSessWord k .DEV_LTOL i v
  | .NOZ_FLT =>
    if v.getLsbD 5 then b.modNoz i (fun x => { x with stuckClear := true }) else b
  | _ => b

/-- A request for a unit state posted by a write of VIG_UNIT.REQ (R403, R407). -/
def Block.postReq (b : Block) (k : Sess) (u : Nat) (v : Word) : Block :=
  match reqState (bits v 26 24) with
  | none => b
  | some t =>
    b.postUnit { unit := u, source := sessSource k, target := t, cause := match k with
      | .main => .main
      | .service => .service }

/-- A write outside a transaction: what acts at dispatch does so, what acts at a COMMIT is posted for it
    (R376). -/
def Block.applyWrite (b : Block) (k : Sess) (seq arrived a : Nat) (v : Word) : Block :=
  match regAt a with
  | none => b
  | some (r, i, j) =>
    let b1 := b.applyDirect k r i j v (b.actAt arrived - b.time.now)
    if r = .VIG_UNIT then b1.postReq k i v
    else if actsAtCommit r v then
      { b1 with posted := b1.posted ++ [{ seq := seq, sess := some k, arrived := arrived, since := b1.stagedAt, act := .write a v }] }
    else b1

/-! ### RWS fields at their commit -/

/-- An axis restarts (R77). -/
def Block.restart (b : Block) (a : Nat) : Block := b.modAxis a axisRestart

/-- AXIS_PRESET at its COMMIT (R84): a pending count is discarded, and with it the reversal it began; the edge
    history stands. -/
def Block.preset (b : Block) (a : Nat) (v : Word) : Block :=
  let p := v.toInt
  b.modAxis a (fun x => { x with
    pos := p, pending := none, reversing := false, starting := x.starting || x.reversing, histPos := x.histPos.map (fun q => q + (p - x.pos)) })

/-- The part of a staged write that changes RWS fields, and what such a change does at once (R77, R84,
    R136, R226, R374, R392, R395, R490). -/
def Block.applyRws (b : Block) (k : Sess) (r : Reg) (i j : Nat) (v : Word) (at_ : Nat) : Block :=
  let old := b.word r i j
  let b1 := b.store k r i j v
  let new := b1.word r i j
  match r with
  | .AXIS_CFG => if differ old new [(6, 0)] then b1.restart i else b1
  | .AXIS_BIND | .AXIS_CPR => if old = new then b1 else b1.restart i
  | .AXIS_PRESET => b1.preset i v
  | .SP_CFG => if differ old new [(1, 0)] then b1.modPort i (fun _ => {}) else b1
  | .POSE_CTRL => b1.poseEnable at_
  | .MAP_PROD => if old = new then b1 else b1.prodChanged i
  | .NOZ_INIT => b1.learnedReset i
  | .PROP_CFG => b1.propFollow i at_
  | .DIARY_CFG => b1.fillCheck at_
  | .EVT_CFG => b1.dtcUpdate i
  | .RES_LANE => if old = new then b1 else b1.clearLane (120 + i)
  | .LINK_PHY_ROLE =>
    let due := some (b.now at_ + 100000000)
    let b2 := if differ old new [(0, 0)] then b1.modPort_ .a (fun p => { p with roleAt := due }) else b1
    if differ old new [(1, 1)] then b2.modPort_ .b (fun p => { p with roleAt := due }) else b2
  | .TXN_SAVE => if v.getLsbD 0 then b.saveStart at_ else b
  | .CMP_WR_CMD =>
    b1.laneOp { pos := (b1.sessWord k .CMP_WR_POS_LO).toNat + bits (b1.sessWord k .CMP_WR_POS_HI) 15 0 * 2 ^ 32
                param := (b1.sessWord k .CMP_WR_PARAM).toNat, cmd := v }
  | _ => b1

/-- A staged write applied at its transaction's COMMIT, each field by its own code (R378, R387). -/
def Block.applyStaged (b : Block) (k : Sess) (a : Nat) (v : Word) (at_ : Nat) : Block :=
  match regAt a with
  | none => b
  | some (r, i, j) =>
    if r = .VIG_UNIT then b.postReq k i v
    else if (desc r).fields.any (fun f => f.acc == .rws) then b.applyRws k r i j v at_
    else (b.applyDirect k r i j v at_).applyCommit k r i j v at_

/-! ### REG_WRITE, REG_WRITE_BLOCK, REG_MODIFY -/

/-- What the state of the session's transaction answers to a register write (R384). -/
def txnRefuses (s : TxnState) : Option Status :=
  match s with
  | .committing => some .txnBusy
  | .expired => some .txnExpired
  | _ => none

/-- The session's transaction replaced by its image. -/
def Block.modTxn (b : Block) (k : Sess) (f : Txn → Txn) : Block :=
  b.modSess k (fun s => { s with txn := f s.txn })

/-- The status of an accepted write: DEFERRED when it starts a unit that is not QUIET, or switches on a
    load switch that is in DEMAG or COOL (R322, R403). -/
def Block.writeStatus (b : Block) (ws : List (Nat × Word)) : Status :=
  let defers (x : Nat × Word) : Bool :=
    match regAt x.1 with
    | some (.VIG_UNIT, u, _) =>
      match reqState (bits x.2 26 24) with
      | some t => b.deferred u t
      | none => false
    | some (.LSW_CTRL, k, _) =>
      x.2.getLsbD 16 && bits x.2 9 0 != 0 && b.runs (unitLsw k)
        && ((b.sw k).seq == .demag || (b.sw k).seq == .cool)
    | _ => false
  if ws.any defers then .deferred else .ok

/-- Dispatch of a write of words whose checks have passed, outside a transaction (R376). -/
def Block.writeNow (b : Block) (h : Hdr) (op : BitVec 16) (k : Sess) (seq arrived : Nat)
    (ws : List (Nat × Word)) (payload : Bytes) : Block :=
  let st := b.writeStatus ws
  let b1 := ws.foldl (fun acc x => acc.applyWrite k seq arrived x.1 x.2) b
  let waits := ws.any (fun x =>
    match regAt x.1 with
    | some (r, _, _) => actsAtCommit r x.2
    | none => false)
  if waits then (b1.begins seq k h op .commit).reply (some k) h op st b.commitTick payload
  else b1.replyNow (some k) h op st payload

/-- Dispatch of a write of words: refused, staged, or carried out (R376, R384, R385). -/
def Block.writeWords (b : Block) (h : Hdr) (op : BitVec 16) (k : Sess) (seq arrived : Nat)
    (ws : List (Nat × Word)) (payload : Bytes) : Block :=
  let t := (b.link.sess k).txn
  match txnRefuses t.state with
  | some st => b.replyNow (some k) h op st
  | none =>
    let opened := t.state == .opened
    match b.writesCheck k opened ws with
    | some e => b.replyNow (some k) h op e.status e.payload
    | none =>
      if opened then
        if 1024 < t.staged.length + ws.length then b.replyNow (some k) h op .txnOverflow
        else
          (b.modTxn k (fun t => { t with
            staged := t.staged ++ ws.map (fun x => { addr := x.1, val := x.2 }) })).replyNow (some k) h op .ok
              payload
      else b.writeNow h op k seq arrived ws payload

/-- The rows of REG_WRITE, REG_WRITE_BLOCK and REG_MODIFY (R357). -/
def regWriteRow : OpRow := opRow 0x0011 8
def regWriteBlockRow : OpRow :=
  { code := 0x0013, lengthOk := fun n => Decidable.decide (8 ≤ n) && Decidable.decide (n ≤ 1400) && n % 4 == 0 }
def regModifyRow : OpRow := opRow 0x0014 12

/-- Dispatch of REG_WRITE. -/
def dispatchWrite (h : Hdr) (address value : Word) : Dispatch := fun k seq arrived b =>
  b.writeWords h regWriteRow.code k seq arrived [(address.toNat, value)] []

/-- The words of a block write with their addresses. -/
def blockWords : Nat → List Word → List (Nat × Word)
  | _, [] => []
  | a, v :: rest => (a, v) :: blockWords (a + 4) rest

/-- Dispatch of REG_WRITE_BLOCK. -/
def dispatchWriteBlock (h : Hdr) (address : Word) (values : List Word) : Dispatch := fun k seq arrived b =>
  b.writeWords h regWriteBlockRow.code k seq arrived (blockWords address.toNat values) []

/-- The value that REG_MODIFY starts from (R383): the last staged, the last posted, or the present. -/
def Block.modifyBase (b : Block) (k : Sess) (now a : Nat) (r : Reg) (i j : Nat) : Word :=
  let t := (b.link.sess k).txn
  let staged := if t.state = .opened then (t.staged.filter (fun s => s.addr == a)).getLast? else none
  let posted := (b.posted.filterMap (fun p =>
    match p.act with
    | .write c v => if c = a ∧ (!perSession r ∨ p.sess = some k) then some v else none
    | _ => none)).getLast?
  match staged with
  | some s => s.val
  | none =>
    if t.state = .opened then b.readWord k now r i j
    else posted.getD (b.readWord k now r i j)

/-- Dispatch of REG_MODIFY (R383): a word with a W1C, RC or WO field is refused. -/
def dispatchModify (h : Hdr) (address mask value : Word) : Dispatch := fun k seq arrived b =>
  let a := address.toNat
  match txnRefuses (b.link.sess k).txn.state with
  | some st => b.replyNow (some k) h regModifyRow.code st
  | none =>
    match regAt a with
    | none => b.replyNow (some k) h regModifyRow.code .badAddress (addressPayload a)
    | some (r, i, j) =>
      if !b.absentReg r i && fieldMask (desc r) [.w1c, .rc, .wo] != 0 then
        b.replyNow (some k) h regModifyRow.code .denied (addressPayload a)
      else
        let old := b.modifyBase k (b.actAt arrived) a r i j
        b.writeWords h regModifyRow.code k seq arrived [(a, (old &&& ~~~mask) ||| (value &&& mask))]
          (leBytes 4 old.toNat)

/-! ### The commands -/

/-- A REG_READ of a register of its own row. -/
def readOf (i : Instr) (h : Hdr) (a : Nat) : State → Host.Outcome State Fault Refusal :=
  lift (fun b => b.request i h regReadRow (dispatchRead h regReadRow.code (BitVec.ofNat 32 a) 1))

/-- A REG_WRITE of a register of its own row. -/
def writeOf (i : Instr) (h : Hdr) (a : Nat) (v : Word) : State → Host.Outcome State Fault Refusal :=
  lift (fun b => b.request i h regWriteRow (dispatchWrite h (BitVec.ofNat 32 a) v))

/-- REG_READ (R359). -/
def execRegRead (h : Hdr) (address : Word) : State → Host.Outcome State Fault Refusal :=
  lift (fun b => b.request (.regRead h address) h regReadRow (dispatchRead h regReadRow.code address 1))

/-- REG_READ_BLOCK (R359, R379). -/
def execRegReadBlock (h : Hdr) (address : Word) (count : BitVec 16) :
    State → Host.Outcome State Fault Refusal :=
  lift (fun b => b.request (.regReadBlock h address count) h regReadBlockRow (dispatchReadBlock h address count))

/-- REG_WRITE (R359, R376). -/
def execRegWrite (h : Hdr) (address value : Word) : State → Host.Outcome State Fault Refusal :=
  lift (fun b => b.request (.regWrite h address value) h regWriteRow (dispatchWrite h address value))

/-- REG_WRITE_BLOCK (R359). -/
def execRegWriteBlock (h : Hdr) (address : Word) (values : List Word) :
    State → Host.Outcome State Fault Refusal :=
  lift (fun b => b.request (.regWriteBlock h address values) h regWriteBlockRow
    (dispatchWriteBlock h address values))

/-- REG_MODIFY (R383). -/
def execRegModify (h : Hdr) (address mask value : Word) : State → Host.Outcome State Fault Refusal :=
  lift (fun b => b.request (.regModify h address mask value) h regModifyRow (dispatchModify h address mask value))

/-- DEVTIME_LO_READ (R69). -/
def execDevtimeLoRead (h : Hdr) : State → Host.Outcome State Fault Refusal :=
  readOf (.devtimeLoRead h) h (addr .DEVTIME_LO)

/-- RTC_SEC_READ (R70). -/
def execRtcSecRead (h : Hdr) : State → Host.Outcome State Fault Refusal :=
  readOf (.rtcSecRead h) h (addr .RTC_SEC)

/-- POSE_ODO_LO_READ (R134). -/
def execPoseOdoLoRead (h : Hdr) : State → Host.Outcome State Fault Refusal :=
  readOf (.poseOdoLoRead h) h (addr .POSE_ODO_LO)

/-- CMP_NEXT_LO_READ (R199). -/
def execCmpNextLoRead (h : Hdr) (l : Fin 160) : State → Host.Outcome State Fault Refusal :=
  readOf (.cmpNextLoRead h l) h (addr .CMP_NEXT_LO l)

/-- CMP_FIRE_LO_READ (R199). -/
def execCmpFireLoRead (h : Hdr) (l : Fin 160) : State → Host.Outcome State Fault Refusal :=
  readOf (.cmpFireLoRead h l) h (addr .CMP_FIRE_LO l)

/-- CMP_RD_POS_LO_READ (R199). -/
def execCmpRdPosLoRead (h : Hdr) : State → Host.Outcome State Fault Refusal :=
  readOf (.cmpRdPosLoRead h) h (addr .CMP_RD_POS_LO)

/-- CMP_ADD (R188): a write of CMP_WR_CMD with OP ADD. -/
def execCmpAdd (h : Hdr) (value : Word) : State → Host.Outcome State Fault Refusal :=
  writeOf (.cmpAdd h value) h (addr .CMP_WR_CMD) value

/-- CMP_CLEAR (R188): a write of CMP_WR_CMD with OP CLEAR. -/
def execCmpClear (h : Hdr) (value : Word) : State → Host.Outcome State Fault Refusal :=
  writeOf (.cmpClear h value) h (addr .CMP_WR_CMD) value

/-- NOZ_FLT_WRITE (R223). -/
def execNozFltWrite (h : Hdr) (n : Fin 96) (value : Word) : State → Host.Outcome State Fault Refusal :=
  writeOf (.nozFltWrite h n value) h (addr .NOZ_FLT n) value

/-- BANK_FLT_WRITE (R228). -/
def execBankFltWrite (h : Hdr) (k : Fin 12) (value : Word) : State → Host.Outcome State Fault Refusal :=
  writeOf (.bankFltWrite h k value) h (addr .BANK_FLT k) value

/-- BST_FLT_WRITE (R206). -/
def execBstFltWrite (h : Hdr) (c : Fin 3) (value : Word) : State → Host.Outcome State Fault Refusal :=
  writeOf (.bstFltWrite h c value) h (addr .BST_FLT c) value

/-- PROP_FLT_WRITE (R236). -/
def execPropFltWrite (h : Hdr) (k : Fin 8) (value : Word) : State → Host.Outcome State Fault Refusal :=
  writeOf (.propFltWrite h k value) h (addr .PROP_FLT k) value

/-- MDRV_ARM_WRITE (R254). -/
def execMdrvArmWrite (h : Hdr) (value : Word) : State → Host.Outcome State Fault Refusal :=
  writeOf (.mdrvArmWrite h value) h (addr .MDRV_ARM) value

/-- MDRV_FLT_WRITE (R261). -/
def execMdrvFltWrite (h : Hdr) (u : Fin 16) (value : Word) : State → Host.Outcome State Fault Refusal :=
  writeOf (.mdrvFltWrite h u value) h (addr .MDRV_FLT u) value

/-- LOOP_FLT_WRITE (R287). -/
def execLoopFltWrite (h : Hdr) (s : Fin 32) (value : Word) : State → Host.Outcome State Fault Refusal :=
  writeOf (.loopFltWrite h s value) h (addr .LOOP_FLT s) value

/-- PWRB_DENIED_WRITE (R302). -/
def execPwrbDeniedWrite (h : Hdr) (value : Word) : State → Host.Outcome State Fault Refusal :=
  writeOf (.pwrbDeniedWrite h value) h (addr .PWRB_DENIED) value

/-- DEV_ALARM_LO_WRITE (R319): latched until DEV_ALARM_HI is written. -/
def execDevAlarmLoWrite (h : Hdr) (value : Word) : State → Host.Outcome State Fault Refusal :=
  writeOf (.devAlarmLoWrite h value) h (addr .DEV_ALARM_LO) value

/-- DEV_ALARM_HI_WRITE (R319): the pair is applied. -/
def execDevAlarmHiWrite (h : Hdr) (value : Word) : State → Host.Outcome State Fault Refusal :=
  writeOf (.devAlarmHiWrite h value) h (addr .DEV_ALARM_HI) value

/-- LSW_HOLD_RELEASE (R327). -/
def execLswHoldRelease (h : Hdr) (value : Word) : State → Host.Outcome State Fault Refusal :=
  writeOf (.lswHoldRelease h value) h (addr .LSW_HOLD) value

/-- LSW_FLT_WRITE (R325). -/
def execLswFltWrite (h : Hdr) (k : Fin 16) (value : Word) : State → Host.Outcome State Fault Refusal :=
  writeOf (.lswFltWrite h k value) h (addr .LSW_FLT k) value

/-- CANB_DTC_CLR (R370). -/
def execCanbDtcClr (h : Hdr) (value : Word) : State → Host.Outcome State Fault Refusal :=
  writeOf (.canbDtcClr h value) h (addr .CANB_DTC_CLR) value

/-- CANS_RX_POP (R372). -/
def execCansRxPop (h : Hdr) (value : Word) : State → Host.Outcome State Fault Refusal :=
  writeOf (.cansRxPop h value) h (addr .CANS_RX_POP) value

/-- CANS_TX_GO (R372). -/
def execCansTxGo (h : Hdr) (value : Word) : State → Host.Outcome State Fault Refusal :=
  writeOf (.cansTxGo h value) h (addr .CANS_TX_GO) value

/-- RES_GPO_WRITE (R396). -/
def execResGpoWrite (h : Hdr) (value : Word) : State → Host.Outcome State Fault Refusal :=
  writeOf (.resGpoWrite h value) h (addr .RES_GPO) value

/-- VIG_UNIT_REQ_WRITE (R403). -/
def execVigUnitReqWrite (h : Hdr) (u : Fin 203) (value : Word) : State → Host.Outcome State Fault Refusal :=
  writeOf (.vigUnitReqWrite h u value) h (addr .VIG_UNIT u) value

/-- VIG_SAFE_WRITE (R416). -/
def execVigSafeWrite (h : Hdr) (value : Word) : State → Host.Outcome State Fault Refusal :=
  writeOf (.vigSafeWrite h value) h (addr .VIG_SAFE) value

/-- EVT_PEND_WRITE (R431). -/
def execEvtPendWrite (h : Hdr) (w : Fin 4) (value : Word) : State → Host.Outcome State Fault Refusal :=
  writeOf (.evtPendWrite h w value) h (addr .EVT_PEND w) value

/-- DEBUG_UNLOCK (R419). -/
def execDebugUnlock (h : Hdr) (value : Word) : State → Host.Outcome State Fault Refusal :=
  writeOf (.debugUnlock h value) h (addr .VIG_DBG_CTRL) value

/-- DEBUG_LOCK (R419). -/
def execDebugLock (h : Hdr) (value : Word) : State → Host.Outcome State Fault Refusal :=
  writeOf (.debugLock h value) h (addr .VIG_DBG_CTRL) value

/-- DIARY_DRAINED_WRITE (R445). -/
def execDiaryDrainedWrite (h : Hdr) (value : Word) : State → Host.Outcome State Fault Refusal :=
  writeOf (.diaryDrainedWrite h value) h (addr .DIARY_DRAINED) value

/-! ### The CMP contacts (R396) -/

/-- What pin CMPp drives at its contact: nothing in OFF and GPI, nor as a trip input (R481), nor a high
    level in open drain; the IDLE level while its function does not drive it. -/
def Block.contact (b : Block) (p : Nat) : Option Bool :=
  let c := b.word .RES_PIN_CFG p
  let inv := c.getLsbD 3
  let idle := c.getLsbD 4
  let lane := (b.claims.find? (fun x => x.res == 58 + p)).bind (fun x =>
    let f := bits x.owner 15 0
    if 0x100 + 120 ≤ f ∧ f < 0x100 + 160 then some (f - 0x100) else none)
  let drive (v : Bool) : Option Bool := if v && c.getLsbD 2 then none else some v
  let trip := 4 ≤ p && b.flag .MDRV_TRIP_CFG (p - 4) 9
  if trip then none
  else
    match bits c 1 0 with
    | 1 =>
      match lane with
      | some l =>
        match b.laneUnit l with
        | some u => if b.runs u && !b.pinsSafe then drive ((nth b.eng.alm.pins p {}).level != inv) else drive idle
        | none => drive idle
      | none => drive idle
    | 2 => if b.pinsSafe then drive idle else drive ((b.word .RES_GPO).getLsbD p != inv)
    | _ => none

end Sys2Proof.Machine
end

