-- ==== Sys2Proof/Machine/Txn.lean ====
section
/-! DEFINITION. Transactions (13): their requests, the checks at a COMMIT and what is applied there: R360,
    R384 to R392. -/

namespace Sys2Proof.Machine

open Sys2Proof (Word Byte Bytes Sess Hdr Instr)

/-! ### The requests (R360, R384) -/

/-- The rows of TXN_BEGIN, TXN_COMMIT, TXN_ROLLBACK and TXN_STATUS (R357). -/
def txnBeginRow : OpRow := opRow 0x0018 4
def txnCommitRow : OpRow := opRow 0x0019 0
def txnRollbackRow : OpRow := opRow 0x001A 0
def txnStatusRow : OpRow := opRow 0x001B 0

/-- Dispatch of TXN_BEGIN: the state first, then the timeout. -/
def dispatchTxnBegin (h : Hdr) (timeout : BitVec 16) : Dispatch := fun k _ arrived b =>
  let t := (b.link.sess k).txn
  let ms := if timeout = 0 then 2000 else timeout.toNat
  if t.state = .opened ∨ t.state = .committing then b.replyNow (some k) h txnBeginRow.code .txnBusy
  else if ms < 100 ∨ 10000 < ms then b.replyNow (some k) h txnBeginRow.code .range
  else
    let n := b.link.nextTxn
    let b1 := b.modLink (fun l => { l with nextTxn := n + 1 })
    let b2 := b1.modTxn k (fun t => { t with
      state := .opened, num := n, began := b.actAt arrived, timeoutMs := ms, staged := [], rivals := [] })
    b2.replyNow (some k) h txnBeginRow.code .ok (leBytes 4 n.toNat)

/-- TXN_BEGIN (R384). -/
def execTxnBegin (h : Hdr) (timeout : BitVec 16) : State → Host.Outcome State Fault Refusal :=
  lift (fun b => b.request (.txnBegin h timeout) h txnBeginRow (dispatchTxnBegin h timeout))

/-- A session's transaction ends: nothing staged, NONE. -/
def Block.txnEnds (b : Block) (k : Sess) : Block :=
  b.modTxn k (fun t => { t with state := .none, staged := [], rivals := [] })

/-- Dispatch of TXN_COMMIT: an open transaction goes to COMMITTING and is handed to the COMMIT (R387). -/
def dispatchTxnCommit (h : Hdr) : Dispatch := fun k seq arrived b =>
  match (b.link.sess k).txn.state with
  | .none => b.replyNow (some k) h txnCommitRow.code .txnNone
  | .committing => b.replyNow (some k) h txnCommitRow.code .txnBusy
  | .expired => (b.txnEnds k).replyNow (some k) h txnCommitRow.code .txnExpired
  | .opened =>
    let b1 := b.modTxn k (fun t => { t with state := .committing })
    let b2 : Block := { b1 with
      posted := b1.posted ++ [{ seq := seq, sess := some k, arrived := arrived, since := b1.stagedAt, act := .req (.txnCommit h) }] }
    b2.awaits seq k h txnCommitRow.code

/-- TXN_COMMIT (R384, R387). -/
def execTxnCommit (h : Hdr) : State → Host.Outcome State Fault Refusal :=
  lift (fun b => b.request (.txnCommit h) h txnCommitRow (dispatchTxnCommit h))

/-- Dispatch of TXN_ROLLBACK. -/
def dispatchTxnRollback (h : Hdr) : Dispatch := fun k _ _ b =>
  match (b.link.sess k).txn.state with
  | .none => b.replyNow (some k) h txnRollbackRow.code .txnNone
  | .committing => b.replyNow (some k) h txnRollbackRow.code .txnBusy
  | _ => (b.txnEnds k).replyNow (some k) h txnRollbackRow.code .ok

/-- TXN_ROLLBACK (R384). -/
def execTxnRollback (h : Hdr) : State → Host.Outcome State Fault Refusal :=
  lift (fun b => b.request (.txnRollback h) h txnRollbackRow (dispatchTxnRollback h))

/-- Dispatch of TXN_STATUS: state, writes staged, ms left (R360). -/
def dispatchTxnStatus (h : Hdr) : Dispatch := fun k _ arrived b =>
  let t := (b.link.sess k).txn
  b.replyNow (some k) h txnStatusRow.code .ok
    (leBytes 1 t.state.code ++ leBytes 1 0 ++ leBytes 2 t.staged.length ++ leBytes 4 (t.left (b.actAt arrived)))

/-- TXN_STATUS (R360). -/
def execTxnStatus (h : Hdr) : State → Host.Outcome State Fault Refusal :=
  lift (fun b => b.request (.txnStatus h) h txnStatusRow (dispatchTxnStatus h))

/-- TXN_TIMEOUT (R384): at a Tick edge at or after the end of the timeout. -/
def execTxnTimeout (k : Sess) : State → Host.Outcome State Fault Refusal :=
  lift (fun b =>
    let t := (b.link.sess k).txn
    if t.state = .opened ∧ t.began + t.timeoutMs * 1000000 ≤ b.time.now then
      let b1 := b.modTxn k (fun t => { t with state := .expired, staged := [], rivals := [] })
      (b1.count .TXN_CNT 0 7 0).raise 16 1 (payS (sessIndex k))
    else b)

/-! ### The checks of a commit (R387 to R389) -/

/-- A check that fails: the status, the index of the staged write reported, and the detail of R388. -/
structure TxnFail where
  status : Status
  index : Nat
  detail : Bytes
  deriving DecidableEq, Repr

/-- A failure whose detail is the address of the staged write. -/
def failAt (st : Status) (n : Nat) (w : Staged) : TxnFail :=
  { status := st, index := n, detail := addressPayload w.addr }

/-- A FENCED failure: the unit and its state (R388). -/
def Block.failUnit (b : Block) (n u : Nat) : TxnFail :=
  { status := .fenced, index := n
    detail := leBytes 2 u ++ leBytes 1 (b.unit u).state.code ++ leBytes 1 0 }

/-- The unit that an operation on a lane needs ACTIVE. -/
def Block.laneNeeds (b : Block) (l : Nat) : Nat := (b.laneUnit l).getD 0xFFFF

/-- The configuration as it will stand: every staged word stored (R387). -/
def Block.withStaged (b : Block) (k : Sess) (ws : List Staged) : Block :=
  ws.foldl (fun acc w =>
    match regAt w.addr with
    | some (r, i, j) => acc.store k r i j w.val
    | none => acc) b

/-- The operation that a staged write of CMP_WR_CMD makes: it is built from the values that the window
    holds at its place in the staging order (R188, R386). -/
def Block.stagedOp (b : Block) (k : Sess) (before : List Staged) (cmd : Word) : LaneOp :=
  let w := b.withStaged k (before.filter (fun s => match regAt s.addr with
    | some (r, _, _) => perSession r
    | none => false))
  { pos := (w.sessWord k .CMP_WR_POS_LO).toNat + bits (w.sessWord k .CMP_WR_POS_HI) 15 0 * 2 ^ 32
    param := (w.sessWord k .CMP_WR_PARAM).toNat, cmd := cmd }

/-- The eves that lane `l` holds once the operations staged before a write have been applied; the list is
    in staging order. -/
def Block.evesBefore (b : Block) (l : Nat) (before : List Staged) : Nat :=
  before.foldl (fun held w =>
    match regAt w.addr with
    | some (.CMP_WR_CMD, _, _) =>
      if bits w.val 7 0 ≠ l then held else if bits w.val 9 8 = 1 then 0 else held + 1
    | _ => held) (b.lane l).held

/-- The key of LINK_KEY that a staged write belongs to is written whole (R374). -/
def keyWhole (ws : List Staged) (i : Nat) : Bool :=
  (List.range 8).all (fun w => ws.any (fun s => s.addr == addr .LINK_KEY i w))

/-- Check 2 of one staged write (R10, R387). -/
def checkRange (new : Block) (k : Sess) (before : List Staged) (n : Nat) (w : Staged) : Option TxnFail :=
  match regAt w.addr with
  | none => none
  | some (r, i, j) =>
    let frame := r == .CANS_TX_GO && w.val.getLsbD 0 && ((new.withStaged k before).txFrame k).bad
    if !new.rangeOk r i j w.val || frame then some (failAt .range n w) else none

/-- Check 3 of one staged write (R374, R188, R387). -/
def checkRules (old new : Block) (k : Sess) (all before : List Staged) (n : Nat) (w : Staged) :
    Option TxnFail :=
  match regAt w.addr with
  | none => none
  | some (r, i, j) =>
    let rules := (rulesOf r i j).all (fun x => x.holds old new)
    let whole := r != .LINK_KEY || keyWhole all i
    let op := r != .CMP_WR_CMD || (
      let o := new.stagedOp k before w.val
      let rotary := match new.laneRef o.lane with
        | .axis a => new.rotary a
        | _ => false
      o.clear || ((!o.repeats || rotary) && new.actionOk o.lane o.act o.param))
    if rules && whole && op then none else some (failAt .range n w)

/-- Check 4 of one staged write: unit states and the other refusals of the owning chapters (R387). -/
def checkUnits (old new : Block) (k : Sess) (before : List Staged) (n : Nat) (w : Staged) : Option TxnFail :=
  match regAt w.addr with
  | none => none
  | some (r, i, j) =>
    match new.barredBy r i (old.word r i j) (new.word r i j) with
    | some u => some (new.failUnit n u)
    | none =>
      if new.rightDenied k r i then some (failAt .denied n w)
      else
        match r with
        | .VIG_UNIT =>
          match reqState (bits w.val 26 24) with
          | none => none
          | some t =>
            match new.requestStatus k i t with
            | some .fenced => some (new.failUnit n i)
            | some .resourceOwned =>
              some { status := .resourceOwned, index := n, detail := leBytes 4 (unitOwner (i - 1)).toNat }
            | some st => some (failAt st n w)
            | none => none
        | .CMP_WR_CMD =>
          let o := new.stagedOp k before w.val
          match new.laneOpStatus { o with cmd := setBits w.val 9 8 1 } with
          | some .denied => some (failAt .denied n w)
          | some .fenced => some (new.failUnit n (new.laneNeeds o.lane))
          | _ =>
            if !o.clear && 8 ≤ new.evesBefore o.lane before then some (failAt .busy n w) else none
        | .CANS_TX_GO =>
          let again := before.any (fun s => s.addr == w.addr && s.val.getLsbD 0)
          if w.val.getLsbD 0 && (new.can.sendingS.isSome || again) then some (failAt .busy n w) else none
        | _ => none

/-- The first failure of a check over the staged writes, in staging order; `done` are those before. -/
def firstFail (check : List Staged → Nat → Staged → Option TxnFail) :
    List Staged → List Staged → Option TxnFail
  | _, [] => none
  | done, w :: rest =>
    match check done done.length w with
    | some f => some f
    | none => firstFail check (done ++ [w]) rest

/-- Check 1: a word that a transaction of the other session has written since (R389). -/
def checkRivals (t : Txn) (n : Nat) (w : Staged) : Option TxnFail :=
  if t.rivals.contains w.addr then some (failAt .txnConflict n w) else none

/-- Check 6: a save while the store is held (R392). -/
def Block.checkSave (b : Block) (n : Nat) (w : Staged) : Option TxnFail :=
  match regAt w.addr with
  | some (.TXN_SAVE, _, _) => if w.val.getLsbD 0 && b.saveBusy then some (failAt .busy n w) else none
  | _ => none

/-- Check 5: claims, and the pairing of proportional channels (R235, R394). -/
def checkClaims (old new : Block) (staged : List Nat) : Option TxnFail :=
  match claimsFail old new staged, pairFails old new staged with
  | some (n, o), some (m, q) =>
    if m < n then some { status := .resourceOwned, index := m, detail := leBytes 4 q.toNat }
    else some { status := .resourceOwned, index := n, detail := leBytes 4 o.toNat }
  | some (n, o), none => some { status := .resourceOwned, index := n, detail := leBytes 4 o.toNat }
  | none, some (m, q) => some { status := .resourceOwned, index := m, detail := leBytes 4 q.toNat }
  | none, none => none

/-- The check of a transaction: the first of the six that fails (R387). -/
def Block.txnCheck (b : Block) (k : Sess) : Option TxnFail :=
  let t := (b.link.sess k).txn
  let ws := t.staged
  let new := b.withStaged k ws
  (firstFail (fun _ n w => checkRivals t n w) [] ws)
    <|> (firstFail (checkRange new k) [] ws)
    <|> (firstFail (checkRules b new k ws) [] ws)
    <|> (firstFail (checkUnits b new k) [] ws)
    <|> (checkClaims b new (ws.map (·.addr)))
    <|> (firstFail (fun _ n w => b.checkSave n w) [] ws)

/-! ### What a commit does -/

/-- A key committed whole is stored (R374). -/
def Block.txnKey (b : Block) (k : Sess) (ws : List Staged) : Block :=
  if keyWhole ws (sessIndex k) then
    let word (w : Nat) : Bytes :=
      match (ws.filter (fun s => s.addr == addr .LINK_KEY (sessIndex k) w)).getLast? with
      | some s => leBytes 4 s.val.toNat
      | none => []
    b.storeKey k ((List.range 8).map word).flatten
  else b

/-- The other session's open transaction meets the words that this one has written (R389). -/
def Block.txnRivals (b : Block) (k : Sess) (ws : List Staged) : Block :=
  b.modTxn (otherSess k) (fun t =>
    if t.state = .opened ∨ t.state = .committing then { t with rivals := t.rivals ++ ws.map (·.addr) } else t)

/-- The transaction of session `k` at step 2 of a COMMIT: checked, then applied whole or refused; the
    block, and the reply's status and payload (R387, R388). -/
def Block.txnApply (b : Block) (k : Sess) (at_ : Nat) : Block × Status × Bytes :=
  let ws := (b.link.sess k).txn.staged
  match b.txnCheck k with
  | some f =>
    let b1 := if f.status = .resourceOwned then b.count .RES_CNT 0 15 0 else b
    let b2 := (b1.count .TXN_CNT 0 15 8).modTxn k (fun t => { t with
      lastStatus := f.status, lastIndex := BitVec.ofNat 16 f.index })
    (b2.txnEnds k, f.status, leBytes 2 f.index ++ leBytes 2 0 ++ f.detail)
  | none =>
    let b1 := ws.foldl (fun acc w => acc.applyStaged k w.addr w.val at_) b
    let b2 := (b1.txnKey .main ws).txnKey .service ws
    let b3 := (b2.txnRivals k ws).count .TXN_CNT 0 31 16
    let b4 := b3.modTxn k (fun t => { t with lastStatus := .ok, lastIndex := 0xFFFF })
    (b4.txnEnds k, .ok, [])

end Sys2Proof.Machine
end

