-- ==== Sys2Proof/Machine/Update.lean ====
section
/-! DEFINITION. Firmware update and settings migration (16): the update requests, verification, boot
    records, the trial and the start of an image: R451 to R474. -/

namespace Sys2Proof.Machine

open Sys2Proof (Word Byte Bytes Sess Hdr Instr)

/-! ### Slots, records, states -/

/-- The update state with a slot replaced by its image. -/
def Update.modSlot (u : Update) (k : Bool) (f : Slot → Slot) : Update :=
  if k then { u with slotB := f u.slotB } else { u with slotA := f u.slotA }

/-- A slot set to a state. -/
def Block.slotTo (b : Block) (k : Bool) (s : SlotState) : Block :=
  b.modUpd (fun u => u.modSlot k (fun x => { x with state := s }))

/-- The acknowledged offset of the target slot. -/
def Update.acked (u : Update) : Nat := (u.slot u.target).offset

/-- The update moves to a state; UPD_STATE is raised when the state shown changes (R474). -/
def Block.updTo (b : Block) (s : UpdState) (at_ : Nat := 0) : Block :=
  let old := b.upd.shown
  let b1 := b.modUpd (fun u => { u with state := s })
  if b1.upd.shown = old then b1
  else b1.raise 18 (BitVec.ofNat 8 b1.upd.shown) (payS (old + b1.upd.acked * 2 ^ 32)) at_

/-- A boot record written into the region that does not hold the winner, one number above it (R453).
    Where there is no winner its number is a free value (log entry 2). -/
def Block.bootRecord (b : Block) (r : BootRecord) : Block :=
  let put (b : Block) (second : Bool) (seq : Word) : Block :=
    let x : BootRecord := { r with valid := true, seq := seq, identity := (b.upd.slot r.slot).identity }
    b.modUpd (fun u => if second then { u with rec1 := x } else { u with rec0 := x })
  match b.upd.winner with
  | none => let (v, b1) := b.draw; put b1 false (BitVec.ofNat 32 v)
  | some w => put b (b.upd.rec0.valid && w == b.upd.rec0) (w.seq + 1)

/-- A revert (R468): the record that names the previous slot and store, the trial slot EMPTY, and an
    UPD_REVERT for the reverted image's first COMMIT. Without a previous slot no record is written, and the
    next start finds none to start (R473). -/
def Block.revert (b : Block) (cause kind : Nat) : Block :=
  match b.upd.winner with
  | none => b
  | some w =>
    let b1 := match w.prevSlot with
      | some p => b.bootRecord { w with
          slot := p, store := w.prevStore.getD w.store, trial := false, starts := 0
          prevSlot := none, prevStore := none, revert := cause }
      | none => b
    (b1.slotTo w.slot .empty).modUpd (fun u => { u with
      reverts := u.reverts + 1, revertEvent := if w.prevSlot.isSome then some (cause, kind) else none })

/-! ### UPD_BEGIN and UPD_CHUNK (R459 to R461) -/

/-- The rows of the UPD opcodes (R357). -/
def updBeginRow : OpRow := opRow 0x0050 48 true
def updChunkRow : OpRow :=
  { code := 0x0051, serviceOnly := true
    lengthOk := fun n => decide (12 ≤ n) && decide (n ≤ 1032) && n % 4 == 0 }
def updVerifyRow : OpRow := opRow 0x0052 0 true
def updActivateRow : OpRow := opRow 0x0053 0 true
def updConfirmRow : OpRow := opRow 0x0054 0 true
def updAbortRow : OpRow := opRow 0x0055 0 true
def updStatusRow : OpRow := opRow 0x0056 0 true

/-- The largest image, in bytes (R451). -/
def imageMax : Nat := 8384512

/-- The reply of an UPD_BEGIN: the offset wanted and the target slot (R460). -/
def Block.beginReply (b : Block) (k : Sess) (h : Hdr) : Block :=
  b.replyNow (some k) h updBeginRow.code .ok
    (leBytes 4 b.upd.acked ++ leBytes 1 b.upd.target.toNat ++ leBytes 3 0)

/-- A new download: the header of the target slot written, PARTIAL at offset 0 (R460). -/
def Block.download (b : Block) (identity : Bytes) (length : Nat) : Block :=
  (b.modUpd (fun u => u.modSlot u.target (fun s => { s with
    state := .partialImage, identity := identity, length := length, offset := 0, image := some [] }))).updTo
      .receiving

/-- Dispatch of UPD_BEGIN. A download that an activation interrupted is taken up again at its full length
    (R472). -/
def dispatchUpdBegin (h : Hdr) (identity : BitVec 256) (length : Word) (flags : Byte) : Dispatch := fun k _ _ b =>
  let u := b.upd
  let s := u.slot u.target
  let id := leBytes 32 identity.toNat
  let n := length.toNat
  let afresh := flags.getLsbD 0
  let same := s.identity == id && s.length == n
  let no (st : Status) : Block := b.replyNow (some k) h updBeginRow.code st
  let open_ := match u.state with
    | .idle | .receiving | .complete => true
    | .verified => afresh
    | _ => false
  if !open_ then no .updSequence
  else if n = 0 ∨ n % 4 ≠ 0 then no .range
  else if imageMax < n then no .updSpace
  else if afresh then (b.download id n).beginReply k h
  else if u.state = .idle then
    if s.state = .installed ∧ s.image.isSome ∧ same then
      ((b.slotTo u.target .complete).updTo .complete).beginReply k h
    else (b.download id n).beginReply k h
  else if same then b.beginReply k h
  else no .updSequence

/-- UPD_BEGIN (R460). -/
def execUpdBegin (h : Hdr) (identity : BitVec 256) (length : Word) (flags : Byte) :
    State → Host.Outcome State Fault Refusal :=
  lift (fun b => b.request (.updBegin h identity length flags) h updBeginRow
    (dispatchUpdBegin h identity length flags))

/-- Dispatch of UPD_CHUNK (R461). -/
def dispatchUpdChunk (h : Hdr) (offset : Word) (data : Bytes) : Dispatch := fun k _ _ b =>
  let u := b.upd
  let s := u.slot u.target
  let o := offset.toNat
  let stop := o + data.length
  let ack (b : Block) : Block :=
    b.replyNow (some k) h updChunkRow.code .ok (leBytes 4 b.upd.acked ++ leBytes 4 0)
  if u.state ≠ .receiving then b.replyNow (some k) h updChunkRow.code .updSequence
  else if o % 4 ≠ 0 ∨ s.length < stop then b.replyNow (some k) h updChunkRow.code .range
  else if s.offset < o then b.replyNow (some k) h updChunkRow.code .updSequence
  else if stop ≤ s.offset then ack b
  else
    let rest := data.drop (s.offset - o)
    let b1 := b.modUpd (fun u => u.modSlot u.target (fun x => { x with
      offset := stop, image := some (x.image.getD [] ++ rest) }))
    if stop = s.length then ack ((b1.slotTo u.target .complete).updTo .complete) else ack b1

/-- UPD_CHUNK (R461). -/
def execUpdChunk (h : Hdr) (offset : Word) (data : Bytes) : State → Host.Outcome State Fault Refusal :=
  lift (fun b => b.request (.updChunk h offset data) h updChunkRow (dispatchUpdChunk h offset data))

/-! ### Verification (R456 to R458, R462, R465) -/

/-- Bytes of a slot are all 0. -/
def zeros (start n : Nat) (m : Bytes) : Bool := (slice start n m).all (· == 0)

/-- An entry of a manifest's part table (R457). -/
structure PartEntry where
  kind : Nat
  offset : Nat
  length : Nat
  digest : Bytes
  clean : Bool
  deriving DecidableEq, Repr

/-- The six entries of the part table. -/
def partTable (m : Bytes) : List PartEntry :=
  (List.range 6).map (fun n =>
    let p := 64 + 48 * n
    { kind := leAt p 1 m, offset := leAt (p + 4) 4 m, length := leAt (p + 8) 4 m
      digest := slice (p + 16) 32 m, clean := zeros (p + 1) 1 m && zeros (p + 12) 4 m })

/-- The part of a type in an image. -/
def partOf (image : Bytes) (kind : Nat) : Bytes :=
  match (partTable image).find? (fun p => p.kind == kind) with
  | some p => slice p.offset p.length image
  | none => []

/-- The part table and the length are as R457 has them. -/
def layoutOk (image : Bytes) (length : Nat) : Bool :=
  let t := partTable image
  let apart (p q : PartEntry) : Bool :=
    p.kind == q.kind || p.offset + p.length ≤ q.offset || q.offset + q.length ≤ p.offset
  leAt 8 4 image == length && [1, 2, 3, 4, 5, 6].all (fun n => t.any (fun p => p.kind == n))
    && t.all (fun p => p.clean && 4096 ≤ p.offset && p.offset % 4 == 0 && p.offset + p.length ≤ length)
    && t.all (fun p => t.all (apart p))

/-- The first part whose digest differs; 0 for none. -/
def badPart (image : Bytes) : Nat :=
  (((partTable image).find? (fun p => sha256 (slice p.offset p.length image) != p.digest)).map (·.kind)).getD 0

/-- The identity of an image: the digest of its manifest (R456). -/
def imageIdentity (image : Bytes) : Bytes := sha256 (image.take 4096)

/-- The manifest's signature verifies (R458). -/
def signatureOk (image : Bytes) : Bool :=
  Config.signatureGood (leAt 27 1 image) (sha256 (image.take 4032)) (slice 4032 64 image)

/-- The manifest's key may be used (R458). -/
def Update.keyOk (u : Update) (image : Bytes) : Bool :=
  leAt 27 1 image < 4 && !u.revoked.getLsbD (leAt 27 1 image)

/-- The bit of a variant in a manifest (R456). -/
def Variant.bit : Variant → Nat
  | .f => 0
  | .s => 1
  | .p => 2

/-- The image suits the module (R465). -/
def Block.hardwareOk (b : Block) (image : Bytes) : Bool :=
  bitsOf (leAt 24 1 image) b.ident.variant.bit b.ident.variant.bit == 1
    && leAt 25 1 image ≤ b.ident.boardIssue.toNat && leAt 26 1 image ≤ b.ident.asicStep.toNat

/-- The manifest is well formed (R456). -/
def manifestOk (m : Bytes) : Bool :=
  4096 ≤ m.length && slice 0 4 m == ascii "VRKM" && leAt 4 2 m == 1 && leAt 6 2 m == 6
    && zeros 14 2 m && zeros 28 36 m && zeros 352 3680 m

/-- The result of verification and the part it names (R465). -/
def Block.verify (b : Block) : Nat × Nat :=
  let s := b.upd.slot b.upd.target
  let m := s.image.getD []
  let minSvn := (b.upd.winner.getD {}).minSvn
  if !manifestOk m then (1, 0)
  else if imageIdentity m != s.identity then (2, 0)
  else if !b.upd.keyOk m then (3, 0)
  else if !signatureOk m then (4, 0)
  else if !layoutOk m s.length then (5, 0)
  else if !b.hardwareOk m then (6, 0)
  else if leAt 12 2 m < minSvn then (7, 0)
  else if badPart m != 0 then (8, badPart m)
  else (0, 0)

/-- The reply of a failed verification (R465). -/
def verifyStatus (result : Nat) : Status :=
  if [2, 3, 4, 8].contains result then .updSignature else .range

/-- Dispatch of UPD_VERIFY: verification starts (R465). -/
def dispatchUpdVerify (h : Hdr) : Dispatch := fun k seq _ b =>
  if b.upd.state ≠ .complete then b.replyNow (some k) h updVerifyRow.code .updSequence
  else (b.updTo .verifying).awaits seq k h updVerifyRow.code

/-- UPD_VERIFY (R462). -/
def execUpdVerify (h : Hdr) : State → Host.Outcome State Fault Refusal :=
  lift (fun b => b.request (.updVerify h) h updVerifyRow (dispatchUpdVerify h))

/-- The final reply of the requests of an opcode. -/
def Block.finishAll (b : Block) (op : BitVec 16) (st : Status) (payload : Bytes := []) : Block :=
  (b.finalsOf op).foldl (fun acc p => acc.finishes p st payload) b

/-- VERIFY_COMPLETE (R465): verification ends with its result. -/
def execVerifyComplete : State → Host.Outcome State Fault Refusal :=
  lift (fun b =>
    if b.upd.state ≠ .verifying ∨ !(b.coresRun || b.upd.recovery) then b
    else
      let (result, part) := b.verify
      let t := b.upd.target
      let svn := leAt 12 2 ((b.upd.slot t).image.getD [])
      let b1 := b.modUpd (fun u => { u with vres := result, vpart := part })
      if result = 0 then
        (((b1.slotTo t .verified).updTo .verified).finishAll updVerifyRow.code .ok
          (leBytes 2 svn ++ leBytes 2 0)).fences
      else
        let b2 := ((b1.slotTo t .empty).modUpd (fun u => { u with vfail := u.vfail + 1 })).updTo .idle
        ((b2.raise 19 (BitVec.ofNat 8 result) (payS (part + svn * 2 ^ 32))).finishAll updVerifyRow.code
          (verifyStatus result)).fences)

/-! ### UPD_ACTIVATE, UPD_CONFIRM, UPD_ABORT, UPD_STATUS (R463, R464, R466, R469) -/

/-- A final reply that follows at once what its request wrote. -/
def Block.answers (b : Block) (seq : Nat) (k : Sess) (h : Hdr) (op : BitVec 16) (st : Status) : Block :=
  (b.awaits seq k h op).finishAll op st

/-- A cold reset of KIND 8 follows at the next Tick edge (R463). -/
def Block.resetFollows (b : Block) : Block := b.modUpd (fun u => { u with resetDue := true })

/-- The store in which a valid settings copy was last found, for an activation from recovery mode
    (R473). -/
def Update.lastStore (u : Update) : Option Bool :=
  let first := u.storeNow
  if (u.store first).active.isSome then some first
  else if (u.store (!first)).active.isSome then some (!first)
  else none

/-- The record of an activation (R466, R473). -/
def Update.activation (u : Update) : BootRecord :=
  let w := u.winner.getD {}
  let t := u.target
  if u.recovery then
    { w with
      slot := t, trial := true, starts := 0, prevSlot := none, prevStore := u.lastStore
      store := match u.lastStore with
        | some p => !p
        | none => false }
  else
    { w with slot := t, store := !w.store, trial := true, starts := 0, prevSlot := some u.running
             prevStore := some w.store }

/-- Dispatch of UPD_ACTIVATE (R466). -/
def dispatchUpdActivate (h : Hdr) : Dispatch := fun k seq _ b =>
  if b.upd.state ≠ .verified then b.replyNow (some k) h updActivateRow.code .updSequence
  else if b.outputUnit then b.replyNow (some k) h updActivateRow.code .denied
  else
    let t := b.upd.target
    let no := max b.upd.slotA.installedNo b.upd.slotB.installedNo + 1
    let r := b.upd.activation
    let b1 := b.modUpd (fun u => u.modSlot t (fun s => { s with state := .installed, installedNo := no }))
    let b2 := (b1.bootRecord r).modUpd (fun u => { u with activations := u.activations + 1 })
    (b2.answers seq k h updActivateRow.code .ok).resetFollows

/-- UPD_ACTIVATE (R466). -/
def execUpdActivate (h : Hdr) : State → Host.Outcome State Fault Refusal :=
  lift (fun b => b.request (.updActivate h) h updActivateRow (dispatchUpdActivate h))

/-- Dispatch of UPD_CONFIRM (R459, R469). -/
def dispatchUpdConfirm (h : Hdr) : Dispatch := fun k seq _ b =>
  match b.upd.state with
  | .idle => b.replyNow (some k) h updConfirmRow.code .ok
  | .migrationFailed => b.replyNow (some k) h updConfirmRow.code .migrationFailed
  | .trial =>
    match b.upd.winner with
    | none => b.replyNow (some k) h updConfirmRow.code .updSequence
    | some w =>
      let b1 := b.bootRecord { w with
        trial := false, starts := 0, prevSlot := none, prevStore := none, minSvn := max w.minSvn b.runInfo.svn }
      (b1.updTo .idle).answers seq k h updConfirmRow.code .ok
  | _ => b.replyNow (some k) h updConfirmRow.code .updSequence

/-- UPD_CONFIRM (R469). -/
def execUpdConfirm (h : Hdr) : State → Host.Outcome State Fault Refusal :=
  lift (fun b => b.request (.updConfirm h) h updConfirmRow (dispatchUpdConfirm h))

/-- Dispatch of UPD_ABORT (R459, R463). -/
def dispatchUpdAbort (h : Hdr) : Dispatch := fun k seq _ b =>
  match b.upd.state with
  | .idle => b.replyNow (some k) h updAbortRow.code .ok
  | .receiving | .complete | .verified =>
    ((b.slotTo b.upd.target .empty).updTo .idle).replyNow (some k) h updAbortRow.code .ok
  | .trial => ((b.revert 4 8).answers seq k h updAbortRow.code .ok).resetFollows
  | .migrationFailed => (b.answers seq k h updAbortRow.code .ok).resetFollows
  | .verifying => b.replyNow (some k) h updAbortRow.code .updSequence

/-- UPD_ABORT (R463). -/
def execUpdAbort (h : Hdr) : State → Host.Outcome State Fault Refusal :=
  lift (fun b => b.request (.updAbort h) h updAbortRow (dispatchUpdAbort h))

/-- The payload of an UPD_STATUS reply (R464). -/
def Block.updStatus (b : Block) : Bytes :=
  let u := b.upd
  let w := u.winner.getD {}
  let t := u.slot u.target
  leBytes 1 u.shown ++ leBytes 1 u.target.toNat ++ leBytes 1 u.vres ++ leBytes 1 u.vpart ++ leBytes 4 t.offset
    ++ leBytes 4 t.length ++ leBytes 4 w.seq.toNat ++ leBytes 1 w.starts ++ leBytes 1 u.running.toNat
    ++ leBytes 1 u.migResult ++ leBytes 1 0 ++ leBytes 2 w.minSvn
    ++ leBytes 2 (if u.recovery then 0 else u.info.svn) ++ padTo 8 (t.identity.take 8)

/-- Dispatch of UPD_STATUS (R464). -/
def dispatchUpdStatus (h : Hdr) : Dispatch := fun k _ _ b =>
  b.replyNow (some k) h updStatusRow.code .ok b.updStatus

/-- UPD_STATUS (R464). -/
def execUpdStatus (h : Hdr) : State → Host.Outcome State Fault Refusal :=
  lift (fun b => b.request (.updStatus h) h updStatusRow (dispatchUpdStatus h))

/-! ### The start of an image (R453, R467, R468) -/

/-- A slot passes the start checks (R467): INSTALLED, identity, key, signature, digests. The image that the
    module was made with passes them. -/
def Update.startOk (u : Update) (k : Bool) : Bool :=
  let s := u.slot k
  s.state == .installed && (match s.image with
    | none => true
    | some m => imageIdentity m == s.identity && u.keyOk m && signatureOk m && badPart m == 0)

/-- The update state that a start finds (R459). -/
def Update.resumed (u : Update) : UpdState :=
  if !u.recovery && (u.winner.getD {}).trial then .trial
  else
    match (u.slot u.target).state with
    | .partialImage => .receiving
    | .complete => .complete
    | .verified => .verified
    | _ => .idle

/-- An image runs from a slot, or none does. -/
def Block.runs_ (b : Block) (slot : Option Bool) : Block :=
  match slot with
  | some k => b.modUpd (fun u => { u with running := k, recovery := false })
  | none => b.modUpd (fun u => { u with recovery := true })

/-- The start without a valid record, or with none of its slots startable (R453). -/
def Block.startAny (b : Block) : Block :=
  let take (k : Bool) : Block :=
    (b.bootRecord { slot := k, store := false, minSvn := (b.upd.slot k).info.svn }).runs_ (some k)
  if b.upd.startOk false then take false else if b.upd.startOk true then take true else b.runs_ none

/-- The start that the winning record names, outside a trial (R467): its slot, else the other one with a
    new record and UPD_REVERT of cause 2, else recovery mode. -/
def Block.startNamed (b : Block) (w : BootRecord) (kind : Nat) : Block :=
  let other := !w.slot
  if b.upd.startOk w.slot then b.runs_ (some w.slot)
  else if b.upd.startOk other && w.minSvn ≤ (b.upd.slot other).info.svn then
    ((b.bootRecord { slot := other, store := false, minSvn := (b.upd.slot other).info.svn, revert := 2 }).runs_
      (some other)).modUpd (fun u => { u with reverts := u.reverts + 1, revertEvent := some (2, kind) })
  else b.runs_ none

/-- A revert at a start, and the start of the previous slot (R468). -/
def Block.startReverted (b : Block) (cause kind : Nat) : Block :=
  let b1 := b.revert cause kind
  match b.upd.winner with
  | none => b1.runs_ none
  | some w =>
    match w.prevSlot, b1.upd.winner with
    | some _, some n => b1.startNamed n kind
    | _, _ => b1.runs_ none

/-- The slot that a cold start starts (R453, R467, R468); `kind` is the code of the reset. -/
def Block.coldSlot (b : Block) (kind : Nat) : Block :=
  match b.upd.winner with
  | none => b.startAny
  | some w =>
    if !w.trial then b.startNamed w kind
    else if 3 ≤ w.starts then b.startReverted 1 kind
    else
      let b1 := b.bootRecord { w with starts := w.starts + 1 }
      if b1.upd.startOk w.slot then b1.runs_ (some w.slot) else b1.startReverted 2 kind

/-- A warm reset has to revert, and becomes a cold one (R468, R471). -/
def Block.mustRevert (b : Block) : Bool :=
  !b.upd.recovery && (b.upd.state == .migrationFailed
    || (match b.upd.winner with
      | some w => w.trial && Decidable.decide (3 ≤ w.starts)
      | none => false))

/-- A warm start counts in a trial (R468). -/
def Block.warmSlot (b : Block) : Block :=
  match b.upd.winner with
  | some w => if w.trial && !b.upd.recovery then b.bootRecord { w with starts := w.starts + 1 } else b
  | none => b

/-! ### Settings at a start (R391, R454, R470, R471) -/

/-- The keys of the sessions taken from a store: all zero where none has been written (R345, R454). -/
def Block.loadKeys (b : Block) (s : Store) : Block :=
  let k := s.keys
  if k.valid then b.modLink (fun l => { l with keyMain := k.main, keyService := k.service })
  else b.modLink (fun l => { l with keyMain := List.replicate 32 0, keyService := List.replicate 32 0 })

/-- The keys of recovery mode (R473): from the first valid key copy, store A before store B. -/
def Block.recoveryKeys (b : Block) : Block :=
  if b.upd.storeA.keys.valid then b.loadKeys b.upd.storeA else b.loadKeys b.upd.storeB

/-- Settings words loaded into a configuration at its reset values. -/
def Block.loadWords (b : Block) (ws : List (Nat × Word)) : Block :=
  ws.foldl (fun acc x => acc.loadWord x.1 x.2) b

/-- The first settings word that fails the checks of a commit (R387, R470): ranges, consistency,
    claims. -/
def Block.badValue (b : Block) (ws : List (Nat × Word)) : Option Nat :=
  let new := b.loadWords ws
  let range := ws.find? (fun x => match regAt x.1 with
    | some (r, i, j) => !new.rangeOk r i j x.2
    | none => true)
  let rules := ws.find? (fun x => match regAt x.1 with
    | some (r, i, j) => !(rulesOf r i j).all (fun p => p.holds b new)
    | none => false)
  let addrs := ws.map (·.1)
  match range, rules, claimsFail b new addrs with
  | some x, _, _ => some x.1
  | none, some x, _ => some x.1
  | none, none, some (n, _) => some (nth addrs n 0)
  | none, none, none => none

/-- A migration fails (R471): its reason, the revert, the units. In recovery's trial the module returns to
    recovery mode at once (R473). -/
def Block.migrationFails (b : Block) (reason address stored kind : Nat) : Block :=
  let schema := b.runInfo.schema
  let alone := (b.upd.winner.getD {}).prevSlot.isNone
  let b1 := (b.revert 3 kind).modUpd (fun u => { u with
    migResult := 8 + reason, migAddr := address, migEvent := some (reason, stored, schema)
    state := .migrationFailed, recovery := alone })
  { b1 with vig := { b1.vig with units := b1.vig.units.map (setEntry (fun e => { e with cause := .migration })) } }

/-- The new store written by a migration (R470): the keys, and copy 0 with generation 1 and its mark. -/
def Block.migrated (b : Block) (store : Bool) (ws : RegFile) (mark : Option (Bool × Nat)) : Block :=
  let schema := b.runInfo.schema
  let keys := b.link
  b.modUpd (fun u => { u.modStore store (fun s => { s.putKeys keys.keyMain keys.keyService with
      copy0 := { valid := true, generation := 1, schema := schema, words := ws, mark := mark }, copy1 := {} }) with
    migResult := 1 })

/-- The migration of a trial start (R470, R471, R473), on a configuration at its reset values: the keys
    are loaded, the words of the new store become the configuration. -/
def Block.migrate (b : Block) (w : BootRecord) (kind : Nat) : Block :=
  let old := w.prevStore.map (fun p => (p, b.upd.store p))
  let source := old.bind (fun x => x.2.active.map (fun c => (x.1, c)))
  match source with
  | none =>
    if w.prevSlot.isNone then
      let b1 := match old with
        | some x => b.loadKeys x.2
        | none => b.recoveryKeys
      b1.migrated w.store [] none
    else b.migrationFails 3 0 0 kind
  | some (p, c) =>
    let b1 := b.loadKeys (b.upd.store p)
    match Config.migrate (partOf ((b.upd.slot w.slot).image.getD []) 6) c.schema c.words with
    | none => b1.migrationFails 1 0 c.schema kind
    | some ws =>
      match b1.badValue ws with
      | some a => b1.migrationFails 2 a c.schema kind
      | none =>
        let b2 := b1.loadWords ws
        b2.migrated w.store b2.rwsWords (some (p, c.generation))

/-- The record's store already holds what the migration of this trial makes (R470). -/
def Update.migratedBefore (u : Update) (w : BootRecord) : Bool :=
  let s := u.store w.store
  match w.prevStore.bind (fun p => ((u.store p).active).map (fun c => (p, c.generation))) with
  | some m => [s.copy0, s.copy1].any (fun c => c.valid && c.mark == some m)
  | none => s.active.isSome

/-- A settings store's configuration and keys loaded (R391). -/
def Block.loadStore (b : Block) (k : Bool) : Block :=
  let s := b.upd.store k
  (b.loadKeys s).loadWords ((s.active.map (·.words)).getD [])

/-- The settings of a cold start, on a configuration at its reset values (R391, R470, R473). -/
def Block.coldSettings (b : Block) (kind : Nat) : Block :=
  if b.upd.recovery then b.recoveryKeys
  else
    match b.upd.winner with
    | none => b
    | some w =>
      if w.trial && !b.upd.migratedBefore w then b.migrate w kind
      else b.loadStore w.store

/-- An interrupted save found at a cold start in the winner's store (R455), a store being migrated into
    excepted. -/
def Block.foundSave (b : Block) : Block :=
  match b.upd.winner with
  | none => b
  | some w =>
    let s := b.upd.store w.store
    let found := [s.copy0, s.copy1].any (fun c => c.broken && !c.valid && !c.reported)
    if found && !(w.trial && !b.upd.migratedBefore w) then
      b.modUpd (fun u => { u with saveEvent := some (3, ((s.active.map (·.generation)).getD 0) + 1) })
    else b

/-- A save that a warm reset interrupts (R455): reported with code 2 at the first COMMIT. -/
def Block.brokenSave (b : Block) : Block :=
  match b.upd.save with
  | none => b
  | some s =>
    b.modUpd (fun u => { u.modStore u.storeNow (fun x => x.modSpare (fun c => { c with reported := true })) with
      save := none, saveEvent := some (2, s.generation) })

end Sys2Proof.Machine
end

