-- ==== Sys2Proof/Machine/Supply.lean ====
section
/-! DEFINITION. The VPWR inputs (17): their switches, precharge and return: R487, R488, R489, R492. -/

namespace Sys2Proof.Machine

open Sys2Proof (Word Byte Bytes Sess Hdr Instr VpwrInput)

/-- A switch that nothing keeps open: it may be precharged and closed. -/
def Input.eligible (x : Input) : Bool :=
  !x.closed && (x.opened == .neverClosed || x.opened == .prechargeFailed)

/-- A switch that a case of R487 opens, its input lost. The voltage that INPUT_LOST reports of an open
    switch is a free value (log entry 2). -/
def Block.inputOpens (b : Block) (i : VpwrInput) (why : SwitchOpen) (at_ : Nat) : Block :=
  let x := b.sup.input i
  let b1 := b.modInput i (fun x => { x with closed := false, opened := why, openedAt := b.now at_ })
  if x.present then
    let (v, b2) := b1.draw
    let mv := v % 2 ^ 32
    ((b2.modInput i (fun x => { x with present := false, lost := true })).motorsSettle at_).raise 3 1 (payS (inputNo i + mv * 2 ^ 32)) at_
  else b1

/-- A switch closes: the input takes the voltage of the bus, present from 9.0 V (R297, R487, R493). -/
def Block.inputCloses (b : Block) (i : VpwrInput) (busMv : Nat) : Block :=
  let b1 := b.modInput i (fun x => { x with closed := true, opened := .neverClosed })
  if 9000 ≤ busMv then b1.inputPresent i busMv else b1.modInput i (fun x => { x with mv := busMv })

/-- PRECHARGE_START (R492): a contact more than 1.0 V above the bus starts precharge; one that is not,
    while the bus is charged, is switched in at once. A contact at 0 V has nothing connected (log entry 60). -/
def execPrechargeStart (mvA mvB busMv at_ : Nat) : State → Host.Outcome State Fault Refusal :=
  lift (fun b =>
    let waits : Bool := match b.sup.retryAt with
      | some t => decide (b.now at_ < t)
      | none => false
    if b.eng.pwr.state = .dormant ∨ b.sup.prechargeSince.isSome ∨ waits then b
    else
      let charged := b.sup.inA.closed || b.sup.inB.closed
      let b1 := (b.modInput .a (fun x => { x with contactMv := mvA })).modInput .b (fun x => { x with contactMv := mvB })
      let b2 := b1.modSup (fun s => { s with busMv := busMv, retryAt := none })
      let ovr (i : VpwrInput) (mv : Nat) : Bool := (b.sup.input i).eligible && busMv + 1000 < mv
      let joins (i : VpwrInput) (mv : Nat) (acc : Block) : Block :=
        if charged && (acc.sup.input i).eligible && 0 < mv && mv ≤ busMv + 1000 then acc.inputCloses i busMv
        else acc
      let b3 := joins .b mvB (joins .a mvA b2)
      if ovr .a mvA || ovr .b mvB then b3.modSup (fun s => { s with prechargeSince := some (b.now at_) })
      else b3)

/-- PRECHARGE_COMPLETE (R489, R492): the bus has come within 1.0 V. -/
def execPrechargeComplete (mvA mvB busMv : Nat) : State → Host.Outcome State Fault Refusal :=
  lift (fun b =>
    if b.sup.prechargeSince.isNone then b
    else
      let near (i : VpwrInput) (mv : Nat) : Bool :=
        (b.sup.input i).eligible && mv ≤ busMv + 1000 && busMv ≤ mv + 1000
      if !near .a mvA && !near .b mvB then b
      else
        let b1 := b.modSup (fun s => { s with prechargeSince := none, busMv := busMv })
        let b2 := if near .a mvA then b1.inputCloses .a busMv else b1
        if near .b mvB then b2.inputCloses .b busMv else b2)

/-- PRECHARGE_TIMEOUT (R492): not done in 30 ms; the next attempt follows after 1.0 s. -/
def execPrechargeTimeout (at_ : Nat) : State → Host.Outcome State Fault Refusal :=
  lift (fun b =>
    match b.sup.prechargeSince with
    | none => b
    | some t =>
      if b.now at_ < t + 30000000 then b
      else
        let fail (x : Input) : Input := if x.eligible then { x with opened := .prechargeFailed } else x
        b.modSup (fun s => { s with
          prechargeSince := none, retryAt := some (b.now at_ + 1000000000), inA := fail s.inA, inB := fail s.inB }))

/-- INPUT_SWITCH_OVERCURRENT (R487): above 60 A for 100 us. -/
def execInputSwitchOvercurrent (i : VpwrInput) (ma ns at_ : Nat) : State → Host.Outcome State Fault Refusal :=
  lift (fun b =>
    if (b.sup.input i).closed ∧ 60000 < ma ∧ 100000 ≤ ns then b.inputOpens i .overCurrent at_ else b)

/-- INPUT_SWITCH_OVERVOLTAGE (R487, R488): the contact above 36.0 V. -/
def execInputSwitchOvervoltage (i : VpwrInput) (mv at_ : Nat) : State → Host.Outcome State Fault Refusal :=
  lift (fun b =>
    if 36000 < mv then (b.inputOpens i .overVoltage at_).modInput i (fun x => { x with contactMv := mv }) else b)

/-- GROUND_LIFT (R487): PGND more than 1.0 V above LGND for 10 us opens both switches. -/
def execGroundLift (mv ns at_ : Nat) : State → Host.Outcome State Fault Refusal :=
  lift (fun b =>
    if 1000 < mv ∧ 10000 ≤ ns then
      ((b.inputOpens .a .groundLift at_).inputOpens .b .groundLift at_).modSup (fun s => { s with
        prechargeSince := none })
    else b)

/-- INPUT_SWITCH_RETURN (R487): what opened the switch has gone for long enough, and it may return through
    precharge. `mv` is the contact's voltage, after a ground lift that of PGND above LGND, and `settledNs`
    the time for which it has been below the level of return. -/
def execInputSwitchReturn (i : VpwrInput) (mv settledNs at_ : Nat) : State → Host.Outcome State Fault Refusal :=
  lift (fun b =>
    let x := b.sup.input i
    let back : Bool := match x.opened with
      | .overCurrent => decide (x.openedAt + 1000000000 ≤ b.now at_)
      | .overVoltage => decide (mv < 34000) && decide (10000000 ≤ settledNs)
      | .groundLift => decide (mv ≤ 500) && decide (10000000 ≤ settledNs)
      | _ => false
    if !x.closed && back then b.modInput i (fun x => { x with opened := .neverClosed }) else b)

end Sys2Proof.Machine
end

