-- ==== Sys2Proof/Machine/Reset.lean ====
section
/-! DEFINITION. Resets, hold-up and the exits from HOLD and DORMANT that are starts (01, 10, 14, 17): R19, R21,
    R230, R266, R311, R315, R327, R408, R411 to R415, R467, R486, R494. -/

namespace Sys2Proof.Machine

open Sys2Proof (Word Byte Bytes Sess Hdr Instr EccRegion DormCause)

/-! ### What a reset does to each part (R8, R412) -/

/-- A cold reset (R411). -/
def ResetKind.cold : ResetKind → Bool
  | .powerOn | .resetN | .dormantExit | .lockstep | .image => true
  | _ => false

/-- The logic supply was off before the reset. -/
def ResetKind.fromOff : ResetKind → Bool
  | .powerOn | .dormantExit => true
  | _ => false

/-- What a register word becomes (R8, R391): by its register's reset source; a warm reset keeps RWS fields. -/
def resetValue (cold : Bool) (r : Reg) (i j : Nat) (w : Word) : Word :=
  match (desc r).source with
  | .kept => w
  | .cold => if cold then resetWord r i j else w
  | .warm =>
    let m := fieldMask (desc r) [.rws]
    if cold then resetWord r i j else (resetWord r i j &&& ~~~m) ||| (w &&& m)
  | .session => resetWord r i j

/-- The register file after a reset (R8, R391). -/
def resetFile (cold : Bool) (f : RegFile) : RegFile :=
  f.foldl (fun acc x =>
    match regAt x.1 with
    | none => acc
    | some (r, i, j) =>
      fileSet acc x.1 (resetWord r i j) (resetValue cold r i j (fileGet f x.1 (resetWord r i j)))) []

/-- A session after a reset (R347, R412): END reads 4 where it was open. -/
def Session.afterReset (x : Session) : Session :=
  { endCause := if x.state = .opened then .reset else .none }

/-- The endpoint after a reset (R412): the links stay up through a warm reset. -/
def Link.afterReset (l : Link) (cold : Bool) : Link :=
  { l with
    main := l.main.afterReset, service := l.service.afterReset, queues := [[], [], [], []], progress := []
    tx := if cold then { l.tx with waiting := [] } else l.tx
    nextTxn := 1, saveBusySince := none
    authFails := if cold then [] else l.authFails
    lockouts := if cold then [] else l.lockouts
    portA := if cold then {} else l.portA
    portB := if cold then { leader := true } else l.portB
    dadDone := l.dadDone && !cold }

/-- The Diary after a reset (R412, R440, R442, R446): records and staging are kept, the entries that
    waited in the intake are lost and their numbers used again. -/
def Diary.afterReset (d : Diary) (cold : Bool) : Diary :=
  { d with
    fifo := [], next := (d.fifo.head?.map (·.seq)).getD d.next, newest := .nowhere, lostPending := 0
    freeze := none, protectHold := false, fill := false
    failed := d.failed && !cold
    drained := if cold then d.drainedMram else d.drained
    logSource := if cold then 0 else d.logSource
    logCode := if cold then 0 else d.logCode
    logDiary := d.logDiary && !cold
    logMram := d.logMram && !cold
    logEmber := d.logEmber && !cold }

/-- The event sources after a reset (R432, R446). -/
def Events.afterReset (e : Events) (cold : Bool) : Events :=
  { cond := if cold then 0 else e.cond &&& BitVec.ofNat 128 (2 ^ 126), baseTemp := e.baseTemp, alertHeld := true }

/-- CAN after a reset: DM2 is kept (R412), the codes that were active joining it (R370). -/
def Can.afterReset (c : Can) (now : Nat) : Can :=
  { previous := lastN 32 (c.previous ++ c.active), sent := c.sent, sentS := c.sentS, claimedAt := now }

/-- A load switch after a reset (R327): held by Vigil, or off. -/
def Lsw.afterReset (x : Lsw) (held : Bool) (now : Nat) : Lsw :=
  if held then
    { held := true, limitMa := x.latchMa, since := now, currentMa := x.currentMa, tj := x.tj, tpair := x.tpair
      latchOn := x.latchOn, latchMa := x.latchMa }
  else {}

/-- The engines after a reset, which comes after every instant already named in its Tick; `hold` tells the load switches that Vigil holds (R133, R160, R194, R230,
    R266, R294, R408). The PWM units take up their configuration once it is loaded. -/
def Block.resetEngines (b : Block) (cold : Bool) (hold : Nat → Bool) (now offNs : Nat) : Engines :=
  let e := b.eng
  { pwr := { lastCause := if cold then 0 else e.pwr.lastCause, dormCause := if cold then 0 else e.pwr.dormCause }
    lsw := e.lsw.zipIdx.map (fun x => x.1.afterReset (hold x.2) now)
    fb := { levels := e.fb.levels, gpi := e.fb.gpi }
    pose := if cold then {} else e.pose.warm b.time.hand
    map := e.map.afterReset cold
    valve := { noz := e.valve.noz.map (fun x => x.afterReset b.evt.baseTemp now)
               boosts := e.valve.boosts.map (fun x => { capNf := x.capNf })
               learnedDirty := e.valve.learnedDirty, learnedAt := e.valve.learnedAt }
    alm := e.alm.afterReset
    mot := if offNs = 0 then b.motorsAt now else {}
    loop := {} }

/-- Sixteen fresh bytes of the debug challenge (R419, log entry 2). -/
def Block.freshChallenge (b : Block) : Block :=
  let (n, b1) := Block.nonce 16 b
  { b1 with vig := { b1.vig with challenge := BitVec.ofNat 128 (leNat n) } }

/-- Vigil after a reset (R412, R413): every present unit STANDBY; the bridges brake from the entry on. -/
def Vigil.afterReset (v : Vigil) (variant : Variant) (kind : ResetKind) (cores : BitVec 4) (now : Nat) : Vigil :=
  { units := resetUnits variant, kind := kind, wdtCores := cores
    brakeSince := some now, challenge := v.challenge
    dbgFails := if kind.cold then [] else v.dbgFails
    dbgLockSince := if kind.cold then none else v.dbgLockSince }

/-- The time base at a cold start: device time is rebuilt from the real-time clock, which restarts from 0
    where VBAK was lost (R40, R60, R67, R68). -/
def Time.coldStart (t : Time) (now : Nat) : Time :=
  let rtc : Rtc := if t.rtc.running then t.rtc.upTo now else { since := now, alarm := t.rtc.alarm, alarmEn := t.rtc.alarmEn }
  { now := now, dev := rtc.deviceTime, taiUtc := rtc.taiUtc, utcValid := rtc.valid, rtc := rtc }

/-- The update state after a reset, before an image is started. -/
def Update.afterReset (u : Update) (cold : Bool) : Update :=
  { u with
    resetDue := false, saveCount := 0, saveFailed := false
    vres := if cold then 0 else u.vres, vpart := if cold then 0 else u.vpart
    migResult := if cold then 0 else u.migResult, migAddr := if cold then 0 else u.migAddr
    migEvent := none }

/-! ### A reset entry (R411 to R413) -/

/-- The load switches that Vigil holds through a reset: only a power-on or an exit from DORMANT clears the hold
    latch (R19, R327). -/
def Block.heldSwitches (b : Block) (kind : ResetKind) : List Nat :=
  if kind.fromOff then []
  else (List.range 16).filter (fun k => b.present (unitLsw k) && (b.sw k).latchOn && (b.sw k).conducts)

/-- The supplies after a reset: after a loss of the logic supply, and in DORMANT, the switches are
    open. -/
def Supply.afterReset (s : Supply) (fromOff : Bool) : Supply :=
  if fromOff then { key := s.key, ecuMv := s.ecuMv, inA := { contactMv := s.inA.contactMv }, inB := { contactMv := s.inB.contactMv } }
  else { s with resume := false, holdUp := false }

/-- The occurrences that a reset raises: the freeze ended, the sessions ended, the debug port locked (R347,
    R419, R442). After a loss of supply nothing is left to tell them. -/
def Block.resetRaises (b : Block) (old : Block) (fromOff : Bool) : Block :=
  if fromOff then b
  else
    let b1 := if old.diary.freeze.isSome then b.raise 123 1 (payS 4) else b
    let lost (k : Sess) (b : Block) : Block :=
      if old.isOpen k then b.raise 6 1 (payS (sessIndex k + SessEnd.reset.code * 256)) else b
    let b2 := lost .service (lost .main b1)
    if old.vig.dbg = .locked then b2 else b2.raise 118 1 (payS 2)

/-- The PWM units after a reset, with the configuration in force (R266, R269), and the identity of the image
    started (R7); after a cold one the effective
    Tick offset as loaded (R38) and the roles of the ports (R490). -/
def Block.resetFinish (b : Block) (cold : Bool) (now : Nat) : Block :=
  let b1 : Block := { b with eng := { b.eng with mot := b.eng.mot.afterReset b.motorWords now } }
  let b2 := (b1.modPose (fun p => { p with enabled := b1.flag .POSE_CTRL 0 0 })).modUpd (fun u => { u with
    info := b1.runInfo })
  if cold then
    ((b2.modTime (fun t => { t with ofsEff := b2.fld .TICK_OFS 0 13 0 * 10 })).modPort_ .a (fun p => { p with leader := b2.flag .LINK_PHY_ROLE 0 0 })).modPort_ .b
      (fun p => { p with leader := b2.flag .LINK_PHY_ROLE 0 1 })
  else b2

/-- What the image's start does: the slot, the settings, the state of the update (R391, R453, R459, R467,
    R468, R470). -/
def Block.start (b : Block) (cold : Bool) (kind : Nat) : Block :=
  let verifying := b.upd.state == .verifying
  let b0 := if verifying then b.slotTo b.upd.target .complete else b
  if cold then
    let named := b0.modUpd (fun u => { u with recovery := false })
    let b1 := (named.coldSlot kind).modUpd (fun u => { u with state := .idle })
    let b2 := (b1.modUpd (fun u => { u with state := u.resumed })).foundSave.coldSettings kind
    if b2.upd.state = .migrationFailed ∧ !b2.upd.recovery then b2
    else b2.modUpd (fun u => { u with state := u.resumed })
  else
    let b1 := b0.warmSlot
    if b1.upd.state = .migrationFailed then b1 else b1.modUpd (fun u => { u with state := u.resumed })

/-- What a reset of kind `kind` leaves of the block before anything is loaded (R412, R413); `now` is the instant
    on the model's clock. -/
def Block.resetKept (b : Block) (kind : ResetKind) (cores : BitVec 4) (now offNs : Nat) : Block :=
  let cold := kind.cold
  let held := b.heldSwitches kind
  let saved := if cold then b.modUpd (fun u => { u with save := none }) else b.brokenSave
  { ident := b.ident
    regs := resetFile cold b.regs
    time := if cold then b.time.coldStart now else b.time
    link := b.link.afterReset cold
    vig := b.vig.afterReset b.ident.variant kind cores now
    evt := b.evt.afterReset cold
    diary := b.diary.afterReset cold
    can := b.can.afterReset now
    upd := saved.upd.afterReset cold
    sup := b.sup.afterReset kind.fromOff
    eng := b.resetEngines cold (fun k => held.contains k) now offNs
    draws := b.draws }

/-- A cold reset draws a new challenge (R419); a warm one is counted (R422). -/
def Block.resetCounted (b : Block) (kind : ResetKind) : Block :=
  if kind.cold then b.freshChallenge
  else
    let c := b.count .DEV_RST_CNT 0 15 0
    match kind with
    | .watchdog => c.count .DEV_RST_CNT 0 23 16
    | .ecc => c.count .DEV_RST_CNT 0 31 24
    | _ => c

/-- After MIGRATION_FAILED the revert event names the cause of the reset (R468, R474). -/
def Block.resetNamed (b : Block) (failed : Bool) (cause : ResetKind) : Block :=
  if failed then b.modUpd (fun u => { u with revertEvent := u.revertEvent.map (fun x => (x.1, cause.code)) }) else b

/-- What the block holds is published (R44, R379). -/
def Block.publish (b : Block) : Block := { b with pub := b.eng, pubTime := b.time, pubSup := b.sup }

/-- A reset entry at the instant `at_` (R412, R413): every part takes its reset state, and the image is
    started. `offNs` is the time for which the logic was off. A warm reset of an image that must revert
    becomes a cold one of KIND 8 (R468). -/
def Block.resetEntry (b : Block) (cause : ResetKind) (cores : BitVec 4) (at_ offNs : Nat) : Block :=
  let kind : ResetKind := if !cause.cold && b.mustRevert then .image else cause
  let now := b.now (max at_ b.time.hand) + offNs
  let b1 := (b.resetKept kind cores now offNs).resetCounted kind
  let b2 := b1.resetNamed (b.upd.state == .migrationFailed) cause
  (((b2.start kind.cold cause.code).resetFinish kind.cold now).resetRaises b kind.fromOff).publish

/-- The logic of the V96 is powered. -/
def Block.powered (b : Block) : Bool := b.eng.pwr.state != .dormant

/-- POWER_ON (R411, R486): the logic supply rises, having been off for `offNs`. -/
def execPowerOn (offNs : Nat) : State → Host.Outcome State Fault Refusal :=
  lift (fun b => b.resetEntry .powerOn 0 0 offNs)

/-- RESET_N_LOW (R411): held low for at least 1 us. -/
def execResetNLow (ns : Nat) : State → Host.Outcome State Fault Refusal :=
  lift (fun b => if 1000 ≤ ns ∧ b.powered then b.resetEntry .resetN 0 0 0 else b)

/-- A service of the window watchdog `ns` after the previous one is on time (R414). -/
def Block.wdtOnTime (b : Block) (ns : Nat) : Bool :=
  let period := b.fld .VIG_WDT_CFG 0 6 0 * 1000000
  Nat.ble (b.fld .VIG_WDT_CFG 0 14 8 * period) (ns * 100) && Nat.ble ns period

/-- WATCHDOG_MISS (R414): services of cores; one that is not on time is a miss. The watchdog pauses in a halt. -/
def execWatchdogMiss (missed : Sys2Proof.WdtService) : State → Host.Outcome State Fault Refusal :=
  lift (fun b => if missed.cores ≠ 0 ∧ b.coresRun ∧ !b.wdtOnTime missed.ns then
    b.resetEntry .watchdog missed.cores 0 0 else b)

/-- CLOCK_MONITOR_FAULT (R415): a warm reset entry, and the application cluster held in reset. -/
def execClockMonitorFault : State → Host.Outcome State Fault Refusal :=
  lift (fun b => if b.powered ∧ !b.vig.clockFault then
    let b1 := b.resetEntry .clockMonitor 0 0 0
    { b1 with vig := { b1.vig with clockFault := true } }
  else b)

/-- CLOCK_RESTORED (R415): the restart begins once the reference has been in tolerance for 10 ms. -/
def execClockRestored (stableNs : Nat) : State → Host.Outcome State Fault Refusal :=
  lift (fun b =>
    if 10000000 ≤ stableNs then { b with vig := { b.vig with clockFault := false } } else b)

/-- LOCKSTEP_MISMATCH (R415): a cold reset. -/
def execLockstepMismatch : State → Host.Outcome State Fault Refusal :=
  lift (fun b => if b.powered then b.resetEntry .lockstep 0 0 0 else b)

/-- ECC_UNCORRECTABLE (R21). -/
def execEccUncorrectable (region : EccRegion) : State → Host.Outcome State Fault Refusal :=
  lift (fun b =>
    if !b.powered then b
    else
      match region with
      | .tileCache f => b.poison f 0
      | .loopState slots => b.loopEcc (slots.map (·.val))
      | .trace => b.traceEcc
      | .workingMemory => b.resetEntry .ecc 0 0 0)

/-! ### The resets that wait for a Tick edge (R358, R463) -/

/-- DEVICE_RESET, and the cold reset of an activation or a revert, at the first Tick edge after the
    reply. -/
def Block.dueResets (b : Block) : Block :=
  if b.upd.resetDue then b.resetEntry .image 0 0 0
  else if b.vig.resetDue then b.resetEntry .deviceReset 0 0 0
  else b

/-! ### DORMANT, hold-up and the alarm (R311, R315, R327, R440, R494) -/

/-- A start from DORMANT with its cause (R315, DEV_WAKE). -/
def Block.dormantStart (b : Block) (cause offNs : Nat) : Block :=
  ((b.resetEntry .dormantExit 0 0 offNs).modPwr (fun p => { p with dormCause := cause })).publish

/-- DORMANT_WAKE (R315): KEY, ECU_PWR above 8.0 V with ECU_WAKE, or the alarm. -/
def execDormantWake (cause : DormCause) (offNs : Nat) : State → Host.Outcome State Fault Refusal :=
  lift (fun b =>
    if b.powered || b.sup.holdUp then b
    else
      match cause with
      | .key => (b.modSup (fun s => { s with key := true })).dormantStart 1 offNs
      | .ecuPower mv =>
        if 8000 < mv ∧ b.flag .DEV_PCTRL 0 4 then
          (b.modSup (fun s => { s with ecuMv := mv })).dormantStart 2 offNs
        else b
      | .alarm =>
        if b.time.rtc.alarmEn then
          (b.modTime (fun t => { t with rtc := { t.rtc with alarmEn := false } })).dormantStart 3 offNs
        else b)

/-- RTC_ALARM (R311, R319): the clock reaches the alarm while the V96 is in HOLD or DORMANT. -/
def execRtcAlarm (at_ : Nat) : State → Host.Outcome State Fault Refusal :=
  lift (fun b =>
    let r := b.time.rtc.upTo (b.now at_)
    if r.running ∧ r.alarmEn ∧ r.alarm.toNat ≤ r.sec ∧ !b.sup.holdUp then
      let off := b.modTime (fun t => { t with rtc := { t.rtc with alarmEn := false } })
      match b.eng.pwr.state with
      | .hold => off.wake .alarm (at_ / tickNs)
      | .dormant => off.dormantStart 3 at_
      | _ => b
    else b)

/-- HOLD_UP_ENTRY (R440, R494): the logic supply below 7.0 V for 20 us. What must be kept is written, and
    DORMANT is entered; only a power-on leaves it. -/
def execHoldUpEntry (lowNs : Nat) : State → Host.Outcome State Fault Refusal :=
  lift (fun b =>
    if lowNs < 20000 ∨ !b.powered then b
    else
      let vin := min b.sup.inA.mv 65535 + min b.sup.inB.mv 65535 * 65536
      let b1 := Block.flushDiary 0 4300 b
      let b2 := Block.flushDiary 0 4300 (b1.raise 11 1 (payS vin))
      let b3 := if b2.eng.valve.learnedDirty then b2.saveLearned (b2.now 0) else b2
      let b4 := (b3.rtcWrite 0 b3.time.rtc.valid).saveDrained 0
      let eng := b4.resetEngines true (fun _ => false) (b4.now 0) 0
      let b5 : Block := { b4 with
        eng := { eng with pwr := { state := .dormant }, mot := b4.eng.mot.afterReset b4.motorWords (b4.now 0), fb := b4.eng.fb
                          alm := { epoch := b4.eng.alm.epoch } }
        link := b4.link.afterReset true }
      b5.modSup (fun s => { s.afterReset true with holdUp := true }))

end Sys2Proof.Machine
end

