-- ==== Sys2Proof/Machine/Release.lean ====
section
/-! DEFINITION. The requests that wait in the four queues (R349 to R351, R356): what dispatching each does, and
    their release. -/

namespace Sys2Proof.Machine

open Sys2Proof (Word Byte Bytes Sess Hdr Instr)

/-- A read of a register of its own row. -/
def dispatchReadOf (h : Hdr) (a : Nat) : Dispatch := dispatchRead h regReadRow.code (BitVec.ofNat 32 a) 1

/-- A write of a register of its own row. -/
def dispatchWriteOf (h : Hdr) (a : Nat) (v : Word) : Dispatch := dispatchWrite h (BitVec.ofNat 32 a) v

/-- What dispatching a request of a session does: each row's own dispatch. A command that is no request has
    none. -/
def dispatchOf (i : Instr) : Option Dispatch :=
  match i with
  | .clockSetSet h tai s n => some (dispatchClockSet h tai s n i)
  | .clockSetLeapInsert h s => some (dispatchLeap h s i)
  | .clockSetLeapDelete h s => some (dispatchLeap h s i)
  | .clockSetLeapCancel h => some (dispatchLeapCancel h i)
  | .devtimeLoRead h => some (dispatchReadOf h (addr .DEVTIME_LO))
  | .rtcSecRead h => some (dispatchReadOf h (addr .RTC_SEC))
  | .nop h p => some (dispatchNop h p)
  | .identify h => some (fun k _ arrived b => dispatchIdentify h (some k) arrived b)
  | .sessionClose h => some (dispatchSessionClose h)
  | .sessionReset h => some (dispatchSessionReset h)
  | .deviceReset h c => some (dispatchDeviceReset h c)
  | .regRead h a => some (dispatchRead h regReadRow.code a 1)
  | .regWrite h a v => some (dispatchWrite h a v)
  | .regReadBlock h a n => some (dispatchReadBlock h a n)
  | .regWriteBlock h a vs => some (dispatchWriteBlock h a vs)
  | .regModify h a m v => some (dispatchModify h a m v)
  | .txnBegin h t => some (dispatchTxnBegin h t)
  | .txnCommit h => some (dispatchTxnCommit h)
  | .txnRollback h => some (dispatchTxnRollback h)
  | .txnStatus h => some (dispatchTxnStatus h)
  | .fenceCompletion h => some (dispatchFence h (.earlier false))
  | .fenceTick h => some (dispatchFence h (.earlier true))
  | .fenceDma h => some (dispatchFenceDma h)
  | .canbDtcClr h v => some (dispatchWriteOf h (addr .CANB_DTC_CLR) v)
  | .cansRxPop h v => some (dispatchWriteOf h (addr .CANS_RX_POP) v)
  | .cansTxGo h v => some (dispatchWriteOf h (addr .CANS_TX_GO) v)
  | .resGpoWrite h v => some (dispatchWriteOf h (addr .RES_GPO) v)
  | .vigUnitReqWrite h u v => some (dispatchWriteOf h (addr .VIG_UNIT u) v)
  | .vigSafeWrite h v => some (dispatchWriteOf h (addr .VIG_SAFE) v)
  | .evtPendWrite h w v => some (dispatchWriteOf h (addr .EVT_PEND w) v)
  | .debugUnlock h v => some (dispatchWriteOf h (addr .VIG_DBG_CTRL) v)
  | .debugLock h v => some (dispatchWriteOf h (addr .VIG_DBG_CTRL) v)
  | .diaryFreeze h t => some (dispatchFreeze h t)
  | .diaryThaw h => some (dispatchThaw h)
  | .diaryRead h f n fl => some (dispatchDiaryRead h f n fl)
  | .diaryMark h c p => some (dispatchMark h c p)
  | .diaryDrainedWrite h v => some (dispatchWriteOf h (addr .DIARY_DRAINED) v)
  | .updBegin h id n f => some (dispatchUpdBegin h id n f)
  | .updChunk h o d => some (dispatchUpdChunk h o d)
  | .updVerify h => some (dispatchUpdVerify h)
  | .updActivate h => some (dispatchUpdActivate h)
  | .updConfirm h => some (dispatchUpdConfirm h)
  | .updAbort h => some (dispatchUpdAbort h)
  | .updStatus h => some (dispatchUpdStatus h)
  | .powerPolicySetLtol h p => some (dispatchPolicy h p i)
  | .powerPolicySetAlarm h p => some (dispatchPolicy h p i)
  | .powerPolicyDormantNow h p => some (dispatchPolicy h p i)
  | .pwrbDeniedWrite h v => some (dispatchWriteOf h (addr .PWRB_DENIED) v)
  | .devAlarmLoWrite h v => some (dispatchWriteOf h (addr .DEV_ALARM_LO) v)
  | .devAlarmHiWrite h v => some (dispatchWriteOf h (addr .DEV_ALARM_HI) v)
  | .lswHoldRelease h v => some (dispatchWriteOf h (addr .LSW_HOLD) v)
  | .lswFltWrite h k v => some (dispatchWriteOf h (addr .LSW_FLT k) v)
  | .poseFix h f => some (dispatchPoseFix h f)
  | .poseAiding h t items => some (dispatchPoseAiding h t items)
  | .fieldOrigin h f _ _ _ => some (dispatchFieldOrigin h f i)
  | .poseOdoLoRead h => some (dispatchReadOf h (addr .POSE_ODO_LO))
  | .mapPolicy h p pol t => some (dispatchMapPolicy h p pol t i)
  | .tileDataTile h p c fid tx ty s d =>
    some (dispatchChunk h p c fid tx ty s 32 (BitVec.ofNat 32 (2 ^ c.toNat)) false
      (fun x => { x with chunks := modNth x.chunks c.toNat (fun _ => cellsOf 512 d) }))
  | .tileDataConst h p c fid tx ty s v => some (dispatchChunk h p c fid tx ty s 1 1 true (fun _ => { fill := v }))
  | .tileDataRateTable h p c d => some (dispatchRateTable h p c d)
  | .tileWritebackAck h t m => some (dispatchWritebackAck h t m)
  | .tileInvalidate h s p f _ _ => some (dispatchTileInvalidate h s p f i)
  | .nozzleForceRelease h m => some (dispatchForce h m false false i)
  | .nozzleForceClose h m => some (dispatchForce h m false false i)
  | .nozzleForceOpen h d t m => some (dispatchForce h m true (forceOpenBad d t) i)
  | .nozzleForcePulse h t m => some (dispatchForce h m true (forcePulseBad t) i)
  | .nozFltWrite h n v => some (dispatchWriteOf h (addr .NOZ_FLT n) v)
  | .bankFltWrite h k v => some (dispatchWriteOf h (addr .BANK_FLT k) v)
  | .bstFltWrite h c v => some (dispatchWriteOf h (addr .BST_FLT c) v)
  | .propFltWrite h k v => some (dispatchWriteOf h (addr .PROP_FLT k) v)
  | .sectionCommand h c t m _ => some (dispatchSection h c t m i)
  | .rateTarget h p f s _ => some (dispatchRateTarget h p f s i)
  | .cmpAdd h v => some (dispatchWriteOf h (addr .CMP_WR_CMD) v)
  | .cmpClear h v => some (dispatchWriteOf h (addr .CMP_WR_CMD) v)
  | .cmpNextLoRead h l => some (dispatchReadOf h (addr .CMP_NEXT_LO l))
  | .cmpFireLoRead h l => some (dispatchReadOf h (addr .CMP_FIRE_LO l))
  | .cmpRdPosLoRead h => some (dispatchReadOf h (addr .CMP_RD_POS_LO))
  | .mdrvArmWrite h v => some (dispatchWriteOf h (addr .MDRV_ARM) v)
  | .driveCommandRun h m d => some (dispatchDrive h .run m d i)
  | .driveCommandStop h m d => some (dispatchDrive h .stop m d i)
  | .driveCommandCoast h m d => some (dispatchDrive h .coast m d i)
  | .driveCommandBrake h m d => some (dispatchDrive h .brake m d i)
  | .mdrvFltWrite h u v => some (dispatchWriteOf h (addr .MDRV_FLT u) v)
  | .loopFltWrite h s v => some (dispatchWriteOf h (addr .LOOP_FLT s) v)
  | .traceArmRelease h _ => some (dispatchTraceRelease h)
  | .traceArmArm h a => some (dispatchTraceArm h a)
  | .traceArmForce h _ => some (dispatchTraceForce h)
  | .traceRead h f n => some (dispatchTraceRead h f n)
  | .invalidRequest h (.reservedKind q) => some (dispatchReserved h q)
  | _ => none

/-- What dispatching a request without a session does. -/
def dispatchFreeOf (i : Instr) : Option FreeDispatch :=
  match i with
  | .identify h => some (dispatchIdentify h none)
  | .sessionOpenHello h kind nonce => some (dispatchHello h kind nonce)
  | .sessionOpenProof h kind proof => some (dispatchProof h kind proof)
  | _ => none

/-- The request that core 2 takes next (R350): the head of the first queue in the order 1, 0, 3, 2 that has one and
    that nothing holds; none while every transmit buffer is full (R364). -/
def Block.nextDue (b : Block) : Option Waiting :=
  if !b.bufferFree then none
  else ([1, 0, 3, 2] : List (Fin 4)).findSome? (fun q =>
    match b.queue q with
    | [] => none
    | w :: _ => if b.held w.hdr then none else some w)

/-- A waiting request leaves its queue and is dispatched. -/
def Block.dispatchWaiting (b : Block) (w : Waiting) : Block :=
  let b1 := (b.modLink (fun l => { l with
    queues := modNth l.queues w.hdr.queue.val (fun q => q.drop 1) })).dispatched w.hdr
  let b2 := match w.sess with
    | some k => match dispatchOf w.req with
      | some d => d k w.seq w.arrived b1
      | none => b1
    | none => match dispatchFreeOf w.req with
      | some d => d w.arrived b1
      | none => b1
  (b2.fencesTake w.sess w.seq (b2.openFills.filter (fun f => !b1.openFills.contains f))).fences

/-- Waiting requests dispatched in their order, as long as one is free to go. -/
def Block.releaseSome : Nat → Block → Block
  | 0, b => b
  | n + 1, b =>
    match b.nextDue with
    | some w => Block.releaseSome n (b.dispatchWaiting w)
    | none => b

/-- The requests that wait. -/
def Block.waitingCount (b : Block) : Nat := (b.link.queues.map (·.length)).sum

/-- The release of waiting requests at a Tick edge and after a COMMIT (R341, R356). -/
def Block.release (b : Block) : Block := Block.releaseSome b.waitingCount b.fences

/-- Dispatch goes on at the instants, up to `t`, at which a transmit buffer frees (R364): the wire is followed from
    the end of one packet to the end of the next. -/
def Block.resumeSome : Nat → Nat → Block → Block
  | 0, _, b => b
  | n + 1, t, b =>
    let x := b.link.tx.upTo b.wireNow
    if b.bufferFree || b.waitingCount == 0 || Nat.blt t x.busyTill then b
    else
      let b1 := (b.modLink (fun l => { l with tx := x.upTo x.busyTill })).reaches (x.busyTill - b.time.now)
      Block.resumeSome n t b1.release

/-- Requests that a full set of transmit buffers held are dispatched as the buffers free, up to `at_` ns after the
    Tick edge. -/
def Block.resume (b : Block) (at_ : Nat) : Block :=
  if b.waitingCount = 0 then b
  else
    let b1 := b.release
    Block.resumeSome (b1.waitingCount + b1.link.tx.waiting.length) (b.now at_) b1

end Sys2Proof.Machine
end

