-- ==== Sys2Proof/Machine/Edge.lean ====
section
/-! DEFINITION. The Tick edge and the phases that follow it: CAPTURE, POSE, LOOP and ALMANAC (R25, R38, R40, R42,
    R92, R114, R174, R273, R299, R421). -/

namespace Sys2Proof.Machine

open Sys2Proof (Word Instr Capture InputCapture LswCapture PropCapture BridgeCapture BoostCapture NozCapture
  VpwrInput)

/-! ### CAPTURE -/

/-- Each element of a table changed by what CAPTURE measured of it; the rest keep their last values. -/
def captured {α β : Type} (l : List α) (cap : List β) (f : α → β → α) : List α :=
  l.mapIdx (fun i x => match cap[i]? with
    | some c => f x c
    | none => x)

/-- What CAPTURE latches of an input (R297, R298); the 40 A latch clears with the mean back in range. -/
def Input.capture (i : Input) (c : InputCapture) : Input :=
  { i with mv := c.mv, currentMa := c.ma, mean1s := c.meanMa, overLatched := i.overLatched && decide (40000 < c.meanMa) }

/-- The currents, voltages and temperatures of CAPTURE (R25, R299). -/
def Block.captureSense (b : Block) (cap : Capture) : Block :=
  let b1 := b.modSup (fun s => { s with inA := s.inA.capture cap.inA, inB := s.inB.capture cap.inB, busMv := cap.busMv })
  let e := b1.eng
  { b1 with
    evt := { b1.evt with baseTemp := cap.baseTemp }
    eng := { e with
      fb := { e.fb with gpi := cap.gpi }
      lsw := captured e.lsw cap.lsw (fun x c => { x with currentMa := c.ma, tj := c.tj, tpair := c.tpair })
      valve := { e.valve with
        noz := captured e.valve.noz cap.noz (fun x c => { x with
          currentMa := c.ma, holdMv := c.holdMv, holdOn := c.holdOn, holdMa := c.holdMa })
        banks := captured e.valve.banks cap.bankMa (fun x ma => { x with currentMa := ma }) } } }

/-- The bridges' part of CAPTURE (R258, R259, R299). -/
def Block.captureBridges (b : Block) (cap : Capture) : Block :=
  (List.range 8).foldl (fun acc u =>
    match cap.bridges[u]? with
    | some c => (acc.motorCapture u c.ia c.ib c.ic c.tj c.samples).modMot u (fun m => { m with ibus := c.ibus })
    | none => acc) b

/-- The valve drive's part of CAPTURE. -/
def Block.captureValves (b : Block) (cap : Capture) (ticks : Nat) : Block :=
  let b1 := (List.range 3).foldl (fun acc c =>
    let x := acc.boost c
    let y := (cap.boosts[c]?).getD { vout := x.vout, avg := x.avg, peak := 0 }
    acc.boostTick c ticks y.vout y.avg y.peak) b
  let b2 := (List.range 8).foldl (fun acc k =>
    match cap.props[k]? with
    | some c => acc.propTick k c.meanMa c.dutyPm
    | none => acc) b1
  (List.range 96).foldl (fun acc n => acc.nozTick n ticks) b2

/-- CAPTURE (R25, R92, R299): everything the phases and the next COMMIT compute from is latched. -/
def Block.capture (b : Block) (cap : Capture) (ticks : Nat) : Block :=
  let b1 := b.captureSense cap
  let b2 := b1.modFb (fun x => { x with axes := x.axes.map (fun a => { a with steps := [] }) })
  let b3 := (b2.latchFeedback.captureBridges cap).motorTick
  let b4 := (b3.captureValves cap ticks).lswRollAll 0
  b4.modPwr (fun p => { p with latch := b4.pwrLatch })

/-! ### The phases -/

/-- The Ticks that an edge advances the count by (R40, R42); an interval of DOZE that a wake has cut into ends at its
    DOZE edge (log entry 74). -/
def Block.edgeTicks (b : Block) : Nat := if b.eng.pwr.state = .doze || b.time.dozing then 10 else 1

/-- The time base at the edge; the pose unit's time stamps follow a step of device time (R41, R119). -/
def Block.edgeTime (b : Block) (ticks : Nat) : Block :=
  let step := b.time.stepDue
  let b1 := b.timeEdge ticks
  if step = 0 then b1 else b1.modPose (fun p => p.relabel (step * tickNs) b1.time.dev)

/-- The POSE phase, and GSPD_OUT, which follows the speed it publishes (R101, R114). -/
def Block.poseStage (b : Block) (ns ticks : Nat) : Block :=
  let b1 := b.posePhase ns ticks
  b1.gspdTake (if b1.eng.pose.enabled && !b1.eng.pose.travelLost then some b1.eng.pose.speed else none) 0

/-- The LOOP phase and the trace; no slot runs in DOZE (R273, R294). -/
def Block.loopStage (b : Block) (ticks : Nat) (limit : Option Nat) : Block :=
  if b.eng.pwr.state = .doze then b else (b.loopPhaseRun ticks limit).traceTick

/-- The ALMANAC phase and the walker's use in it (R141, R174, MAP_LOOKUPS). -/
def Block.almanacStage (b : Block) (ticks : Nat) : Block :=
  let b1 := (b.mapTick ticks).almanacPhase
  let used := b1.eng.map.slotsUsed
  let b2 := b1.modMap (fun m => { m with slotsLast := used })
  b2.setFld .MAP_LOOKUPS 0 31 16 (max used (b2.fld .MAP_LOOKUPS 0 31 16))

/-- The ALMANAC phase of this Tick, where it is still to come: it runs before anything that happens at or after
    20 us and depends on it (R18, R25, log entry 73). -/
def Block.lookAhead (b : Block) (at_ : Nat) : Block :=
  let due := b.eng.alm.due
  if due = 0 || Nat.blt at_ 20000 || b.frozen then b
  else (b.modAlm (fun a => { a with due := 0 })).almanacStage due

/-- The phases of a Tick up to LOOP; ALMANAC is noted as due. A halt stops the loop engine, the walker and the cores (R421); until
    the first COMMIT after a reset no phase runs (R413). Requests that were waiting for the edge are released
    after the POSE phase, which takes only what was answered before the edge (R118). -/
def Block.phases (b : Block) (ns ticks : Nat) (limit : Option Nat) : Block :=
  if b.vig.starting then b.release
  else
    let b1 := (b.poseStage ns ticks).noteView.release
    if b1.frozen then b1 else (b1.loopStage ticks limit).modAlm (fun a => { a with due := ticks })

/-- A reset waits for this Tick edge: the reply to DEVICE_RESET, UPD_ACTIVATE or UPD_ABORT has left ETH_A (R358,
    R463). -/
def Block.resetNow (b : Block) : Bool :=
  (b.upd.resetDue || b.vig.resetDue) && b.link.tx.left [0x0006, 0x0053, 0x0055] b.time.now

/-- A Tick edge, and what the block computes from it until COMMIT. A reset that waits for the edge takes the
    place of everything after it (R358, R463). -/
def Block.tickEdge (b : Block) (cap : Capture) : Block :=
  let ticks := b.edgeTicks
  let b1 := ((b.lookAhead tickNs).modAlm (fun a => { a with due := 0 })).edgeTime ticks
  if b1.resetNow then (b1.modPose (fun p => p.odoLatch (b1.time.now - b.time.now))).dueResets
  else if b1.upd.recovery then b1.release
  else (b1.capture cap ticks).phases (b1.time.now - b.time.now) ticks cap.loopLimit

/-- TICK_EDGE (R38): a Tick begins, in the power states in which the Tick runs (R42). -/
def execTickEdge (cap : Capture) : State → Host.Outcome State Fault Refusal :=
  lift (fun b => if b.ticking && !b.vig.clockFault then b.tickEdge cap else b)

/-! ### What depends on the ALMANAC phase of the Tick -/

/-- COMPARE_CROSSING (R180, R184, R185): the 10 ns sample `at_` ns after the Tick edge, in lane `l`. Under a
    halt the compare unit acts on no crossing (R421). -/
def execCompareCrossing (l : Fin 160) (at_ : Nat) : State → Host.Outcome State Fault Refusal :=
  lift (fun b =>
    if b.vig.dbg = .halted then b
    else
      let b1 := b.lookAhead at_
      match b1.laneRef l with
      | .axis a => b1.crossAxis l a at_
      | _ => b1.crossPassed l at_)

/-- The walker is busy with the Almanac's lookups (R18, R25): from 20 us to 72 us after the edge. -/
def walkerBusy (at_ : Nat) : Bool := Nat.ble 20000 at_ && Nat.blt at_ closeNs

/-- COVERAGE_WRITE (R18, R154, R155): the walker writes the oldest queued segment, outside the ALMANAC phase
    only; what is written before 20 us the lookups of this Tick see, what is written after 72 us they do not. -/
def execCoverageWrite (at_ : Nat) : State → Host.Outcome State Fault Refusal :=
  lift (fun b => if walkerBusy at_ then b else (b.lookAhead at_).coverNext at_)

end Sys2Proof.Machine
end

