-- ==== Sys2Proof/Machine/Commit.lean ====
section
/-! DEFINITION. COMMIT (R28 to R30, R43 to R49, R347, R376, R377, R387, R413, R422, R431): the five steps, applied in
    one update, and what follows it. -/

namespace Sys2Proof.Machine

open Sys2Proof (Word Byte Bytes Sess Hdr Instr PowerPolicy)

/-! ### Step 2: what waits for the COMMIT -/

/-- A SET at its COMMIT, with the time stamps of the pose unit moved by its step of device time (R62,
    R119). -/
def Block.clockSetApply (b : Block) (arrived : Nat) (tai : BitVec 16) (seconds nanos : Nat) : Block :=
  let b1 := b.clockSet arrived (signed 16 tai.toNat) seconds nanos
  let d : Int := (b1.time.dev : Int) - b.time.dev
  if d = 0 then b1 else b1.modPose (fun p => p.relabel d b1.time.dev)

/-- The pending leap second set or cancelled (R63). -/
def Block.setLeap (b : Block) (l : Option Leap) : Block := b.modTime (fun t => { t with leap := l })

/-- A request that acts at a COMMIT, applied (R376, R377); `at_` is the instant of the update. -/
def Block.applyReq (b : Block) (k : Sess) (arrived at_ : Nat) (i : Instr) : Block :=
  match i with
  | .clockSetSet _ tai s n => b.clockSetApply arrived tai s.toNat n.toNat
  | .clockSetLeapInsert _ s => b.setLeap (some { insert := true, at_ := s.toNat })
  | .clockSetLeapDelete _ s => b.setLeap (some { insert := false, at_ := s.toNat })
  | .clockSetLeapCancel _ => b.setLeap none
  | .powerPolicySetLtol _ p => b.policyApply k p
  | .powerPolicySetAlarm _ p => b.policyApply k p
  | .powerPolicyDormantNow _ p => b.policyApply k p
  | .fieldOrigin _ f lat lon alt => ((b.fieldOrigin f lat lon alt).mapOrigin b.eng.pose.frame).unpark
  | .mapPolicy _ p pol t => b.mapPolicy p pol t
  | .tileInvalidate _ s p f tx ty => b.tileInvalidate s p f tx ty
  | .nozzleForceRelease _ m => b.forceApply m none at_
  | .nozzleForceClose _ m => b.forceApply m none at_
  | .nozzleForceOpen _ d t m => b.forceApply m (some { pulse := false, duty := d.toNat, durationMs := t.toNat }) at_
  | .nozzleForcePulse _ t m => b.forceApply m (some { pulse := true, duty := 0, durationMs := t.toNat }) at_
  | .sectionCommand _ c t m o => b.sectionApply c t m o
  | .rateTarget _ p f s t => b.rateTargetApply p f s t
  | .driveCommandRun _ m d => b.driveApply k .run m d at_
  | .driveCommandStop _ m d => b.driveApply k .stop m d at_
  | .driveCommandCoast _ m d => b.driveApply k .coast m d at_
  | .driveCommandBrake _ m d => b.driveApply k .brake m d at_
  | _ => b

/-- The part of a session's end or reset that takes place at the COMMIT (R160, R190, R290, R347): its copies
    of registers, its claim of the trace, the overrides; for MAIN the map's faults and fills, and writebacks
    start over to a MAIN session that goes on. -/
def Block.sessionLoss (b : Block) (k : Sess) (ended : Bool) : Block :=
  let b1 := ((b.modSess k (fun s => { s with regs := [] })).traceLoss k).almSessionLoss
  match k with
  | .main => if ended then b1.mapSessionLoss else b1.mapSessionLoss.mapMainOpens
  | .service => b1

/-- The final reply of a transaction, known at its COMMIT: its place in the order of dispatch, the status and
    the payload (R387, R388). -/
structure TxnAnswer where
  seq : Nat
  status : Status
  payload : Bytes
  deriving DecidableEq, Repr

/-- One waiting action applied (R377). -/
def Block.applyPosted (at_ : Nat) (r : List TxnAnswer × Block) (p : Posted) : List TxnAnswer × Block :=
  let (answers, b) := r
  match p.sess with
  | none => r
  | some k =>
    match p.act with
    | .req (.txnCommit _) =>
      let (b1, st, payload) := b.txnApply k at_
      (answers ++ [{ seq := p.seq, status := st, payload := payload }], b1)
    | .req i => (answers, b.applyReq k p.arrived at_ i)
    | .write a v =>
      match regAt a with
      | some (reg, i, j) => (answers, b.applyCommit k reg i j v at_)
      | none => r
    | .loss k ended => (answers, b.sessionLoss k ended)

/-- The waiting actions that this Tick's COMMIT takes: those staged by 72 us (R17). -/
def Block.stagedInTime (b : Block) : List Posted := b.posted.filter (fun p => b.inTime p.since)

/-- Step 2: every waiting action staged in time, in order of dispatch (R17, R377, R387). -/
def Block.stepTwo (b : Block) (at_ : Nat) : List TxnAnswer × Block :=
  b.stagedInTime.foldl (Block.applyPosted at_) ([], { b with posted := b.posted.filter (fun p => !b.inTime p.since) })

/-! ### What a COMMIT does besides the five steps -/

/-- The pending bits of EDGE sources without LATCH at a COMMIT: cleared at the second after they were set
    (R431). -/
def Block.agePending (b : Block) : Block :=
  let edge (s : Nat) : Bool := !b.flag .EVT_CFG s 7 && !b.flag .EVT_CFG s 6
  let live := b.evt.age.filter (fun x => edge x.1)
  let gone := (live.filter (fun x => 1 ≤ x.2)).map (·.1)
  let mask : BitVec 128 := BitVec.ofNat 128 ((gone.map (fun s => 2 ^ s)).sum)
  let b1 : Block := { b with evt := { b.evt with
    age := (live.filter (fun x => x.2 == 0)).map (fun x => (x.1, 1))
    pend := b.evt.pend &&& ~~~mask } }
  gone.foldl (fun acc s => acc.dtcUpdate s) b1

/-- What the hold latch takes at a finished COMMIT (R327). -/
def Block.holdLatch (b : Block) : Block :=
  (List.range 16).foldl (fun acc k => acc.modSw k (fun s => { s with
    latchOn := b.flag .LSW_CFG k 4 && s.conducts, latchMa := b.lswIlim k })) b

/-- Queued starts that have found their channel QUIET (R218, R219, R264), and the channels' own work at a
    COMMIT. -/
def Block.valvesCommit (b : Block) (at_ : Nat) : Block :=
  (List.range 96).foldl (fun acc n =>
    let acc1 := acc.nozCommit n at_
    match (acc1.noz n).queuedForce with
    | some f =>
      if (acc1.noz n).isQuiet && (acc1.unit (unitNoz n)).state == .service then acc1.forceStart n f at_ else acc1
    | none => acc1) b

/-- Event 116 of the reset, at its first COMMIT (R422). -/
def Block.resetEvent (b : Block) (at_ : Nat) : Block :=
  ({ b with vig := { b.vig with starting := false }, evt := { b.evt with alertHeld := false } }).raise 116 1
    (payS (wordOf [(16, b.vig.wdtCores.toNat), (0, b.vig.kind.code)]).toNat) at_

/-- The event of a revert that waited for the first COMMIT (R468). -/
def Block.revertRaise (b : Block) (at_ : Nat) : Block :=
  match b.upd.revertEvent with
  | some (cause, kind) =>
    if b.upd.state = UpdState.migrationFailed then b
    else
      let w := b.upd.winner.getD {}
      (b.modUpd (fun u => { u with revertEvent := none })).raise 20 (BitVec.ofNat 8 cause)
        (payS (w.slot.toNat + kind * 2 ^ 8 + w.seq.toNat * 2 ^ 32)) at_
  | none => b

/-- The event of a failed save that waited for the first COMMIT (R455). -/
def Block.saveRaise (b : Block) (at_ : Nat) : Block :=
  match b.upd.saveEvent with
  | some (code, gen) => (b.modUpd (fun u => { u with saveEvent := none })).saveFail (BitVec.ofNat 8 code) gen at_
  | none => b

/-- The event of a failed migration that waited for the first COMMIT (R474). -/
def Block.migrationRaise (b : Block) (at_ : Nat) : Block :=
  match b.upd.migEvent with
  | some (reason, stored, schema) =>
    (b.modUpd (fun u => { u with migEvent := none })).raise 21 (BitVec.ofNat 8 reason)
      (payS (stored % 65536 + schema % 65536 * 2 ^ 16 + b.upd.migAddr % 2 ^ 32 * 2 ^ 32)) at_
  | none => b

/-- The events that have waited for the first COMMIT after a reset (R422, R455, R468, R474). -/
def Block.firstCommit (b : Block) (at_ : Nat) : Block :=
  if b.vig.starting then (((b.resetEvent at_).revertRaise at_).saveRaise at_).migrationRaise at_ else b

/-- The probes of both sessions (MAP_PROBE_RES). -/
def Block.probes (b : Block) : Block :=
  b.modMap (fun m => { m with probeMain := b.probe .main, probeService := b.probe .service })

/-- The requests of an opcode, dispatched in time for the COMMIT, get their final reply. -/
def Block.finishInTime (b : Block) (op : BitVec 16) : Block :=
  ((b.finalsOf op).filter (fun p => b.inTime p.since)).foldl (fun acc p => acc.finishes p .ok) b

/-- The answers that follow a COMMIT (R347, R352, R356, R387): TICK fences that waited for it, transactions,
    ends and resets of sessions; the requests that acted at it have completed. What was dispatched after
    72 us goes on waiting (R17). -/
def Block.commitReplies (b : Block) (answers : List TxnAnswer) : Block :=
  let b1 := (b.link.progress.filter (fun p => p.ends == .tickCommit)).foldl (fun acc p => acc.finishes p .ok) b
  let b2 := answers.foldl (fun acc a =>
    (acc.link.progress.filter (fun p => p.seq == a.seq)).foldl (fun acc p => acc.finishes p a.status a.payload)
      acc) b1
  let b3 := (b2.finishInTime sessionCloseRow.code).finishInTime sessionResetRow.code
  let b4 := b3.modLink (fun l => { l with progress := l.progress.filter (fun p => p.ends != .commit || !b.inTime p.since) })
  b4.fillFences

/-- The classification of a COMMIT that has finished (R47, R49). -/
def Block.onTime (b : Block) (finish : Nat) : Block :=
  let b1 := (b.modTime (fun t => { t with finished := true, run := 0, thisEnd := finish })).modVig (fun g => { g with
    safePins := false })
  if 880 < finish then b1.count .TICK_OVR_CNT 0 31 16 else b1

/-- A DORMANT_NOW is among the actions applied (R316). -/
def dormantAsked (l : List Posted) : Bool :=
  let asks (p : PowerPolicy) : Bool := p.dormantNow
  l.any (fun x => match x.act with
    | .req (.powerPolicySetLtol _ p) => asks p
    | .req (.powerPolicySetAlarm _ p) => asks p
    | .req (.powerPolicyDormantNow _ p) => asks p
    | _ => false)

/-! ### COMMIT -/

/-- Steps 3 to 5 of R28, on what steps 1 and 2 have made. -/
def stepsThreeToFive (unfinished : List Nat) (at_ : Nat) (r : List TxnAnswer × Block) : List TxnAnswer × Block :=
  (r.1, (r.2.mapCommit.arbiter at_).publishEntries unfinished at_)

/-- The five steps of R28 at the update `at_` ns after the Tick edge. -/
def Block.fiveSteps (b : Block) (unfinished : List Nat) (at_ : Nat) : List TxnAnswer × Block :=
  stepsThreeToFive unfinished at_ ((b.unitsCommit at_).stepTwo at_)

/-- COMMIT begins: the Tick is closed to requests (R17), and the ends of the plan are noted. -/
def Block.commitBegins (b : Block) (end0 end1 : Nat) : Block :=
  ((b.modTime (fun t => { t with closed := true })).modAlm (fun a => { a with end0 := end0, end1 := end1 })).agePending

/-- What the blocks do at a COMMIT beside the five steps, and the choice of a power state. -/
def Block.blocksCommit (b : Block) (finish : Nat) : Block :=
  let at_ := finish * 100
  let b1 := ((b.supplyResume at_).valvesCommit at_).almanacCommit at_
  let b2 := ((b1.motorCommit at_).followSource at_).offsetCommit
  let b3 := (b2.holdLatch.firstCommit at_).saveTake at_
  (b3.probes.chooseState at_).onTime finish

/-- What follows the five steps: the blocks' own work, publication, the replies, the requests released. -/
def commitEnds (finish : Nat) (r : List TxnAnswer × Block) : Block :=
  ((r.2.blocksCommit finish).publish.commitReplies r.1).release

/-- A COMMIT that finishes at `finish`, in 100 ns after the Tick edge: the five steps, what the blocks do at a
    COMMIT, publication, the replies, the requests released, the choice of a power state. -/
def Block.commitAt (b : Block) (finish : Nat) (unfinished : List Nat) (end0 end1 : Nat) : Block :=
  let b1 := commitEnds finish (((b.commitBegins end0 end1).lswRollAll (finish * 100)).fiveSteps unfinished (finish * 100))
  if dormantAsked b.stagedInTime then b1.powerDown .dormant (finish * 100) else b1

/-- A COMMIT is made in this Tick: the Tick runs and has begun, no COMMIT has begun in it, the application
    cluster runs (R42, R415, R421, R473). -/
def Block.mayCommit (b : Block) : Bool := b.ticking && b.coresRun && !b.time.first && !b.time.closed

/-- COMMIT (R44, R47): `finish` is its finish time in 100 ns after the Tick edge. One that is not finished by
    95 us takes no effect (R30, R48); requests dispatched after 72 us wait for the next (R17). `unfinished`
    are the nozzles whose plan pass did not finish, `end0` and `end1` when cores 0 and 1 were done. -/
def execCommit (finish : Nat) (unfinished : List (Fin 96)) (end0 end1 : Nat) :
    State → Host.Outcome State Fault Refusal :=
  lift (fun b =>
    if !b.mayCommit then b
    else if 950 < finish then (b.lookAhead closeNs).modTime (fun t => { t with closed := true })
    else ((b.lookAhead closeNs).resume closeNs).commitAt finish (unfinished.map (·.val)) end0 end1)

/-- OVERRUN_CHECK (R48, R49): at 95 us an unfinished COMMIT is abandoned and counted; the third in a row
    drives the safe state. -/
def execOverrunCheck : State → Host.Outcome State Fault Refusal :=
  lift (fun b =>
    if b.time.finished || b.vig.dbg == .halted || !b.ticking || b.vig.starting then b
    else
      let at_ := 95000
      let b1 := (b.lookAhead at_).dropPlans.modTime (fun t => { t with run := min (t.run + 1) 255, closed := true })
      let b2 := b1.count .TICK_OVR_CNT 0 15 0
      let b3 := b2.raise 113 1 (payS (b2.time.lastEnd * 65536 + b2.time.run)) at_
      if b3.time.run = 3 ∧ b.time.run ≠ 3 then b3.safeState .overrun 6 0 at_ else b3)

end Sys2Proof.Machine
end

