-- ==== Sys2Proof/Machine/Dispatch.lean ====
section
/-! DEFINITION. One arm per command: each calls the command's own meaning. -/

namespace Sys2Proof.Machine

open Sys2Proof (Instr)

/-- The effect of a command on everything but the queue. -/
def exec (i : Instr) (s : State) : Host.Outcome State Fault Refusal :=
  match i with
  | .tickEdge cap => Sys2Proof.Machine.execTickEdge cap s
  | .commit finish unfinished end0 end1 => Sys2Proof.Machine.execCommit finish unfinished end0 end1 s
  | .overrunCheck => Sys2Proof.Machine.execOverrunCheck s
  | .asSyncReceived offset at_ => Sys2Proof.Machine.execAsSyncReceived offset at_ s
  | .syncInEdge rising at_ => Sys2Proof.Machine.execSyncInEdge rising at_ s
  | .tickLossTimeout at_ => Sys2Proof.Machine.execTickLossTimeout at_ s
  | .holdoverLimit at_ => Sys2Proof.Machine.execHoldoverLimit at_ s
  | .clockSetSet h taiUtc seconds nanos => Sys2Proof.Machine.execClockSetSet h taiUtc seconds nanos s
  | .clockSetLeapInsert h seconds => Sys2Proof.Machine.execClockSetLeapInsert h seconds s
  | .clockSetLeapDelete h seconds => Sys2Proof.Machine.execClockSetLeapDelete h seconds s
  | .clockSetLeapCancel h => Sys2Proof.Machine.execClockSetLeapCancel h s
  | .rtcMinuteWrite at_ => Sys2Proof.Machine.execRtcMinuteWrite at_ s
  | .vbakLow => Sys2Proof.Machine.execVbakLow s
  | .rtcAlarm at_ => Sys2Proof.Machine.execRtcAlarm at_ s
  | .devtimeLoRead h => Sys2Proof.Machine.execDevtimeLoRead h s
  | .rtcSecRead h => Sys2Proof.Machine.execRtcSecRead h s
  | .fbEdgeAccepted seen at_ => Sys2Proof.Machine.execFbEdgeAccepted seen at_ s
  | .axisStopTimeout a at_ => Sys2Proof.Machine.execAxisStopTimeout a at_ s
  | .sentFrame p syncNs nibbleNs at_ => Sys2Proof.Machine.execSentFrame p syncNs nibbleNs at_ s
  | .ssiFrame p idleHigh raw => Sys2Proof.Machine.execSsiFrame p idleHigh raw s
  | .sportLossTimeout p at_ => Sys2Proof.Machine.execSportLossTimeout p at_ s
  | .tractorSpeedMsg ground source speed distance direction at_ => Sys2Proof.Machine.execTractorSpeedMsg ground source speed distance direction at_ s
  | .msgTimeout ground at_ => Sys2Proof.Machine.execMsgTimeout ground at_ s
  | .bridgeTimeout at_ => Sys2Proof.Machine.execBridgeTimeout at_ s
  | .imuSample sample at_ => Sys2Proof.Machine.execImuSample sample at_ s
  | .imuSampleTimeout selfCheckFailed at_ => Sys2Proof.Machine.execImuSampleTimeout selfCheckFailed at_ s
  | .poseFix h fix => Sys2Proof.Machine.execPoseFix h fix s
  | .poseAiding h time items => Sys2Proof.Machine.execPoseAiding h time items s
  | .fixTimeout at_ => Sys2Proof.Machine.execFixTimeout at_ s
  | .fieldOrigin h frame lat lon alt => Sys2Proof.Machine.execFieldOrigin h frame lat lon alt s
  | .poseOdoLoRead h => Sys2Proof.Machine.execPoseOdoLoRead h s
  | .mapFaultTmo p tx ty at_ => Sys2Proof.Machine.execMapFaultTmo p tx ty at_ s
  | .tileFaultResend slot at_ => Sys2Proof.Machine.execTileFaultResend slot at_ s
  | .faultSlotRelease slot at_ => Sys2Proof.Machine.execFaultSlotRelease slot at_ s
  | .mapPolicy h product policy tmo => Sys2Proof.Machine.execMapPolicy h product policy tmo s
  | .tileDataTile h product chunk fid tx ty seq data => Sys2Proof.Machine.execTileDataTile h product chunk fid tx ty seq data s
  | .tileDataConst h product chunk fid tx ty seq cell => Sys2Proof.Machine.execTileDataConst h product chunk fid tx ty seq cell s
  | .tileDataRateTable h product chunk data => Sys2Proof.Machine.execTileDataRateTable h product chunk data s
  | .fillTimeout f at_ => Sys2Proof.Machine.execFillTimeout f at_ s
  | .coverageWrite at_ => Sys2Proof.Machine.execCoverageWrite at_ s
  | .dirtyAgeExpiry f at_ => Sys2Proof.Machine.execDirtyAgeExpiry f at_ s
  | .writebackStart f at_ => Sys2Proof.Machine.execWritebackStart f at_ s
  | .tileWritebackAck h tag bitmap => Sys2Proof.Machine.execTileWritebackAck h tag bitmap s
  | .writebackTimeout buffer at_ => Sys2Proof.Machine.execWritebackTimeout buffer at_ s
  | .tileInvalidate h scope product flags tx ty => Sys2Proof.Machine.execTileInvalidate h scope product flags tx ty s
  | .frameScrub f good at_ => Sys2Proof.Machine.execFrameScrub f good at_ s
  | .eccUncorrectable region => Sys2Proof.Machine.execEccUncorrectable region s
  | .compareCrossing l at_ => Sys2Proof.Machine.execCompareCrossing l at_ s
  | .sectionCommand h command timing mask odo => Sys2Proof.Machine.execSectionCommand h command timing mask odo s
  | .rateTarget h product flags scale target => Sys2Proof.Machine.execRateTarget h product flags scale target s
  | .trackRecordDue p at_ => Sys2Proof.Machine.execTrackRecordDue p at_ s
  | .asAppliedSend at_ => Sys2Proof.Machine.execAsAppliedSend at_ s
  | .cmpAdd h value => Sys2Proof.Machine.execCmpAdd h value s
  | .cmpClear h value => Sys2Proof.Machine.execCmpClear h value s
  | .cmpNextLoRead h l => Sys2Proof.Machine.execCmpNextLoRead h l s
  | .cmpFireLoRead h l => Sys2Proof.Machine.execCmpFireLoRead h l s
  | .cmpRdPosLoRead h => Sys2Proof.Machine.execCmpRdPosLoRead h s
  | .pullInAdmit n at_ => Sys2Proof.Machine.execPullInAdmit n at_ s
  | .pullDrop n at_ => Sys2Proof.Machine.execPullDrop n at_ s
  | .risePeakReached n ma at_ => Sys2Proof.Machine.execRisePeakReached n ma at_ s
  | .tPeakExpiry n sustained at_ => Sys2Proof.Machine.execTPeakExpiry n sustained at_ s
  | .holdLevelReached n ma at_ => Sys2Proof.Machine.execHoldLevelReached n ma at_ s
  | .decayComplete n ma at_ => Sys2Proof.Machine.execDecayComplete n ma at_ s
  | .settleEnd n at_ => Sys2Proof.Machine.execSettleEnd n at_ s
  | .sprayPeriodStart n at_ => Sys2Proof.Machine.execSprayPeriodStart n at_ s
  | .pulseEnd n at_ => Sys2Proof.Machine.execPulseEnd n at_ s
  | .openSignature n estimates at_ => Sys2Proof.Machine.execOpenSignature n estimates at_ s
  | .closeSignature n probes at_ => Sys2Proof.Machine.execCloseSignature n probes at_ s
  | .detectionTimeout n opening at_ => Sys2Proof.Machine.execDetectionTimeout n opening at_ s
  | .learnedDataSave at_ => Sys2Proof.Machine.execLearnedDataSave at_ s
  | .nozzleForceRelease h mask => Sys2Proof.Machine.execNozzleForceRelease h mask s
  | .nozzleForceClose h mask => Sys2Proof.Machine.execNozzleForceClose h mask s
  | .nozzleForceOpen h duty duration mask => Sys2Proof.Machine.execNozzleForceOpen h duty duration mask s
  | .nozzleForcePulse h duration mask => Sys2Proof.Machine.execNozzleForcePulse h duration mask s
  | .forceDurationEnd n at_ => Sys2Proof.Machine.execForceDurationEnd n at_ s
  | .nozOpenLoad n ma at_ => Sys2Proof.Machine.execNozOpenLoad n ma at_ s
  | .nozOpenOffTest n drainMv nodeMv at_ => Sys2Proof.Machine.execNozOpenOffTest n drainMv nodeMv at_ s
  | .nozShortLoad n at_ => Sys2Proof.Machine.execNozShortLoad n at_ s
  | .nozShortBat n ma at_ => Sys2Proof.Machine.execNozShortBat n ma at_ s
  | .nozShortGnd n drainMv nodeMv ns at_ => Sys2Proof.Machine.execNozShortGnd n drainMv nodeMv ns at_ s
  | .nozThermal n tj at_ => Sys2Proof.Machine.execNozThermal n tj at_ s
  | .hsOvercurrent b ma ns at_ => Sys2Proof.Machine.execHsOvercurrent b ma ns at_ s
  | .hsThermal b tj at_ => Sys2Proof.Machine.execHsThermal b tj at_ s
  | .nozFltWrite h n value => Sys2Proof.Machine.execNozFltWrite h n value s
  | .bankFltWrite h b value => Sys2Proof.Machine.execBankFltWrite h b value s
  | .boostReady c mv at_ => Sys2Proof.Machine.execBoostReady c mv at_ s
  | .boostLow c mv at_ => Sys2Proof.Machine.execBoostLow c mv at_ s
  | .boostSoftStartTimeout c at_ => Sys2Proof.Machine.execBoostSoftStartTimeout c at_ s
  | .boostLowTimeout c at_ => Sys2Proof.Machine.execBoostLowTimeout c at_ s
  | .boostFault c fault at_ => Sys2Proof.Machine.execBoostFault c fault at_ s
  | .bstFltWrite h c value => Sys2Proof.Machine.execBstFltWrite h c value s
  | .propPeakEnd k at_ => Sys2Proof.Machine.execPropPeakEnd k at_ s
  | .propRampDone k ma at_ => Sys2Proof.Machine.execPropRampDone k ma at_ s
  | .propDecayDone k ma at_ => Sys2Proof.Machine.execPropDecayDone k ma at_ s
  | .propOpenLoad k dutyPm meanMa ns at_ => Sys2Proof.Machine.execPropOpenLoad k dutyPm meanMa ns at_ s
  | .propShort k ma at_ => Sys2Proof.Machine.execPropShort k ma at_ s
  | .propThermal k tj at_ => Sys2Proof.Machine.execPropThermal k tj at_ s
  | .propUndercurrent k dutyPm meanMa ns at_ => Sys2Proof.Machine.execPropUndercurrent k dutyPm meanMa ns at_ s
  | .propFltWrite h k value => Sys2Proof.Machine.execPropFltWrite h k value s
  | .carrierPeriodStart u m => Sys2Proof.Machine.execCarrierPeriodStart u m s
  | .mdrvArmWrite h value => Sys2Proof.Machine.execMdrvArmWrite h value s
  | .staleShadow u at_ => Sys2Proof.Machine.execStaleShadow u at_ s
  | .pwmCalibration tapPs at_ => Sys2Proof.Machine.execPwmCalibration tapPs at_ s
  | .hallInvalidTimeout u at_ => Sys2Proof.Machine.execHallInvalidTimeout u at_ s
  | .cbcLimit u switch ma at_ => Sys2Proof.Machine.execCbcLimit u switch ma at_ s
  | .motorHardTrip u ma ns at_ => Sys2Proof.Machine.execMotorHardTrip u ma ns at_ s
  | .vigilCurrentTrip u ma ns at_ => Sys2Proof.Machine.execVigilCurrentTrip u ma ns at_ s
  | .motorThermal u tj at_ => Sys2Proof.Machine.execMotorThermal u tj at_ s
  | .motorSupplyLow mv at_ => Sys2Proof.Machine.execMotorSupplyLow mv at_ s
  | .foldback u samples at_ => Sys2Proof.Machine.execFoldback u samples at_ s
  | .motorTrip t level at_ => Sys2Proof.Machine.execMotorTrip t level at_ s
  | .driveCommandRun h mask duties => Sys2Proof.Machine.execDriveCommandRun h mask duties s
  | .driveCommandStop h mask duties => Sys2Proof.Machine.execDriveCommandStop h mask duties s
  | .driveCommandCoast h mask duties => Sys2Proof.Machine.execDriveCommandCoast h mask duties s
  | .driveCommandBrake h mask duties => Sys2Proof.Machine.execDriveCommandBrake h mask duties s
  | .rampDownDone u at_ => Sys2Proof.Machine.execRampDownDone u at_ s
  | .brakeTimeEnd u at_ => Sys2Proof.Machine.execBrakeTimeEnd u at_ s
  | .mdrvFltWrite h u value => Sys2Proof.Machine.execMdrvFltWrite h u value s
  | .resetBrakeEnd at_ => Sys2Proof.Machine.execResetBrakeEnd at_ s
  | .observerPredict s_ => Sys2Proof.Machine.execObserverPredict s_ s
  | .observerTimeout s_ at_ => Sys2Proof.Machine.execObserverTimeout s_ at_ s
  | .followErr s_ at_ => Sys2Proof.Machine.execFollowErr s_ at_ s
  | .loopOverrun at_ => Sys2Proof.Machine.execLoopOverrun at_ s
  | .loopFltWrite h s_ value => Sys2Proof.Machine.execLoopFltWrite h s_ value s
  | .traceArmRelease h arm => Sys2Proof.Machine.execTraceArmRelease h arm s
  | .traceArmArm h arm => Sys2Proof.Machine.execTraceArmArm h arm s
  | .traceArmForce h arm => Sys2Proof.Machine.execTraceArmForce h arm s
  | .traceRead h first count => Sys2Proof.Machine.execTraceRead h first count s
  | .loadStartRequest k at_ => Sys2Proof.Machine.execLoadStartRequest k at_ s
  | .grantWaitTimeout k at_ => Sys2Proof.Machine.execGrantWaitTimeout k at_ s
  | .shedRestore k at_ => Sys2Proof.Machine.execShedRestore k at_ s
  | .inputOver i_ meanMa => Sys2Proof.Machine.execInputOver i_ meanMa s
  | .vpwrInputLost i_ mv => Sys2Proof.Machine.execVpwrInputLost i_ mv s
  | .vpwrInputPresent i_ mv => Sys2Proof.Machine.execVpwrInputPresent i_ mv s
  | .dozeDwellExpiry at_ => Sys2Proof.Machine.execDozeDwellExpiry at_ s
  | .holdDwellExpiry at_ => Sys2Proof.Machine.execHoldDwellExpiry at_ s
  | .dormantDwellExpiry at_ => Sys2Proof.Machine.execDormantDwellExpiry at_ s
  | .wakeEvent cause heldTicks => Sys2Proof.Machine.execWakeEvent cause heldTicks s
  | .dormantWake cause offNs => Sys2Proof.Machine.execDormantWake cause offNs s
  | .keyChange mv stableNs at_ => Sys2Proof.Machine.execKeyChange mv stableNs at_ s
  | .powerPolicySetLtol h policy => Sys2Proof.Machine.execPowerPolicySetLtol h policy s
  | .powerPolicySetAlarm h policy => Sys2Proof.Machine.execPowerPolicySetAlarm h policy s
  | .powerPolicyDormantNow h policy => Sys2Proof.Machine.execPowerPolicyDormantNow h policy s
  | .pwrbDeniedWrite h value => Sys2Proof.Machine.execPwrbDeniedWrite h value s
  | .devAlarmLoWrite h value => Sys2Proof.Machine.execDevAlarmLoWrite h value s
  | .devAlarmHiWrite h value => Sys2Proof.Machine.execDevAlarmHiWrite h value s
  | .inrushWindowEnd k at_ => Sys2Proof.Machine.execInrushWindowEnd k at_ s
  | .inrushCut m temp at_ => Sys2Proof.Machine.execInrushCut m temp at_ s
  | .lsOvercurrent k ma ns at_ => Sys2Proof.Machine.execLsOvercurrent k ma ns at_ s
  | .lsShort k ma ns at_ => Sys2Proof.Machine.execLsShort k ma ns at_ s
  | .lsThermal k tj at_ => Sys2Proof.Machine.execLsThermal k tj at_ s
  | .lsOpenLoadOn k ma ns at_ => Sys2Proof.Machine.execLsOpenLoadOn k ma ns at_ s
  | .lsOffStateTest k pulledMv pulledNs freeMv at_ => Sys2Proof.Machine.execLsOffStateTest k pulledMv pulledNs freeMv at_ s
  | .lsDemagDone k ma at_ => Sys2Proof.Machine.execLsDemagDone k ma at_ s
  | .lsRetryDelayEnd k ma tj at_ => Sys2Proof.Machine.execLsRetryDelayEnd k ma tj at_ s
  | .lsTripCountReset k at_ => Sys2Proof.Machine.execLsTripCountReset k at_ s
  | .lswHoldRelease h value => Sys2Proof.Machine.execLswHoldRelease h value s
  | .lswFltWrite h k value => Sys2Proof.Machine.execLswFltWrite h k value s
  | .nop h payload => Sys2Proof.Machine.execNop h payload s
  | .identify h => Sys2Proof.Machine.execIdentify h s
  | .sessionOpenHello h kind nonce => Sys2Proof.Machine.execSessionOpenHello h kind nonce s
  | .sessionOpenProof h kind proof => Sys2Proof.Machine.execSessionOpenProof h kind proof s
  | .sessionClose h => Sys2Proof.Machine.execSessionClose h s
  | .sessionReset h => Sys2Proof.Machine.execSessionReset h s
  | .deviceReset h confirm => Sys2Proof.Machine.execDeviceReset h confirm s
  | .regRead h address => Sys2Proof.Machine.execRegRead h address s
  | .regWrite h address value => Sys2Proof.Machine.execRegWrite h address value s
  | .regReadBlock h address count => Sys2Proof.Machine.execRegReadBlock h address count s
  | .regWriteBlock h address values => Sys2Proof.Machine.execRegWriteBlock h address values s
  | .regModify h address mask value => Sys2Proof.Machine.execRegModify h address mask value s
  | .txnBegin h timeout => Sys2Proof.Machine.execTxnBegin h timeout s
  | .txnCommit h => Sys2Proof.Machine.execTxnCommit h s
  | .txnRollback h => Sys2Proof.Machine.execTxnRollback h s
  | .txnStatus h => Sys2Proof.Machine.execTxnStatus h s
  | .txnTimeout k => Sys2Proof.Machine.execTxnTimeout k s
  | .fenceCompletion h => Sys2Proof.Machine.execFenceCompletion h s
  | .fenceTick h => Sys2Proof.Machine.execFenceTick h s
  | .fenceDma h => Sys2Proof.Machine.execFenceDma h s
  | .keepaliveTimeout k at_ => Sys2Proof.Machine.execKeepaliveTimeout k at_ s
  | .helloTimeout k at_ => Sys2Proof.Machine.execHelloTimeout k at_ s
  | .ethLinkDown p at_ => Sys2Proof.Machine.execEthLinkDown p at_ s
  | .ethLinkUp p trainMs sqi => Sys2Proof.Machine.execEthLinkUp p trainMs sqi s
  | .neighbourSolicitation p target source => Sys2Proof.Machine.execNeighbourSolicitation p target source s
  | .pdelayExchange p delay => Sys2Proof.Machine.execPdelayExchange p delay s
  | .phyRoleChange p at_ => Sys2Proof.Machine.execPhyRoleChange p at_ s
  | .eventPacketSend k at_ => Sys2Proof.Machine.execEventPacketSend k at_ s
  | .canAddressClaim => Sys2Proof.Machine.execCanAddressClaim s
  | .addressContention other name => Sys2Proof.Machine.execAddressContention other name s
  | .addressClaimRequest source => Sys2Proof.Machine.execAddressClaimRequest source s
  | .unitReq source function target group => Sys2Proof.Machine.execUnitReq source function target group s
  | .statusReq source => Sys2Proof.Machine.execStatusReq source s
  | .statusPeriodic at_ => Sys2Proof.Machine.execStatusPeriodic at_ s
  | .dm1Periodic at_ => Sys2Proof.Machine.execDm1Periodic at_ s
  | .dm2Request source global => Sys2Proof.Machine.execDm2Request source global s
  | .canBusoff => Sys2Proof.Machine.execCanBusoff s
  | .busoffRecovery => Sys2Proof.Machine.execBusoffRecovery s
  | .canbDtcClr h value => Sys2Proof.Machine.execCanbDtcClr h value s
  | .canSFrameReceived ident dlc data => Sys2Proof.Machine.execCanSFrameReceived ident dlc data s
  | .cansRxPop h value => Sys2Proof.Machine.execCansRxPop h value s
  | .cansTxGo h value => Sys2Proof.Machine.execCansTxGo h value s
  | .resGpoWrite h value => Sys2Proof.Machine.execResGpoWrite h value s
  | .settingsSaveComplete good => Sys2Proof.Machine.execSettingsSaveComplete good s
  | .vigUnitReqWrite h unit value => Sys2Proof.Machine.execVigUnitReqWrite h unit value s
  | .vigSafeWrite h value => Sys2Proof.Machine.execVigSafeWrite h value s
  | .evtPendWrite h w value => Sys2Proof.Machine.execEvtPendWrite h w value s
  | .powerOn offNs => Sys2Proof.Machine.execPowerOn offNs s
  | .resetNLow ns => Sys2Proof.Machine.execResetNLow ns s
  | .watchdogMiss missed => Sys2Proof.Machine.execWatchdogMiss missed s
  | .clockMonitorFault => Sys2Proof.Machine.execClockMonitorFault s
  | .clockRestored stableNs => Sys2Proof.Machine.execClockRestored stableNs s
  | .lockstepMismatch => Sys2Proof.Machine.execLockstepMismatch s
  | .debugUnlock h value => Sys2Proof.Machine.execDebugUnlock h value s
  | .debugLock h value => Sys2Proof.Machine.execDebugLock h value s
  | .debugHalt at_ => Sys2Proof.Machine.execDebugHalt at_ s
  | .debugResume at_ => Sys2Proof.Machine.execDebugResume at_ s
  | .haltLimit at_ => Sys2Proof.Machine.execHaltLimit at_ s
  | .diaryRecordWrite readBack writable => Sys2Proof.Machine.execDiaryRecordWrite readBack writable s
  | .diaryFreeze h timeout => Sys2Proof.Machine.execDiaryFreeze h timeout s
  | .diaryThaw h => Sys2Proof.Machine.execDiaryThaw h s
  | .freezeTimeout at_ => Sys2Proof.Machine.execFreezeTimeout at_ s
  | .diaryRead h first count flags => Sys2Proof.Machine.execDiaryRead h first count flags s
  | .diaryMark h code payload => Sys2Proof.Machine.execDiaryMark h code payload s
  | .diaryDrainedWrite h value => Sys2Proof.Machine.execDiaryDrainedWrite h value s
  | .drainedMramWrite at_ => Sys2Proof.Machine.execDrainedMramWrite at_ s
  | .holdUpEntry lowNs => Sys2Proof.Machine.execHoldUpEntry lowNs s
  | .updBegin h identity length flags => Sys2Proof.Machine.execUpdBegin h identity length flags s
  | .updChunk h offset data => Sys2Proof.Machine.execUpdChunk h offset data s
  | .updVerify h => Sys2Proof.Machine.execUpdVerify h s
  | .verifyComplete => Sys2Proof.Machine.execVerifyComplete s
  | .updActivate h => Sys2Proof.Machine.execUpdActivate h s
  | .updConfirm h => Sys2Proof.Machine.execUpdConfirm h s
  | .updAbort h => Sys2Proof.Machine.execUpdAbort h s
  | .updStatus h => Sys2Proof.Machine.execUpdStatus h s
  | .prechargeStart mvA mvB busMv at_ => Sys2Proof.Machine.execPrechargeStart mvA mvB busMv at_ s
  | .prechargeComplete mvA mvB busMv => Sys2Proof.Machine.execPrechargeComplete mvA mvB busMv s
  | .prechargeTimeout at_ => Sys2Proof.Machine.execPrechargeTimeout at_ s
  | .inputSwitchOvercurrent i_ ma ns at_ => Sys2Proof.Machine.execInputSwitchOvercurrent i_ ma ns at_ s
  | .inputSwitchOvervoltage i_ mv at_ => Sys2Proof.Machine.execInputSwitchOvervoltage i_ mv at_ s
  | .groundLift mv ns at_ => Sys2Proof.Machine.execGroundLift mv ns at_ s
  | .inputSwitchReturn i_ mv settledNs at_ => Sys2Proof.Machine.execInputSwitchReturn i_ mv settledNs at_ s
  | .invalidRequest h why => Sys2Proof.Machine.execInvalidRequest h why s
  | .dm1ActiveTimeout source at_ => Sys2Proof.Machine.execDm1ActiveTimeout source at_ s
  | .saveHoldEnd at_ => Sys2Proof.Machine.execSaveHoldEnd at_ s
  | .pinPulseEnd p at_ => Sys2Proof.Machine.execPinPulseEnd p at_ s
  | .tripBrakeEnd u at_ => Sys2Proof.Machine.execTripBrakeEnd u at_ s
  | .debugLockoutEnd at_ => Sys2Proof.Machine.execDebugLockoutEnd at_ s
  | .authLockoutEnd addr at_ => Sys2Proof.Machine.execAuthLockoutEnd addr at_ s
  | .addressClaimed at_ => Sys2Proof.Machine.execAddressClaimed at_ s
  | .transportProtocolFrame source dest extended connection data => Sys2Proof.Machine.execTransportProtocolFrame source dest extended connection data s
  | .canSTransmitComplete errors => Sys2Proof.Machine.execCanSTransmitComplete errors s
  | .baseHot temp => Sys2Proof.Machine.execBaseHot temp s

end Sys2Proof.Machine
end

