-- ==== Sys2Proof/Machine/Step.lean ====
section
/-! DEFINITION. One step: the command at the front of the queue, or idling (log entry 1). -/

namespace Sys2Proof.Machine

open Sys2Proof (Instr)

/-- The command at the front of the queue is carried out on the state with the rest of the queue; with no
    command waiting the block idles. -/
def step (s : State) : Host.Outcome State Fault Refusal :=
  match s.pending with
  | [] => .next s
  | c :: rest => Sys2Proof.Machine.exec c { s with pending := rest }

/-- The state with the command that a table word spells put at the front of the queue. The command table gives no
    row bits, so no word spells one. -/
def State.withFetchWord (s : State) (nbits w : Nat) : State :=
  match Sys2Proof.decodeTableWord nbits w with
  | some c => { s with pending := c :: s.pending }
  | none => s

end Sys2Proof.Machine
end

