-- ==== Sys2Proof/Safety.lean ====
section
/-! DEFINITION. The terms in which claims about the V96 are made: the invariant that every step keeps, what a
    command leaves as it was, what it means for a request to be served, and what a raised event leaves. -/

namespace Sys2Proof.Machine

open Sys2Proof (Word Byte Bytes Sess Hdr Instr)

/-! ### The invariant: the parts of the V96 are those of its variant (R1, R2) -/

/-- Which units of a Unit State Table are ABSENT. -/
def absentMask (l : List UnitEntry) : List Bool := l.map (fun e => e.state == .absent)

/-- The lengths of the tables that hold one entry for each part of an engine. -/
def Engines.sizes (e : Engines) : List Nat :=
  [e.lsw.length, e.fb.axes.length, e.fb.ports.length, e.fb.pts.length, e.map.frames.length, e.map.tlb.length,
   e.map.faults.length, e.map.buffers.length, e.map.shadows.length, e.valve.noz.length, e.valve.banks.length,
   e.valve.boosts.length, e.valve.props.length, e.alm.lanes.length, e.alm.pins.length, e.alm.noz.length,
   e.alm.tracks.length, e.mot.units.length, e.loop.slots.length]

/-- What no command changes of a block: its variant, which units are ABSENT, how many queues and how many parts of
    each kind there are. -/
def Block.fit (b : Block) : Variant × List Bool × Nat × List Nat :=
  (b.ident.variant, absentMask b.vig.units, b.link.queues.length, b.eng.sizes)

/-- The parts of a V96 of a variant: absent units as R1 and R2 have them; 4 queues; 16 load switches; 32 axes,
    4 serial ports and 4 pass-through outputs; 128 tile frames, 64 TLB entries, 16 fault slots, 4 writeback
    buffers, 2 shadow tables; 96 nozzle channels, 12 banks, 3 boosts, 8 proportional channels; 160 lanes, 8 CMP
    pins, 96 plans, 2 tracks; 16 motor units; 32 loop slots. -/
def soundFit (v : Variant) : Variant × List Bool × Nat × List Nat :=
  (v, absentMask (resetUnits v), 4,
   [16, 32, 4, 4, 128, 64, 16, 4, 2, 96, 12, 3, 8, 160, 8, 96, 2, 16, 32])

/-- The block has the parts of its variant. -/
def Block.Sound (b : Block) : Prop := b.fit = soundFit b.ident.variant

/-- The state has the parts of its variant. -/
def State.Sound (s : State) : Prop := s.blk.Sound

/-! ### Frames: what a command leaves as it was -/

/-- The parts of a block that a frame speaks of. The words of the register file are told apart by their
    addresses, with `KeepsWords`. -/
inductive BlockPart where
  /-- Variant, issue, serial number. -/
  | ident
  /-- The time base, the servo, the real-time clock (02). -/
  | clock
  /-- The latest instant of the Tick that a request or a fault has named (R17). -/
  | hand
  /-- What the last finished COMMIT published. -/
  | published
  /-- Actions that wait for the next COMMIT. -/
  | posted
  /-- How many free values have been taken. -/
  | draws
  /-- The Unit State Table. -/
  | units
  /-- The unit requests that wait for the next COMMIT. -/
  | unitReqs
  /-- Resets, the debug port, the watchdog (14). -/
  | vigil
  /-- Pending bits and conditions of the event sources (15). -/
  | events
  /-- The EVENT queues of the sessions (R434). -/
  | evQueues
  /-- The Diary and the Ember Page (15). -/
  | diary
  /-- The trouble codes of CAN_M (R370). -/
  | codes
  /-- CAN_M but for its trouble codes, and CAN_S (12). -/
  | can
  /-- Firmware slots, boot records, settings stores (16). -/
  | update
  /-- VPWR inputs, KEY, hold-up (17). -/
  | supply
  /-- Packets sent, the transmit buffers (R364), and the numbers of those sent on the V96's own account. -/
  | sent
  /-- The queues, the requests in progress, the count of arrivals and when the last one arrived. -/
  | requests
  /-- State, identity and binding of the sessions (R343). -/
  | sessions
  /-- When each session last sent a valid request (R346). -/
  | keepalive
  /-- The replies kept for repeats (R339). -/
  | replies
  /-- The session copies of registers, and the latches behind HI registers (R380). -/
  | sessRegs
  /-- The transactions (R384). -/
  | txns
  /-- The Ethernet ports (R491). -/
  | ports
  /-- The Syncs relayed to ETH_B (R55). -/
  | relays
  /-- Session keys, failed proofs and lockouts, neighbour advertisements, the settings save. -/
  | linkOther
  /-- The arbiter and the power states (10). -/
  | power
  /-- The load switches (11). -/
  | lsw
  /-- Feedback inputs, axes, serial ports, speed signals (03). -/
  | feedback
  /-- The pose unit (04). -/
  | pose
  /-- The field map (05). -/
  | map
  /-- Nozzles, banks, boosts, proportional channels (07). -/
  | valve
  /-- The Almanac and the compare unit (06). -/
  | almanac
  /-- The PWM units (08). -/
  | motors
  /-- The loop engine and the trace (09). -/
  | loops
  deriving DecidableEq, Repr

/-- A quantity of each session is the same in two blocks. -/
def sessSame {α : Type} (f : Session → α) (b t : Block) : Prop :=
  f t.link.main = f b.link.main ∧ f t.link.service = f b.link.service

/-- A part is the same in two blocks. -/
def BlockPart.same (b t : Block) : BlockPart → Prop
  | .ident => t.ident = b.ident
  | .clock => { t.time with hand := 0 } = { b.time with hand := 0 }
  | .hand => t.time.hand = b.time.hand
  | .published => t.pub = b.pub ∧ t.pubTime = b.pubTime ∧ t.pubSup = b.pubSup
  | .posted => t.posted = b.posted
  | .draws => t.draws = b.draws
  | .units => t.vig.units = b.vig.units
  | .unitReqs => t.vig.reqs = b.vig.reqs
  | .vigil => { t.vig with units := [], reqs := [] } = { b.vig with units := [], reqs := [] }
  | .events => t.evt = b.evt
  | .evQueues => sessSame (fun s => (s.events, s.evDiscarded)) b t
  | .diary => t.diary = b.diary
  | .codes => t.can.active = b.can.active ∧ t.can.previous = b.can.previous ∧ t.can.newCode = b.can.newCode
  | .can => { t.can with active := [], previous := [], newCode := false }
      = { b.can with active := [], previous := [], newCode := false }
  | .update => t.upd = b.upd
  | .supply => t.sup = b.sup
  | .sent => t.link.sent = b.link.sent ∧ t.link.tx = b.link.tx ∧ sessSame (·.ownSeq) b t
  | .requests => t.link.queues = b.link.queues ∧ t.link.progress = b.link.progress
      ∧ t.link.arrivals = b.link.arrivals ∧ t.link.arriveAt = b.link.arriveAt
  | .sessions => sessSame (fun s => (s.state, s.id, s.addr, s.port, s.hostNonce, s.devNonce, s.endCause)) b t
  | .keepalive => sessSame (·.since) b t
  | .replies => sessSame (·.replies) b t
  | .sessRegs => sessSame (fun s => (s.regs, s.latches)) b t
  | .txns => sessSame (·.txn) b t ∧ t.link.nextTxn = b.link.nextTxn
  | .ports => t.link.portA = b.link.portA ∧ t.link.portB = b.link.portB
  | .relays => t.link.relays = b.link.relays
  | .linkOther => t.link.authFails = b.link.authFails ∧ t.link.lockouts = b.link.lockouts
      ∧ t.link.identifies = b.link.identifies ∧ t.link.keyMain = b.link.keyMain
      ∧ t.link.keyService = b.link.keyService ∧ t.link.advertisements = b.link.advertisements
      ∧ t.link.dadDone = b.link.dadDone ∧ t.link.saveBusySince = b.link.saveBusySince
  | .power => t.eng.pwr = b.eng.pwr
  | .lsw => t.eng.lsw = b.eng.lsw
  | .feedback => t.eng.fb = b.eng.fb
  | .pose => t.eng.pose = b.eng.pose
  | .map => t.eng.map = b.eng.map
  | .valve => t.eng.valve = b.eng.valve
  | .almanac => t.eng.alm = b.eng.alm
  | .motors => t.eng.mot = b.eng.mot
  | .loops => t.eng.loop = b.eng.loop

/-- Every part but those named is the same in two blocks. -/
def Keeps (but : List BlockPart) (b t : Block) : Prop := ∀ p, p ∉ but → p.same b t

/-- Every word of the register file but those at the addresses named reads the same in two blocks. -/
def KeepsWords (but : List Nat) (b t : Block) : Prop :=
  ∀ a, a ∉ but → ∀ d, fileGet t.regs a d = fileGet b.regs a d

/-- Every entry of a table but the one at `i` is the same in two tables. -/
def KeepsRows {α : Type} (i : Nat) (l l' : List α) : Prop := ∀ j, j ≠ i → l'[j]? = l[j]?

/-- The command answers a next state with the queue as it was, that changes no part and no word but those named,
    and of whose block `P` holds. -/
def Does (i : Instr) (s : State) (parts : List BlockPart) (words : List Nat) (P : Block → Prop) : Prop :=
  ∃ t : Block, exec i s = .next { s with blk := t }
    ∧ Keeps parts s.blk t ∧ KeepsWords words s.blk t ∧ P t

/-- The command answers a next state with the queue as it was, of whose block `P` holds. -/
def Gives (i : Instr) (s : State) (P : Block → Prop) : Prop :=
  ∃ t : Block, exec i s = .next { s with blk := t } ∧ P t

/-- What every reset entry leaves (R412, R413): each present unit STANDBY with DEVICE_RESET, no session, no
    request waiting, in progress or held for a COMMIT, the power state ACTIVE, and all of it published. -/
structure Restarted (b t : Block) (kind : ResetKind) : Prop where
  units : t.vig.units = resetUnits b.ident.variant
  reqs : t.vig.reqs = []
  starts : t.vig.starting = true
  kind : t.vig.kind = kind
  mainEnded : t.link.main.state ≠ .opened
  serviceEnded : t.link.service.state ≠ .opened
  posted : t.posted = []
  progress : t.link.progress = []
  active : t.eng.pwr.state = .active
  published : t.pub = t.eng ∧ t.pubTime = t.time ∧ t.pubSup = t.sup
  ident : t.ident = b.ident

/-! ### Requests -/

/-- What serving any request changes (R17, R338, R339, R346, R350): the queue it passes through, the replies sent and
    kept, the keepalive timer, the latest instant named in the Tick. -/
def requestParts : List BlockPart := [.requests, .sent, .replies, .keepalive, .hand]

/-- The words that serving any request changes: CMDQ_STAT.PEAK and CMDQ_DISP of its queue (R399). -/
def requestWords (h : Hdr) : List Nat := [addr .CMDQ_STAT h.queue.val, addr .CMDQ_DISP h.queue.val]

/-- The packets that answer a request (R340, R352, R354): one reply, none to a success with NO_REPLY. -/
def answer (h : Hdr) (op : BitVec 16) (st : Status) (tick : Word) (payload : Bytes) : List Packet :=
  if h.noReply && st.success && op != 0x001F then []
  else [{ kind := 1, queue := h.queue, opcode := op, tag := h.tag, session := h.session, status := st,
          tick := tick, payload := payload, addr := h.addr, port := h.port }]

/-- The packets that `t` has sent after those of `b` begin with the answer; final replies of fences may follow. -/
def Answered (b t : Block) (h : Hdr) (op : BitVec 16) (st : Status) (tick : Word) (payload : Bytes) : Prop :=
  b.link.sent ++ answer h op st tick payload <+: t.link.sent

/-- A request of session `k` meets every check of R338, R339 and R341, nothing holds it, and a transmit buffer is free
    (R364): its own effect takes place as it arrives. -/
structure Served (b : Block) (h : Hdr) (k : Sess) (op : OpRow) : Prop where
  reachable : b.reachable = true
  session : b.sessionOf h = some k
  single : h.multicast = false
  running : b.upd.recovery = false
  fresh : b.keptReply k h = none
  noRepeat : b.repeats k h = false
  permitted : k = .main → op.serviceOnly = false ∧ h.queue ≠ 3
  queueEmpty : b.queue h.queue = []
  length : op.lengthOk h.len = true
  notHeld : b.held h = false
  room : b.roomFor h = true

/-- The requests of an open session (R357): the header that a command carries, and the row of its opcode. A
    command that is no such request has none. -/
def rowOf (i : Instr) : Option (Hdr × OpRow) :=
  match i with
  | .clockSetSet h _ _ _ => some (h, clockSetRow)
  | .clockSetLeapInsert h _ => some (h, clockSetRow)
  | .clockSetLeapDelete h _ => some (h, clockSetRow)
  | .clockSetLeapCancel h => some (h, clockSetRow)
  | .devtimeLoRead h => some (h, regReadRow)
  | .rtcSecRead h => some (h, regReadRow)
  | .poseOdoLoRead h => some (h, regReadRow)
  | .cmpNextLoRead h _ => some (h, regReadRow)
  | .cmpFireLoRead h _ => some (h, regReadRow)
  | .cmpRdPosLoRead h => some (h, regReadRow)
  | .poseFix h _ => some (h, poseFixRow)
  | .poseAiding h _ _ => some (h, poseAidingRow)
  | .fieldOrigin h _ _ _ _ => some (h, fieldOriginRow)
  | .mapPolicy h _ _ _ => some (h, mapPolicyRow)
  | .tileDataTile h _ _ _ _ _ _ _ => some (h, tileDataRow 1048)
  | .tileDataConst h _ _ _ _ _ _ _ => some (h, tileDataRow 28)
  | .tileDataRateTable h _ _ _ => some (h, tileDataRow 1048)
  | .tileWritebackAck h _ _ => some (h, writebackAckRow)
  | .tileInvalidate h _ _ _ _ _ => some (h, tileInvalidateRow)
  | .sectionCommand h _ _ _ _ => some (h, sectionRow)
  | .rateTarget h _ _ _ _ => some (h, rateTargetRow)
  | .cmpAdd h _ => some (h, regWriteRow)
  | .cmpClear h _ => some (h, regWriteRow)
  | .nozzleForceRelease h _ => some (h, nozzleForceRow)
  | .nozzleForceClose h _ => some (h, nozzleForceRow)
  | .nozzleForceOpen h _ _ _ => some (h, nozzleForceRow)
  | .nozzleForcePulse h _ _ => some (h, nozzleForceRow)
  | .nozFltWrite h _ _ => some (h, regWriteRow)
  | .bankFltWrite h _ _ => some (h, regWriteRow)
  | .bstFltWrite h _ _ => some (h, regWriteRow)
  | .propFltWrite h _ _ => some (h, regWriteRow)
  | .mdrvArmWrite h _ => some (h, regWriteRow)
  | .driveCommandRun h _ _ => some (h, driveRow)
  | .driveCommandStop h _ _ => some (h, driveRow)
  | .driveCommandCoast h _ _ => some (h, driveRow)
  | .driveCommandBrake h _ _ => some (h, driveRow)
  | .mdrvFltWrite h _ _ => some (h, regWriteRow)
  | .loopFltWrite h _ _ => some (h, regWriteRow)
  | .traceArmRelease h _ => some (h, traceArmRow)
  | .traceArmArm h _ => some (h, traceArmRow)
  | .traceArmForce h _ => some (h, traceArmRow)
  | .traceRead h _ _ => some (h, traceReadRow)
  | .powerPolicySetLtol h _ => some (h, powerPolicyRow)
  | .powerPolicySetAlarm h _ => some (h, powerPolicyRow)
  | .powerPolicyDormantNow h _ => some (h, powerPolicyRow)
  | .pwrbDeniedWrite h _ => some (h, regWriteRow)
  | .devAlarmLoWrite h _ => some (h, regWriteRow)
  | .devAlarmHiWrite h _ => some (h, regWriteRow)
  | .lswHoldRelease h _ => some (h, regWriteRow)
  | .lswFltWrite h _ _ => some (h, regWriteRow)
  | .nop h _ => some (h, nopRow)
  | .identify h => some (h, identifyRow)
  | .sessionClose h => some (h, sessionCloseRow)
  | .sessionReset h => some (h, sessionResetRow)
  | .deviceReset h _ => some (h, deviceResetRow)
  | .regRead h _ => some (h, regReadRow)
  | .regWrite h _ _ => some (h, regWriteRow)
  | .regReadBlock h _ _ => some (h, regReadBlockRow)
  | .regWriteBlock h _ _ => some (h, regWriteBlockRow)
  | .regModify h _ _ _ => some (h, regModifyRow)
  | .txnBegin h _ => some (h, txnBeginRow)
  | .txnCommit h => some (h, txnCommitRow)
  | .txnRollback h => some (h, txnRollbackRow)
  | .txnStatus h => some (h, txnStatusRow)
  | .fenceCompletion h => some (h, fenceRow)
  | .fenceTick h => some (h, fenceRow)
  | .fenceDma h => some (h, fenceRow)
  | .canbDtcClr h _ => some (h, regWriteRow)
  | .cansRxPop h _ => some (h, regWriteRow)
  | .cansTxGo h _ => some (h, regWriteRow)
  | .resGpoWrite h _ => some (h, regWriteRow)
  | .vigUnitReqWrite h _ _ => some (h, regWriteRow)
  | .vigSafeWrite h _ => some (h, regWriteRow)
  | .evtPendWrite h _ _ => some (h, regWriteRow)
  | .debugUnlock h _ => some (h, regWriteRow)
  | .debugLock h _ => some (h, regWriteRow)
  | .diaryDrainedWrite h _ => some (h, regWriteRow)
  | .diaryFreeze h _ => some (h, diaryFreezeRow)
  | .diaryThaw h => some (h, diaryThawRow)
  | .diaryRead h _ _ _ => some (h, diaryReadRow)
  | .diaryMark h _ _ => some (h, diaryMarkRow)
  | .updBegin h _ _ _ => some (h, updBeginRow)
  | .updChunk h _ _ => some (h, updChunkRow)
  | .updVerify h => some (h, updVerifyRow)
  | .updActivate h => some (h, updActivateRow)
  | .updConfirm h => some (h, updConfirmRow)
  | .updAbort h => some (h, updAbortRow)
  | .updStatus h => some (h, updStatusRow)
  | .invalidRequest h (.reservedKind q) => some (h, kindedRow q)
  | _ => none

/-- The block as core 2 takes a request that nothing holds from its empty queue (R346, R349, R350, R399): the
    keepalive timer of its session restarts, the instant it names counts for the Tick (R17), the request counts as an
    arrival, the peak use of the queue is at least 1, and its dispatches count one more. -/
def Block.taken (b : Block) (k : Sess) (h : Hdr) : Block :=
  ((((b.keepAlive k h).reaches h.at_).arrives h).peak h.queue 1).dispatched h

/-- The request is served: the answer given is sent, and beyond what serving any request changes nothing but the
    parts and words named. -/
def Serves (i : Instr) (s : State) (h : Hdr) (op : BitVec 16) (st : Status) (tick : Word) (payload : Bytes)
    (parts : List BlockPart) (words : List Nat) (P : Block → Prop) : Prop :=
  Does i s (requestParts ++ parts) (requestWords h ++ words)
    (fun t => Answered s.blk t h op st tick payload ∧ P t)

/-- The request waits for the next COMMIT (R351, R352): it is answered now, with the Tick of that COMMIT, and put
    behind the actions that wait already; nothing else takes place before. -/
def Posts (i : Instr) (s : State) (h : Hdr) (op : BitVec 16) (st : Status) (payload : Bytes) : Prop :=
  Serves i s h op st (s.blk.reaches h.at_).commitTick payload [.posted] [] (fun t =>
    t.posted = s.blk.posted ++ [{ seq := s.blk.link.arrivals, sess := s.blk.sessionOf h
                                  arrived := s.blk.now h.at_, since := (s.blk.reaches h.at_).stagedAt
                                  act := .req i }])

/-- The packets that the V96 sends to a session on its own account, numbered one after the other: none while the
    session is not open (R362, R363). -/
def ownPackets (b : Block) (k : Sess) (op : BitVec 16) (queue : Fin 4) (payloads : List Bytes) : List Packet :=
  let s := b.link.sess k
  if s.state = .opened then
    payloads.mapIdx (fun n p =>
      { kind := 2, queue := queue, opcode := op, tag := s.ownSeq + BitVec.ofNat 16 n, session := s.id
        status := .ok, tick := b.time.count, payload := p, addr := s.addr, port := s.port })
  else []

/-! ### Events -/

/-- What raising an event may change besides its count (R430). -/
def eventParts : List BlockPart := [.events, .evQueues, .diary, .codes]

/-- The words that raising the events named changes: their counts, and the counts of the Diary and of the EVENT
    queues. -/
def eventWords (sources : List Nat) : List Nat :=
  addr .DIARY_CNT0 :: addr .EVT_PKT_STAT :: sources.map (fun s => addr .EVT_CNT s)

/-- One occurrence of a source has been counted. -/
def Raised (source : Nat) (b t : Block) : Prop := t.word .EVT_CNT source = b.word .EVT_CNT source + 1

end Sys2Proof.Machine
end

