-- ==== Sys2Proof/Certificates/Slice0/Obligations.lean ====
section
/-! DEFINITION. The statements about the V96 that are to be proved. -/

open Sys2Proof (Instr Word Byte Bytes Sess Hdr)
open Sys2Proof.Machine

/-- A step carries out the command at the front of the queue on the state with the queue's rest; with no command
    waiting the block idles (log entry 1: the queue and the idle step are the model's). -/
def Obligations.StepRunsTheFrontCommand : Prop :=
  (∀ (c : Instr) (rest : List Instr) (b : Block),
    step { pending := c :: rest, blk := b } = exec c { pending := rest, blk := b })
  ∧ ∀ b : Block, step { pending := [], blk := b } = .next { pending := [], blk := b }

/-- Every command goes on: it answers a next state, with the queue it was given. -/
def Obligations.EveryCommandGoesOn : Prop :=
  ∀ (c : Instr) (s : State), ∃ t : Block, exec c s = .next { s with blk := t }

/-- The state after reset, where the specification gives it. -/
def Obligations.ResetLeavesTheStartingState : Prop :=
  let b := State.reset.blk
  State.reset.pending = []
  ∧ (∀ (r : Reg) (i j : Nat), b.word r i j = resetWord r i j)
  ∧ (∀ u < 203, (b.unit u).state = .standby)
  ∧ (∀ k : Sess, (b.link.sess k).state = .closed ∧ (b.link.sess k).id = 0 ∧ (b.link.sess k).txn.state = .none)
  ∧ b.evt.pend = 0 ∧ b.vig.reqs = [] ∧ b.posted = [] ∧ b.link.sent = []
  ∧ b.time.first = true ∧ b.time.servo = .free ∧ b.vig.starting = true ∧ b.reachable = false

/-- The state after reset has the parts of its variant. -/
def Obligations.ResetIsSound : Prop := State.reset.Sound

/-- No command changes which units are ABSENT, the variant, or the parts there are. -/
def Obligations.EveryStepKeepsTheParts : Prop :=
  ∀ s t : State, s.Sound → step s = .next t → t.Sound ∧ t.blk.ident.variant = s.blk.ident.variant

/-- Each unit of an absent resource stands in the Unit State Table as ABSENT and never leaves that state (R1). -/
def Obligations.AbsentUnitsStayAbsent : Prop :=
  ∀ (c : Instr) (s : State) (u : Nat), s.Sound → u < 203 →
    let lacks (v : Variant) : Prop := v = .p ∧ 48 ≤ u ∧ u ≤ 95 ∨ v = .s ∧ 120 ≤ u ∧ u ≤ 127
    ((s.blk.unit u).state = .absent ↔ lacks s.blk.ident.variant)
    ∧ ∃ t : Block, exec c s = .next { s with blk := t } ∧ t.ident.variant = s.blk.ident.variant
      ∧ ((t.unit u).state = .absent ↔ lacks s.blk.ident.variant)

/-- A request that is served does at once what its dispatch does. -/
def Obligations.ServedRequestIsDispatchedAtOnce : Prop :=
  ∀ (i : Instr) (s : State) (h : Hdr) (op : OpRow) (k : Sess), rowOf i = some (h, op) → Served s.blk h k op →
    ∃ d : Dispatch, dispatchOf i = some d ∧
      exec i s = .next { s with blk :=
        (d k s.blk.link.arrivals (s.blk.now h.at_) (s.blk.taken k h)).fences }

/-- The checks of R338 in their order, for every request of an open session; each refusal changes nothing but
    what its reply and its counter need. -/
def Obligations.ArrivalChecksRefuseInOrder : Prop :=
  ∀ (i : Instr) (s : State) (h : Hdr) (op : OpRow), rowOf i = some (h, op) → h.session ≠ 0 →
    s.blk.reachable = true → h.multicast = false → s.blk.upd.recovery = false →
    (s.blk.sessionOf h = none →
      Does i s [.sent] [addr .LINK_CNT1] (fun t => Answered s.blk t h op.code .noSession s.blk.time.count []))
    ∧ (∀ k, s.blk.sessionOf h = some k → s.blk.keptReply k h = none → s.blk.repeats k h = false →
      (k = .main → op.serviceOnly = true ∨ h.queue = 3 →
        Does i s [.sent, .replies, .keepalive] []
          (fun t => Answered s.blk t h op.code .denied s.blk.time.count []))
      ∧ ((k = .main → op.serviceOnly = false ∧ h.queue ≠ 3) →
        (queueSlots h.queue ≤ (s.blk.queue h.queue).length →
          Does i s (eventParts ++ [BlockPart.sent, BlockPart.replies, BlockPart.keepalive])
            (eventWords [17] ++ [addr .LINK_CNT1, addr .CMDQ_BUSY h.queue.val])
            (fun t => Answered s.blk t h op.code .busy s.blk.time.count []))
        ∧ ((s.blk.queue h.queue).length < queueSlots h.queue →
          (op.lengthOk h.len = false →
            Does i s [.sent, .replies, .keepalive] []
              (fun t => Answered s.blk t h op.code .badLength s.blk.time.count []))
          ∧ (op.lengthOk h.len = true → hintTooFar s.blk.time.count h.hint = true →
            Does i s [.sent, .replies, .keepalive] []
              (fun t => Answered s.blk t h op.code .range s.blk.time.count [])))))

/-- Repeats (R339), and requests that must wait (R341, R349, R356, R364). -/
def Obligations.RepeatsAndWaitingRequests : Prop :=
  ∀ (i : Instr) (s : State) (h : Hdr) (op : OpRow) (k : Sess), rowOf i = some (h, op) →
    s.blk.reachable = true → h.multicast = false → s.blk.upd.recovery = false → s.blk.sessionOf h = some k →
    (∀ p, s.blk.keptReply k h = some p →
      Does i s [.sent, .keepalive] [] (fun t => t.link.sent = s.blk.link.sent ++ [p]))
    ∧ (s.blk.keptReply k h = none → s.blk.repeats k h = true → Does i s [.keepalive] [] (fun _ => True))
    ∧ (s.blk.keptReply k h = none → s.blk.repeats k h = false →
      (k = .main → op.serviceOnly = false ∧ h.queue ≠ 3) → op.lengthOk h.len = true →
      (s.blk.queue h.queue).length < queueSlots h.queue → hintTooFar s.blk.time.count h.hint = false →
      s.blk.queue h.queue ≠ [] ∨ s.blk.held h = true ∨ s.blk.roomFor h = false → s.Sound →
      Does i s [.requests, .keepalive, .hand] [addr .CMDQ_STAT h.queue.val]
        (fun t => t.queue h.queue = s.blk.queue h.queue
            ++ [{ seq := s.blk.link.arrivals, sess := some k, arrived := s.blk.now h.at_, hdr := h,
                  opcode := op.code, req := i }]
          ∧ t.link.progress = s.blk.link.progress))

/-- The requests that act at a COMMIT (R17, R351, R352): each waits for it. -/
def Obligations.PostedRequestsWaitForTheCommit : Prop :=
  ∀ (s : State) (h : Hdr) (k : Sess),
    let b := s.blk
    let quietActive : Prop := ∀ n < 96, (b.unit (unitNoz n)).state ≠ .active
    (Served b h k clockSetRow →
      (∀ (tai : BitVec 16) (sec : BitVec 64) (ns : Word), sec.toNat < 2 ^ 34 → ns.toNat ≤ 999999999 →
        0 ≤ tai.toInt → tai.toInt ≤ 100 → Posts (.clockSetSet h tai sec ns) s h 0x0060 .ok [])
      ∧ (∀ sec : BitVec 64, sec.toNat % 86400 = 0 → stampSeconds b.time.dev b.time.taiUtc < sec.toNat →
        sec.toNat < 2 ^ 32 → Posts (.clockSetLeapInsert h sec) s h 0x0060 .ok []
          ∧ Posts (.clockSetLeapDelete h sec) s h 0x0060 .ok [])
      ∧ Posts (.clockSetLeapCancel h) s h 0x0060 .ok [])
    ∧ (Served b h k powerPolicyRow → ∀ p : Sys2Proof.PowerPolicy, b.alarmBad p = false →
      (p.dormantNow = true → b.blocks % 64 = 0) →
      ∀ i ∈ [Instr.powerPolicySetLtol h p, .powerPolicySetAlarm h p, .powerPolicyDormantNow h p],
        Posts i s h 0x0058 .ok [])
    ∧ (Served b h k fieldOriginRow → quietActive → ∀ (frame : BitVec 16) (lat lon alt : Word), frame ≠ 0 →
      Posts (.fieldOrigin h frame lat lon alt) s h 0x0022 .ok [])
    ∧ (Served b h k mapPolicyRow → ∀ (product policy : Byte) (tmo : BitVec 16), product.toNat < 2 →
      policy.toNat < 3 → tmo.toNat ≤ 2000 → Posts (.mapPolicy h product policy tmo) s h 0x002B .ok [])
    ∧ (Served b h k tileInvalidateRow → ∀ (scope product flags : Byte) (tx ty : Word), scope.toNat < 3 →
      (scope ≠ 2 → product.toNat < 2) → (k = .main → flags.getLsbD 0 = true → quietActive) →
      Posts (.tileInvalidate h scope product flags tx ty) s h 0x0029 .ok [])
    ∧ (Served b h k nozzleForceRow → ∀ (mask : BitVec 96) (duty : BitVec 16) (ms : Word),
      let all (p : Nat → Prop) : Prop := ∀ n < 96, mask.getLsbD n = true → p n
      let inService : Prop := all (fun n => (b.unit (unitNoz n)).state = .service)
      let quiet : Prop := all (fun n => (b.noz n).isQuiet = true)
      let starts : List (Instr × Bool) :=
        [(.nozzleForceOpen h duty ms mask, decide (duty.toNat ≤ 1000 ∧ ms.toNat ≤ 600000)),
         (.nozzleForcePulse h ms mask, decide (1 ≤ ms.toNat ∧ ms.toNat ≤ 600000))]
      let stops : List Instr := [.nozzleForceRelease h mask, .nozzleForceClose h mask]
      (inService → (∀ i ∈ stops, Posts i s h 0x0032 .ok [])
        ∧ (quiet → ∀ x ∈ starts, x.2 = true → Posts x.1 s h 0x0032 .ok [])
        ∧ (¬ quiet → ∀ x ∈ starts, x.2 = true → Posts x.1 s h 0x0032 .deferred []))
      ∧ (¬ inService → (∀ i ∈ stops, Posts i s h 0x0032 .fenced (b.nozStates mask))
        ∧ ∀ x ∈ starts, x.2 = true → Posts x.1 s h 0x0032 .fenced (b.nozStates mask)))
    ∧ (Served b h k sectionRow → ∀ (command timing : Byte) (mask : BitVec 96) (odo : BitVec 48),
      command.toNat ≤ 2 → timing.toNat ≤ 1 →
      (∀ n < 96, mask.getLsbD n = true → b.almMode n = 1 ∧ (b.unit (unitNoz n)).state = .active) →
      Posts (.sectionCommand h command timing mask odo) s h 0x0030 .ok [])
    ∧ (Served b h k rateTargetRow → ∀ (product flags : Byte) (scale : BitVec 16) (target : Word),
      product.toNat ≤ 1 → (flags.getLsbD 1 = true → 1 ≤ scale.toNat ∧ scale.toNat ≤ 2000) →
      Posts (.rateTarget h product flags scale target) s h 0x0031 .ok [])
    ∧ (Served b h k driveRow → ∀ (mask : BitVec 16) (duties : List (BitVec 16)),
      (∀ u < 16, mask.getLsbD u = true → (b.unit (unitMot u)).state = driveState k
        ∧ (nth duties u 0).toInt.natAbs ≤ 10000) →
      Posts (.driveCommandStop h mask duties) s h 0x0038 .ok []
        ∧ Posts (.driveCommandCoast h mask duties) s h 0x0038 .ok []
        ∧ Posts (.driveCommandBrake h mask duties) s h 0x0038 .ok []
        ∧ ((∀ u < 16, mask.getLsbD u = true → (b.mot u).seq ≠ .rampDown ∧ (b.mot u).seq ≠ .brake
              ∧ (b.mot u).seq ≠ .fault) → Posts (.driveCommandRun h mask duties) s h 0x0038 .ok []))

/-- Requests that wait, applied in step 2 of a COMMIT (R377). -/
def Obligations.WaitingRequestsActInStepTwo : Prop :=
  ∀ (b0 : Block) (k : Sess) (h : Hdr) (seq arrived at_ : Nat),
    let b : Block := { b0 with posted := [] }
    let after (i : Instr) : Block :=
      ({ b0 with posted := [{ seq := seq, sess := some k, arrived := arrived, act := .req i }] }.stepTwo at_).2
    (∀ p : Posted, b.inTime p.since = false →
      ({ b0 with posted := [p] }.stepTwo at_).2 = { b0 with posted := [p] })
    ∧ (∀ (tai : BitVec 16) (sec : BitVec 64) (ns : Word),
      let t := after (.clockSetSet h tai sec ns)
      t.time.taiUtc = tai.toInt ∧ t.time.utcValid = true ∧ t.time.rtc.valid = b.time.rtc.running
      ∧ (b.sourceOwnsTime = true → t.time.dev = b.time.dev)
      ∧ (b.sourceOwnsTime = false → sec.toNat < 2 ^ 33 → b.time.now ≤ arrived →
        let target : Int := (sec.toNat + 946684800 + tai.toInt) * 1000000000 + ns.toNat
        t.time.dev = ((b.time.dev : Int)
          + divRound (target - (b.time.dev + (arrived - b.time.now : Nat))) 100000 * 100000).toNat))
    ∧ (∀ sec : BitVec 64,
      after (.clockSetLeapInsert h sec) = b.modTime (fun t => { t with leap := some { insert := true, at_ := sec.toNat } })
      ∧ after (.clockSetLeapDelete h sec) = b.modTime (fun t => { t with leap := some { insert := false, at_ := sec.toNat } })
      ∧ after (.clockSetLeapCancel h) = b.modTime (fun t => { t with leap := none }))
    ∧ (∀ p : Sys2Proof.PowerPolicy,
      ∀ i ∈ [Instr.powerPolicySetLtol h p, .powerPolicySetAlarm h p, .powerPolicyDormantNow h p],
        (after i).sessWord k .DEV_LTOL = (if p.setLtol = true then p.ltol else b.sessWord k .DEV_LTOL)
        ∧ (after i).time.rtc.alarmEn = (if p.setAlarm = true then p.alarm != 0 else b.time.rtc.alarmEn)
        ∧ (p.setAlarm = true → (after i).time.rtc.alarm = p.alarm.setWidth 34))
    ∧ (∀ (frame : BitVec 16) (lat lon alt : Word),
      let t := after (.fieldOrigin h frame lat lon alt)
      t.eng.pose.frame = frame ∧ t.eng.pose.frameSet = true ∧ t.eng.pose.originLat = lat
        ∧ t.eng.pose.originLon = lon ∧ t.eng.pose.originAlt = alt ∧ t.gradeNow = 0
        ∧ ∀ f : Fin 128, (b.frame f).state = .valid → t.frame f = {})
    ∧ (∀ (product policy : Byte) (tmo : BitVec 16),
      after (.mapPolicy h product policy tmo)
        = b.setWord .MAP_POLICY product.toNat 0 (fieldAt 16 tmo.toNat ||| fieldAt 0 policy.toNat))
    ∧ (∀ (scope product flags : Byte) (tx ty : Word) (f : Fin 128),
      let t := after (.tileInvalidate h scope product flags tx ty)
      let x := b.frame f
      let named : Prop := scope.toNat = 2 ∨ (scope.toNat < 2 ∧ x.prod = product.toNat
        ∧ (scope = 0 → x.key = { fid := b.prodFid product.toNat, tx := tx.toInt, ty := ty.toInt }))
      b.eng.map.frames.length = 128 →
      (scope.toNat < 3 → ¬ named → t.frame f = x)
      ∧ (named → x.state = .valid ∨ x.state = .filling → t.frame f = {})
      ∧ (named → x.state = .dirty → t.frame f = if flags.getLsbD 0 = true then {} else
          { x with wanted := true, dropped := true })
      ∧ (named → x.state = .writingBack → t.frame f = if flags.getLsbD 0 = true then {} else
          { x with dropped := true }))
    ∧ (∀ (n : Fin 96) (duty : BitVec 16) (ms : Word), (b.unit (unitNoz n)).state = .service →
      let mask : BitVec 96 := BitVec.twoPow 96 n
      let open_ : Force := { pulse := false, duty := duty.toNat, durationMs := ms.toNat }
      let pulse : Force := { pulse := true, duty := 0, durationMs := ms.toNat }
      (∀ i ∈ [Instr.nozzleForceRelease h mask, .nozzleForceClose h mask],
        ((after i).noz n).force = none ∧ ((after i).noz n).queuedForce = none ∧ ((after i).noz n).forceEnd = none)
      ∧ ∀ x ∈ [(Instr.nozzleForceOpen h duty ms mask, open_), (.nozzleForcePulse h ms mask, pulse)],
        ((b.noz n).isQuiet = false → after x.1 = b.modNoz n (fun y => { y with queuedForce := some x.2 }))
        ∧ ((b.noz n).isQuiet = true → b.eng.valve.noz.length = 96 →
          ((after x.1).noz n).force = some x.2 ∧ ((after x.1).noz n).queuedForce = none
          ∧ ((after x.1).noz n).forceEnd = if ms = 0 then none else some (b.now at_ + ms.toNat * 1000000)))
    ∧ (∀ (command timing : Byte) (mask : BitVec 96) (odo : BitVec 48) (n : Fin 96), b.eng.alm.noz.length = 96 →
      let t := after (.sectionCommand h command timing mask odo)
      t.alm n = if mask.getLsbD n = true ∧ (b.unit (unitNoz n)).state = .active then
          { b.alm n with
            ovrOld := (b.alm n).ovrAtOdo b.odoEdge, ovr := command.toNat, ovrDue := true
            staged := (b.alm n).staged.map (fun s => { s with ovrDone := false })
            ovrAt := if timing = 1 then some (b.odoNear odo.toNat).toNat else none }
        else b.alm n)
    ∧ (∀ (product flags : Byte) (scale : BitVec 16) (target : Word), product.toNat ≤ 1 →
      let t := after (.rateTarget h product flags scale target)
      Keeps [] b t
      ∧ KeepsWords [addr .ALM_PROD_TARGET product.toNat, addr .ALM_PROD_SCALE product.toNat] b t
      ∧ t.word .ALM_PROD_TARGET product.toNat
          = (if flags.getLsbD 0 = true then target else b.word .ALM_PROD_TARGET product.toNat)
      ∧ t.fld .ALM_PROD_SCALE product.toNat 10 0
          = (if flags.getLsbD 1 = true then scale.toNat % 2048 else b.fld .ALM_PROD_SCALE product.toNat 10 0))

/-- Measurements of the time source (R50, R52, R53, R55): AS_SYNC_RECEIVED and SYNC_IN_EDGE. -/
def Obligations.MeasurementsDriveTheServo : Prop :=
  ∀ (s : State) (i : Instr) (offset : Int) (at_ : Nat),
    (i = .asSyncReceived offset at_ ∧ s.blk.timeSource = 1 ∧ s.blk.link.portA.up = true
      ∨ (∃ rising, i = .syncInEdge rising at_ ∧ (s.blk.timeSource = 2 ∨ s.blk.timeSource = 3)
        ∧ rising ≠ s.blk.flag .TICK_CTRL 0 4 ∧ offset = s.blk.syncOffset at_)) →
    s.blk.ticking = true → s.blk.time.src = s.blk.timeSource →
    let b := s.blk
    let steps (n : Int) (t : Block) : Prop :=
      t.time.servo = .acquiring ∧ t.time.stepDue = b.time.stepDue - n ∧ t.time.residual = offset - n * 100000
    let whole : Int := if b.timeSource = 2 then 0 else divRound offset 100000
    let same (t : Block) : Prop := t.time.dev = b.time.dev ∧ t.time.count = b.time.count ∧ t.time.now = b.time.now
      ∧ t.time.lastMeas = b.now at_ ∧ Raised 114 b t
    let relays : Prop := i = .asSyncReceived offset at_ ∧ b.flag .LINK_PTP_CFG 0 16 = true
      ∧ b.link.portB.up = true ∧ b.asCapable b.link.portB = true
    let changes (P : Block → Prop) : Prop :=
      (¬ relays → Does i s (.clock :: eventParts) (eventWords [114]) P)
      ∧ (relays → Does i s (.clock :: .relays :: .draws :: eventParts) (eventWords [114]) (fun t => P t
        ∧ ∃ r : Relay, t.link.relays = b.link.relays ++ [r] ∧ r.at_ = b.now at_
          ∧ b.link.portB.linkDelay ≤ r.correction))
    ((b.time.servo = .free ∨ b.time.servo = .holdover) → changes (fun t => steps whole t ∧ same t))
    ∧ (b.time.servo = .acquiring → offset.natAbs ≤ 1000 → b.time.near = 15 → b.time.sat = false →
      changes (fun t => t.time.servo = .locked ∧ same t))
    ∧ (b.time.servo = .locked → 10000 < offset.natAbs → b.time.far = 3 → changes (fun t => steps whole t ∧ same t))

/-- TICK_LOSS_TIMEOUT, HOLDOVER_LIMIT (R52; that a TICK_HOLD_MAX of 0 passes through HOLDOVER is log entry 74's),
    RTC_MINUTE_WRITE (R66), VBAK_LOW (R67). -/
def Obligations.TimeSourceLossAndRealTimeClock : Prop :=
  ∀ (s : State) (at_ : Nat),
    let b := s.blk
    ((b.time.servo = .acquiring ∨ b.time.servo = .locked) →
      b.fld .TICK_LOSS_TMO 0 13 0 * 1000000 ≤ b.now at_ - b.time.lastMeas → b.fld .TICK_HOLD_MAX 0 11 0 ≠ 0 →
      Does (.tickLossTimeout at_) s (.clock :: eventParts) (eventWords [114]) (fun t =>
        t.time = { b.time with servo := .holdover, near := 0, far := 0, freq := meanOf b.time.freqHist
                               holdSince := b.now at_ } ∧ Raised 114 b t))
    ∧ ((b.time.servo = .acquiring ∨ b.time.servo = .locked) →
      b.fld .TICK_LOSS_TMO 0 13 0 * 1000000 ≤ b.now at_ - b.time.lastMeas → b.fld .TICK_HOLD_MAX 0 11 0 = 0 →
      Does (.tickLossTimeout at_) s (.clock :: eventParts) (eventWords [114]) (fun t =>
        t.time = { b.time with servo := .free, near := 0, far := 0, freq := meanOf b.time.freqHist
                               holdSince := b.now at_ }
          ∧ t.word .EVT_CNT 114 = b.word .EVT_CNT 114 + 2))
    ∧ (b.time.servo = .holdover → b.fld .TICK_HOLD_MAX 0 11 0 * 1000000000 ≤ b.now at_ - b.time.holdSince →
      Does (.holdoverLimit at_) s (.clock :: eventParts) (eventWords [114]) (fun t =>
        t.time = { b.time with servo := .free, near := 0, far := 0 } ∧ Raised 114 b t))
    ∧ (b.time.utcValid = true → b.ticking = true → b.devNow at_ % 60000000000 = 0 → b.time.rtc.running = true →
      Does (.rtcMinuteWrite at_) s [.clock] [] (fun t =>
        t.time = { b.time with rtc := { b.time.rtc with
          sec := narrow 34 (stampSeconds (b.devNow at_) b.time.taiUtc), sub := 0
          taiUtc := b.time.taiUtc, since := b.now at_ } }))
    ∧ Does .vbakLow s [.clock] [] (fun t =>
        t.time.rtc.running = false ∧ t.time.rtc.valid = false
          ∧ { t.time with rtc := b.time.rtc } = b.time)

/-- TICK_EDGE (R40, R41, R42, R358, R463) and COMMIT (R17, R30, R44, R47). -/
def Obligations.TickEdgeAndCommit : Prop :=
  ∀ (s : State) (cap : Sys2Proof.Capture) (finish end0 end1 : Nat) (unfinished : List (Fin 96)),
    let b := s.blk
    let edge : Instr := .tickEdge cap
    let commit : Instr := .commit finish unfinished end0 end1
    let replyLeft : Prop := b.link.tx.left [0x0006, 0x0053, 0x0055] b.time.now = true
    let inHand := (b.lookAhead 72000).resume 72000
    (b.ticking = false ∨ b.vig.clockFault = true → Does edge s [] [] (fun t => t = b))
    ∧ (b.ticking = true → b.vig.clockFault = false →
      (b.upd.resetDue = false → b.vig.resetDue = false → b.upd.recovery = false → Gives edge s (fun t =>
        t.time.count = (if b.time.first = true then 0
                        else b.time.count + (if b.eng.pwr.state = .doze ∨ b.time.dozing = true then 10 else 1))
          ∧ t.time.first = false ∧ t.time.closed = false ∧ t.time.finished = false ∧ t.time.stepDue = 0
          ∧ t.pub = b.pub ∧ t.pubTime = b.pubTime ∧ t.pubSup = b.pubSup))
      ∧ (b.upd.resetDue = true → replyLeft → Gives edge s (fun t => Restarted b t .image))
      ∧ (b.upd.resetDue = false → b.vig.resetDue = true → replyLeft → b.mustRevert = false → s.Sound →
        Gives edge s (fun t => Restarted b t .deviceReset)))
    ∧ (b.mayCommit = false → Does commit s [] [] (fun t => t = b))
    ∧ (b.mayCommit = true →
      (950 < finish → Gives commit s (fun t =>
          t = (b.lookAhead 72000).modTime (fun x => { x with closed := true })))
      ∧ (950 < finish → b.eng.alm.due = 0 →
        Does commit s [.clock] [] (fun t => t.time = { b.time with closed := true }))
      ∧ (finish ≤ 950 → dormantAsked inHand.stagedInTime = false →
        Gives commit s (fun t => t.time.closed = true ∧ t.time.finished = true ∧ t.time.run = 0
          ∧ t.time.thisEnd = finish ∧ t.time.count = b.time.count
          ∧ t.fld .TICK_OVR_CNT 0 31 16 =
              (if 880 < finish then min (b.fld .TICK_OVR_CNT 0 31 16 + 1) 65535 else b.fld .TICK_OVR_CNT 0 31 16)
          ∧ (∀ p ∈ t.posted, t.inTime p.since = false) ∧ (∀ r ∈ t.vig.reqs, t.inTime r.since = false)
          ∧ ((∀ q : Fin 4, b.queue q = []) → t.pub = t.eng ∧ t.pubTime = t.time ∧ t.pubSup = t.sup))))

/-- Counting on a PULSE axis (R80, R82, R91): FB_EDGE_ACCEPTED; AXIS_STOP_TIMEOUT. -/
def Obligations.PulseAxisCountsAndStops : Prop :=
  ∀ (s : State) (a : Fin 32) (levels : BitVec 49) (held : Nat) (cycles : List (Fin 8 × Nat)) (at_ : Nat), s.Sound →
    let b := s.blk
    let old := b.eng.fb.levels
    let edge : Instr := .fbEdgeAccepted ⟨levels, held, cycles⟩ at_
    let parts := [BlockPart.feedback, BlockPart.motors, BlockPart.unitReqs, BlockPart.hand] ++ eventParts
    let words := eventWords [32, 33, 35, 36, 38] ++ (List.range 32).map (fun a => addr .AXIS_ERR_CNT a)
      ++ (List.range 16).map (fun u => addr .MDRV_CNT1 u) ++ (List.range 16).map (fun u => addr .MDRV_COMM_CNT u)
    (b.ticking = true → Does edge s parts words (fun t => ∀ i < 49, levelOf t.eng.fb.levels i =
      if b.isVr i = true then false
      else if b.filter i ≤ held then levels.getLsbD i != (decide (i < 48) && b.flag .FB_CFG i 14)
      else old.getLsbD i))
    ∧ (b.ticking = true → b.axisType a = 3 → b.fld .AXIS_CFG a 10 9 = 0 → b.flag .AXIS_CFG a 8 = false →
      b.rotary a = false → (b.axis a).pending = none → (b.axis a).dir ≠ some false →
      levelOf old (b.inA a) = false → levelOf (b.accepted old levels held (b.vrCounts cycles)) (b.inA a) = true →
      ((b.axis a).pos < b.sfld .AXIS_LIM_HI a 31 0 →
        Does edge s parts words (fun t =>
          (t.axis a).pos = (b.axis a).pos + 1 ∧ (t.axis a).dir = some true ∧ (t.axis a).stop = false
            ∧ (t.axis a).lastCount = b.now at_))
      ∧ (b.sfld .AXIS_LIM_HI a 31 0 ≤ (b.axis a).pos →
        Does edge s parts words (fun t =>
          (t.axis a).pos = (b.axis a).pos ∧ (t.axis a).atHi = true ∧ (t.axis a).lastCount = b.now at_
            ∧ t.fld .AXIS_ERR_CNT a 31 24 = min (b.fld .AXIS_ERR_CNT a 31 24 + 1) 255)))
    ∧ (b.fld .AXIS_SPD_CFG a 10 0 * 1000000 ≤ b.now at_ - (b.axis a).lastCount →
      Does (.axisStopTimeout a at_) s [.feedback] [] (fun t =>
        t.axis a = { b.axis a with hist := [], histPos := [], stop := true, starting := false }
          ∧ KeepsRows a.val b.eng.fb.axes t.eng.fb.axes
          ∧ { t.eng.fb with axes := b.eng.fb.axes } = b.eng.fb))

/-- Serial sensor ports (R96, R97, R99): SENT_FRAME, SSI_FRAME, SPORT_LOSS_TIMEOUT. -/
def Obligations.SerialPortFrames : Prop :=
  ∀ (s : State) (p : Fin 4) (at_ : Nat), s.Sound →
    let b := s.blk
    let parts := BlockPart.feedback :: eventParts
    let words := eventWords [33, 34] ++ (List.range 32).map (fun a => addr .AXIS_ERR_CNT a)
    let good (t : Block) (word stamp : Nat) : Prop :=
      (t.port p).word = BitVec.ofNat 32 word ∧ (t.port p).good = true ∧ (t.port p).lost = false
        ∧ (t.port p).badRun = 0 ∧ (t.port p).stamp = stamp ∧ KeepsRows p.val b.eng.fb.ports t.eng.fb.ports
    (∀ (status crc : Nat) (data : List Nat),
      let tick := b.fld .SP_CFG p 31 24 * 500
      b.fld .SP_CFG p 1 0 = 1 → 0 < tick → data.length = b.fld .SP_CFG p 10 8 →
      (∀ v ∈ status :: crc :: data, v < 16) → crc = sentCrc (b.flag .SP_CFG p 5) data →
      ((b.port p).lastSync = none ∨ (b.port p).lastSync = some (56 * tick)) →
      Does (.sentFrame p (56 * tick) ((status :: data ++ [crc]).map (fun v => (v + 12) * tick)) at_) s parts words
        (fun t => good t (data.foldl (fun acc d => acc * 16 + d) 0)
            (b.now at_ - (56 * tick + ((status :: data ++ [crc]).map (fun v => (v + 12) * tick)).sum))
          ∧ (t.port p).status = status))
    ∧ (∀ raw : Word, b.fld .SP_CFG p 1 0 = 2 → b.fld .SP_CFG p 4 3 = 0 →
      let w := raw.toNat % 2 ^ b.fld .SP_CFG p 21 16
      Does (.ssiFrame p true raw) s parts words (fun t =>
        good t (if b.flag .SP_CFG p 2 then grayToBinary 32 w else w)
          (b.now 99000 - b.fld .SP_CFG p 21 16 * 20 * b.fld .SP_CFG p 31 24))
      ∧ ((b.port p).badRun + 1 < b.fld .SP_FIELD p 23 16 →
        Does (.ssiFrame p false raw) s [.feedback] [addr .SP_ERR p] (fun t =>
          t.port p = { b.port p with badRun := (b.port p).badRun + 1 }
            ∧ t.fld .SP_ERR p 23 16 = min (b.fld .SP_ERR p 23 16 + 1) 255)))
    ∧ (b.fld .SP_CFG p 1 0 ≠ 0 → (b.port p).lost = false →
      b.fld .SP_FIELD p 31 24 * 1000000 ≤ b.now at_ - (b.port p).stamp →
      Does (.sportLossTimeout p at_) s parts (words ++ [addr .SP_ERR p]) (fun t =>
        t.port p = { b.port p with lost := true } ∧ (∀ a ∈ b.portAxes p, (t.axis a).sensorLost = true)
          ∧ (∀ a < 32, a ∉ b.portAxes p → t.axis a = b.axis a)))

/-- MSG axes (R103): TRACTOR_SPEED_MSG and MSG_TIMEOUT. -/
def Obligations.TractorSpeedMessages : Prop :=
  ∀ (s : State) (ground : Bool) (at_ : Nat), s.Sound →
    let b := s.blk
    let parts := BlockPart.feedback :: eventParts
    let words := eventWords [33, 34] ++ (List.range 32).map (fun a => addr .AXIS_ERR_CNT a)
    (∀ (source : Byte) (speed : BitVec 16) (distance : Word) (forward : Bool),
      b.flag .CANB_CFG 0 0 = true → (b.fld .MSG_CFG 0 23 16 = 255 ∨ b.fld .MSG_CFG 0 23 16 = source.toNat) → speed.toNat < 0xFE00 →
      let sign : Int := if forward then 1 else -1
      Does (.tractorSpeedMsg ground source speed distance (if forward then 1 else 0) at_) s parts words (fun t =>
        t.eng.fb.msgForward = some forward
        ∧ (∀ a < 32, a ∉ b.msgAxes ground → t.axis a = b.axis a)
        ∧ ∀ a ∈ b.msgAxes ground, b.flag .AXIS_CFG a 8 = false →
          (t.axis a).msgSpeed = sign * (speed.toNat * 1000) ∧ (t.axis a).dir = some forward
            ∧ (t.axis a).lastMsg = b.now at_ ∧ (t.axis a).sensorLost = false ∧ (t.axis a).dirUnknown = false
            ∧ (t.axis a).prevField = distance.toNat
            ∧ let d := ((distance.toNat : Int) - (b.axis a).prevField) % distanceRange
              ((b.axis a).sampled = true → b.rotary a = false → (b.axis a).pos + d ≤ b.sfld .AXIS_LIM_HI a 31 0 →
                (t.axis a).pos = (b.axis a).pos + d)))
    ∧ (∀ (source : Byte) (speed : BitVec 16) (distance : Word) (direction : BitVec 2), b.flag .CANB_CFG 0 0 = false →
      Does (.tractorSpeedMsg ground source speed distance direction at_) s [] [] (fun t => t = b))
    ∧ Does (.msgTimeout ground at_) s parts words (fun t =>
        ∀ a < 32, t.axis a =
          if a ∈ b.msgAxes ground ∧ (b.axis a).sensorLost = false
              ∧ b.fld .MSG_CFG 0 15 0 * 1000000 ≤ b.now at_ - (b.axis a).lastMsg then
            { b.axis a with sensorLost := true, msgSpeed := 0 }
          else b.axis a)

/-- BRIDGE_TIMEOUT (R111), IMU_SAMPLE and IMU_SAMPLE_TIMEOUT (R113), FIX_TIMEOUT (R131). -/
def Obligations.PoseTimeoutsAndInertialSamples : Prop :=
  ∀ (s : State) (at_ : Nat),
    let b := s.blk
    let p := b.eng.pose
    (p.bridge = true → p.enabled = true → p.travelLost = false →
      b.fld .POSE_BRIDGE 0 15 0 * 1000000 ≤ b.now at_ - p.bridgeSince →
      Does (.bridgeTimeout at_) s (.pose :: eventParts) (eventWords [42]) (fun t =>
        t.eng.pose = { p with bridge := false, bridgeEnded := true, travelLost := true, now := { p.now with v := 0 } }
          ∧ Raised 42 b t))
    ∧ (∀ sample, p.imuFault = false ∨ p.enabled = false →
      Does (.imuSample sample at_) s [.pose] [] (fun t =>
        t.eng.pose = { p with imu := sample, imuAt := b.now at_ }))
    ∧ (∀ sample, p.imuFault = true → p.enabled = true →
      Does (.imuSample sample at_) s (.pose :: eventParts) (eventWords [43]) (fun t =>
        t.eng.pose = { p with imu := sample, imuAt := b.now at_, imuFault := false } ∧ Raised 43 b t))
    ∧ (∀ failed, failed = true ∨ 5000000 ≤ b.now at_ - p.imuAt → p.imuFault = false → p.enabled = true →
      Does (.imuSampleTimeout failed at_) s (.pose :: eventParts) (eventWords [43]) (fun t =>
        t.eng.pose = { p with bridge := false, sway := 0, psi := 0, swaySat := false, imuFault := true }
          ∧ Raised 43 b t))
    ∧ (∀ failed, p.enabled = false → Does (.imuSampleTimeout failed at_) s [] [] (fun t => t = b))
    ∧ (p.enabled = true → b.fld .POSE_FIX_CFG 0 27 16 * 10000000 ≤ b.now at_ - p.lastFixNow → b.gradeNow ≠ 0 →
      Does (.fixTimeout at_) s (.pose :: eventParts) (eventWords [39]) (fun t =>
        t.eng.pose = { p with stale := true, grade := 1 } ∧ (p.grade ≠ 1 → Raised 39 b t)))

/-- POSE_FIX, POSE_AIDING (R116, R117, R118, R518). -/
def Obligations.PoseFixesAndAiding : Prop :=
  ∀ (s : State) (h : Hdr) (k : Sess) (f : Sys2Proof.PoseFix) (time : BitVec 64) (items : List Sys2Proof.AidItem),
    let b := s.blk
    let p := b.eng.pose
    let tick := b.time.count
    let fixed : Prop := 0 < f.headingSigma.toNat ∧ 0 < f.posSigma.toNat ∧ f.posSigma.toNat < 0xFFFF
      ∧ (f.speed ≠ 0x80000000 → 0 < f.speedSigma.toNat) ∧ f.quality.toNat ≤ 4
    let aided : Prop := ∀ i ∈ items, 1 ≤ i.kind.toNat ∧ i.kind.toNat ≤ 4 ∧ (i.kind.toNat ≠ 4 → 0 < i.sigma.toNat)
    let refused (i : Instr) (op : BitVec 16) (st : Status) : Prop :=
      Serves i s h op st tick [] [] [] (fun _ => True)
    (Served b h k poseFixRow →
      (p.enabled = true →
        (fixed →
          (p.fixes.length < 4 → Serves (.poseFix h f) s h 0x0020 .ok tick [] [.pose] [] (fun t =>
            t.eng.pose = { p with fixes := p.fixes ++ [f] }))
          ∧ (4 ≤ p.fixes.length → refused (.poseFix h f) 0x0020 .busy))
        ∧ (¬ fixed → refused (.poseFix h f) 0x0020 .range))
      ∧ (p.enabled = false → refused (.poseFix h f) 0x0020 .denied))
    ∧ (Served b h k poseAidingRow →
      (p.enabled = true →
        (aided →
          (p.aids.length < 4 → Serves (.poseAiding h time items) s h 0x0021 .ok tick [] [.pose] [] (fun t =>
            t.eng.pose = { p with aids := p.aids ++ [{ time := time.toNat, items := items }] }))
          ∧ (4 ≤ p.aids.length → refused (.poseAiding h time items) 0x0021 .busy))
        ∧ (¬ aided → refused (.poseAiding h time items) 0x0021 .range))
      ∧ (p.enabled = false → refused (.poseAiding h time items) 0x0021 .denied))

/-- MAP_FAULT_TMO (R145), TILE_FAULT_RESEND, FAULT_SLOT_RELEASE (R146), FILL_TIMEOUT (R143, R159). -/
def Obligations.MissingTilesAndAbandonedFills : Prop :=
  ∀ (s : State) (at_ : Nat),
    let b := s.blk
    let m := b.eng.map
    let fault (slot : Fin 16) (f : TileFault) : Bytes :=
      leBytes 1 slot ++ leBytes 1 f.prod ++ leBytes 1 f.key.fid
        ++ leBytes 1 (1 + (if f.poison then 2 else 0) + (if f.timedOut then 4 else 0))
        ++ leBytes 4 (narrow 32 f.key.tx) ++ leBytes 4 (narrow 32 f.key.ty) ++ leBytes 4 f.tick.toNat
        ++ leBytes 4 f.seq.toNat
    (∀ (p : Fin 2) (tx ty : Int) (w : KeyWait),
      let k : Key := { fid := b.prodFid p, tx := tx, ty := ty }
      b.waitOf p k = some w → w.timedOut = false → b.parkedOn p k = true →
      b.fld .MAP_POLICY p 26 16 * 1000000 ≤ b.now at_ - w.since →
      Does (.mapFaultTmo p tx ty at_) s (.map :: eventParts) (addr .MAP_CNT_FAULT :: eventWords [55]) (fun t =>
        Raised 55 b t ∧ t.fld .MAP_CNT_FAULT 0 31 16 = min (b.fld .MAP_CNT_FAULT 0 31 16 + 1) 65535
          ∧ t.waitOf p k = some { w with timedOut := true }
          ∧ t.eng.map.faults = m.faults.map (fun x => x.map (fun f =>
              if f.key = k then { f with timedOut := true } else f))
          ∧ { t.eng.map with waits := m.waits, faults := m.faults } = m))
    ∧ (∀ (slot : Fin 16) (f : TileFault), nth m.faults slot none = some f →
      (b.fld .MAP_CFG 0 11 8 * 10000000 ≤ b.now at_ - f.lastSent →
        Does (.tileFaultResend slot at_) s [.map, .sent] [] (fun t =>
          t.link.sent = b.link.sent ++ ownPackets b .main 0x0081 0 [fault slot f]
            ∧ t.eng.map = { m with faults := modNth m.faults slot (fun _ =>
                some { f with lastSent := b.now at_ }) }))
      ∧ (b.faultOf f.key = some slot.val → 500000000 ≤ b.now at_ - f.lastUse →
        b.parkedOn 0 f.key = false → b.parkedOn 1 f.key = false →
        Does (.faultSlotRelease slot at_) s [.map] [] (fun t =>
          t.eng.map = { m with faults := modNth m.faults slot (fun _ => none)
                               replay := m.replay.filter (fun r => r.key ≠ f.key) })))
    ∧ (∀ f : Fin 128, (b.frame f).state = .filling → (b.frame f).doneAt = none →
      b.fld .MAP_CFG 0 7 0 * 1000000 ≤ b.now at_ - (b.frame f).since →
      Does (.fillTimeout f at_) s (.map :: .sent :: eventParts) (addr .MAP_CNT_FILL :: eventWords [56]) (fun t =>
        Raised 56 b t ∧ t.fld .MAP_CNT_FILL 0 7 0 = min (b.fld .MAP_CNT_FILL 0 7 0 + 1) 255
          ∧ t.frame f = {} ∧ KeepsRows f.val m.frames t.eng.map.frames
          ∧ t.eng.map.replay = m.replay.filter (fun r => r.key ≠ (b.frame f).key)
          ∧ (b.faultOf (b.frame f).key = none → t.link.sent = b.link.sent)
          ∧ ∀ (slot : Fin 16) (x : TileFault), nth m.faults slot none = some x →
              b.faultOf (b.frame f).key = some slot.val →
              t.link.sent = b.link.sent ++ ownPackets b .main 0x0081 0 [fault slot x]))

/-- COVERAGE_WRITE (R153 to R155), FRAME_SCRUB and ECC_UNCORRECTABLE of the tile cache (R143, R159). -/
def Obligations.CoverageAndPoisonedFrames : Prop :=
  ∀ (s : State) (at_ : Nat),
    let b := s.blk
    let m := b.eng.map
    let raised (seg : Segment) (x : Frame) (cell : Nat) : Frame :=
      { x with cells := x.cells.modify cell raiseCov, seq := seqMax seg.seq x.seq
               raised := x.raised + 1, raisedNew := x.raisedNew + 1 }
    (20000 ≤ at_ → at_ < 72000 → Does (.coverageWrite at_) s [] [] (fun t => t = b))
    ∧ (at_ < 20000 ∨ 72000 ≤ at_ →
      Gives (.coverageWrite at_) s (fun t => t = (b.lookAhead at_).coverNext at_))
    ∧ (∀ seg rest, m.queue = seg :: rest → at_ < 20000 ∨ 72000 ≤ at_ ∧ b.eng.alm.due = 0 →
      Does (.coverageWrite at_) s (.map :: eventParts)
        (addr .MAP_CNT_FILL :: addr .MAP_CNT_COV :: eventWords [56]) (fun t =>
          t = (seg.cells (b.cellMm seg.prod)).foldl (fun acc c => acc.writeCell seg c at_)
            { b with eng := { b.eng with map := { m with queue := rest } } })
      ∧ ∀ (c : Int × Int) (f : Nat), seg.cells (b.cellMm seg.prod) = [c] →
        b.coverOf (cellPlace (b.prodFid seg.prod) c).1 = some f → (b.frame f).state = .dirty →
        Does (.coverageWrite at_) s [.map] [] (fun t =>
          t.frame f = raised seg (b.frame f) (cellPlace (b.prodFid seg.prod) c).2 ∧ t.eng.map.queue = rest
            ∧ KeepsRows f m.frames t.eng.map.frames))
    ∧ (∀ (seg : Segment) (c : Int × Int),
      let key : Key := { fid := b.prodFid seg.prod, tx := c.1 / 128, ty := c.2 / 128 }
      let cell := (c.2 % 128).toNat * 128 + (c.1 % 128).toNat
      let t := b.writeCell seg c at_
      (∀ f, b.coverOf key = some f → b.fillOf key = none →
        let x := b.frame f
        let y := raised seg x cell
        (x.state = .valid → t.frame f = { y with state := .dirty, since := b.now at_, wanted := false })
        ∧ (x.state = .dirty → t.frame f = y) ∧ (x.state = .writingBack → t.frame f = { y with redirty := true })
        ∧ KeepsRows f m.frames t.eng.map.frames ∧ t.regs = b.regs)
      ∧ (b.coverOf key = none → ((b.fillOf key).isSome ∨ (b.faultOf key).isSome) → m.replay.length < 4096 →
        t.eng.map = { m with replay := m.replay ++ [{ prod := seg.prod, key := key, cell := cell, seq := seg.seq }] }
          ∧ t.regs = b.regs)
      ∧ (b.coverOf key = none → b.fillOf key = none → b.faultOf key = none →
        t.eng = b.eng ∧ t.fld .MAP_CNT_COV 0 15 0 = min (b.fld .MAP_CNT_COV 0 15 0 + 1) 65535))
    ∧ ∀ f : Fin 128, s.Sound →
      let x := b.frame f
      let lost (t : Block) : Prop :=
        Raised 58 b t ∧ t.frame f = { state := .poisoned, prod := x.prod, key := x.key, age := x.age, seq := x.seq }
          ∧ (∀ e ∈ t.eng.map.tlb, e.valid = true → e.frame ≠ f.val)
          ∧ (x.retired = none → t.eng.map.lost = (x.key, x.ackSeq) :: m.lost)
          ∧ KeepsRows f.val m.frames t.eng.map.frames
      (x.state ≠ .poisoned ∨ x.dead = true → Does (.frameScrub f true at_) s [] [] (fun t => t = b))
      ∧ (x.state = .free ∨ (x.state = .poisoned ∧ x.dead = true) →
        Does (.frameScrub f false at_) s [] [] (fun t => t = b))
      ∧ (x.state = .filling →
        Does (.frameScrub f false at_) s (.map :: .sent :: eventParts) (addr .MAP_CNT_FILL :: eventWords [58]) (fun t =>
          Raised 58 b t ∧ t.frame f = { state := .poisoned, prod := x.prod, key := x.key, age := x.age }
            ∧ t.fld .MAP_CNT_FILL 0 7 0 = min (b.fld .MAP_CNT_FILL 0 7 0 + 1) 255
            ∧ KeepsRows f.val m.frames t.eng.map.frames))
      ∧ (x.state = .poisoned → x.dead = false →
        Does (.frameScrub f true at_) s [.map] [] (fun t =>
          t.frame f = {} ∧ { t.eng.map with frames := m.frames } = m ∧ KeepsRows f.val m.frames t.eng.map.frames)
        ∧ Does (.frameScrub f false at_) s (.map :: eventParts) (eventWords [58]) (fun t =>
          Raised 58 b t ∧ t.frame f = { x with dead := true } ∧ KeepsRows f.val m.frames t.eng.map.frames))
      ∧ (x.state = .valid ∨ x.state = .dirty ∨ x.state = .writingBack →
        Does (.frameScrub f false at_) s (.map :: eventParts) (eventWords [58]) lost
        ∧ (b.powered = true →
          Does (.eccUncorrectable (.tileCache f)) s (.map :: eventParts) (eventWords [58]) lost))

/-- DIRTY_AGE_EXPIRY, WRITEBACK_START (R156), WRITEBACK_TIMEOUT (R157). -/
def Obligations.Writebacks : Prop :=
  ∀ (s : State) (at_ : Nat), s.Sound →
    let b := s.blk
    let m := b.eng.map
    let chunks (tag : Nat) (w : Writeback) : List Packet :=
      ownPackets b .main 0x0082 2 ((List.range 32).map (fun c =>
        leBytes 1 tag ++ leBytes 1 w.prod ++ leBytes 1 c ++ leBytes 1 w.key.fid ++ leBytes 4 (narrow 32 w.key.tx)
          ++ leBytes 4 (narrow 32 w.key.ty) ++ leBytes 4 w.seq.toNat ++ leBytes 2 w.frameId.toNat ++ leBytes 6 0
          ++ w.cells.bytes c))
    (∀ f : Fin 128, (b.frame f).state = .dirty →
      (b.fld .MAP_CFG 0 31 24 * 1000000000 ≤ b.now at_ - (b.frame f).since →
        Does (.dirtyAgeExpiry f at_) s [.map] [] (fun t =>
          t.eng.map = { m with frames := modNth m.frames f (fun x => { x with wanted := true }) }))
      ∧ (∀ tag, tag < 4 → nth m.buffers tag none = none → (∀ i < tag, nth m.buffers i none ≠ none) →
        (b.frame f).wanted = true → b.segmentsTouch (b.frame f).prod (b.frame f).key = false →
        let x := b.frame f
        let w : Writeback := { frame := some f, prod := x.prod, key := x.key, seq := x.seq
                               frameId := x.retired.getD b.eng.pose.frame, cells := x.cells, lastSent := b.now at_ }
        Does (.writebackStart f at_) s [.map, .sent] [] (fun t =>
          t.link.sent = b.link.sent ++ chunks tag w
            ∧ t.eng.map = { m with
                buffers := modNth m.buffers tag (fun _ => some w)
                frames := modNth m.frames f (fun x => { x with
                  state := .writingBack, redirty := false, wanted := false, raisedNew := 0 }) })))
    ∧ ∀ (tag : Fin 4) (w : Writeback), nth m.buffers tag none = some w →
      b.isOpen .main = true → b.fld .MAP_CFG 0 23 16 * 10000000 ≤ b.now at_ - w.lastSent →
      (w.resends < 3 →
        Does (.writebackTimeout tag at_) s [.map, .sent] [addr .MAP_CNT_WB] (fun t =>
          t.link.sent = b.link.sent ++ chunks tag w
            ∧ t.fld .MAP_CNT_WB 0 15 8 = min (b.fld .MAP_CNT_WB 0 15 8 + 1) 255
            ∧ t.eng.map = { m with buffers := modNth m.buffers tag (fun _ =>
                some { w with resends := w.resends + 1, lastSent := b.now at_ }) }))
      ∧ (∀ f : Fin 128, 3 ≤ w.resends → w.frame = some f.val → (b.frame f).state = .writingBack →
        Does (.writebackTimeout tag at_) s (.map :: eventParts) (addr .MAP_CNT_WB :: eventWords [57]) (fun t =>
          Raised 57 b t ∧ t.fld .MAP_CNT_WB 0 7 0 = min (b.fld .MAP_CNT_WB 0 7 0 + 1) 255
            ∧ t.eng.map = { m with
                buffers := modNth m.buffers tag (fun _ => none)
                frames := modNth m.frames f (fun x => { x with
                  state := .dirty, since := b.now at_, redirty := false, wanted := x.retired.isSome || x.dropped }) }))

/-- TILE_DATA (R138, R148, R149), TILE_WRITEBACK_ACK (R157). -/
def Obligations.TileDataAndAcknowledgements : Prop :=
  ∀ (s : State) (h : Hdr) (k : Sess),
    let b := s.blk
    let m := b.eng.map
    let now := max (b.now h.at_) b.time.now
    (∀ (product chunk fid : Byte) (tx ty seq : Word) (data : Bytes) (cell : BitVec 16),
      let key : Key := { fid := fid.toNat, tx := tx.toInt, ty := ty.toInt }
      let const : Instr := .tileDataConst h product chunk fid tx ty seq cell
      let tile : Instr := .tileDataTile h product chunk fid tx ty seq data
      (∀ f, b.dirtyOf key = none →
        (b.fillOf key = some f
          ∨ (b.fillOf key = none ∧ b.framesIn .filling < 16 ∧ b.findFrame (fun x => x.state == .free) = some f)) →
        let x : Frame := if (b.frame f).state = .filling then b.frame f
          else { state := .filling, prod := product.toNat, key := key }
        let stores (i : Instr) (y : Frame) : Prop :=
          Serves i s h 0x0028 .ok b.time.count [] [.map] [] (fun t =>
            t.eng.map = { m with frames := modNth m.frames f (fun _ => y) })
        let bit : Word := BitVec.ofNat 32 (2 ^ chunk.toNat)
        (Served b h k (tileDataRow 1048) → b.chunkOk product chunk fid tx.toInt ty.toInt 32 = true →
          x.doneAt = none →
          stores tile { x with
            cells := { x.cells with chunks := modNth x.cells.chunks chunk.toNat (fun _ => cellsOf 512 data) }
            stored := x.stored ||| bit, seq := seq, since := now
            doneAt := if x.stored ||| bit = 0xFFFFFFFF then some now else none })
        ∧ (Served b h k (tileDataRow 28) → b.chunkOk product chunk fid tx.toInt ty.toInt 1 = true →
          x.doneAt = none →
          stores const { x with cells := { fill := cell }, stored := x.stored ||| 1, seq := seq, since := now
                                doneAt := some now }))
      ∧ (∀ f, b.dirtyOf key = some f →
        let busy (i : Instr) : Prop :=
          Serves i s h 0x0028 .busy b.time.count [] [.map] [addr .MAP_CNT_FILL] (fun t =>
            t.fld .MAP_CNT_FILL 0 15 8 = min (b.fld .MAP_CNT_FILL 0 15 8 + 1) 255
              ∧ t.frame f = { b.frame f with wanted := (b.frame f).state = .dirty ∨ (b.frame f).wanted = true })
        (Served b h k (tileDataRow 1048) → b.chunkOk product chunk fid tx.toInt ty.toInt 32 = true → busy tile)
        ∧ (Served b h k (tileDataRow 28) → b.chunkOk product chunk fid tx.toInt ty.toInt 1 = true → busy const)))
    ∧ (∀ (product chunk : Byte) (data : Bytes), Served b h k (tileDataRow 1048) →
      product.toNat < 2 → chunk.toNat < 16 → b.prodOn product.toNat = true →
      (nth m.shadows product.toNat {}).doneAt = none →
      let chunks := modNth (nth m.shadows product.toNat {}).chunks chunk.toNat (fun _ => wordsOf 256 data)
      Serves (.tileDataRateTable h product chunk data) s h 0x0028 .ok b.time.count [] [.map] [] (fun t =>
        t.eng.map = { m with shadows := modNth m.shadows product.toNat (fun _ =>
          { chunks := chunks, doneAt := if chunks.all (fun c => !c.isEmpty) then some now else none }) }))
    ∧ ∀ (tag : Byte) (missing : Word) (w : Writeback), Served b h k writebackAckRow →
      nth m.buffers tag.toNat none = some w →
      (∀ f : Fin 128, w.frame = some f.val → (b.frame f).state = .writingBack → (b.frame f).retired = none →
        (b.frame f).dropped = false →
        Serves (.tileWritebackAck h tag 0xFFFFFFFF) s h 0x002A .ok b.time.count [] [.map] [addr .MAP_CNT_WB]
          (fun t => t.fld .MAP_CNT_WB 0 31 16 = min (b.fld .MAP_CNT_WB 0 31 16 + 1) 65535
            ∧ t.eng.map = { m with
                buffers := modNth m.buffers tag.toNat (fun _ => none)
                frames := modNth m.frames f (fun x =>
                  if x.redirty then
                    { x with state := .dirty, redirty := false, since := now, ackSeq := w.seq, raised := x.raisedNew }
                  else { x with state := .valid, ackSeq := w.seq, raised := 0 }) }))
      ∧ (missing ≠ 0xFFFFFFFF →
        Serves (.tileWritebackAck h tag missing) s h 0x002A .ok b.time.count [] [.map] [addr .MAP_CNT_WB]
          (fun t => t.fld .MAP_CNT_WB 0 15 8 = min (b.fld .MAP_CNT_WB 0 15 8 + 1) 255
            ∧ t.eng.map = { m with buffers := modNth m.buffers tag.toNat (fun _ =>
                some { w with lastSent := now }) }))

/-- COMPARE_CROSSING (R180, R184, R185) with its delivery (R186, R187), and PIN_PULSE_END. -/
def Obligations.LaneEntriesFire : Prop :=
  ∀ (s : State) (l : Fin 160) (at_ : Nat), s.Sound → s.blk.vig.dbg ≠ .halted →
    let b := s.blk
    let fired (e : Eve) (ref : Nat) : Lane :=
      { b.lane l with
        eves := if e.repeats then (b.lane l).eves else (b.lane l).eves.filter (fun x => x.order != e.order)
        lastAct := e.act, fireTime := b.devNow at_, capt := BitVec.ofNat 32 ref }
    let pinActs (e : Eve) (t : Block) : Prop :=
      let p := nth b.eng.alm.pins (l - 120) {}
      let q := nth t.eng.alm.pins (l - 120) {}
      (e.act = 4 → q = { level := true }) ∧ (e.act = 5 → q = { level := false })
        ∧ (e.act = 6 → q = { level := !p.level })
        ∧ (e.act = 7 → q = { level := true, pulseEnd := some (b.now at_ + e.param * 1000) })
        ∧ KeepsRows (l - 120) b.eng.alm.pins t.eng.alm.pins
    exec (.compareCrossing l at_) s = exec (.compareCrossing l at_) { s with blk := b.lookAhead at_ }
    ∧ (∀ (e : Eve), at_ < 20000 ∨ b.eng.alm.due = 0 → (b.laneRef l = .odometer ∨ b.laneRef l = .time) →
      let ref := b.refAt (b.laneRef l) at_
      (b.lane l).eves.filter (fun x => reached ref x.pos) = [e] →
      ((b.lane l).current e (b.now at_) = false ∨ b.laneMayFire l = false →
        Does (.compareCrossing l at_) s [.almanac] [addr .CMP_CNT l] (fun t =>
          t.eng.alm = { b.eng.alm with lanes := modNth b.eng.alm.lanes l (fun x =>
              { x with eves := x.eves.filter (fun x => x.order != e.order) }) }
            ∧ t.fld .CMP_CNT l 23 16 = min (b.fld .CMP_CNT l 23 16 + 1) 255))
      ∧ ((b.lane l).current e (b.now at_) = true → b.laneMayFire l = true →
        (120 ≤ l.val → l.val < 128 →
          Does (.compareCrossing l at_) s [.almanac] [addr .CMP_CNT l] (fun t =>
            t.lane l = fired e ref ∧ KeepsRows l.val b.eng.alm.lanes t.eng.alm.lanes ∧ pinActs e t
              ∧ t.fld .CMP_CNT l 15 0 = min (b.fld .CMP_CNT l 15 0 + 1) 65535))
        ∧ (l.val < 96 → e.act = 1 → e.want = none → e.firm = false → (b.noz l).seq = .quiet →
          (b.noz l).stuck = false → (b.noz l).on = false →
          Does (.compareCrossing l at_) s [.almanac, .valve] [addr .CMP_CNT l] (fun t =>
            t.lane l = fired e ref ∧ t.fld .CMP_CNT l 15 0 = min (b.fld .CMP_CNT l 15 0 + 1) 65535
              ∧ (t.alm l).flights = (b.alm l).flights.filter (fun g => g.act != .opens)
                  ++ [{ b.flightOf l e .opens at_ with baseBefore :=
                    (((b.alm l).flights.find? (fun g => g.act == .opens)).map (·.baseBefore)).getD (b.alm l).base }]
              ∧ (t.alm l).base = e.tp
              ∧ (t.noz l).seq = .wait ∧ (t.noz l).waitFrom = b.now at_ ∧ (t.noz l).pull = .leadIn
              ∧ KeepsRows l.val b.eng.valve.noz t.eng.valve.noz))))
    ∧ (∀ (e : Eve) (a : Nat) (st : AxisStep), at_ < 20000 ∨ b.eng.alm.due = 0 → b.laneRef l = .axis a → 120 ≤ l.val → l.val < 128 →
      (b.axis a).steps.filter (fun x => x.at_ == b.now at_ && decide ((b.lane l).seen < x.no)) = [st] →
      b.fld .CMP_CFG l 9 8 ≠ 1 → b.rotary a = false → st.to_ = st.from_ + 1 →
      (b.lane l).eves = [e] → (e.pos : Int) = st.to_ → e.pos < 2 ^ 47 →
      (b.lane l).current e (b.now at_) = true → b.laneMayFire l = true → e.repeats = false →
      Does (.compareCrossing l at_) s [.almanac] [addr .CMP_CNT l] (fun t =>
        t.lane l = { fired e e.pos with seen := st.no } ∧ pinActs e t
          ∧ t.fld .CMP_CNT l 15 0 = min (b.fld .CMP_CNT l 15 0 + 1) 65535))
    ∧ ∀ (p : Fin 8) (end_ : Nat), (nth b.eng.alm.pins p {}).pulseEnd = some end_ → end_ ≤ b.now at_ →
      Does (.pinPulseEnd p at_) s [.almanac] [] (fun t =>
        t.eng.alm = { b.eng.alm with pins := modNth b.eng.alm.pins p (fun _ => { level := false }) })

/-- TRACK_RECORD_DUE (R193), AS_APPLIED_SEND (R195). -/
def Obligations.AsAppliedRecords : Prop :=
  ∀ (s : State) (at_ : Nat), s.Sound →
    let b := s.blk
    let a := b.eng.alm
    (∀ p : Fin 2, b.anyOn p = true →
      let k := nth a.tracks p {}
      (b.fld .ALM_AA_CFG 0 15 0 * 100 ≤ b.odoEdge - k.odo
        ∨ b.fld .ALM_AA_CFG 0 23 16 * 10000000 ≤ b.time.now - k.at_) →
      Does (.trackRecordDue p at_) s ([BlockPart.almanac, BlockPart.map] ++ eventParts)
        ([addr .ALM_AA_STAT, addr .MAP_CNT_COV] ++ eventWords [53, 59]) (fun t =>
        t.eng.alm.next = seqNext a.next
          ∧ nth t.eng.alm.tracks p {} = { k with odo := b.odoEdge, at_ := b.time.now, segments := [] }
          ∧ t.eng.alm.ring ≠ []
          ∧ t.eng.alm.ring.dropLast = (if a.ring.length = 4096 then a.ring.drop 1 else a.ring)
          ∧ ∀ r, t.eng.alm.ring.getLast? = some r → r.seq = a.next ∧ r.kind = 4 ∧ r.noz = 0xFF
            ∧ r.stamp = a.view.stamp ∧ r.odo = a.view.odoAt 0 % 2 ^ 48 ∧ r.made = b.now at_))
    ∧ ∀ (r : AaRecord) (rest : List AaRecord), lastN a.waiting a.ring = r :: rest → b.link.main.state = .opened →
      (43 ≤ rest.length + 1 ∨ r.made + 10000000 ≤ b.now at_) →
      let recs := (r :: rest).take 43
      Does (.asAppliedSend at_) s [.almanac, .sent] [] (fun t =>
        t.eng.alm = { a with waiting := a.waiting - recs.length }
          ∧ t.link.sent = b.link.sent ++ ownPackets b .main 0x0084 2
              [leBytes 4 r.seq.toNat ++ leBytes 1 recs.length ++ leBytes 1 0 ++ leBytes 2 a.epoch.toNat
                ++ leBytes 6 b.time.stamp.toNat ++ leBytes 2 0 ++ (recs.map AaRecord.bytes).flatten])

/-- The sequencer of a nozzle channel (R207 to R211, R214, R217, R220). -/
def Obligations.NozzlePullInToQuiet : Prop :=
  ∀ (s : State) (n : Fin 96) (ma at_ : Nat), s.Sound →
    let b := s.blk
    let x := b.noz n
    let now := b.now at_
    let bank := bankOf n
    let counts := [addr .BANK_CNT bank, addr .NOZ_CNT0 n, addr .NOZ_CNT1 n]
    let others (t : Block) : Prop := KeepsRows n.val b.eng.valve.noz t.eng.valve.noz
    let becomes (i : Instr) (y : Noz) : Prop :=
      Does i s [.valve] [] (fun t => t.eng.valve = { b.eng.valve with noz := modNth b.eng.valve.noz n (fun _ => y) })
    let rises (batt : Bool) (t : Block) : Prop :=
      (t.noz n).seq = .rise ∧ (t.noz n).riseAt = now ∧ (t.noz n).openDet = b.detEn n ∧ (t.noz n).battPull = batt
        ∧ (t.noz n).pset = b.pulseSet n
        ∧ t.fld .NOZ_CNT0 n 31 16 = min (b.fld .NOZ_CNT0 n 31 16 + 1) 65535 ∧ others t
        ∧ (x.pull = .pulse → (t.noz n).pulseEnd = some (now + max x.pulseNs (b.tPeak n)))
        ∧ (x.pull = .period → (t.noz n).pulseEnd = if x.pulseNs = 0 then none else some (now + x.pulseNs))
        ∧ (x.pull = .leadIn → (t.noz n).on = true ∧ (t.noz n).leadIn = true ∧ (t.noz n).origin = now
            ∧ (t.noz n).nextPeriod = some (now + b.periodNs bank))
    (b.admissible n now = true → x.pull = .period ∨ b.fld .NOZ_DLIM n 7 0 = 100 →
      (b.flag .BANK_CFG bank 0 = false ∨ (b.boost (boostOf bank)).state = .ready →
        Does (.pullInAdmit n at_) s [.valve] counts (rises false))
      ∧ (b.flag .BANK_CFG bank 0 = true → (b.boost (boostOf bank)).state ≠ .ready →
        (b.flag .BANK_CFG bank 1 = false →
          Does (.pullInAdmit n at_) s (.valve :: eventParts) (counts ++ eventWords [68]) (fun t => rises true t
            ∧ t.fld .BANK_CNT bank 7 0 = min (b.fld .BANK_CNT bank 7 0 + 1) 255))
        ∧ (b.flag .BANK_CFG bank 1 = true →
          Does (.pullInAdmit n at_) s (.valve :: eventParts) (counts ++ eventWords [68, 70]) (fun t =>
            (t.noz n).seq = .quiet ∧ (t.noz n).deferUntil = none ∧ Raised 70 b t ∧ others t))))
    ∧ (x.waiting now = true → 400000 ≤ now - x.waitFrom →
      Does (.pullDrop n at_) s (.valve :: eventParts) (counts ++ eventWords [70]) (fun t =>
        (t.noz n).seq = .quiet ∧ (t.noz n).deferUntil = none ∧ Raised 70 b t ∧ others t
          ∧ t.fld .BANK_CNT bank 15 8 = min (b.fld .BANK_CNT bank 15 8 + 1) 255
          ∧ t.fld .NOZ_CNT1 n 23 16 = min (b.fld .NOZ_CNT1 n 23 16 + 1) 255
          ∧ (x.pull ≠ .period → (t.noz n).on = false
              ∧ (t.noz n).outcomes = x.outcomes ++ [{ act := pullAct x.pull, fail := some 3, at_ := now }])))
    ∧ (x.seq = .rise → x.pset.iPeak ≤ ma →
      becomes (.risePeakReached n ma at_) { x with seq := .peak, peakAt := some now })
    ∧ (x.riseAt + x.pset.tPeak ≤ now →
      (x.seq = .peak → becomes (.tPeakExpiry n true at_) { x with seq := .hold, falling := true, holdFrom := now })
      ∧ (x.seq = .peak → Does (.tPeakExpiry n false at_) s [.valve] [addr .NOZ_CNT1 n] (fun t =>
          t.noz n = { x with seq := .hold, falling := true, holdFrom := now } ∧ others t
            ∧ t.fld .NOZ_CNT1 n 15 8 = min (b.fld .NOZ_CNT1 n 15 8 + 1) 255))
      ∧ (x.seq = .rise → ∀ sustained, Does (.tPeakExpiry n sustained at_) s [.valve] [addr .NOZ_CNT1 n] (fun t =>
          t.noz n = { x with seq := .hold, holdFrom := now } ∧ others t
            ∧ t.fld .NOZ_CNT1 n 15 8 = min (b.fld .NOZ_CNT1 n 15 8 + 1) 255)))
    ∧ (x.seq = .hold → ma < b.iHold n →
      becomes (.holdLevelReached n ma at_) { x with falling := false, holdFrom := now })
    ∧ (x.seq = .decay → ma < 20 → becomes (.decayComplete n ma at_) { x with seq := .settle, settleAt := some now })
    ∧ (x.seq = .settle → x.closeDet = none → x.pset.minOff ≤ now - x.offAt →
      (x.held = none → becomes (.settleEnd n at_) { x with seq := .quiet })
      ∧ ∀ p, x.held = some p →
        becomes (.settleEnd n at_) { x with seq := .wait, waitFrom := now, pull := p, held := none })

/-- SPRAY_PERIOD_START (R211, R212), PULSE_END (R214), detection (R220 to R223), FORCE_DURATION_END (R219),
    LEARNED_DATA_SAVE (R226). -/
def Obligations.SprayPeriodsAndDetection : Prop :=
  ∀ (s : State) (n : Fin 96) (at_ : Nat), s.Sound →
    let b := s.blk
    let x := b.noz n
    let now := b.now at_
    let period := b.periodNs (bankOf n)
    let others (t : Block) : Prop := KeepsRows n.val b.eng.valve.noz t.eng.valve.noz
    let off (t : Block) : Prop :=
      (t.noz n).seq = .decay ∧ (t.noz n).offAt = now ∧ (t.noz n).pulseEnd = none ∧ (t.noz n).openDet = false
        ∧ others t
    (∀ (from_ : Nat) (owed g : Int) (t : Nat) (skips merges : Bool), x.on = true → x.nextPeriod = some from_ →
      from_ ≤ now → x.seq = .quiet → x.stuck = false → x.rateWait = false → x.closeDet = none → b.fld .NOZ_DLIM n 7 0 = 100 →
      0 < b.openFraction n → b.openFraction n < 1000 → owed = (b.openFraction n * period / 1000 : Nat) →
      let choice (c : Choice) (gain : Int) : Prop :=
        choosePulse (x.acc + owed) owed period (b.tPeak n) (b.minOff n) (b.delayNs n true) (b.delayNs n false)
          = (c, gain, skips, merges)
      let y : Noz := { (b.countEnergised n now).noz n with
                              origin := from_, periodNs := period, nextPeriod := some (from_ + period)
                              lastDuty := b.openFraction n, leadIn := false, skipping := skips, merging := merges
                              limited := false }
      (choice (.pulse t) g →
        Does (.sprayPeriodStart n at_) s [.valve] [] (fun u =>
          u.noz n = { y with acc := x.acc + owed - g, give := g, pulseNs := t, seq := .wait, waitFrom := now
                             pull := .period } ∧ others u))
      ∧ (choice .skip 0 →
        Does (.sprayPeriodStart n at_) s [.valve] [addr .NOZ_CNT0 n] (fun u =>
          u.noz n = { y with acc := x.acc + owed, give := 0 } ∧ others u
            ∧ u.fld .NOZ_CNT0 n 15 8 = min (b.fld .NOZ_CNT0 n 15 8 + 1) 255)))
    ∧ (∀ e, x.pulseEnd = some e → e ≤ now → x.seq = .hold → (x.leadIn = true → x.openDet = true → x.limited = true) →
      Does (.pulseEnd n at_) s [.valve] [] (fun t => off t
        ∧ (t.noz n).closeDet = if x.pset.det then some { since := now, bearing := false, from_ := now } else none))
    ∧ (∀ (l : List Sys2Proof.Estimate) (ns : Nat), x.openDet = true →
      openScan x.pset.openMin x.pset.openMax x.pset.openStep x.pset.openConf l none true [] = some ns →
      Does (.openSignature n l at_) s [.valve] [] (fun t =>
        (t.noz n).openDet = false ∧ (t.noz n).measOpen = (ns + 5000) / 10000 ∧ (t.noz n).seq = x.seq
          ∧ t.eng.valve.learnedDirty = true ∧ others t
          ∧ (x.pull ≠ .period → (t.noz n).fails = 0 ∧ (t.noz n).outcomes
              = x.outcomes ++ [{ act := pullAct x.pull, fail := none, measured := ns, at_ := now }])))
    ∧ (∀ (l : List Sys2Proof.Probe) (ns : Nat) (c : CloseDet), x.closeDet = some c →
      closeScan (x.pset.closeMin + (c.since - x.offAt)) (x.pset.closeMax + (c.since - x.offAt)) x.pset.closeStep l
        = some ns →
      Does (.closeSignature n l at_) s [.valve] [] (fun t =>
        (t.noz n).closeDet = none ∧ (t.noz n).closeFound = true ∧ others t
          ∧ (c.since = x.offAt → (t.noz n).measClose = (ns + 5000) / 10000)
          ∧ (c.bearing = true → (t.noz n).fails = 0 ∧ (t.noz n).outcomes
              = x.outcomes ++ [{ act := .closes, fail := none, measured := x.offAt + ns - c.from_, at_ := now }])))
    ∧ (x.fails < 2 →
      (x.openDet = true → x.pset.openMax ≤ now - x.riseAt → x.pull ≠ .period →
        Does (.detectionTimeout n true at_) s [.valve] [addr .NOZ_CNT0 n] (fun t =>
          (t.noz n).openDet = false ∧ (t.noz n).on = false ∧ (t.noz n).fails = x.fails + 1 ∧ others t
            ∧ t.fld .NOZ_CNT0 n 7 0 = min (b.fld .NOZ_CNT0 n 7 0 + 1) 255
            ∧ (t.noz n).outcomes = x.outcomes ++ [{ act := pullAct x.pull, fail := some 1, at_ := now }]))
      ∧ (∀ c, x.closeDet = some c → c.bearing = true → x.pset.closeMax ≤ now - c.since →
        Does (.detectionTimeout n false at_) s [.valve] [addr .NOZ_CNT0 n] (fun t =>
          (t.noz n).closeDet = none ∧ (t.noz n).closeFailed = true ∧ (t.noz n).fails = x.fails + 1 ∧ others t
            ∧ (t.noz n).outcomes = x.outcomes ++ [{ act := .closes, fail := some 2, at_ := now }])))
    ∧ (x.fails = 2 → x.stuck = false → ∀ c, x.closeDet = some c → c.bearing = true →
      x.pset.closeMax ≤ now - c.since →
      Does (.detectionTimeout n false at_) s (.valve :: eventParts)
        ([addr .NOZ_CNT0 n, addr .NOZ_FLT n] ++ eventWords [66]) (fun t =>
          (t.noz n).stuck = true ∧ (t.noz n).on = false ∧ t.flag .NOZ_FLT n 5 = true ∧ Raised 66 b t ∧ others t))
    ∧ (∀ (e : Nat) (f : Force), x.forceEnd = some e → e ≤ now → x.force = some f →
      (f.pulse = true → Does (.forceDurationEnd n at_) s [.valve] [] (fun t =>
        t.noz n = { x with force := none, forceEnd := none } ∧ others t))
      ∧ (f.pulse = false → x.seq.energised = true →
        Does (.forceDurationEnd n at_) s [.valve] [] (fun t => off t ∧ (t.noz n).force = none
          ∧ (t.noz n).forceEnd = none ∧ (t.noz n).queuedForce = none)))
    ∧ (b.eng.valve.learnedDirty = true → b.eng.valve.learnedAt + 60000000000 ≤ now →
      Does (.learnedDataSave at_) s [.valve, .update] [] (fun t =>
        t.eng.valve = { b.eng.valve with learnedDirty := false, learnedAt := now }
          ∧ t.upd = { b.upd with learned := b.eng.valve.noz.map (·.learned) }))

/-- Channel and bank faults (R227, R228). -/
def Obligations.NozzleAndBankFaults : Prop :=
  ∀ (s : State) (n : Fin 96) (at_ : Nat), s.Sound → s.blk.present (unitNoz n) = true →
    let b := s.blk
    let x := b.noz n
    let others (t : Block) : Prop := KeepsRows n.val b.eng.valve.noz t.eng.valve.noz
    let faults (i : Instr) (bit : Nat) : Prop :=
      Does i s ([BlockPart.valve, BlockPart.unitReqs, BlockPart.hand] ++ eventParts) (addr .NOZ_FLT n :: eventWords [64]) (fun t =>
        t.word .NOZ_FLT n = b.word .NOZ_FLT n ||| BitVec.twoPow 32 bit ∧ (t.noz n).seq = .fault
          ∧ t.vig.reqs = (b.faultUnit (unitNoz n) at_).vig.reqs ∧ Raised 64 b t ∧ others t)
    let bankFaults (i : Instr) (k bit : Nat) (words sources : List Nat) (more : Block → Prop) : Prop :=
      Does i s ([BlockPart.valve, BlockPart.unitReqs, BlockPart.hand] ++ eventParts) (addr .BANK_FLT k :: words ++ eventWords sources) (fun t =>
        t.word .BANK_FLT k = b.word .BANK_FLT k ||| BitVec.twoPow 32 bit ∧ Raised 65 b t
          ∧ (∀ m < 96, b.present (unitNoz m) = true → m / 8 = k → (t.noz m).seq = .fault
              ∧ { unit := unitNoz m, source := .vigil, target := .faulted, cause := .latchedFault
                  since := (b.reaches at_).stagedAt } ∈ t.vig.reqs)
          ∧ (∀ m < 96, m / 8 ≠ k → t.noz m = b.noz m) ∧ more t)
    (∀ ma, x.seq = .rise → ma < 50 → 100000 ≤ b.now at_ - x.riseAt → b.vpwrPresent = true →
      faults (.nozOpenLoad n ma at_) 0)
    ∧ (∀ t, x.seq.energised = true → x.peakAt = some t → t ≤ x.riseAt + 10000 → faults (.nozShortLoad n at_) 1)
    ∧ (∀ ma, 6000 < ma → x.seq ≠ .fault → faults (.nozShortBat n ma at_) 2)
    ∧ (∀ tj : Int, 1700 < tj → b.flag .NOZ_FLT n 4 = false → faults (.nozThermal n tj at_) 4)
    ∧ (∀ drain node, x.seq = .quiet → b.hsOn (bankOf n) = true → b.vpwrPresent = true → drain + 2000 < node →
      Does (.nozOpenOffTest n drain node at_) s eventParts (addr .NOZ_FLT n :: eventWords [64]) (fun t =>
        t.word .NOZ_FLT n = b.word .NOZ_FLT n ||| 0x40#32 ∧ (b.flag .NOZ_FLT n 6 = false → Raised 64 b t)))
    ∧ (∀ drain node ns, x.seq.energised = false → b.hsOn (bankOf n) = true → drain < 2000 → 6000 < node → 50000 ≤ ns →
      bankFaults (.nozShortGnd n drain node ns at_) (bankOf n) 2 [addr .NOZ_FLT n] [64, 65]
        (fun t => t.flag .NOZ_FLT n 3 = true ∧ Raised 64 b t))
    ∧ ∀ k : Fin 12, k.val = bankOf n → b.hsOn k = true →
      (∀ ma ns, 10000 < ma → 5000 ≤ ns → bankFaults (.hsOvercurrent k ma ns at_) k 0 [] [65] (fun _ => True))
      ∧ (∀ tj : Int, 1700 < tj → bankFaults (.hsThermal k tj at_) k 1 [] [65] (fun _ => True))

/-- Boosts (R206) and proportional channels (R234, R236). -/
def Obligations.BoostAndProportionalChannels : Prop :=
  ∀ (s : State) (at_ : Nat), s.Sound →
    let b := s.blk
    let v := b.eng.valve
    let now := b.now at_
    let boost (i : Instr) (c : Fin 3) (y : Boost) : Prop :=
      Does i s [.valve] [] (fun t => t.eng.valve = { v with boosts := modNth v.boosts c (fun _ => y) })
    let boostFaults (i : Instr) (c : Fin 3) (bit : Nat) : Prop :=
      Does i s ([BlockPart.valve, BlockPart.unitReqs, BlockPart.hand] ++ eventParts) (addr .BST_FLT c :: eventWords [69]) (fun t =>
        t.eng.valve = { v with boosts := modNth v.boosts c (fun x => { x with state := .fault, since := now }) }
          ∧ t.word .BST_FLT c = b.word .BST_FLT c ||| BitVec.twoPow 32 bit
          ∧ t.vig.reqs = (b.faultUnit (unitBst c) at_).vig.reqs ∧ Raised 69 b t)
    let prop (i : Instr) (k : Fin 8) (y : Prop_) : Prop :=
      Does i s [.valve] [] (fun t => t.eng.valve = { v with props := modNth v.props k (fun _ => y) })
    let propFaults (i : Instr) (k : Fin 8) (bit : Nat) : Prop :=
      Does i s ([BlockPart.valve, BlockPart.unitReqs, BlockPart.hand] ++ eventParts) (addr .PROP_FLT k :: eventWords [71]) (fun t =>
        t.eng.valve = { v with props := modNth v.props k (fun x =>
            { x with seq := .fault, since := now, target := 0, saturated := false }) }
          ∧ t.word .PROP_FLT k = b.word .PROP_FLT k ||| BitVec.twoPow 32 bit
          ∧ t.vig.reqs = (b.faultUnit (unitProp k) at_).vig.reqs ∧ Raised 71 b t)
    (∀ (c : Fin 3) (mv : Nat),
      let x := b.boost c
      ((x.state = .softStart ∨ x.state = .low) → b.boostReadyMv c ≤ mv →
        boost (.boostReady c mv at_) c { x with vout := mv, state := .ready, since := now })
      ∧ (x.state = .ready → mv < b.boostReadyMv c →
        boost (.boostLow c mv at_) c { x with vout := mv, state := .low, since := now })
      ∧ (x.state = .softStart → x.since + 50000000 ≤ now → b.vpwrPresent = true →
        boostFaults (.boostSoftStartTimeout c at_) c 1)
      ∧ (x.state = .low → x.since + 20000000 ≤ now → b.vpwrPresent = true → boostFaults (.boostLowTimeout c at_) c 1)
      ∧ (x.state = .ready ∨ x.state = .low → boostFaults (.boostFault c .overvolt at_) c 0
        ∧ boostFaults (.boostFault c .overload at_) c 2 ∧ boostFaults (.boostFault c .thermal at_) c 3))
    ∧ (∀ (k : Fin 8) (ma : Nat),
      let x := b.prop k
      (x.seq = .peak → x.since + b.fld .PROP_PEAK k 31 16 * 10000 ≤ now →
        prop (.propPeakEnd k at_) k { x with
          seq := .ramp, since := now, rampFrom := 2 * b.fld .PROP_PEAK k 12 0 })
      ∧ (x.seq = .ramp →
        ((if x.rampFrom ≤ x.target then x.target ≤ 2 * ma else 2 * ma ≤ x.target) →
          prop (.propRampDone k ma at_) k { x with seq := .regulate, since := now })
        ∧ ((if x.rampFrom ≤ x.target then 2 * ma < x.target else x.target < 2 * ma) →
          prop (.propRampDone k ma at_) k x))
      ∧ (x.seq = .decay → ma < 10 → b.propWanted k = 0 →
        prop (.propDecayDone k ma at_) k { x with seq := .quiet, since := now, target := 0 })
      ∧ (x.seq ≠ .fault →
        (∀ duty ns, 200 ≤ x.target → 500 ≤ duty → ma < 10 → 10000000 ≤ ns → b.vpwrPresent = true →
          propFaults (.propOpenLoad k duty ma ns at_) k 0)
        ∧ (4500 < ma → propFaults (.propShort k ma at_) k 1)
        ∧ (∀ tj : Int, 1700 < tj → propFaults (.propThermal k tj at_) k 2))
      ∧ (∀ duty ns, 1000 ≤ duty → 20000000 ≤ ns → ma + max 50 (x.target / 2 / 10) < x.target / 2 →
        b.vpwrPresent = true →
        Does (.propUndercurrent k duty ma ns at_) s (.valve :: eventParts) (addr .PROP_FLT k :: eventWords [72])
          (fun t => t.eng.valve = { v with props := modNth v.props k (fun x => { x with saturated := true }) }
            ∧ t.flag .PROP_FLT k 3 = true ∧ (b.evt.quiet 72 now = false → Raised 72 b t))))

/-- CARRIER_PERIOD_START (R242 to R244, R253, R254, R269), STALE_SHADOW (R256), PWM_CALIBRATION (R245). -/
def Obligations.CarrierPeriodsAndShadows : Prop :=
  ∀ (s : State) (u : Fin 16) (at_ : Nat), s.Sound →
    let b := s.blk
    let x := b.mot u
    (∀ m : Fin 4, b.frozen = false → b.present (unitMot u) = true → m.val < x.k → x.seq ≠ .rampDown →
      x.armed.getLsbD 0 = false → x.ph.length = 3 →
      Does (.carrierPeriodStart u m) s (.motors :: eventParts)
        ([addr .MDRV_CNT0 u, addr .MDRV_CNT1 u, addr .MDRV_COMM_CNT u] ++ eventWords [99]) (fun t =>
        let y := t.mot u
        y.start = fineOf b.time.now + x.phase + carrierStart x.k m ∧ y.period = carrierPeriod x.k m ∧ y.k = x.k
          ∧ y.cfg = b.motorWords u ∧ y.pending = x.pending &&& ~~~x.armed ∧ y.armed = 0 ∧ y.seq = x.seq
          ∧ y.resuming = false
          ∧ (bits (b.word .MDRV_CFG u) 3 2 = 0 → ∀ i : Fin 3,
            (nth y.ph i {}).cmpSet = (if x.armed.getLsbD (1 + 2 * i) = true then bits (b.word .MDRV_SET u i) 19 0
              else (nth x.ph i {}).shSet)
            ∧ (nth y.ph i {}).cmpRst = (if x.armed.getLsbD (2 + 2 * i) = true then bits (b.word .MDRV_RST u i) 19 0
              else (nth x.ph i {}).shRst))
          ∧ (bits (b.word .MDRV_CFG u) 3 2 = 1 → x.seq = .run → y.duty = x.asked ∧ ∀ i : Fin 3,
            ((nth y.ph i {}).cmpSet, (nth y.ph i {}).cmpRst)
              = dutyCompares (b.flag .MDRV_CFG u 4) (y.magnitude x.asked) y.period)
          ∧ (bits (b.word .MDRV_CFG u) 3 2 = 2 → x.seq = .run → x.loopDue = none → y.duty = x.loopDuty ∧ ∀ i : Fin 3,
            ((nth y.ph i {}).cmpSet, (nth y.ph i {}).cmpRst)
              = dutyCompares (b.flag .MDRV_CFG u 4) (y.magnitude x.loopDuty) y.period)
          ∧ KeepsRows u.val b.eng.mot.units t.eng.mot.units))
    ∧ (x.pending ≠ 0 → 16 ≤ x.age → x.stale = false →
      Does (.staleShadow u at_) s (.motors :: eventParts) (addr .MDRV_CNT1 u :: eventWords [100]) (fun t =>
        t.eng.mot = { b.eng.mot with units := modNth b.eng.mot.units u (fun m => { m with stale := true }) }
          ∧ Raised 100 b t ∧ t.fld .MDRV_CNT1 u 7 0 = min (b.fld .MDRV_CNT1 u 7 0 + 1) 255))
    ∧ ∀ tap, tap < 65536 →
      (100 ≤ tap → tap ≤ 250 → Does (.pwmCalibration tap at_) s [.motors] [] (fun t =>
        t.eng.mot = { b.eng.mot with tap := tap, calAt := b.now at_, fineDue := b.eng.mot.coarse }))
      ∧ (tap < 100 ∨ 250 < tap → Does (.pwmCalibration tap at_) s (.motors :: eventParts) (eventWords [101]) (fun t =>
        t.eng.mot = { b.eng.mot with tap := tap, calAt := b.now at_, coarse := true, fineDue := false }
          ∧ (b.eng.mot.coarse = false → Raised 101 b t)))

/-- HALL_INVALID_TIMEOUT (R252), CBC_LIMIT, MOTOR_HARD_TRIP, VIGIL_CURRENT_TRIP, MOTOR_THERMAL, MOTOR_SUPPLY_LOW (R258),
    FOLDBACK (R259), MOTOR_TRIP (R72, R260), with R261 and R266. -/
def Obligations.MotorProtection : Prop :=
  ∀ (s : State) (u : Fin 8) (at_ : Nat), s.Sound → s.blk.present (unitMot u) = true →
    let b := s.blk
    let x := b.mot u
    let others (t : Block) : Prop := KeepsRows u.val b.eng.mot.units t.eng.mot.units
    let faultIn (i : Instr) (bit source : Nat) (words : List Nat) : Prop :=
      Does i s ([BlockPart.motors, BlockPart.unitReqs, BlockPart.hand] ++ eventParts) (addr .MDRV_FLT u :: words ++ eventWords [source]) (fun t =>
        t.word .MDRV_FLT u = b.word .MDRV_FLT u ||| BitVec.twoPow 32 bit ∧ (t.mot u).seq = .fault
          ∧ (x.seq ≠ .fault → (t.mot u).opened = 63 ∧ (t.mot u).queuedStart = false)
          ∧ t.vig.reqs = (b.faultUnit (unitMot u) at_).vig.reqs ∧ Raised source b t ∧ others t
          ∧ (source = 97 → b.eng.mot.coarse = false → (∀ d ∈ x.steps, d.at_ ≤ fineOf (b.now at_)) →
              t.motorOut u at_ = 0))
    (∀ ma ns, 20000 < ma → 1000 ≤ ns → b.flag .MDRV_FLT u 5 = false → faultIn (.motorHardTrip u ma ns at_) 5 97 [])
    ∧ (∀ ma ns, 24000 < ma → 5000 ≤ ns → b.flag .MDRV_FLT u 7 = false → faultIn (.vigilCurrentTrip u ma ns at_) 7 97 [])
    ∧ (∀ tj : Int, 1700 < tj → b.flag .MDRV_FLT u 6 = false → faultIn (.motorThermal u tj at_) 6 97 [])
    ∧ (∀ t, x.invalidSince = some t → max t x.since + x.invNs ≤ b.now at_ → x.seq ≠ .fault → x.sixStep = true →
      b.runs (unitMot u) = true →
      faultIn (.hallInvalidTimeout (u.castLE (by decide)) at_) 8 97 [])
    ∧ (∀ (t : Fin 4) (high : Bool) (held : Nat),
      (held < b.fld .MDRV_TRIP_CFG t 7 0 * 10 → Does (.motorTrip t ⟨high, held⟩ at_) s [] [] (fun y => y = b))
      ∧ (b.fld .MDRV_TRIP_CFG t 7 0 * 10 ≤ held → b.flag .MDRV_TRIP_CFG t 9 = true →
        high = b.flag .MDRV_TRIP_CFG t 8 → (∀ t' < 4, b.tripOn t' = false) → b.tripUnits t true at_ = [u.val] →
        faultIn (.motorTrip t ⟨high, held⟩ at_) t 96 []))
    ∧ (∀ (sw : Fin 6) (ma : Nat), b.motorLimit u < ma → (b.motorOut u at_).getLsbD sw = true →
      b.blanked u at_ = false → b.vig.brakeSince = none → x.cbcNow = false → x.seq ≠ .brake → x.seq ≠ .fault →
      (x.cbcRun + 1 < x.cbcLim → Does (.cbcLimit u sw ma at_) s [.motors] [addr .MDRV_CNT1 u] (fun t =>
        t.mot u = { x.openSwitch sw (fineOf (b.now at_)) with cbcNow := true, cbcRun := x.cbcRun + 1 } ∧ others t
          ∧ t.fld .MDRV_CNT1 u 31 16 = min (b.fld .MDRV_CNT1 u 31 16 + 1) 65535))
      ∧ (x.cbcLim ≤ x.cbcRun + 1 → faultIn (.cbcLimit u sw ma at_) 4 97 [addr .MDRV_CNT1 u]))
    ∧ (∀ mv, b.vpwrPresent = true → Does (.motorSupplyLow mv at_) s [.motors] [] (fun t =>
        (t.mot u).undervolt = (if mv < 8500 then true else if 9000 < mv then false else x.undervolt)
          ∧ ∀ e < 16, 8 ≤ e → t.mot e = b.mot e))
    ∧ ∀ l : List (Nat × Nat), let q := overload x.ovl l
      (322000000000000 ≤ q → x.foldback = false →
        Does (.foldback u l at_) s (.motors :: eventParts) (eventWords [98]) (fun t =>
          t.mot u = { x with ovl := q, foldback := true } ∧ Raised 98 b t ∧ others t))
      ∧ (q < 161000000000000 → x.foldback = true →
        Does (.foldback u l at_) s (.motors :: eventParts) (eventWords [98]) (fun t =>
          t.mot u = { x with ovl := q, foldback := false } ∧ others t))
      ∧ (161000000000000 ≤ q → q < 322000000000000 ∨ x.foldback = true →
        Does (.foldback u l at_) s [.motors] [] (fun t => t.mot u = { x with ovl := q } ∧ others t))

/-- RAMP_DOWN_DONE, BRAKE_TIME_END (R262), TRIP_BRAKE_END (R260), RESET_BRAKE_END (R266), DRIVE_COMMAND at its COMMIT
    (R264, R265). -/
def Obligations.MotorRunAndStop : Prop :=
  ∀ (s : State) (u : Fin 16) (at_ : Nat), s.Sound →
    let b := s.blk
    let x := b.mot u
    let now := b.now at_
    let follows (t : Block) (e : Nat) (y : Motor) : Prop :=
      { t.mot e with steps := y.steps, edgeLast := y.edgeLast } = y
        ∧ (t.mot e).steps.head?.map (·.drive) = some (t.motorDrive e)
    let put (t : Block) (y : Motor) : Prop := follows t u y ∧ KeepsRows u.val b.eng.mot.units t.eng.mot.units
      ∧ { t.eng.mot with units := b.eng.mot.units } = b.eng.mot
    let becomes (i : Instr) (y : Motor) : Prop := Does i s [.motors] [] (fun t => put t y)
    (b.frozen = false →
      (x.seq = .rampDown → x.ramped now = 0 →
        becomes (.rampDownDone u at_) { x with seq := .brake, since := now, duty := 0 })
      ∧ (x.seq = .brake → x.since + x.brakeNs ≤ now →
        becomes (.brakeTimeEnd u at_) { x with seq := .quiet, since := now }))
    ∧ (∀ t, x.tripBrake = some t → t + x.brakeNs ≤ now → becomes (.tripBrakeEnd u at_) { x with tripBrake := none })
    ∧ (∀ t, b.vig.brakeSince = some t → t + 200000000 ≤ now →
      Does (.resetBrakeEnd at_) s [.vigil, .motors] [] (fun t => t.vig = { b.vig with brakeSince := none }
        ∧ (∀ e < 16, follows t e (b.mot e)) ∧ { t.eng.mot with units := b.eng.mot.units } = b.eng.mot))
    ∧ ∀ (k : Sess) (h : Hdr) (duties : List (BitVec 16)), b.posted = [] →
      let mask : BitVec 16 := BitVec.twoPow 16 u
      let after (i : Instr) : Block :=
        ({ b with posted := [{ seq := 0, sess := some k, arrived := 0, act := .req i }] }.stepTwo at_).2
      let asked : Int := if b.fld .MDRV_CFG u 3 2 = 1 then (nth duties u 0).toInt * 10000 else x.asked
      let only (t : Block) : Prop := Keeps [.motors] b t ∧ KeepsWords [] b t
        ∧ KeepsRows u.val b.eng.mot.units t.eng.mot.units
      ((b.unit (unitMot u)).state ≠ driveState k →
        ∀ i ∈ [Instr.driveCommandRun h mask duties, .driveCommandStop h mask duties, .driveCommandCoast h mask duties,
          .driveCommandBrake h mask duties], after i = b)
      ∧ ((b.unit (unitMot u)).state = driveState k →
        let run := after (.driveCommandRun h mask duties)
        let stop := after (.driveCommandStop h mask duties)
        let coast := after (.driveCommandCoast h mask duties)
        let brake := after (.driveCommandBrake h mask duties)
        (x.seq = .quiet → x.src ≠ 2 → only run
          ∧ put run { x with asked := asked, seq := .run, since := now, queuedStart := false })
        ∧ (x.seq = .quiet → x.src = 2 → (run.mot u).seq = .run ∧ (run.mot u).duty = x.loopBy (fineOf now)
          ∧ KeepsRows u.val b.eng.mot.units run.eng.mot.units)
        ∧ (x.seq = .run → only run ∧ run.mot u = { x with asked := asked })
        ∧ (x.seq ≠ .quiet → x.seq ≠ .run → only run ∧ run.mot u = { x with asked := asked, queuedStart := true })
        ∧ only stop ∧ put stop
            (if x.seq = .run then
              if x.brakes then { x with seq := .rampDown, since := now, rampFrom := x.presentDuty, duty := x.presentDuty
                                        queuedStart := false }
              else { x with seq := .quiet, since := now, queuedStart := false }
            else { x with queuedStart := false })
        ∧ only coast ∧ put coast
            (if x.seq = .run then { x with seq := .quiet, since := now, queuedStart := false }
            else { x with queuedStart := false })
        ∧ only brake ∧ put brake
            (if x.seq = .run ∨ x.seq = .rampDown then { x with seq := .brake, since := now, queuedStart := false }
            else { x with queuedStart := false }))

/-- OBSERVER_PREDICT (R284), OBSERVER_TIMEOUT (R285), FOLLOW_ERR (R286), ECC_UNCORRECTABLE of a slot (R287),
    LOOP_OVERRUN (R276). -/
def Obligations.LoopSlotsBetweenRuns : Prop :=
  ∀ (s : State) (q : Fin 32) (at_ : Nat), s.Sound →
    let b := s.blk
    let x := b.slot q
    let others (t : Block) : Prop := KeepsRows q.val b.eng.loop.slots t.eng.loop.slots
    (x.predictDue = true →
      let n := b.fld .LOOP_OBS_MODEL q 2 0
      let u1 := (b.slot (b.fld .LOOP_OBS_MODEL q 7 3)).u
      let u2 := if b.fld .LOOP_OBS_MODEL q 9 8 = 1 then fofRat b.vpwrMv 1000 else 0
      let next (row : Nat) : Word :=
        fadd (fdot ((List.range n).map (fun j => b.word .LOOP_COEF q (6 * row + j))) (x.x.take n))
          (fadd (fmul (b.word .LOOP_COEF q (36 + 2 * row)) u1) (fmul (b.word .LOOP_COEF q (37 + 2 * row)) u2))
      Does (.observerPredict q) s [.loops] [] (fun t =>
        t.eng.loop = { b.eng.loop with slots := modNth b.eng.loop.slots q (fun x => { x with
          x := (List.range n).map next ++ List.replicate (6 - n) 0, predictDue := false }) }))
    ∧ (x.fb = .observer → b.slotRuns q = true →
      x.obsSince + b.fld .LOOP_OBS_USE q 31 24 * 100000000 ≤ b.now at_ →
      let lost (t : Block) : Prop :=
        (t.slot q).fb = .lost ∧ (t.slot q).obsSince = b.now at_ ∧ t.flag .LOOP_FLT q 3 = true ∧ Raised 105 b t
          ∧ t.fld .LOOP_CNT q 31 24 = min (b.fld .LOOP_CNT q 31 24 + 1) 255 ∧ others t
      let words := [addr .LOOP_FLT q, addr .LOOP_CNT q]
      (b.fld .LOOP_CFG q 6 5 = 0 ∨ b.fld .LOOP_CFG q 6 5 = 3 →
        Does (.observerTimeout q at_) s (.loops :: eventParts) (words ++ eventWords [105]) (fun t =>
          lost t ∧ (t.slot q).u = x.u))
      ∧ (b.fld .LOOP_CFG q 6 5 = 1 →
        Does (.observerTimeout q at_) s ([BlockPart.loops, BlockPart.motors, BlockPart.valve] ++ eventParts)
          (words ++ ((List.range 16).map (fun u => addr .MDRV_CNT0 u) ++ (List.range 16).map (fun u => addr .MDRV_CNT1 u)
            ++ (List.range 16).map (fun u => addr .MDRV_COMM_CNT u)) ++ eventWords [99, 105]) (fun t =>
          lost t ∧ (t.slot q).u = 0 ∧ (x.u ≠ 0 → (t.slot q).uPrev = x.u)))
      ∧ (b.fld .LOOP_CFG q 6 5 = 2 → b.flag .LOOP_FLT q 1 = false →
        Does (.observerTimeout q at_) s ([BlockPart.loops, BlockPart.unitReqs, BlockPart.hand] ++ eventParts) (words ++ eventWords [103, 105]) (fun t =>
          lost t ∧ t.vig.reqs = (b.faultUnit (unitLoop q) at_).vig.reqs ∧ Raised 103 b t)))
    ∧ (b.flag .LOOP_FERR_CFG q 0 = true → b.slotRuns q = true → b.flag .LOOP_FLT q 0 = false →
      b.fld .LOOP_FERR_CFG q 12 2 * 10 ≤ x.ferr →
      (b.flag .LOOP_FERR_CFG q 1 = false →
        Does (.followErr q at_) s eventParts (addr .LOOP_FLT q :: eventWords [104]) (fun t =>
          t.word .LOOP_FLT q = b.word .LOOP_FLT q ||| 1#32 ∧ Raised 104 b t))
      ∧ (b.flag .LOOP_FERR_CFG q 1 = true →
        Does (.followErr q at_) s (.unitReqs :: .hand :: eventParts) (addr .LOOP_FLT q :: eventWords [103, 104]) (fun t =>
          t.word .LOOP_FLT q = b.word .LOOP_FLT q ||| 1#32 ∧ Raised 104 b t ∧ Raised 103 b t
            ∧ t.vig.reqs = (b.faultUnit (unitLoop q) at_).vig.reqs)))
    ∧ (b.powered = true →
      Does (.eccUncorrectable (.loopState [q])) s (.unitReqs :: .hand :: eventParts)
        (addr .LOOP_FLT q :: eventWords [103]) (fun t =>
          t.word .LOOP_FLT q = b.word .LOOP_FLT q ||| 4#32 ∧ Raised 103 b t
            ∧ t.vig.reqs = (b.faultUnit (unitLoop q) 0 .ecc).vig.reqs))
    ∧ (b.eng.loop.cut = true →
      Does (.loopOverrun at_) s (.loops :: eventParts) (addr .LOOP_OVR :: eventWords [102]) (fun t =>
        t.eng.loop = { b.eng.loop with cut := false }
          ∧ t.fld .LOOP_OVR 0 15 0 = min (b.fld .LOOP_OVR 0 15 0 + 1) 65535
          ∧ (b.evt.quiet 102 (b.now at_) = false → Raised 102 b t)))

/-- TRACE_ARM (R290 to R292) and TRACE_READ (R293). -/
def Obligations.TraceRequests : Prop :=
  ∀ (s : State) (h : Hdr) (k : Sess) (arm : Sys2Proof.TraceArm),
    let b := s.blk
    let now := b.time.count
    (Served b h k traceArmRow →
      (b.traceRival k = none →
        Serves (.traceArmRelease h arm) s h 0x0048 .ok now [] [.loops] [] (fun t =>
          t.eng.loop = { b.eng.loop with trace := {} })
        ∧ (armBad arm = false → Serves (.traceArmArm h arm) s h 0x0048 .ok now [] [.loops] [] (fun t =>
          t.eng.loop = { b.eng.loop with trace :=
            { state := .armed, owner := some (k, (b.link.sess k).id), cfg := arm, armedAt := now
              seen := b.word .EVT_CNT arm.source.toNat } }))
        ∧ (b.eng.loop.trace.state = .armed → Serves (.traceArmForce h arm) s h 0x0048 .ok now [] [.loops] [] (fun t =>
          t.eng.loop = { b.eng.loop with trace := { b.eng.loop.trace with forced := true } }))
        ∧ (b.eng.loop.trace.state ≠ .armed →
          Serves (.traceArmForce h arm) s h 0x0048 .busy now [] [] [] (fun _ => True)))
      ∧ (∀ id, b.traceRival k = some id →
        ∀ i ∈ [Instr.traceArmRelease h arm, .traceArmArm h arm, .traceArmForce h arm],
          Serves i s h 0x0048 .resourceOwned now (leBytes 4 (sessionOwner id).toNat) [] [addr .RES_CNT] (fun t =>
            t.fld .RES_CNT 0 15 0 = min (b.fld .RES_CNT 0 15 0 + 1) 65535)))
    ∧ (Served b h k traceReadRow → ∀ (first : BitVec 16) (count : Byte),
      (b.eng.loop.trace.state = .done → 1 ≤ count.toNat → count.toNat ≤ 21 →
        first.toNat + count.toNat ≤ b.eng.loop.trace.samples.length →
        Serves (.traceRead h first count) s h 0x0049 .ok now
          (b.eng.loop.trace.data first.toNat count.toNat) [] [] (fun _ => True))
      ∧ (b.eng.loop.trace.state ≠ .done →
        Serves (.traceRead h first count) s h 0x0049 .busy now [] [] [] (fun _ => True)))

/-- LOAD_START_REQUEST (R301, R302, R321, R326), GRANT_WAIT_TIMEOUT (R302), SHED_RESTORE and the restores of step 4 (R301, R304). -/
def Obligations.LoadStartsAndRestores : Prop :=
  ∀ (s : State) (k : Fin 16) (at_ : Nat), s.Sound →
    let b := s.blk
    let x := b.sw k
    let p := b.eng.pwr
    let now := b.now at_
    let c := b.startCharge k * 1000
    let others (t : Block) : Prop := KeepsRows k.val b.eng.lsw t.eng.lsw
    let set := b.lswWords k
    let duty := { x with set := set }.dutyNow p.latch.vpwr
    let elapsed (since : Option Nat) : Bool := match since with
      | some t0 => decide (t0 + b.fld .PWRB_BUDGET 0 23 16 * 100000000 ≤ now)
      | none => false
    let started (t : Block) : Prop := others t ∧ t.fld .LSW_CNT k 15 0 = min (b.fld .LSW_CNT k 15 0 + 1) 65535
      ∧ (b.hasWindow k = true → t.sw k = { x with
          seq := .inrush, limitMa := b.lswIrLim k, cut := false, queued := false, want := false, retry := false
          set := set, period := set.period (b.devNow at_), d := duty, dPrev := duty, since := now })
      ∧ (b.hasWindow k = false →
        let cut := decide (b.fld .LSW_LIMIT k 22 14 ≠ 0)
        t.sw k = { x with seq := .on, limitMa := b.lswIlim k, cut := cut, queued := false, want := false
                          retry := false, set := set, period := set.period (b.devNow at_)
                          d := duty, dPrev := duty, since := now }
          ∧ (cut = true → t.fld .LSW_CNT k 31 24 = min (b.fld .LSW_CNT k 31 24 + 1) 255 ∧ Raised 83 b t))
    let abandons (i : Instr) : Prop :=
      Does i s (.lsw :: .power :: eventParts) (addr .PWRB_DENIED :: eventWords [2]) (fun t =>
        t.eng.lsw = modNth b.eng.lsw k (fun x => { x with want := false, retry := false })
          ∧ t.eng.pwr = { p with waits := p.waits.filter (fun w => w.sw != k.val) }
          ∧ t.flag .PWRB_DENIED 0 k = true ∧ Raised 2 b t)
    (b.lswReady k = true → p.waits.any (fun w => w.sw == k.val) = false →
      ((c : Int) ≤ p.allowance →
        Does (.loadStartRequest k at_) s (.lsw :: .power :: eventParts) (addr .LSW_CNT k :: eventWords [83]) (fun t =>
          started t ∧ t.eng.pwr = { p with allowance := p.allowance - c }))
      ∧ (p.allowance < c → b.fld .PWRB_GRANT 0 31 16 = 0 → abandons (.loadStartRequest k at_))
      ∧ (p.allowance < c → b.fld .PWRB_GRANT 0 31 16 ≠ 0 →
        Does (.loadStartRequest k at_) s [.power] [] (fun t =>
          t.eng.pwr = { p with waits := p.waits ++ [{ sw := k, since := now }] })))
    ∧ (∀ w ∈ p.waits, w.sw = k.val → b.fld .PWRB_GRANT 0 31 16 * 1000000 < now - w.since →
        abandons (.grantWaitTimeout k at_))
    ∧ Does (.shedRestore (some k) at_) s [.power] [] (fun t => t.eng.pwr = { p with
        shed := p.shed.map (fun y => if y.sw = k.val then { y with due := y.due || elapsed y.since } else y) })
    ∧ Does (.shedRestore none at_) s [.power] [] (fun t =>
        t.eng.pwr = { p with capDue := p.cap && (p.capDue || elapsed p.capSince) })
    ∧ (∀ (limit : Int) (a : Arb), (∃ y ∈ p.shed, y.sw = k.val ∧ y.due = true) → x.seq = .quiet → x.asksOn = true →
        b.runs (unitLsw k) = true → b.vpwrPresent = true → a.total + c + b.hyst ≤ limit →
        let r := Block.serve limit at_ (a, b) k
        started r.2 ∧ r.1.total = a.total + c ∧ r.1.restored = a.restored ++ [unitLsw k]
          ∧ r.2.eng.pwr = { p with waits := p.waits.filter (fun w => w.sw != k.val)
                                   shed := p.shed.filter (fun x => x.sw != k.val) })
    ∧ ∀ (limit : Int) (a : Arb), p.cap = true → p.capDue = true → b.bareTotal a.total + b.hyst ≤ limit →
        let r := Block.serveCap limit (a, b)
        r.2.eng.pwr = { p with cap := false, capSince := none, capDue := false }
          ∧ r.1.total = b.bareTotal a.total ∧ r.1.restored = a.restored ++ b.bridgeUnits

/-- DOZE_DWELL_EXPIRY, HOLD_DWELL_EXPIRY, DORMANT_DWELL_EXPIRY (R313, R314), WAKE_EVENT (R311). -/
def Obligations.PowerStatesGoDownAndUp : Prop :=
  ∀ (s : State) (at_ : Nat), s.Sound →
    let b := s.blk
    let p := b.eng.pwr
    let now := b.now at_
    let kept : List BlockPart := [BlockPart.clock, BlockPart.update, BlockPart.diary, BlockPart.valve, BlockPart.map, BlockPart.power] ++ eventParts
    let words := addr .MAP_CNT_FILL :: eventWords [56, 123]
    let writable : Prop := b.flag .DIARY_CFG 0 0 = false ∧ b.diary.failed = false ∧ b.diary.fifo.length ≤ 4096
      ∧ b.diary.staging.length < stagingSlots
    let down (state : PState) (t : Block) : Prop :=
      t.eng.pwr = { p with state := state } ∧ t.diary.freeze = none ∧ (writable → t.diary.fifo = [])
        ∧ t.upd = { b.upd with learned := b.eng.valve.noz.map (·.learned) }
        ∧ t.eng.valve = { b.eng.valve with learnedDirty := false, learnedAt := now }
        ∧ t.diary.drainedMram = b.diary.drained
        ∧ t.time.rtc = b.time.rtc.write (b.time.dev + at_) now b.time.taiUtc b.time.rtc.valid
        ∧ (∀ f < 128, (t.frame f).state ≠ .filling) ∧ (∀ f ∈ t.eng.map.faults, f = none)
        ∧ t.eng.map.replay = b.eng.map.replay
        ∧ (b.diary.freeze ≠ none → Raised 123 b t)
    (∀ t0, p.dozeSince = some t0 → t0 + b.fld .DEV_PCTRL 0 15 8 * 10000000 ≤ now → p.state.code ≤ 1 →
      2 ≤ p.target.code →
      Does (.dozeDwellExpiry at_) s [.power] [] (fun t => t.eng.pwr = { p with state := .doze }))
    ∧ (∀ t0, p.holdSince = some t0 → t0 + b.fld .DEV_PCTRL 0 23 16 * 100000000 ≤ now → p.state.code ≤ 2 →
      3 ≤ p.target.code →
      Does (.holdDwellExpiry at_) s kept words (down .hold))
    ∧ (∀ t0, p.dormSince = some t0 → t0 + b.fld .DEV_PCTRL 0 31 24 * 1000000000 ≤ now → p.state.code ≤ 3 →
      p.target = .dormant →
      Does (.dormantDwellExpiry at_) s kept words (down .dormant))
    ∧ ∀ (cause : Sys2Proof.WakeCause) (heldTicks : Nat),
      let awake := { p with state := .active }
      let woken (q : Power) (t : Block) : Prop := t.eng.pwr = { q with lastCause := wakeCode cause }
        ∧ { t.eng.loop with slots := b.eng.loop.slots } = b.eng.loop
        ∧ (∀ l < 32, t.slot l = if b.slotRuns l then {} else b.slot l) ∧ Raised 5 b t
      (p.state = .idle → Does (.wakeEvent cause heldTicks) s [.power] [] (fun t => t.eng.pwr = awake))
      ∧ (p.state = .doze → cause ≠ .ecuPower → cause ≠ .input → cause ≠ .alarm →
        Does (.wakeEvent cause heldTicks) s ([BlockPart.power, BlockPart.loops, BlockPart.clock] ++ eventParts) (eventWords [5]) (fun t =>
          woken awake t ∧ t.time = { b.time with dozing := true }))
      ∧ (p.state = .hold → cause ≠ .event → cause ≠ .condition →
        Does (.wakeEvent cause heldTicks) s
          ([BlockPart.power, BlockPart.loops, BlockPart.clock, BlockPart.pose, BlockPart.valve, BlockPart.map, BlockPart.sent] ++ eventParts) (eventWords [5, 39, 114]) (fun t =>
            woken { awake with dozeSince := none, holdSince := none, dormSince := none } t ∧ t.time.count = b.time.count + BitVec.ofNat 32 heldTicks
              ∧ t.time.dev = (b.time.rtc.upTo (b.time.now + heldTicks * tickNs)).deviceTime
              ∧ t.time.servo = .free ∧ t.time.rebuilt = true
              ∧ t.eng.pose = { b.eng.pose.uninit with grade := t.eng.pose.grade }))

/-- DORMANT_WAKE (R315), RTC_ALARM (R311). -/
def Obligations.WakesFromDormant : Prop :=
  ∀ (s : State) (offNs : Nat), s.Sound →
    let b := s.blk
    let woken (i : Instr) (cause : Nat) (alarmEn : Bool) : Prop := Gives i s (fun t =>
      Restarted b t .dormantExit ∧ t.eng.pwr.dormCause = cause ∧ t.time.rtc.alarmEn = alarmEn)
    let alarm := b.time.rtc.upTo (b.now offNs)
    (b.eng.pwr.state = .dormant → b.sup.holdUp = false → b.time.rtc.running = true →
      woken (.dormantWake .key offNs) 1 b.time.rtc.alarmEn
      ∧ (∀ mv, 8000 < mv → b.flag .DEV_PCTRL 0 4 = true →
        woken (.dormantWake (.ecuPower mv) offNs) 2 b.time.rtc.alarmEn)
      ∧ (b.time.rtc.alarmEn = true → woken (.dormantWake .alarm offNs) 3 false)
      ∧ (alarm.alarmEn = true → alarm.alarm.toNat ≤ alarm.sec → woken (.rtcAlarm offNs) 3 false))
    ∧ (b.eng.pwr.state = .hold → b.sup.holdUp = false → alarm.running = true → alarm.alarmEn = true →
      alarm.alarm.toNat ≤ alarm.sec →
      Does (.rtcAlarm offNs) s ([BlockPart.power, BlockPart.loops, BlockPart.clock, BlockPart.pose, BlockPart.valve, BlockPart.map, BlockPart.sent] ++ eventParts)
        (eventWords [5, 39, 114]) (fun t =>
          t.eng.pwr.state = .active ∧ t.eng.pwr.lastCause = 7 ∧ t.time.rtc.alarmEn = false ∧ Raised 5 b t))
    ∧ (b.sup.holdUp = true → ∀ cause, Does (.dormantWake cause offNs) s [] [] (fun t => t = b))
    ∧ (b.sup.holdUp = true → Does (.rtcAlarm offNs) s [] [] (fun t => t = b))

/-- LS_OVERCURRENT, LS_SHORT, LS_THERMAL, LS_OPEN_LOAD_ON, LS_OFF_STATE_TEST (R325). -/
def Obligations.LoadSwitchTripsAndDiagnoses : Prop :=
  ∀ (s : State) (k : Fin 16) (ma ns at_ : Nat), s.Sound →
    let b := s.blk
    let x := (b.lswRoll k at_).sw k
    let x0 := b.sw k
    let p := b.eng.pwr
    let now := b.now at_
    let cools (i : Instr) (flag : Nat) (y : Lsw) : Prop :=
      Does i s (.lsw :: eventParts) (addr .LSW_FLT k :: eventWords [81]) (fun t =>
        t.eng.lsw = modNth b.eng.lsw k (fun _ => { y with seq := .cool, trips := x.trips + 1, since := now })
          ∧ t.word .LSW_FLT k = b.word .LSW_FLT k ||| BitVec.ofNat 32 (2 ^ flag)
          ∧ (b.evt.quiet 81 now = false → Raised 81 b t))
    let faults (i : Instr) (flag : Nat) (y : Lsw) (more : List Nat) : Prop :=
      Does i s ([BlockPart.lsw, BlockPart.power, BlockPart.unitReqs, BlockPart.hand] ++ eventParts) (addr .LSW_FLT k :: eventWords (80 :: more)) (fun t =>
        t.eng.lsw = modNth b.eng.lsw k (fun _ =>
            { y with seq := .fault, held := false, queued := false, want := false, since := now })
          ∧ t.eng.pwr = { p with waits := p.waits.filter (fun w => w.sw != k.val)
                                 shed := p.shed.filter (fun x => x.sw != k.val) }
          ∧ t.word .LSW_FLT k = b.word .LSW_FLT k ||| BitVec.ofNat 32 (2 ^ flag)
          ∧ t.vig.reqs = (b.faultUnit (unitLsw k) at_).vig.reqs ∧ ∀ n ∈ 80 :: more, Raised n b t)
    let notes (i : Instr) (flags : Nat) (y : Lsw) : Prop :=
      Does i s (.lsw :: eventParts) (addr .LSW_FLT k :: eventWords [82]) (fun t =>
        t.eng.lsw = modNth b.eng.lsw k (fun _ => y) ∧ Raised 82 b t ∧ t.word .LSW_FLT k = b.word .LSW_FLT k ||| BitVec.ofNat 32 flags)
    let retries := x.set.cfg.getLsbD 1 = true ∧ x.trips < bits x.set.prot 23 20 ∧ x.held = false
    (x.seq = .demag →
      (¬ retries → (x.limitMa < ma → bits x.set.prot 19 16 * 1000 ≤ ns → faults (.lsOvercurrent k ma ns at_) 1 x [])
        ∧ (∀ tj : Int, 1700 < tj → faults (.lsThermal k tj at_) 2 { x with tj := tj } []))
      ∧ (25000 ≤ ma → 2000 ≤ ns → faults (.lsShort k ma ns at_) 0 x0 []))
    ∧ (x.conducts = true →
      (x.limitMa < ma → bits x.set.prot 19 16 * 1000 ≤ ns →
        (retries → cools (.lsOvercurrent k ma ns at_) 1 x)
        ∧ (¬ retries → faults (.lsOvercurrent k ma ns at_) 1 x []))
      ∧ (∀ tj : Int, 1700 < tj →
        (retries → cools (.lsThermal k tj at_) 2 { x with tj := tj })
        ∧ (¬ retries → faults (.lsThermal k tj at_) 2 { x with tj := tj } []))
      ∧ (25000 ≤ ma → 2000 ≤ ns → faults (.lsShort k ma ns at_) 0 x0 [])
      ∧ (x.held = false → 100 ≤ x.d → ma < bits x.set.prot 8 0 * 2 → 100000000 ≤ ns → b.vpwrPresent = true →
        (x.set.cfg.getLsbD 2 = true → faults (.lsOpenLoadOn k ma ns at_) 3 x [82])
        ∧ (x.set.cfg.getLsbD 2 = false → notes (.lsOpenLoadOn k ma ns at_) 8 x)))
    ∧ (x0.seq = .quiet → x0.held = false → b.vpwrPresent = true → ∀ pulledMv freeMv : Nat,
      (3000 < pulledMv → 10000000 ≤ ns → freeMv ≤ 6000 → notes (.lsOffStateTest k pulledMv ns freeMv at_) 8 x0)
      ∧ (pulledMv ≤ 3000 → 6000 < freeMv → notes (.lsOffStateTest k pulledMv ns freeMv at_) 16 x0)
      ∧ (3000 < pulledMv → 10000000 ≤ ns → 6000 < freeMv → notes (.lsOffStateTest k pulledMv ns freeMv at_) 24 x0)
      ∧ (pulledMv ≤ 3000 → freeMv ≤ 6000 →
        Does (.lsOffStateTest k pulledMv ns freeMv at_) s [] [] (fun t => t = b)))

/-- INRUSH_WINDOW_END, LS_DEMAG_DONE (R321), INRUSH_CUT (R326), LS_RETRY_DELAY_END, LS_TRIP_COUNT_RESET (R325). -/
def Obligations.LoadSwitchFromStartToQuiet : Prop :=
  ∀ (s : State) (k : Fin 16) (at_ : Nat), s.Sound →
    let b := s.blk
    let x := (b.lswRoll k at_).sw k
    let x0 := b.sw k
    let set := b.lswWords k
    let duty := { x with set := set }.dutyNow b.eng.pwr.latch.vpwr
    let now := b.now at_
    let becomes (i : Instr) (y : Lsw) : Prop :=
      Does i s [.lsw] [] (fun t => t.eng.lsw = modNth b.eng.lsw k (fun _ => y))
    (x.seq = .inrush → bits x.set.limit 22 14 * 1000000 ≤ now - x.since →
      becomes (.inrushWindowEnd k at_) { x with seq := .on, limitMa := x.set.ilim, since := now })
    ∧ (x0.seq = .demag → ∀ ma, ma < 20 → becomes (.lsDemagDone k ma at_) { x0 with seq := .quiet, since := now })
    ∧ (x0.seq = .on → 1000000000 ≤ now - x0.since → becomes (.lsTripCountReset k at_) { x0 with trips := 0 })
    ∧ (x.seq = .cool → bits x.set.prot 31 24 * 10000000 ≤ now - x.since → ∀ (ma : Nat) (tj : Int),
      ma < 20 → tj < 1400 →
      (x.asksOn = false ∨ b.runs (unitLsw k) = false →
        becomes (.lsRetryDelayEnd k ma tj at_) { x with seq := .quiet, since := now, tj := tj })
      ∧ (x.asksOn = true → b.runs (unitLsw k) = true → b.vpwrPresent = true → x.held = false →
        b.isShed k = false → b.eng.pwr.waits = [] → (b.startCharge k * 1000 : Nat) ≤ b.eng.pwr.allowance →
        Does (.lsRetryDelayEnd k ma tj at_) s (.lsw :: .power :: eventParts)
          (addr .LSW_CNT k :: eventWords [83]) (fun t =>
            KeepsRows k.val b.eng.lsw t.eng.lsw
              ∧ t.sw k = { x with
                  seq := if b.hasWindow k then .inrush else .on
                  limitMa := if b.hasWindow k then b.lswIrLim k else b.lswIlim k
                  cut := b.fld .LSW_LIMIT k 22 14 != 0 && b.pairHot k
                  queued := false, want := false, retry := false, since := now, tj := tj
                  set := set, period := set.period (b.devNow at_), d := duty, dPrev := duty }
              ∧ t.fld .LSW_CNT k 15 0 = min (b.fld .LSW_CNT k 15 0 + 1) 65535
              ∧ t.fld .LSW_CNT k 23 16 = min (b.fld .LSW_CNT k 23 16 + 1) 255
              ∧ t.eng.pwr = { b.eng.pwr with allowance := b.eng.pwr.allowance - (b.startCharge k * 1000 : Nat) })))
    ∧ ∀ (m : Fin 8) (temp : Int),
      let hot : Bool := (b.fld .LSW_PAIR_CFG 0 7 0 * 10 : Nat) < temp
      let after (j : Nat) : Lsw :=
        let y : Lsw := { (if hot then (b.lswRoll j at_).sw j else b.sw j) with tpair := temp }
        if hot ∧ y.seq = .inrush then { y with seq := .on, limitMa := y.set.ilim, cut := true, since := now } else y
      Does (.inrushCut m temp at_) s (.lsw :: eventParts)
        (addr .LSW_CNT (2 * m.val) :: addr .LSW_CNT (2 * m.val + 1) :: eventWords [83]) (fun t =>
          t.eng.lsw = modNth (modNth b.eng.lsw (2 * m.val) (fun _ => after (2 * m.val))) (2 * m.val + 1)
              (fun _ => after (2 * m.val + 1))
            ∧ ∀ j ∈ [2 * m.val, 2 * m.val + 1], t.fld .LSW_CNT j 31 24 =
                if hot ∧ (b.sw j).seq = .inrush then min (b.fld .LSW_CNT j 31 24 + 1) 255 else b.fld .LSW_CNT j 31 24)

/-- SESSION_OPEN HELLO and PROOF (R342 to R344), HELLO_TIMEOUT (R343), AUTH_LOCKOUT_END (R344). -/
def Obligations.SessionsOpen : Prop :=
  ∀ (s : State) (h : Hdr) (k : Sess) (kind : Byte), sessKind kind = some k →
    let b := s.blk
    let x := b.link.sess k
    let now := b.now h.at_
    let free : Prop := b.reachable = true ∧ h.multicast = false ∧ b.upd.recovery = false ∧ b.queue h.queue = []
      ∧ b.held h = false ∧ b.roomFor h = true ∧ h.len = 40 ∧ hintTooFar b.time.count h.hint = false
    let plain (y : Session) : Session := { y with events := [], evDiscarded := 0 }
    let otherSame (t : Block) : Prop := plain (t.link.sess (otherSess k)) = plain (b.link.sess (otherSess k))
    (∀ nonce : BitVec 128, free → h.session = 0 → b.lockedOut h.addr now = false →
      ¬ (k = .main ∧ b.upd.state = .migrationFailed) →
      (x.state = .closed ∨ (x.state = .hello ∧ x.addr = h.addr)) →
      Does (.sessionOpenHello h kind nonce) s [.requests, .sent, .sessions, .keepalive, .draws, .hand] (requestWords h) (fun t =>
        let y := t.link.sess k
        otherSame t ∧ y.state = .hello ∧ y.id ≠ 0 ∧ y.id ≠ (b.link.sess (otherSess k)).id ∧ y.addr = h.addr
          ∧ y.port = h.port ∧ y.hostNonce = leBytes 16 nonce.toNat ∧ y.devNonce.length = 16
          ∧ t.link.sent = b.link.sent ++ answer h 0x0003 .ok b.time.count
              (y.devNonce ++ leBytes 2 y.id.toNat ++ leBytes 2 0)))
    ∧ (∀ proof : BitVec 256, free → b.sessionOf h = none → x.state = .hello → x.id = h.session →
      x.addr = h.addr → x.port = h.port → b.lockedOut h.addr now = false →
      (leBytes 32 proof.toNat = b.proof k "VRKH1" →
        Does (.sessionOpenProof h kind proof) s
          [.requests, .sent, .sessions, .keepalive, .replies, .sessRegs, .evQueues, .txns, .map, .hand] (requestWords h) (fun t =>
            otherSame t ∧ (t.link.sess k).state = .opened ∧ (t.link.sess k).id = x.id
              ∧ (t.link.sess k).replies = answer h 0x0003 .ok b.time.count (b.proof k "VRKD1")
              ∧ (t.link.sess k).events = [] ∧ (t.link.sess k).txn.state = .none ∧ (t.link.sess k).since = now ∧ (t.link.sess k).regs = x.regs
              ∧ Answered b t h 0x0003 .ok b.time.count (b.proof k "VRKD1")))
      ∧ (leBytes 32 proof.toNat ≠ b.proof k "VRKH1" → b.diary.freeze = none →
        let fails := (b.link.authFails.filter (fun f => decide (now < f.at_ + 60000000000)))
          ++ [{ addr := h.addr, at_ := now }]
        Does (.sessionOpenProof h kind proof) s
          ([BlockPart.requests, BlockPart.sent, BlockPart.sessions, BlockPart.sessRegs, BlockPart.linkOther, BlockPart.hand] ++ eventParts)
          (addr .LINK_CNT1 :: requestWords h ++ eventWords [7]) (fun t =>
            otherSame t ∧ (t.link.sess k).state = .closed ∧ (t.link.sess k).endCause = .authFailed
              ∧ t.fld .LINK_CNT1 0 31 24 = min (b.fld .LINK_CNT1 0 31 24 + 1) 255 ∧ Raised 7 b t
              ∧ Answered b t h 0x0003 .authFailed b.time.count []
              ∧ ((fails.filter (fun f => f.addr == h.addr)).length < 3 →
                  t.link.lockouts = b.link.lockouts)
              ∧ t.link.authFails = fails
              ∧ (3 ≤ (fails.filter (fun f => f.addr == h.addr)).length → t.lockedOut h.addr now = true))))
    ∧ (x.state = .hello → x.since + 1000000000 ≤ now → b.diary.freeze = none →
      Does (.helloTimeout k h.at_) s [.sessions, .sessRegs, .evQueues] [] (fun t =>
        otherSame t ∧ (t.link.sess k).state = .closed ∧ (t.link.sess k).endCause = .helloExpired))
    ∧ ∀ f ∈ b.link.lockouts, f.addr = h.addr → f.at_ + 10000000000 ≤ now →
      Does (.authLockoutEnd h.addr h.at_) s [.linkOther] [] (fun t => f ∉ t.link.lockouts
        ∧ (∀ g ∈ b.link.lockouts, g.addr ≠ h.addr → g ∈ t.link.lockouts)
        ∧ t.link = { b.link with lockouts := t.link.lockouts })

/-- KEEPALIVE_TIMEOUT, SESSION_CLOSE, SESSION_RESET (R346, R347). -/
def Obligations.SessionsEnd : Prop :=
  ∀ (s : State) (h : Hdr) (k : Sess), s.Sound →
    let b := s.blk
    let x := b.link.sess k
    let now := b.now h.at_
    let mine : ReqSource := match k with
      | .main => .main
      | .service => .service
    let isLoss (e : Posted) : Bool := match e.act with
      | .loss _ _ => true
      | _ => false
    let plain (y : Session) : Session := { y with events := [], evDiscarded := 0 }
    let withdrawn (seq : Nat) (ended : Bool) (t : Block) : Prop :=
      plain (t.link.sess (otherSess k)) = plain (b.link.sess (otherSess k))
        ∧ t.link.queues = b.link.queues.map (fun q => q.filter (fun w => w.sess != some k))
        ∧ t.posted = b.posted.filter (fun e => e.sess != some k || isLoss e)
            ++ [{ seq := seq, sess := some k, arrived := now, since := (b.reaches h.at_).stagedAt
                  act := .loss k ended }]
        ∧ (∀ r ∈ t.vig.reqs, r.source ≠ mine)
        ∧ (∀ u < 203, b.governor u = some k → ∀ st, b.lossState k u = some st →
            ({ unit := u, source := .vigil, target := st, cause := .sessionLoss
               since := (b.reaches h.at_).stagedAt } : UnitReq) ∈ t.vig.reqs)
        ∧ (t.link.sess k).replies = [] ∧ (t.link.sess k).txn.state = .none
        ∧ (∀ f, b.diary.freeze = some f → f.by_ = k → t.diary.freeze = none ∧ Raised 123 b t)
    let ended (cause : SessEnd) (t : Block) : Prop :=
      (t.link.sess k).state = .closed ∧ (t.link.sess k).id = 0 ∧ (t.link.sess k).endCause = cause
        ∧ (t.link.sess k).events = [] ∧ (t.link.sess k).regs = x.regs
        ∧ (k = .service → t.vig.dbg = .locked ∧ (b.vig.dbg ≠ .locked → Raised 118 b t))
        ∧ (k = .main ∨ b.vig.dbg ≠ .halted → t.eng.mot = b.eng.mot ∧ t.time.run = b.time.run)
        ∧ { t.time with hand := b.time.hand, run := b.time.run } = b.time
    let parts : List BlockPart := [BlockPart.requests, BlockPart.posted, BlockPart.unitReqs, BlockPart.units, BlockPart.txns, BlockPart.replies, BlockPart.diary, BlockPart.hand] ++ eventParts
    let later (op : BitVec 16) (t : Block) : Prop :=
      t.link.sent = b.link.sent ++ (if h.asyncOk then answer h op .accepted b.time.count [] else [])
        ∧ t.link.progress.filter (fun p => p.hdr == h && p.opcode == op) =
            [{ seq := b.link.arrivals, sess := k, hdr := h, opcode := op, ends := .final
               since := (b.reaches h.at_).stagedAt, holds := h.fenceAfter }]
    let ms := match k with
      | .main => b.fld .LINK_SESS_CFG 0 12 0
      | .service => b.fld .LINK_SESS_CFG 0 28 16
    (x.state = .opened → x.since + ms * 1000000 ≤ now →
      Does (.keepaliveTimeout k h.at_) s (parts ++ [BlockPart.sessions, BlockPart.sessRegs, BlockPart.vigil, BlockPart.clock, BlockPart.motors]) (eventWords [6, 118, 123]) (fun t =>
        withdrawn b.link.arrivals true t ∧ ended .keepalive t ∧ Raised 6 b t))
    ∧ (b.link.progress = [] →
      (Served b h k sessionCloseRow →
        Does (.sessionClose h) s (parts ++ [BlockPart.sessions, BlockPart.sessRegs, BlockPart.vigil, BlockPart.clock, BlockPart.motors, BlockPart.sent, BlockPart.keepalive])
          (requestWords h ++ eventWords [118, 123]) (fun t =>
            withdrawn (b.link.arrivals + 1) true t ∧ ended .close t ∧ later 0x0004 t))
      ∧ (Served b h k sessionResetRow → h.asyncOk = false →
        Does (.sessionReset h) s (parts ++ [BlockPart.sent, BlockPart.keepalive]) (requestWords h ++ eventWords [123]) (fun t =>
          withdrawn (b.link.arrivals + 1) false t ∧ (t.link.sess k).state = .opened ∧ later 0x0005 t)))

/-- NOP, IDENTIFY, DEVICE_RESET (R358), FENCE (R356, R152), INVALID_REQUEST (R338). -/
def Obligations.RequestsOfTheProtocol : Prop :=
  ∀ (s : State) (h : Hdr) (k : Sess), s.Sound →
    let b := s.blk
    let count := b.time.count
    (Served b h k nopRow → ∀ payload, Serves (.nop h payload) s h 0x0001 .ok count payload [] [] (fun _ => True))
    ∧ (Served b h k identifyRow →
        Serves (.identify h) s h 0x0002 .ok count b.identity [] [] (fun _ => True))
    ∧ (b.linked = true → h.session = 0 → h.multicast = false → b.queue h.queue = [] → b.held h = false → b.roomFor h = true → h.len = 0 →
        hintTooFar count h.hint = false →
        Does (.identify h) s [.requests, .sent, .hand] (requestWords h) (fun t =>
          t.link.sent = b.link.sent ++ answer h 0x0002 .ok count b.identity))
    ∧ (Served b h k deviceResetRow →
        Serves (.deviceReset h 0x7A5C) s h 0x0006 .ok count [] [.vigil] [] (fun t =>
          t.vig = { b.vig with resetDue := true })
        ∧ ∀ word, word ≠ 0x7A5C → Serves (.deviceReset h word) s h 0x0006 .range count [] [] [] (fun _ => True))
    ∧ (Served b h k fenceRow → h.asyncOk = false → b.earlierOpen k b.link.arrivals = false →
        Serves (.fenceCompletion h) s h 0x001F .ok count [] [] [] (fun t => t.link.progress = b.link.progress)
        ∧ (b.openFills = [] → Serves (.fenceDma h) s h 0x001F .ok count [] [] [] (fun t =>
            t.link.progress = b.link.progress))
        ∧ Does (.fenceTick h) s requestParts (requestWords h) (fun t => t.link.sent = b.link.sent
            ∧ t.link.progress = b.link.progress ++ [{ seq := b.link.arrivals, sess := k, hdr := h, opcode := 0x001F
                                                      ends := .tickCommit, since := (b.reaches h.at_).stagedAt, holds := true }]))
    ∧ (b.linked = true →
        (∀ why ∈ [Sys2Proof.BadRequest.wrongLength, .notRequest],
          Does (.invalidRequest h why) s [] [addr .LINK_CNT0] (fun t =>
            t.fld .LINK_CNT0 0 31 16 = min (b.fld .LINK_CNT0 0 31 16 + 1) 65535))
        ∧ (∀ op, Does (.invalidRequest h (.badCrc op)) s [.sent] [addr .LINK_CNT0] (fun t =>
            t.fld .LINK_CNT0 0 15 0 = min (b.fld .LINK_CNT0 0 15 0 + 1) 65535
              ∧ ((b.link.sess k).state = .opened → (b.link.sess k).id = h.session → (b.link.sess k).addr = h.addr →
                  (b.link.sess k).port = h.port → t.link.sent = b.link.sent ++ answer h op .badCrc count [])
              ∧ ((b.link.main.id ≠ h.session ∨ b.link.main.port ≠ h.port) →
                  (b.link.service.id ≠ h.session ∨ b.link.service.port ≠ h.port) → t.link.sent = b.link.sent)))
        ∧ (∀ op, Does (.invalidRequest h (.badVersion op)) s [.sent] [] (fun t =>
            t.link.sent = b.link.sent ++ answer h op .badOpcode count []))
        ∧ (∀ op, h.multicast = false → b.sessionOf h = some k →
            Does (.invalidRequest h (.unknownOpcode op)) s [.sent, .replies, .keepalive] [] (fun t =>
              t.link.sent = b.link.sent ++ answer h op .badOpcode count [])))
    ∧ ∀ kind, Served b h k (kindedRow kind) →
        Serves (.invalidRequest h (.reservedKind kind)) s h (kindedRow kind).code .range count [] [] [] (fun _ => True)

/-- ETH_LINK_DOWN, ETH_LINK_UP (R491), PHY_ROLE_CHANGE (R490), PDELAY_EXCHANGE (R335), NEIGHBOUR_SOLICITATION (R331),
    EVENT_PACKET_SEND (R434), the order of the transmit buffers (R364). -/
def Obligations.PortsAndEventPackets : Prop :=
  ∀ (s : State) (p : Sys2Proof.EthPort) (at_ : Nat),
    let b := s.blk
    let x := b.link.port p
    let source := 8 + portNo p
    let otherPort (t : Block) : Prop := match p with
      | .a => t.link.portB = b.link.portB
      | .b => t.link.portA = b.link.portA
    let lost : List BlockPart := [BlockPart.requests, BlockPart.posted, BlockPart.unitReqs, BlockPart.units, BlockPart.txns, BlockPart.replies, BlockPart.diary, BlockPart.sessions, BlockPart.sessRegs
      , BlockPart.vigil, BlockPart.clock, BlockPart.motors, BlockPart.hand, BlockPart.ports] ++ eventParts
    let words := addr .LINK_PHY_CNT (portNo p) :: eventWords [6, source, 118, 123]
    let dropped (t : Block) : Prop := otherPort t ∧ Raised source b t
      ∧ t.fld .LINK_PHY_CNT (portNo p) 7 0 = min (b.fld .LINK_PHY_CNT (portNo p) 7 0 + 1) 255
      ∧ (p = .a → ∀ k ∈ [Sess.main, .service], (t.link.sess k).state = .closed
          ∧ ((b.link.sess k).state ≠ .closed → (t.link.sess k).endCause = .linkLost))
      ∧ { t.time with hand := b.time.hand, run := b.time.run } = b.time
      ∧ (b.vig.dbg ≠ .halted → t.eng.mot = b.eng.mot ∧ t.time.run = b.time.run)
      ∧ (p = .b → ∀ k ∈ [Sess.main, .service], (t.link.sess k).state = (b.link.sess k).state)
    let down : Port := { x with up := false, goodExchanges := 0, sqi := 0 }
    (x.up = true →
      Does (.ethLinkDown p at_) s lost words (fun t => dropped t ∧ t.link.port p = down)
      ∧ ∀ t0, x.roleAt = some t0 → t0 ≤ b.now at_ →
        Does (.phyRoleChange p at_) s lost words (fun t => dropped t
          ∧ t.link.port p = { down with roleAt := none, leader := b.flag .LINK_PHY_ROLE 0 (portNo p) }))
    ∧ (x.up = false → b.eng.pwr.state ≠ .dormant → ∀ trainMs (sqi : Fin 8),
      Does (.ethLinkUp p trainMs sqi) s (.ports :: .linkOther :: eventParts) (eventWords [source]) (fun t =>
        otherPort t ∧ t.link.port p = { x with up := true, trainMs := min trainMs 65535, sqi := sqi }
          ∧ (b.evtEnabled source = true → t.evt.cond.getLsbD source = false)))
    ∧ (x.up = true →
      (∀ d, Does (.pdelayExchange p (some d)) s [.ports] [] (fun t => otherPort t
        ∧ t.link.port p = { x with
            linkDelay := min d 65535, goodExchanges := x.goodExchanges + 1, lastExchange := b.time.now }
        ∧ (t.asCapable (t.link.port p) = true ↔
            2 ≤ x.goodExchanges ∧ min d 65535 ≤ b.fld .LINK_PTP_CFG 0 15 0)))
      ∧ Does (.pdelayExchange p none) s [.ports] [] (fun t => otherPort t
        ∧ t.link.port p = { x with goodExchanges := 0 } ∧ t.asCapable (t.link.port p) = false))
    ∧ (b.linked = true → ∀ source, Does (.neighbourSolicitation .a b.linkLocal source) s [.linkOther] [] (fun t =>
        t.link = { b.link with advertisements := b.link.advertisements ++ [source] }))
    ∧ (∀ (k : Sess) (o : Occurrence) (rest : List Occurrence),
      let q := (b.link.sess k).events
      q = o :: rest → (b.link.sess k).state = .opened →
      (43 ≤ q.length ∨ o.first + b.fld .EVT_CTRL 0 7 0 * 1000000 ≤ b.now at_) →
      Does (.eventPacketSend k at_) s [.sent, .evQueues] [] (fun t =>
        t.link.sent = b.link.sent ++ ownPackets b k 0x0080 0
            [leBytes 1 (min 43 q.length) ++ [0] ++ leBytes 2 (b.link.sess k).evDiscarded
              ++ ((q.take 43).map Occurrence.eventBytes).flatten]
          ∧ (t.link.sess k).events = q.drop 43 ∧ (t.link.sess k).evDiscarded = 0
          ∧ t.link.sess (otherSess k) = b.link.sess (otherSess k)))
    ∧ ∀ (x : Transmit) (q : Packet), q ∈ x.waiting → ∃ p, x.next = some p ∧ p ∈ x.waiting ∧ p.priority ≤ q.priority
        ∧ x.waiting.find? (fun r => r.priority == p.priority && (r.opcode == 0x0083) == (p.opcode == 0x0083)) = some p
        ∧ (p.priority = 3 → (q.opcode == 0x0083) ≠ (p.opcode == 0x0083) → (p.opcode == 0x0083) = !x.traceLast)

/-- CAN_ADDRESS_CLAIM, ADDRESS_CONTENTION, ADDRESS_CLAIM_REQUEST, ADDRESS_CLAIMED (R367), CAN_BUSOFF, BUSOFF_RECOVERY
    (R371). -/
def Obligations.AddressOnTheManagementBus : Prop :=
  ∀ (s : State) (at_ : Nat),
    let b := s.blk
    let c := b.can
    let pref := b.fld .CANB_CFG 0 23 16
    let sends (src : Byte) : CanMsg := { pgn := 60928, src := src, dst := 0xFF, data := leBytes 8 b.canName }
    let claims (x : Can) (from_ : Nat) (t : Block) : Prop :=
      (∀ a, freeAddress x.taken 121 from_ = some a → t.can = { x with
          claim := .claiming, sa := a, claimedAt := b.time.now, sent := x.sent ++ [sends a] })
      ∧ (freeAddress x.taken 121 from_ = none → t.can = { x with
          claim := .cannotClaim, sa := 0xFE, sent := x.sent ++ [sends 254] })
    let inUse : Byte := if c.claim = .cannotClaim then 254 else c.sa
    (b.canOn = true → c.claim = .claiming → c.sa = 0xFE → Does .canAddressClaim s [.can] [] (claims c pref))
    ∧ (c.claim = .busOff → b.flag .CANB_CFG 0 0 = true → b.ticking = true → b.vig.clockFault = false →
      b.upd.recovery = false →
      Does .busoffRecovery s [.can] [] (claims { c with claim := .claiming, sa := 0xFE, tec := 0, rec_ := 0 } pref))
    ∧ (b.canOn = true → ∀ (other : Byte) (name : BitVec 64),
      let noted : Can := { c with taken := other :: c.taken.filter (fun x => x != other) }
      (¬ (c.claim = .claiming ∨ c.claim = .claimed) ∨ other ≠ c.sa →
        Does (.addressContention other name) s [.can] [] (fun t => t.can = noted))
      ∧ ((c.claim = .claiming ∨ c.claim = .claimed) → other = c.sa →
        (b.canName < name.toNat → Does (.addressContention other name) s [.can] [] (fun t =>
          t.can = { c with sent := c.sent ++ [sends c.sa] }))
        ∧ (name.toNat ≤ b.canName → Does (.addressContention other name) s [.can] [addr .CANB_CNT] (fun t =>
          claims noted (other.toNat + 1) t ∧ t.fld .CANB_CNT 0 7 0 = min (b.fld .CANB_CNT 0 7 0 + 1) 255)))
      ∧ (c.sa ≠ 0xFE ∨ c.claim = .cannotClaim → Does (.addressClaimRequest other) s [.can] [] (fun t =>
          t.can = { c with sent := c.sent ++ [sends inUse] })))
    ∧ (b.canOn = true → c.claim = .claiming → c.sa ≠ 0xFE → c.claimedAt + 250000000 ≤ b.now at_ →
      Does (.addressClaimed at_) s [.can] [] (fun t => t.can = { c with claim := .claimed }))
    ∧ (b.canOn = true → Does .canBusoff s (.can :: eventParts) (addr .CANB_CNT :: eventWords [10]) (fun t =>
        t.can.claim = .busOff ∧ t.can.sa = 0xFE ∧ t.can.transfers = [] ∧ t.can.outgoing = [] ∧ t.can.tec = 255 ∧ t.can.sent = c.sent
          ∧ t.fld .CANB_CNT 0 15 8 = min (b.fld .CANB_CNT 0 15 8 + 1) 255 ∧ Raised 10 b t))

/-- UNIT_REQ, STATUS_REQ, STATUS_PERIODIC (R368, R369), DM1_PERIODIC, DM2_REQUEST (R366, R370), DM1_ACTIVE_TIMEOUT (R433). -/
def Obligations.ManagementPathAndTroubleCodes : Prop :=
  ∀ (s : State) (source : Byte) (at_ : Nat),
    let b := s.blk
    let c := b.can
    let now := b.now at_
    let sent (pgn : Nat) (dst : Byte) (data : Bytes) : List CanMsg :=
      if b.canOn = true ∧ c.claim = .claimed then c.sent ++ [{ pgn := pgn, src := c.sa, dst := dst, data := data }] else c.sent
    let said (pgn : Nat) (dst : Byte) (data : Bytes) : Can :=
      if b.canOn = true ∧ c.claim = .claimed then c.message pgn dst data else c
    let ack (good : Bool) (function : Byte) : List CanMsg :=
      sent 59392 0xFF ([if good then 0 else 1, function, 0xFF, 0xFF, source] ++ leBytes 3 61184)
    let status := sent 61184 (BitVec.ofNat 8 (b.fld .CANB_MGMT 0 15 8)) b.statusMsg
    (b.canOn = true → c.claim = .claimed → b.mgmtAccepts source = true → ∀ function target group : Byte,
      (∀ st release us, b.flag .CANB_MGMT 0 0 = true → function = 1 → mgmtTarget target = some (st, release) →
        groupUnits group.toNat = some us →
        Does (.unitReq source function target group) s [.can, .unitReqs] [] (fun t =>
          t.can = { c with sent := ack true function }
            ∧ (∀ u ∈ us, b.present u = true → ({ unit := u, source := .management, target := st, cause := .management
                                                 release := release, since := b.stagedAt } : UnitReq) ∈ t.vig.reqs)
            ∧ (∀ r ∈ t.vig.reqs, r ∈ b.vig.reqs ∨ (r.unit ∈ us ∧ r.source = .management))
            ∧ (∀ r ∈ b.vig.reqs, r.unit ∉ us ∨ r.source ≠ .management ∨ release = true → r ∈ t.vig.reqs)))
      ∧ (b.flag .CANB_MGMT 0 0 = false ∨ function ≠ 1 ∨ mgmtTarget target = none ∨ groupUnits group.toNat = none →
        Does (.unitReq source function target group) s [.can] [] (fun t =>
          t.can = { c with sent := ack false function })))
    ∧ (b.mgmtAccepts source = true →
      (b.flag .CANB_MGMT 0 0 = false → Does (.statusReq source) s [.can] [] (fun t =>
        t.can = { c with sent := ack false 2 }))
      ∧ (b.flag .CANB_MGMT 0 0 = true → b.fld .CANB_MGMT 0 23 16 ≠ 0 → Does (.statusReq source) s [.can] [] (fun t =>
        t.can = { c with sent := status })))
    ∧ (b.fld .CANB_MGMT 0 23 16 ≠ 0 → c.lastStatus + b.fld .CANB_MGMT 0 23 16 * 10000000 ≤ now →
      Does (.statusPeriodic at_) s [.can] [] (fun t => t.can = { c with sent := status, lastStatus := now }))
    ∧ (c.lastDm1 + 1000000000 ≤ now → Does (.dm1Periodic at_) s [.can, .codes] [] (fun t =>
        t.can = { said 65226 0xFF (b.dmData c.active) with newCode := false, lastDm1 := now }))
    ∧ (now < c.lastDm1 + 1000000000 → c.newCode = true → c.lastExtraDm1 = none →
      Does (.dm1Periodic at_) s [.can, .codes] [] (fun t =>
        t.can = { said 65226 0xFF (b.dmData c.active) with newCode := false, lastExtraDm1 := some now }))
    ∧ (∀ global, Does (.dm2Request source global) s [.can] [] (fun t =>
        t.can = said 65227 (if global then 0xFF else source) (b.dmData c.previous)))
    ∧ ∀ (q : Fin 128) (t0 : Nat) (d : Dtc), look b.evt.lastSeen q = some t0 → t0 + 1000000000 ≤ now →
      isCondition q = false → b.flag .EVT_CFG q 1 = false → c.active.find? (fun x => x.source == q.val) = some d →
      Does (.dm1ActiveTimeout q at_) s [.events, .codes] [] (fun t =>
        look t.evt.lastSeen q = none ∧ t.can.active = c.active.filter (fun x => x.source != q.val)
          ∧ t.can.previous = lastN 32 (c.previous ++ [d]) ∧ t.evt.pend = b.evt.pend)

/-- TRANSPORT_PROTOCOL_FRAME (R366), CAN_S_FRAME_RECEIVED, CAN_S_TRANSMIT_COMPLETE, CANS_RX_POP, CANS_TX_GO (R372, R375). -/
def Obligations.CanFrames : Prop :=
  ∀ (s : State),
    let b := s.blk
    let c := b.can
    (∀ (source dest : Byte) (data : BitVec 64), b.canOn = true → c.claim = .claimed → dest = c.sa ∨ dest = 0xFF →
      (frameByte data 0 = 17 → ∀ o, c.outgoing.find? (fun o => o.dst == source && o.pgn == frameNum data 5 3) = some o →
        Does (.transportProtocolFrame source dest false true data) s [.can] [] (fun t =>
          t.can = { c with sent := c.sent ++ (tpPackets o.data (frameByte data 2) (frameByte data 1)).map (fun d =>
            { pgn := 60160, src := c.sa, dst := source, data := d }) }))
      ∧ (frameByte data 0 = 19 → Does (.transportProtocolFrame source dest false true data) s [.can] [] (fun t =>
          t.can = { c with outgoing := c.outgoing.filter (fun o => o.dst != source) })) ∧
      let reply (head : Bytes) (pgn : Nat) : CanMsg :=
        { pgn := 60416, src := c.sa, dst := source, data := head ++ List.replicate (5 - head.length) 0xFF ++ leBytes 3 pgn }
      let pgn := frameNum data 5 3
      let size := frameNum data 1 2
      let rest := otherTransfers c.transfers source dest false
      (frameByte data 0 = 16 →
        (size ≤ 1785 → Does (.transportProtocolFrame source dest false true data) s [.can] [] (fun t =>
          t.can = { c with
            transfers := rest ++ [{ src := source, dst := dest, pgn := pgn, size := size, extended := false
                                    broadcast := false, data := [], nextSeq := 1 }]
            sent := c.sent ++ [reply ([17] ++ leBytes 1 (min ((size + 6) / 7) 255) ++ leBytes 1 1) pgn] }))
        ∧ (1785 < size → Does (.transportProtocolFrame source dest false true data) s [.can] [] (fun t =>
          t.can = { c with sent := c.sent ++ [reply [255] pgn] })))
      ∧ ∀ x, c.transfers.find? (fun t => t.src == source && t.dst == dest && t.extended == false) = some x →
        frameByte data 0 + x.offset = x.nextSeq →
        let all := (x.data ++ leBytes 7 (frameNum data 1 7)).take x.size
        (all.length < x.size → Does (.transportProtocolFrame source dest false false data) s [.can] [] (fun t =>
          t.can = { c with transfers := rest ++ [{ x with data := all, nextSeq := x.nextSeq + 1 }] }))
        ∧ (x.size ≤ all.length → Does (.transportProtocolFrame source dest false false data) s [.can] [] (fun t =>
          t.can = { c with
            transfers := rest
            received := c.received ++ [{ pgn := x.pgn, src := source, dst := dest, data := all }]
            sent := if x.broadcast then c.sent
              else c.sent ++ [reply ([19] ++ leBytes 2 x.size ++ leBytes 1 ((x.size + 6) / 7)) x.pgn] })))
    ∧ (∀ (ident : Word) (dlc : Fin 16) (data : Bytes) (f : Nat), b.flag .CANS_CFG 0 0 = true →
      (ident.getLsbD 30 = true → b.flag .CANS_CFG 0 1 = true) → b.ticking = true →
      (List.range 8).find? (fun f => b.filterPasses f ident) = some f →
      (c.fifoS.length < 64 → Does (.canSFrameReceived ident dlc data) s [.can] [] (fun t =>
        t.can = { c with fifoS := c.fifoS ++ [{
          ident := ident
          control := fieldAt 16 (b.time.count.toNat % 65536) ||| fieldAt 4 f ||| fieldAt 0 dlc.val
          data := data.take (dlcLength (ident.getLsbD 30) dlc) }] }))
      ∧ (64 ≤ c.fifoS.length → Does (.canSFrameReceived ident dlc data) s [] [addr .CANS_RX_STAT] (fun t =>
        t.fld .CANS_RX_STAT 0 31 16 = min (b.fld .CANS_RX_STAT 0 31 16 + 1) 65535)))
    ∧ (∀ m errors, c.sendingS = some m →
      Does (.canSTransmitComplete errors) s [.can] [addr .CANS_TX_STAT] (fun t =>
        t.can = { c with sendingS := none, sentS := c.sentS ++ [m] }
          ∧ t.fld .CANS_TX_STAT 0 15 8 = min (b.fld .CANS_TX_STAT 0 15 8 + errors) 255))
    ∧ ∀ (h : Hdr) (k : Sess), Served b h k regWriteRow → (b.link.sess k).txn.state = .none → b.upd.recovery = false →
      let count := b.time.count
      Serves (.cansRxPop h 1) s h 0x0011 .ok count [] [.can] [] (fun t => t.can = { c with fifoS := c.fifoS.drop 1 })
      ∧ (c.sendingS = none → (b.txFrame k).bad = false →
        Serves (.cansTxGo h 1) s h 0x0011 .ok count [] [.can] [] (fun t =>
          t.can = { c with sendingS := some (b.txFrame k) }))
      ∧ (c.sendingS ≠ none → Serves (.cansTxGo h 1) s h 0x0011 .busy count [] [] [] (fun _ => True))

/-- Accesses at addresses that are not multiples of 4 (R34). -/
def Obligations.UnalignedAccessesAreRefused : Prop :=
  (∀ (a : Nat) (x : Reg × Nat × Nat), regAt a = some x → a % 4 = 0)
  ∧ ∀ (s : State) (h : Hdr) (k : Sess) (address value mask : Word) (count : BitVec 16) (values : List Word),
    let b := s.blk
    let refused (i : Instr) (op : BitVec 16) : Prop :=
      Serves i s h op .badAddress b.time.count (addressPayload address.toNat) [] [] (fun _ => True)
    let unended : Prop := txnRefuses (b.link.sess k).txn.state = none
    address.toNat % 4 ≠ 0 →
    (Served b h k regReadRow → refused (.regRead h address) 0x0010)
    ∧ (Served b h k regReadBlockRow → 1 ≤ count.toNat → count.toNat ≤ 350 →
      refused (.regReadBlock h address count) 0x0012)
    ∧ (Served b h k regWriteRow → unended → refused (.regWrite h address value) 0x0011)
    ∧ (Served b h k regWriteBlockRow → unended → values ≠ [] → refused (.regWriteBlock h address values) 0x0013)
    ∧ (Served b h k regModifyRow → unended → refused (.regModify h address mask value) 0x0014)

/-- REG_READ and REG_READ_BLOCK (R359, R379, R381). -/
def Obligations.RegistersAreRead : Prop :=
  ∀ (s : State) (h : Hdr) (k : Sess) (address : Word) (count : BitVec 16),
    let b := s.blk
    let tick := b.time.count
    let a := address.toNat
    let n := count.toNat
    let live := b.taken k h
    let now := b.actAt (b.now h.at_)
    (Served b h k regReadRow → b.upd.recovery = false →
      (∀ r i j, regAt a = some (r, i, j) → b.absentReg r i = false →
        let w := (live.readReg k now r i j).1
        Serves (.regRead h address) s h 0x0010 .ok tick (leBytes 4 w.toNat) [.sessRegs, .draws] [a] (fun t =>
          t.word r i j = live.word r i j &&& ~~~ fieldMask (desc r) [.rc]
            ∧ (t.link.sess k).regs = (b.link.sess k).regs ∧ t.link.sess (otherSess k) = b.link.sess (otherSess k))
        ∧ (r ∈ [Reg.NOZ_CFG, .BANK_CFG, .AXIS_CFG, .MDRV_PROT, .LOOP_COEF, .LSW_LIMIT, .PWRB_CFG, .EVT_CFG, .NOZ_CNT0
              , .LSW_CNT] → w = readMask (desc r) &&& live.word r i j))
      ∧ (∀ r i j, regAt a = some (r, i, j) → b.absentReg r i = true →
        Serves (.regRead h address) s h 0x0010 .ok tick [0, 0, 0, 0] [] [] (fun _ => True))
      ∧ (regAt a = none →
        Serves (.regRead h address) s h 0x0010 .badAddress tick (addressPayload a) [] [] (fun _ => True)))
    ∧ (Served b h k regReadBlockRow → b.upd.recovery = false →
      (1 ≤ n → n ≤ 350 → (∀ m < n, (regAt (a + 4 * m)).isSome = true) →
        Serves (.regReadBlock h address count) s h 0x0012 .ok tick
          (((live.readWords k now n a).1.map (fun w => leBytes 4 w.toNat)).flatten) [.sessRegs, .draws]
          ((List.range n).map (fun m => a + 4 * m)) (fun t =>
            t.link.sess (otherSess k) = b.link.sess (otherSess k) ∧ (live.readWords k now n a).1.length = n
              ∧ ∀ r i j, regAt a = some (r, i, j) →
                (live.readWords k now n a).1.head? = some (live.readReg k now r i j).1))
      ∧ (∀ m < n, 1 ≤ n → n ≤ 350 → (∀ p < m, (regAt (a + 4 * p)).isSome = true) → regAt (a + 4 * m) = none →
        Serves (.regReadBlock h address count) s h 0x0012 .badAddress tick (addressPayload (a + 4 * m)) [] []
          (fun _ => True))
      ∧ (n = 0 ∨ 350 < n →
        Serves (.regReadBlock h address count) s h 0x0012 .range tick (addressPayload a) [] [] (fun _ => True)))

/-- DEVTIME_LO_READ (R69), RTC_SEC_READ (R70), POSE_ODO_LO_READ (R134), CMP_NEXT_LO_READ, CMP_FIRE_LO_READ,
    CMP_RD_POS_LO_READ (R199), with the latches of R380. -/
def Obligations.LowReadsLatchHigh : Prop :=
  ∀ (s : State) (h : Hdr) (k : Sess) (l : Fin 160), Served s.blk h k regReadRow → s.blk.upd.recovery = false →
    let b := s.blk
    let now := b.actAt (b.now h.at_)
    let old := (b.link.sess k).latches
    let latches (i : Instr) (w : Word) (new : Latches) : Prop :=
      Serves i s h 0x0010 .ok b.time.count (leBytes 4 w.toNat) [.sessRegs] [] (fun t =>
        (t.link.sess k).latches = new ∧ (t.link.sess k).regs = (b.link.sess k).regs
          ∧ t.link.sess (otherSess k) = b.link.sess (otherSess k))
    let dev := b.time.dev + (now - b.time.now)
    let rtc := b.time.rtc.upTo now
    let odo := b.pub.pose.odo / 2 ^ 32
    let low (e : Option Eve) : Word := (e.map (fun e => BitVec.ofNat 32 e.pos)).getD 0
    let next := b.published.nextEve l
    let fire := (b.lane l).fireTime
    let window := b.published.windowEve k
    latches (.devtimeLoRead h) (BitVec.ofNat 32 dev) { old with devtimeHi := BitVec.ofNat 32 (dev / 2 ^ 32) }
    ∧ latches (.rtcSecRead h) (BitVec.ofNat 32 rtc.sec)
        { old with rtcSub := BitVec.ofNat 32 (rtc.sec / 2 ^ 32 % 4 * 65536 + rtc.sub % 32768) }
    ∧ latches (.poseOdoLoRead h) (BitVec.ofNat 32 odo) { old with odoHi := BitVec.ofNat 32 (odo / 2 ^ 32 % 65536) }
    ∧ latches (.cmpRdPosLoRead h) (low window) { old with
        cmpRdHi := (window.map (·.high true)).getD 0
        cmpRdParam := (window.map (fun e => BitVec.ofNat 32 e.param)).getD 0 }
    ∧ (b.absentReg .CMP_NEXT_LO l = false →
      latches (.cmpNextLoRead h l) (low next) { old with
        cmpNextHi := put old.cmpNextHi l ((next.map (·.high false)).getD 0) }
      ∧ latches (.cmpFireLoRead h l) (BitVec.ofNat 32 fire) { old with
        cmpFireHi := put old.cmpFireHi l (BitVec.ofNat 32 (fire / 2 ^ 32)) })
    ∧ (b.absentReg .CMP_NEXT_LO l = true →
      latches (.cmpNextLoRead h l) 0 old ∧ latches (.cmpFireLoRead h l) 0 old)

/-- REG_WRITE, REG_WRITE_BLOCK (R359, R376, R378), REG_MODIFY (R383). -/
def Obligations.RegistersAreWritten : Prop :=
  ∀ (s : State) (h : Hdr) (k : Sess) (address value mask : Word) (r : Reg) (i j : Nat),
    let b := s.blk
    let tick := b.time.count
    let a := address.toNat
    let live := b.taken k h
    let plain (r : Reg) : Prop := (desc r).fields.any (fun f => f.acc == .rw) = true
      ∧ (desc r).fields.any (fun f => f.acc == .rws) = false
      ∧ r ∉ [Reg.NOZ_FLT, .BANK_FLT, .BST_FLT, .PROP_FLT, .MDRV_FLT, .LOOP_FLT, .LSW_FLT, .PWRB_DENIED, .VIG_SAFE
          , .EVT_PEND, .MDRV_ARM, .MDRV_CARRIER, .MDRV_SET, .MDRV_RST, .LSW_HOLD, .CANB_DTC_CLR, .CANS_RX_POP, .CANS_TX_GO
          , .VIG_DBG_RESP, .VIG_DBG_CTRL, .DEV_ALARM_LO, .DEV_ALARM_HI, .DIARY_DRAINED, .LSW_CTRL, .PROP_TARGET, .LOOP_SP
          , .DEV_LTOL, .VIG_UNIT, .LINK_KEY]
    let may (r : Reg) (i j : Nat) : Prop :=
      b.absentReg r i = false ∧ noWritable r j = false ∧ b.rightDenied k r i = false
    let refused (st : Status) : Prop :=
      Serves (.regWrite h address value) s h 0x0011 st tick (addressPayload a) [] [] (fun _ => True)
    (b.link.sess k).txn.state = .none →
    (regAt a = some (r, i, j) → plain r → may r i j →
      (Served b h k regWriteRow → b.rangeOk r i j value = true →
        (perSession r = false → Serves (.regWrite h address value) s h 0x0011 .ok tick [] [] [a] (fun t =>
          t.word r i j = merged (desc r) (live.word r i j) value))
        ∧ (perSession r = true → Serves (.regWrite h address value) s h 0x0011 .ok tick [] [.sessRegs] [] (fun t =>
          t.sessWord k r i = merged (desc r) (b.sessWord k r i) value
            ∧ t.link.sess (otherSess k) = b.link.sess (otherSess k) ∧ (t.link.sess k).latches = (b.link.sess k).latches)))
      ∧ (Served b h k regModifyRow → fieldMask (desc r) [.w1c, .rc, .wo] = 0 → perSession r = false →
        let old := live.modifyBase k (b.actAt (b.now h.at_)) a r i j
        let new := (old &&& ~~~mask) ||| (value &&& mask)
        b.rangeOk r i j new = true →
        Serves (.regModify h address mask value) s h 0x0014 .ok tick (leBytes 4 old.toNat) [] [a] (fun t =>
          t.word r i j = merged (desc r) (live.word r i j) new)))
    ∧ (Served b h k regWriteBlockRow → ∀ values : List Word, 1 ≤ values.length → values.length ≤ 349 →
      (∀ n < values.length, ∀ x, regAt (a + 4 * n) = some x → plain x.1 ∧ may x.1 x.2.1 x.2.2 ∧ perSession x.1 = false
        ∧ b.rangeOk x.1 x.2.1 x.2.2 (nth values n 0) = true) →
      (∀ n < values.length, (regAt (a + 4 * n)).isSome = true) →
      Serves (.regWriteBlock h address values) s h 0x0013 .ok tick [] []
        ((List.range values.length).map (fun n => a + 4 * n)) (fun t =>
          ∀ n < values.length, ∀ x, regAt (a + 4 * n) = some x →
            t.word x.1 x.2.1 x.2.2 = merged (desc x.1) (live.word x.1 x.2.1 x.2.2) (nth values n 0)))
    ∧ (Served b h k regWriteRow →
      (regAt a = none → refused .badAddress)
      ∧ (regAt a = some (r, i, j) →
        (b.absentReg r i = true → refused .badAddress)
        ∧ (b.absentReg r i = false → noWritable r j = true → refused .readOnly)
        ∧ (b.absentReg r i = false → noWritable r j = false → b.rightDenied k r i = true ∨ r = .LINK_KEY → refused .denied)
        ∧ (may r i j → r ≠ .LINK_KEY → (desc r).fields.any (fun f => f.acc == .rws) = true → refused .txnNone)
        ∧ (may r i j → r ≠ .LINK_KEY → (desc r).fields.any (fun f => f.acc == .rws) = false →
            live.rangeOk r i j value = false → refused .range)))

/-- NOZ_FLT_WRITE, BANK_FLT_WRITE, BST_FLT_WRITE, PROP_FLT_WRITE, MDRV_FLT_WRITE, LOOP_FLT_WRITE, LSW_FLT_WRITE,
    PWRB_DENIED_WRITE, VIG_SAFE_WRITE, EVT_PEND_WRITE, MDRV_ARM_WRITE. -/
def Obligations.FlagsAreCleared : Prop :=
  ∀ (s : State) (h : Hdr) (k : Sess) (value : Word) (n : Fin 96) (bank : Fin 12) (c : Fin 3) (p : Fin 8) (u : Fin 16)
    (q : Fin 32) (w : Fin 4), Served s.blk h k regWriteRow → (s.blk.link.sess k).txn.state = .none →
    let b := s.blk
    let tick := b.time.count
    let rows : List (Instr × Reg × Nat) :=
      [(.bankFltWrite h bank value, .BANK_FLT, bank.val), (.bstFltWrite h c value, .BST_FLT, c.val)
      , (.propFltWrite h p value, .PROP_FLT, p.val), (.mdrvFltWrite h u value, .MDRV_FLT, u.val)
      , (.loopFltWrite h q value, .LOOP_FLT, q.val), (.lswFltWrite h u value, .LSW_FLT, u.val)
      , (.pwrbDeniedWrite h value, .PWRB_DENIED, 0), (.vigSafeWrite h value, .VIG_SAFE, 0)]
    (∀ x ∈ rows,
      (b.absentReg x.2.1 x.2.2 = false → b.rangeOk x.2.1 x.2.2 0 value = true →
        Serves x.1 s h 0x0011 .ok tick [] [] [addr x.2.1 x.2.2] (fun t =>
          t.word x.2.1 x.2.2 = b.word x.2.1 x.2.2 &&& ~~~ (value &&& fieldMask (desc x.2.1) [.w1c])))
      ∧ (b.absentReg x.2.1 x.2.2 = true →
        Serves x.1 s h 0x0011 .badAddress tick (addressPayload (addr x.2.1 x.2.2)) [] [] (fun _ => True)))
    ∧ (b.absentReg .NOZ_FLT n = true →
      Serves (.nozFltWrite h n value) s h 0x0011 .badAddress tick (addressPayload (addr .NOZ_FLT n)) [] []
        (fun _ => True))
    ∧ (b.absentReg .NOZ_FLT n = false → b.rangeOk .NOZ_FLT n 0 value = true →
      (value.getLsbD 5 = false → Serves (.nozFltWrite h n value) s h 0x0011 .ok tick [] [] [addr .NOZ_FLT n] (fun t =>
        t.word .NOZ_FLT n = b.word .NOZ_FLT n &&& ~~~ (value &&& 0x5F)))
      ∧ (value.getLsbD 5 = true →
        Serves (.nozFltWrite h n value) s h 0x0011 .ok (b.reaches h.at_).commitTick [] [.posted] [addr .NOZ_FLT n] (fun t =>
          t.word .NOZ_FLT n = b.word .NOZ_FLT n &&& ~~~ (value &&& 0x5F)
            ∧ t.posted = b.posted ++ [{ seq := b.link.arrivals, sess := some k, arrived := b.now h.at_
                                        since := (b.reaches h.at_).stagedAt, act := .write (addr .NOZ_FLT n) value }])))
    ∧ (b.rangeOk .EVT_PEND w 0 value = true →
      Serves (.evtPendWrite h w value) s h 0x0011 .ok tick [] [.events, .codes] [] (fun t =>
        t.evt = { b.evt with pend := b.evt.pend &&& ~~~ BitVec.ofNat 128 (value.toNat * 2 ^ (32 * w.val)) }))
    ∧ (b.rangeOk .MDRV_ARM 0 0 value = true →
      Serves (.mdrvArmWrite h value) s h 0x0011 .ok tick [] [.motors] [] (fun t =>
        t.eng.mot = { b.eng.mot with units := b.eng.mot.units.mapIdx (fun u m =>
          if u < 16 ∧ value.getLsbD (b.fld .MDRV_CFG u 10 8) = true ∧ b.flag .MDRV_CFG u 6 = false then
            { m with armed := m.armed ||| m.pending } else m) }))

/-- DEV_ALARM_LO_WRITE, DEV_ALARM_HI_WRITE (R319), VIG_UNIT_REQ_WRITE (R403), LSW_HOLD_RELEASE (R327), RES_GPO_WRITE (R396),
    DIARY_DRAINED_WRITE (R445), CANB_DTC_CLR (R370), DEBUG_UNLOCK, DEBUG_LOCK (R419). -/
def Obligations.RegistersThatCommand : Prop :=
  ∀ (s : State) (h : Hdr) (k : Sess) (value : Word), Served s.blk h k regWriteRow →
    (s.blk.link.sess k).txn.state = .none →
    let b := s.blk
    let tick := b.time.count
    let x := b.link.sess k
    let ok (i : Instr) (parts : List BlockPart) (words : List Nat) (P : Block → Prop) : Prop :=
      Serves i s h 0x0011 .ok tick [] parts words P
    (ok (.devAlarmLoWrite h value) [.sessRegs] [] (fun t =>
        (t.link.sess k).latches = { x.latches with alarmLo := value } ∧ (t.link.sess k).regs = x.regs
          ∧ t.link.sess (otherSess k) = b.link.sess (otherSess k)))
    ∧ (b.rangeOk .DEV_ALARM_HI 0 0 value = true → ok (.devAlarmHiWrite h value) [.clock] [] (fun t =>
        t.time = { b.time with rtc := { b.time.rtc with
          alarm := BitVec.ofNat 34 (bits value 1 0 * 2 ^ 32 + x.latches.alarmLo.toNat), alarmEn := value.getLsbD 31 } }))
    ∧ (∀ (u : Fin 203) (st : UnitState), b.rangeOk .VIG_UNIT u 0 value = true → reqState (bits value 26 24) = some st →
      (b.requestStatus k u st = none →
        Serves (.vigUnitReqWrite h u value) s h 0x0011 (if b.deferred u st then .deferred else .ok)
          (b.reaches h.at_).commitTick [] [.unitReqs] [] (fun t =>
            t.vig.reqs = b.vig.reqs.filter (fun r => !(r.unit == u.val && r.source == sessSource k
                && b.inTime r.since == b.inTime (b.reaches h.at_).stagedAt))
              ++ [{ unit := u, source := sessSource k, target := st, since := (b.reaches h.at_).stagedAt
                    cause := match k with
                      | .main => .main
                      | .service => .service }]))
      ∧ (b.requestStatus k u st = some .denied →
        Serves (.vigUnitReqWrite h u value) s h 0x0011 .denied tick (addressPayload (addr .VIG_UNIT u)) [] []
          (fun _ => True)))
    ∧ (b.rangeOk .LSW_HOLD 0 0 value = true → s.Sound → ok (.lswHoldRelease h value) [.lsw] [] (fun t =>
        t.eng.lsw = b.eng.lsw.mapIdx (fun j y => if value.getLsbD j = true ∧ y.held = true then
          { y with held := false, seq := .demag, since := max (b.now h.at_) b.time.now } else y)))
    ∧ (b.rangeOk .RES_GPO 0 0 value = true → ok (.resGpoWrite h value) [] [addr .RES_GPO] (fun t =>
        t.word .RES_GPO = merged (desc .RES_GPO) (b.word .RES_GPO) value))
    ∧ (b.rangeOk .DIARY_DRAINED 0 0 value = true → ok (.diaryDrainedWrite h value) (.diary :: eventParts) (eventWords [124])
        (fun t => t.diary.drained = value))
    ∧ (k = .main → Serves (.canbDtcClr h 1) s h 0x0011 .denied tick (addressPayload (addr .CANB_DTC_CLR)) [] []
        (fun _ => True))
    ∧ (k = .service → ok (.canbDtcClr h 1) [.codes] [] (fun t => t.can = { b.can with previous := [] }))
    ∧ (k = .service →
        let words := addr .VIG_DBG_CTRL :: eventWords [118, 119]
        let parts : List BlockPart := [BlockPart.vigil, BlockPart.draws] ++ eventParts
        (b.vig.dbg = .locked → b.vig.dbgLockSince = none →
          (b.dbgGiven = b.dbgResponse → ok (.debugUnlock h 1) parts words (fun t =>
            t.vig.dbg = .unlocked ∧ Raised 118 b t ∧ t.vig.dbgFails = b.vig.dbgFails))
          ∧ (b.dbgGiven ≠ b.dbgResponse → b.vig.dbgFails.length < 2 →
            ok (.debugUnlock h 1) parts (addr .VIG_DBG_STAT :: words) (fun t =>
              t.vig.dbg = .locked ∧ Raised 119 b t
                ∧ t.fld .VIG_DBG_STAT 0 23 16 = min (b.fld .VIG_DBG_STAT 0 23 16 + 1) 255)))
        ∧ (b.vig.dbg = .unlocked → ok (.debugLock h 2) parts words (fun t => t.vig.dbg = .locked ∧ Raised 118 b t)))

/-- TXN_BEGIN, TXN_COMMIT, TXN_ROLLBACK, TXN_STATUS, TXN_TIMEOUT (R384), CMP_ADD, CMP_CLEAR (R188, R386), the checks of a
    commit (R387), SETTINGS_SAVE_COMPLETE (R455). -/
def Obligations.Transactions : Prop :=
  ∀ (s : State) (h : Hdr) (k : Sess), s.Sound →
    let b := s.blk
    let x := (b.link.sess k).txn
    let tick := b.time.count
    let now := b.actAt (b.now h.at_)
    let others (t : Block) : Prop := (t.link.sess (otherSess k)).txn = (b.link.sess (otherSess k)).txn
    let becomes (i : Instr) (op : BitVec 16) (st : Status) (payload : Bytes) (y : Txn) (next : Word) : Prop :=
      Serves i s h op st tick payload [.txns] [] (fun t =>
        others t ∧ (t.link.sess k).txn = y ∧ t.link.nextTxn = next)
    let tells (i : Instr) (op : BitVec 16) (st : Status) : Prop := Serves i s h op st tick [] [] [] (fun _ => True)
    let ovr : Txn := { x with state := .none, staged := [], rivals := [] }
    (Served b h k txnBeginRow → ∀ timeout : BitVec 16,
      let ms := if timeout = 0 then 2000 else timeout.toNat
      (x.state = .none ∨ x.state = .expired → 100 ≤ ms → ms ≤ 10000 →
        becomes (.txnBegin h timeout) 0x0018 .ok (leBytes 4 b.link.nextTxn.toNat)
          { x with state := .opened, num := b.link.nextTxn, began := now, timeoutMs := ms, staged := [], rivals := [] }
          (b.link.nextTxn + 1))
      ∧ (x.state = .opened ∨ x.state = .committing → tells (.txnBegin h timeout) 0x0018 .txnBusy)
      ∧ (x.state = .none ∨ x.state = .expired → ms < 100 ∨ 10000 < ms → tells (.txnBegin h timeout) 0x0018 .range))
    ∧ (Served b h k txnCommitRow →
      (x.state = .none → tells (.txnCommit h) 0x0019 .txnNone)
      ∧ (x.state = .expired → becomes (.txnCommit h) 0x0019 .txnExpired [] ovr b.link.nextTxn)
      ∧ (x.state = .opened → h.asyncOk = false → b.link.progress = [] →
        Does (.txnCommit h) s (requestParts ++ [BlockPart.txns, BlockPart.posted]) (requestWords h) (fun t =>
          others t ∧ (t.link.sess k).txn = { x with state := .committing } ∧ t.link.sent = b.link.sent
            ∧ t.posted = b.posted ++ [{ seq := b.link.arrivals, sess := some k, arrived := b.now h.at_
                                        since := (b.reaches h.at_).stagedAt, act := .req (.txnCommit h) }]
            ∧ t.link.progress = [{ seq := b.link.arrivals, sess := k, hdr := h, opcode := 0x0019, ends := .final, since := (b.reaches h.at_).stagedAt
                                   holds := h.fenceAfter }])))
    ∧ (Served b h k txnRollbackRow →
      (x.state = .opened ∨ x.state = .expired → becomes (.txnRollback h) 0x001A .ok [] ovr b.link.nextTxn)
      ∧ (x.state = .none → tells (.txnRollback h) 0x001A .txnNone)
      ∧ (x.state = .committing → tells (.txnRollback h) 0x001A .txnBusy))
    ∧ (Served b h k txnStatusRow → Serves (.txnStatus h) s h 0x001B .ok tick
        (leBytes 1 x.state.code ++ [0] ++ leBytes 2 x.staged.length ++ leBytes 4 (x.left now)) [] [] (fun _ => True))
    ∧ (Served b h k regWriteRow → x.state = .opened → x.staged.length < 1024 → ∀ value,
        let staged (a : Nat) : Txn := { x with staged := x.staged ++ [{ addr := a, val := value }] }
        (∀ i ∈ [Instr.cmpAdd h value, .cmpClear h value],
          becomes i 0x0011 .ok [] (staged (addr .CMP_WR_CMD)) b.link.nextTxn)
        ∧ ∀ address r i j, regAt address.toNat = some (r, i, j) → b.absentReg r i = false → noWritable r j = false →
          b.rightDenied k r i = false →
          becomes (.regWrite h address value) 0x0011 .ok [] (staged address.toNat) b.link.nextTxn)
    ∧ (x.state = .opened → x.began + x.timeoutMs * 1000000 ≤ b.time.now →
        Does (.txnTimeout k) s (.txns :: eventParts) (addr .TXN_CNT :: eventWords [16]) (fun t =>
          others t ∧ (t.link.sess k).txn = { x with state := .expired, staged := [], rivals := [] } ∧ Raised 16 b t
            ∧ t.fld .TXN_CNT 0 7 0 = min (b.fld .TXN_CNT 0 7 0 + 1) 255))
    ∧ (∀ f, b.txnCheck k = some f →
        let t := (b.txnApply k h.at_).1
        (b.txnApply k h.at_).2.1 = f.status ∧ KeepsWords [addr .TXN_CNT, addr .RES_CNT] b t
          ∧ t.eng = b.eng ∧ t.vig = b.vig ∧ t.posted = b.posted
          ∧ (t.link.sess k).txn = { ovr with lastStatus := f.status, lastIndex := BitVec.ofNat 16 f.index })
    ∧ ∀ save, b.upd.save = some save → b.coresRun = true → b.upd.running = false →
        Does (.settingsSaveComplete true) s [.update] [] (fun t =>
          t.upd.save = none ∧ t.upd.saveFailed = false ∧ t.upd.saveCount = b.upd.saveCount + 1
            ∧ t.upd.store b.upd.storeNow = (b.upd.store b.upd.storeNow).modSpare (fun _ =>
                { valid := true, generation := save.generation, schema := b.runInfo.schema, words := save.words
                  mark := (b.upd.store b.upd.storeNow).active.bind (·.mark) })
            ∧ t.upd.store (!b.upd.storeNow) = b.upd.store (!b.upd.storeNow))

/-- POWER_ON, RESET_N_LOW (R411), WATCHDOG_MISS (R414), ECC_UNCORRECTABLE of working memory (R21), CLOCK_MONITOR_FAULT,
    CLOCK_RESTORED, LOCKSTEP_MISMATCH (R415). -/
def Obligations.ResetEntries : Prop :=
  ∀ (s : State), s.Sound →
    let b := s.blk
    let cold (i : Instr) (kind : ResetKind) : Prop := Gives i s (fun t =>
      Restarted b t kind ∧ t.time.count = 0 ∧ t.eng.map = {} ∧ t.vig.resetDue = false ∧ t.vig.dbg = .locked)
    let warm (i : Instr) (kind : ResetKind) (cores : BitVec 4) (fault : Bool) : Prop := Gives i s (fun t =>
      Restarted b t kind ∧ t.vig.wdtCores = cores ∧ t.vig.clockFault = fault ∧ t.vig.dbg = .locked
        ∧ t.time.count = b.time.count ∧ t.time.dev = b.time.dev
        ∧ t.fld .DEV_RST_CNT 0 15 0 = min (b.fld .DEV_RST_CNT 0 15 0 + 1) 65535
        ∧ ∀ r i j, regAt (addr r i j) = some (r, i, j) → (desc r).source ≠ .session →
          t.word r i j &&& fieldMask (desc r) [.rws] = b.word r i j &&& fieldMask (desc r) [.rws])
    (∀ offNs, cold (.powerOn offNs) .powerOn)
    ∧ (b.powered = true →
      (∀ ns, 1000 ≤ ns → cold (.resetNLow ns) .resetN)
      ∧ cold .lockstepMismatch .lockstep
      ∧ (b.mustRevert = false → warm (.eccUncorrectable .workingMemory) .ecc 0 false)
      ∧ (b.mustRevert = false → b.vig.clockFault = false → warm .clockMonitorFault .clockMonitor 0 true))
    ∧ (∀ cores ns, b.wdtOnTime ns = true → Does (.watchdogMiss ⟨cores, ns⟩) s [] [] (fun t => t = b))
    ∧ (∀ cores ns, cores ≠ 0 → b.coresRun = true → b.wdtOnTime ns = false →
      (b.mustRevert = false → warm (.watchdogMiss ⟨cores, ns⟩) .watchdog cores false)
      ∧ (b.mustRevert = true → Gives (.watchdogMiss ⟨cores, ns⟩) s (fun t => Restarted b t .image)))
    ∧ ∀ ns, 10000000 ≤ ns → Does (.clockRestored ns) s [.vigil] [] (fun t =>
        t.vig = { b.vig with clockFault := false })

/-- DEBUG_HALT, DEBUG_RESUME (R420), DEBUG_LOCKOUT_END (R419), HALT_LIMIT (R421), OVERRUN_CHECK (R48, R49). -/
def Obligations.HaltsOverrunsAndSafeState : Prop :=
  ∀ (s : State) (at_ : Nat), s.Sound →
    let b := s.blk
    let v := b.vig
    let now := b.now at_
    let safe (c : Cause) (bit from_ : Nat) (t : Block) : Prop :=
      (∀ u < 203, (b.unit u).state ≠ .absent → (t.unit u).state = .faulted ∧ (t.unit u).cause = c
          ∧ (t.unit u).queued = none ∧ (t.unit u).mgmtFence = false)
        ∧ (∀ u < 203, (b.unit u).state = .absent → (t.unit u).state = .absent)
        ∧ t.vig.safePins = true ∧ t.eng.alm.pins = b.eng.alm.pins.map (fun _ => {})
        ∧ t.pub = { b.pub with lsw := t.eng.lsw, fb := t.eng.fb, valve := t.eng.valve, mot := t.eng.mot, loop := t.eng.loop }
        ∧ t.vig.brakeSince = some (b.now from_) ∧ t.flag .VIG_SAFE 0 bit = true
        ∧ t.fld .VIG_SAFE 0 31 16 = b.time.count.toNat % 65536
        ∧ t.fld .VIG_CNT 0 7 0 = min (b.fld .VIG_CNT 0 7 0 + 1) 255 ∧ Raised 112 b t
    let overrun : Prop := b.time.finished = false ∧ v.dbg ≠ .halted ∧ b.ticking = true ∧ v.starting = false
    (v.dbg = .unlocked →
      (b.motorLive = false ∨ (b.sessWord .service .VIG_DBG_CTRL).getLsbD 2 = true →
        Does (.debugHalt at_) s ([BlockPart.vigil, BlockPart.motors] ++ eventParts) (eventWords [118]) (fun t =>
          t.vig = { v with dbg := .halted, haltSince := now, haltLimited := false } ∧ Raised 118 b t
            ∧ ∀ u : Fin 16, (t.mot u).opened = 0))
      ∧ (b.motorLive = true → (b.sessWord .service .VIG_DBG_CTRL).getLsbD 2 = false →
        Does (.debugHalt at_) s [] [addr .VIG_DBG_STAT] (fun t =>
          t.fld .VIG_DBG_STAT 0 31 24 = min (b.fld .VIG_DBG_STAT 0 31 24 + 1) 255)))
    ∧ (v.dbg = .halted → Does (.debugResume at_) s ([BlockPart.vigil, BlockPart.clock, BlockPart.motors] ++ eventParts) (eventWords [118]) (fun t =>
        t.eng.mot = { b.eng.mot with units := b.eng.mot.units.map (fun m => { m with resuming := true }) } ∧
        t.vig = { v with dbg := .unlocked } ∧ t.time = { b.time with run := 0 } ∧ Raised 118 b t))
    ∧ (∀ t0, v.dbgLockSince = some t0 → t0 + 10000000000 ≤ now →
        Does (.debugLockoutEnd at_) s [.vigil] [] (fun t => t.vig = { v with dbgLockSince := none }))
    ∧ (v.dbg = .halted → v.haltLimited = false → b.fld .VIG_DBG_CFG 0 7 0 ≠ 0 →
      v.haltSince + b.fld .VIG_DBG_CFG 0 7 0 * 1000000000 ≤ now →
      Gives (.haltLimit at_) s (fun t => safe .haltLimit 1 at_ t ∧ t.vig.haltLimited = true ∧ t.vig.dbg = .halted
        ∧ t.time = b.time ∧ t.link.sent = b.link.sent))
    ∧ (overrun → exec .overrunCheck s = exec .overrunCheck { s with blk := b.lookAhead 95000 })
    ∧ (overrun → b.eng.alm.due = 0 → b.time.run ≠ 2 →
      Does .overrunCheck s ([BlockPart.clock, BlockPart.almanac] ++ eventParts) (addr .TICK_OVR_CNT :: eventWords [113]) (fun t =>
        t.time = { b.time with run := min (b.time.run + 1) 255, closed := true } ∧ Raised 113 b t
          ∧ t.fld .TICK_OVR_CNT 0 15 0 = min (b.fld .TICK_OVR_CNT 0 15 0 + 1) 65535))
    ∧ (overrun → b.eng.alm.due = 0 → b.time.run = 2 → Gives .overrunCheck s (fun t => safe .overrun 0 95000 t
        ∧ t.time = { b.time with run := 3, closed := true } ∧ Raised 113 b t ∧ t.vig.resetDue = v.resetDue
        ∧ t.link.sent = b.link.sent))

/-- DIARY_RECORD_WRITE (R437, R441, R445, R446), DRAINED_MRAM_WRITE (R445), HOLD_UP_ENTRY (R440, R494), BASE_HOT (R426). -/
def Obligations.DiaryIsWritten : Prop :=
  ∀ (s : State) (at_ : Nat), s.Sound →
    let b := s.blk
    let d := b.diary
    let now := b.now at_
    let words := addr .DIARY_CNT1 :: eventWords [122, 123, 124]
    (b.coresRun = true → d.failed = false → ∀ r rest, d.fifo = r :: rest →
      (d.freeze = none → d.staging = [] → d.badSlots = [] → d.lostPending = 0 → ∀ readBack, (twoTries readBack).1 = true →
        let slot := d.writeSlot % ringSlots
        let old := d.ring.find? (fun x => x.slot == slot)
        (¬ (b.flag .DIARY_CFG 0 0 = true ∧ ∃ x ∈ old, seqNewer x.seq d.drained = true) →
          Does (.diaryRecordWrite readBack true) s eventParts words (fun t =>
            t.diary.fifo = rest ++ t.diary.fifo.drop rest.length ∧ t.diary.failed = false
              ∧ t.diary.ring = d.ring.filter (fun x => x.slot != slot) ++ [{ r with slot := slot }]
              ∧ t.diary.writeSlot = (slot + 1) % ringSlots ∧ t.diary.staging = []))
        ∧ (b.flag .DIARY_CFG 0 0 = true → ∀ x, old = some x → seqNewer x.seq d.drained = true →
          Does (.diaryRecordWrite readBack true) s [.diary] [] (fun t => t.diary = { d with protectHold := true })))
      ∧ (d.freeze = none → d.staging = [] → d.badSlots = [] → d.ring = [] → d.lostPending = 0 →
        Does (.diaryRecordWrite [false, false] true) s eventParts words (fun t =>
          t.diary.badSlots = [d.writeSlot % ringSlots]
            ∧ t.diary.ring = [{ r with slot := (d.writeSlot % ringSlots + 1) % ringSlots }]
            ∧ t.fld .DIARY_CNT1 0 7 0 = min (b.fld .DIARY_CNT1 0 7 0 + 1) 255))
      ∧ (d.freeze ≠ none → d.lostPending = 0 → d.staging.length < stagingSlots →
        Does (.diaryRecordWrite [] true) s eventParts words (fun t =>
          t.diary.staging = d.staging ++ [r] ∧ t.diary.ring = d.ring
            ∧ (t.diary.freeze = none ↔ 3072 ≤ d.staging.length + 1)))
      ∧ Does (.diaryRecordWrite [] false) s eventParts (eventWords [126]) (fun t =>
          t.diary.failed = true ∧ t.diary.fifo = [] ∧ Raised 126 b t ∧ t.diary.ring = d.ring
            ∧ t.diary.emberNext = d.emberNext + 1))
    ∧ (b.coresRun = true → d.drained ≠ d.drainedMram → (∀ t0, d.drainedAt = some t0 → t0 + 1000000000 ≤ now) →
      Does (.drainedMramWrite at_) s [.diary] [] (fun t =>
        t.diary = { d with drainedMram := d.drained, drainedAt := some now }))
    ∧ (∀ lowNs, 20000 ≤ lowNs → b.powered = true → Gives (.holdUpEntry lowNs) s (fun t =>
        t.eng.pwr.state = .dormant ∧ t.sup.holdUp = true ∧ (d.freeze = none → t.diary.freeze = none)
          ∧ (d.freeze ≠ none → d.failed = false → d.lostPending = 0 → d.staging.length + d.fifo.length < 3000 →
              t.diary.fifo = [] ∧ t.diary.ring = d.ring ∧ d.staging ++ d.fifo <+: t.diary.staging
                ∧ t.diary.freeze = d.freeze)
          ∧ (d.freeze = none → b.flag .DIARY_CFG 0 0 = false → d.failed = false → d.fifo.length ≤ 4096 → d.staging.length < stagingSlots →
              t.diary.fifo = [])
          ∧ t.diary.drainedMram = t.diary.drained ∧ Raised 11 b t ∧ t.link.main.state ≠ .opened
          ∧ t.link.service.state ≠ .opened ∧ (b.eng.valve.learnedDirty = true →
              t.upd.learned = b.eng.valve.noz.map (·.learned))))
    ∧ ∀ temp : Int,
      let warn : Int := b.fld .EVT_THERM 0 15 0
      let notes (hot : Bool) (t : Block) : Prop := t.evt.baseTemp = temp ∧ t.evt.baseHot = hot ∧ Raised 120 b t
      (b.evt.baseHot = false → warn < temp → Does (.baseHot temp) s eventParts (eventWords [120]) (notes true))
      ∧ (b.evt.baseHot = true → temp ≤ warn - 50 → Does (.baseHot temp) s eventParts (eventWords [120]) (notes false))
      ∧ ((b.evt.baseHot = false ∧ temp ≤ warn) ∨ (b.evt.baseHot = true ∧ warn - 50 < temp) →
        Does (.baseHot temp) s [.events] [] (fun t => t.evt = { b.evt with baseTemp := temp }))

/-- DIARY_FREEZE (R441), DIARY_THAW, FREEZE_TIMEOUT (R442), DIARY_READ (R443), DIARY_MARK (R444). -/
def Obligations.DiaryRequests : Prop :=
  ∀ (s : State) (h : Hdr) (k : Sess),
    let b := s.blk
    let d := b.diary
    let tick := b.time.count
    let tells (i : Instr) (op : BitVec 16) (st : Status) : Prop := Serves i s h op st tick [] [] [] (fun _ => True)
    (Served b h k diaryFreezeRow → ∀ timeout : BitVec 16,
      let seconds := if timeout = 0 then 60 else timeout.toNat
      (d.failed = false → (∀ f, d.freeze = some f → f.by_ = k) → seconds ≤ 600 → ∀ oldest newest, d.ring.head? = some oldest →
        d.ring.getLast? = some newest →
        Serves (.diaryFreeze h timeout) s h 0x0040 .ok tick (leBytes 4 oldest.seq.toNat ++ leBytes 4 newest.seq.toNat)
          [.diary] [] (fun t =>
            t.diary = { d with freeze := some { by_ := k, since := b.now h.at_, timeoutS := seconds } }))
      ∧ (d.failed = false → (∀ f, d.freeze = some f → f.by_ = k) → 600 < seconds → tells (.diaryFreeze h timeout) 0x0040 .range)
      ∧ (d.failed = true → tells (.diaryFreeze h timeout) 0x0040 .denied)
      ∧ (d.failed = false → ∀ f, d.freeze = some f → f.by_ ≠ k → tells (.diaryFreeze h timeout) 0x0040 .busy))
    ∧ (Served b h k diaryThawRow →
      (d.freeze = none → tells (.diaryThaw h) 0x0042 .ok)
      ∧ (∀ f, d.freeze = some f → f.by_ ≠ k → tells (.diaryThaw h) 0x0042 .denied)
      ∧ (∀ f, d.freeze = some f → f.by_ = k → Serves (.diaryThaw h) s h 0x0042 .ok tick [] [.diary] [] (fun t =>
          t.diary = { d with freeze := none })))
    ∧ (∀ f, d.freeze = some f → f.since + f.timeoutS * 1000000000 ≤ b.now h.at_ →
        Does (.freezeTimeout h.at_) s eventParts (eventWords [123]) (fun t =>
          t.diary.freeze = none ∧ t.diary.ring = d.ring ∧ t.diary.staging = d.staging ∧ Raised 123 b t))
    ∧ (Served b h k diaryReadRow → ∀ (first : Word) (count : Byte),
      (1 ≤ count.toNat → count.toNat ≤ 43 →
        let x := readRecords d.held first count.toNat
        let y := readRecords d.ember first count.toNat
        let data (seq : Word) (z : List DiaryRec × Nat × Nat) : Bytes :=
          leBytes 4 seq.toNat ++ leBytes 1 z.1.length ++ leBytes 1 z.2.1 ++ leBytes 2 0 ++ (z.1.map DiaryRec.bytes).flatten
        (∀ r, x.1.head? = some r →
          Serves (.diaryRead h first count 0) s h 0x0041 .ok tick (data r.seq x) [] [addr .DIARY_CNT1] (fun t =>
            t.fld .DIARY_CNT1 0 15 8 = min (b.fld .DIARY_CNT1 0 15 8 + x.2.2) 255))
        ∧ (∀ r, y.1.head? = some r →
          Serves (.diaryRead h first count 1) s h 0x0041 .ok tick (data r.seq y) [] [] (fun _ => True)))
      ∧ (count.toNat = 0 ∨ 43 < count.toNat → ∀ flags, tells (.diaryRead h first count flags) 0x0041 .range))
    ∧ (∀ (first : Word) (count : Nat), ∀ r ∈ (readRecords d.held first count).1, r ∈ d.held ∧ r.good = true)
    ∧ (Served b h k diaryMarkRow → ∀ (code : Byte) (payload : BitVec 128),
      (64 ≤ d.fifo.length → tells (.diaryMark h code payload) 0x0043 .busy)
      ∧ (d.fifo.length < 63 → d.failed = false → b.flag .EVT_CFG 23 5 = true → b.evtEnabled 23 = true → d.fifo = [] →
        d.newest = .nowhere → d.lostPending = 0 →
        Serves (.diaryMark h code payload) s h 0x0043 .ok tick (leBytes 4 d.next.toNat) eventParts (eventWords [23]) (fun t =>
          Raised 23 b t ∧ t.diary.next = d.next + 1
            ∧ t.diary.fifo.map (fun r => (r.seq, r.occ.src, r.occ.code, r.occ.payload)) = [(d.next, 23, code, payload)])))

/-- UPD_BEGIN (R460), UPD_CHUNK (R461), UPD_VERIFY (R462), VERIFY_COMPLETE (R465). -/
def Obligations.ImagesAreDownloadedAndVerified : Prop :=
  ∀ (s : State) (h : Hdr),
    let b := s.blk
    let u := b.upd
    let k := Sess.service
    let x := u.slot u.target
    let tick := b.time.count
    let tells (i : Instr) (op : BitVec 16) (st : Status) : Prop := Serves i s h op st tick [] [] [] (fun _ => True)
    let others (t : Block) : Prop := t.upd.slot (!u.target) = u.slot (!u.target) ∧ t.upd.rec0 = u.rec0 ∧ t.upd.rec1 = u.rec1
      ∧ t.upd.storeA = u.storeA ∧ t.upd.storeB = u.storeB ∧ t.upd.running = u.running
    let moves (old new : UpdState) (t : Block) : Prop := t.upd.state = new ∧ (u.recovery = false → old ≠ new → Raised 18 b t)
    (Served b h k updBeginRow → ∀ (identity : BitVec 256) (length : Word),
      let id := leBytes 32 identity.toNat
      let n := length.toNat
      let i : Instr := .updBegin h identity length 0
      let same := x.identity = id ∧ x.length = n
      (u.state = .idle → x.state ≠ .installed → n ≠ 0 → n % 4 = 0 → n ≤ imageMax →
        Serves i s h 0x0050 .ok tick (leBytes 4 0 ++ leBytes 1 u.target.toNat ++ leBytes 3 0) (.update :: eventParts)
          (eventWords [18]) (fun t => others t ∧ moves .idle .receiving t
            ∧ t.upd.slot u.target = { x with
                state := .partialImage, identity := id, length := n, offset := 0, image := some [] }))
      ∧ (u.state = .receiving ∨ u.state = .complete → n ≠ 0 → n % 4 = 0 → n ≤ imageMax →
        (same → Serves i s h 0x0050 .ok tick (leBytes 4 x.offset ++ leBytes 1 u.target.toNat ++ leBytes 3 0) [] []
          (fun _ => True))
        ∧ (¬ same → tells i 0x0050 .updSequence))
      ∧ (u.state = .idle ∨ u.state = .receiving ∨ u.state = .complete →
        (n = 0 ∨ n % 4 ≠ 0 → tells i 0x0050 .range) ∧ (n % 4 = 0 → imageMax < n → tells i 0x0050 .updSpace))
      ∧ (u.state = .verifying ∨ u.state = .trial → tells i 0x0050 .updSequence))
    ∧ (Served b h k updChunkRow → ∀ (offset : Word) (data : Bytes),
      let o := offset.toNat
      let i : Instr := .updChunk h offset data
      (u.state = .receiving → o % 4 = 0 → o + data.length ≤ x.length →
        (o ≤ x.offset → x.offset < o + data.length →
          Serves i s h 0x0051 .ok tick (leBytes 4 (o + data.length) ++ leBytes 4 0) (.update :: eventParts) (eventWords [18])
            (fun t => others t ∧ (t.upd.slot u.target).offset = o + data.length
              ∧ (t.upd.slot u.target).image = some (x.image.getD [] ++ data.drop (x.offset - o))
              ∧ (o + data.length < x.length → t.upd.state = .receiving ∧ (t.upd.slot u.target).state = x.state)
              ∧ (o + data.length = x.length → moves .receiving .complete t ∧ (t.upd.slot u.target).state = .complete)))
        ∧ (o + data.length ≤ x.offset →
          Serves i s h 0x0051 .ok tick (leBytes 4 x.offset ++ leBytes 4 0) [] [] (fun _ => True))
        ∧ (x.offset < o → tells i 0x0051 .updSequence))
      ∧ (u.state = .receiving → o % 4 ≠ 0 ∨ x.length < o + data.length → tells i 0x0051 .range)
      ∧ (u.state ≠ .receiving → tells i 0x0051 .updSequence))
    ∧ (Served b h k updVerifyRow →
      (u.state ≠ .complete → tells (.updVerify h) 0x0052 .updSequence)
      ∧ (u.state = .complete → h.asyncOk = false → b.link.progress = [] →
        Does (.updVerify h) s (requestParts ++ .update :: eventParts) (requestWords h ++ eventWords [18]) (fun t =>
          others t ∧ moves .complete .verifying t ∧ t.link.sent = b.link.sent
            ∧ t.link.progress = [{ seq := b.link.arrivals, sess := k, hdr := h, opcode := 0x0052, ends := .final
                                   since := (b.reaches h.at_).stagedAt, holds := h.fenceAfter }])))
    ∧ (u.state = .verifying → b.coresRun = true → b.link.progress = [] →
      (b.verify.1 = 0 → Does .verifyComplete s (.update :: eventParts) (eventWords [18]) (fun t =>
        others t ∧ moves .verifying .verified t ∧ t.upd.slot u.target = { x with state := .verified } ∧ t.upd.vres = 0
          ∧ t.upd.vfail = u.vfail))
      ∧ (b.verify.1 ≠ 0 → Does .verifyComplete s (.update :: eventParts) (eventWords [18, 19]) (fun t =>
        others t ∧ moves .verifying .idle t ∧ t.upd.slot u.target = { x with state := .empty } ∧ t.upd.vres = b.verify.1
          ∧ t.upd.vpart = b.verify.2 ∧ t.upd.vfail = u.vfail + 1 ∧ Raised 19 b t)))

/-- UPD_ACTIVATE (R466), UPD_CONFIRM (R469), UPD_ABORT (R463, R468), UPD_STATUS (R464), SAVE_HOLD_END (R392). -/
def Obligations.ImagesAreActivatedAndConfirmed : Prop :=
  ∀ (s : State) (h : Hdr) (w : BootRecord), s.blk.upd.winner = some w → s.blk.upd.recovery = false →
    s.blk.link.progress = [] → h.asyncOk = false →
    let b := s.blk
    let u := b.upd
    let k := Sess.service
    let tick := b.time.count
    let tells (i : Instr) (op : BitVec 16) (st : Status) : Prop := Serves i s h op st tick [] [] [] (fun _ => True)
    let others (t : Block) : Prop := t.upd.storeA = u.storeA ∧ t.upd.storeB = u.storeB ∧ t.upd.running = u.running
      ∧ t.link.progress = []
    let records (r : BootRecord) (t : Block) : Prop :=
      t.upd.winner = some { r with valid := true, seq := w.seq + 1, identity := (t.upd.slot r.slot).identity }
        ∧ (t.upd.rec0 = w ∨ t.upd.rec1 = w)
    (Served b h k updActivateRow →
      (u.state = .verified → b.outputUnit = false →
        Serves (.updActivate h) s h 0x0053 .ok tick [] [.update] [] (fun t => others t ∧ t.upd.resetDue = true
          ∧ (t.upd.slot u.target).state = .installed ∧ t.upd.slot (!u.target) = u.slot (!u.target)
          ∧ t.upd.activations = u.activations + 1
          ∧ records { w with slot := u.target, store := !w.store, trial := true, starts := 0
                             prevSlot := some u.running, prevStore := some w.store } t))
      ∧ (u.state = .verified → b.outputUnit = true → tells (.updActivate h) 0x0053 .denied)
      ∧ (u.state ≠ .verified → tells (.updActivate h) 0x0053 .updSequence))
    ∧ (Served b h k updConfirmRow →
      (u.state = .trial → Serves (.updConfirm h) s h 0x0054 .ok tick [] (.update :: eventParts) (eventWords [18]) (fun t =>
        others t ∧ t.upd.state = .idle ∧ Raised 18 b t ∧ t.upd.slotA = u.slotA ∧ t.upd.slotB = u.slotB
          ∧ records { w with trial := false, starts := 0, prevSlot := none, prevStore := none
                             minSvn := max w.minSvn b.runInfo.svn } t))
      ∧ (u.state = .idle → tells (.updConfirm h) 0x0054 .ok)
      ∧ (u.state = .migrationFailed → tells (.updConfirm h) 0x0054 .migrationFailed))
    ∧ (Served b h k updAbortRow →
      (u.state = .receiving ∨ u.state = .complete ∨ u.state = .verified →
        Serves (.updAbort h) s h 0x0055 .ok tick [] (.update :: eventParts) (eventWords [18]) (fun t =>
          others t ∧ t.upd.state = .idle ∧ Raised 18 b t ∧ t.upd.slot u.target = { u.slot u.target with state := .empty }
            ∧ t.upd.slot (!u.target) = u.slot (!u.target) ∧ t.upd.rec0 = u.rec0 ∧ t.upd.rec1 = u.rec1))
      ∧ (∀ p, u.state = .trial → w.prevSlot = some p →
        Serves (.updAbort h) s h 0x0055 .ok tick [] [.update] [] (fun t => others t ∧ t.upd.resetDue = true
          ∧ (t.upd.slot w.slot).state = .empty ∧ t.upd.reverts = u.reverts + 1
          ∧ records { w with slot := p, store := w.prevStore.getD w.store, trial := false, starts := 0
                             prevSlot := none, prevStore := none, revert := 4 } t))
      ∧ (u.state = .idle → tells (.updAbort h) 0x0055 .ok)
      ∧ (u.state = .verifying → tells (.updAbort h) 0x0055 .updSequence))
    ∧ (Served b h k updStatusRow → Serves (.updStatus h) s h 0x0056 .ok tick b.updStatus [] [] (fun _ => True))
    ∧ ∀ t0, b.link.saveBusySince = some t0 → t0 + 200000000 ≤ b.now h.at_ →
      Does (.saveHoldEnd h.at_) s [.linkOther] [] (fun t => t.link = { b.link with saveBusySince := none })

/-- VPWR_INPUT_LOST, VPWR_INPUT_PRESENT, INPUT_OVER (R297, R298), KEY_CHANGE (R485), the input switches (R487, R488)
    and their precharge (R492). -/
def Obligations.SupplyInputs : Prop :=
  ∀ (s : State) (i : Sys2Proof.VpwrInput) (mv at_ : Nat),
    let b := s.blk
    let x := b.sup.input i
    let now := b.now at_
    let ports : List Sys2Proof.VpwrInput := [.a, .b]
    let other (t : Block) : Prop := (∀ j ∈ ports, j ≠ i → t.sup.input j = b.sup.input j)
      ∧ { t.sup with inA := b.sup.inA, inB := b.sup.inB, resume := b.sup.resume } = b.sup
    let settles (e : Nat) (t : Block) : Prop := { t.eng.mot with units := b.eng.mot.units } = b.eng.mot
      ∧ (∀ u < b.eng.mot.units.length, { t.mot u with steps := (b.mot u).steps, edgeLast := (b.mot u).edgeLast } = b.mot u)
      ∧ t.eng.mot = (t.motorsSettle e).eng.mot
    let opens (c : Instr) (contact : Nat) (why : SwitchOpen) : Prop :=
      (x.present = false → Does c s [.supply] [] (fun t => other t
        ∧ t.sup.input i = { x with closed := false, opened := why, openedAt := now, contactMv := contact }))
      ∧ (x.present = true → Does c s (.supply :: .draws :: .motors :: eventParts) (eventWords [3]) (fun t => other t ∧ Raised 3 b t
        ∧ settles at_ t
        ∧ t.sup.input i = { x with closed := false, opened := why, openedAt := now, present := false, lost := true
                                   contactMv := contact }))
    (mv < 8500 →
      (x.present = true → Does (.vpwrInputLost i mv) s (.supply :: .motors :: eventParts) (eventWords [3]) (fun t =>
        other t ∧ settles b.time.hand t ∧ t.sup.input i = { x with present := false, lost := true, mv := mv } ∧ Raised 3 b t))
      ∧ (x.present = false → Does (.vpwrInputLost i mv) s [.supply] [] (fun t =>
        other t ∧ t.sup.input i = { x with mv := mv })))
    ∧ (9000 ≤ mv → x.closed = true →
      (x.present = false → x.lost = true →
        Does (.vpwrInputPresent i mv) s (.supply :: eventParts) (eventWords [3]) (fun t =>
          other t ∧ t.sup.input i = { x with present := true, lost := false, mv := mv } ∧ Raised 3 b t
            ∧ t.sup.resume = (b.sup.resume || !b.vpwrPresent)))
      ∧ (x.present = false → x.lost = false → Does (.vpwrInputPresent i mv) s [.supply] [] (fun t =>
        other t ∧ t.sup.input i = { x with present := true, mv := mv }
          ∧ t.sup.resume = (b.sup.resume || !b.vpwrPresent)))
      ∧ (x.present = true → Does (.vpwrInputPresent i mv) s [.supply] [] (fun t =>
        other t ∧ t.sup.input i = { x with mv := mv } ∧ t.sup.resume = b.sup.resume)))
    ∧ (∀ ma, (40000 < ma → x.overLatched = false →
        Does (.inputOver i ma) s (.supply :: eventParts) (eventWords [4]) (fun t => other t ∧ Raised 4 b t
          ∧ t.sup.input i = { x with mean1s := ma, overLatched := true }))
      ∧ (ma ≤ 40000 ∨ x.overLatched = true → Does (.inputOver i ma) s [.supply] [] (fun t => other t
          ∧ t.sup.input i = { x with mean1s := ma, overLatched := decide (40000 < ma) })))
    ∧ (∀ ns, 10000000 ≤ ns → Does (.keyChange mv ns at_) s [.supply] [] (fun t =>
        t.sup = { b.sup with key := if 6000 < mv then true else if mv < 3000 then false else b.sup.key }))
    ∧ (∀ ma ns, x.closed = true → 60000 < ma → 100000 ≤ ns →
        opens (.inputSwitchOvercurrent i ma ns at_) x.contactMv .overCurrent)
    ∧ (36000 < mv → opens (.inputSwitchOvervoltage i mv at_) mv .overVoltage)
    ∧ (∀ ns, 1000 < mv → 10000 ≤ ns →
        Does (.groundLift mv ns at_) s (.supply :: .draws :: .motors :: eventParts) (eventWords [3]) (fun t =>
          (b.vpwrPresent = true → settles at_ t) ∧ (b.vpwrPresent = false → t.eng.mot = b.eng.mot)
            ∧ t.sup.prechargeSince = none ∧ ∀ j ∈ ports, t.sup.input j = { b.sup.input j with
            closed := false, opened := .groundLift, openedAt := now, present := false
            lost := (b.sup.input j).lost || (b.sup.input j).present }))
    ∧ (∀ settled, x.closed = false →
        (x.opened = .overCurrent ∧ x.openedAt + 1000000000 ≤ now)
          ∨ (x.opened = .overVoltage ∧ mv < 34000 ∧ 10000000 ≤ settled)
          ∨ (x.opened = .groundLift ∧ mv ≤ 500 ∧ 10000000 ≤ settled) →
        Does (.inputSwitchReturn i mv settled at_) s [.supply] [] (fun t => other t
          ∧ t.sup.input i = { x with opened := .neverClosed } ∧ (t.sup.input i).eligible = true))
    ∧ (∀ busMv, b.eng.pwr.state ≠ .dormant → b.sup.prechargeSince = none → b.sup.retryAt = none →
        busMv + 1000 < mv → b.sup.inA.eligible = true →
        Does (.prechargeStart mv 0 busMv at_) s [.supply] [] (fun t =>
          t.sup.prechargeSince = some now ∧ t.sup.inA = { b.sup.inA with contactMv := mv } ∧ t.sup.busMv = busMv))
    ∧ (∀ t0 busMv, b.sup.prechargeSince = some t0 → b.sup.inA.eligible = true →
        mv ≤ busMv + 1000 → busMv ≤ mv + 1000 → 2000 < busMv → b.sup.inA.lost = false →
        Does (.prechargeComplete mv 0 busMv) s [.supply] [] (fun t =>
          t.sup.prechargeSince = none ∧ t.sup.busMv = busMv ∧ t.sup.inB = b.sup.inB
            ∧ t.sup.inA = { b.sup.inA with closed := true, opened := .neverClosed, mv := busMv
                                           present := b.sup.inA.present || decide (9000 ≤ busMv) }))
    ∧ ∀ t0, b.sup.prechargeSince = some t0 → t0 + 30000000 ≤ now →
        let fail (y : Input) : Input := if y.eligible then { y with opened := .prechargeFailed } else y
        Does (.prechargeTimeout at_) s [.supply] [] (fun t =>
          t.sup = { b.sup with prechargeSince := none, retryAt := some (now + 1000000000)
                               inA := fail b.sup.inA, inB := fail b.sup.inB })
end

