-- ==== Sys2Proof/Laws/Fit.lean ====
section
/-! SUPPORT. No operation of the machine changes the variant, which units are ABSENT, the queues or the sizes of the
    tables: one lemma for each operation that the commands are made of. -/

namespace Sys2Proof.Machine

open Sys2Proof (Word Byte Bytes Sess Hdr Instr)
@[simp] theorem modNth_length {α : Type} (l : List α) (i : Nat) (f : α → α) :
    (modNth l i f).length = l.length := by simp [modNth]
@[simp] theorem sizes_mk (pw ls fb po mp va al mo lo) :
    (Engines.mk pw ls fb po mp va al mo lo).sizes = [ls.length, fb.axes.length, fb.ports.length, fb.pts.length, mp.frames.length, mp.tlb.length, mp.faults.length, mp.buffers.length, mp.shadows.length, va.noz.length, va.banks.length, va.boosts.length, va.props.length, al.lanes.length, al.pins.length, al.noz.length, al.tracks.length, mo.units.length, lo.slots.length] := rfl
@[simp] theorem sizes_fold (e : Engines) : [e.lsw.length, e.fb.axes.length, e.fb.ports.length, e.fb.pts.length, e.map.frames.length, e.map.tlb.length, e.map.faults.length, e.map.buffers.length, e.map.shadows.length, e.valve.noz.length, e.valve.banks.length, e.valve.boosts.length, e.valve.props.length, e.alm.lanes.length, e.alm.pins.length, e.alm.noz.length, e.alm.tracks.length, e.mot.units.length, e.loop.slots.length] = e.sizes := rfl
@[simp] theorem fit_mk (i r t l v e d c u s p en pu pt ps dr) :
    (Block.mk i r t l v e d c u s p en pu pt ps dr).fit = (i.variant, absentMask v.units, l.queues.length, en.sizes) := rfl
@[simp] theorem fit_fold_ (b : Block) :
    (b.ident.variant, absentMask b.vig.units, b.link.queues.length, b.eng.sizes) = b.fit := rfl
@[simp] theorem fit_ite (c : Prop) [Decidable c] (x y : Block) :
    (if c then x else y).fit = if c then x.fit else y.fit := by split <;> rfl
theorem setEntry_absent (f : UnitEntry → UnitEntry) (e : UnitEntry) :
    ((setEntry f e).state == UnitState.absent) = (e.state == UnitState.absent) := by
  unfold setEntry
  dsimp only
  split
  · rfl
  · split
    · rfl
    · rename_i h1 h2
      rw [beq_eq_false_iff_ne.mpr h1, beq_eq_false_iff_ne.mpr h2]
@[simp] theorem absentMask_setEntry (l : List UnitEntry) (u : Nat) (f : UnitEntry → UnitEntry) :
    absentMask (modNth l u (setEntry f)) = absentMask l := by
  simp only [absentMask, modNth]
  induction l generalizing u with
  | nil => simp
  | cons e l ih =>
    cases u with
    | zero => simp [setEntry_absent]
    | succ u => simp [ih]
@[simp] theorem absentMask_map_setEntry (l : List UnitEntry) (f : UnitEntry → UnitEntry) :
    absentMask (l.map (setEntry f)) = absentMask l := by
  simp only [absentMask, List.map_map]
  exact List.map_congr_left (fun e _ => setEntry_absent f e)
theorem absentMask_map (l : List UnitEntry) (f : UnitEntry → UnitEntry) (h : ∀ e, (f e).state = e.state) :
    absentMask (l.map f) = absentMask l := by
  simp only [absentMask, List.map_map]
  exact List.map_congr_left (fun e _ => by simp [h])
@[simp] theorem captured_length {α β : Type} (l : List α) (cap : List β) (f : α → β → α) :
    (captured l cap f).length = l.length := by simp [captured]
@[simp] theorem modSess_queues (l : Link) (k : Sess) (f : Session → Session) :
    (l.modSess k f).queues = l.queues := by
  cases k <;> rfl
@[simp] theorem fit_foldl {α : Type} (l : List α) (g : Block → α → Block) (b : Block)
    (h : ∀ b x, (g b x).fit = b.fit) : (l.foldl g b).fit = b.fit := by
  induction l generalizing b with
  | nil => rfl
  | cons x l ih => simp [List.foldl_cons, ih, h]


@[simp] theorem Block.setWord_fit (b : Block) (r : Reg) (i : Nat) (j : Nat) (v : Word) :
    (Block.setWord b r i j v).fit = b.fit := by
  simp [Block.setWord]

@[simp] theorem Block.setFld_fit (b : Block) (r : Reg) (i : Nat) (msb : Nat) (lsb : Nat) (v : Nat) :
    (Block.setFld b r i msb lsb v).fit = b.fit := by
  simp [Block.setFld]

@[simp] theorem Block.count_fit (b : Block) (r : Reg) (i : Nat) (msb : Nat) (lsb : Nat) (n : Nat) :
    (Block.count b r i msb lsb n).fit = b.fit := by
  simp [Block.count]

@[simp] theorem Block.countWrap_fit (b : Block) (r : Reg) (i : Nat) (msb : Nat) (lsb : Nat) (n : Nat) :
    (Block.countWrap b r i msb lsb n).fit = b.fit := by
  simp [Block.countWrap]

@[simp] theorem Block.latch_fit (b : Block) (r : Reg) (i : Nat) (n : Nat) :
    (Block.latch b r i n).fit = b.fit := by
  simp [Block.latch]

@[simp] theorem Block.unlatch_fit (b : Block) (r : Reg) (i : Nat) (m : Word) :
    (Block.unlatch b r i m).fit = b.fit := by
  simp [Block.unlatch]

@[simp] theorem Block.draw_fit (b : Block) :
    (Block.draw b).2.fit = b.fit := by
  simp [Block.draw]

@[simp] theorem Block.modSess_fit (b : Block) (k : Sess) (f : Session → Session) :
    (Block.modSess b k f).fit = b.fit := by
  simp [Block.modSess]

@[simp] theorem Block.setSessWord_fit (b : Block) (k : Sess) (r : Reg) (i : Nat) (v : Word) :
    (Block.setSessWord b k r i v).fit = b.fit := by
  simp [Block.setSessWord]

@[simp] theorem Block.reaches_fit (b : Block) (at_ : Nat) :
    (Block.reaches b at_).fit = b.fit := by
  simp [Block.reaches]

@[simp] theorem Block.setUnit_fit (b : Block) (u : Nat) (f : UnitEntry → UnitEntry) :
    (Block.setUnit b u f).fit = b.fit := by
  simp [Block.setUnit]

@[simp] theorem Block.postUnit_fit (b : Block) (q : UnitReq) :
    (Block.postUnit b q).fit = b.fit := by
  simp [Block.postUnit]

@[simp] theorem Block.faultUnit_fit (b : Block) (u : Nat) (at_ : Nat) (c : Cause) :
    (Block.faultUnit b u at_ c).fit = b.fit := by
  simp [Block.faultUnit]

@[simp] theorem Block.intake_fit (b : Block) (src : Nat) (code : Byte) (p : Payload) (now : Nat) :
    (Block.intake b src code p now).fit = b.fit := by
  unfold Block.intake
  (repeat' split) <;> simp

@[simp] theorem Block.dtcUpdate_fit (b : Block) (s : Nat) :
    (Block.dtcUpdate b s).fit = b.fit := by
  unfold Block.dtcUpdate
  dsimp only
  (repeat' split) <;> simp

@[simp] theorem Block.toPackets_fit (b : Block) (k : Sess) (o : Occurrence) (p : Payload) :
    (Block.toPackets b k o p).fit = b.fit := by
  unfold Block.toPackets
  (repeat' split) <;> simp

@[simp] theorem Block.assert_fit (b : Block) (s : Nat) (code : Byte) (now : Nat) (still : Bool) :
    (Block.assert b s code now still).fit = b.fit := by
  simp [Block.assert]

@[simp] theorem Block.toQueues_fit (b : Block) (o : Occurrence) (p : Payload) :
    (Block.toQueues b o p).fit = b.fit := by
  simp [Block.toQueues]

@[simp] theorem Block.toDiary_fit (b : Block) (o : Occurrence) (p : Payload) :
    (Block.toDiary b o p).fit = b.fit := by
  simp [Block.toDiary]

@[simp] theorem Block.raise_fit (b : Block) (s : Nat) (code : Byte) (p : Payload) (at_ : Nat) (still : Bool) :
    (Block.raise b s code p at_ still).fit = b.fit := by
  simp [Block.raise]

@[simp] theorem Block.raiseItems_fit (b : Block) (s : Nat) (code : Byte) (kind : Nat) (items : List Nat)
    (at_ : Nat) (still : Bool) :
    (Block.raiseItems b s code kind items at_ still).fit = b.fit := by
  simp [Block.raiseItems]

@[simp] theorem Block.raiseKeyed_fit (b : Block) (key : Nat) (s : Nat) (code : Byte) (p : Payload) (at_ : Nat) :
    (Block.raiseKeyed b key s code p at_).fit = b.fit := by
  simp [Block.raiseKeyed]

@[simp] theorem Block.raiseLimited_fit (b : Block) (s : Nat) (code : Byte) (p : Payload) (at_ : Nat) :
    (Block.raiseLimited b s code p at_).fit = b.fit := by
  simp [Block.raiseLimited]

@[simp] theorem Block.send_fit (b : Block) (p : Packet) (at_ : Nat) :
    (Block.send b p at_).fit = b.fit := by
  simp [Block.send]

@[simp] theorem Block.reply_fit (b : Block) (k : Option Sess) (h : Hdr) (op : BitVec 16) (st : Status)
    (tick : Word) (payload : Bytes) :
    (Block.reply b k h op st tick payload).fit = b.fit := by
  unfold Block.reply
  (repeat' split) <;> simp

@[simp] theorem Block.replyNow_fit (b : Block) (k : Option Sess) (h : Hdr) (op : BitVec 16) (st : Status)
    (payload : Bytes) :
    (Block.replyNow b k h op st payload).fit = b.fit := by
  simp [Block.replyNow]

@[simp] theorem Block.sendOwn_fit (b : Block) (k : Sess) (op : BitVec 16) (queue : Fin 4) (payload : Bytes)
    (at_ : Nat) :
    (Block.sendOwn b k op queue payload at_).fit = b.fit := by
  simp [Block.sendOwn]

@[simp] theorem Block.begins_fit (b : Block) (seq : Nat) (k : Sess) (h : Hdr) (op : BitVec 16) (ends : Until)
    (holds : Bool) :
    (Block.begins b seq k h op ends holds).fit = b.fit := by
  simp [Block.begins]

@[simp] theorem Block.postsWith_fit (b : Block) (seq : Nat) (arrived : Nat) (k : Sess) (h : Hdr)
    (op : BitVec 16) (i : Instr) (st : Status) (payload : Bytes) :
    (Block.postsWith b seq arrived k h op i st payload).fit = b.fit := by
  simp [Block.postsWith]

@[simp] theorem Block.posts_fit (b : Block) (seq : Nat) (arrived : Nat) (k : Sess) (h : Hdr) (op : BitVec 16)
    (i : Instr) :
    (Block.posts b seq arrived k h op i).fit = b.fit := by
  simp [Block.posts]

@[simp] theorem Block.completes_fit (b : Block) (seq : Nat) :
    (Block.completes b seq).fit = b.fit := by
  simp [Block.completes]

@[simp] theorem Block.awaits_fit (b : Block) (seq : Nat) (k : Sess) (h : Hdr) (op : BitVec 16) :
    (Block.awaits b seq k h op).fit = b.fit := by
  simp [Block.awaits]

@[simp] theorem Block.finishes_fit (b : Block) (p : InProgress) (st : Status) (payload : Bytes) :
    (Block.finishes b p st payload).fit = b.fit := by
  simp [Block.finishes]

@[simp] theorem Block.fenceStep_fit (b : Block) (p : InProgress) :
    (Block.fenceStep b p).fit = b.fit := by
  unfold Block.fenceStep
  (repeat' split) <;> simp

@[simp] theorem Block.fences_fit (b : Block) :
    (Block.fences b).fit = b.fit := by
  simp [Block.fences]

@[simp] theorem Block.keepAlive_fit (b : Block) (k : Sess) (h : Hdr) :
    (Block.keepAlive b k h).fit = b.fit := by
  simp [Block.keepAlive]

@[simp] theorem Block.peak_fit (b : Block) (q : Fin 4) (used : Nat) :
    (Block.peak b q used).fit = b.fit := by
  simp [Block.peak]

@[simp] theorem Block.queueFull_fit (b : Block) (k : Sess) (h : Hdr) (op : BitVec 16) :
    (Block.queueFull b k h op).fit = b.fit := by
  simp [Block.queueFull]

@[simp] theorem Block.enqueue_fit (b : Block) (w : Waiting) :
    (Block.enqueue b w).fit = b.fit := by
  simp [Block.enqueue]

@[simp] theorem Block.dispatched_fit (b : Block) (h : Hdr) :
    (Block.dispatched b h).fit = b.fit := by
  simp [Block.dispatched]

@[simp] theorem Block.arrives_fit (b : Block) (h : Hdr) :
    (Block.arrives b h).fit = b.fit := by
  simp [Block.arrives]

theorem Block.takeSlot_fit (b : Block) (k : Sess) (i : Instr) (h : Hdr) (op : OpRow) (d : Dispatch)
    (hd : ∀ k n m c, (d k n m c).fit = c.fit) : (b.takeSlot k i h op d).fit = b.fit := by
  unfold Block.takeSlot
  dsimp only
  split <;> simp [hd]

theorem Block.arrive_fit (b : Block) (k : Sess) (i : Instr) (h : Hdr) (op : OpRow) (d : Dispatch)
    (hd : ∀ k n m c, (d k n m c).fit = c.fit) : (b.arrive k i h op d).fit = b.fit := by
  unfold Block.arrive
  dsimp only
  (repeat' split) <;> simp [Block.takeSlot_fit _ _ _ _ _ _ hd]

theorem Block.request_fit (b : Block) (i : Instr) (h : Hdr) (op : OpRow) (d : Dispatch)
    (hd : ∀ k n m c, (d k n m c).fit = c.fit) : (b.request i h op d).fit = b.fit := by
  unfold Block.request
  (repeat' split) <;> simp [Block.arrive_fit _ _ _ _ _ _ hd]

@[simp] theorem Block.modSw_fit (b : Block) (k : Nat) (f : Lsw → Lsw) :
    (Block.modSw b k f).fit = b.fit := by
  simp [Block.modSw]

@[simp] theorem Block.modPwr_fit (b : Block) (f : Power → Power) :
    (Block.modPwr b f).fit = b.fit := by
  simp [Block.modPwr]

@[simp] theorem Block.lswRoll_fit (b : Block) (k : Nat) (at_ : Nat) :
    (Block.lswRoll b k at_).fit = b.fit := by
  simp [Block.lswRoll]

@[simp] theorem Block.lswRollAll_fit (b : Block) (at_ : Nat) :
    (Block.lswRollAll b at_).fit = b.fit := by
  simp [Block.lswRollAll]

@[simp] theorem Block.lswStart_fit (b : Block) (k : Nat) (at_ : Nat) :
    (Block.lswStart b k at_).fit = b.fit := by
  simp [Block.lswStart]

@[simp] theorem Block.lswAbandon_fit (b : Block) (k : Nat) (at_ : Nat) :
    (Block.lswAbandon b k at_).fit = b.fit := by
  simp [Block.lswAbandon]

@[simp] theorem Block.lswAdmit_fit (b : Block) (k : Nat) (at_ : Nat) :
    (Block.lswAdmit b k at_).fit = b.fit := by
  simp [Block.lswAdmit]

@[simp] theorem Block.lswOff_fit (b : Block) (k : Nat) (at_ : Nat) :
    (Block.lswOff b k at_).fit = b.fit := by
  simp [Block.lswOff]

@[simp] theorem Block.lswFollow_fit (b : Block) (k : Nat) (at_ : Nat) :
    (Block.lswFollow b k at_).fit = b.fit := by
  unfold Block.lswFollow
  dsimp only
  (repeat' split) <;> simp

@[simp] theorem Block.lswCommand_fit (b : Block) (k : Nat) (on : Bool) (duty : Nat) (at_ : Nat) :
    (Block.lswCommand b k on duty at_).fit = b.fit := by
  simp [Block.lswCommand]

@[simp] theorem Block.lswUnitChange_fit (b : Block) (k : Nat) (old : UnitState) (new : UnitState) (at_ : Nat) :
    (Block.lswUnitChange b k old new at_).fit = b.fit := by
  simp [Block.lswUnitChange]

@[simp] theorem Block.lswFault_fit (b : Block) (k : Nat) (flag : Nat) (at_ : Nat) :
    (Block.lswFault b k flag at_).fit = b.fit := by
  simp [Block.lswFault]

@[simp] theorem Block.lswTrip_fit (b : Block) (k : Nat) (flag : Nat) (at_ : Nat) :
    (Block.lswTrip b k flag at_).fit = b.fit := by
  simp [Block.lswTrip]

@[simp] theorem Block.lswCut_fit (b : Block) (k : Nat) (at_ : Nat) :
    (Block.lswCut b k at_).fit = b.fit := by
  simp [Block.lswCut]

@[simp] theorem Block.modTime_fit (b : Block) (f : Time → Time) :
    (Block.modTime b f).fit = b.fit := by
  simp [Block.modTime]

@[simp] theorem Block.servoTo_fit (b : Block) (s : Servo) (at_ : Nat) :
    (Block.servoTo b s at_).fit = b.fit := by
  simp [Block.servoTo]

@[simp] theorem Block.acquire_fit (b : Block) (offset : Int) (at_ : Nat) :
    (Block.acquire b offset at_).fit = b.fit := by
  simp [Block.acquire]

@[simp] theorem Block.measure_fit (b : Block) (offset : Int) (at_ : Nat) :
    (Block.measure b offset at_).fit = b.fit := by
  unfold Block.measure
  (repeat' split) <;> simp

@[simp] theorem Block.followSource_fit (b : Block) (at_ : Nat) :
    (Block.followSource b at_).fit = b.fit := by
  simp [Block.followSource]

@[simp] theorem Block.offsetCommit_fit (b : Block) :
    (Block.offsetCommit b).fit = b.fit := by
  simp [Block.offsetCommit]

@[simp] theorem Block.rtcWrite_fit (b : Block) (at_ : Nat) (valid : Bool) :
    (Block.rtcWrite b at_ valid).fit = b.fit := by
  simp [Block.rtcWrite]

@[simp] theorem Block.timeEdge_fit (b : Block) (ticks : Nat) :
    (Block.timeEdge b ticks).fit = b.fit := by
  unfold Block.timeEdge
  dsimp only
  (repeat' split) <;> simp

@[simp] theorem Block.clockSet_fit (b : Block) (arrived : Nat) (tai : Int) (seconds : Nat) (nanos : Nat) :
    (Block.clockSet b arrived tai seconds nanos).fit = b.fit := by
  simp [Block.clockSet]

@[simp] theorem dispatchClockSet_fit (h : Hdr) (tai : BitVec 16) (seconds : BitVec 64) (nanos : Word)
    (i : Instr) (y0 : Sess) (y06 : Nat) (y07 : Nat) (y08 : Block) :
    (dispatchClockSet h tai seconds nanos i y0 y06 y07 y08).fit = y08.fit := by
  simp [dispatchClockSet]

@[simp] theorem dispatchLeap_fit (h : Hdr) (seconds : BitVec 64) (i : Instr) (y0 : Sess)
    (y04 : Nat) (y05 : Nat) (y06 : Block) :
    (dispatchLeap h seconds i y0 y04 y05 y06).fit = y06.fit := by
  simp [dispatchLeap]

@[simp] theorem dispatchLeapCancel_fit (h : Hdr) (i : Instr) (y0 : Sess) (y03 : Nat)
    (y04 : Nat) (y05 : Block) :
    (dispatchLeapCancel h i y0 y03 y04 y05).fit = y05.fit := by
  simp [dispatchLeapCancel]

@[simp] theorem Block.relaySync_fit (b : Block) (at_ : Nat) :
    (Block.relaySync b at_).fit = b.fit := by
  simp [Block.relaySync]

@[simp] theorem Block.holdoverEnds_fit (b : Block) (at_ : Nat) :
    (Block.holdoverEnds b at_).fit = b.fit := by
  simp [Block.holdoverEnds]

@[simp] theorem Block.modFb_fit (b : Block) (f : Feedback → Feedback)
    (h : (f b.eng.fb).axes.length = b.eng.fb.axes.length ∧ (f b.eng.fb).ports.length = b.eng.fb.ports.length
      ∧ (f b.eng.fb).pts.length = b.eng.fb.pts.length) : (b.modFb f).fit = b.fit := by
  simp [Block.modFb, h]

@[simp] theorem Block.modAxis_fit (b : Block) (a : Nat) (f : Axis → Axis) :
    (Block.modAxis b a f).fit = b.fit := by
  simp [Block.modAxis]

@[simp] theorem Block.modPort_fit (b : Block) (p : Nat) (f : SPort → SPort) :
    (Block.modPort b p f).fit = b.fit := by
  simp [Block.modPort]

@[simp] theorem Block.divideCount_fit (b : Block) (a : Nat) (n : Nat) (at_ : Nat) :
    (Block.divideCount b a n at_).fit = b.fit := by
  simp [Block.divideCount]

@[simp] theorem Block.moveAxis_fit (b : Block) (a : Nat) (forward : Bool) (at_ : Nat) :
    (Block.moveAxis b a forward at_).fit = b.fit := by
  simp [Block.moveAxis]

@[simp] theorem Block.countAxis_fit (b : Block) (a : Nat) (fwd : Bool) (hyst : Bool) (at_ : Nat) :
    (Block.countAxis b a fwd hyst at_).fit = b.fit := by
  unfold Block.countAxis
  dsimp only
  (repeat' split) <;> simp

@[simp] theorem Block.countError_fit (b : Block) (a : Nat) (at_ : Nat) :
    (Block.countError b a at_).fit = b.fit := by
  simp [Block.countError]

@[simp] theorem Block.hallStep_fit (b : Block) (a : Nat) (before : Nat) (code : Nat) (at_ : Nat) :
    (Block.hallStep b a before code at_).fit = b.fit := by
  unfold Block.hallStep
  dsimp only
  (repeat' split) <;> simp

@[simp] theorem Block.indexEdge_fit (b : Block) (a : Nat) (at_ : Nat) :
    (Block.indexEdge b a at_).fit = b.fit := by
  unfold Block.indexEdge
  (repeat' split) <;> simp

@[simp] theorem Block.sampleAxis_fit (b : Block) (old : BitVec 49) (new : BitVec 49) (a : Nat) (at_ : Nat) :
    (Block.sampleAxis b old new a at_).fit = b.fit := by
  unfold Block.sampleAxis
  (repeat' split) <;> simp

@[simp] theorem Block.fbEdges_fit (b : Block) (levels : BitVec 49) (held : Nat) (cycles : List (Fin 8 × Nat))
    (at_ : Nat) :
    (Block.fbEdges b levels held cycles at_).fit = b.fit := by
  simp [Block.fbEdges]

@[simp] theorem Block.latchAxis_fit (b : Block) (a : Nat) :
    (Block.latchAxis b a).fit = b.fit := by
  simp [Block.latchAxis]

@[simp] theorem Block.axisUnitChange_fit (b : Block) (a : Nat) (old : UnitState) (new : UnitState) (at_ : Nat) :
    (Block.axisUnitChange b a old new at_).fit = b.fit := by
  simp [Block.axisUnitChange]

@[simp] theorem Block.portLost_fit (b : Block) (p : Nat) (at_ : Nat) :
    (Block.portLost b p at_).fit = b.fit := by
  simp [Block.portLost]

@[simp] theorem Block.badFrame_fit (b : Block) (p : Nat) (crc : Bool) (at_ : Nat) :
    (Block.badFrame b p crc at_).fit = b.fit := by
  simp [Block.badFrame]

@[simp] theorem Block.jumpAxis_fit (b : Block) (a : Nat) (d : Int) (at_ : Nat) :
    (Block.jumpAxis b a d at_).fit = b.fit := by
  simp [Block.jumpAxis]

@[simp] theorem Block.serialSample_fit (b : Block) (a : Nat) (p : Nat) (field : Int) (stamp : Nat) (at_ : Nat) :
    (Block.serialSample b a p field stamp at_).fit = b.fit := by
  simp [Block.serialSample]

@[simp] theorem Block.goodFrame_fit (b : Block) (p : Nat) (word : Nat) (stamp : Nat) (at_ : Nat) :
    (Block.goodFrame b p word stamp at_).fit = b.fit := by
  simp [Block.goodFrame]

@[simp] theorem Block.msgSample_fit (b : Block) (a : Nat) (speed : Nat) (distance : Nat) (direction : BitVec 2)
    (at_ : Nat) :
    (Block.msgSample b a speed distance direction at_).fit = b.fit := by
  simp [Block.msgSample]

@[simp] theorem Block.gspdTake_fit (b : Block) (poseSpeed : Option Int) (at_ : Nat) :
    (Block.gspdTake b poseSpeed at_).fit = b.fit := by
  simp [Block.gspdTake]

@[simp] theorem Block.latchFeedback_fit (b : Block) :
    (Block.latchFeedback b).fit = b.fit := by
  simp [Block.latchFeedback]

@[simp] theorem Block.modPose_fit (b : Block) (f : Pose → Pose) :
    (Block.modPose b f).fit = b.fit := by
  simp [Block.modPose]

@[simp] theorem Block.setTravelLost_fit (b : Block) (lost : Bool) (at_ : Nat) :
    (Block.setTravelLost b lost at_).fit = b.fit := by
  simp [Block.setTravelLost]

@[simp] theorem Block.setImuFault_fit (b : Block) (fault : Bool) (at_ : Nat) :
    (Block.setImuFault b fault at_).fit = b.fit := by
  simp [Block.setImuFault]

@[simp] theorem Block.chooseSpeed_fit (b : Block) (l : List Source) (r : Int) (ticks : Nat) :
    (Block.chooseSpeed b l r ticks).fit = b.fit := by
  simp [Block.chooseSpeed]

@[simp] theorem Block.fixReject_fit (b : Block) (why : Reject) :
    (Block.fixReject b why).fit = b.fit := by
  unfold Block.fixReject
  (repeat' split) <;> simp

@[simp] theorem Block.rebias_fit (b : Block) :
    (Block.rebias b).fit = b.fit := by
  simp [Block.rebias]

@[simp] theorem Block.rescale_fit (b : Block) :
    (Block.rescale b).fit = b.fit := by
  simp [Block.rescale]

@[simp] theorem Block.hostSpeed_fit (b : Block) (s : HostSpeed) :
    (Block.hostSpeed b s).fit = b.fit := by
  simp [Block.hostSpeed]

@[simp] theorem Block.headingIn_fit (b : Block) (t : Nat) (hist : Snap) (hdg : Int) (sigma : Nat) :
    (Block.headingIn b t hist hdg sigma).fit = b.fit := by
  simp [Block.headingIn]

@[simp] theorem Block.headingGated_fit (b : Block) (t : Nat) (hdg : Int) (sigma : Nat) :
    (Block.headingGated b t hdg sigma).2.fit = b.fit := by
  unfold Block.headingGated
  dsimp only
  (repeat' split) <;> simp

@[simp] theorem Block.course_fit (b : Block) (prev : LastFix) (cur : LastFix) :
    (Block.course b prev cur).fit = b.fit := by
  simp [Block.course]

@[simp] theorem Block.fixPosition_fit (b : Block) (hist : Snap) (de : Int) (dn : Int) (dh : Int) (sigma : Nat) :
    (Block.fixPosition b hist de dn dh sigma).fit = b.fit := by
  simp [Block.fixPosition]

@[simp] theorem Block.fixSpeed_fit (b : Block) (hist : Snap) (f : PoseFix) :
    (Block.fixSpeed b hist f).fit = b.fit := by
  simp [Block.fixSpeed]

@[simp] theorem Block.applyFix_fit (b : Block) (f : PoseFix) :
    (Block.applyFix b f).fit = b.fit := by
  unfold Block.applyFix
  dsimp only
  (repeat' split) <;> simp

@[simp] theorem Block.applyAid_fit (b : Block) (t : Nat) (i : AidItem) :
    (Block.applyAid b t i).fit = b.fit := by
  unfold Block.applyAid
  dsimp only
  (repeat' split) <;> simp

@[simp] theorem Block.applyLate_fit (b : Block) : b.applyLate.fit = b.fit := by
  refine (fit_foldl _ _ _ (fun acc x => ?_)).trans (by simp)
  cases x <;> simp

@[simp] theorem Block.slewPosition_fit (b : Block) (ticks : Nat) :
    (Block.slewPosition b ticks).fit = b.fit := by
  simp [Block.slewPosition]

@[simp] theorem Block.regrade_fit (b : Block) (at_ : Nat) :
    (Block.regrade b at_).fit = b.fit := by
  simp [Block.regrade]

@[simp] theorem Block.nozPoints_fit (b : Block) :
    (Block.nozPoints b).fit = b.fit := by
  simp [Block.nozPoints]

@[simp] theorem Block.odoRate_fit (b : Block) :
    (Block.odoRate b).fit = b.fit := by
  simp [Block.odoRate]

@[simp] theorem Block.rates_fit (b : Block) (l : List Source) (ticks : Nat) :
    (Block.rates b l ticks).fit = b.fit := by
  unfold Block.rates
  dsimp only
  split
  · exact Block.modPose_fit _ _
  · split
    · exact (Block.modPose_fit _ _).trans ((Block.draw_fit _).trans (Block.draw_fit b))
    · exact (Block.modPose_fit _ _).trans (Block.draw_fit b)

@[simp] theorem Block.integrate_fit (b : Block) (ticks : Nat) :
    (Block.integrate b ticks).fit = b.fit := by
  simp [Block.integrate]

@[simp] theorem Block.snapshot_fit (b : Block) (ticks : Nat) :
    (Block.snapshot b ticks).fit = b.fit := by
  simp [Block.snapshot]

@[simp] theorem Block.forget_fit (b : Block) :
    (Block.forget b).fit = b.fit := by
  simp [Block.forget]

@[simp] theorem Block.poseRun_fit (b : Block) (ticks : Nat) :
    (Block.poseRun b ticks).fit = b.fit := by
  simp [Block.poseRun]

@[simp] theorem Block.posePhase_fit (b : Block) (ns : Nat) (ticks : Nat) :
    (Block.posePhase b ns ticks).fit = b.fit := by
  simp [Block.posePhase]

@[simp] theorem Block.poseEnable_fit (b : Block) (at_ : Nat) :
    (Block.poseEnable b at_).fit = b.fit := by
  simp [Block.poseEnable]

@[simp] theorem Block.fieldOrigin_fit (b : Block) (frame : BitVec 16) (lat : Word) (lon : Word) (alt : Word) :
    (Block.fieldOrigin b frame lat lon alt).fit = b.fit := by
  simp [Block.fieldOrigin]

@[simp] theorem dispatchPoseFix_fit (h : Hdr) (f : PoseFix) (y0 : Sess) (y03 : Nat)
    (y04 : Nat) (y05 : Block) :
    (dispatchPoseFix h f y0 y03 y04 y05).fit = y05.fit := by
  simp [dispatchPoseFix]

@[simp] theorem dispatchPoseAiding_fit (h : Hdr) (time : BitVec 64) (items : List AidItem)
    (y0 : Sess) (y04 : Nat) (y05 : Nat) (y06 : Block) :
    (dispatchPoseAiding h time items y0 y04 y05 y06).fit = y06.fit := by
  simp [dispatchPoseAiding]

@[simp] theorem dispatchFieldOrigin_fit (h : Hdr) (frame : BitVec 16) (i : Instr) (y0 : Sess)
    (y04 : Nat) (y05 : Nat) (y06 : Block) :
    (dispatchFieldOrigin h frame i y0 y04 y05 y06).fit = y06.fit := by
  simp [dispatchFieldOrigin]

@[simp] theorem Block.modMap_fit (b : Block) (f : FieldMap → FieldMap)
    (h : (f b.eng.map).frames.length = b.eng.map.frames.length ∧ (f b.eng.map).tlb.length = b.eng.map.tlb.length
      ∧ (f b.eng.map).faults.length = b.eng.map.faults.length
      ∧ (f b.eng.map).buffers.length = b.eng.map.buffers.length
      ∧ (f b.eng.map).shadows.length = b.eng.map.shadows.length) : (b.modMap f).fit = b.fit := by
  simp [Block.modMap, h]

@[simp] theorem Block.modFrame_fit (b : Block) (f : Nat) (g : Frame → Frame) :
    (Block.modFrame b f g).fit = b.fit := by
  simp [Block.modFrame]

@[simp] theorem Block.sendFault_fit (b : Block) (slot : Nat) (resend : Bool) (at_ : Nat) :
    (Block.sendFault b slot resend at_).fit = b.fit := by
  unfold Block.sendFault
  (repeat' split) <;> simp

@[simp] theorem Block.dropReplay_fit (b : Block) (k : Key) :
    (Block.dropReplay b k).fit = b.fit := by
  simp [Block.dropReplay]

@[simp] theorem Block.releaseFault_fit (b : Block) (k : Key) :
    (Block.releaseFault b k).fit = b.fit := by
  unfold Block.releaseFault
  (repeat' split) <;> simp

@[simp] theorem Block.endFill_fit (b : Block) (f : Nat) (event : Bool) (at_ : Nat) :
    (Block.endFill b f event at_).fit = b.fit := by
  simp [Block.endFill]

@[simp] theorem Block.abandonFill_fit (b : Block) (f : Nat) (event : Bool) (at_ : Nat) :
    (Block.abandonFill b f event at_).fit = b.fit := by
  simp [Block.abandonFill]

@[simp] theorem Block.resendFault_fit (b : Block) (k : Key) (at_ : Nat) :
    (Block.resendFault b k at_).fit = b.fit := by
  unfold Block.resendFault
  (repeat' split) <;> simp

@[simp] theorem Block.purgeTlb_fit (b : Block) :
    (Block.purgeTlb b).fit = b.fit := by
  simp [Block.purgeTlb]

@[simp] theorem Block.useFault_fit (b : Block) (k : Key) :
    (Block.useFault b k).fit = b.fit := by
  simp [Block.useFault]

@[simp] theorem Block.touchWait_fit (b : Block) (p : Nat) (k : Key) :
    (Block.touchWait b p k).fit = b.fit := by
  simp [Block.touchWait]

@[simp] theorem Block.keyTimesOut_fit (b : Block) (p : Nat) (k : Key) (at_ : Nat) :
    (Block.keyTimesOut b p k at_).fit = b.fit := by
  simp [Block.keyTimesOut]

@[simp] theorem Block.takeFault_fit (b : Block) (p : Nat) (k : Key) :
    (Block.takeFault b p k).fit = b.fit := by
  simp [Block.takeFault]

@[simp] theorem Block.missing_fit (b : Block) (p : Nat) (k : Key) :
    (Block.missing b p k).2.fit = b.fit := by
  unfold Block.missing
  dsimp only
  (repeat' split) <;> simp

@[simp] theorem Block.useSlots_fit (b : Block) (n : Nat) :
    (Block.useSlots b n).fit = b.fit := by
  simp [Block.useSlots]

@[simp] theorem Block.tlbUse_fit (b : Block) (k : Key) (f : Nat) :
    (Block.tlbUse b k f).fit = b.fit := by
  simp [Block.tlbUse]

@[simp] theorem Block.lookup_fit (b : Block) (p : Nat) (e : Int) (n : Int) :
    (Block.lookup b p e n).2.fit = b.fit := by
  unfold Block.lookup
  dsimp only
  (repeat' split) <;> simp

@[simp] theorem Block.wantWriteback_fit (b : Block) (f : Nat) :
    (Block.wantWriteback b f).fit = b.fit := by
  simp [Block.wantWriteback]

@[simp] theorem Block.chunkBusy_fit (b : Block) (k : Sess) (h : Hdr) :
    (Block.chunkBusy b k h).fit = b.fit := by
  simp [Block.chunkBusy]

@[simp] theorem Block.fillTarget_fit (b : Block) (k : Sess) (h : Hdr) (key : Key) :
    (Block.fillTarget b k h key).2.fit = b.fit := by
  unfold Block.fillTarget
  (repeat' split) <;> simp

@[simp] theorem dispatchChunk_fit (h : Hdr) (product chunk fid : Byte) (tx ty seq : Word) (chunks : Nat)
    (bit : Word)
    (full : Bool) (store : Cells → Cells) (k : Sess) (n m : Nat) (b : Block) :
    (dispatchChunk h product chunk fid tx ty seq chunks bit full store k n m b).fit = b.fit := by
  unfold dispatchChunk
  dsimp only
  split
  · simp
  · have e := Block.fillTarget_fit b k h { fid := fid.toNat, tx := signed 32 tx.toNat, ty := signed 32 ty.toNat }
    split <;> simp_all

@[simp] theorem dispatchRateTable_fit (h : Hdr) (product : Byte) (chunk : Byte) (data : Bytes)
    (y0 : Sess) (y05 : Nat) (y06 : Nat) (y07 : Block) :
    (dispatchRateTable h product chunk data y0 y05 y06 y07).fit = y07.fit := by
  simp [dispatchRateTable]

@[simp] theorem Block.validate_fit (b : Block) (f : Nat) :
    (Block.validate b f).fit = b.fit := by
  unfold Block.validate
  dsimp only
  (repeat' split) <;> simp

@[simp] theorem Block.validateAll_fit (b : Block) : b.validateAll.fit = b.fit := by
  refine fit_foldl _ _ _ (fun acc x => ?_)
  dsimp only
  (repeat' split) <;> simp

@[simp] theorem Block.activateTables_fit (b : Block) : b.activateTables.fit = b.fit := by
  refine fit_foldl _ _ _ (fun acc x => ?_)
  dsimp only
  (repeat' split) <;> simp

@[simp] theorem Block.evictOne_fit (b : Block) :
    (Block.evictOne b).fit = b.fit := by
  unfold Block.evictOne
  (repeat' split) <;> simp

@[simp] theorem Block.evict_fit (b : Block) :
    (Block.evict b).fit = b.fit := by
  unfold Block.evict
  dsimp only
  (repeat' split) <;> simp

@[simp] theorem Block.mapCommit_fit (b : Block) :
    (Block.mapCommit b).fit = b.fit := by
  simp [Block.mapCommit]

@[simp] theorem Block.invalidateFrame_fit (b : Block) (f : Nat) (discard : Bool) :
    (Block.invalidateFrame b f discard).fit = b.fit := by
  unfold Block.invalidateFrame
  dsimp only
  (repeat' split) <;> simp

@[simp] theorem Block.invalidate_fit (b : Block) (p : Frame → Bool) (discard : Bool) :
    (Block.invalidate b p discard).fit = b.fit := by
  simp [Block.invalidate]

@[simp] theorem Block.tileInvalidate_fit (b : Block) (scope : Byte) (product : Byte) (flags : Byte) (tx : Word)
    (ty : Word) :
    (Block.tileInvalidate b scope product flags tx ty).fit = b.fit := by
  unfold Block.tileInvalidate
  (repeat' split) <;> simp

@[simp] theorem Block.prodChanged_fit (b : Block) (p : Nat) :
    (Block.prodChanged b p).fit = b.fit := by
  simp [Block.prodChanged]

@[simp] theorem Block.cancelFaults_fit (b : Block) :
    (Block.cancelFaults b).fit = b.fit := by
  simp [Block.cancelFaults]

@[simp] theorem Block.mapOrigin_fit (b : Block) (old : BitVec 16) : (b.mapOrigin old).fit = b.fit := by
  unfold Block.mapOrigin
  dsimp only
  rw [Block.modMap_fit _ _ (by simp), Block.cancelFaults_fit]
  refine fit_foldl _ _ _ (fun acc x => ?_)
  split <;> simp

@[simp] theorem Block.mapSessionLoss_fit (b : Block) :
    (Block.mapSessionLoss b).fit = b.fit := by
  simp [Block.mapSessionLoss]

@[simp] theorem Block.logReplay_fit (b : Block) (r : Replay) :
    (Block.logReplay b r).fit = b.fit := by
  unfold Block.logReplay
  dsimp only
  (repeat' split) <;> simp

@[simp] theorem Block.writeCell_fit (b : Block) (s : Segment) (c : Int × Int) (at_ : Nat) :
    (Block.writeCell b s c at_).fit = b.fit := by
  unfold Block.writeCell
  dsimp only
  (repeat' split) <;> simp

@[simp] theorem Block.queueSegments_fit (b : Block) (l : List Segment) (at_ : Nat) :
    (Block.queueSegments b l at_).fit = b.fit := by
  simp [Block.queueSegments]

@[simp] theorem Block.coverNext_fit (b : Block) (at_ : Nat) :
    (Block.coverNext b at_).fit = b.fit := by
  unfold Block.coverNext
  (repeat' split) <;> simp

@[simp] theorem Block.sendWbChunk_fit (b : Block) (tag : Nat) (w : Writeback) (at_ : Nat) (chunk : Nat) :
    (Block.sendWbChunk b tag w at_ chunk).fit = b.fit := by
  simp [Block.sendWbChunk]

@[simp] theorem Block.sendWriteback_fit (b : Block) (tag : Nat) (have_ : Word) (at_ : Nat) :
    (Block.sendWriteback b tag have_ at_).fit = b.fit := by
  unfold Block.sendWriteback
  (repeat' split) <;> simp

@[simp] theorem dispatchWritebackAck_fit (h : Hdr) (tag : Byte) (bitmap : Word) (y0 : Sess)
    (y04 : Nat) (y05 : Nat) (y06 : Block) :
    (dispatchWritebackAck h tag bitmap y0 y04 y05 y06).fit = y06.fit := by
  unfold dispatchWritebackAck
  dsimp only
  (repeat' split) <;> simp

@[simp] theorem Block.mapMainOpens_fit (b : Block) :
    (Block.mapMainOpens b).fit = b.fit := by
  simp [Block.mapMainOpens]

@[simp] theorem Block.poison_fit (b : Block) (f : Nat) (at_ : Nat) :
    (Block.poison b f at_).fit = b.fit := by
  unfold Block.poison
  dsimp only
  (repeat' split) <;> simp

@[simp] theorem dispatchMapPolicy_fit (h : Hdr) (product : Byte) (policy : Byte) (tmo : BitVec 16) (i : Instr)
    (y0 : Sess) (y06 : Nat) (y07 : Nat) (y08 : Block) :
    (dispatchMapPolicy h product policy tmo i y0 y06 y07 y08).fit = y08.fit := by
  simp [dispatchMapPolicy]

@[simp] theorem Block.mapPolicy_fit (b : Block) (product : Byte) (policy : Byte) (tmo : BitVec 16) :
    (Block.mapPolicy b product policy tmo).fit = b.fit := by
  simp [Block.mapPolicy]

@[simp] theorem dispatchTileInvalidate_fit (h : Hdr) (scope : Byte) (product : Byte) (flags : Byte) (i : Instr)
    (y0 : Sess) (y06 : Nat) (y07 : Nat) (y08 : Block) :
    (dispatchTileInvalidate h scope product flags i y0 y06 y07 y08).fit = y08.fit := by
  simp [dispatchTileInvalidate]

@[simp] theorem Block.mapTick_fit (b : Block) (ticks : Nat) :
    (Block.mapTick b ticks).fit = b.fit := by
  simp [Block.mapTick]

@[simp] theorem Block.modValve_fit (b : Block) (f : Valve → Valve)
    (h : (f b.eng.valve).noz.length = b.eng.valve.noz.length ∧ (f b.eng.valve).banks.length = b.eng.valve.banks.length
      ∧ (f b.eng.valve).boosts.length = b.eng.valve.boosts.length
      ∧ (f b.eng.valve).props.length = b.eng.valve.props.length) : (b.modValve f).fit = b.fit := by
  simp [Block.modValve, h]

@[simp] theorem Block.modNoz_fit (b : Block) (n : Nat) (f : Noz → Noz) :
    (Block.modNoz b n f).fit = b.fit := by
  simp [Block.modNoz]

@[simp] theorem Block.learn_fit (b : Block) (n : Nat) (opening : Bool) (v : Nat) (m : Nat) :
    (Block.learn b n opening v m).fit = b.fit := by
  simp [Block.learn]

@[simp] theorem Block.learnedReset_fit (b : Block) (n : Nat) :
    (Block.learnedReset b n).fit = b.fit := by
  simp [Block.learnedReset]

@[simp] theorem Block.measureCoil_fit (b : Block) (n : Nat) (now : Nat) :
    (Block.measureCoil b n now).fit = b.fit := by
  simp [Block.measureCoil]

@[simp] theorem Block.result_fit (b : Block) (n : Nat) (r : ActResult) :
    (Block.result b n r).fit = b.fit := by
  simp [Block.result]

@[simp] theorem Block.countEnergised_fit (b : Block) (n : Nat) (now : Nat) :
    (Block.countEnergised b n now).fit = b.fit := by
  simp [Block.countEnergised]

@[simp] theorem Block.turnOff_fit (b : Block) (n : Nat) (bearing : Bool) (now : Nat) :
    (Block.turnOff b n bearing now).fit = b.fit := by
  simp [Block.turnOff]

@[simp] theorem Block.failPull_fit (b : Block) (n : Nat) (p : Pull) (kind : Nat) (now : Nat) :
    (Block.failPull b n p kind now).fit = b.fit := by
  unfold Block.failPull
  (repeat' split) <;> simp

@[simp] theorem Block.cancelPull_fit (b : Block) (n : Nat) (now : Nat) :
    (Block.cancelPull b n now).fit = b.fit := by
  unfold Block.cancelPull
  dsimp only
  (repeat' split) <;> simp

@[simp] theorem Block.nozStuck_fit (b : Block) (n : Nat) (at_ : Nat) :
    (Block.nozStuck b n at_).fit = b.fit := by
  simp [Block.nozStuck]

@[simp] theorem Block.countFail_fit (b : Block) (n : Nat) (at_ : Nat) :
    (Block.countFail b n at_).fit = b.fit := by
  simp [Block.countFail]

@[simp] theorem Block.abandonClose_fit (b : Block) (n : Nat) :
    (Block.abandonClose b n).fit = b.fit := by
  unfold Block.abandonClose
  (repeat' split) <;> simp

@[simp] theorem Block.pullIn_fit (b : Block) (n : Nat) (p : Pull) (delta : Nat) (at_ : Nat) :
    (Block.pullIn b n p delta at_).fit = b.fit := by
  unfold Block.pullIn
  dsimp only
  (repeat' split) <;> simp

@[simp] theorem Block.enterWait_fit (b : Block) (n : Nat) (now : Nat) :
    (Block.enterWait b n now).fit = b.fit := by
  simp [Block.enterWait]

@[simp] theorem Block.dropPull_fit (b : Block) (n : Nat) (at_ : Nat) :
    (Block.dropPull b n at_).fit = b.fit := by
  simp [Block.dropPull]

@[simp] theorem Block.limitEvent_fit (b : Block) (n : Nat) (limited : Bool) (at_ : Nat) :
    (Block.limitEvent b n limited at_).fit = b.fit := by
  simp [Block.limitEvent]

@[simp] theorem Block.doChoice_fit (b : Block) (n : Nat) (c : Choice) (at_ : Nat) :
    (Block.doChoice b n c at_).fit = b.fit := by
  unfold Block.doChoice
  (repeat' split) <;> simp

@[simp] theorem Block.period_fit (b : Block) (n : Nat) (at_ : Nat) :
    (Block.period b n at_).fit = b.fit := by
  simp [Block.period]

@[simp] theorem Block.leadInStart_fit (b : Block) (n : Nat) (c : Choice) (limited : Bool) (at_ : Nat) :
    (Block.leadInStart b n c limited at_).fit = b.fit := by
  simp [Block.leadInStart]

@[simp] theorem Block.skipFirst_fit (b : Block) (n : Nat) (at_ : Nat) :
    (Block.skipFirst b n at_).fit = b.fit := by
  simp [Block.skipFirst]

@[simp] theorem Block.riseNow_fit (b : Block) (n : Nat) (batt : Bool) (c : Choice) (limited : Bool) (at_ : Nat) :
    (Block.riseNow b n batt c limited at_).fit = b.fit := by
  unfold Block.riseNow
  dsimp only
  (repeat' split) <;> simp

@[simp] theorem Block.startRise_fit (b : Block) (n : Nat) (batt : Bool) (at_ : Nat) :
    (Block.startRise b n batt at_).fit = b.fit := by
  simp [Block.startRise]

@[simp] theorem Block.boostNotReady_fit (b : Block) (c : Nat) (at_ : Nat) :
    (Block.boostNotReady b c at_).fit = b.fit := by
  simp [Block.boostNotReady]

@[simp] theorem Block.closeNow_fit (b : Block) (n : Nat) (now : Nat) :
    (Block.closeNow b n now).fit = b.fit := by
  simp [Block.closeNow]

@[simp] theorem Block.closeWindow_fit (b : Block) (n : Nat) (now : Nat) :
    (Block.closeWindow b n now).fit = b.fit := by
  simp [Block.closeWindow]

@[simp] theorem Block.detectAfresh_fit (b : Block) (n : Nat) :
    (Block.detectAfresh b n).fit = b.fit := by
  simp [Block.detectAfresh]

@[simp] theorem Block.closeIdle_fit (b : Block) (n : Nat) (now : Nat) :
    (Block.closeIdle b n now).fit = b.fit := by
  simp [Block.closeIdle]

@[simp] theorem Block.deliverClose_fit (b : Block) (n : Nat) (at_ : Nat) :
    (Block.deliverClose b n at_).fit = b.fit := by
  unfold Block.deliverClose
  dsimp only
  (repeat' split) <;> simp

@[simp] theorem Block.deliverOpen_fit (b : Block) (n : Nat) (byRate : Bool) (param : Nat) (delta : Nat)
    (at_ : Nat) :
    (Block.deliverOpen b n byRate param delta at_).fit = b.fit := by
  simp [Block.deliverOpen]

@[simp] theorem Block.deliverRate_fit (b : Block) (n : Nat) (rate : Nat) (at_ : Nat) :
    (Block.deliverRate b n rate at_).fit = b.fit := by
  simp [Block.deliverRate]

@[simp] theorem Block.deliverPulse_fit (b : Block) (n : Nat) (ns : Nat) (at_ : Nat) :
    (Block.deliverPulse b n ns at_).fit = b.fit := by
  simp [Block.deliverPulse]

@[simp] theorem Block.nozToFault_fit (b : Block) (n : Nat) (at_ : Nat) :
    (Block.nozToFault b n at_).fit = b.fit := by
  simp [Block.nozToFault]

@[simp] theorem Block.nozFault_fit (b : Block) (n : Nat) (bit : Nat) (at_ : Nat) :
    (Block.nozFault b n bit at_).fit = b.fit := by
  simp [Block.nozFault]

@[simp] theorem Block.bankFault_fit (b : Block) (bank : Nat) (bit : Nat) (at_ : Nat) :
    (Block.bankFault b bank bit at_).fit = b.fit := by
  simp [Block.bankFault]

@[simp] theorem Block.nozUnitChange_fit (b : Block) (n : Nat) (old : UnitState) (new : UnitState) (at_ : Nat) :
    (Block.nozUnitChange b n old new at_).fit = b.fit := by
  simp [Block.nozUnitChange]

@[simp] theorem Block.stuckCommit_fit (b : Block) (n : Nat) :
    (Block.stuckCommit b n).fit = b.fit := by
  simp [Block.stuckCommit]

@[simp] theorem Block.nozCommit_fit (b : Block) (n : Nat) (at_ : Nat) :
    (Block.nozCommit b n at_).fit = b.fit := by
  unfold Block.nozCommit
  dsimp only
  (repeat' split) <;> simp

@[simp] theorem Block.nozTick_fit (b : Block) (n : Nat) (ticks : Nat) :
    (Block.nozTick b n ticks).fit = b.fit := by
  simp [Block.nozTick]

@[simp] theorem Block.saveLearned_fit (b : Block) (now : Nat) :
    (Block.saveLearned b now).fit = b.fit := by
  simp [Block.saveLearned]

@[simp] theorem Block.forceStart_fit (b : Block) (n : Nat) (f : Force) (at_ : Nat) :
    (Block.forceStart b n f at_).fit = b.fit := by
  simp [Block.forceStart]

@[simp] theorem Block.forceStop_fit (b : Block) (n : Nat) (at_ : Nat) :
    (Block.forceStop b n at_).fit = b.fit := by
  simp [Block.forceStop]

@[simp] theorem Block.forceApply_fit (b : Block) (mask : BitVec 96) (f : Option Force) (at_ : Nat) :
    (Block.forceApply b mask f at_).fit = b.fit := by
  unfold Block.forceApply
  (repeat' split) <;> simp

@[simp] theorem dispatchForce_fit (h : Hdr) (mask : BitVec 96) (start : Bool) (bad : Bool) (i : Instr)
    (y0 : Sess) (y06 : Nat) (y07 : Nat) (y08 : Block) :
    (dispatchForce h mask start bad i y0 y06 y07 y08).fit = y08.fit := by
  simp [dispatchForce]

@[simp] theorem Block.modBoost_fit (b : Block) (c : Nat) (f : Boost → Boost) :
    (Block.modBoost b c f).fit = b.fit := by
  simp [Block.modBoost]

@[simp] theorem Block.boostTo_fit (b : Block) (c : Nat) (s : BoostState) (at_ : Nat) :
    (Block.boostTo b c s at_).fit = b.fit := by
  simp [Block.boostTo]

@[simp] theorem Block.boostFault_fit (b : Block) (c : Nat) (bit : Nat) (at_ : Nat) :
    (Block.boostFault b c bit at_).fit = b.fit := by
  simp [Block.boostFault]

@[simp] theorem Block.boostUnitChange_fit (b : Block) (c : Nat) (old : UnitState) (new : UnitState) (at_ : Nat) :
    (Block.boostUnitChange b c old new at_).fit = b.fit := by
  simp [Block.boostUnitChange]

@[simp] theorem Block.boostSafe_fit (b : Block) (c : Nat) (at_ : Nat) :
    (Block.boostSafe b c at_).fit = b.fit := by
  simp [Block.boostSafe]

@[simp] theorem Block.boostTick_fit (b : Block) (c : Nat) (ticks : Nat) (vout : Nat) (avg : Nat) (peak : Nat) :
    (Block.boostTick b c ticks vout avg peak).fit = b.fit := by
  simp [Block.boostTick]

@[simp] theorem Block.modProp_fit (b : Block) (k : Nat) (f : Prop_ → Prop_) :
    (Block.modProp b k f).fit = b.fit := by
  simp [Block.modProp]

@[simp] theorem Block.propRamp_fit (b : Block) (k : Nat) (target : Nat) (at_ : Nat) :
    (Block.propRamp b k target at_).fit = b.fit := by
  simp [Block.propRamp]

@[simp] theorem Block.propDecay_fit (b : Block) (k : Nat) (at_ : Nat) :
    (Block.propDecay b k at_).fit = b.fit := by
  simp [Block.propDecay]

@[simp] theorem Block.propFollow_fit (b : Block) (k : Nat) (at_ : Nat) :
    (Block.propFollow b k at_).fit = b.fit := by
  unfold Block.propFollow
  dsimp only
  (repeat' split) <;> simp

@[simp] theorem Block.propValue_fit (b : Block) (k : Nat) (v : Nat) (service : Bool) (at_ : Nat) :
    (Block.propValue b k v service at_).fit = b.fit := by
  simp [Block.propValue]

@[simp] theorem Block.propSet_fit (b : Block) (k : Nat) (ma : Nat) (at_ : Nat) :
    (Block.propSet b k ma at_).fit = b.fit := by
  simp [Block.propSet]

@[simp] theorem Block.propClear_fit (b : Block) (k : Nat) (at_ : Nat) :
    (Block.propClear b k at_).fit = b.fit := by
  simp [Block.propClear]

@[simp] theorem Block.propLoop_fit (b : Block) (slot : Nat) (v : Nat) (at_ : Nat) :
    (Block.propLoop b slot v at_).fit = b.fit := by
  simp [Block.propLoop]

@[simp] theorem Block.propFault_fit (b : Block) (k : Nat) (bit : Nat) (at_ : Nat) :
    (Block.propFault b k bit at_).fit = b.fit := by
  simp [Block.propFault]

@[simp] theorem Block.propUnitChange_fit (b : Block) (k : Nat) (old : UnitState) (new : UnitState) (at_ : Nat) :
    (Block.propUnitChange b k old new at_).fit = b.fit := by
  simp [Block.propUnitChange]

@[simp] theorem Block.propTick_fit (b : Block) (k : Nat) (meanMa : Nat) (dutyPm : Nat) :
    (Block.propTick b k meanMa dutyPm).fit = b.fit := by
  simp [Block.propTick]

@[simp] theorem Block.modAlm_fit (b : Block) (f : Almanac → Almanac)
    (h : (f b.eng.alm).lanes.length = b.eng.alm.lanes.length ∧ (f b.eng.alm).pins.length = b.eng.alm.pins.length
      ∧ (f b.eng.alm).noz.length = b.eng.alm.noz.length
      ∧ (f b.eng.alm).tracks.length = b.eng.alm.tracks.length) : (b.modAlm f).fit = b.fit := by
  simp [Block.modAlm, h]

@[simp] theorem Block.modLane_fit (b : Block) (l : Nat) (f : Lane → Lane) :
    (Block.modLane b l f).fit = b.fit := by
  simp [Block.modLane]

@[simp] theorem Block.modAlmNoz_fit (b : Block) (n : Nat) (f : AlmNoz → AlmNoz) :
    (Block.modAlmNoz b n f).fit = b.fit := by
  simp [Block.modAlmNoz]

@[simp] theorem Block.dropEve_fit (b : Block) (l : Nat) (order : Nat) :
    (Block.dropEve b l order).fit = b.fit := by
  simp [Block.dropEve]

@[simp] theorem Block.takeFlight_fit (b : Block) (n : Nat) (e : Eve) (act : Act) (at_ : Nat) :
    (Block.takeFlight b n e act at_).fit = b.fit := by
  simp [Block.takeFlight]

@[simp] theorem Block.deliverNoz_fit (b : Block) (n : Nat) (byRate : Bool) (e : Eve) (at_ : Nat) :
    (Block.deliverNoz b n byRate e at_).fit = b.fit := by
  unfold Block.deliverNoz
  (repeat' split) <;> simp

@[simp] theorem Block.deliver_fit (b : Block) (l : Nat) (e : Eve) (at_ : Nat) :
    (Block.deliver b l e at_).fit = b.fit := by
  unfold Block.deliver
  (repeat' split) <;> simp

@[simp] theorem Block.fire_fit (b : Block) (l : Nat) (e : Eve) (ref : Nat) (at_ : Nat) :
    (Block.fire b l e ref at_).fit = b.fit := by
  simp [Block.fire]

@[simp] theorem Block.stale_fit (b : Block) (l : Nat) (e : Eve) :
    (Block.stale b l e).fit = b.fit := by
  simp [Block.stale]

@[simp] theorem Block.crossPassed_fit (b : Block) (l : Nat) (at_ : Nat) :
    (Block.crossPassed b l at_).fit = b.fit := by
  simp [Block.crossPassed]

@[simp] theorem Block.crossStep_fit (b : Block) (l : Nat) (a : Nat) (s : AxisStep) (at_ : Nat) :
    (Block.crossStep b l a s at_).fit = b.fit := by
  simp [Block.crossStep]

@[simp] theorem Block.crossAxis_fit (b : Block) (l : Nat) (a : Nat) (at_ : Nat) :
    (Block.crossAxis b l a at_).fit = b.fit := by
  simp [Block.crossAxis]

@[simp] theorem Block.publishEve_fit (b : Block) (l : Nat) (e : Eve) (at_ : Nat) :
    (Block.publishEve b l e at_).fit = b.fit := by
  unfold Block.publishEve
  (repeat' split) <;> simp

@[simp] theorem Block.publishAll_fit (b : Block) (l : Nat) (es : List Eve) (at_ : Nat) :
    (Block.publishAll b l es at_).fit = b.fit := by
  simp [Block.publishAll]

@[simp] theorem Block.publishFresh_fit (b : Block) (l : Nat) (at_ : Nat) :
    (Block.publishFresh b l at_).fit = b.fit := by
  simp [Block.publishFresh]

@[simp] theorem Block.lateEvent_fit (b : Block) (at_ : Nat) :
    (Block.lateEvent b at_).fit = b.fit := by
  simp [Block.lateEvent]

@[simp] theorem Block.clearLane_fit (b : Block) (l : Nat) :
    (Block.clearLane b l).fit = b.fit := by
  simp [Block.clearLane]

@[simp] theorem Block.unstage_fit (b : Block) (n : Nat) :
    (Block.unstage b n).fit = b.fit := by
  simp [Block.unstage]

@[simp] theorem Block.laneUnitChange_fit (b : Block) (u : Nat) (old : UnitState) (new : UnitState) :
    (Block.laneUnitChange b u old new).fit = b.fit := by
  simp [Block.laneUnitChange]

@[simp] theorem Block.laneOp_fit (b : Block) (o : LaneOp) :
    (Block.laneOp b o).fit = b.fit := by
  simp [Block.laneOp]

@[simp] theorem Block.pathCheck_fit (b : Block) (n : Nat) :
    (Block.pathCheck b n).fit = b.fit := by
  unfold Block.pathCheck
  dsimp only
  (repeat' split) <;> simp

@[simp] theorem Block.scanStep_fit (b : Block) (n : Nat) :
    (Block.scanStep b n).2.fit = b.fit := by
  unfold Block.scanStep
  dsimp only
  (repeat' split) <;> simp

@[simp] theorem Block.scanNoz_fit (n fuel : Nat) (b : Block) : (Block.scanNoz n fuel b).fit = b.fit := by
  induction fuel generalizing b with
  | zero => rfl
  | succ k ih =>
    have h := b.scanStep_fit n
    simp only [Block.scanNoz]
    split <;> simp_all

@[simp] theorem Block.planBegins_fit (b : Block) (n : Nat) :
    (Block.planBegins b n).fit = b.fit := by
  simp [Block.planBegins]

@[simp] theorem Block.killFor_fit (b : Block) (n : Nat) (gone : List Eve) :
    (Block.killFor b n gone).fit = b.fit := by
  simp [Block.killFor]

@[simp] theorem Block.planNoz_fit (b : Block) (n : Nat) :
    (Block.planNoz b n).fit = b.fit := by
  simp [Block.planNoz]

@[simp] theorem Block.idleNoz_fit (b : Block) (n : Nat) :
    (Block.idleNoz b n).fit = b.fit := by
  simp [Block.idleNoz]

@[simp] theorem Block.noteView_fit (b : Block) :
    (Block.noteView b).fit = b.fit := by
  simp [Block.noteView]

@[simp] theorem Block.dropViews_fit (b : Block) :
    (Block.dropViews b).fit = b.fit := by
  simp [Block.dropViews]

@[simp] theorem Block.keepFault_fit (b : Block) (n : Nat) :
    (Block.keepFault b n).fit = b.fit := by
  simp [Block.keepFault]

@[simp] theorem Block.blindPass_fit (b : Block) (l : List Nat) :
    (Block.blindPass b l).fit = b.fit := by
  simp [Block.blindPass]

@[simp] theorem Block.almanacPhase_fit (b : Block) :
    (Block.almanacPhase b).fit = b.fit := by
  simp [Block.almanacPhase]

@[simp] theorem Block.retract_fit (b : Block) (n : Nat) (order : Nat) (at_ : Nat) :
    (Block.retract b n order at_).fit = b.fit := by
  unfold Block.retract
  dsimp only
  (repeat' split) <;> simp

@[simp] theorem Block.takePlan_fit (b : Block) (n : Nat) (s : LanePlan) :
    (Block.takePlan b n s).fit = b.fit := by
  simp [Block.takePlan]

@[simp] theorem Block.publishPlan_fit (b : Block) (n : Nat) (at_ : Nat) :
    (Block.publishPlan b n at_).fit = b.fit := by
  unfold Block.publishPlan
  (repeat' split) <;> simp

@[simp] theorem Block.publishPlans_fit (b : Block) (unfinished : List Nat) (at_ : Nat) :
    (Block.publishPlans b unfinished at_).fit = b.fit := by
  simp [Block.publishPlans]

@[simp] theorem Block.publishEntries_fit (b : Block) (unfinished : List Nat) (at_ : Nat) :
    (Block.publishEntries b unfinished at_).fit = b.fit := by
  simp [Block.publishEntries]

@[simp] theorem Block.dropPlans_fit (b : Block) :
    (Block.dropPlans b).fit = b.fit := by
  simp [Block.dropPlans]

@[simp] theorem Block.segmentIn_fit (b : Block) (n : Nat) (t : Nat) (e : Int) (no : Int) (hb : Int) :
    (Block.segmentIn b n t e no hb).fit = b.fit := by
  simp [Block.segmentIn]

@[simp] theorem Block.segmentAtEdge_fit (b : Block) (n : Nat) (v : TickView) :
    (Block.segmentAtEdge b n v).fit = b.fit := by
  simp [Block.segmentAtEdge]

@[simp] theorem Block.segmentTo_fit (b : Block) (n t : Nat) (e no hb : Int) :
    (b.segmentTo n t e no hb).fit = b.fit := by
  unfold Block.segmentTo
  dsimp only
  rw [Block.segmentIn_fit]
  exact fit_foldl _ _ _ (fun acc v => acc.segmentAtEdge_fit n v)


@[simp] theorem Block.segmentsToEdge_fit (b : Block) :
    (Block.segmentsToEdge b).fit = b.fit := by
  simp [Block.segmentsToEdge]

@[simp] theorem Block.keepRecord_fit (b : Block) (r : AaRecord) (at_ : Nat) :
    (Block.keepRecord b r at_).fit = b.fit := by
  simp [Block.keepRecord]

@[simp] theorem Block.makeRecord_fit (b : Block) (p : Nat) (r : AaRecord) (at_ : Nat) :
    (Block.makeRecord b p r at_).fit = b.fit := by
  simp [Block.makeRecord]

@[simp] theorem Block.confirmOpen_fit (b : Block) (n : Nat) (f : Flight) (r : ActResult) (at_ : Nat) :
    (Block.confirmOpen b n f r at_).fit = b.fit := by
  unfold Block.confirmOpen
  dsimp only
  (repeat' split) <;> simp

@[simp] theorem Block.confirmClose_fit (b : Block) (n : Nat) (late : Bool) (counter : Bool) (ovr : Bool)
    (assumed : Bool) (stuck : Bool) (t : Nat) (measured : Nat) (at_ : Nat) :
    (Block.confirmClose b n late counter ovr assumed stuck t measured at_).fit = b.fit := by
  simp [Block.confirmClose]

@[simp] theorem Block.confirmRate_fit (b : Block) (n : Nat) (f : Flight) (r : ActResult) (at_ : Nat) :
    (Block.confirmRate b n f r at_).fit = b.fit := by
  simp [Block.confirmRate]

@[simp] theorem Block.failEntry_fit (b : Block) (n : Nat) (f : Flight) (kind : Nat) (at_ : Nat) :
    (Block.failEntry b n f kind at_).fit = b.fit := by
  simp [Block.failEntry]

@[simp] theorem Block.confirmRates_fit (b : Block) (n : Nat) (r : ActResult) (at_ : Nat) :
    (Block.confirmRates b n r at_).fit = b.fit := by
  simp [Block.confirmRates]

@[simp] theorem Block.takeOutcome_fit (b : Block) (n : Nat) (r : ActResult) (at_ : Nat) :
    (Block.takeOutcome b n r at_).fit = b.fit := by
  unfold Block.takeOutcome
  (repeat' split) <;> simp

@[simp] theorem Block.takeOutcomes_fit (b : Block) (n : Nat) (at_ : Nat) :
    (Block.takeOutcomes b n at_).fit = b.fit := by
  simp [Block.takeOutcomes]

@[simp] theorem Block.almanacCommit_fit (b : Block) (at_ : Nat) :
    (Block.almanacCommit b at_).fit = b.fit := by
  simp [Block.almanacCommit]

@[simp] theorem Block.sectionApply_fit (b : Block) (command : Byte) (timing : Byte) (mask : BitVec 96)
    (odo : BitVec 48) :
    (Block.sectionApply b command timing mask odo).fit = b.fit := by
  simp [Block.sectionApply]

@[simp] theorem dispatchSection_fit (h : Hdr) (command : Byte) (timing : Byte) (mask : BitVec 96) (i : Instr)
    (y0 : Sess) (y06 : Nat) (y07 : Nat) (y08 : Block) :
    (dispatchSection h command timing mask i y0 y06 y07 y08).fit = y08.fit := by
  simp [dispatchSection]

@[simp] theorem Block.rateTargetApply_fit (b : Block) (product : Byte) (flags : Byte) (scale : BitVec 16)
    (target : Word) :
    (Block.rateTargetApply b product flags scale target).fit = b.fit := by
  simp [Block.rateTargetApply]

@[simp] theorem dispatchRateTarget_fit (h : Hdr) (product : Byte) (flags : Byte) (scale : BitVec 16) (i : Instr)
    (y0 : Sess) (y06 : Nat) (y07 : Nat) (y08 : Block) :
    (dispatchRateTarget h product flags scale i y0 y06 y07 y08).fit = y08.fit := by
  simp [dispatchRateTarget]

@[simp] theorem Block.unpark_fit (b : Block) :
    (Block.unpark b).fit = b.fit := by
  simp [Block.unpark]

@[simp] theorem Block.almSessionLoss_fit (b : Block) :
    (Block.almSessionLoss b).fit = b.fit := by
  simp [Block.almSessionLoss]

@[simp] theorem Block.modMots_fit (b : Block) (f : Motors → Motors)
    (h : (f b.eng.mot).units.length = b.eng.mot.units.length) : (b.modMots f).fit = b.fit := by
  simp [Block.modMots, h]

@[simp] theorem Block.modMot_fit (b : Block) (u : Nat) (f : Motor → Motor) :
    (Block.modMot b u f).fit = b.fit := by
  simp [Block.modMot]

@[simp] theorem Block.motorSettle_fit (b : Block) (u : Nat) (t : Nat) :
    (Block.motorSettle b u t).fit = b.fit := by
  simp [Block.motorSettle]

@[simp] theorem Block.motorSet_fit (b : Block) (u : Nat) (at_ : Nat) (f : Motor → Motor) :
    (Block.motorSet b u at_ f).fit = b.fit := by
  simp [Block.motorSet]

@[simp] theorem Block.followHall_fit (b : Block) (u : Nat) (t : Nat) (lag : Nat) :
    (Block.followHall b u t lag).fit = b.fit := by
  unfold Block.followHall
  dsimp only
  (repeat' split) <;> simp

@[simp] theorem Block.takeCompares_fit (b : Block) (u : Nat) (t : Nat) (c : List (Nat × Nat))
    (carried : List (List (Nat × Bool))) :
    (Block.takeCompares b u t c carried).fit = b.fit := by
  simp [Block.takeCompares]

@[simp] theorem Block.takeDuty_fit (b : Block) (u : Nat) (d : Int) (t : Nat) :
    (Block.takeDuty b u d t).fit = b.fit := by
  simp [Block.takeDuty]

@[simp] theorem Block.loopDuty_fit (b : Block) (u : Nat) (d : Int) (t : Nat) :
    (Block.loopDuty b u d t).fit = b.fit := by
  simp [Block.loopDuty]

@[simp] theorem Block.motorLoop_fit (b : Block) (slot : Nat) (d : Int) (at_ : Nat) :
    (Block.motorLoop b slot d at_).fit = b.fit := by
  simp [Block.motorLoop]

@[simp] theorem Block.shadowWrite_fit (b : Block) (u : Nat) (bit : Nat) :
    (Block.shadowWrite b u bit).fit = b.fit := by
  simp [Block.shadowWrite]

@[simp] theorem Block.armGroups_fit (b : Block) (groups : Word) :
    (Block.armGroups b groups).fit = b.fit := by
  simp [Block.armGroups]

@[simp] theorem Block.rollPeriod_fit (b : Block) (u : Nat) (j : Nat) :
    (Block.rollPeriod b u j).fit = b.fit := by
  simp [Block.rollPeriod]

@[simp] theorem Block.moveShadows_fit (b : Block) (u : Nat) :
    (Block.moveShadows b u).fit = b.fit := by
  simp [Block.moveShadows]

@[simp] theorem Block.loopAtStart_fit (b : Block) (u : Nat) (carried : List (List (Nat × Bool))) :
    (Block.loopAtStart b u carried).fit = b.fit := by
  unfold Block.loopAtStart
  (repeat' split) <;> simp

@[simp] theorem Block.startCompares_fit (b : Block) (u : Nat) (carried : List (List (Nat × Bool))) :
    (Block.startCompares b u carried).fit = b.fit := by
  unfold Block.startCompares
  dsimp only
  (repeat' split) <;> simp

@[simp] theorem Block.motorResume_fit (b : Block) (u : Nat) :
    (Block.motorResume b u).fit = b.fit := by
  simp [Block.motorResume]

@[simp] theorem Block.periodStart_fit (b : Block) (u : Nat) (j : Nat) :
    (Block.periodStart b u j).fit = b.fit := by
  simp [Block.periodStart]

@[simp] theorem Block.countRefreshes_fit (b : Block) (u : Nat) :
    (Block.countRefreshes b u).fit = b.fit := by
  simp [Block.countRefreshes]

@[simp] theorem Block.motorToFault_fit (b : Block) (u : Nat) (low : Bool) (at_ : Nat) :
    (Block.motorToFault b u low at_).fit = b.fit := by
  simp [Block.motorToFault]

@[simp] theorem Block.motorFault_fit (b : Block) (u : Nat) (bit : Nat) (src : Nat) (low : Bool) (at_ : Nat) :
    (Block.motorFault b u bit src low at_).fit = b.fit := by
  simp [Block.motorFault]

@[simp] theorem Block.tripNow_fit (b : Block) (t : Nat) (fresh : Bool) (at_ : Nat) :
    (Block.tripNow b t fresh at_).fit = b.fit := by
  simp [Block.tripNow]

@[simp] theorem Block.tripStill_fit (b : Block) (at_ : Nat) :
    (Block.tripStill b at_).fit = b.fit := by
  simp [Block.tripStill]

@[simp] theorem Block.motorStop_fit (b : Block) (u : Nat) (at_ : Nat) :
    (Block.motorStop b u at_).fit = b.fit := by
  simp [Block.motorStop]

@[simp] theorem Block.motorRun_fit (b : Block) (u : Nat) (at_ : Nat) :
    (Block.motorRun b u at_).fit = b.fit := by
  simp [Block.motorRun]

@[simp] theorem Block.motorStart_fit (b : Block) (u : Nat) (at_ : Nat) :
    (Block.motorStart b u at_).fit = b.fit := by
  unfold Block.motorStart
  (repeat' split) <;> simp

@[simp] theorem Block.motorCoast_fit (b : Block) (u : Nat) (at_ : Nat) :
    (Block.motorCoast b u at_).fit = b.fit := by
  simp [Block.motorCoast]

@[simp] theorem Block.motorBrake_fit (b : Block) (u : Nat) (at_ : Nat) :
    (Block.motorBrake b u at_).fit = b.fit := by
  simp [Block.motorBrake]

@[simp] theorem Block.motorUnitChange_fit (b : Block) (u : Nat) (old : UnitState) (new : UnitState) (at_ : Nat) :
    (Block.motorUnitChange b u old new at_).fit = b.fit := by
  simp [Block.motorUnitChange]

@[simp] theorem Block.motorsSettle_fit (b : Block) (at_ : Nat) :
    (Block.motorsSettle b at_).fit = b.fit := by
  simp [Block.motorsSettle]

@[simp] theorem Block.motorsBrake_fit (b : Block) (at_ : Nat) :
    (Block.motorsBrake b at_).fit = b.fit := by
  simp [Block.motorsBrake]

@[simp] theorem Block.driveApply_fit (b : Block) (k : Sess) (d : Drive) (mask : BitVec 16)
    (duties : List (BitVec 16)) (at_ : Nat) :
    (Block.driveApply b k d mask duties at_).fit = b.fit := by
  unfold Block.driveApply
  (repeat' split) <;> simp

@[simp] theorem dispatchDrive_fit (h : Hdr) (d : Drive) (mask : BitVec 16) (duties : List (BitVec 16))
    (i : Instr) (y0 : Sess) (y06 : Nat) (y07 : Nat) (y08 : Block) :
    (dispatchDrive h d mask duties i y0 y06 y07 y08).fit = y08.fit := by
  simp [dispatchDrive]

@[simp] theorem Block.motorCapture_fit (b : Block) (u : Nat) (ia : Int) (ib : Int) (ic : Int) (tj : Int)
    (samples : List (Nat × Nat)) :
    (Block.motorCapture b u ia ib ic tj samples).fit = b.fit := by
  simp [Block.motorCapture]

@[simp] theorem Block.motorTick_fit (b : Block) :
    (Block.motorTick b).fit = b.fit := by
  simp [Block.motorTick]

@[simp] theorem Block.motorCommit_fit (b : Block) (at_ : Nat) :
    (Block.motorCommit b at_).fit = b.fit := by
  simp [Block.motorCommit]

@[simp] theorem Block.motorFreeze_fit (b : Block) (at_ : Nat) :
    (Block.motorFreeze b at_).fit = b.fit := by
  simp [Block.motorFreeze]

@[simp] theorem Block.motorThaw_fit (b : Block) :
    (Block.motorThaw b).fit = b.fit := by
  simp [Block.motorThaw]

@[simp] theorem Block.modLoops_fit (b : Block) (f : Loops → Loops)
    (h : (f b.eng.loop).slots.length = b.eng.loop.slots.length) : (b.modLoops f).fit = b.fit := by
  simp [Block.modLoops, h]

@[simp] theorem Block.modSlot_fit (b : Block) (s : Nat) (f : LoopSlot → LoopSlot) :
    (Block.modSlot b s f).fit = b.fit := by
  simp [Block.modSlot]

@[simp] theorem Block.loopWrite_fit (b : Block) (s : Nat) (u : Word) (at_ : Nat) :
    (Block.loopWrite b s u at_).fit = b.fit := by
  simp [Block.loopWrite]

@[simp] theorem Block.loopFault_fit (b : Block) (s : Nat) (bit : Nat) (at_ : Nat) (cause : Cause) :
    (Block.loopFault b s bit at_ cause).fit = b.fit := by
  simp [Block.loopFault]

@[simp] theorem Block.loopEcc_fit (b : Block) (slots : List Nat) :
    (Block.loopEcc b slots).fit = b.fit := by
  simp [Block.loopEcc]

@[simp] theorem Block.lossAct_fit (b : Block) (s : Nat) (at_ : Nat) :
    (Block.lossAct b s at_).fit = b.fit := by
  unfold Block.lossAct
  (repeat' split) <;> simp

@[simp] theorem Block.loopFb_fit (b : Block) (s : Nat) (m : LoopFb) (at_ : Nat) :
    (Block.loopFb b s m at_).fit = b.fit := by
  simp [Block.loopFb]

@[simp] theorem Block.testFb_fit (b : Block) (s : Nat) (y : Qty) (at_ : Nat) :
    (Block.testFb b s y at_).fit = b.fit := by
  unfold Block.testFb
  dsimp only
  (repeat' split) <;> simp

@[simp] theorem Block.followRun_fit (b : Block) (s : Nat) (err : Word) :
    (Block.followRun b s err).fit = b.fit := by
  simp [Block.followRun]

@[simp] theorem Block.control_fit (b : Block) (s : Nat) (y : Qty) (ySensor : Qty) (changed : Bool) (at_ : Nat) :
    (Block.control b s y ySensor changed at_).fit = b.fit := by
  simp [Block.control]

@[simp] theorem Block.lostRun_fit (b : Block) (s : Nat) (ySensor : Qty) (at_ : Nat) :
    (Block.lostRun b s ySensor at_).fit = b.fit := by
  simp [Block.lostRun]

@[simp] theorem Block.runPid_fit (b : Block) (s : Nat) (at_ : Nat) :
    (Block.runPid b s at_).fit = b.fit := by
  unfold Block.runPid
  dsimp only
  (repeat' split) <;> simp

@[simp] theorem Block.observe_fit (b : Block) (q : Nat) :
    (Block.observe b q).fit = b.fit := by
  simp [Block.observe]

@[simp] theorem Block.runSlot_fit (b : Block) (s : Nat) (ns : Nat) :
    (Block.runSlot b s ns).2.fit = b.fit := by
  simp [Block.runSlot]

@[simp] theorem runSlots_fit (l : List Nat) (r : Nat × Block) :
    (l.foldl (fun acc s => acc.2.runSlot s acc.1) r).2.fit = r.2.fit := by
  induction l generalizing r with
  | nil => rfl
  | cons x l ih => simp [List.foldl_cons, ih]
@[simp] theorem Block.loopPhaseRun_fit (b : Block) (ticks : Nat) (limit : Option Nat) :
    (b.loopPhaseRun ticks limit).fit = b.fit := by
  simp [Block.loopPhaseRun]

@[simp] theorem Block.loopUnitChange_fit (b : Block) (s : Nat) (old : UnitState) (new : UnitState) (at_ : Nat) :
    (Block.loopUnitChange b s old new at_).fit = b.fit := by
  simp [Block.loopUnitChange]

@[simp] theorem Block.loopsAfresh_fit (b : Block) :
    (Block.loopsAfresh b).fit = b.fit := by
  simp [Block.loopsAfresh]

@[simp] theorem Block.modTrace_fit (b : Block) (f : Trace → Trace) :
    (Block.modTrace b f).fit = b.fit := by
  simp [Block.modTrace]

@[simp] theorem Block.traceDone_fit (b : Block) :
    (Block.traceDone b).fit = b.fit := by
  unfold Block.traceDone
  dsimp only
  (repeat' split) <;> simp

@[simp] theorem Block.traceTick_fit (b : Block) :
    (Block.traceTick b).fit = b.fit := by
  simp [Block.traceTick]

@[simp] theorem dispatchTrace_fit (h : Hdr) (d : Dispatch) (k : Sess) (n m : Nat) (b : Block)
    (hd : ∀ k n m c, (d k n m c).fit = c.fit) : (dispatchTrace h d k n m b).fit = b.fit := by
  unfold dispatchTrace
  split <;> simp [hd]

@[simp] theorem dispatchTraceRelease_fit (h : Hdr) (y0 : Sess) (y02 : Nat)
    (y03 : Nat) (y04 : Block) :
    (dispatchTraceRelease h y0 y02 y03 y04).fit = y04.fit := by
  simp [dispatchTraceRelease]

@[simp] theorem dispatchTraceArm_fit (h : Hdr) (arm : TraceArm) (y0 : Sess)
    (y03 : Nat) (y04 : Nat) (y05 : Block) :
    (dispatchTraceArm h arm y0 y03 y04 y05).fit = y05.fit := by
  simp [dispatchTraceArm]

@[simp] theorem dispatchTraceForce_fit (h : Hdr) (y0 : Sess) (y02 : Nat)
    (y03 : Nat) (y04 : Block) :
    (dispatchTraceForce h y0 y02 y03 y04).fit = y04.fit := by
  simp [dispatchTraceForce]

@[simp] theorem dispatchTraceRead_fit (h : Hdr) (first : BitVec 16) (count : Byte) (y0 : Sess)
    (y04 : Nat) (y05 : Nat) (y06 : Block) :
    (dispatchTraceRead h first count y0 y04 y05 y06).fit = y06.fit := by
  simp [dispatchTraceRead]

@[simp] theorem Block.traceLoss_fit (b : Block) (k : Sess) :
    (Block.traceLoss b k).fit = b.fit := by
  unfold Block.traceLoss
  (repeat' split) <;> simp

@[simp] theorem Block.traceEcc_fit (b : Block) :
    (Block.traceEcc b).fit = b.fit := by
  simp [Block.traceEcc]

@[simp] theorem Block.fillCheck_fit (b : Block) (at_ : Nat) :
    (Block.fillCheck b at_).fit = b.fit := by
  simp [Block.fillCheck]

@[simp] theorem Block.emberWrite_fit (b : Block) (failCode : Byte) (p : Payload) (src : Nat) (code : Byte)
    (readBack : List Bool) :
    (Block.emberWrite b failCode p src code readBack).fit = b.fit := by
  simp [Block.emberWrite]

@[simp] theorem Block.diaryFail_fit (b : Block) (r : Option DiaryRec) (offset : Nat) (readBack : List Bool)
    (at_ : Nat) :
    (Block.diaryFail b r offset readBack at_).fit = b.fit := by
  simp [Block.diaryFail]

@[simp] theorem Block.mramFail_fit (b : Block) (offset : Nat) (at_ : Nat) :
    (Block.mramFail b offset at_).fit = b.fit := by
  simp [Block.mramFail]

@[simp] theorem Block.ringWrite_fit (r : DiaryRec) (fuel : Nat) (rb : List Bool) (b : Block) :
    (Block.ringWrite r fuel rb b).2.fit = b.fit := by
  induction fuel generalizing rb b with
  | zero => rfl
  | succ k ih =>
    simp only [Block.ringWrite]
    (repeat' split) <;> simp [ih]

@[simp] theorem Block.admitLost_fit (b : Block) (at_ : Nat) :
    (Block.admitLost b at_).fit = b.fit := by
  simp [Block.admitLost]

@[simp] theorem Block.stageHead_fit (b : Block) (at_ : Nat) :
    (Block.stageHead b at_).fit = b.fit := by
  unfold Block.stageHead
  (repeat' split) <;> simp

@[simp] theorem Block.thaw_fit (b : Block) (cause : Option Nat) (at_ : Nat) :
    (Block.thaw b cause at_).fit = b.fit := by
  unfold Block.thaw
  (repeat' split) <;> simp

@[simp] theorem Block.writeRecord_fit (b : Block) (readBack : List Bool) (writable : Bool) (at_ : Nat) :
    (b.writeRecord readBack writable at_).fit = b.fit := by
  have key : ∀ (r : DiaryRec) (c : Block) (o : Wrote) (b2 : Block), Block.ringWrite r 4 readBack c = (o, b2) →
      b2.fit = c.fit := by
    intro r c o b2 h
    rw [← Block.ringWrite_fit r 4 readBack c, h]
  unfold Block.writeRecord
  dsimp only
  (repeat' split) <;> first | (simp; done) | (have h := key _ _ _ _ ‹_›; simp [h])

@[simp] theorem Block.flushDiary_fit (at_ fuel : Nat) (b : Block) : (Block.flushDiary at_ fuel b).fit = b.fit := by
  induction fuel generalizing b with
  | zero => rfl
  | succ k ih => simp only [Block.flushDiary]; split <;> simp [ih]

@[simp] theorem Block.firstSeq_fit (b : Block) (l : List DiaryRec) :
    (Block.firstSeq b l).2.fit = b.fit := by
  unfold Block.firstSeq
  dsimp only
  (repeat' split) <;> simp

@[simp] theorem dispatchFreeze_fit (h : Hdr) (timeout : BitVec 16) (y0 : Sess)
    (y03 : Nat) (y04 : Nat) (y05 : Block) :
    (dispatchFreeze h timeout y0 y03 y04 y05).fit = y05.fit := by
  simp [dispatchFreeze]

@[simp] theorem dispatchThaw_fit (h : Hdr) (y0 : Sess) (y02 : Nat)
    (y03 : Nat) (y04 : Block) :
    (dispatchThaw h y0 y02 y03 y04).fit = y04.fit := by
  unfold dispatchThaw
  (repeat' split) <;> simp

@[simp] theorem dispatchDiaryRead_fit (h : Hdr) (first : Word) (count : Byte) (flags : Byte)
    (y0 : Sess) (y05 : Nat) (y06 : Nat) (y07 : Block) :
    (dispatchDiaryRead h first count flags y0 y05 y06 y07).fit = y07.fit := by
  simp [dispatchDiaryRead]

@[simp] theorem dispatchMark_fit (h : Hdr) (code : Byte) (payload : BitVec 128) (y0 : Sess)
    (y04 : Nat) (y05 : Nat) (y06 : Block) :
    (dispatchMark h code payload y0 y04 y05 y06).fit = y06.fit := by
  simp [dispatchMark]

@[simp] theorem Block.saveDrained_fit (b : Block) (at_ : Nat) :
    (Block.saveDrained b at_).fit = b.fit := by
  simp [Block.saveDrained]

theorem Block.drainTo_fit (b : Block) (v : Word) (at_ : Nat) : ((b.drainTo v at_).getD b).fit = b.fit := by
  unfold Block.drainTo
  dsimp only
  (repeat' split) <;> simp

@[simp] theorem Block.shedOne_fit (b : Block) (k : Nat) (at_ : Nat) :
    (Block.shedOne b k at_).fit = b.fit := by
  simp [Block.shedOne]

@[simp] theorem Block.shedUntil_fit (limit : Int) (at_ : Nat) (l : List Nat) (a : Arb) (b : Block) :
    (Block.shedUntil limit at_ l a b).2.fit = b.fit := by
  induction l generalizing a b with
  | nil => rfl
  | cons x l ih => simp only [Block.shedUntil]; (repeat' split) <;> simp [ih]

@[simp] theorem Block.shedToFit_fit (b : Block) (total : Int) (at_ : Nat) :
    (b.shedToFit total at_).2.2.fit = b.fit := by
  simp only [Block.shedToFit]
  (repeat' split) <;> simp_all

@[simp] theorem Block.admitStart_fit (k : Nat) (at_ : Nat) (a : Arb) (b : Block) :
    (Block.admitStart k at_ a b).2.fit = b.fit := by
  simp [Block.admitStart]

@[simp] theorem Block.serveRestore_fit (limit : Int) (at_ : Nat) (r : Arb × Block) (k : Nat) :
    (Block.serveRestore limit at_ r k).2.fit = r.2.fit := by
  simp only [Block.serveRestore]
  split <;> simp


@[simp] theorem Block.serveStart_fit (limit : Int) (at_ : Nat) (r : Arb × Block) (k : Nat) :
    (Block.serveStart limit at_ r k).2.fit = r.2.fit := by
  simp only [Block.serveStart]
  (repeat' split) <;> simp


@[simp] theorem Block.serve_fit (limit : Int) (at_ : Nat) (r : Arb × Block) (k : Nat) :
    (Block.serve limit at_ r k).2.fit = r.2.fit := by
  unfold Block.serve
  split <;> simp


@[simp] theorem Block.serveCap_fit (limit : Int) (r : Arb × Block) :
    (Block.serveCap limit r).2.fit = r.2.fit := by
  simp only [Block.serveCap]
  split <;> simp


@[simp] theorem Block.lswQueued_fit (b : Block) (k : Nat) :
    (Block.lswQueued b k).fit = b.fit := by
  simp [Block.lswQueued]

@[simp] theorem Block.trackRestores_fit (b : Block) (head : Int) (bare : Int) (now : Nat) :
    (Block.trackRestores b head bare now).fit = b.fit := by
  simp [Block.trackRestores]

@[simp] theorem Block.modReserved_fit (b : Block) (r : Reserve) (f : Eve → Eve) :
    (Block.modReserved b r f).fit = b.fit := by
  simp [Block.modReserved]

@[simp] theorem Block.renewWants_fit (b : Block) (n : Nat) :
    (Block.renewWants b n).fit = b.fit := by
  unfold Block.renewWants
  (repeat' split) <;> simp

@[simp] theorem Block.project_fit (now edge free : Nat) (firm : List (Nat × Nat)) (r : List Pulled × Block)
    (q : Reserve) : (Block.project now edge free firm r q).2.fit = r.2.fit := by
  simp only [Block.project]
  (repeat' split) <;> simp

@[simp] theorem Block.offSlots_fit (b : Block) (edge : Nat) (n : Nat) :
    (Block.offSlots b edge n).fit = b.fit := by
  simp [Block.offSlots]

@[simp] theorem projects_fit (now edge free : Nat) (firm : List (Nat × Nat)) (l : List Reserve)
    (r : List Pulled × Block) : (l.foldl (Block.project now edge free firm) r).2.fit = r.2.fit := by
  induction l generalizing r with
  | nil => rfl
  | cons x l ih => simp [List.foldl_cons, ih]
@[simp] theorem Block.projectAll_fit (b : Block) (at_ : Nat) : (b.projectAll at_).fit = b.fit := by
  unfold Block.projectAll
  dsimp only
  split <;> simp

@[simp] theorem Block.trackEnergy_fit (b : Block) (now : Nat) :
    (Block.trackEnergy b now).fit = b.fit := by
  simp [Block.trackEnergy]

@[simp] theorem serves_fit (limit : Int) (at_ : Nat) (l : List Nat) (r : Arb × Block) :
    (l.foldl (Block.serve limit at_) r).2.fit = r.2.fit := by
  induction l generalizing r with
  | nil => rfl
  | cons x l ih => simp [List.foldl_cons, ih]
@[simp] theorem Block.arbiter_fit (b : Block) (at_ : Nat) : (b.arbiter at_).fit = b.fit := by
  unfold Block.arbiter
  dsimp only
  simp only [Block.projectAll_fit, Block.trackEnergy_fit, Block.modPwr_fit, Block.trackRestores_fit,
    Block.raiseItems_fit, serves_fit]
  split <;> simp


@[simp] theorem Block.modSup_fit (b : Block) (f : Supply → Supply) :
    (Block.modSup b f).fit = b.fit := by
  simp [Block.modSup]

@[simp] theorem Block.modInput_fit (b : Block) (i : VpwrInput) (f : Input → Input) :
    (Block.modInput b i f).fit = b.fit := by
  unfold Block.modInput
  (repeat' split) <;> simp

@[simp] theorem Block.inputLost_fit (b : Block) (i : VpwrInput) (mv : Nat) :
    (Block.inputLost b i mv).fit = b.fit := by
  simp [Block.inputLost]

@[simp] theorem Block.inputPresent_fit (b : Block) (i : VpwrInput) (mv : Nat) :
    (Block.inputPresent b i mv).fit = b.fit := by
  simp [Block.inputPresent]

@[simp] theorem Block.supplyResume_fit (b : Block) (at_ : Nat) :
    (Block.supplyResume b at_).fit = b.fit := by
  simp [Block.supplyResume]

@[simp] theorem Block.chooseState_fit (b : Block) (at_ : Nat) :
    (Block.chooseState b at_).fit = b.fit := by
  simp [Block.chooseState]

@[simp] theorem Block.powerDown_fit (b : Block) (s : PState) (at_ : Nat) :
    (Block.powerDown b s at_).fit = b.fit := by
  simp [Block.powerDown]

@[simp] theorem Block.leaveHold_fit (b : Block) (heldTicks : Nat) :
    (Block.leaveHold b heldTicks).fit = b.fit := by
  simp [Block.leaveHold]

@[simp] theorem Block.wake_fit (b : Block) (c : WakeCause) (heldTicks : Nat) :
    (Block.wake b c heldTicks).fit = b.fit := by
  simp [Block.wake]

@[simp] theorem dispatchPolicy_fit (h : Hdr) (p : PowerPolicy) (i : Instr) (y0 : Sess)
    (y04 : Nat) (y05 : Nat) (y06 : Block) :
    (dispatchPolicy h p i y0 y04 y05 y06).fit = y06.fit := by
  simp [dispatchPolicy]

@[simp] theorem Block.policyApply_fit (b : Block) (k : Sess) (p : PowerPolicy) :
    (Block.policyApply b k p).fit = b.fit := by
  simp [Block.policyApply]

@[simp] theorem Block.modVig_fit (b : Block) (f : Vigil → Vigil)
    (h : absentMask (f b.vig).units = absentMask b.vig.units) : (b.modVig f).fit = b.fit := by
  simp [Block.modVig, h]

@[simp] theorem Block.renewChallenge_fit (b : Block) :
    (Block.renewChallenge b).fit = b.fit := by
  simp [Block.renewChallenge]

@[simp] theorem Block.dbgResume_fit (b : Block) (at_ : Nat) :
    (Block.dbgResume b at_).fit = b.fit := by
  simp [Block.dbgResume]

@[simp] theorem Block.dbgLock_fit (b : Block) (at_ : Nat) :
    (Block.dbgLock b at_).fit = b.fit := by
  simp [Block.dbgLock]

@[simp] theorem Block.dbgUnlock_fit (b : Block) (at_ : Nat) :
    (Block.dbgUnlock b at_).fit = b.fit := by
  simp [Block.dbgUnlock]

@[simp] theorem Block.modLink_fit (b : Block) (f : Link → Link)
    (h : (f b.link).queues.length = b.link.queues.length) : (b.modLink f).fit = b.fit := by
  simp [Block.modLink, h]

theorem queued_state (s : ReqSource) (e : UnitEntry) :
    (if e.queued = some s then { e with queued := none } else e : UnitEntry).state = e.state := by
  split <;> rfl
@[simp] theorem Block.withdraw_fit (b : Block) (k : Sess) (ended : Bool) : (b.withdraw k ended).fit = b.fit := by
  unfold Block.withdraw
  dsimp only
  rw [Block.modSess_fit, fit_mk, absentMask_map _ _ (queued_state _)]
  simp [Block.modLink]

@[simp] theorem Block.postLoss_fit (b : Block) (k : Sess) (ended : Bool) (at_ : Nat) :
    (b.postLoss k ended at_).fit = b.fit := by
  refine (fit_foldl _ _ _ (fun acc x => ?_)).trans (by simp [Block.modLink])
  (repeat' split) <;> simp

@[simp] theorem Block.sessionThaw_fit (b : Block) (k : Sess) (at_ : Nat) :
    (Block.sessionThaw b k at_).fit = b.fit := by
  unfold Block.sessionThaw
  (repeat' split) <;> simp

@[simp] theorem Block.endSession_fit (b : Block) (k : Sess) (cause : SessEnd) (at_ : Nat) :
    (Block.endSession b k cause at_).fit = b.fit := by
  simp [Block.endSession]

theorem Block.arriveFree_fit (b : Block) (i : Instr) (h : Hdr) (op : OpRow) (d : FreeDispatch)
    (hd : ∀ n c, (d n c).fit = c.fit) : (b.arriveFree i h op d).fit = b.fit := by
  unfold Block.arriveFree
  dsimp only
  (repeat' split) <;> simp [hd]

@[simp] theorem dispatchNop_fit (h : Hdr) (payload : Bytes) (y0 : Sess) (y03 : Nat)
    (y04 : Nat) (y05 : Block) :
    (dispatchNop h payload y0 y03 y04 y05).fit = y05.fit := by
  simp [dispatchNop]

@[simp] theorem dispatchIdentify_fit (h : Hdr) (k : Option Sess) (arrived : Nat) (b : Block) :
    (dispatchIdentify h k arrived b).fit = b.fit := by
  simp [dispatchIdentify]

@[simp] theorem Block.authFail_fit (b : Block) (h : Hdr) :
    (Block.authFail b h).fit = b.fit := by
  simp [Block.authFail]

@[simp] theorem Block.noteFail_fit (b : Block) (addr : BitVec 128) (now : Nat) :
    (Block.noteFail b addr now).fit = b.fit := by
  simp [Block.noteFail]

@[simp] theorem Block.nonce_fit (n : Nat) (b : Block) : (Block.nonce n b).2.fit = b.fit := by
  induction n generalizing b with
  | zero => rfl
  | succ k ih => simp [Block.nonce, ih]

@[simp] theorem Block.newId_fit (b : Block) (k : Sess) :
    (Block.newId b k).2.fit = b.fit := by
  simp [Block.newId]

@[simp] theorem dispatchHello_fit (h : Hdr) (kind : Byte) (nonce : BitVec 128) (y0 : Nat)
    (y04 : Block) :
    (dispatchHello h kind nonce y0 y04).fit = y04.fit := by
  unfold dispatchHello
  dsimp only
  (repeat' split) <;> simp

@[simp] theorem dispatchProof_fit (h : Hdr) (kind : Byte) (proof : BitVec 256) (y0 : Nat)
    (y04 : Block) :
    (dispatchProof h kind proof y0 y04).fit = y04.fit := by
  unfold dispatchProof
  (repeat' split) <;> simp

@[simp] theorem Block.proofAgain_fit (b : Block) (k : Sess) (h : Hdr) :
    (Block.proofAgain b k h).fit = b.fit := by
  unfold Block.proofAgain
  (repeat' split) <;> simp

@[simp] theorem dispatchSessionClose_fit (h : Hdr) (y0 : Sess) (y02 : Nat)
    (y03 : Nat) (y04 : Block) :
    (dispatchSessionClose h y0 y02 y03 y04).fit = y04.fit := by
  simp [dispatchSessionClose]

@[simp] theorem dispatchSessionReset_fit (h : Hdr) (y0 : Sess) (y02 : Nat)
    (y03 : Nat) (y04 : Block) :
    (dispatchSessionReset h y0 y02 y03 y04).fit = y04.fit := by
  simp [dispatchSessionReset]

@[simp] theorem dispatchDeviceReset_fit (h : Hdr) (confirm : BitVec 16) (y0 : Sess)
    (y03 : Nat) (y04 : Nat) (y05 : Block) :
    (dispatchDeviceReset h confirm y0 y03 y04 y05).fit = y05.fit := by
  simp [dispatchDeviceReset]

@[simp] theorem dispatchFence_fit (h : Hdr) (ends : Until) (y0 : Sess) (y03 : Nat)
    (y04 : Nat) (y05 : Block) :
    (dispatchFence h ends y0 y03 y04 y05).fit = y05.fit := by
  simp [dispatchFence]

@[simp] theorem dispatchFenceDma_fit (h : Hdr) (y0 : Sess) (y02 : Nat)
    (y03 : Nat) (y04 : Block) :
    (dispatchFenceDma h y0 y02 y03 y04).fit = y04.fit := by
  simp [dispatchFenceDma]

@[simp] theorem Block.fillFences_fit (b : Block) :
    (Block.fillFences b).fit = b.fit := by
  simp [Block.fillFences]

@[simp] theorem Block.fencesTake_fit (b : Block) (sess : Option Sess) (seq : Nat) (opened : List Nat) :
    (Block.fencesTake b sess seq opened).fit = b.fit := by
  simp [Block.fencesTake]

@[simp] theorem dispatchReserved_fit (h : Hdr) (q : Kinded) (y0 : Sess) (y03 : Nat)
    (y04 : Nat) (y05 : Block) :
    (dispatchReserved h q y0 y03 y04 y05).fit = y05.fit := by
  simp [dispatchReserved]

@[simp] theorem Block.modPort__fit (b : Block) (p : EthPort) (f : Port → Port) :
    (Block.modPort_ b p f).fit = b.fit := by
  unfold Block.modPort_
  (repeat' split) <;> simp

@[simp] theorem Block.linkDown_fit (b : Block) (p : EthPort) (at_ : Nat) :
    (Block.linkDown b p at_).fit = b.fit := by
  unfold Block.linkDown
  (repeat' split) <;> simp

@[simp] theorem Block.unitChange_fit (b : Block) (u : Nat) (old : UnitState) (new : UnitState) (at_ : Nat) :
    (Block.unitChange b u old new at_).fit = b.fit := by
  unfold Block.unitChange
  (repeat' split) <;> simp

@[simp] theorem Block.grant_fit (b : Block) (u : Nat) (r : UnitReq) (byMgmt : Bool) (lost : Bool) (at_ : Nat) :
    (Block.grant b u r byMgmt lost at_).fit = b.fit := by
  simp [Block.grant]

@[simp] theorem Block.decide_fit (b : Block) (d : Decision) (u : Nat) (at_ : Nat) :
    (Block.decide b d u at_).2.fit = b.fit := by
  unfold Block.decide
  dsimp only
  (repeat' split) <;> simp

@[simp] theorem Block.raiseOverruled_fit (b : Block) (units : List Nat) (at_ : Nat) :
    (Block.raiseOverruled b units at_).fit = b.fit := by
  simp [Block.raiseOverruled]

theorem decides_fit (l : List Nat) (at_ : Nat) (r : Decision × Block) :
    (l.foldl (fun (acc : Decision × Block) u => acc.2.decide acc.1 u at_) r).2.fit = r.2.fit := by
  induction l generalizing r with
  | nil => rfl
  | cons x l ih => rw [List.foldl_cons, ih, Block.decide_fit]
theorem Block.decideUnits_fit (b : Block) (at_ : Nat) : (b.decideUnits at_).2.fit = b.fit := by
  unfold Block.decideUnits
  exact decides_fit allUnits at_ ({}, b)

theorem unitsDecided_fit (at_ : Nat) (r : Decision × Block) : (unitsDecided at_ r).fit = r.2.fit := by
  rw [unitsDecided, Block.raiseOverruled_fit, Block.count_fit, Block.count_fit, Block.modVig_fit _ _ rfl]

@[simp] theorem Block.unitsCommit_fit (b : Block) (at_ : Nat) : (b.unitsCommit at_).fit = b.fit := by
  rw [Block.unitsCommit, unitsDecided_fit, Block.decideUnits_fit]

@[simp] theorem Block.publishUnits_fit (b : Block) :
    (Block.publishUnits b).fit = b.fit := by
  simp [Block.publishUnits]

theorem safeUnit_fit (c : Cause) (at_ : Nat) (acc : Block) (u : Nat) :
    (let e := acc.unit u
     if e.state = .absent then acc
     else
      let acc1 := acc.setUnit u (fun e => { e with
        state := .faulted, cause := c, mgmtFence := false, queued := none })
      let acc2 := if e.state = .faulted then acc1 else acc1.unitChange u e.state .faulted at_
      if unitClass u = .boost then acc2.boostSafe (u - 200) at_ else acc2).fit = acc.fit := by
  dsimp only
  (repeat' split) <;> simp
@[simp] theorem Block.safeState_fit (b : Block) (c : Cause) (code flag : Nat) (at_ : Nat) :
    (b.safeState c code flag at_).fit = b.fit := by
  unfold Block.safeState
  dsimp only
  rw [Block.raise_fit, Block.publishUnits_fit, Block.count_fit, Block.setFld_fit, Block.latch_fit,
    Block.modVig_fit _ _ rfl, Block.modAlm_fit _ _ (by simp), Block.motorsBrake_fit,
    fit_foldl _ _ _ (fun acc x => by simp)]
  exact fit_foldl _ _ _ (fun acc x => safeUnit_fit c at_ acc x)


@[simp] theorem Block.modCan_fit (b : Block) (f : Can → Can) :
    (Block.modCan b f).fit = b.fit := by
  simp [Block.modCan]

@[simp] theorem Block.canPut_fit (b : Block) (m : CanMsg) :
    (Block.canPut b m).fit = b.fit := by
  simp [Block.canPut]

@[simp] theorem Block.canSend_fit (b : Block) (pgn : Nat) (dst : Byte) (data : Bytes) :
    (Block.canSend b pgn dst data).fit = b.fit := by
  simp [Block.canSend]

@[simp] theorem Block.sendClaim_fit (b : Block) :
    (Block.sendClaim b).fit = b.fit := by
  simp [Block.sendClaim]

@[simp] theorem Block.claimFrom_fit (b : Block) (a : Nat) :
    (Block.claimFrom b a).fit = b.fit := by
  unfold Block.claimFrom
  (repeat' split) <;> simp

@[simp] theorem Block.canAck_fit (b : Block) (good : Bool) (function : Byte) (source : Byte) :
    (Block.canAck b good function source).fit = b.fit := by
  simp [Block.canAck]

@[simp] theorem Block.sendStatus_fit (b : Block) :
    (Block.sendStatus b).fit = b.fit := by
  simp [Block.sendStatus]

@[simp] theorem Block.sendDm1_fit (b : Block) :
    (Block.sendDm1 b).fit = b.fit := by
  simp [Block.sendDm1]

@[simp] theorem Block.sendCm_fit (b : Block) (ext : Bool) (dst : Byte) (head : Bytes) (pgn : Nat) :
    (Block.sendCm b ext dst head pgn).fit = b.fit := by
  simp [Block.sendCm]

@[simp] theorem Block.sendCts_fit (b : Block) (t : Transfer) :
    (Block.sendCts b t).fit = b.fit := by
  simp [Block.sendCts]

@[simp] theorem Block.tpCleared_fit (b : Block) (source : Byte) (pgn : Nat) (n : Nat) (from_ : Nat) :
    (Block.tpCleared b source pgn n from_).fit = b.fit := by
  unfold Block.tpCleared
  (repeat' split) <;> simp

@[simp] theorem Block.tpEnds_fit (b : Block) (source : Byte) :
    (Block.tpEnds b source).fit = b.fit := by
  simp [Block.tpEnds]

@[simp] theorem Block.cmFrame_fit (b : Block) (source : Byte) (dest : Byte) (ext : Bool) (d : BitVec 64) :
    (Block.cmFrame b source dest ext d).fit = b.fit := by
  unfold Block.cmFrame
  (repeat' split) <;> simp

@[simp] theorem Block.dtFrame_fit (b : Block) (source : Byte) (dest : Byte) (ext : Bool) (d : BitVec 64) :
    (Block.dtFrame b source dest ext d).fit = b.fit := by
  unfold Block.dtFrame
  (repeat' split) <;> simp

-- published: a view, not a state

@[simp] theorem Block.modUpd_fit (b : Block) (f : Update → Update) :
    (Block.modUpd b f).fit = b.fit := by
  simp [Block.modUpd]

@[simp] theorem Block.storeKey_fit (b : Block) (k : Sess) (key : Bytes) :
    (Block.storeKey b k key).fit = b.fit := by
  unfold Block.storeKey
  (repeat' split) <;> simp

@[simp] theorem Block.loadWord_fit (b : Block) (a : Nat) (w : Word) :
    (Block.loadWord b a w).fit = b.fit := by
  unfold Block.loadWord
  (repeat' split) <;> simp

@[simp] theorem Block.saveStart_fit (b : Block) (at_ : Nat) :
    (Block.saveStart b at_).fit = b.fit := by
  simp [Block.saveStart]

@[simp] theorem Block.saveTake_fit (b : Block) (at_ : Nat) :
    (Block.saveTake b at_).fit = b.fit := by
  unfold Block.saveTake
  (repeat' split) <;> simp

@[simp] theorem Block.saveFail_fit (b : Block) (code : Byte) (generation : Nat) (at_ : Nat) :
    (Block.saveFail b code generation at_).fit = b.fit := by
  simp [Block.saveFail]

@[simp] theorem Block.latchHi_fit (b : Block) (k : Sess) (now : Nat) (r : Reg) (i : Nat) :
    (Block.latchHi b k now r i).fit = b.fit := by
  unfold Block.latchHi
  (repeat' split) <;> simp

@[simp] theorem Block.clearRc_fit (b : Block) (r : Reg) (i : Nat) (j : Nat) :
    (Block.clearRc b r i j).fit = b.fit := by
  simp [Block.clearRc]

@[simp] theorem Block.readReg_fit (b : Block) (k : Sess) (now : Nat) (r : Reg) (i : Nat) (j : Nat) :
    (Block.readReg b k now r i j).2.fit = b.fit := by
  unfold Block.readReg
  dsimp only
  (repeat' split) <;> simp

@[simp] theorem Block.readWords_fit (b : Block) (k : Sess) (now n a : Nat) :
    (b.readWords k now n a).2.fit = b.fit := by
  induction n generalizing a b with
  | zero => rfl
  | succ n ih => simp only [Block.readWords]; split <;> simp [ih]

@[simp] theorem dispatchRead_fit (h : Hdr) (op : BitVec 16) (address : Word) (n : Nat) (y0 : Sess)
    (y05 : Nat) (y06 : Nat) (y07 : Block) :
    (dispatchRead h op address n y0 y05 y06 y07).fit = y07.fit := by
  unfold dispatchRead
  dsimp only
  (repeat' split) <;> simp

@[simp] theorem dispatchReadBlock_fit (h : Hdr) (address : Word) (count : BitVec 16) (y0 : Sess)
    (y04 : Nat) (y05 : Nat) (y06 : Block) :
    (dispatchReadBlock h address count y0 y04 y05 y06).fit = y06.fit := by
  simp [dispatchReadBlock]

@[simp] theorem Block.store_fit (b : Block) (k : Sess) (r : Reg) (i : Nat) (j : Nat) (v : Word) :
    (Block.store b k r i j v).fit = b.fit := by
  simp [Block.store]

@[simp] theorem Block.clearPend_fit (b : Block) (w : Nat) (v : Word) :
    (Block.clearPend b w v).fit = b.fit := by
  simp [Block.clearPend]

@[simp] theorem Block.releaseHolds_fit (b : Block) (v : Word) (at_ : Nat) :
    (Block.releaseHolds b v at_).fit = b.fit := by
  simp [Block.releaseHolds]

@[simp] theorem Block.applyDirect_fit (b : Block) (k : Sess) (r : Reg) (i j : Nat) (v : Word) (at_ : Nat) :
    (b.applyDirect k r i j v at_).fit = b.fit := by
  unfold Block.applyDirect
  split <;> simp [Block.drainTo_fit]

@[simp] theorem Block.applyCommit_fit (b : Block) (k : Sess) (r : Reg) (i : Nat) (j : Nat) (v : Word) (at_ : Nat) :
    (Block.applyCommit b k r i j v at_).fit = b.fit := by
  unfold Block.applyCommit
  (repeat' split) <;> simp

@[simp] theorem Block.postReq_fit (b : Block) (k : Sess) (u : Nat) (v : Word) :
    (Block.postReq b k u v).fit = b.fit := by
  unfold Block.postReq
  (repeat' split) <;> simp

@[simp] theorem Block.applyWrite_fit (b : Block) (k : Sess) (seq : Nat) (arrived : Nat) (a : Nat) (v : Word) :
    (Block.applyWrite b k seq arrived a v).fit = b.fit := by
  unfold Block.applyWrite
  (repeat' split) <;> simp

@[simp] theorem Block.restart_fit (b : Block) (a : Nat) :
    (Block.restart b a).fit = b.fit := by
  simp [Block.restart]

@[simp] theorem Block.preset_fit (b : Block) (a : Nat) (v : Word) :
    (Block.preset b a v).fit = b.fit := by
  simp [Block.preset]

@[simp] theorem Block.applyRws_fit (b : Block) (k : Sess) (r : Reg) (i : Nat) (j : Nat) (v : Word) (at_ : Nat) :
    (Block.applyRws b k r i j v at_).fit = b.fit := by
  unfold Block.applyRws
  (repeat' split) <;> simp

@[simp] theorem Block.applyStaged_fit (b : Block) (k : Sess) (a : Nat) (v : Word) (at_ : Nat) :
    (Block.applyStaged b k a v at_).fit = b.fit := by
  unfold Block.applyStaged
  (repeat' split) <;> simp

@[simp] theorem Block.modTxn_fit (b : Block) (k : Sess) (f : Txn → Txn) :
    (Block.modTxn b k f).fit = b.fit := by
  simp [Block.modTxn]

@[simp] theorem Block.writeNow_fit (b : Block) (h : Hdr) (op : BitVec 16) (k : Sess) (seq : Nat) (arrived : Nat)
    (ws : List (Nat × Word)) (payload : Bytes) :
    (Block.writeNow b h op k seq arrived ws payload).fit = b.fit := by
  simp [Block.writeNow]

@[simp] theorem Block.writeWords_fit (b : Block) (h : Hdr) (op : BitVec 16) (k : Sess) (seq : Nat)
    (arrived : Nat) (ws : List (Nat × Word)) (payload : Bytes) :
    (Block.writeWords b h op k seq arrived ws payload).fit = b.fit := by
  unfold Block.writeWords
  dsimp only
  (repeat' split) <;> simp

@[simp] theorem dispatchWrite_fit (h : Hdr) (address : Word) (value : Word) (y0 : Sess)
    (y04 : Nat) (y05 : Nat) (y06 : Block) :
    (dispatchWrite h address value y0 y04 y05 y06).fit = y06.fit := by
  simp [dispatchWrite]

@[simp] theorem dispatchWriteBlock_fit (h : Hdr) (address : Word) (values : List Word) (y0 : Sess)
    (y04 : Nat) (y05 : Nat) (y06 : Block) :
    (dispatchWriteBlock h address values y0 y04 y05 y06).fit = y06.fit := by
  simp [dispatchWriteBlock]

@[simp] theorem dispatchModify_fit (h : Hdr) (address : Word) (mask : Word) (value : Word)
    (y0 : Sess) (y05 : Nat) (y06 : Nat) (y07 : Block) :
    (dispatchModify h address mask value y0 y05 y06 y07).fit = y07.fit := by
  unfold dispatchModify
  dsimp only
  (repeat' split) <;> simp

@[simp] theorem dispatchTxnBegin_fit (h : Hdr) (timeout : BitVec 16) (y0 : Sess)
    (y03 : Nat) (y04 : Nat) (y05 : Block) :
    (dispatchTxnBegin h timeout y0 y03 y04 y05).fit = y05.fit := by
  simp [dispatchTxnBegin]

@[simp] theorem Block.txnEnds_fit (b : Block) (k : Sess) :
    (Block.txnEnds b k).fit = b.fit := by
  simp [Block.txnEnds]

@[simp] theorem dispatchTxnCommit_fit (h : Hdr) (y0 : Sess) (y02 : Nat)
    (y03 : Nat) (y04 : Block) :
    (dispatchTxnCommit h y0 y02 y03 y04).fit = y04.fit := by
  unfold dispatchTxnCommit
  (repeat' split) <;> simp

@[simp] theorem dispatchTxnRollback_fit (h : Hdr) (y0 : Sess) (y02 : Nat)
    (y03 : Nat) (y04 : Block) :
    (dispatchTxnRollback h y0 y02 y03 y04).fit = y04.fit := by
  unfold dispatchTxnRollback
  (repeat' split) <;> simp

@[simp] theorem dispatchTxnStatus_fit (h : Hdr) (y0 : Sess) (y02 : Nat)
    (y03 : Nat) (y04 : Block) :
    (dispatchTxnStatus h y0 y02 y03 y04).fit = y04.fit := by
  simp [dispatchTxnStatus]

@[simp] theorem Block.withStaged_fit (b : Block) (k : Sess) (ws : List Staged) :
    (b.withStaged k ws).fit = b.fit := by
  refine fit_foldl _ _ _ (fun acc x => ?_)
  split <;> simp

@[simp] theorem Block.txnKey_fit (b : Block) (k : Sess) (ws : List Staged) :
    (Block.txnKey b k ws).fit = b.fit := by
  simp [Block.txnKey]

@[simp] theorem Block.txnRivals_fit (b : Block) (k : Sess) (ws : List Staged) :
    (Block.txnRivals b k ws).fit = b.fit := by
  simp [Block.txnRivals]

@[simp] theorem Block.txnApply_fit (b : Block) (k : Sess) (at_ : Nat) : (b.txnApply k at_).1.fit = b.fit := by
  unfold Block.txnApply
  dsimp only
  split <;> simp

@[simp] theorem Block.slotTo_fit (b : Block) (k : Bool) (s : SlotState) :
    (Block.slotTo b k s).fit = b.fit := by
  simp [Block.slotTo]

@[simp] theorem Block.updTo_fit (b : Block) (s : UpdState) (at_ : Nat) :
    (Block.updTo b s at_).fit = b.fit := by
  simp [Block.updTo]

@[simp] theorem Block.bootRecord_fit (b : Block) (r : BootRecord) :
    (Block.bootRecord b r).fit = b.fit := by
  unfold Block.bootRecord
  dsimp only
  (repeat' split) <;> simp

@[simp] theorem Block.revert_fit (b : Block) (cause : Nat) (kind : Nat) :
    (Block.revert b cause kind).fit = b.fit := by
  unfold Block.revert
  (repeat' split) <;> simp

@[simp] theorem Block.beginReply_fit (b : Block) (k : Sess) (h : Hdr) :
    (Block.beginReply b k h).fit = b.fit := by
  simp [Block.beginReply]

@[simp] theorem Block.download_fit (b : Block) (identity : Bytes) (length : Nat) :
    (Block.download b identity length).fit = b.fit := by
  simp [Block.download]

@[simp] theorem dispatchUpdBegin_fit (h : Hdr) (identity : BitVec 256) (length : Word) (flags : Byte)
    (y0 : Sess) (y05 : Nat) (y06 : Nat) (y07 : Block) :
    (dispatchUpdBegin h identity length flags y0 y05 y06 y07).fit = y07.fit := by
  simp [dispatchUpdBegin]

@[simp] theorem dispatchUpdChunk_fit (h : Hdr) (offset : Word) (data : Bytes) (y0 : Sess)
    (y04 : Nat) (y05 : Nat) (y06 : Block) :
    (dispatchUpdChunk h offset data y0 y04 y05 y06).fit = y06.fit := by
  simp [dispatchUpdChunk]

@[simp] theorem dispatchUpdVerify_fit (h : Hdr) (y0 : Sess) (y02 : Nat)
    (y03 : Nat) (y04 : Block) :
    (dispatchUpdVerify h y0 y02 y03 y04).fit = y04.fit := by
  simp [dispatchUpdVerify]

@[simp] theorem Block.finishAll_fit (b : Block) (op : BitVec 16) (st : Status) (payload : Bytes) :
    (Block.finishAll b op st payload).fit = b.fit := by
  simp [Block.finishAll]

@[simp] theorem Block.answers_fit (b : Block) (seq : Nat) (k : Sess) (h : Hdr) (op : BitVec 16) (st : Status) :
    (Block.answers b seq k h op st).fit = b.fit := by
  simp [Block.answers]

@[simp] theorem Block.resetFollows_fit (b : Block) :
    (Block.resetFollows b).fit = b.fit := by
  simp [Block.resetFollows]

@[simp] theorem dispatchUpdActivate_fit (h : Hdr) (y0 : Sess) (y02 : Nat)
    (y03 : Nat) (y04 : Block) :
    (dispatchUpdActivate h y0 y02 y03 y04).fit = y04.fit := by
  simp [dispatchUpdActivate]

@[simp] theorem dispatchUpdConfirm_fit (h : Hdr) (y0 : Sess) (y02 : Nat)
    (y03 : Nat) (y04 : Block) :
    (dispatchUpdConfirm h y0 y02 y03 y04).fit = y04.fit := by
  unfold dispatchUpdConfirm
  (repeat' split) <;> simp

@[simp] theorem dispatchUpdAbort_fit (h : Hdr) (y0 : Sess) (y02 : Nat)
    (y03 : Nat) (y04 : Block) :
    (dispatchUpdAbort h y0 y02 y03 y04).fit = y04.fit := by
  unfold dispatchUpdAbort
  (repeat' split) <;> simp

@[simp] theorem dispatchUpdStatus_fit (h : Hdr) (y0 : Sess) (y02 : Nat)
    (y03 : Nat) (y04 : Block) :
    (dispatchUpdStatus h y0 y02 y03 y04).fit = y04.fit := by
  simp [dispatchUpdStatus]

@[simp] theorem Block.runs__fit (b : Block) (slot : Option Bool) :
    (Block.runs_ b slot).fit = b.fit := by
  unfold Block.runs_
  (repeat' split) <;> simp

@[simp] theorem Block.startAny_fit (b : Block) :
    (Block.startAny b).fit = b.fit := by
  simp [Block.startAny]

@[simp] theorem Block.startNamed_fit (b : Block) (w : BootRecord) (kind : Nat) :
    (Block.startNamed b w kind).fit = b.fit := by
  simp [Block.startNamed]

@[simp] theorem Block.startReverted_fit (b : Block) (cause : Nat) (kind : Nat) :
    (Block.startReverted b cause kind).fit = b.fit := by
  unfold Block.startReverted
  dsimp only
  (repeat' split) <;> simp

@[simp] theorem Block.coldSlot_fit (b : Block) (kind : Nat) :
    (Block.coldSlot b kind).fit = b.fit := by
  unfold Block.coldSlot
  (repeat' split) <;> simp

@[simp] theorem Block.warmSlot_fit (b : Block) :
    (Block.warmSlot b).fit = b.fit := by
  unfold Block.warmSlot
  (repeat' split) <;> simp

@[simp] theorem Block.loadKeys_fit (b : Block) (s : Store) :
    (Block.loadKeys b s).fit = b.fit := by
  simp [Block.loadKeys]

@[simp] theorem Block.recoveryKeys_fit (b : Block) :
    (Block.recoveryKeys b).fit = b.fit := by
  simp [Block.recoveryKeys]

@[simp] theorem Block.loadWords_fit (b : Block) (ws : List (Nat × Word)) :
    (Block.loadWords b ws).fit = b.fit := by
  simp [Block.loadWords]

@[simp] theorem Block.migrationFails_fit (b : Block) (reason address stored kind : Nat) :
    (b.migrationFails reason address stored kind).fit = b.fit := by
  simp [Block.migrationFails]

@[simp] theorem Block.migrated_fit (b : Block) (store : Bool) (ws : RegFile) (mark : Option (Bool × Nat)) :
    (Block.migrated b store ws mark).fit = b.fit := by
  simp [Block.migrated]

@[simp] theorem Block.migrate_fit (b : Block) (w : BootRecord) (kind : Nat) :
    (Block.migrate b w kind).fit = b.fit := by
  unfold Block.migrate
  dsimp only
  (repeat' split) <;> simp

@[simp] theorem Block.loadStore_fit (b : Block) (k : Bool) :
    (Block.loadStore b k).fit = b.fit := by
  simp [Block.loadStore]

@[simp] theorem Block.coldSettings_fit (b : Block) (kind : Nat) :
    (Block.coldSettings b kind).fit = b.fit := by
  unfold Block.coldSettings
  (repeat' split) <;> simp

@[simp] theorem Block.foundSave_fit (b : Block) :
    (Block.foundSave b).fit = b.fit := by
  unfold Block.foundSave
  (repeat' split) <;> simp

@[simp] theorem Block.brokenSave_fit (b : Block) :
    (Block.brokenSave b).fit = b.fit := by
  unfold Block.brokenSave
  (repeat' split) <;> simp

@[simp] theorem Block.inputOpens_fit (b : Block) (i : VpwrInput) (why : SwitchOpen) (at_ : Nat) :
    (Block.inputOpens b i why at_).fit = b.fit := by
  simp [Block.inputOpens]

@[simp] theorem Block.inputCloses_fit (b : Block) (i : VpwrInput) (busMv : Nat) :
    (Block.inputCloses b i busMv).fit = b.fit := by
  simp [Block.inputCloses]

@[simp] theorem Block.freshChallenge_fit (b : Block) :
    (Block.freshChallenge b).fit = b.fit := by
  simp [Block.freshChallenge]

@[simp] theorem Block.resetRaises_fit (b old : Block) (fromOff : Bool) :
    (b.resetRaises old fromOff).fit = b.fit := by
  simp only [Block.resetRaises]
  (repeat' split) <;> simp

@[simp] theorem motors_afterReset_length (m : Motors) (w : Nat → List Word) (t : Nat) :
    (m.afterReset w t).units.length = 16 := by
  simp [Motors.afterReset]
theorem Block.resetFinish_fit (b : Block) (cold : Bool) (t : Nat) (h : b.eng.mot.units.length = 16) :
    (b.resetFinish cold t).fit = b.fit := by
  unfold Block.resetFinish
  dsimp only
  split <;> simp [← h]


@[simp] theorem Block.start_fit (b : Block) (cold : Bool) (kind : Nat) :
    (Block.start b cold kind).fit = b.fit := by
  simp [Block.start]

theorem Block.resetKept_fit (b : Block) (kind : ResetKind) (cores : BitVec 4) (now offNs : Nat) (h : b.Sound) :
    (b.resetKept kind cores now offNs).fit = b.fit := by
  have hs := h
  simp only [Block.Sound, Block.fit, Engines.sizes, soundFit, Prod.mk.injEq, List.cons.injEq, and_true] at hs
  obtain ⟨-, -, -, h1, -, -, -, h5, h6, h7, h8, h9, h10, h11, h12, h13, -, -, -, -, h18, -⟩ := hs
  have hm : (if offNs = 0 then b.motorsAt now else {} : Motors).units.length = 16 := by
    split
    · simp [Block.motorsAt, h18]
    · rfl
  rw [h]
  unfold Block.resetKept
  dsimp only
  rw [fit_mk]
  simp only [soundFit, Vigil.afterReset, Link.afterReset, Block.resetEngines, sizes_mk]
  have e1 : ∀ c : Bool, (b.eng.map.afterReset c).frames.length = 128 ∧ (b.eng.map.afterReset c).tlb.length = 64
      ∧ (b.eng.map.afterReset c).faults.length = 16 ∧ (b.eng.map.afterReset c).buffers.length = 4
      ∧ (b.eng.map.afterReset c).shadows.length = 2 := by
    intro c
    cases c <;> simp only [FieldMap.afterReset] <;> simp [h5]
  obtain ⟨g1, g2, g3, g4, g5⟩ := e1 kind.cold
  simp only [g1, g2, g3, g4, g5, List.length_map, List.length_zipIdx, List.length_replicate, h1, h10, h12, hm]
  rfl


@[simp] theorem Block.resetCounted_fit (b : Block) (kind : ResetKind) :
    (Block.resetCounted b kind).fit = b.fit := by
  unfold Block.resetCounted
  (repeat' split) <;> simp

@[simp] theorem Block.resetNamed_fit (b : Block) (failed : Bool) (cause : ResetKind) :
    (Block.resetNamed b failed cause).fit = b.fit := by
  simp [Block.resetNamed]

@[simp] theorem Block.publish_fit (b : Block) :
    (Block.publish b).fit = b.fit := by
  simp [Block.publish]

theorem Block.resetEntry_fit (b : Block) (cause : ResetKind) (cores : BitVec 4) (at_ offNs : Nat)
    (h : b.Sound) : (b.resetEntry cause cores at_ offNs).fit = b.fit := by
  have hm : ∀ c : Block, c.fit = b.fit → c.eng.mot.units.length = 16 := by
    intro c e
    have := congrArg (fun x => x.2.2.2) (e.trans h)
    simp only [Block.fit, ← sizes_fold, soundFit, List.cons.injEq] at this
    exact this.2.2.2.2.2.2.2.2.2.2.2.2.2.2.2.2.2.1
  unfold Block.resetEntry
  generalize (if !cause.cold && b.mustRevert then ResetKind.image else cause : ResetKind) = kind
  generalize b.now (max at_ b.time.hand) + offNs = now
  have e := Block.resetKept_fit b kind cores now offNs h
  dsimp only
  rw [Block.publish_fit, Block.resetRaises_fit, Block.resetFinish_fit _ _ _ (hm _ (by simp [e]))]
  simp [e]


theorem Block.sound_of_fit {b t : Block} (e : t.fit = b.fit) (h : b.Sound) : t.Sound := by
  have v : t.ident.variant = b.ident.variant := congrArg (·.1) e
  rw [Block.Sound, e, v]; exact h
theorem Block.dueResets_fit (b : Block) (h : b.Sound) : b.dueResets.fit = b.fit := by
  unfold Block.dueResets
  (repeat' split) <;> simp [Block.resetEntry_fit, h]


theorem Block.dormantStart_fit (b : Block) (cause offNs : Nat) (h : b.Sound) :
    (b.dormantStart cause offNs).fit = b.fit := by
  simp [Block.dormantStart, Block.resetEntry_fit, h]

@[simp] theorem dispatchReadOf_fit (h : Hdr) (a : Nat) (y0 : Sess) (y03 : Nat)
    (y04 : Nat) (y05 : Block) :
    (dispatchReadOf h a y0 y03 y04 y05).fit = y05.fit := by
  simp [dispatchReadOf]

@[simp] theorem dispatchWriteOf_fit (h : Hdr) (a : Nat) (v : Word) (y0 : Sess)
    (y04 : Nat) (y05 : Nat) (y06 : Block) :
    (dispatchWriteOf h a v y0 y04 y05 y06).fit = y06.fit := by
  simp [dispatchWriteOf]

theorem dispatchOf_fit (i : Instr) (d : Dispatch) (h : dispatchOf i = some d) (k : Sess) (n m : Nat) (c : Block) :
    (d k n m c).fit = c.fit := by
  unfold dispatchOf at h
  split at h <;> first | (injection h with h; subst h; simp; done) | (cases h)
theorem dispatchFreeOf_fit (i : Instr) (d : FreeDispatch) (h : dispatchFreeOf i = some d) (n : Nat) (c : Block) :
    (d n c).fit = c.fit := by
  unfold dispatchFreeOf at h
  split at h <;> first | (injection h with h; subst h; simp; done) | (cases h)
@[simp] theorem Block.dispatchWaiting_fit (b : Block) (w : Waiting) : (b.dispatchWaiting w).fit = b.fit := by
  unfold Block.dispatchWaiting
  dsimp only
  rw [Block.fences_fit, Block.fencesTake_fit]
  split
  · split
    · rename_i h; rw [dispatchOf_fit _ _ h]; simp [Block.modLink]
    · simp [Block.modLink]
  · split
    · rename_i h; rw [dispatchFreeOf_fit _ _ h]; simp [Block.modLink]
    · simp [Block.modLink]


@[simp] theorem Block.releaseSome_fit (n : Nat) (b : Block) : (Block.releaseSome n b).fit = b.fit := by
  induction n generalizing b with
  | zero => rfl
  | succ n ih => simp only [Block.releaseSome]; split <;> simp [ih]

@[simp] theorem Block.release_fit (b : Block) :
    (Block.release b).fit = b.fit := by
  simp [Block.release]

@[simp] theorem Block.resumeSome_fit (n t : Nat) (b : Block) : (Block.resumeSome n t b).fit = b.fit := by
  induction n generalizing b with
  | zero => rfl
  | succ n ih => simp only [Block.resumeSome]; split <;> simp [ih]


@[simp] theorem Block.resume_fit (b : Block) (at_ : Nat) :
    (Block.resume b at_).fit = b.fit := by
  simp [Block.resume]

@[simp] theorem Block.captureSense_fit (b : Block) (cap : Capture) :
    (Block.captureSense b cap).fit = b.fit := by
  simp [Block.captureSense]

@[simp] theorem Block.captureBridges_fit (b : Block) (cap : Capture) : (b.captureBridges cap).fit = b.fit := by
  refine fit_foldl _ _ _ (fun acc x => ?_)
  split <;> simp

@[simp] theorem Block.captureValves_fit (b : Block) (cap : Capture) (ticks : Nat) :
    (b.captureValves cap ticks).fit = b.fit := by
  refine (fit_foldl _ _ _ (fun acc x => by simp)).trans ?_
  refine (fit_foldl _ _ _ (fun acc x => ?_)).trans ?_
  · split <;> simp
  · exact fit_foldl _ _ _ (fun acc x => by simp)

@[simp] theorem Block.capture_fit (b : Block) (cap : Capture) (ticks : Nat) :
    (Block.capture b cap ticks).fit = b.fit := by
  simp [Block.capture]

@[simp] theorem Block.edgeTime_fit (b : Block) (ticks : Nat) :
    (Block.edgeTime b ticks).fit = b.fit := by
  simp [Block.edgeTime]

@[simp] theorem Block.poseStage_fit (b : Block) (ns : Nat) (ticks : Nat) :
    (Block.poseStage b ns ticks).fit = b.fit := by
  simp [Block.poseStage]

@[simp] theorem Block.loopStage_fit (b : Block) (ticks : Nat) (limit : Option Nat) :
    (Block.loopStage b ticks limit).fit = b.fit := by
  simp [Block.loopStage]

@[simp] theorem Block.almanacStage_fit (b : Block) (ticks : Nat) :
    (Block.almanacStage b ticks).fit = b.fit := by
  simp [Block.almanacStage]

@[simp] theorem Block.lookAhead_fit (b : Block) (at_ : Nat) :
    (Block.lookAhead b at_).fit = b.fit := by
  simp [Block.lookAhead]

@[simp] theorem Block.phases_fit (b : Block) (ns : Nat) (ticks : Nat) (limit : Option Nat) :
    (Block.phases b ns ticks limit).fit = b.fit := by
  simp [Block.phases]

theorem Block.tickEdge_fit (b : Block) (cap : Capture) (h : b.Sound) : (b.tickEdge cap).fit = b.fit := by
  unfold Block.tickEdge
  dsimp only
  generalize e1 : ((b.lookAhead tickNs).modAlm _).edgeTime b.edgeTicks = b1
  have e : b1.fit = b.fit := by rw [← e1]; simp
  (repeat' split)
  · rw [Block.dueResets_fit _ (Block.sound_of_fit (by simp [e]) h)]; simp [e]
  · simp [e]
  · simp [e]


@[simp] theorem Block.clockSetApply_fit (b : Block) (arrived : Nat) (tai : BitVec 16) (seconds : Nat)
    (nanos : Nat) :
    (Block.clockSetApply b arrived tai seconds nanos).fit = b.fit := by
  simp [Block.clockSetApply]

@[simp] theorem Block.setLeap_fit (b : Block) (l : Option Leap) :
    (Block.setLeap b l).fit = b.fit := by
  simp [Block.setLeap]

@[simp] theorem Block.applyReq_fit (b : Block) (k : Sess) (arrived : Nat) (at_ : Nat) (i : Instr) :
    (Block.applyReq b k arrived at_ i).fit = b.fit := by
  unfold Block.applyReq
  (repeat' split) <;> simp

@[simp] theorem Block.sessionLoss_fit (b : Block) (k : Sess) (ended : Bool) :
    (Block.sessionLoss b k ended).fit = b.fit := by
  unfold Block.sessionLoss
  (repeat' split) <;> simp

@[simp] theorem Block.applyPosted_fit (at_ : Nat) (r : List TxnAnswer × Block) (p : Posted) :
    (Block.applyPosted at_ r p).2.fit = r.2.fit := by
  simp only [Block.applyPosted]
  (repeat' split) <;> simp

@[simp] theorem posteds_fit (at_ : Nat) (l : List Posted) (r : List TxnAnswer × Block) :
    (l.foldl (Block.applyPosted at_) r).2.fit = r.2.fit := by
  induction l generalizing r with
  | nil => rfl
  | cons x l ih => simp [List.foldl_cons, ih]
@[simp] theorem Block.stepTwo_fit (b : Block) (at_ : Nat) : (b.stepTwo at_).2.fit = b.fit := by
  simp [Block.stepTwo]

@[simp] theorem Block.agePending_fit (b : Block) :
    (Block.agePending b).fit = b.fit := by
  simp [Block.agePending]

@[simp] theorem Block.holdLatch_fit (b : Block) :
    (Block.holdLatch b).fit = b.fit := by
  simp [Block.holdLatch]

@[simp] theorem Block.valvesCommit_fit (b : Block) (at_ : Nat) : (b.valvesCommit at_).fit = b.fit := by
  refine fit_foldl _ _ _ (fun acc x => ?_)
  dsimp only
  (repeat' split) <;> simp


@[simp] theorem Block.resetEvent_fit (b : Block) (at_ : Nat) :
    (Block.resetEvent b at_).fit = b.fit := by
  simp [Block.resetEvent]

@[simp] theorem Block.revertRaise_fit (b : Block) (at_ : Nat) :
    (Block.revertRaise b at_).fit = b.fit := by
  unfold Block.revertRaise
  (repeat' split) <;> simp

@[simp] theorem Block.saveRaise_fit (b : Block) (at_ : Nat) :
    (Block.saveRaise b at_).fit = b.fit := by
  unfold Block.saveRaise
  (repeat' split) <;> simp

@[simp] theorem Block.migrationRaise_fit (b : Block) (at_ : Nat) :
    (Block.migrationRaise b at_).fit = b.fit := by
  unfold Block.migrationRaise
  (repeat' split) <;> simp

@[simp] theorem Block.firstCommit_fit (b : Block) (at_ : Nat) :
    (Block.firstCommit b at_).fit = b.fit := by
  simp [Block.firstCommit]

@[simp] theorem Block.probes_fit (b : Block) :
    (Block.probes b).fit = b.fit := by
  simp [Block.probes]

@[simp] theorem Block.finishInTime_fit (b : Block) (op : BitVec 16) :
    (Block.finishInTime b op).fit = b.fit := by
  simp [Block.finishInTime]

@[simp] theorem Block.commitReplies_fit (b : Block) (answers : List TxnAnswer) :
    (Block.commitReplies b answers).fit = b.fit := by
  simp [Block.commitReplies]

@[simp] theorem Block.onTime_fit (b : Block) (finish : Nat) :
    (Block.onTime b finish).fit = b.fit := by
  simp [Block.onTime]

@[simp] theorem stepsThreeToFive_fit (unfinished : List Nat) (at_ : Nat) (r : List TxnAnswer × Block) :
    (stepsThreeToFive unfinished at_ r).2.fit = r.2.fit := by
  simp [stepsThreeToFive]

@[simp] theorem Block.fiveSteps_fit (b : Block) (unfinished : List Nat) (at_ : Nat) :
    (b.fiveSteps unfinished at_).2.fit = b.fit := by
  rw [Block.fiveSteps, stepsThreeToFive_fit, Block.stepTwo_fit, Block.unitsCommit_fit]

@[simp] theorem Block.commitBegins_fit (b : Block) (end0 : Nat) (end1 : Nat) :
    (Block.commitBegins b end0 end1).fit = b.fit := by
  simp [Block.commitBegins]

@[simp] theorem Block.blocksCommit_fit (b : Block) (finish : Nat) :
    (Block.blocksCommit b finish).fit = b.fit := by
  simp [Block.blocksCommit]

@[simp] theorem commitEnds_fit (finish : Nat) (r : List TxnAnswer × Block) :
    (commitEnds finish r).fit = r.2.fit := by
  simp [commitEnds]

@[simp] theorem Block.commitAt_fit (b : Block) (finish : Nat) (unfinished : List Nat) (end0 end1 : Nat) :
    (b.commitAt finish unfinished end0 end1).fit = b.fit := by
  unfold Block.commitAt
  dsimp only
  split <;> simp


/-- A command whose effect on the block keeps its fit keeps that of the state. -/
theorem lift_fit (f : Block → Block) (s s' : State) (h : lift f s = .next s') (hf : (f s.blk).fit = s.blk.fit) :
    s'.blk.fit = s.blk.fit := by
  unfold lift at h
  injection h with h
  subst h
  exact hf

end Sys2Proof.Machine
end

