-- ==== Sys2Proof/Laws/State.lean ====
section
/-! SUPPORT. One lemma for each field of the block and each operation that updates it: what the field is afterwards. -/

namespace Sys2Proof.Machine

open Sys2Proof (Word Byte Bytes Sess Hdr Instr)

variable (b : Block)


@[simp] theorem setWord_ident (r : Reg) (i j : Nat) (v : Word) : (b.setWord r i j v).ident = b.ident := rfl
@[simp] theorem setWord_time (r : Reg) (i j : Nat) (v : Word) : (b.setWord r i j v).time = b.time := rfl
@[simp] theorem setWord_link (r : Reg) (i j : Nat) (v : Word) : (b.setWord r i j v).link = b.link := rfl
@[simp] theorem setWord_vig (r : Reg) (i j : Nat) (v : Word) : (b.setWord r i j v).vig = b.vig := rfl
@[simp] theorem setWord_evt (r : Reg) (i j : Nat) (v : Word) : (b.setWord r i j v).evt = b.evt := rfl
@[simp] theorem setWord_diary (r : Reg) (i j : Nat) (v : Word) : (b.setWord r i j v).diary = b.diary := rfl
@[simp] theorem setWord_can (r : Reg) (i j : Nat) (v : Word) : (b.setWord r i j v).can = b.can := rfl
@[simp] theorem setWord_upd (r : Reg) (i j : Nat) (v : Word) : (b.setWord r i j v).upd = b.upd := rfl
@[simp] theorem setWord_sup (r : Reg) (i j : Nat) (v : Word) : (b.setWord r i j v).sup = b.sup := rfl
@[simp] theorem setWord_posted (r : Reg) (i j : Nat) (v : Word) : (b.setWord r i j v).posted = b.posted := rfl
@[simp] theorem setWord_eng (r : Reg) (i j : Nat) (v : Word) : (b.setWord r i j v).eng = b.eng := rfl
@[simp] theorem setWord_pub (r : Reg) (i j : Nat) (v : Word) : (b.setWord r i j v).pub = b.pub := rfl
@[simp] theorem setWord_pubTime (r : Reg) (i j : Nat) (v : Word) : (b.setWord r i j v).pubTime = b.pubTime := rfl
@[simp] theorem setWord_pubSup (r : Reg) (i j : Nat) (v : Word) : (b.setWord r i j v).pubSup = b.pubSup := rfl
@[simp] theorem setWord_draws (r : Reg) (i j : Nat) (v : Word) : (b.setWord r i j v).draws = b.draws := rfl

@[simp] theorem setFld_ident (r : Reg) (i m l v : Nat) : (b.setFld r i m l v).ident = b.ident := rfl
@[simp] theorem setFld_time (r : Reg) (i m l v : Nat) : (b.setFld r i m l v).time = b.time := rfl
@[simp] theorem setFld_link (r : Reg) (i m l v : Nat) : (b.setFld r i m l v).link = b.link := rfl
@[simp] theorem setFld_vig (r : Reg) (i m l v : Nat) : (b.setFld r i m l v).vig = b.vig := rfl
@[simp] theorem setFld_evt (r : Reg) (i m l v : Nat) : (b.setFld r i m l v).evt = b.evt := rfl
@[simp] theorem setFld_diary (r : Reg) (i m l v : Nat) : (b.setFld r i m l v).diary = b.diary := rfl
@[simp] theorem setFld_can (r : Reg) (i m l v : Nat) : (b.setFld r i m l v).can = b.can := rfl
@[simp] theorem setFld_upd (r : Reg) (i m l v : Nat) : (b.setFld r i m l v).upd = b.upd := rfl
@[simp] theorem setFld_sup (r : Reg) (i m l v : Nat) : (b.setFld r i m l v).sup = b.sup := rfl
@[simp] theorem setFld_posted (r : Reg) (i m l v : Nat) : (b.setFld r i m l v).posted = b.posted := rfl
@[simp] theorem setFld_eng (r : Reg) (i m l v : Nat) : (b.setFld r i m l v).eng = b.eng := rfl
@[simp] theorem setFld_pub (r : Reg) (i m l v : Nat) : (b.setFld r i m l v).pub = b.pub := rfl
@[simp] theorem setFld_pubTime (r : Reg) (i m l v : Nat) : (b.setFld r i m l v).pubTime = b.pubTime := rfl
@[simp] theorem setFld_pubSup (r : Reg) (i m l v : Nat) : (b.setFld r i m l v).pubSup = b.pubSup := rfl
@[simp] theorem setFld_draws (r : Reg) (i m l v : Nat) : (b.setFld r i m l v).draws = b.draws := rfl

@[simp] theorem count_ident (r : Reg) (i m l n : Nat) : (b.count r i m l n).ident = b.ident := rfl
@[simp] theorem count_time (r : Reg) (i m l n : Nat) : (b.count r i m l n).time = b.time := rfl
@[simp] theorem count_link (r : Reg) (i m l n : Nat) : (b.count r i m l n).link = b.link := rfl
@[simp] theorem count_vig (r : Reg) (i m l n : Nat) : (b.count r i m l n).vig = b.vig := rfl
@[simp] theorem count_evt (r : Reg) (i m l n : Nat) : (b.count r i m l n).evt = b.evt := rfl
@[simp] theorem count_diary (r : Reg) (i m l n : Nat) : (b.count r i m l n).diary = b.diary := rfl
@[simp] theorem count_can (r : Reg) (i m l n : Nat) : (b.count r i m l n).can = b.can := rfl
@[simp] theorem count_upd (r : Reg) (i m l n : Nat) : (b.count r i m l n).upd = b.upd := rfl
@[simp] theorem count_sup (r : Reg) (i m l n : Nat) : (b.count r i m l n).sup = b.sup := rfl
@[simp] theorem count_posted (r : Reg) (i m l n : Nat) : (b.count r i m l n).posted = b.posted := rfl
@[simp] theorem count_eng (r : Reg) (i m l n : Nat) : (b.count r i m l n).eng = b.eng := rfl
@[simp] theorem count_pub (r : Reg) (i m l n : Nat) : (b.count r i m l n).pub = b.pub := rfl
@[simp] theorem count_pubTime (r : Reg) (i m l n : Nat) : (b.count r i m l n).pubTime = b.pubTime := rfl
@[simp] theorem count_pubSup (r : Reg) (i m l n : Nat) : (b.count r i m l n).pubSup = b.pubSup := rfl
@[simp] theorem count_draws (r : Reg) (i m l n : Nat) : (b.count r i m l n).draws = b.draws := rfl

@[simp] theorem countWrap_ident (r : Reg) (i m l n : Nat) : (b.countWrap r i m l n).ident = b.ident := rfl
@[simp] theorem countWrap_time (r : Reg) (i m l n : Nat) : (b.countWrap r i m l n).time = b.time := rfl
@[simp] theorem countWrap_link (r : Reg) (i m l n : Nat) : (b.countWrap r i m l n).link = b.link := rfl
@[simp] theorem countWrap_vig (r : Reg) (i m l n : Nat) : (b.countWrap r i m l n).vig = b.vig := rfl
@[simp] theorem countWrap_evt (r : Reg) (i m l n : Nat) : (b.countWrap r i m l n).evt = b.evt := rfl
@[simp] theorem countWrap_diary (r : Reg) (i m l n : Nat) : (b.countWrap r i m l n).diary = b.diary := rfl
@[simp] theorem countWrap_can (r : Reg) (i m l n : Nat) : (b.countWrap r i m l n).can = b.can := rfl
@[simp] theorem countWrap_upd (r : Reg) (i m l n : Nat) : (b.countWrap r i m l n).upd = b.upd := rfl
@[simp] theorem countWrap_sup (r : Reg) (i m l n : Nat) : (b.countWrap r i m l n).sup = b.sup := rfl
@[simp] theorem countWrap_posted (r : Reg) (i m l n : Nat) : (b.countWrap r i m l n).posted = b.posted := rfl
@[simp] theorem countWrap_eng (r : Reg) (i m l n : Nat) : (b.countWrap r i m l n).eng = b.eng := rfl
@[simp] theorem countWrap_pub (r : Reg) (i m l n : Nat) : (b.countWrap r i m l n).pub = b.pub := rfl
@[simp] theorem countWrap_pubTime (r : Reg) (i m l n : Nat) : (b.countWrap r i m l n).pubTime = b.pubTime := rfl
@[simp] theorem countWrap_pubSup (r : Reg) (i m l n : Nat) : (b.countWrap r i m l n).pubSup = b.pubSup := rfl
@[simp] theorem countWrap_draws (r : Reg) (i m l n : Nat) : (b.countWrap r i m l n).draws = b.draws := rfl

@[simp] theorem latch_ident (r : Reg) (i n : Nat) : (b.latch r i n).ident = b.ident := rfl
@[simp] theorem latch_time (r : Reg) (i n : Nat) : (b.latch r i n).time = b.time := rfl
@[simp] theorem latch_link (r : Reg) (i n : Nat) : (b.latch r i n).link = b.link := rfl
@[simp] theorem latch_vig (r : Reg) (i n : Nat) : (b.latch r i n).vig = b.vig := rfl
@[simp] theorem latch_evt (r : Reg) (i n : Nat) : (b.latch r i n).evt = b.evt := rfl
@[simp] theorem latch_diary (r : Reg) (i n : Nat) : (b.latch r i n).diary = b.diary := rfl
@[simp] theorem latch_can (r : Reg) (i n : Nat) : (b.latch r i n).can = b.can := rfl
@[simp] theorem latch_upd (r : Reg) (i n : Nat) : (b.latch r i n).upd = b.upd := rfl
@[simp] theorem latch_sup (r : Reg) (i n : Nat) : (b.latch r i n).sup = b.sup := rfl
@[simp] theorem latch_posted (r : Reg) (i n : Nat) : (b.latch r i n).posted = b.posted := rfl
@[simp] theorem latch_eng (r : Reg) (i n : Nat) : (b.latch r i n).eng = b.eng := rfl
@[simp] theorem latch_pub (r : Reg) (i n : Nat) : (b.latch r i n).pub = b.pub := rfl
@[simp] theorem latch_pubTime (r : Reg) (i n : Nat) : (b.latch r i n).pubTime = b.pubTime := rfl
@[simp] theorem latch_pubSup (r : Reg) (i n : Nat) : (b.latch r i n).pubSup = b.pubSup := rfl
@[simp] theorem latch_draws (r : Reg) (i n : Nat) : (b.latch r i n).draws = b.draws := rfl

@[simp] theorem unlatch_ident (r : Reg) (i : Nat) (m : Word) : (b.unlatch r i m).ident = b.ident := rfl
@[simp] theorem unlatch_time (r : Reg) (i : Nat) (m : Word) : (b.unlatch r i m).time = b.time := rfl
@[simp] theorem unlatch_link (r : Reg) (i : Nat) (m : Word) : (b.unlatch r i m).link = b.link := rfl
@[simp] theorem unlatch_vig (r : Reg) (i : Nat) (m : Word) : (b.unlatch r i m).vig = b.vig := rfl
@[simp] theorem unlatch_evt (r : Reg) (i : Nat) (m : Word) : (b.unlatch r i m).evt = b.evt := rfl
@[simp] theorem unlatch_diary (r : Reg) (i : Nat) (m : Word) : (b.unlatch r i m).diary = b.diary := rfl
@[simp] theorem unlatch_can (r : Reg) (i : Nat) (m : Word) : (b.unlatch r i m).can = b.can := rfl
@[simp] theorem unlatch_upd (r : Reg) (i : Nat) (m : Word) : (b.unlatch r i m).upd = b.upd := rfl
@[simp] theorem unlatch_sup (r : Reg) (i : Nat) (m : Word) : (b.unlatch r i m).sup = b.sup := rfl
@[simp] theorem unlatch_posted (r : Reg) (i : Nat) (m : Word) : (b.unlatch r i m).posted = b.posted := rfl
@[simp] theorem unlatch_eng (r : Reg) (i : Nat) (m : Word) : (b.unlatch r i m).eng = b.eng := rfl
@[simp] theorem unlatch_pub (r : Reg) (i : Nat) (m : Word) : (b.unlatch r i m).pub = b.pub := rfl
@[simp] theorem unlatch_pubTime (r : Reg) (i : Nat) (m : Word) : (b.unlatch r i m).pubTime = b.pubTime := rfl
@[simp] theorem unlatch_pubSup (r : Reg) (i : Nat) (m : Word) : (b.unlatch r i m).pubSup = b.pubSup := rfl
@[simp] theorem unlatch_draws (r : Reg) (i : Nat) (m : Word) : (b.unlatch r i m).draws = b.draws := rfl

@[simp] theorem peak_ident (q : Fin 4) (n : Nat) : (b.peak q n).ident = b.ident := rfl
@[simp] theorem peak_time (q : Fin 4) (n : Nat) : (b.peak q n).time = b.time := rfl
@[simp] theorem peak_link (q : Fin 4) (n : Nat) : (b.peak q n).link = b.link := rfl
@[simp] theorem peak_vig (q : Fin 4) (n : Nat) : (b.peak q n).vig = b.vig := rfl
@[simp] theorem peak_evt (q : Fin 4) (n : Nat) : (b.peak q n).evt = b.evt := rfl
@[simp] theorem peak_diary (q : Fin 4) (n : Nat) : (b.peak q n).diary = b.diary := rfl
@[simp] theorem peak_can (q : Fin 4) (n : Nat) : (b.peak q n).can = b.can := rfl
@[simp] theorem peak_upd (q : Fin 4) (n : Nat) : (b.peak q n).upd = b.upd := rfl
@[simp] theorem peak_sup (q : Fin 4) (n : Nat) : (b.peak q n).sup = b.sup := rfl
@[simp] theorem peak_posted (q : Fin 4) (n : Nat) : (b.peak q n).posted = b.posted := rfl
@[simp] theorem peak_eng (q : Fin 4) (n : Nat) : (b.peak q n).eng = b.eng := rfl
@[simp] theorem peak_pub (q : Fin 4) (n : Nat) : (b.peak q n).pub = b.pub := rfl
@[simp] theorem peak_pubTime (q : Fin 4) (n : Nat) : (b.peak q n).pubTime = b.pubTime := rfl
@[simp] theorem peak_pubSup (q : Fin 4) (n : Nat) : (b.peak q n).pubSup = b.pubSup := rfl
@[simp] theorem peak_draws (q : Fin 4) (n : Nat) : (b.peak q n).draws = b.draws := rfl

@[simp] theorem dispatched_ident (h : Hdr) : (b.dispatched h).ident = b.ident := rfl
@[simp] theorem dispatched_time (h : Hdr) : (b.dispatched h).time = b.time := rfl
@[simp] theorem dispatched_link (h : Hdr) : (b.dispatched h).link = b.link := rfl
@[simp] theorem dispatched_vig (h : Hdr) : (b.dispatched h).vig = b.vig := rfl
@[simp] theorem dispatched_evt (h : Hdr) : (b.dispatched h).evt = b.evt := rfl
@[simp] theorem dispatched_diary (h : Hdr) : (b.dispatched h).diary = b.diary := rfl
@[simp] theorem dispatched_can (h : Hdr) : (b.dispatched h).can = b.can := rfl
@[simp] theorem dispatched_upd (h : Hdr) : (b.dispatched h).upd = b.upd := rfl
@[simp] theorem dispatched_sup (h : Hdr) : (b.dispatched h).sup = b.sup := rfl
@[simp] theorem dispatched_posted (h : Hdr) : (b.dispatched h).posted = b.posted := rfl
@[simp] theorem dispatched_eng (h : Hdr) : (b.dispatched h).eng = b.eng := rfl
@[simp] theorem dispatched_pub (h : Hdr) : (b.dispatched h).pub = b.pub := rfl
@[simp] theorem dispatched_pubTime (h : Hdr) : (b.dispatched h).pubTime = b.pubTime := rfl
@[simp] theorem dispatched_pubSup (h : Hdr) : (b.dispatched h).pubSup = b.pubSup := rfl
@[simp] theorem dispatched_draws (h : Hdr) : (b.dispatched h).draws = b.draws := rfl

@[simp] theorem modSess_ident (k : Sess) (f : Session → Session) : (b.modSess k f).ident = b.ident := rfl
@[simp] theorem modSess_regs (k : Sess) (f : Session → Session) : (b.modSess k f).regs = b.regs := rfl
@[simp] theorem modSess_time (k : Sess) (f : Session → Session) : (b.modSess k f).time = b.time := rfl
@[simp] theorem modSess_vig (k : Sess) (f : Session → Session) : (b.modSess k f).vig = b.vig := rfl
@[simp] theorem modSess_evt (k : Sess) (f : Session → Session) : (b.modSess k f).evt = b.evt := rfl
@[simp] theorem modSess_diary (k : Sess) (f : Session → Session) : (b.modSess k f).diary = b.diary := rfl
@[simp] theorem modSess_can (k : Sess) (f : Session → Session) : (b.modSess k f).can = b.can := rfl
@[simp] theorem modSess_upd (k : Sess) (f : Session → Session) : (b.modSess k f).upd = b.upd := rfl
@[simp] theorem modSess_sup (k : Sess) (f : Session → Session) : (b.modSess k f).sup = b.sup := rfl
@[simp] theorem modSess_posted (k : Sess) (f : Session → Session) : (b.modSess k f).posted = b.posted := rfl
@[simp] theorem modSess_eng (k : Sess) (f : Session → Session) : (b.modSess k f).eng = b.eng := rfl
@[simp] theorem modSess_pub (k : Sess) (f : Session → Session) : (b.modSess k f).pub = b.pub := rfl
@[simp] theorem modSess_pubTime (k : Sess) (f : Session → Session) : (b.modSess k f).pubTime = b.pubTime := rfl
@[simp] theorem modSess_pubSup (k : Sess) (f : Session → Session) : (b.modSess k f).pubSup = b.pubSup := rfl
@[simp] theorem modSess_draws (k : Sess) (f : Session → Session) : (b.modSess k f).draws = b.draws := rfl
@[simp] theorem modSess_word (k : Sess) (f : Session → Session) (z : Reg) (x y : Nat) : (b.modSess k f).word z x y = b.word z x y :=
    rfl
@[simp] theorem modSess_own (k : Sess) (f : Session → Session) : (b.modSess k f).link = b.link.modSess k f := rfl

@[simp] theorem setSessWord_ident (k : Sess) (r : Reg) (i : Nat) (v : Word) : (b.setSessWord k r i v).ident = b.ident :=
    rfl
@[simp] theorem setSessWord_regs (k : Sess) (r : Reg) (i : Nat) (v : Word) : (b.setSessWord k r i v).regs = b.regs :=
    rfl
@[simp] theorem setSessWord_time (k : Sess) (r : Reg) (i : Nat) (v : Word) : (b.setSessWord k r i v).time = b.time :=
    rfl
@[simp] theorem setSessWord_vig (k : Sess) (r : Reg) (i : Nat) (v : Word) : (b.setSessWord k r i v).vig = b.vig := rfl
@[simp] theorem setSessWord_evt (k : Sess) (r : Reg) (i : Nat) (v : Word) : (b.setSessWord k r i v).evt = b.evt := rfl
@[simp] theorem setSessWord_diary (k : Sess) (r : Reg) (i : Nat) (v : Word) : (b.setSessWord k r i v).diary = b.diary :=
    rfl
@[simp] theorem setSessWord_can (k : Sess) (r : Reg) (i : Nat) (v : Word) : (b.setSessWord k r i v).can = b.can := rfl
@[simp] theorem setSessWord_upd (k : Sess) (r : Reg) (i : Nat) (v : Word) : (b.setSessWord k r i v).upd = b.upd := rfl
@[simp] theorem setSessWord_sup (k : Sess) (r : Reg) (i : Nat) (v : Word) : (b.setSessWord k r i v).sup = b.sup := rfl
@[simp] theorem setSessWord_posted (k : Sess) (r : Reg) (i : Nat) (v : Word) : (b.setSessWord k r i v).posted = b.posted :=
    rfl
@[simp] theorem setSessWord_eng (k : Sess) (r : Reg) (i : Nat) (v : Word) : (b.setSessWord k r i v).eng = b.eng := rfl
@[simp] theorem setSessWord_pub (k : Sess) (r : Reg) (i : Nat) (v : Word) : (b.setSessWord k r i v).pub = b.pub := rfl
@[simp] theorem setSessWord_pubTime (k : Sess) (r : Reg) (i : Nat) (v : Word) : (b.setSessWord k r i v).pubTime = b.pubTime :=
    rfl
@[simp] theorem setSessWord_pubSup (k : Sess) (r : Reg) (i : Nat) (v : Word) : (b.setSessWord k r i v).pubSup = b.pubSup :=
    rfl
@[simp] theorem setSessWord_draws (k : Sess) (r : Reg) (i : Nat) (v : Word) : (b.setSessWord k r i v).draws = b.draws :=
    rfl
@[simp] theorem setSessWord_word (k : Sess) (r : Reg) (i : Nat) (v : Word) (z : Reg) (x y : Nat) : (b.setSessWord k r i v).word z x y = b.word z x y :=
    rfl

@[simp] theorem send_ident (p : Packet) (t : Nat) : (b.send p t).ident = b.ident := rfl
@[simp] theorem send_regs (p : Packet) (t : Nat) : (b.send p t).regs = b.regs := rfl
@[simp] theorem send_time (p : Packet) (t : Nat) : (b.send p t).time = b.time := rfl
@[simp] theorem send_vig (p : Packet) (t : Nat) : (b.send p t).vig = b.vig := rfl
@[simp] theorem send_evt (p : Packet) (t : Nat) : (b.send p t).evt = b.evt := rfl
@[simp] theorem send_diary (p : Packet) (t : Nat) : (b.send p t).diary = b.diary := rfl
@[simp] theorem send_can (p : Packet) (t : Nat) : (b.send p t).can = b.can := rfl
@[simp] theorem send_upd (p : Packet) (t : Nat) : (b.send p t).upd = b.upd := rfl
@[simp] theorem send_sup (p : Packet) (t : Nat) : (b.send p t).sup = b.sup := rfl
@[simp] theorem send_posted (p : Packet) (t : Nat) : (b.send p t).posted = b.posted := rfl
@[simp] theorem send_eng (p : Packet) (t : Nat) : (b.send p t).eng = b.eng := rfl
@[simp] theorem send_pub (p : Packet) (t : Nat) : (b.send p t).pub = b.pub := rfl
@[simp] theorem send_pubTime (p : Packet) (t : Nat) : (b.send p t).pubTime = b.pubTime := rfl
@[simp] theorem send_pubSup (p : Packet) (t : Nat) : (b.send p t).pubSup = b.pubSup := rfl
@[simp] theorem send_draws (p : Packet) (t : Nat) : (b.send p t).draws = b.draws := rfl
@[simp] theorem send_word (p : Packet) (t : Nat) (z : Reg) (x y : Nat) : (b.send p t).word z x y = b.word z x y := rfl
@[simp] theorem send_own (p : Packet) (t : Nat) : (b.send p t).link = { b.link with sent := b.link.sent ++ [p], tx := b.link.tx.put (max b.wireNow (b.now t)) p } :=
    rfl

@[simp] theorem arrives_ident (h : Hdr) : (b.arrives h).ident = b.ident := rfl
@[simp] theorem arrives_regs (h : Hdr) : (b.arrives h).regs = b.regs := rfl
@[simp] theorem arrives_time (h : Hdr) : (b.arrives h).time = b.time := rfl
@[simp] theorem arrives_vig (h : Hdr) : (b.arrives h).vig = b.vig := rfl
@[simp] theorem arrives_evt (h : Hdr) : (b.arrives h).evt = b.evt := rfl
@[simp] theorem arrives_diary (h : Hdr) : (b.arrives h).diary = b.diary := rfl
@[simp] theorem arrives_can (h : Hdr) : (b.arrives h).can = b.can := rfl
@[simp] theorem arrives_upd (h : Hdr) : (b.arrives h).upd = b.upd := rfl
@[simp] theorem arrives_sup (h : Hdr) : (b.arrives h).sup = b.sup := rfl
@[simp] theorem arrives_posted (h : Hdr) : (b.arrives h).posted = b.posted := rfl
@[simp] theorem arrives_eng (h : Hdr) : (b.arrives h).eng = b.eng := rfl
@[simp] theorem arrives_pub (h : Hdr) : (b.arrives h).pub = b.pub := rfl
@[simp] theorem arrives_pubTime (h : Hdr) : (b.arrives h).pubTime = b.pubTime := rfl
@[simp] theorem arrives_pubSup (h : Hdr) : (b.arrives h).pubSup = b.pubSup := rfl
@[simp] theorem arrives_draws (h : Hdr) : (b.arrives h).draws = b.draws := rfl
@[simp] theorem arrives_word (h : Hdr) (z : Reg) (x y : Nat) : (b.arrives h).word z x y = b.word z x y := rfl
@[simp] theorem arrives_own (h : Hdr) : (b.arrives h).link = { b.link with arrivals := b.link.arrivals + 1, arriveAt := b.arrivalAt h } :=
    rfl

@[simp] theorem reaches_ident (t : Nat) : (b.reaches t).ident = b.ident := rfl
@[simp] theorem reaches_regs (t : Nat) : (b.reaches t).regs = b.regs := rfl
@[simp] theorem reaches_link (t : Nat) : (b.reaches t).link = b.link := rfl
@[simp] theorem reaches_vig (t : Nat) : (b.reaches t).vig = b.vig := rfl
@[simp] theorem reaches_evt (t : Nat) : (b.reaches t).evt = b.evt := rfl
@[simp] theorem reaches_diary (t : Nat) : (b.reaches t).diary = b.diary := rfl
@[simp] theorem reaches_can (t : Nat) : (b.reaches t).can = b.can := rfl
@[simp] theorem reaches_upd (t : Nat) : (b.reaches t).upd = b.upd := rfl
@[simp] theorem reaches_sup (t : Nat) : (b.reaches t).sup = b.sup := rfl
@[simp] theorem reaches_posted (t : Nat) : (b.reaches t).posted = b.posted := rfl
@[simp] theorem reaches_eng (t : Nat) : (b.reaches t).eng = b.eng := rfl
@[simp] theorem reaches_pub (t : Nat) : (b.reaches t).pub = b.pub := rfl
@[simp] theorem reaches_pubTime (t : Nat) : (b.reaches t).pubTime = b.pubTime := rfl
@[simp] theorem reaches_pubSup (t : Nat) : (b.reaches t).pubSup = b.pubSup := rfl
@[simp] theorem reaches_draws (t : Nat) : (b.reaches t).draws = b.draws := rfl
@[simp] theorem reaches_word (t : Nat) (z : Reg) (x y : Nat) : (b.reaches t).word z x y = b.word z x y := rfl
@[simp] theorem reaches_own (t : Nat) : (b.reaches t).time = { b.time with hand := max b.time.hand t } := rfl

@[simp] theorem keepAlive_ident (k : Sess) (h : Hdr) : (b.keepAlive k h).ident = b.ident := rfl
@[simp] theorem keepAlive_regs (k : Sess) (h : Hdr) : (b.keepAlive k h).regs = b.regs := rfl
@[simp] theorem keepAlive_time (k : Sess) (h : Hdr) : (b.keepAlive k h).time = b.time := rfl
@[simp] theorem keepAlive_vig (k : Sess) (h : Hdr) : (b.keepAlive k h).vig = b.vig := rfl
@[simp] theorem keepAlive_evt (k : Sess) (h : Hdr) : (b.keepAlive k h).evt = b.evt := rfl
@[simp] theorem keepAlive_diary (k : Sess) (h : Hdr) : (b.keepAlive k h).diary = b.diary := rfl
@[simp] theorem keepAlive_can (k : Sess) (h : Hdr) : (b.keepAlive k h).can = b.can := rfl
@[simp] theorem keepAlive_upd (k : Sess) (h : Hdr) : (b.keepAlive k h).upd = b.upd := rfl
@[simp] theorem keepAlive_sup (k : Sess) (h : Hdr) : (b.keepAlive k h).sup = b.sup := rfl
@[simp] theorem keepAlive_posted (k : Sess) (h : Hdr) : (b.keepAlive k h).posted = b.posted := rfl
@[simp] theorem keepAlive_eng (k : Sess) (h : Hdr) : (b.keepAlive k h).eng = b.eng := rfl
@[simp] theorem keepAlive_pub (k : Sess) (h : Hdr) : (b.keepAlive k h).pub = b.pub := rfl
@[simp] theorem keepAlive_pubTime (k : Sess) (h : Hdr) : (b.keepAlive k h).pubTime = b.pubTime := rfl
@[simp] theorem keepAlive_pubSup (k : Sess) (h : Hdr) : (b.keepAlive k h).pubSup = b.pubSup := rfl
@[simp] theorem keepAlive_draws (k : Sess) (h : Hdr) : (b.keepAlive k h).draws = b.draws := rfl
@[simp] theorem keepAlive_word (k : Sess) (h : Hdr) (z : Reg) (x y : Nat) : (b.keepAlive k h).word z x y = b.word z x y :=
    rfl
@[simp] theorem keepAlive_own (k : Sess) (h : Hdr) : (b.keepAlive k h).link = b.link.modSess k (fun s => { s with since := b.now h.at_ }) :=
    rfl

@[simp] theorem begins_ident (q : Nat) (k : Sess) (h : Hdr) (op : BitVec 16) (e : Until) (w : Bool) : (b.begins q k h op e w).ident = b.ident :=
    rfl
@[simp] theorem begins_regs (q : Nat) (k : Sess) (h : Hdr) (op : BitVec 16) (e : Until) (w : Bool) : (b.begins q k h op e w).regs = b.regs :=
    rfl
@[simp] theorem begins_time (q : Nat) (k : Sess) (h : Hdr) (op : BitVec 16) (e : Until) (w : Bool) : (b.begins q k h op e w).time = b.time :=
    rfl
@[simp] theorem begins_vig (q : Nat) (k : Sess) (h : Hdr) (op : BitVec 16) (e : Until) (w : Bool) : (b.begins q k h op e w).vig = b.vig :=
    rfl
@[simp] theorem begins_evt (q : Nat) (k : Sess) (h : Hdr) (op : BitVec 16) (e : Until) (w : Bool) : (b.begins q k h op e w).evt = b.evt :=
    rfl
@[simp] theorem begins_diary (q : Nat) (k : Sess) (h : Hdr) (op : BitVec 16) (e : Until) (w : Bool) : (b.begins q k h op e w).diary = b.diary :=
    rfl
@[simp] theorem begins_can (q : Nat) (k : Sess) (h : Hdr) (op : BitVec 16) (e : Until) (w : Bool) : (b.begins q k h op e w).can = b.can :=
    rfl
@[simp] theorem begins_upd (q : Nat) (k : Sess) (h : Hdr) (op : BitVec 16) (e : Until) (w : Bool) : (b.begins q k h op e w).upd = b.upd :=
    rfl
@[simp] theorem begins_sup (q : Nat) (k : Sess) (h : Hdr) (op : BitVec 16) (e : Until) (w : Bool) : (b.begins q k h op e w).sup = b.sup :=
    rfl
@[simp] theorem begins_posted (q : Nat) (k : Sess) (h : Hdr) (op : BitVec 16) (e : Until) (w : Bool) : (b.begins q k h op e w).posted = b.posted :=
    rfl
@[simp] theorem begins_eng (q : Nat) (k : Sess) (h : Hdr) (op : BitVec 16) (e : Until) (w : Bool) : (b.begins q k h op e w).eng = b.eng :=
    rfl
@[simp] theorem begins_pub (q : Nat) (k : Sess) (h : Hdr) (op : BitVec 16) (e : Until) (w : Bool) : (b.begins q k h op e w).pub = b.pub :=
    rfl
@[simp] theorem begins_pubTime (q : Nat) (k : Sess) (h : Hdr) (op : BitVec 16) (e : Until) (w : Bool) : (b.begins q k h op e w).pubTime = b.pubTime :=
    rfl
@[simp] theorem begins_pubSup (q : Nat) (k : Sess) (h : Hdr) (op : BitVec 16) (e : Until) (w : Bool) : (b.begins q k h op e w).pubSup = b.pubSup :=
    rfl
@[simp] theorem begins_draws (q : Nat) (k : Sess) (h : Hdr) (op : BitVec 16) (e : Until) (w : Bool) : (b.begins q k h op e w).draws = b.draws :=
    rfl
@[simp] theorem begins_word (q : Nat) (k : Sess) (h : Hdr) (op : BitVec 16) (e : Until) (w : Bool) (z : Reg) (x y : Nat) : (b.begins q k h op e w).word z x y = b.word z x y :=
    rfl

@[simp] theorem completes_ident (q : Nat) : (b.completes q).ident = b.ident := rfl
@[simp] theorem completes_regs (q : Nat) : (b.completes q).regs = b.regs := rfl
@[simp] theorem completes_time (q : Nat) : (b.completes q).time = b.time := rfl
@[simp] theorem completes_vig (q : Nat) : (b.completes q).vig = b.vig := rfl
@[simp] theorem completes_evt (q : Nat) : (b.completes q).evt = b.evt := rfl
@[simp] theorem completes_diary (q : Nat) : (b.completes q).diary = b.diary := rfl
@[simp] theorem completes_can (q : Nat) : (b.completes q).can = b.can := rfl
@[simp] theorem completes_upd (q : Nat) : (b.completes q).upd = b.upd := rfl
@[simp] theorem completes_sup (q : Nat) : (b.completes q).sup = b.sup := rfl
@[simp] theorem completes_posted (q : Nat) : (b.completes q).posted = b.posted := rfl
@[simp] theorem completes_eng (q : Nat) : (b.completes q).eng = b.eng := rfl
@[simp] theorem completes_pub (q : Nat) : (b.completes q).pub = b.pub := rfl
@[simp] theorem completes_pubTime (q : Nat) : (b.completes q).pubTime = b.pubTime := rfl
@[simp] theorem completes_pubSup (q : Nat) : (b.completes q).pubSup = b.pubSup := rfl
@[simp] theorem completes_draws (q : Nat) : (b.completes q).draws = b.draws := rfl
@[simp] theorem completes_word (q : Nat) (z : Reg) (x y : Nat) : (b.completes q).word z x y = b.word z x y := rfl

@[simp] theorem enqueue_ident (w : Waiting) : (b.enqueue w).ident = b.ident := rfl
@[simp] theorem enqueue_regs (w : Waiting) : (b.enqueue w).regs = b.regs := rfl
@[simp] theorem enqueue_time (w : Waiting) : (b.enqueue w).time = b.time := rfl
@[simp] theorem enqueue_vig (w : Waiting) : (b.enqueue w).vig = b.vig := rfl
@[simp] theorem enqueue_evt (w : Waiting) : (b.enqueue w).evt = b.evt := rfl
@[simp] theorem enqueue_diary (w : Waiting) : (b.enqueue w).diary = b.diary := rfl
@[simp] theorem enqueue_can (w : Waiting) : (b.enqueue w).can = b.can := rfl
@[simp] theorem enqueue_upd (w : Waiting) : (b.enqueue w).upd = b.upd := rfl
@[simp] theorem enqueue_sup (w : Waiting) : (b.enqueue w).sup = b.sup := rfl
@[simp] theorem enqueue_posted (w : Waiting) : (b.enqueue w).posted = b.posted := rfl
@[simp] theorem enqueue_eng (w : Waiting) : (b.enqueue w).eng = b.eng := rfl
@[simp] theorem enqueue_pub (w : Waiting) : (b.enqueue w).pub = b.pub := rfl
@[simp] theorem enqueue_pubTime (w : Waiting) : (b.enqueue w).pubTime = b.pubTime := rfl
@[simp] theorem enqueue_pubSup (w : Waiting) : (b.enqueue w).pubSup = b.pubSup := rfl
@[simp] theorem enqueue_draws (w : Waiting) : (b.enqueue w).draws = b.draws := rfl
@[simp] theorem enqueue_word (w : Waiting) (z : Reg) (x y : Nat) : (b.enqueue w).word z x y = b.word z x y := rfl

@[simp] theorem modLink_ident (f : Link → Link) : (b.modLink f).ident = b.ident := rfl
@[simp] theorem modLink_regs (f : Link → Link) : (b.modLink f).regs = b.regs := rfl
@[simp] theorem modLink_time (f : Link → Link) : (b.modLink f).time = b.time := rfl
@[simp] theorem modLink_vig (f : Link → Link) : (b.modLink f).vig = b.vig := rfl
@[simp] theorem modLink_evt (f : Link → Link) : (b.modLink f).evt = b.evt := rfl
@[simp] theorem modLink_diary (f : Link → Link) : (b.modLink f).diary = b.diary := rfl
@[simp] theorem modLink_can (f : Link → Link) : (b.modLink f).can = b.can := rfl
@[simp] theorem modLink_upd (f : Link → Link) : (b.modLink f).upd = b.upd := rfl
@[simp] theorem modLink_sup (f : Link → Link) : (b.modLink f).sup = b.sup := rfl
@[simp] theorem modLink_posted (f : Link → Link) : (b.modLink f).posted = b.posted := rfl
@[simp] theorem modLink_eng (f : Link → Link) : (b.modLink f).eng = b.eng := rfl
@[simp] theorem modLink_pub (f : Link → Link) : (b.modLink f).pub = b.pub := rfl
@[simp] theorem modLink_pubTime (f : Link → Link) : (b.modLink f).pubTime = b.pubTime := rfl
@[simp] theorem modLink_pubSup (f : Link → Link) : (b.modLink f).pubSup = b.pubSup := rfl
@[simp] theorem modLink_draws (f : Link → Link) : (b.modLink f).draws = b.draws := rfl
@[simp] theorem modLink_word (f : Link → Link) (z : Reg) (x y : Nat) : (b.modLink f).word z x y = b.word z x y := rfl
@[simp] theorem modLink_own (f : Link → Link) : (b.modLink f).link = f b.link := rfl

@[simp] theorem modTxn_ident (k : Sess) (f : Txn → Txn) : (b.modTxn k f).ident = b.ident := rfl
@[simp] theorem modTxn_regs (k : Sess) (f : Txn → Txn) : (b.modTxn k f).regs = b.regs := rfl
@[simp] theorem modTxn_time (k : Sess) (f : Txn → Txn) : (b.modTxn k f).time = b.time := rfl
@[simp] theorem modTxn_vig (k : Sess) (f : Txn → Txn) : (b.modTxn k f).vig = b.vig := rfl
@[simp] theorem modTxn_evt (k : Sess) (f : Txn → Txn) : (b.modTxn k f).evt = b.evt := rfl
@[simp] theorem modTxn_diary (k : Sess) (f : Txn → Txn) : (b.modTxn k f).diary = b.diary := rfl
@[simp] theorem modTxn_can (k : Sess) (f : Txn → Txn) : (b.modTxn k f).can = b.can := rfl
@[simp] theorem modTxn_upd (k : Sess) (f : Txn → Txn) : (b.modTxn k f).upd = b.upd := rfl
@[simp] theorem modTxn_sup (k : Sess) (f : Txn → Txn) : (b.modTxn k f).sup = b.sup := rfl
@[simp] theorem modTxn_posted (k : Sess) (f : Txn → Txn) : (b.modTxn k f).posted = b.posted := rfl
@[simp] theorem modTxn_eng (k : Sess) (f : Txn → Txn) : (b.modTxn k f).eng = b.eng := rfl
@[simp] theorem modTxn_pub (k : Sess) (f : Txn → Txn) : (b.modTxn k f).pub = b.pub := rfl
@[simp] theorem modTxn_pubTime (k : Sess) (f : Txn → Txn) : (b.modTxn k f).pubTime = b.pubTime := rfl
@[simp] theorem modTxn_pubSup (k : Sess) (f : Txn → Txn) : (b.modTxn k f).pubSup = b.pubSup := rfl
@[simp] theorem modTxn_draws (k : Sess) (f : Txn → Txn) : (b.modTxn k f).draws = b.draws := rfl
@[simp] theorem modTxn_word (k : Sess) (f : Txn → Txn) (z : Reg) (x y : Nat) : (b.modTxn k f).word z x y = b.word z x y :=
    rfl

@[simp] theorem setUnit_ident (u : Nat) (f : UnitEntry → UnitEntry) : (b.setUnit u f).ident = b.ident := rfl
@[simp] theorem setUnit_regs (u : Nat) (f : UnitEntry → UnitEntry) : (b.setUnit u f).regs = b.regs := rfl
@[simp] theorem setUnit_time (u : Nat) (f : UnitEntry → UnitEntry) : (b.setUnit u f).time = b.time := rfl
@[simp] theorem setUnit_link (u : Nat) (f : UnitEntry → UnitEntry) : (b.setUnit u f).link = b.link := rfl
@[simp] theorem setUnit_evt (u : Nat) (f : UnitEntry → UnitEntry) : (b.setUnit u f).evt = b.evt := rfl
@[simp] theorem setUnit_diary (u : Nat) (f : UnitEntry → UnitEntry) : (b.setUnit u f).diary = b.diary := rfl
@[simp] theorem setUnit_can (u : Nat) (f : UnitEntry → UnitEntry) : (b.setUnit u f).can = b.can := rfl
@[simp] theorem setUnit_upd (u : Nat) (f : UnitEntry → UnitEntry) : (b.setUnit u f).upd = b.upd := rfl
@[simp] theorem setUnit_sup (u : Nat) (f : UnitEntry → UnitEntry) : (b.setUnit u f).sup = b.sup := rfl
@[simp] theorem setUnit_posted (u : Nat) (f : UnitEntry → UnitEntry) : (b.setUnit u f).posted = b.posted := rfl
@[simp] theorem setUnit_eng (u : Nat) (f : UnitEntry → UnitEntry) : (b.setUnit u f).eng = b.eng := rfl
@[simp] theorem setUnit_pub (u : Nat) (f : UnitEntry → UnitEntry) : (b.setUnit u f).pub = b.pub := rfl
@[simp] theorem setUnit_pubTime (u : Nat) (f : UnitEntry → UnitEntry) : (b.setUnit u f).pubTime = b.pubTime := rfl
@[simp] theorem setUnit_pubSup (u : Nat) (f : UnitEntry → UnitEntry) : (b.setUnit u f).pubSup = b.pubSup := rfl
@[simp] theorem setUnit_draws (u : Nat) (f : UnitEntry → UnitEntry) : (b.setUnit u f).draws = b.draws := rfl
@[simp] theorem setUnit_word (u : Nat) (f : UnitEntry → UnitEntry) (z : Reg) (x y : Nat) : (b.setUnit u f).word z x y = b.word z x y :=
    rfl

@[simp] theorem postUnit_ident (q : UnitReq) : (b.postUnit q).ident = b.ident := rfl
@[simp] theorem postUnit_regs (q : UnitReq) : (b.postUnit q).regs = b.regs := rfl
@[simp] theorem postUnit_time (q : UnitReq) : (b.postUnit q).time = b.time := rfl
@[simp] theorem postUnit_link (q : UnitReq) : (b.postUnit q).link = b.link := rfl
@[simp] theorem postUnit_evt (q : UnitReq) : (b.postUnit q).evt = b.evt := rfl
@[simp] theorem postUnit_diary (q : UnitReq) : (b.postUnit q).diary = b.diary := rfl
@[simp] theorem postUnit_can (q : UnitReq) : (b.postUnit q).can = b.can := rfl
@[simp] theorem postUnit_upd (q : UnitReq) : (b.postUnit q).upd = b.upd := rfl
@[simp] theorem postUnit_sup (q : UnitReq) : (b.postUnit q).sup = b.sup := rfl
@[simp] theorem postUnit_posted (q : UnitReq) : (b.postUnit q).posted = b.posted := rfl
@[simp] theorem postUnit_eng (q : UnitReq) : (b.postUnit q).eng = b.eng := rfl
@[simp] theorem postUnit_pub (q : UnitReq) : (b.postUnit q).pub = b.pub := rfl
@[simp] theorem postUnit_pubTime (q : UnitReq) : (b.postUnit q).pubTime = b.pubTime := rfl
@[simp] theorem postUnit_pubSup (q : UnitReq) : (b.postUnit q).pubSup = b.pubSup := rfl
@[simp] theorem postUnit_draws (q : UnitReq) : (b.postUnit q).draws = b.draws := rfl
@[simp] theorem postUnit_word (q : UnitReq) (z : Reg) (x y : Nat) : (b.postUnit q).word z x y = b.word z x y := rfl

@[simp] theorem modVig_ident (f : Vigil → Vigil) : (b.modVig f).ident = b.ident := rfl
@[simp] theorem modVig_regs (f : Vigil → Vigil) : (b.modVig f).regs = b.regs := rfl
@[simp] theorem modVig_time (f : Vigil → Vigil) : (b.modVig f).time = b.time := rfl
@[simp] theorem modVig_link (f : Vigil → Vigil) : (b.modVig f).link = b.link := rfl
@[simp] theorem modVig_evt (f : Vigil → Vigil) : (b.modVig f).evt = b.evt := rfl
@[simp] theorem modVig_diary (f : Vigil → Vigil) : (b.modVig f).diary = b.diary := rfl
@[simp] theorem modVig_can (f : Vigil → Vigil) : (b.modVig f).can = b.can := rfl
@[simp] theorem modVig_upd (f : Vigil → Vigil) : (b.modVig f).upd = b.upd := rfl
@[simp] theorem modVig_sup (f : Vigil → Vigil) : (b.modVig f).sup = b.sup := rfl
@[simp] theorem modVig_posted (f : Vigil → Vigil) : (b.modVig f).posted = b.posted := rfl
@[simp] theorem modVig_eng (f : Vigil → Vigil) : (b.modVig f).eng = b.eng := rfl
@[simp] theorem modVig_pub (f : Vigil → Vigil) : (b.modVig f).pub = b.pub := rfl
@[simp] theorem modVig_pubTime (f : Vigil → Vigil) : (b.modVig f).pubTime = b.pubTime := rfl
@[simp] theorem modVig_pubSup (f : Vigil → Vigil) : (b.modVig f).pubSup = b.pubSup := rfl
@[simp] theorem modVig_draws (f : Vigil → Vigil) : (b.modVig f).draws = b.draws := rfl
@[simp] theorem modVig_word (f : Vigil → Vigil) (z : Reg) (x y : Nat) : (b.modVig f).word z x y = b.word z x y := rfl
@[simp] theorem modVig_own (f : Vigil → Vigil) : (b.modVig f).vig = f b.vig := rfl

@[simp] theorem modTime_ident (f : Time → Time) : (b.modTime f).ident = b.ident := rfl
@[simp] theorem modTime_regs (f : Time → Time) : (b.modTime f).regs = b.regs := rfl
@[simp] theorem modTime_link (f : Time → Time) : (b.modTime f).link = b.link := rfl
@[simp] theorem modTime_vig (f : Time → Time) : (b.modTime f).vig = b.vig := rfl
@[simp] theorem modTime_evt (f : Time → Time) : (b.modTime f).evt = b.evt := rfl
@[simp] theorem modTime_diary (f : Time → Time) : (b.modTime f).diary = b.diary := rfl
@[simp] theorem modTime_can (f : Time → Time) : (b.modTime f).can = b.can := rfl
@[simp] theorem modTime_upd (f : Time → Time) : (b.modTime f).upd = b.upd := rfl
@[simp] theorem modTime_sup (f : Time → Time) : (b.modTime f).sup = b.sup := rfl
@[simp] theorem modTime_posted (f : Time → Time) : (b.modTime f).posted = b.posted := rfl
@[simp] theorem modTime_eng (f : Time → Time) : (b.modTime f).eng = b.eng := rfl
@[simp] theorem modTime_pub (f : Time → Time) : (b.modTime f).pub = b.pub := rfl
@[simp] theorem modTime_pubTime (f : Time → Time) : (b.modTime f).pubTime = b.pubTime := rfl
@[simp] theorem modTime_pubSup (f : Time → Time) : (b.modTime f).pubSup = b.pubSup := rfl
@[simp] theorem modTime_draws (f : Time → Time) : (b.modTime f).draws = b.draws := rfl
@[simp] theorem modTime_word (f : Time → Time) (z : Reg) (x y : Nat) : (b.modTime f).word z x y = b.word z x y := rfl
@[simp] theorem modTime_own (f : Time → Time) : (b.modTime f).time = f b.time := rfl

@[simp] theorem modCan_ident (f : Can → Can) : (b.modCan f).ident = b.ident := rfl
@[simp] theorem modCan_regs (f : Can → Can) : (b.modCan f).regs = b.regs := rfl
@[simp] theorem modCan_time (f : Can → Can) : (b.modCan f).time = b.time := rfl
@[simp] theorem modCan_link (f : Can → Can) : (b.modCan f).link = b.link := rfl
@[simp] theorem modCan_vig (f : Can → Can) : (b.modCan f).vig = b.vig := rfl
@[simp] theorem modCan_evt (f : Can → Can) : (b.modCan f).evt = b.evt := rfl
@[simp] theorem modCan_diary (f : Can → Can) : (b.modCan f).diary = b.diary := rfl
@[simp] theorem modCan_upd (f : Can → Can) : (b.modCan f).upd = b.upd := rfl
@[simp] theorem modCan_sup (f : Can → Can) : (b.modCan f).sup = b.sup := rfl
@[simp] theorem modCan_posted (f : Can → Can) : (b.modCan f).posted = b.posted := rfl
@[simp] theorem modCan_eng (f : Can → Can) : (b.modCan f).eng = b.eng := rfl
@[simp] theorem modCan_pub (f : Can → Can) : (b.modCan f).pub = b.pub := rfl
@[simp] theorem modCan_pubTime (f : Can → Can) : (b.modCan f).pubTime = b.pubTime := rfl
@[simp] theorem modCan_pubSup (f : Can → Can) : (b.modCan f).pubSup = b.pubSup := rfl
@[simp] theorem modCan_draws (f : Can → Can) : (b.modCan f).draws = b.draws := rfl
@[simp] theorem modCan_word (f : Can → Can) (z : Reg) (x y : Nat) : (b.modCan f).word z x y = b.word z x y := rfl
@[simp] theorem modCan_own (f : Can → Can) : (b.modCan f).can = f b.can := rfl

@[simp] theorem modUpd_ident (f : Update → Update) : (b.modUpd f).ident = b.ident := rfl
@[simp] theorem modUpd_regs (f : Update → Update) : (b.modUpd f).regs = b.regs := rfl
@[simp] theorem modUpd_time (f : Update → Update) : (b.modUpd f).time = b.time := rfl
@[simp] theorem modUpd_link (f : Update → Update) : (b.modUpd f).link = b.link := rfl
@[simp] theorem modUpd_vig (f : Update → Update) : (b.modUpd f).vig = b.vig := rfl
@[simp] theorem modUpd_evt (f : Update → Update) : (b.modUpd f).evt = b.evt := rfl
@[simp] theorem modUpd_diary (f : Update → Update) : (b.modUpd f).diary = b.diary := rfl
@[simp] theorem modUpd_can (f : Update → Update) : (b.modUpd f).can = b.can := rfl
@[simp] theorem modUpd_sup (f : Update → Update) : (b.modUpd f).sup = b.sup := rfl
@[simp] theorem modUpd_posted (f : Update → Update) : (b.modUpd f).posted = b.posted := rfl
@[simp] theorem modUpd_eng (f : Update → Update) : (b.modUpd f).eng = b.eng := rfl
@[simp] theorem modUpd_pub (f : Update → Update) : (b.modUpd f).pub = b.pub := rfl
@[simp] theorem modUpd_pubTime (f : Update → Update) : (b.modUpd f).pubTime = b.pubTime := rfl
@[simp] theorem modUpd_pubSup (f : Update → Update) : (b.modUpd f).pubSup = b.pubSup := rfl
@[simp] theorem modUpd_draws (f : Update → Update) : (b.modUpd f).draws = b.draws := rfl
@[simp] theorem modUpd_word (f : Update → Update) (z : Reg) (x y : Nat) : (b.modUpd f).word z x y = b.word z x y :=
    rfl
@[simp] theorem modUpd_own (f : Update → Update) : (b.modUpd f).upd = f b.upd := rfl

@[simp] theorem modSup_ident (f : Supply → Supply) : (b.modSup f).ident = b.ident := rfl
@[simp] theorem modSup_regs (f : Supply → Supply) : (b.modSup f).regs = b.regs := rfl
@[simp] theorem modSup_time (f : Supply → Supply) : (b.modSup f).time = b.time := rfl
@[simp] theorem modSup_link (f : Supply → Supply) : (b.modSup f).link = b.link := rfl
@[simp] theorem modSup_vig (f : Supply → Supply) : (b.modSup f).vig = b.vig := rfl
@[simp] theorem modSup_evt (f : Supply → Supply) : (b.modSup f).evt = b.evt := rfl
@[simp] theorem modSup_diary (f : Supply → Supply) : (b.modSup f).diary = b.diary := rfl
@[simp] theorem modSup_can (f : Supply → Supply) : (b.modSup f).can = b.can := rfl
@[simp] theorem modSup_upd (f : Supply → Supply) : (b.modSup f).upd = b.upd := rfl
@[simp] theorem modSup_posted (f : Supply → Supply) : (b.modSup f).posted = b.posted := rfl
@[simp] theorem modSup_eng (f : Supply → Supply) : (b.modSup f).eng = b.eng := rfl
@[simp] theorem modSup_pub (f : Supply → Supply) : (b.modSup f).pub = b.pub := rfl
@[simp] theorem modSup_pubTime (f : Supply → Supply) : (b.modSup f).pubTime = b.pubTime := rfl
@[simp] theorem modSup_pubSup (f : Supply → Supply) : (b.modSup f).pubSup = b.pubSup := rfl
@[simp] theorem modSup_draws (f : Supply → Supply) : (b.modSup f).draws = b.draws := rfl
@[simp] theorem modSup_word (f : Supply → Supply) (z : Reg) (x y : Nat) : (b.modSup f).word z x y = b.word z x y :=
    rfl
@[simp] theorem modSup_own (f : Supply → Supply) : (b.modSup f).sup = f b.sup := rfl

@[simp] theorem modPwr_ident (f : Power → Power) : (b.modPwr f).ident = b.ident := rfl
@[simp] theorem modPwr_regs (f : Power → Power) : (b.modPwr f).regs = b.regs := rfl
@[simp] theorem modPwr_time (f : Power → Power) : (b.modPwr f).time = b.time := rfl
@[simp] theorem modPwr_link (f : Power → Power) : (b.modPwr f).link = b.link := rfl
@[simp] theorem modPwr_vig (f : Power → Power) : (b.modPwr f).vig = b.vig := rfl
@[simp] theorem modPwr_evt (f : Power → Power) : (b.modPwr f).evt = b.evt := rfl
@[simp] theorem modPwr_diary (f : Power → Power) : (b.modPwr f).diary = b.diary := rfl
@[simp] theorem modPwr_can (f : Power → Power) : (b.modPwr f).can = b.can := rfl
@[simp] theorem modPwr_upd (f : Power → Power) : (b.modPwr f).upd = b.upd := rfl
@[simp] theorem modPwr_sup (f : Power → Power) : (b.modPwr f).sup = b.sup := rfl
@[simp] theorem modPwr_posted (f : Power → Power) : (b.modPwr f).posted = b.posted := rfl
@[simp] theorem modPwr_pub (f : Power → Power) : (b.modPwr f).pub = b.pub := rfl
@[simp] theorem modPwr_pubTime (f : Power → Power) : (b.modPwr f).pubTime = b.pubTime := rfl
@[simp] theorem modPwr_pubSup (f : Power → Power) : (b.modPwr f).pubSup = b.pubSup := rfl
@[simp] theorem modPwr_draws (f : Power → Power) : (b.modPwr f).draws = b.draws := rfl
@[simp] theorem modPwr_word (f : Power → Power) (z : Reg) (x y : Nat) : (b.modPwr f).word z x y = b.word z x y := rfl
@[simp] theorem modPwr_lsw (f : Power → Power) : (b.modPwr f).eng.lsw = b.eng.lsw := rfl
@[simp] theorem modPwr_fb (f : Power → Power) : (b.modPwr f).eng.fb = b.eng.fb := rfl
@[simp] theorem modPwr_pose (f : Power → Power) : (b.modPwr f).eng.pose = b.eng.pose := rfl
@[simp] theorem modPwr_map (f : Power → Power) : (b.modPwr f).eng.map = b.eng.map := rfl
@[simp] theorem modPwr_valve (f : Power → Power) : (b.modPwr f).eng.valve = b.eng.valve := rfl
@[simp] theorem modPwr_alm (f : Power → Power) : (b.modPwr f).eng.alm = b.eng.alm := rfl
@[simp] theorem modPwr_mot (f : Power → Power) : (b.modPwr f).eng.mot = b.eng.mot := rfl
@[simp] theorem modPwr_loop (f : Power → Power) : (b.modPwr f).eng.loop = b.eng.loop := rfl
@[simp] theorem modPwr_own (f : Power → Power) : (b.modPwr f).eng.pwr = f b.eng.pwr := rfl

@[simp] theorem modSw_ident (k : Nat) (f : Lsw → Lsw) : (b.modSw k f).ident = b.ident := rfl
@[simp] theorem modSw_regs (k : Nat) (f : Lsw → Lsw) : (b.modSw k f).regs = b.regs := rfl
@[simp] theorem modSw_time (k : Nat) (f : Lsw → Lsw) : (b.modSw k f).time = b.time := rfl
@[simp] theorem modSw_link (k : Nat) (f : Lsw → Lsw) : (b.modSw k f).link = b.link := rfl
@[simp] theorem modSw_vig (k : Nat) (f : Lsw → Lsw) : (b.modSw k f).vig = b.vig := rfl
@[simp] theorem modSw_evt (k : Nat) (f : Lsw → Lsw) : (b.modSw k f).evt = b.evt := rfl
@[simp] theorem modSw_diary (k : Nat) (f : Lsw → Lsw) : (b.modSw k f).diary = b.diary := rfl
@[simp] theorem modSw_can (k : Nat) (f : Lsw → Lsw) : (b.modSw k f).can = b.can := rfl
@[simp] theorem modSw_upd (k : Nat) (f : Lsw → Lsw) : (b.modSw k f).upd = b.upd := rfl
@[simp] theorem modSw_sup (k : Nat) (f : Lsw → Lsw) : (b.modSw k f).sup = b.sup := rfl
@[simp] theorem modSw_posted (k : Nat) (f : Lsw → Lsw) : (b.modSw k f).posted = b.posted := rfl
@[simp] theorem modSw_pub (k : Nat) (f : Lsw → Lsw) : (b.modSw k f).pub = b.pub := rfl
@[simp] theorem modSw_pubTime (k : Nat) (f : Lsw → Lsw) : (b.modSw k f).pubTime = b.pubTime := rfl
@[simp] theorem modSw_pubSup (k : Nat) (f : Lsw → Lsw) : (b.modSw k f).pubSup = b.pubSup := rfl
@[simp] theorem modSw_draws (k : Nat) (f : Lsw → Lsw) : (b.modSw k f).draws = b.draws := rfl
@[simp] theorem modSw_word (k : Nat) (f : Lsw → Lsw) (z : Reg) (x y : Nat) : (b.modSw k f).word z x y = b.word z x y :=
    rfl
@[simp] theorem modSw_pwr (k : Nat) (f : Lsw → Lsw) : (b.modSw k f).eng.pwr = b.eng.pwr := rfl
@[simp] theorem modSw_fb (k : Nat) (f : Lsw → Lsw) : (b.modSw k f).eng.fb = b.eng.fb := rfl
@[simp] theorem modSw_pose (k : Nat) (f : Lsw → Lsw) : (b.modSw k f).eng.pose = b.eng.pose := rfl
@[simp] theorem modSw_map (k : Nat) (f : Lsw → Lsw) : (b.modSw k f).eng.map = b.eng.map := rfl
@[simp] theorem modSw_valve (k : Nat) (f : Lsw → Lsw) : (b.modSw k f).eng.valve = b.eng.valve := rfl
@[simp] theorem modSw_alm (k : Nat) (f : Lsw → Lsw) : (b.modSw k f).eng.alm = b.eng.alm := rfl
@[simp] theorem modSw_mot (k : Nat) (f : Lsw → Lsw) : (b.modSw k f).eng.mot = b.eng.mot := rfl
@[simp] theorem modSw_loop (k : Nat) (f : Lsw → Lsw) : (b.modSw k f).eng.loop = b.eng.loop := rfl
@[simp] theorem modSw_own (k : Nat) (f : Lsw → Lsw) : (b.modSw k f).eng.lsw = modNth b.eng.lsw k f := rfl

@[simp] theorem modFb_ident (f : Feedback → Feedback) : (b.modFb f).ident = b.ident := rfl
@[simp] theorem modFb_regs (f : Feedback → Feedback) : (b.modFb f).regs = b.regs := rfl
@[simp] theorem modFb_time (f : Feedback → Feedback) : (b.modFb f).time = b.time := rfl
@[simp] theorem modFb_link (f : Feedback → Feedback) : (b.modFb f).link = b.link := rfl
@[simp] theorem modFb_vig (f : Feedback → Feedback) : (b.modFb f).vig = b.vig := rfl
@[simp] theorem modFb_evt (f : Feedback → Feedback) : (b.modFb f).evt = b.evt := rfl
@[simp] theorem modFb_diary (f : Feedback → Feedback) : (b.modFb f).diary = b.diary := rfl
@[simp] theorem modFb_can (f : Feedback → Feedback) : (b.modFb f).can = b.can := rfl
@[simp] theorem modFb_upd (f : Feedback → Feedback) : (b.modFb f).upd = b.upd := rfl
@[simp] theorem modFb_sup (f : Feedback → Feedback) : (b.modFb f).sup = b.sup := rfl
@[simp] theorem modFb_posted (f : Feedback → Feedback) : (b.modFb f).posted = b.posted := rfl
@[simp] theorem modFb_pub (f : Feedback → Feedback) : (b.modFb f).pub = b.pub := rfl
@[simp] theorem modFb_pubTime (f : Feedback → Feedback) : (b.modFb f).pubTime = b.pubTime := rfl
@[simp] theorem modFb_pubSup (f : Feedback → Feedback) : (b.modFb f).pubSup = b.pubSup := rfl
@[simp] theorem modFb_draws (f : Feedback → Feedback) : (b.modFb f).draws = b.draws := rfl
@[simp] theorem modFb_word (f : Feedback → Feedback) (z : Reg) (x y : Nat) : (b.modFb f).word z x y = b.word z x y :=
    rfl
@[simp] theorem modFb_pwr (f : Feedback → Feedback) : (b.modFb f).eng.pwr = b.eng.pwr := rfl
@[simp] theorem modFb_lsw (f : Feedback → Feedback) : (b.modFb f).eng.lsw = b.eng.lsw := rfl
@[simp] theorem modFb_pose (f : Feedback → Feedback) : (b.modFb f).eng.pose = b.eng.pose := rfl
@[simp] theorem modFb_map (f : Feedback → Feedback) : (b.modFb f).eng.map = b.eng.map := rfl
@[simp] theorem modFb_valve (f : Feedback → Feedback) : (b.modFb f).eng.valve = b.eng.valve := rfl
@[simp] theorem modFb_alm (f : Feedback → Feedback) : (b.modFb f).eng.alm = b.eng.alm := rfl
@[simp] theorem modFb_mot (f : Feedback → Feedback) : (b.modFb f).eng.mot = b.eng.mot := rfl
@[simp] theorem modFb_loop (f : Feedback → Feedback) : (b.modFb f).eng.loop = b.eng.loop := rfl
@[simp] theorem modFb_own (f : Feedback → Feedback) : (b.modFb f).eng.fb = f b.eng.fb := rfl

@[simp] theorem modAxis_ident (a : Nat) (f : Axis → Axis) : (b.modAxis a f).ident = b.ident := rfl
@[simp] theorem modAxis_regs (a : Nat) (f : Axis → Axis) : (b.modAxis a f).regs = b.regs := rfl
@[simp] theorem modAxis_time (a : Nat) (f : Axis → Axis) : (b.modAxis a f).time = b.time := rfl
@[simp] theorem modAxis_link (a : Nat) (f : Axis → Axis) : (b.modAxis a f).link = b.link := rfl
@[simp] theorem modAxis_vig (a : Nat) (f : Axis → Axis) : (b.modAxis a f).vig = b.vig := rfl
@[simp] theorem modAxis_evt (a : Nat) (f : Axis → Axis) : (b.modAxis a f).evt = b.evt := rfl
@[simp] theorem modAxis_diary (a : Nat) (f : Axis → Axis) : (b.modAxis a f).diary = b.diary := rfl
@[simp] theorem modAxis_can (a : Nat) (f : Axis → Axis) : (b.modAxis a f).can = b.can := rfl
@[simp] theorem modAxis_upd (a : Nat) (f : Axis → Axis) : (b.modAxis a f).upd = b.upd := rfl
@[simp] theorem modAxis_sup (a : Nat) (f : Axis → Axis) : (b.modAxis a f).sup = b.sup := rfl
@[simp] theorem modAxis_posted (a : Nat) (f : Axis → Axis) : (b.modAxis a f).posted = b.posted := rfl
@[simp] theorem modAxis_pub (a : Nat) (f : Axis → Axis) : (b.modAxis a f).pub = b.pub := rfl
@[simp] theorem modAxis_pubTime (a : Nat) (f : Axis → Axis) : (b.modAxis a f).pubTime = b.pubTime := rfl
@[simp] theorem modAxis_pubSup (a : Nat) (f : Axis → Axis) : (b.modAxis a f).pubSup = b.pubSup := rfl
@[simp] theorem modAxis_draws (a : Nat) (f : Axis → Axis) : (b.modAxis a f).draws = b.draws := rfl
@[simp] theorem modAxis_word (a : Nat) (f : Axis → Axis) (z : Reg) (x y : Nat) : (b.modAxis a f).word z x y = b.word z x y :=
    rfl
@[simp] theorem modAxis_pwr (a : Nat) (f : Axis → Axis) : (b.modAxis a f).eng.pwr = b.eng.pwr := rfl
@[simp] theorem modAxis_lsw (a : Nat) (f : Axis → Axis) : (b.modAxis a f).eng.lsw = b.eng.lsw := rfl
@[simp] theorem modAxis_pose (a : Nat) (f : Axis → Axis) : (b.modAxis a f).eng.pose = b.eng.pose := rfl
@[simp] theorem modAxis_map (a : Nat) (f : Axis → Axis) : (b.modAxis a f).eng.map = b.eng.map := rfl
@[simp] theorem modAxis_valve (a : Nat) (f : Axis → Axis) : (b.modAxis a f).eng.valve = b.eng.valve := rfl
@[simp] theorem modAxis_alm (a : Nat) (f : Axis → Axis) : (b.modAxis a f).eng.alm = b.eng.alm := rfl
@[simp] theorem modAxis_mot (a : Nat) (f : Axis → Axis) : (b.modAxis a f).eng.mot = b.eng.mot := rfl
@[simp] theorem modAxis_loop (a : Nat) (f : Axis → Axis) : (b.modAxis a f).eng.loop = b.eng.loop := rfl
@[simp] theorem modAxis_own (a : Nat) (f : Axis → Axis) : (b.modAxis a f).eng.fb = { b.eng.fb with axes := modNth b.eng.fb.axes a f } :=
    rfl

@[simp] theorem modPort_ident (p : Nat) (f : SPort → SPort) : (b.modPort p f).ident = b.ident := rfl
@[simp] theorem modPort_regs (p : Nat) (f : SPort → SPort) : (b.modPort p f).regs = b.regs := rfl
@[simp] theorem modPort_time (p : Nat) (f : SPort → SPort) : (b.modPort p f).time = b.time := rfl
@[simp] theorem modPort_link (p : Nat) (f : SPort → SPort) : (b.modPort p f).link = b.link := rfl
@[simp] theorem modPort_vig (p : Nat) (f : SPort → SPort) : (b.modPort p f).vig = b.vig := rfl
@[simp] theorem modPort_evt (p : Nat) (f : SPort → SPort) : (b.modPort p f).evt = b.evt := rfl
@[simp] theorem modPort_diary (p : Nat) (f : SPort → SPort) : (b.modPort p f).diary = b.diary := rfl
@[simp] theorem modPort_can (p : Nat) (f : SPort → SPort) : (b.modPort p f).can = b.can := rfl
@[simp] theorem modPort_upd (p : Nat) (f : SPort → SPort) : (b.modPort p f).upd = b.upd := rfl
@[simp] theorem modPort_sup (p : Nat) (f : SPort → SPort) : (b.modPort p f).sup = b.sup := rfl
@[simp] theorem modPort_posted (p : Nat) (f : SPort → SPort) : (b.modPort p f).posted = b.posted := rfl
@[simp] theorem modPort_pub (p : Nat) (f : SPort → SPort) : (b.modPort p f).pub = b.pub := rfl
@[simp] theorem modPort_pubTime (p : Nat) (f : SPort → SPort) : (b.modPort p f).pubTime = b.pubTime := rfl
@[simp] theorem modPort_pubSup (p : Nat) (f : SPort → SPort) : (b.modPort p f).pubSup = b.pubSup := rfl
@[simp] theorem modPort_draws (p : Nat) (f : SPort → SPort) : (b.modPort p f).draws = b.draws := rfl
@[simp] theorem modPort_word (p : Nat) (f : SPort → SPort) (z : Reg) (x y : Nat) : (b.modPort p f).word z x y = b.word z x y :=
    rfl
@[simp] theorem modPort_pwr (p : Nat) (f : SPort → SPort) : (b.modPort p f).eng.pwr = b.eng.pwr := rfl
@[simp] theorem modPort_lsw (p : Nat) (f : SPort → SPort) : (b.modPort p f).eng.lsw = b.eng.lsw := rfl
@[simp] theorem modPort_pose (p : Nat) (f : SPort → SPort) : (b.modPort p f).eng.pose = b.eng.pose := rfl
@[simp] theorem modPort_map (p : Nat) (f : SPort → SPort) : (b.modPort p f).eng.map = b.eng.map := rfl
@[simp] theorem modPort_valve (p : Nat) (f : SPort → SPort) : (b.modPort p f).eng.valve = b.eng.valve := rfl
@[simp] theorem modPort_alm (p : Nat) (f : SPort → SPort) : (b.modPort p f).eng.alm = b.eng.alm := rfl
@[simp] theorem modPort_mot (p : Nat) (f : SPort → SPort) : (b.modPort p f).eng.mot = b.eng.mot := rfl
@[simp] theorem modPort_loop (p : Nat) (f : SPort → SPort) : (b.modPort p f).eng.loop = b.eng.loop := rfl
@[simp] theorem modPort_own (p : Nat) (f : SPort → SPort) : (b.modPort p f).eng.fb = { b.eng.fb with ports := modNth b.eng.fb.ports p f } :=
    rfl

@[simp] theorem modPose_ident (f : Pose → Pose) : (b.modPose f).ident = b.ident := rfl
@[simp] theorem modPose_regs (f : Pose → Pose) : (b.modPose f).regs = b.regs := rfl
@[simp] theorem modPose_time (f : Pose → Pose) : (b.modPose f).time = b.time := rfl
@[simp] theorem modPose_link (f : Pose → Pose) : (b.modPose f).link = b.link := rfl
@[simp] theorem modPose_vig (f : Pose → Pose) : (b.modPose f).vig = b.vig := rfl
@[simp] theorem modPose_evt (f : Pose → Pose) : (b.modPose f).evt = b.evt := rfl
@[simp] theorem modPose_diary (f : Pose → Pose) : (b.modPose f).diary = b.diary := rfl
@[simp] theorem modPose_can (f : Pose → Pose) : (b.modPose f).can = b.can := rfl
@[simp] theorem modPose_upd (f : Pose → Pose) : (b.modPose f).upd = b.upd := rfl
@[simp] theorem modPose_sup (f : Pose → Pose) : (b.modPose f).sup = b.sup := rfl
@[simp] theorem modPose_posted (f : Pose → Pose) : (b.modPose f).posted = b.posted := rfl
@[simp] theorem modPose_pub (f : Pose → Pose) : (b.modPose f).pub = b.pub := rfl
@[simp] theorem modPose_pubTime (f : Pose → Pose) : (b.modPose f).pubTime = b.pubTime := rfl
@[simp] theorem modPose_pubSup (f : Pose → Pose) : (b.modPose f).pubSup = b.pubSup := rfl
@[simp] theorem modPose_draws (f : Pose → Pose) : (b.modPose f).draws = b.draws := rfl
@[simp] theorem modPose_word (f : Pose → Pose) (z : Reg) (x y : Nat) : (b.modPose f).word z x y = b.word z x y := rfl
@[simp] theorem modPose_pwr (f : Pose → Pose) : (b.modPose f).eng.pwr = b.eng.pwr := rfl
@[simp] theorem modPose_lsw (f : Pose → Pose) : (b.modPose f).eng.lsw = b.eng.lsw := rfl
@[simp] theorem modPose_fb (f : Pose → Pose) : (b.modPose f).eng.fb = b.eng.fb := rfl
@[simp] theorem modPose_map (f : Pose → Pose) : (b.modPose f).eng.map = b.eng.map := rfl
@[simp] theorem modPose_valve (f : Pose → Pose) : (b.modPose f).eng.valve = b.eng.valve := rfl
@[simp] theorem modPose_alm (f : Pose → Pose) : (b.modPose f).eng.alm = b.eng.alm := rfl
@[simp] theorem modPose_mot (f : Pose → Pose) : (b.modPose f).eng.mot = b.eng.mot := rfl
@[simp] theorem modPose_loop (f : Pose → Pose) : (b.modPose f).eng.loop = b.eng.loop := rfl
@[simp] theorem modPose_own (f : Pose → Pose) : (b.modPose f).eng.pose = f b.eng.pose := rfl

@[simp] theorem modMap_ident (f : FieldMap → FieldMap) : (b.modMap f).ident = b.ident := rfl
@[simp] theorem modMap_regs (f : FieldMap → FieldMap) : (b.modMap f).regs = b.regs := rfl
@[simp] theorem modMap_time (f : FieldMap → FieldMap) : (b.modMap f).time = b.time := rfl
@[simp] theorem modMap_link (f : FieldMap → FieldMap) : (b.modMap f).link = b.link := rfl
@[simp] theorem modMap_vig (f : FieldMap → FieldMap) : (b.modMap f).vig = b.vig := rfl
@[simp] theorem modMap_evt (f : FieldMap → FieldMap) : (b.modMap f).evt = b.evt := rfl
@[simp] theorem modMap_diary (f : FieldMap → FieldMap) : (b.modMap f).diary = b.diary := rfl
@[simp] theorem modMap_can (f : FieldMap → FieldMap) : (b.modMap f).can = b.can := rfl
@[simp] theorem modMap_upd (f : FieldMap → FieldMap) : (b.modMap f).upd = b.upd := rfl
@[simp] theorem modMap_sup (f : FieldMap → FieldMap) : (b.modMap f).sup = b.sup := rfl
@[simp] theorem modMap_posted (f : FieldMap → FieldMap) : (b.modMap f).posted = b.posted := rfl
@[simp] theorem modMap_pub (f : FieldMap → FieldMap) : (b.modMap f).pub = b.pub := rfl
@[simp] theorem modMap_pubTime (f : FieldMap → FieldMap) : (b.modMap f).pubTime = b.pubTime := rfl
@[simp] theorem modMap_pubSup (f : FieldMap → FieldMap) : (b.modMap f).pubSup = b.pubSup := rfl
@[simp] theorem modMap_draws (f : FieldMap → FieldMap) : (b.modMap f).draws = b.draws := rfl
@[simp] theorem modMap_word (f : FieldMap → FieldMap) (z : Reg) (x y : Nat) : (b.modMap f).word z x y = b.word z x y :=
    rfl
@[simp] theorem modMap_pwr (f : FieldMap → FieldMap) : (b.modMap f).eng.pwr = b.eng.pwr := rfl
@[simp] theorem modMap_lsw (f : FieldMap → FieldMap) : (b.modMap f).eng.lsw = b.eng.lsw := rfl
@[simp] theorem modMap_fb (f : FieldMap → FieldMap) : (b.modMap f).eng.fb = b.eng.fb := rfl
@[simp] theorem modMap_pose (f : FieldMap → FieldMap) : (b.modMap f).eng.pose = b.eng.pose := rfl
@[simp] theorem modMap_valve (f : FieldMap → FieldMap) : (b.modMap f).eng.valve = b.eng.valve := rfl
@[simp] theorem modMap_alm (f : FieldMap → FieldMap) : (b.modMap f).eng.alm = b.eng.alm := rfl
@[simp] theorem modMap_mot (f : FieldMap → FieldMap) : (b.modMap f).eng.mot = b.eng.mot := rfl
@[simp] theorem modMap_loop (f : FieldMap → FieldMap) : (b.modMap f).eng.loop = b.eng.loop := rfl
@[simp] theorem modMap_own (f : FieldMap → FieldMap) : (b.modMap f).eng.map = f b.eng.map := rfl

@[simp] theorem modFrame_ident (i : Nat) (f : Frame → Frame) : (b.modFrame i f).ident = b.ident := rfl
@[simp] theorem modFrame_regs (i : Nat) (f : Frame → Frame) : (b.modFrame i f).regs = b.regs := rfl
@[simp] theorem modFrame_time (i : Nat) (f : Frame → Frame) : (b.modFrame i f).time = b.time := rfl
@[simp] theorem modFrame_link (i : Nat) (f : Frame → Frame) : (b.modFrame i f).link = b.link := rfl
@[simp] theorem modFrame_vig (i : Nat) (f : Frame → Frame) : (b.modFrame i f).vig = b.vig := rfl
@[simp] theorem modFrame_evt (i : Nat) (f : Frame → Frame) : (b.modFrame i f).evt = b.evt := rfl
@[simp] theorem modFrame_diary (i : Nat) (f : Frame → Frame) : (b.modFrame i f).diary = b.diary := rfl
@[simp] theorem modFrame_can (i : Nat) (f : Frame → Frame) : (b.modFrame i f).can = b.can := rfl
@[simp] theorem modFrame_upd (i : Nat) (f : Frame → Frame) : (b.modFrame i f).upd = b.upd := rfl
@[simp] theorem modFrame_sup (i : Nat) (f : Frame → Frame) : (b.modFrame i f).sup = b.sup := rfl
@[simp] theorem modFrame_posted (i : Nat) (f : Frame → Frame) : (b.modFrame i f).posted = b.posted := rfl
@[simp] theorem modFrame_pub (i : Nat) (f : Frame → Frame) : (b.modFrame i f).pub = b.pub := rfl
@[simp] theorem modFrame_pubTime (i : Nat) (f : Frame → Frame) : (b.modFrame i f).pubTime = b.pubTime := rfl
@[simp] theorem modFrame_pubSup (i : Nat) (f : Frame → Frame) : (b.modFrame i f).pubSup = b.pubSup := rfl
@[simp] theorem modFrame_draws (i : Nat) (f : Frame → Frame) : (b.modFrame i f).draws = b.draws := rfl
@[simp] theorem modFrame_word (i : Nat) (f : Frame → Frame) (z : Reg) (x y : Nat) : (b.modFrame i f).word z x y = b.word z x y :=
    rfl
@[simp] theorem modFrame_pwr (i : Nat) (f : Frame → Frame) : (b.modFrame i f).eng.pwr = b.eng.pwr := rfl
@[simp] theorem modFrame_lsw (i : Nat) (f : Frame → Frame) : (b.modFrame i f).eng.lsw = b.eng.lsw := rfl
@[simp] theorem modFrame_fb (i : Nat) (f : Frame → Frame) : (b.modFrame i f).eng.fb = b.eng.fb := rfl
@[simp] theorem modFrame_pose (i : Nat) (f : Frame → Frame) : (b.modFrame i f).eng.pose = b.eng.pose := rfl
@[simp] theorem modFrame_valve (i : Nat) (f : Frame → Frame) : (b.modFrame i f).eng.valve = b.eng.valve := rfl
@[simp] theorem modFrame_alm (i : Nat) (f : Frame → Frame) : (b.modFrame i f).eng.alm = b.eng.alm := rfl
@[simp] theorem modFrame_mot (i : Nat) (f : Frame → Frame) : (b.modFrame i f).eng.mot = b.eng.mot := rfl
@[simp] theorem modFrame_loop (i : Nat) (f : Frame → Frame) : (b.modFrame i f).eng.loop = b.eng.loop := rfl
@[simp] theorem modFrame_own (i : Nat) (f : Frame → Frame) : (b.modFrame i f).eng.map = { b.eng.map with frames := modNth b.eng.map.frames i f } :=
    rfl

@[simp] theorem modValve_ident (f : Valve → Valve) : (b.modValve f).ident = b.ident := rfl
@[simp] theorem modValve_regs (f : Valve → Valve) : (b.modValve f).regs = b.regs := rfl
@[simp] theorem modValve_time (f : Valve → Valve) : (b.modValve f).time = b.time := rfl
@[simp] theorem modValve_link (f : Valve → Valve) : (b.modValve f).link = b.link := rfl
@[simp] theorem modValve_vig (f : Valve → Valve) : (b.modValve f).vig = b.vig := rfl
@[simp] theorem modValve_evt (f : Valve → Valve) : (b.modValve f).evt = b.evt := rfl
@[simp] theorem modValve_diary (f : Valve → Valve) : (b.modValve f).diary = b.diary := rfl
@[simp] theorem modValve_can (f : Valve → Valve) : (b.modValve f).can = b.can := rfl
@[simp] theorem modValve_upd (f : Valve → Valve) : (b.modValve f).upd = b.upd := rfl
@[simp] theorem modValve_sup (f : Valve → Valve) : (b.modValve f).sup = b.sup := rfl
@[simp] theorem modValve_posted (f : Valve → Valve) : (b.modValve f).posted = b.posted := rfl
@[simp] theorem modValve_pub (f : Valve → Valve) : (b.modValve f).pub = b.pub := rfl
@[simp] theorem modValve_pubTime (f : Valve → Valve) : (b.modValve f).pubTime = b.pubTime := rfl
@[simp] theorem modValve_pubSup (f : Valve → Valve) : (b.modValve f).pubSup = b.pubSup := rfl
@[simp] theorem modValve_draws (f : Valve → Valve) : (b.modValve f).draws = b.draws := rfl
@[simp] theorem modValve_word (f : Valve → Valve) (z : Reg) (x y : Nat) : (b.modValve f).word z x y = b.word z x y :=
    rfl
@[simp] theorem modValve_pwr (f : Valve → Valve) : (b.modValve f).eng.pwr = b.eng.pwr := rfl
@[simp] theorem modValve_lsw (f : Valve → Valve) : (b.modValve f).eng.lsw = b.eng.lsw := rfl
@[simp] theorem modValve_fb (f : Valve → Valve) : (b.modValve f).eng.fb = b.eng.fb := rfl
@[simp] theorem modValve_pose (f : Valve → Valve) : (b.modValve f).eng.pose = b.eng.pose := rfl
@[simp] theorem modValve_map (f : Valve → Valve) : (b.modValve f).eng.map = b.eng.map := rfl
@[simp] theorem modValve_alm (f : Valve → Valve) : (b.modValve f).eng.alm = b.eng.alm := rfl
@[simp] theorem modValve_mot (f : Valve → Valve) : (b.modValve f).eng.mot = b.eng.mot := rfl
@[simp] theorem modValve_loop (f : Valve → Valve) : (b.modValve f).eng.loop = b.eng.loop := rfl
@[simp] theorem modValve_own (f : Valve → Valve) : (b.modValve f).eng.valve = f b.eng.valve := rfl

@[simp] theorem modNoz_ident (n : Nat) (f : Noz → Noz) : (b.modNoz n f).ident = b.ident := rfl
@[simp] theorem modNoz_regs (n : Nat) (f : Noz → Noz) : (b.modNoz n f).regs = b.regs := rfl
@[simp] theorem modNoz_time (n : Nat) (f : Noz → Noz) : (b.modNoz n f).time = b.time := rfl
@[simp] theorem modNoz_link (n : Nat) (f : Noz → Noz) : (b.modNoz n f).link = b.link := rfl
@[simp] theorem modNoz_vig (n : Nat) (f : Noz → Noz) : (b.modNoz n f).vig = b.vig := rfl
@[simp] theorem modNoz_evt (n : Nat) (f : Noz → Noz) : (b.modNoz n f).evt = b.evt := rfl
@[simp] theorem modNoz_diary (n : Nat) (f : Noz → Noz) : (b.modNoz n f).diary = b.diary := rfl
@[simp] theorem modNoz_can (n : Nat) (f : Noz → Noz) : (b.modNoz n f).can = b.can := rfl
@[simp] theorem modNoz_upd (n : Nat) (f : Noz → Noz) : (b.modNoz n f).upd = b.upd := rfl
@[simp] theorem modNoz_sup (n : Nat) (f : Noz → Noz) : (b.modNoz n f).sup = b.sup := rfl
@[simp] theorem modNoz_posted (n : Nat) (f : Noz → Noz) : (b.modNoz n f).posted = b.posted := rfl
@[simp] theorem modNoz_pub (n : Nat) (f : Noz → Noz) : (b.modNoz n f).pub = b.pub := rfl
@[simp] theorem modNoz_pubTime (n : Nat) (f : Noz → Noz) : (b.modNoz n f).pubTime = b.pubTime := rfl
@[simp] theorem modNoz_pubSup (n : Nat) (f : Noz → Noz) : (b.modNoz n f).pubSup = b.pubSup := rfl
@[simp] theorem modNoz_draws (n : Nat) (f : Noz → Noz) : (b.modNoz n f).draws = b.draws := rfl
@[simp] theorem modNoz_word (n : Nat) (f : Noz → Noz) (z : Reg) (x y : Nat) : (b.modNoz n f).word z x y = b.word z x y :=
    rfl
@[simp] theorem modNoz_pwr (n : Nat) (f : Noz → Noz) : (b.modNoz n f).eng.pwr = b.eng.pwr := rfl
@[simp] theorem modNoz_lsw (n : Nat) (f : Noz → Noz) : (b.modNoz n f).eng.lsw = b.eng.lsw := rfl
@[simp] theorem modNoz_fb (n : Nat) (f : Noz → Noz) : (b.modNoz n f).eng.fb = b.eng.fb := rfl
@[simp] theorem modNoz_pose (n : Nat) (f : Noz → Noz) : (b.modNoz n f).eng.pose = b.eng.pose := rfl
@[simp] theorem modNoz_map (n : Nat) (f : Noz → Noz) : (b.modNoz n f).eng.map = b.eng.map := rfl
@[simp] theorem modNoz_alm (n : Nat) (f : Noz → Noz) : (b.modNoz n f).eng.alm = b.eng.alm := rfl
@[simp] theorem modNoz_mot (n : Nat) (f : Noz → Noz) : (b.modNoz n f).eng.mot = b.eng.mot := rfl
@[simp] theorem modNoz_loop (n : Nat) (f : Noz → Noz) : (b.modNoz n f).eng.loop = b.eng.loop := rfl
@[simp] theorem modNoz_own (n : Nat) (f : Noz → Noz) : (b.modNoz n f).eng.valve = { b.eng.valve with noz := modNth b.eng.valve.noz n f } :=
    rfl

@[simp] theorem modBoost_ident (c : Nat) (f : Boost → Boost) : (b.modBoost c f).ident = b.ident := rfl
@[simp] theorem modBoost_regs (c : Nat) (f : Boost → Boost) : (b.modBoost c f).regs = b.regs := rfl
@[simp] theorem modBoost_time (c : Nat) (f : Boost → Boost) : (b.modBoost c f).time = b.time := rfl
@[simp] theorem modBoost_link (c : Nat) (f : Boost → Boost) : (b.modBoost c f).link = b.link := rfl
@[simp] theorem modBoost_vig (c : Nat) (f : Boost → Boost) : (b.modBoost c f).vig = b.vig := rfl
@[simp] theorem modBoost_evt (c : Nat) (f : Boost → Boost) : (b.modBoost c f).evt = b.evt := rfl
@[simp] theorem modBoost_diary (c : Nat) (f : Boost → Boost) : (b.modBoost c f).diary = b.diary := rfl
@[simp] theorem modBoost_can (c : Nat) (f : Boost → Boost) : (b.modBoost c f).can = b.can := rfl
@[simp] theorem modBoost_upd (c : Nat) (f : Boost → Boost) : (b.modBoost c f).upd = b.upd := rfl
@[simp] theorem modBoost_sup (c : Nat) (f : Boost → Boost) : (b.modBoost c f).sup = b.sup := rfl
@[simp] theorem modBoost_posted (c : Nat) (f : Boost → Boost) : (b.modBoost c f).posted = b.posted := rfl
@[simp] theorem modBoost_pub (c : Nat) (f : Boost → Boost) : (b.modBoost c f).pub = b.pub := rfl
@[simp] theorem modBoost_pubTime (c : Nat) (f : Boost → Boost) : (b.modBoost c f).pubTime = b.pubTime := rfl
@[simp] theorem modBoost_pubSup (c : Nat) (f : Boost → Boost) : (b.modBoost c f).pubSup = b.pubSup := rfl
@[simp] theorem modBoost_draws (c : Nat) (f : Boost → Boost) : (b.modBoost c f).draws = b.draws := rfl
@[simp] theorem modBoost_word (c : Nat) (f : Boost → Boost) (z : Reg) (x y : Nat) : (b.modBoost c f).word z x y = b.word z x y :=
    rfl
@[simp] theorem modBoost_pwr (c : Nat) (f : Boost → Boost) : (b.modBoost c f).eng.pwr = b.eng.pwr := rfl
@[simp] theorem modBoost_lsw (c : Nat) (f : Boost → Boost) : (b.modBoost c f).eng.lsw = b.eng.lsw := rfl
@[simp] theorem modBoost_fb (c : Nat) (f : Boost → Boost) : (b.modBoost c f).eng.fb = b.eng.fb := rfl
@[simp] theorem modBoost_pose (c : Nat) (f : Boost → Boost) : (b.modBoost c f).eng.pose = b.eng.pose := rfl
@[simp] theorem modBoost_map (c : Nat) (f : Boost → Boost) : (b.modBoost c f).eng.map = b.eng.map := rfl
@[simp] theorem modBoost_alm (c : Nat) (f : Boost → Boost) : (b.modBoost c f).eng.alm = b.eng.alm := rfl
@[simp] theorem modBoost_mot (c : Nat) (f : Boost → Boost) : (b.modBoost c f).eng.mot = b.eng.mot := rfl
@[simp] theorem modBoost_loop (c : Nat) (f : Boost → Boost) : (b.modBoost c f).eng.loop = b.eng.loop := rfl
@[simp] theorem modBoost_own (c : Nat) (f : Boost → Boost) : (b.modBoost c f).eng.valve = { b.eng.valve with boosts := modNth b.eng.valve.boosts c f } :=
    rfl

@[simp] theorem modProp_ident (k : Nat) (f : Prop_ → Prop_) : (b.modProp k f).ident = b.ident := rfl
@[simp] theorem modProp_regs (k : Nat) (f : Prop_ → Prop_) : (b.modProp k f).regs = b.regs := rfl
@[simp] theorem modProp_time (k : Nat) (f : Prop_ → Prop_) : (b.modProp k f).time = b.time := rfl
@[simp] theorem modProp_link (k : Nat) (f : Prop_ → Prop_) : (b.modProp k f).link = b.link := rfl
@[simp] theorem modProp_vig (k : Nat) (f : Prop_ → Prop_) : (b.modProp k f).vig = b.vig := rfl
@[simp] theorem modProp_evt (k : Nat) (f : Prop_ → Prop_) : (b.modProp k f).evt = b.evt := rfl
@[simp] theorem modProp_diary (k : Nat) (f : Prop_ → Prop_) : (b.modProp k f).diary = b.diary := rfl
@[simp] theorem modProp_can (k : Nat) (f : Prop_ → Prop_) : (b.modProp k f).can = b.can := rfl
@[simp] theorem modProp_upd (k : Nat) (f : Prop_ → Prop_) : (b.modProp k f).upd = b.upd := rfl
@[simp] theorem modProp_sup (k : Nat) (f : Prop_ → Prop_) : (b.modProp k f).sup = b.sup := rfl
@[simp] theorem modProp_posted (k : Nat) (f : Prop_ → Prop_) : (b.modProp k f).posted = b.posted := rfl
@[simp] theorem modProp_pub (k : Nat) (f : Prop_ → Prop_) : (b.modProp k f).pub = b.pub := rfl
@[simp] theorem modProp_pubTime (k : Nat) (f : Prop_ → Prop_) : (b.modProp k f).pubTime = b.pubTime := rfl
@[simp] theorem modProp_pubSup (k : Nat) (f : Prop_ → Prop_) : (b.modProp k f).pubSup = b.pubSup := rfl
@[simp] theorem modProp_draws (k : Nat) (f : Prop_ → Prop_) : (b.modProp k f).draws = b.draws := rfl
@[simp] theorem modProp_word (k : Nat) (f : Prop_ → Prop_) (z : Reg) (x y : Nat) : (b.modProp k f).word z x y = b.word z x y :=
    rfl
@[simp] theorem modProp_pwr (k : Nat) (f : Prop_ → Prop_) : (b.modProp k f).eng.pwr = b.eng.pwr := rfl
@[simp] theorem modProp_lsw (k : Nat) (f : Prop_ → Prop_) : (b.modProp k f).eng.lsw = b.eng.lsw := rfl
@[simp] theorem modProp_fb (k : Nat) (f : Prop_ → Prop_) : (b.modProp k f).eng.fb = b.eng.fb := rfl
@[simp] theorem modProp_pose (k : Nat) (f : Prop_ → Prop_) : (b.modProp k f).eng.pose = b.eng.pose := rfl
@[simp] theorem modProp_map (k : Nat) (f : Prop_ → Prop_) : (b.modProp k f).eng.map = b.eng.map := rfl
@[simp] theorem modProp_alm (k : Nat) (f : Prop_ → Prop_) : (b.modProp k f).eng.alm = b.eng.alm := rfl
@[simp] theorem modProp_mot (k : Nat) (f : Prop_ → Prop_) : (b.modProp k f).eng.mot = b.eng.mot := rfl
@[simp] theorem modProp_loop (k : Nat) (f : Prop_ → Prop_) : (b.modProp k f).eng.loop = b.eng.loop := rfl
@[simp] theorem modProp_own (k : Nat) (f : Prop_ → Prop_) : (b.modProp k f).eng.valve = { b.eng.valve with props := modNth b.eng.valve.props k f } :=
    rfl

@[simp] theorem modAlm_ident (f : Almanac → Almanac) : (b.modAlm f).ident = b.ident := rfl
@[simp] theorem modAlm_regs (f : Almanac → Almanac) : (b.modAlm f).regs = b.regs := rfl
@[simp] theorem modAlm_time (f : Almanac → Almanac) : (b.modAlm f).time = b.time := rfl
@[simp] theorem modAlm_link (f : Almanac → Almanac) : (b.modAlm f).link = b.link := rfl
@[simp] theorem modAlm_vig (f : Almanac → Almanac) : (b.modAlm f).vig = b.vig := rfl
@[simp] theorem modAlm_evt (f : Almanac → Almanac) : (b.modAlm f).evt = b.evt := rfl
@[simp] theorem modAlm_diary (f : Almanac → Almanac) : (b.modAlm f).diary = b.diary := rfl
@[simp] theorem modAlm_can (f : Almanac → Almanac) : (b.modAlm f).can = b.can := rfl
@[simp] theorem modAlm_upd (f : Almanac → Almanac) : (b.modAlm f).upd = b.upd := rfl
@[simp] theorem modAlm_sup (f : Almanac → Almanac) : (b.modAlm f).sup = b.sup := rfl
@[simp] theorem modAlm_posted (f : Almanac → Almanac) : (b.modAlm f).posted = b.posted := rfl
@[simp] theorem modAlm_pub (f : Almanac → Almanac) : (b.modAlm f).pub = b.pub := rfl
@[simp] theorem modAlm_pubTime (f : Almanac → Almanac) : (b.modAlm f).pubTime = b.pubTime := rfl
@[simp] theorem modAlm_pubSup (f : Almanac → Almanac) : (b.modAlm f).pubSup = b.pubSup := rfl
@[simp] theorem modAlm_draws (f : Almanac → Almanac) : (b.modAlm f).draws = b.draws := rfl
@[simp] theorem modAlm_word (f : Almanac → Almanac) (z : Reg) (x y : Nat) : (b.modAlm f).word z x y = b.word z x y :=
    rfl
@[simp] theorem modAlm_pwr (f : Almanac → Almanac) : (b.modAlm f).eng.pwr = b.eng.pwr := rfl
@[simp] theorem modAlm_lsw (f : Almanac → Almanac) : (b.modAlm f).eng.lsw = b.eng.lsw := rfl
@[simp] theorem modAlm_fb (f : Almanac → Almanac) : (b.modAlm f).eng.fb = b.eng.fb := rfl
@[simp] theorem modAlm_pose (f : Almanac → Almanac) : (b.modAlm f).eng.pose = b.eng.pose := rfl
@[simp] theorem modAlm_map (f : Almanac → Almanac) : (b.modAlm f).eng.map = b.eng.map := rfl
@[simp] theorem modAlm_valve (f : Almanac → Almanac) : (b.modAlm f).eng.valve = b.eng.valve := rfl
@[simp] theorem modAlm_mot (f : Almanac → Almanac) : (b.modAlm f).eng.mot = b.eng.mot := rfl
@[simp] theorem modAlm_loop (f : Almanac → Almanac) : (b.modAlm f).eng.loop = b.eng.loop := rfl
@[simp] theorem modAlm_own (f : Almanac → Almanac) : (b.modAlm f).eng.alm = f b.eng.alm := rfl

@[simp] theorem modLane_ident (l : Nat) (f : Lane → Lane) : (b.modLane l f).ident = b.ident := rfl
@[simp] theorem modLane_regs (l : Nat) (f : Lane → Lane) : (b.modLane l f).regs = b.regs := rfl
@[simp] theorem modLane_time (l : Nat) (f : Lane → Lane) : (b.modLane l f).time = b.time := rfl
@[simp] theorem modLane_link (l : Nat) (f : Lane → Lane) : (b.modLane l f).link = b.link := rfl
@[simp] theorem modLane_vig (l : Nat) (f : Lane → Lane) : (b.modLane l f).vig = b.vig := rfl
@[simp] theorem modLane_evt (l : Nat) (f : Lane → Lane) : (b.modLane l f).evt = b.evt := rfl
@[simp] theorem modLane_diary (l : Nat) (f : Lane → Lane) : (b.modLane l f).diary = b.diary := rfl
@[simp] theorem modLane_can (l : Nat) (f : Lane → Lane) : (b.modLane l f).can = b.can := rfl
@[simp] theorem modLane_upd (l : Nat) (f : Lane → Lane) : (b.modLane l f).upd = b.upd := rfl
@[simp] theorem modLane_sup (l : Nat) (f : Lane → Lane) : (b.modLane l f).sup = b.sup := rfl
@[simp] theorem modLane_posted (l : Nat) (f : Lane → Lane) : (b.modLane l f).posted = b.posted := rfl
@[simp] theorem modLane_pub (l : Nat) (f : Lane → Lane) : (b.modLane l f).pub = b.pub := rfl
@[simp] theorem modLane_pubTime (l : Nat) (f : Lane → Lane) : (b.modLane l f).pubTime = b.pubTime := rfl
@[simp] theorem modLane_pubSup (l : Nat) (f : Lane → Lane) : (b.modLane l f).pubSup = b.pubSup := rfl
@[simp] theorem modLane_draws (l : Nat) (f : Lane → Lane) : (b.modLane l f).draws = b.draws := rfl
@[simp] theorem modLane_word (l : Nat) (f : Lane → Lane) (z : Reg) (x y : Nat) : (b.modLane l f).word z x y = b.word z x y :=
    rfl
@[simp] theorem modLane_pwr (l : Nat) (f : Lane → Lane) : (b.modLane l f).eng.pwr = b.eng.pwr := rfl
@[simp] theorem modLane_lsw (l : Nat) (f : Lane → Lane) : (b.modLane l f).eng.lsw = b.eng.lsw := rfl
@[simp] theorem modLane_fb (l : Nat) (f : Lane → Lane) : (b.modLane l f).eng.fb = b.eng.fb := rfl
@[simp] theorem modLane_pose (l : Nat) (f : Lane → Lane) : (b.modLane l f).eng.pose = b.eng.pose := rfl
@[simp] theorem modLane_map (l : Nat) (f : Lane → Lane) : (b.modLane l f).eng.map = b.eng.map := rfl
@[simp] theorem modLane_valve (l : Nat) (f : Lane → Lane) : (b.modLane l f).eng.valve = b.eng.valve := rfl
@[simp] theorem modLane_mot (l : Nat) (f : Lane → Lane) : (b.modLane l f).eng.mot = b.eng.mot := rfl
@[simp] theorem modLane_loop (l : Nat) (f : Lane → Lane) : (b.modLane l f).eng.loop = b.eng.loop := rfl
@[simp] theorem modLane_own (l : Nat) (f : Lane → Lane) : (b.modLane l f).eng.alm = { b.eng.alm with lanes := modNth b.eng.alm.lanes l f } :=
    rfl

@[simp] theorem modAlmNoz_ident (n : Nat) (f : AlmNoz → AlmNoz) : (b.modAlmNoz n f).ident = b.ident := rfl
@[simp] theorem modAlmNoz_regs (n : Nat) (f : AlmNoz → AlmNoz) : (b.modAlmNoz n f).regs = b.regs := rfl
@[simp] theorem modAlmNoz_time (n : Nat) (f : AlmNoz → AlmNoz) : (b.modAlmNoz n f).time = b.time := rfl
@[simp] theorem modAlmNoz_link (n : Nat) (f : AlmNoz → AlmNoz) : (b.modAlmNoz n f).link = b.link := rfl
@[simp] theorem modAlmNoz_vig (n : Nat) (f : AlmNoz → AlmNoz) : (b.modAlmNoz n f).vig = b.vig := rfl
@[simp] theorem modAlmNoz_evt (n : Nat) (f : AlmNoz → AlmNoz) : (b.modAlmNoz n f).evt = b.evt := rfl
@[simp] theorem modAlmNoz_diary (n : Nat) (f : AlmNoz → AlmNoz) : (b.modAlmNoz n f).diary = b.diary := rfl
@[simp] theorem modAlmNoz_can (n : Nat) (f : AlmNoz → AlmNoz) : (b.modAlmNoz n f).can = b.can := rfl
@[simp] theorem modAlmNoz_upd (n : Nat) (f : AlmNoz → AlmNoz) : (b.modAlmNoz n f).upd = b.upd := rfl
@[simp] theorem modAlmNoz_sup (n : Nat) (f : AlmNoz → AlmNoz) : (b.modAlmNoz n f).sup = b.sup := rfl
@[simp] theorem modAlmNoz_posted (n : Nat) (f : AlmNoz → AlmNoz) : (b.modAlmNoz n f).posted = b.posted := rfl
@[simp] theorem modAlmNoz_pub (n : Nat) (f : AlmNoz → AlmNoz) : (b.modAlmNoz n f).pub = b.pub := rfl
@[simp] theorem modAlmNoz_pubTime (n : Nat) (f : AlmNoz → AlmNoz) : (b.modAlmNoz n f).pubTime = b.pubTime := rfl
@[simp] theorem modAlmNoz_pubSup (n : Nat) (f : AlmNoz → AlmNoz) : (b.modAlmNoz n f).pubSup = b.pubSup := rfl
@[simp] theorem modAlmNoz_draws (n : Nat) (f : AlmNoz → AlmNoz) : (b.modAlmNoz n f).draws = b.draws := rfl
@[simp] theorem modAlmNoz_word (n : Nat) (f : AlmNoz → AlmNoz) (z : Reg) (x y : Nat) : (b.modAlmNoz n f).word z x y = b.word z x y :=
    rfl
@[simp] theorem modAlmNoz_pwr (n : Nat) (f : AlmNoz → AlmNoz) : (b.modAlmNoz n f).eng.pwr = b.eng.pwr := rfl
@[simp] theorem modAlmNoz_lsw (n : Nat) (f : AlmNoz → AlmNoz) : (b.modAlmNoz n f).eng.lsw = b.eng.lsw := rfl
@[simp] theorem modAlmNoz_fb (n : Nat) (f : AlmNoz → AlmNoz) : (b.modAlmNoz n f).eng.fb = b.eng.fb := rfl
@[simp] theorem modAlmNoz_pose (n : Nat) (f : AlmNoz → AlmNoz) : (b.modAlmNoz n f).eng.pose = b.eng.pose := rfl
@[simp] theorem modAlmNoz_map (n : Nat) (f : AlmNoz → AlmNoz) : (b.modAlmNoz n f).eng.map = b.eng.map := rfl
@[simp] theorem modAlmNoz_valve (n : Nat) (f : AlmNoz → AlmNoz) : (b.modAlmNoz n f).eng.valve = b.eng.valve := rfl
@[simp] theorem modAlmNoz_mot (n : Nat) (f : AlmNoz → AlmNoz) : (b.modAlmNoz n f).eng.mot = b.eng.mot := rfl
@[simp] theorem modAlmNoz_loop (n : Nat) (f : AlmNoz → AlmNoz) : (b.modAlmNoz n f).eng.loop = b.eng.loop := rfl
@[simp] theorem modAlmNoz_own (n : Nat) (f : AlmNoz → AlmNoz) : (b.modAlmNoz n f).eng.alm = { b.eng.alm with noz := modNth b.eng.alm.noz n f } :=
    rfl

@[simp] theorem modMots_ident (f : Motors → Motors) : (b.modMots f).ident = b.ident := rfl
@[simp] theorem modMots_regs (f : Motors → Motors) : (b.modMots f).regs = b.regs := rfl
@[simp] theorem modMots_time (f : Motors → Motors) : (b.modMots f).time = b.time := rfl
@[simp] theorem modMots_link (f : Motors → Motors) : (b.modMots f).link = b.link := rfl
@[simp] theorem modMots_vig (f : Motors → Motors) : (b.modMots f).vig = b.vig := rfl
@[simp] theorem modMots_evt (f : Motors → Motors) : (b.modMots f).evt = b.evt := rfl
@[simp] theorem modMots_diary (f : Motors → Motors) : (b.modMots f).diary = b.diary := rfl
@[simp] theorem modMots_can (f : Motors → Motors) : (b.modMots f).can = b.can := rfl
@[simp] theorem modMots_upd (f : Motors → Motors) : (b.modMots f).upd = b.upd := rfl
@[simp] theorem modMots_sup (f : Motors → Motors) : (b.modMots f).sup = b.sup := rfl
@[simp] theorem modMots_posted (f : Motors → Motors) : (b.modMots f).posted = b.posted := rfl
@[simp] theorem modMots_pub (f : Motors → Motors) : (b.modMots f).pub = b.pub := rfl
@[simp] theorem modMots_pubTime (f : Motors → Motors) : (b.modMots f).pubTime = b.pubTime := rfl
@[simp] theorem modMots_pubSup (f : Motors → Motors) : (b.modMots f).pubSup = b.pubSup := rfl
@[simp] theorem modMots_draws (f : Motors → Motors) : (b.modMots f).draws = b.draws := rfl
@[simp] theorem modMots_word (f : Motors → Motors) (z : Reg) (x y : Nat) : (b.modMots f).word z x y = b.word z x y :=
    rfl
@[simp] theorem modMots_pwr (f : Motors → Motors) : (b.modMots f).eng.pwr = b.eng.pwr := rfl
@[simp] theorem modMots_lsw (f : Motors → Motors) : (b.modMots f).eng.lsw = b.eng.lsw := rfl
@[simp] theorem modMots_fb (f : Motors → Motors) : (b.modMots f).eng.fb = b.eng.fb := rfl
@[simp] theorem modMots_pose (f : Motors → Motors) : (b.modMots f).eng.pose = b.eng.pose := rfl
@[simp] theorem modMots_map (f : Motors → Motors) : (b.modMots f).eng.map = b.eng.map := rfl
@[simp] theorem modMots_valve (f : Motors → Motors) : (b.modMots f).eng.valve = b.eng.valve := rfl
@[simp] theorem modMots_alm (f : Motors → Motors) : (b.modMots f).eng.alm = b.eng.alm := rfl
@[simp] theorem modMots_loop (f : Motors → Motors) : (b.modMots f).eng.loop = b.eng.loop := rfl
@[simp] theorem modMots_own (f : Motors → Motors) : (b.modMots f).eng.mot = f b.eng.mot := rfl

@[simp] theorem modMot_ident (u : Nat) (f : Motor → Motor) : (b.modMot u f).ident = b.ident := rfl
@[simp] theorem modMot_regs (u : Nat) (f : Motor → Motor) : (b.modMot u f).regs = b.regs := rfl
@[simp] theorem modMot_time (u : Nat) (f : Motor → Motor) : (b.modMot u f).time = b.time := rfl
@[simp] theorem modMot_link (u : Nat) (f : Motor → Motor) : (b.modMot u f).link = b.link := rfl
@[simp] theorem modMot_vig (u : Nat) (f : Motor → Motor) : (b.modMot u f).vig = b.vig := rfl
@[simp] theorem modMot_evt (u : Nat) (f : Motor → Motor) : (b.modMot u f).evt = b.evt := rfl
@[simp] theorem modMot_diary (u : Nat) (f : Motor → Motor) : (b.modMot u f).diary = b.diary := rfl
@[simp] theorem modMot_can (u : Nat) (f : Motor → Motor) : (b.modMot u f).can = b.can := rfl
@[simp] theorem modMot_upd (u : Nat) (f : Motor → Motor) : (b.modMot u f).upd = b.upd := rfl
@[simp] theorem modMot_sup (u : Nat) (f : Motor → Motor) : (b.modMot u f).sup = b.sup := rfl
@[simp] theorem modMot_posted (u : Nat) (f : Motor → Motor) : (b.modMot u f).posted = b.posted := rfl
@[simp] theorem modMot_pub (u : Nat) (f : Motor → Motor) : (b.modMot u f).pub = b.pub := rfl
@[simp] theorem modMot_pubTime (u : Nat) (f : Motor → Motor) : (b.modMot u f).pubTime = b.pubTime := rfl
@[simp] theorem modMot_pubSup (u : Nat) (f : Motor → Motor) : (b.modMot u f).pubSup = b.pubSup := rfl
@[simp] theorem modMot_draws (u : Nat) (f : Motor → Motor) : (b.modMot u f).draws = b.draws := rfl
@[simp] theorem modMot_word (u : Nat) (f : Motor → Motor) (z : Reg) (x y : Nat) : (b.modMot u f).word z x y = b.word z x y :=
    rfl
@[simp] theorem modMot_pwr (u : Nat) (f : Motor → Motor) : (b.modMot u f).eng.pwr = b.eng.pwr := rfl
@[simp] theorem modMot_lsw (u : Nat) (f : Motor → Motor) : (b.modMot u f).eng.lsw = b.eng.lsw := rfl
@[simp] theorem modMot_fb (u : Nat) (f : Motor → Motor) : (b.modMot u f).eng.fb = b.eng.fb := rfl
@[simp] theorem modMot_pose (u : Nat) (f : Motor → Motor) : (b.modMot u f).eng.pose = b.eng.pose := rfl
@[simp] theorem modMot_map (u : Nat) (f : Motor → Motor) : (b.modMot u f).eng.map = b.eng.map := rfl
@[simp] theorem modMot_valve (u : Nat) (f : Motor → Motor) : (b.modMot u f).eng.valve = b.eng.valve := rfl
@[simp] theorem modMot_alm (u : Nat) (f : Motor → Motor) : (b.modMot u f).eng.alm = b.eng.alm := rfl
@[simp] theorem modMot_loop (u : Nat) (f : Motor → Motor) : (b.modMot u f).eng.loop = b.eng.loop := rfl
@[simp] theorem modMot_own (u : Nat) (f : Motor → Motor) : (b.modMot u f).eng.mot = { b.eng.mot with units := modNth b.eng.mot.units u f } :=
    rfl

@[simp] theorem modLoops_ident (f : Loops → Loops) : (b.modLoops f).ident = b.ident := rfl
@[simp] theorem modLoops_regs (f : Loops → Loops) : (b.modLoops f).regs = b.regs := rfl
@[simp] theorem modLoops_time (f : Loops → Loops) : (b.modLoops f).time = b.time := rfl
@[simp] theorem modLoops_link (f : Loops → Loops) : (b.modLoops f).link = b.link := rfl
@[simp] theorem modLoops_vig (f : Loops → Loops) : (b.modLoops f).vig = b.vig := rfl
@[simp] theorem modLoops_evt (f : Loops → Loops) : (b.modLoops f).evt = b.evt := rfl
@[simp] theorem modLoops_diary (f : Loops → Loops) : (b.modLoops f).diary = b.diary := rfl
@[simp] theorem modLoops_can (f : Loops → Loops) : (b.modLoops f).can = b.can := rfl
@[simp] theorem modLoops_upd (f : Loops → Loops) : (b.modLoops f).upd = b.upd := rfl
@[simp] theorem modLoops_sup (f : Loops → Loops) : (b.modLoops f).sup = b.sup := rfl
@[simp] theorem modLoops_posted (f : Loops → Loops) : (b.modLoops f).posted = b.posted := rfl
@[simp] theorem modLoops_pub (f : Loops → Loops) : (b.modLoops f).pub = b.pub := rfl
@[simp] theorem modLoops_pubTime (f : Loops → Loops) : (b.modLoops f).pubTime = b.pubTime := rfl
@[simp] theorem modLoops_pubSup (f : Loops → Loops) : (b.modLoops f).pubSup = b.pubSup := rfl
@[simp] theorem modLoops_draws (f : Loops → Loops) : (b.modLoops f).draws = b.draws := rfl
@[simp] theorem modLoops_word (f : Loops → Loops) (z : Reg) (x y : Nat) : (b.modLoops f).word z x y = b.word z x y :=
    rfl
@[simp] theorem modLoops_pwr (f : Loops → Loops) : (b.modLoops f).eng.pwr = b.eng.pwr := rfl
@[simp] theorem modLoops_lsw (f : Loops → Loops) : (b.modLoops f).eng.lsw = b.eng.lsw := rfl
@[simp] theorem modLoops_fb (f : Loops → Loops) : (b.modLoops f).eng.fb = b.eng.fb := rfl
@[simp] theorem modLoops_pose (f : Loops → Loops) : (b.modLoops f).eng.pose = b.eng.pose := rfl
@[simp] theorem modLoops_map (f : Loops → Loops) : (b.modLoops f).eng.map = b.eng.map := rfl
@[simp] theorem modLoops_valve (f : Loops → Loops) : (b.modLoops f).eng.valve = b.eng.valve := rfl
@[simp] theorem modLoops_alm (f : Loops → Loops) : (b.modLoops f).eng.alm = b.eng.alm := rfl
@[simp] theorem modLoops_mot (f : Loops → Loops) : (b.modLoops f).eng.mot = b.eng.mot := rfl
@[simp] theorem modLoops_own (f : Loops → Loops) : (b.modLoops f).eng.loop = f b.eng.loop := rfl

@[simp] theorem modSlot_ident (s : Nat) (f : LoopSlot → LoopSlot) : (b.modSlot s f).ident = b.ident := rfl
@[simp] theorem modSlot_regs (s : Nat) (f : LoopSlot → LoopSlot) : (b.modSlot s f).regs = b.regs := rfl
@[simp] theorem modSlot_time (s : Nat) (f : LoopSlot → LoopSlot) : (b.modSlot s f).time = b.time := rfl
@[simp] theorem modSlot_link (s : Nat) (f : LoopSlot → LoopSlot) : (b.modSlot s f).link = b.link := rfl
@[simp] theorem modSlot_vig (s : Nat) (f : LoopSlot → LoopSlot) : (b.modSlot s f).vig = b.vig := rfl
@[simp] theorem modSlot_evt (s : Nat) (f : LoopSlot → LoopSlot) : (b.modSlot s f).evt = b.evt := rfl
@[simp] theorem modSlot_diary (s : Nat) (f : LoopSlot → LoopSlot) : (b.modSlot s f).diary = b.diary := rfl
@[simp] theorem modSlot_can (s : Nat) (f : LoopSlot → LoopSlot) : (b.modSlot s f).can = b.can := rfl
@[simp] theorem modSlot_upd (s : Nat) (f : LoopSlot → LoopSlot) : (b.modSlot s f).upd = b.upd := rfl
@[simp] theorem modSlot_sup (s : Nat) (f : LoopSlot → LoopSlot) : (b.modSlot s f).sup = b.sup := rfl
@[simp] theorem modSlot_posted (s : Nat) (f : LoopSlot → LoopSlot) : (b.modSlot s f).posted = b.posted := rfl
@[simp] theorem modSlot_pub (s : Nat) (f : LoopSlot → LoopSlot) : (b.modSlot s f).pub = b.pub := rfl
@[simp] theorem modSlot_pubTime (s : Nat) (f : LoopSlot → LoopSlot) : (b.modSlot s f).pubTime = b.pubTime := rfl
@[simp] theorem modSlot_pubSup (s : Nat) (f : LoopSlot → LoopSlot) : (b.modSlot s f).pubSup = b.pubSup := rfl
@[simp] theorem modSlot_draws (s : Nat) (f : LoopSlot → LoopSlot) : (b.modSlot s f).draws = b.draws := rfl
@[simp] theorem modSlot_word (s : Nat) (f : LoopSlot → LoopSlot) (z : Reg) (x y : Nat) : (b.modSlot s f).word z x y = b.word z x y :=
    rfl
@[simp] theorem modSlot_pwr (s : Nat) (f : LoopSlot → LoopSlot) : (b.modSlot s f).eng.pwr = b.eng.pwr := rfl
@[simp] theorem modSlot_lsw (s : Nat) (f : LoopSlot → LoopSlot) : (b.modSlot s f).eng.lsw = b.eng.lsw := rfl
@[simp] theorem modSlot_fb (s : Nat) (f : LoopSlot → LoopSlot) : (b.modSlot s f).eng.fb = b.eng.fb := rfl
@[simp] theorem modSlot_pose (s : Nat) (f : LoopSlot → LoopSlot) : (b.modSlot s f).eng.pose = b.eng.pose := rfl
@[simp] theorem modSlot_map (s : Nat) (f : LoopSlot → LoopSlot) : (b.modSlot s f).eng.map = b.eng.map := rfl
@[simp] theorem modSlot_valve (s : Nat) (f : LoopSlot → LoopSlot) : (b.modSlot s f).eng.valve = b.eng.valve := rfl
@[simp] theorem modSlot_alm (s : Nat) (f : LoopSlot → LoopSlot) : (b.modSlot s f).eng.alm = b.eng.alm := rfl
@[simp] theorem modSlot_mot (s : Nat) (f : LoopSlot → LoopSlot) : (b.modSlot s f).eng.mot = b.eng.mot := rfl
@[simp] theorem modSlot_own (s : Nat) (f : LoopSlot → LoopSlot) : (b.modSlot s f).eng.loop = { b.eng.loop with slots := modNth b.eng.loop.slots s f } :=
    rfl

@[simp] theorem modTrace_ident (f : Trace → Trace) : (b.modTrace f).ident = b.ident := rfl
@[simp] theorem modTrace_regs (f : Trace → Trace) : (b.modTrace f).regs = b.regs := rfl
@[simp] theorem modTrace_time (f : Trace → Trace) : (b.modTrace f).time = b.time := rfl
@[simp] theorem modTrace_link (f : Trace → Trace) : (b.modTrace f).link = b.link := rfl
@[simp] theorem modTrace_vig (f : Trace → Trace) : (b.modTrace f).vig = b.vig := rfl
@[simp] theorem modTrace_evt (f : Trace → Trace) : (b.modTrace f).evt = b.evt := rfl
@[simp] theorem modTrace_diary (f : Trace → Trace) : (b.modTrace f).diary = b.diary := rfl
@[simp] theorem modTrace_can (f : Trace → Trace) : (b.modTrace f).can = b.can := rfl
@[simp] theorem modTrace_upd (f : Trace → Trace) : (b.modTrace f).upd = b.upd := rfl
@[simp] theorem modTrace_sup (f : Trace → Trace) : (b.modTrace f).sup = b.sup := rfl
@[simp] theorem modTrace_posted (f : Trace → Trace) : (b.modTrace f).posted = b.posted := rfl
@[simp] theorem modTrace_pub (f : Trace → Trace) : (b.modTrace f).pub = b.pub := rfl
@[simp] theorem modTrace_pubTime (f : Trace → Trace) : (b.modTrace f).pubTime = b.pubTime := rfl
@[simp] theorem modTrace_pubSup (f : Trace → Trace) : (b.modTrace f).pubSup = b.pubSup := rfl
@[simp] theorem modTrace_draws (f : Trace → Trace) : (b.modTrace f).draws = b.draws := rfl
@[simp] theorem modTrace_word (f : Trace → Trace) (z : Reg) (x y : Nat) : (b.modTrace f).word z x y = b.word z x y :=
    rfl
@[simp] theorem modTrace_pwr (f : Trace → Trace) : (b.modTrace f).eng.pwr = b.eng.pwr := rfl
@[simp] theorem modTrace_lsw (f : Trace → Trace) : (b.modTrace f).eng.lsw = b.eng.lsw := rfl
@[simp] theorem modTrace_fb (f : Trace → Trace) : (b.modTrace f).eng.fb = b.eng.fb := rfl
@[simp] theorem modTrace_pose (f : Trace → Trace) : (b.modTrace f).eng.pose = b.eng.pose := rfl
@[simp] theorem modTrace_map (f : Trace → Trace) : (b.modTrace f).eng.map = b.eng.map := rfl
@[simp] theorem modTrace_valve (f : Trace → Trace) : (b.modTrace f).eng.valve = b.eng.valve := rfl
@[simp] theorem modTrace_alm (f : Trace → Trace) : (b.modTrace f).eng.alm = b.eng.alm := rfl
@[simp] theorem modTrace_mot (f : Trace → Trace) : (b.modTrace f).eng.mot = b.eng.mot := rfl
@[simp] theorem modTrace_own (f : Trace → Trace) : (b.modTrace f).eng.loop = { b.eng.loop with trace := f b.eng.loop.trace } :=
    rfl

end Sys2Proof.Machine
end

