-- ==== Sys2Proof/Laws/Regs.lean ====
section
/-! SUPPORT. Laws of the register file and of the fields of words: what a write leaves at its own address and at
    every other. -/

namespace Sys2Proof.Machine

open Sys2Proof (Word Byte Bytes Sess Hdr Instr)

/-! ### Files -/

theorem fileGet_insert_same (f : RegFile) (k : Nat) (v d : Word) (h : ∀ p ∈ f, p.1 ≠ k) :
    fileGet (fileInsert f k v) k d = v := by
  induction f with
  | nil => simp [fileInsert, fileGet]
  | cons p f ih =>
    obtain ⟨a, w⟩ := p
    have ha : a ≠ k := h (a, w) (by simp)
    have hf : ∀ p ∈ f, p.1 ≠ k := fun p hp => h p (by simp [hp])
    simp only [fileInsert]
    split
    · simp [fileGet, ha, ih hf]
    · simp [fileGet]

theorem fileGet_insert_ne (f : RegFile) (k a : Nat) (v d : Word) (h : a ≠ k) :
    fileGet (fileInsert f k v) a d = fileGet f a d := by
  induction f with
  | nil => simp [fileInsert, fileGet, Ne.symm h]
  | cons p f ih =>
    obtain ⟨c, w⟩ := p
    simp only [fileInsert]
    split
    · simp [fileGet, ih]
    · simp [fileGet, Ne.symm h]

theorem fileGet_filter_ne (f : RegFile) (k a : Nat) (d : Word) (h : a ≠ k) :
    fileGet (f.filter (fun p => p.1 != k)) a d = fileGet f a d := by
  induction f with
  | nil => rfl
  | cons p f ih =>
    obtain ⟨c, w⟩ := p
    by_cases hc : c = k
    · subst hc; simp [fileGet, Ne.symm h, ih]
    · simp [hc, fileGet, ih]

theorem fileGet_none (f : RegFile) (k : Nat) (d : Word) (h : ∀ p ∈ f, p.1 ≠ k) : fileGet f k d = d := by
  induction f with
  | nil => rfl
  | cons p f ih =>
    obtain ⟨c, w⟩ := p
    have hc : c ≠ k := h (c, w) (by simp)
    simp [fileGet, hc, ih (fun p hp => h p (by simp [hp]))]

/-- A word written reads back. -/
@[simp] theorem fileGet_set_same (f : RegFile) (k : Nat) (d v : Word) : fileGet (fileSet f k d v) k d = v := by
  have h : ∀ p ∈ f.filter (fun p => p.1 != k), p.1 ≠ k := fun p hp => by simpa using (List.mem_filter.mp hp).2
  simp only [fileSet]
  split
  · rename_i e; rw [fileGet_none _ _ _ h, e]
  · exact fileGet_insert_same _ _ _ _ h

/-- A write leaves every other word as it was. -/
theorem fileGet_set_ne (f : RegFile) (k a : Nat) (d v d' : Word) (h : a ≠ k) :
    fileGet (fileSet f k d v) a d' = fileGet f a d' := by
  simp only [fileSet]
  split
  · exact fileGet_filter_ne _ _ _ _ h
  · rw [fileGet_insert_ne _ _ _ _ _ h, fileGet_filter_ne _ _ _ _ h]

/-! ### Words of the block -/

@[simp] theorem word_setWord_same (b : Block) (r : Reg) (i j : Nat) (v : Word) :
    (b.setWord r i j v).word r i j = v := by simp [Block.word, Block.setWord]

theorem word_setWord_ne (b : Block) (r r' : Reg) (i j i' j' : Nat) (v : Word) (h : addr r' i' j' ≠ addr r i j) :
    (b.setWord r i j v).word r' i' j' = b.word r' i' j' := by
  simp [Block.word, Block.setWord, fileGet_set_ne _ _ _ _ _ _ h]

/-! ### Fields -/

theorem bits_lt (w : Word) (m l : Nat) : bits w m l < 2 ^ (m + 1 - l) := Nat.mod_lt _ (Nat.two_pow_pos _)

theorem bits_full (w : Word) : bits w 31 0 = w.toNat := by
  have := w.isLt
  simp only [bits, bitsOf]
  omega

/-- A whole word set as a field. -/
theorem setBits_full (w : Word) (v : Nat) : setBits w 31 0 v = BitVec.ofNat 32 v := by
  have h : (BitVec.ofNat 32 (2 ^ (31 + 1 - 0) - 1) <<< 0 : Word) = BitVec.allOnes 32 := by decide
  unfold setBits
  dsimp only
  rw [h, BitVec.shiftLeft_zero, BitVec.and_allOnes]
  simp

@[simp] theorem word_countWrap_full (b : Block) (r : Reg) (i : Nat) :
    (b.countWrap r i 31 0).word r i = b.word r i + 1 := by
  simp only [Block.countWrap, Block.setFld, word_setWord_same, setBits_full, Block.fld, bits_full]
  apply BitVec.eq_of_toNat_eq
  simp

@[simp] theorem word_latch_same (b : Block) (r : Reg) (i n : Nat) :
    (b.latch r i n).word r i = b.word r i ||| BitVec.ofNat 32 (2 ^ n) := by simp [Block.latch]

@[simp] theorem word_unlatch_same (b : Block) (r : Reg) (i : Nat) (m : Word) :
    (b.unlatch r i m).word r i = b.word r i &&& ~~~m := by simp [Block.unlatch]

end Sys2Proof.Machine
end

