-- ==== Sys2Proof/Laws/Frames.lean ====
section
/-! SUPPORT. How frames combine, and the frames of the operations that every command is made of. -/

namespace Sys2Proof.Machine

open Sys2Proof (Word Byte Bytes Sess Hdr Instr)

/-! ### Frames combine -/

theorem BlockPart.same_refl (b : Block) (p : BlockPart) : p.same b b := by
  cases p <;> simp [BlockPart.same, sessSame]

theorem BlockPart.same_trans {a b c : Block} {p : BlockPart} (h : p.same a b) (g : p.same b c) : p.same a c := by
  cases p <;> simp_all [BlockPart.same, sessSame]

theorem Keeps.refl (l : List BlockPart) (b : Block) : Keeps l b b := fun p _ => p.same_refl b

theorem Keeps.trans {l : List BlockPart} {a b c : Block} (h : Keeps l a b) (g : Keeps l b c) : Keeps l a c :=
  fun p hp => BlockPart.same_trans (h p hp) (g p hp)

theorem Keeps.mono {l m : List BlockPart} {a b : Block} (h : Keeps l a b) (s : l ⊆ m) : Keeps m a b :=
  fun p hp => h p (fun hl => hp (s hl))

theorem KeepsWords.refl (l : List Nat) (b : Block) : KeepsWords l b b := fun _ _ _ => rfl

theorem KeepsWords.trans {l : List Nat} {a b c : Block} (h : KeepsWords l a b) (g : KeepsWords l b c) :
    KeepsWords l a c := fun x hx d => (g x hx d).trans (h x hx d)

theorem KeepsWords.mono {l m : List Nat} {a b : Block} (h : KeepsWords l a b) (s : l ⊆ m) : KeepsWords m a b :=
  fun x hx => h x (fun hl => hx (s hl))

theorem KeepsWords.of_regs {l : List Nat} {a b : Block} (h : b.regs = a.regs) : KeepsWords l a b :=
  fun _ _ _ => by rw [h]

theorem keeps_foldl {α : Type} (p : List BlockPart) (l : List α) (g : Block → α → Block) (b : Block)
    (h : ∀ b x, Keeps p b (g b x)) : Keeps p b (l.foldl g b) := by
  induction l generalizing b with
  | nil => exact Keeps.refl p b
  | cons x l ih => exact Keeps.trans (h b x) (ih _)

theorem keepsWords_foldl {α : Type} (p : List Nat) (l : List α) (g : Block → α → Block) (b : Block)
    (h : ∀ b x, KeepsWords p b (g b x)) : KeepsWords p b (l.foldl g b) := by
  induction l generalizing b with
  | nil => exact KeepsWords.refl p b
  | cons x l ih => exact KeepsWords.trans (h b x) (ih _)

/-! ### The register file -/

theorem setWord_keeps (b : Block) (r : Reg) (i j : Nat) (v : Word) : Keeps [] b (b.setWord r i j v) := by
  intro p _; cases p <;> simp [BlockPart.same, sessSame, Block.setWord]

theorem setWord_words (b : Block) (r : Reg) (i j : Nat) (v : Word) :
    KeepsWords [addr r i j] b (b.setWord r i j v) := by
  intro a ha d
  exact fileGet_set_ne _ _ _ _ _ _ (by simpa using ha)

theorem countWrap_keeps (b : Block) (r : Reg) (i m l n : Nat) : Keeps [] b (b.countWrap r i m l n) :=
  setWord_keeps _ _ _ _ _

theorem countWrap_words (b : Block) (r : Reg) (i m l n : Nat) : KeepsWords [addr r i] b (b.countWrap r i m l n) :=
  setWord_words _ _ _ _ _

theorem count_keeps (b : Block) (r : Reg) (i m l n : Nat) : Keeps [] b (b.count r i m l n) :=
  setWord_keeps _ _ _ _ _

theorem count_words (b : Block) (r : Reg) (i m l n : Nat) : KeepsWords [addr r i] b (b.count r i m l n) :=
  setWord_words _ _ _ _ _

theorem setFld_keeps (b : Block) (r : Reg) (i m l v : Nat) : Keeps [] b (b.setFld r i m l v) :=
  setWord_keeps _ _ _ _ _

theorem setFld_words (b : Block) (r : Reg) (i m l v : Nat) : KeepsWords [addr r i] b (b.setFld r i m l v) :=
  setWord_words _ _ _ _ _

theorem latch_keeps (b : Block) (r : Reg) (i n : Nat) : Keeps [] b (b.latch r i n) := setWord_keeps _ _ _ _ _

theorem latch_words (b : Block) (r : Reg) (i n : Nat) : KeepsWords [addr r i] b (b.latch r i n) :=
  setWord_words _ _ _ _ _

theorem unlatch_keeps (b : Block) (r : Reg) (i : Nat) (m : Word) : Keeps [] b (b.unlatch r i m) :=
  setWord_keeps _ _ _ _ _

theorem unlatch_words (b : Block) (r : Reg) (i : Nat) (m : Word) : KeepsWords [addr r i] b (b.unlatch r i m) :=
  setWord_words _ _ _ _ _

/-! ### Units -/

theorem setUnit_keeps (b : Block) (u : Nat) (f : UnitEntry → UnitEntry) : Keeps [.units] b (b.setUnit u f) := by
  intro p hp; cases p <;> simp_all [BlockPart.same, sessSame, Block.setUnit]

theorem postUnit_keeps (b : Block) (q : UnitReq) : Keeps [.unitReqs] b (b.postUnit q) := by
  intro p hp; cases p <;> simp_all [BlockPart.same, sessSame, Block.postUnit]

theorem reaches_keeps (b : Block) (t : Nat) : Keeps [.hand] b (b.reaches t) := by
  intro p hp; cases p <;> simp_all [BlockPart.same, sessSame, Block.reaches]

theorem faultUnit_keeps (b : Block) (u t : Nat) (c : Cause) : Keeps [.unitReqs, .hand] b (b.faultUnit u t c) :=
  ((reaches_keeps _ _).mono (by simp)).trans ((postUnit_keeps _ _).mono (by simp))

/-! ### Raising an event (R430): what it may change -/

theorem intake_keeps (b : Block) (s : Nat) (c : Byte) (p : Payload) (now : Nat) :
    Keeps [.diary] b (b.intake s c p now) := by
  have h (x : Diary) : Keeps [.diary] b { b with diary := x } := by
    intro q hq; cases q <;> simp_all [BlockPart.same, sessSame]
  unfold Block.intake
  dsimp only
  split
  · exact (count_keeps _ _ _ _ _ _).mono (by simp)
  · split
    · exact (h _).trans ((count_keeps _ _ _ _ _ _).mono (by simp))
    · split
      · exact h _
      · exact (h _).trans ((count_keeps _ _ _ _ _ _).mono (by simp))

theorem intake_words (b : Block) (s : Nat) (c : Byte) (p : Payload) (now : Nat) :
    KeepsWords [addr .DIARY_CNT0] b (b.intake s c p now) := by
  unfold Block.intake
  dsimp only
  split
  · exact count_words _ _ _ _ _ _
  · split
    · exact KeepsWords.trans (KeepsWords.of_regs rfl) (count_words _ _ _ _ _ _)
    · split
      · exact KeepsWords.of_regs rfl
      · exact KeepsWords.trans (KeepsWords.of_regs rfl) (count_words _ _ _ _ _ _)

/-- An EVENT queue takes an occurrence: nothing else of its session changes. -/
theorem event_fst (x : Session) (o : Occurrence) (p : Payload) :
    (x.event o p).1 = { x with events := (x.event o p).1.events, evDiscarded := (x.event o p).1.evDiscarded } := by
  unfold Session.event
  repeat' split
  all_goals rfl

theorem modSess_events_keeps (b : Block) (k : Sess) (e : List Occurrence) (n : Nat) :
    Keeps [.evQueues] b (b.modSess k (fun s => { s with events := e, evDiscarded := n })) := by
  intro q hq
  cases k <;> cases q <;> simp_all [BlockPart.same, sessSame, Block.modSess, Link.modSess]

theorem modSess_event (b : Block) (k : Sess) (o : Occurrence) (p : Payload) :
    b.modSess k (fun _ => ((b.link.sess k).event o p).1)
      = b.modSess k (fun s => { s with events := ((b.link.sess k).event o p).1.events,
                                       evDiscarded := ((b.link.sess k).event o p).1.evDiscarded }) := by
  have h := event_fst (b.link.sess k) o p
  generalize ((b.link.sess k).event o p).1 = y at h
  cases k <;> simpa [Block.modSess, Link.modSess, Link.sess] using h

theorem toPackets_keeps (b : Block) (k : Sess) (o : Occurrence) (p : Payload) :
    Keeps [.evQueues] b (b.toPackets k o p) := by
  unfold Block.toPackets
  dsimp only
  split
  · rw [modSess_event]
    split
    · cases k
      · exact (modSess_events_keeps _ _ _ _).trans ((count_keeps _ _ _ _ _ _).mono (by simp))
      · exact (modSess_events_keeps _ _ _ _).trans ((count_keeps _ _ _ _ _ _).mono (by simp))
    · exact modSess_events_keeps _ _ _ _
  · exact Keeps.refl _ _

theorem toPackets_words (b : Block) (k : Sess) (o : Occurrence) (p : Payload) :
    KeepsWords [addr .EVT_PKT_STAT] b (b.toPackets k o p) := by
  unfold Block.toPackets
  dsimp only
  split
  · split
    · cases k
      · exact KeepsWords.trans (KeepsWords.of_regs rfl) (count_words _ _ _ _ _ _)
      · exact KeepsWords.trans (KeepsWords.of_regs rfl) (count_words _ _ _ _ _ _)
    · exact KeepsWords.of_regs (by cases k <;> rfl)
  · exact KeepsWords.refl _ _

theorem assert_keeps (b : Block) (s : Nat) (c : Byte) (now : Nat) (still : Bool) :
    Keeps [.events] b (b.assert s c now still) := by
  intro q hq; cases q <;> simp_all [BlockPart.same, sessSame, Block.assert]

theorem dtcUpdate_keeps (b : Block) (s : Nat) : Keeps [.codes] b (b.dtcUpdate s) := by
  intro q hq
  unfold Block.dtcUpdate
  dsimp only
  split <;> cases q <;> simp_all [BlockPart.same, sessSame]

theorem dtcUpdate_regs (b : Block) (s : Nat) : (b.dtcUpdate s).regs = b.regs := by
  unfold Block.dtcUpdate
  dsimp only
  split <;> rfl

theorem toQueues_keeps (b : Block) (o : Occurrence) (p : Payload) : Keeps [.evQueues] b (b.toQueues o p) := by
  unfold Block.toQueues
  split
  · exact (toPackets_keeps _ _ _ _).trans (toPackets_keeps _ _ _ _)
  · exact Keeps.refl _ _

theorem toQueues_words (b : Block) (o : Occurrence) (p : Payload) :
    KeepsWords [addr .EVT_PKT_STAT] b (b.toQueues o p) := by
  unfold Block.toQueues
  split
  · exact (toPackets_words _ _ _ _).trans (toPackets_words _ _ _ _)
  · exact KeepsWords.refl _ _

theorem toDiary_keeps (b : Block) (o : Occurrence) (p : Payload) : Keeps [.diary] b (b.toDiary o p) := by
  unfold Block.toDiary
  split
  · exact intake_keeps _ _ _ _ _
  · exact Keeps.refl _ _

theorem toDiary_words (b : Block) (o : Occurrence) (p : Payload) :
    KeepsWords [addr .DIARY_CNT0] b (b.toDiary o p) := by
  unfold Block.toDiary
  split
  · exact intake_words _ _ _ _ _
  · exact KeepsWords.refl _ _

/-- Raising an event changes nothing but what routes it. -/
theorem raise_keeps (b : Block) (s : Nat) (c : Byte) (p : Payload) (at_ : Nat) (still : Bool) :
    Keeps eventParts b (b.raise s c p at_ still) := by
  unfold Block.raise
  dsimp only
  split
  · exact ((countWrap_keeps _ _ _ _ _ _).mono (by simp)).trans
      (((assert_keeps _ _ _ _ _).mono (by simp [eventParts])).trans
        (((toQueues_keeps _ _ _).mono (by simp [eventParts])).trans
          (((toDiary_keeps _ _ _).mono (by simp [eventParts])).trans
            ((dtcUpdate_keeps _ _).mono (by simp [eventParts])))))
  · exact (countWrap_keeps _ _ _ _ _ _).mono (by simp)

theorem assert_words (b : Block) (s : Nat) (c : Byte) (now : Nat) (still : Bool) :
    KeepsWords [] b (b.assert s c now still) := KeepsWords.of_regs rfl

theorem dtcUpdate_words (b : Block) (s : Nat) : KeepsWords [] b (b.dtcUpdate s) :=
  KeepsWords.of_regs (dtcUpdate_regs _ _)

/-- Raising an event changes no word but its count and the counts of the Diary and of the EVENT queues. -/
theorem raise_words (b : Block) (s : Nat) (c : Byte) (p : Payload) (at_ : Nat) (still : Bool) :
    KeepsWords (eventWords [s]) b (b.raise s c p at_ still) := by
  unfold Block.raise
  dsimp only
  split
  · exact ((countWrap_words _ _ _ _ _ _).mono (by simp [eventWords])).trans
      (((assert_words _ _ _ _ _).mono (by simp)).trans
        (((toQueues_words _ _ _).mono (by simp [eventWords])).trans
          (((toDiary_words _ _ _).mono (by simp [eventWords])).trans ((dtcUpdate_words _ _).mono (by simp)))))
  · exact (countWrap_words _ _ _ _ _ _).mono (by simp [eventWords])

end Sys2Proof.Machine
end

