-- ==== Sys2Proof/Laws/Requests.lean ====
section
/-! SUPPORT. What a request does beside its own effect: the reply, the fences, the way through an empty queue. -/

namespace Sys2Proof.Machine

open Sys2Proof (Word Byte Bytes Sess Hdr Instr)

/-! ### Replies -/

theorem modSess_replies_keeps (b : Block) (k : Sess) (f : Session → List Packet) :
    Keeps [.replies] b (b.modSess k (fun s => { s with replies := f s })) := by
  intro q hq
  cases k <;> cases q <;> simp_all [BlockPart.same, sessSame, Block.modSess, Link.modSess]

theorem send_keeps (b : Block) (p : Packet) (t : Nat) : Keeps [.sent] b (b.send p t) := by
  intro q hq
  cases q <;> simp_all [BlockPart.same, sessSame, Block.send]

theorem reply_keeps (b : Block) (k : Option Sess) (h : Hdr) (op : BitVec 16) (st : Status) (tick : Word)
    (payload : Bytes) : Keeps [.sent, .replies] b (b.reply k h op st tick payload) := by
  unfold Block.reply
  dsimp only
  split
  · exact Keeps.refl _ _
  · cases k with
    | none => exact (send_keeps _ _ _).mono (by simp)
    | some k => exact ((send_keeps _ _ _).mono (by simp)).trans ((modSess_replies_keeps _ _ _).mono (by simp))

@[simp] theorem reply_regs (b : Block) (k : Option Sess) (h : Hdr) (op : BitVec 16) (st : Status) (tick : Word)
    (payload : Bytes) : (b.reply k h op st tick payload).regs = b.regs := by
  unfold Block.reply
  dsimp only
  split
  · rfl
  · cases k <;> rfl

/-- A reply is the packet that answers the request, or none. -/
@[simp] theorem reply_sent (b : Block) (k : Option Sess) (h : Hdr) (op : BitVec 16) (st : Status) (tick : Word)
    (payload : Bytes) :
    (b.reply k h op st tick payload).link.sent = b.link.sent ++ answer h op st tick payload := by
  unfold Block.reply answer
  dsimp only
  split
  · simp
  · cases k with
    | none => rfl
    | some k => cases k <;> rfl

theorem replyNow_keeps (b : Block) (k : Option Sess) (h : Hdr) (op : BitVec 16) (st : Status) (payload : Bytes) :
    Keeps [.sent, .replies] b (b.replyNow k h op st payload) := reply_keeps _ _ _ _ _ _ _

@[simp] theorem replyNow_regs (b : Block) (k : Option Sess) (h : Hdr) (op : BitVec 16) (st : Status)
    (payload : Bytes) : (b.replyNow k h op st payload).regs = b.regs := reply_regs _ _ _ _ _ _ _

@[simp] theorem replyNow_sent (b : Block) (k : Option Sess) (h : Hdr) (op : BitVec 16) (st : Status)
    (payload : Bytes) :
    (b.replyNow k h op st payload).link.sent = b.link.sent ++ answer h op st b.time.count payload :=
  reply_sent _ _ _ _ _ _ _

theorem begins_keeps (b : Block) (seq : Nat) (k : Sess) (h : Hdr) (op : BitVec 16) (ends : Until) (holds : Bool) :
    Keeps [.requests] b (b.begins seq k h op ends holds) := by
  intro q hq
  cases q <;> simp_all [BlockPart.same, sessSame, Block.begins]

theorem completes_keeps (b : Block) (seq : Nat) : Keeps [.requests] b (b.completes seq) := by
  intro q hq
  cases q <;> simp_all [BlockPart.same, sessSame, Block.completes]

/-! ### Fences -/

theorem finishes_keeps (b : Block) (p : InProgress) (st : Status) (payload : Bytes) :
    Keeps [.requests, .sent, .replies] b (b.finishes p st payload) := by
  unfold Block.finishes
  dsimp only
  refine Keeps.trans (b := if _ then _ else _) ?_ ((completes_keeps _ _).mono (by simp))
  split
  · exact (reply_keeps _ _ _ _ _ _ _).mono (by simp)
  · split
    · exact (reply_keeps _ _ _ _ _ _ _).mono (by simp)
    · exact Keeps.refl _ _

theorem finishes_regs (b : Block) (p : InProgress) (st : Status) (payload : Bytes) :
    (b.finishes p st payload).regs = b.regs := by
  unfold Block.finishes Block.completes
  dsimp only
  split
  · exact reply_regs _ _ _ _ _ _ _
  · split
    · exact reply_regs _ _ _ _ _ _ _
    · rfl

theorem finishes_sent (b : Block) (p : InProgress) (st : Status) (payload : Bytes) :
    b.link.sent <+: (b.finishes p st payload).link.sent := by
  unfold Block.finishes Block.completes
  dsimp only
  split
  · simp
  · split
    · simp
    · simp

theorem fenceStep_keeps (b : Block) (p : InProgress) : Keeps [.requests, .sent, .replies] b (b.fenceStep p) := by
  have h (l : List InProgress) : Keeps [.requests, .sent, .replies] b
      { b with link := { b.link with progress := l } } := by
    intro q hq; cases q <;> simp_all [BlockPart.same, sessSame]
  unfold Block.fenceStep
  split
  · split
    · exact Keeps.refl _ _
    · split
      · exact h _
      · exact finishes_keeps _ _ _ _
  · split
    · exact Keeps.refl _ _
    · exact finishes_keeps _ _ _ _
  · exact Keeps.refl _ _

theorem fenceStep_regs (b : Block) (p : InProgress) : (b.fenceStep p).regs = b.regs := by
  unfold Block.fenceStep
  repeat' split
  all_goals first
    | rfl
    | exact finishes_regs _ _ _ _

theorem fenceStep_sent (b : Block) (p : InProgress) : b.link.sent <+: (b.fenceStep p).link.sent := by
  unfold Block.fenceStep
  repeat' split
  all_goals first
    | exact List.prefix_refl _
    | exact finishes_sent _ _ _ _

theorem fences_keeps (b : Block) : Keeps [.requests, .sent, .replies] b b.fences :=
  keeps_foldl _ _ _ _ (fun b p => fenceStep_keeps b p)

theorem foldl_regs {α : Type} (l : List α) (g : Block → α → Block) (b : Block)
    (h : ∀ b x, (g b x).regs = b.regs) : (l.foldl g b).regs = b.regs := by
  induction l generalizing b with
  | nil => rfl
  | cons x l ih => exact (ih _).trans (h b x)

theorem foldl_sent {α : Type} (l : List α) (g : Block → α → Block) (b : Block)
    (h : ∀ b x, b.link.sent <+: (g b x).link.sent) : b.link.sent <+: (l.foldl g b).link.sent := by
  induction l generalizing b with
  | nil => exact List.prefix_refl _
  | cons x l ih => exact (h b x).trans (ih _)

@[simp] theorem fences_regs (b : Block) : b.fences.regs = b.regs := foldl_regs _ _ _ fenceStep_regs

/-- Fences only add replies. -/
theorem fences_sent (b : Block) : b.link.sent <+: b.fences.link.sent := foldl_sent _ _ _ fenceStep_sent

/-! ### The way through an empty queue -/

theorem keepAlive_keeps (b : Block) (k : Sess) (h : Hdr) : Keeps [.keepalive] b (b.keepAlive k h) := by
  intro q hq
  cases k <;> cases q <;> simp_all [BlockPart.same, sessSame, Block.keepAlive, Block.modSess, Link.modSess]

theorem arrives_keeps (b : Block) (h : Hdr) : Keeps [.requests] b (b.arrives h) := by
  intro q hq
  cases q <;> simp_all [BlockPart.same, sessSame, Block.arrives]

theorem taken_keeps (b : Block) (k : Sess) (h : Hdr) : Keeps [.requests, .keepalive, .hand] b (b.taken k h) :=
  ((keepAlive_keeps b k h).mono (by simp)).trans (((reaches_keeps _ _).mono (by simp)).trans
    (((arrives_keeps _ _).mono (by simp)).trans
      (((setFld_keeps _ _ _ _ _ _).mono (by simp)).trans ((countWrap_keeps _ _ _ _ _ _).mono (by simp)))))

theorem taken_words (b : Block) (k : Sess) (h : Hdr) : KeepsWords (requestWords h) b (b.taken k h) :=
  KeepsWords.trans (b := ((b.keepAlive k h).reaches h.at_).arrives h) (KeepsWords.of_regs (keepAlive_regs b k h))
    (((setFld_words _ _ _ _ _ _).mono (by simp [requestWords])).trans
      ((countWrap_words _ _ _ _ _ _).mono (by simp [requestWords])))

@[simp] theorem taken_sent (b : Block) (k : Sess) (h : Hdr) : (b.taken k h).link.sent = b.link.sent := by
  cases k <;> simp [Block.taken, Link.modSess]

@[simp] theorem taken_progress (b : Block) (k : Sess) (h : Hdr) :
    (b.taken k h).link.progress = b.link.progress := by cases k <;> simp [Block.taken, Link.modSess]

/-- A request that is served is dispatched at once. -/
theorem request_served (b : Block) (i : Instr) (h : Hdr) (k : Sess) (op : OpRow) (d : Dispatch)
    (s : Served b h k op) :
    b.request i h op d = (d k b.link.arrivals (b.now h.at_) (b.taken k h)).fences := by
  have hq : (b.keepAlive k h).queue h.queue = [] := by
    have := s.queueEmpty; cases k <;> exact this
  have hr : (b.keepAlive k h).repeats k h = false := by
    have := s.noRepeat; cases k <;> exact this
  have hk : (b.keepAlive k h).keptReply k h = none := by
    have := s.fresh; cases k <;> exact this
  have hh : (b.keepAlive k h).held h = false := by
    have := s.notHeld; cases k <;> exact this
  have hroom : (b.keepAlive k h).roomFor h = true := by
    have := s.room; cases k <;> exact this
  have hd : hintDue b.time.count h.hint = true := by
    have := s.notHeld
    simp only [Block.held, Bool.or_eq_false_iff] at this; simpa using this.1.2
  have hf : hintTooFar (b.keepAlive k h).time.count h.hint = false := by simp [hintTooFar, hd]
  have ha : (b.keepAlive k h).link.arrivals = b.link.arrivals := by cases k <;> rfl
  have hn : (b.keepAlive k h).now h.at_ = b.now h.at_ := rfl
  have hp : ¬ (k = .main ∧ (op.serviceOnly = true ∨ h.queue = 3)) := by
    rintro ⟨e, g⟩
    obtain ⟨p1, p2⟩ := s.permitted e
    rcases g with g | g
    · simp [p1] at g
    · exact p2 g
  have hs : ¬ queueSlots h.queue ≤ 0 := by unfold queueSlots; split <;> omega
  unfold Block.request
  rw [s.reachable, s.session, s.single, s.running]
  simp only [Bool.not_true, Bool.false_eq_true, if_false, false_and]
  unfold Block.arrive
  dsimp only
  rw [hk]
  dsimp only
  rw [hr, hq, s.length, hf]
  simp only [Bool.not_true, Bool.false_eq_true, if_false, hp, List.length_nil, hs]
  unfold Block.takeSlot
  dsimp only
  rw [hq, hh, hroom, ha, hn]
  rfl

end Sys2Proof.Machine
end

