-- ==== Sys2Proof/Laws/Dispatch.lean ====
section
/-! SUPPORT. The requests of a session, one arm each: what the command does is what its dispatch does. -/

namespace Sys2Proof.Machine

open Sys2Proof (Word Byte Bytes Sess Hdr Instr)

theorem request_unlinked (b : Block) (i : Instr) (h : Hdr) (op : OpRow) (d : Dispatch) (u : b.linked = false) :
    b.request i h op d = b := by
  unfold Block.request Block.reachable
  rw [u]
  rfl

theorem exec_identify (h : Hdr) (s : State) (hn : h.session ≠ 0) (hm : h.multicast = false) :
    exec (.identify h) s = .next { s with
      blk := s.blk.request (.identify h) h identifyRow
        (fun k _ arrived b => dispatchIdentify h (some k) arrived b) } := by
  show execIdentify h s = _
  unfold execIdentify
  dsimp only [lift]
  cases u : s.blk.linked
  · simp [request_unlinked _ _ _ _ _ u]
  · simp only [Bool.not_true, Bool.false_eq_true, if_false, hn, hm]

theorem exec_reserved (h : Hdr) (q : Sys2Proof.Kinded) (s : State) :
    exec (.invalidRequest h (.reservedKind q)) s = .next { s with
      blk := s.blk.request (.invalidRequest h (.reservedKind q)) h (kindedRow q) (dispatchReserved h q) } := by
  show execInvalidRequest h (.reservedKind q) s = _
  unfold execInvalidRequest
  dsimp only [lift]
  cases u : s.blk.linked
  · simp [request_unlinked _ _ _ _ _ u]
  · simp

/-- A request of a session is its arrival with its row and its dispatch. -/
theorem exec_request (i : Instr) (s : State) (h : Hdr) (op : OpRow) (d : Dispatch) (hr : rowOf i = some (h, op))
    (hd : dispatchOf i = some d) (hn : h.session ≠ 0) (hm : h.multicast = false) :
    exec i s = .next { s with blk := s.blk.request i h op d } := by
  cases i
  case identify => cases hr; cases hd; exact exec_identify _ _ hn hm
  case invalidRequest h' why =>
    cases why
    case reservedKind => cases hr; cases hd; exact exec_reserved _ _ _
    all_goals cases hr
  all_goals (cases hr; try (cases hd; rfl))

theorem served_session (b : Block) (h : Hdr) (k : Sess) (op : OpRow) (v : Served b h k op) : h.session ≠ 0 := by
  have := v.session
  intro e
  simp [Block.sessionOf, e] at this

/-- What serving a request does: its dispatch on the block that has taken it, then the fences. -/
theorem exec_served (i : Instr) (s : State) (h : Hdr) (k : Sess) (op : OpRow) (d : Dispatch)
    (hr : rowOf i = some (h, op)) (hd : dispatchOf i = some d) (v : Served s.blk h k op) :
    exec i s = .next { s with blk :=
      (d k s.blk.link.arrivals (s.blk.now h.at_) (s.blk.taken k h)).fences } := by
  rw [exec_request i s h op d hr hd (served_session _ _ _ _ v) v.single, request_served _ _ _ _ _ _ v]

end Sys2Proof.Machine
end

