-- ==== Sys2Proof/Laws/Events.lean ====
section
/-! SUPPORT. Raising events: what it changes, what it leaves, how it counts. -/

namespace Sys2Proof.Machine

open Sys2Proof (Word Byte Bytes Sess Hdr Instr)

variable (b : Block)

/-! ### The other ways to raise -/

theorem raiseItems_keeps (s : Nat) (c : Byte) (k : Nat) (l : List Nat) (a : Nat) (w : Bool) :
    Keeps eventParts b (b.raiseItems s c k l a w) := by
  refine keeps_foldl _ _ _ _ (fun x n => ?_)
  split
  · exact raise_keeps _ _ _ _ _ _
  · exact Keeps.refl _ _

theorem raiseItems_words (s : Nat) (c : Byte) (k : Nat) (l : List Nat) (a : Nat) (w : Bool) :
    KeepsWords (eventWords [s]) b (b.raiseItems s c k l a w) := by
  refine keepsWords_foldl _ _ _ _ (fun x n => ?_)
  split
  · exact raise_words _ _ _ _ _ _
  · exact KeepsWords.refl _ _

theorem raiseKeyed_keeps (n s : Nat) (c : Byte) (p : Payload) (a : Nat) :
    Keeps eventParts b (b.raiseKeyed n s c p a) := by
  have h (l : List (Nat × Nat)) : Keeps eventParts b { b with evt := { b.evt with lastRaise := l } } := by
    intro q hq; cases q <;> simp_all [BlockPart.same, sessSame, eventParts]
  unfold Block.raiseKeyed
  split
  · exact Keeps.refl _ _
  · exact (h _).trans (raise_keeps _ _ _ _ _ _)

theorem raiseKeyed_words (n s : Nat) (c : Byte) (p : Payload) (a : Nat) :
    KeepsWords (eventWords [s]) b (b.raiseKeyed n s c p a) := by
  have h (e : Events) : KeepsWords (eventWords [s]) b { b with evt := e } := KeepsWords.of_regs rfl
  unfold Block.raiseKeyed
  split
  · exact KeepsWords.refl _ _
  · exact (h _).trans (raise_words _ _ _ _ _ _)

theorem raiseLimited_keeps (s : Nat) (c : Byte) (p : Payload) (a : Nat) :
    Keeps eventParts b (b.raiseLimited s c p a) := raiseKeyed_keeps _ _ _ _ _ _

theorem raiseLimited_words (s : Nat) (c : Byte) (p : Payload) (a : Nat) :
    KeepsWords (eventWords [s]) b (b.raiseLimited s c p a) := raiseKeyed_words _ _ _ _ _ _

/-- One item raises one event, under the base of its index (R428). -/
theorem raiseItems_one (s : Nat) (c : Byte) (k u : Nat) (a : Nat) (w : Bool) (h : u < 288) :
    b.raiseItems s c k [u] a w = b.raise s c (payB k (u / 96 * 96) [u]) a w := by
  unfold Block.raiseItems
  have h3 : u / 96 = 0 ∨ u / 96 = 1 ∨ u / 96 = 2 := by omega
  rcases h3 with e | e | e
  · have e1 : u < 96 := by omega
    have e2 : ¬ 96 ≤ u := by omega
    have e3 : ¬ 192 ≤ u := by omega
    simp [e, e1, e2, e3]
  · have e1 : ¬ u < 96 := by omega
    have e2 : 96 ≤ u := by omega
    have e3 : ¬ 192 ≤ u := by omega
    have e4 : u < 192 := by omega
    simp [e, e1, e2, e3, e4]
  · have e1 : ¬ u < 96 := by omega
    have e2 : ¬ u < 192 := by omega
    have e3 : 192 ≤ u := by omega
    simp [e, e1, e2, e3, h]

/-! ### How events count -/

/-- The count of a source is no count of the Diary or of the EVENT queues. -/
theorem evtCnt_addr (s : Nat) (hs : s < 128) :
    addr .EVT_CNT s ≠ addr .DIARY_CNT0 ∧ addr .EVT_CNT s ≠ addr .EVT_PKT_STAT := by
  constructor <;> simp [addr, desc] <;> omega

/-- A raise counts one occurrence. -/
theorem raise_raised (s : Nat) (c : Byte) (p : Payload) (a : Nat) (w : Bool) (hs : s < 128) :
    Raised s b (b.raise s c p a w) := by
  obtain ⟨h1, h2⟩ := evtCnt_addr s hs
  have h0 : (b.countWrap .EVT_CNT s 31 0).word .EVT_CNT s = b.word .EVT_CNT s + 1 := word_countWrap_full _ _ _
  unfold Raised Block.raise
  dsimp only
  split
  · refine Eq.trans ?_ h0
    unfold Block.word
    rw [dtcUpdate_regs, toDiary_words _ _ _ _ (by simpa using h1), toQueues_words _ _ _ _ (by simpa using h2)]
    rfl
  · exact h0

/-- The count of a source after a raise of it. -/
@[simp] theorem raise_count (s : Nat) (c : Byte) (p : Payload) (a : Nat) (w : Bool) (hs : s < 128) :
    (b.raise s c p a w).word .EVT_CNT s = b.word .EVT_CNT s + 1 := raise_raised b s c p a w hs

theorem raised_of_regs {s : Nat} {x y : Block} (h : Raised s b x) (g : y.regs = x.regs) : Raised s b y := by
  unfold Raised Block.word at *
  rw [g]
  exact h

/-! ### What `raise` leaves -/

@[simp] theorem raise_ident (s : Nat) (c : Byte) (p : Payload) (a : Nat) (w : Bool) : (b.raise s c p a w).ident = b.ident :=
    raise_keeps b s c p a w .ident (by simp [eventParts])
@[simp] theorem raise_time (s : Nat) (c : Byte) (p : Payload) (a : Nat) (w : Bool) : (b.raise s c p a w).time = b.time := by
  have h1 := raise_keeps b s c p a w .clock (by simp [eventParts])
  have h2 := raise_keeps b s c p a w .hand (by simp [eventParts])
  simp only [BlockPart.same] at h1 h2
  cases hx : (b.raise s c p a w).time; cases hy : b.time; simp_all
@[simp] theorem raise_vig (s : Nat) (c : Byte) (p : Payload) (a : Nat) (w : Bool) : (b.raise s c p a w).vig = b.vig := by
  have h1 := raise_keeps b s c p a w .units (by simp [eventParts])
  have h2 := raise_keeps b s c p a w .unitReqs (by simp [eventParts])
  have h3 := raise_keeps b s c p a w .vigil (by simp [eventParts])
  simp only [BlockPart.same] at h1 h2 h3
  cases hx : (b.raise s c p a w).vig; cases hy : b.vig; simp_all
@[simp] theorem raise_upd (s : Nat) (c : Byte) (p : Payload) (a : Nat) (w : Bool) : (b.raise s c p a w).upd = b.upd :=
    raise_keeps b s c p a w .update (by simp [eventParts])
@[simp] theorem raise_sup (s : Nat) (c : Byte) (p : Payload) (a : Nat) (w : Bool) : (b.raise s c p a w).sup = b.sup :=
    raise_keeps b s c p a w .supply (by simp [eventParts])
@[simp] theorem raise_posted (s : Nat) (c : Byte) (p : Payload) (a : Nat) (w : Bool) : (b.raise s c p a w).posted = b.posted :=
    raise_keeps b s c p a w .posted (by simp [eventParts])
@[simp] theorem raise_eng (s : Nat) (c : Byte) (p : Payload) (a : Nat) (w : Bool) : (b.raise s c p a w).eng = b.eng := by
  have h1 := raise_keeps b s c p a w .power (by simp [eventParts])
  have h2 := raise_keeps b s c p a w .lsw (by simp [eventParts])
  have h3 := raise_keeps b s c p a w .feedback (by simp [eventParts])
  have h4 := raise_keeps b s c p a w .pose (by simp [eventParts])
  have h5 := raise_keeps b s c p a w .map (by simp [eventParts])
  have h6 := raise_keeps b s c p a w .valve (by simp [eventParts])
  have h7 := raise_keeps b s c p a w .almanac (by simp [eventParts])
  have h8 := raise_keeps b s c p a w .motors (by simp [eventParts])
  have h9 := raise_keeps b s c p a w .loops (by simp [eventParts])
  simp only [BlockPart.same] at h1 h2 h3 h4 h5 h6 h7 h8 h9
  cases hx : (b.raise s c p a w).eng; cases hy : b.eng; simp_all
@[simp] theorem raise_pub (s : Nat) (c : Byte) (p : Payload) (a : Nat) (w : Bool) : (b.raise s c p a w).pub = b.pub :=
    (raise_keeps b s c p a w .published (by simp [eventParts])).1
@[simp] theorem raise_pubTime (s : Nat) (c : Byte) (p : Payload) (a : Nat) (w : Bool) : (b.raise s c p a w).pubTime = b.pubTime :=
    (raise_keeps b s c p a w .published (by simp [eventParts])).2.1
@[simp] theorem raise_pubSup (s : Nat) (c : Byte) (p : Payload) (a : Nat) (w : Bool) : (b.raise s c p a w).pubSup = b.pubSup :=
    (raise_keeps b s c p a w .published (by simp [eventParts])).2.2
@[simp] theorem raise_draws (s : Nat) (c : Byte) (p : Payload) (a : Nat) (w : Bool) : (b.raise s c p a w).draws = b.draws :=
    raise_keeps b s c p a w .draws (by simp [eventParts])
@[simp] theorem raise_link_queues (s : Nat) (c : Byte) (p : Payload) (a : Nat) (w : Bool) : (b.raise s c p a w).link.queues = b.link.queues :=
    (raise_keeps b s c p a w .requests (by simp [eventParts])).1
@[simp] theorem raise_link_progress (s : Nat) (c : Byte) (p : Payload) (a : Nat) (w : Bool) : (b.raise s c p a w).link.progress = b.link.progress :=
    (raise_keeps b s c p a w .requests (by simp [eventParts])).2.1
@[simp] theorem raise_link_arrivals (s : Nat) (c : Byte) (p : Payload) (a : Nat) (w : Bool) : (b.raise s c p a w).link.arrivals = b.link.arrivals :=
    (raise_keeps b s c p a w .requests (by simp [eventParts])).2.2.1
@[simp] theorem raise_link_arriveAt (s : Nat) (c : Byte) (p : Payload) (a : Nat) (w : Bool) : (b.raise s c p a w).link.arriveAt = b.link.arriveAt :=
    (raise_keeps b s c p a w .requests (by simp [eventParts])).2.2.2
@[simp] theorem raise_link_sent (s : Nat) (c : Byte) (p : Payload) (a : Nat) (w : Bool) : (b.raise s c p a w).link.sent = b.link.sent :=
    (raise_keeps b s c p a w .sent (by simp [eventParts])).1
@[simp] theorem raise_link_tx (s : Nat) (c : Byte) (p : Payload) (a : Nat) (w : Bool) : (b.raise s c p a w).link.tx = b.link.tx :=
    (raise_keeps b s c p a w .sent (by simp [eventParts])).2.1
@[simp] theorem raise_link_authFails (s : Nat) (c : Byte) (p : Payload) (a : Nat) (w : Bool) : (b.raise s c p a w).link.authFails = b.link.authFails :=
    (raise_keeps b s c p a w .linkOther (by simp [eventParts])).1
@[simp] theorem raise_link_lockouts (s : Nat) (c : Byte) (p : Payload) (a : Nat) (w : Bool) : (b.raise s c p a w).link.lockouts = b.link.lockouts :=
    (raise_keeps b s c p a w .linkOther (by simp [eventParts])).2.1
@[simp] theorem raise_link_identifies (s : Nat) (c : Byte) (p : Payload) (a : Nat) (w : Bool) : (b.raise s c p a w).link.identifies = b.link.identifies :=
    (raise_keeps b s c p a w .linkOther (by simp [eventParts])).2.2.1
@[simp] theorem raise_link_portA (s : Nat) (c : Byte) (p : Payload) (a : Nat) (w : Bool) : (b.raise s c p a w).link.portA = b.link.portA :=
    (raise_keeps b s c p a w .ports (by simp [eventParts])).1
@[simp] theorem raise_link_portB (s : Nat) (c : Byte) (p : Payload) (a : Nat) (w : Bool) : (b.raise s c p a w).link.portB = b.link.portB :=
    (raise_keeps b s c p a w .ports (by simp [eventParts])).2
@[simp] theorem raise_link_keyMain (s : Nat) (c : Byte) (p : Payload) (a : Nat) (w : Bool) : (b.raise s c p a w).link.keyMain = b.link.keyMain :=
    (raise_keeps b s c p a w .linkOther (by simp [eventParts])).2.2.2.1
@[simp] theorem raise_link_keyService (s : Nat) (c : Byte) (p : Payload) (a : Nat) (w : Bool) : (b.raise s c p a w).link.keyService = b.link.keyService :=
    (raise_keeps b s c p a w .linkOther (by simp [eventParts])).2.2.2.2.1
@[simp] theorem raise_link_advertisements (s : Nat) (c : Byte) (p : Payload) (a : Nat) (w : Bool) : (b.raise s c p a w).link.advertisements = b.link.advertisements :=
    (raise_keeps b s c p a w .linkOther (by simp [eventParts])).2.2.2.2.2.1
@[simp] theorem raise_link_relays (s : Nat) (c : Byte) (p : Payload) (a : Nat) (w : Bool) : (b.raise s c p a w).link.relays = b.link.relays :=
    (raise_keeps b s c p a w .relays (by simp [eventParts]))
@[simp] theorem raise_link_dadDone (s : Nat) (c : Byte) (p : Payload) (a : Nat) (w : Bool) : (b.raise s c p a w).link.dadDone = b.link.dadDone :=
    (raise_keeps b s c p a w .linkOther (by simp [eventParts])).2.2.2.2.2.2.1
@[simp] theorem raise_link_nextTxn (s : Nat) (c : Byte) (p : Payload) (a : Nat) (w : Bool) : (b.raise s c p a w).link.nextTxn = b.link.nextTxn :=
    (raise_keeps b s c p a w .txns (by simp [eventParts])).2
@[simp] theorem raise_link_saveBusySince (s : Nat) (c : Byte) (p : Payload) (a : Nat) (w : Bool) : (b.raise s c p a w).link.saveBusySince = b.link.saveBusySince :=
    (raise_keeps b s c p a w .linkOther (by simp [eventParts])).2.2.2.2.2.2.2
@[simp] theorem raise_main_state (s : Nat) (c : Byte) (p : Payload) (a : Nat) (w : Bool) : (b.raise s c p a w).link.main.state = b.link.main.state :=
    congrArg (fun x => x.1) (raise_keeps b s c p a w .sessions (by simp [eventParts])).1
@[simp] theorem raise_main_id (s : Nat) (c : Byte) (p : Payload) (a : Nat) (w : Bool) : (b.raise s c p a w).link.main.id = b.link.main.id :=
    congrArg (fun x => x.2.1) (raise_keeps b s c p a w .sessions (by simp [eventParts])).1
@[simp] theorem raise_main_addr (s : Nat) (c : Byte) (p : Payload) (a : Nat) (w : Bool) : (b.raise s c p a w).link.main.addr = b.link.main.addr :=
    congrArg (fun x => x.2.2.1) (raise_keeps b s c p a w .sessions (by simp [eventParts])).1
@[simp] theorem raise_main_port (s : Nat) (c : Byte) (p : Payload) (a : Nat) (w : Bool) : (b.raise s c p a w).link.main.port = b.link.main.port :=
    congrArg (fun x => x.2.2.2.1) (raise_keeps b s c p a w .sessions (by simp [eventParts])).1
@[simp] theorem raise_main_hostNonce (s : Nat) (c : Byte) (p : Payload) (a : Nat) (w : Bool) : (b.raise s c p a w).link.main.hostNonce = b.link.main.hostNonce :=
    congrArg (fun x => x.2.2.2.2.1) (raise_keeps b s c p a w .sessions (by simp [eventParts])).1
@[simp] theorem raise_main_devNonce (s : Nat) (c : Byte) (p : Payload) (a : Nat) (w : Bool) : (b.raise s c p a w).link.main.devNonce = b.link.main.devNonce :=
    congrArg (fun x => x.2.2.2.2.2.1) (raise_keeps b s c p a w .sessions (by simp [eventParts])).1
@[simp] theorem raise_main_endCause (s : Nat) (c : Byte) (p : Payload) (a : Nat) (w : Bool) : (b.raise s c p a w).link.main.endCause = b.link.main.endCause :=
    congrArg (fun x => x.2.2.2.2.2.2) (raise_keeps b s c p a w .sessions (by simp [eventParts])).1
@[simp] theorem raise_main_since (s : Nat) (c : Byte) (p : Payload) (a : Nat) (w : Bool) : (b.raise s c p a w).link.main.since = b.link.main.since :=
    (raise_keeps b s c p a w .keepalive (by simp [eventParts])).1
@[simp] theorem raise_main_ownSeq (s : Nat) (c : Byte) (p : Payload) (a : Nat) (w : Bool) : (b.raise s c p a w).link.main.ownSeq = b.link.main.ownSeq :=
    (raise_keeps b s c p a w .sent (by simp [eventParts])).2.2.1
@[simp] theorem raise_main_replies (s : Nat) (c : Byte) (p : Payload) (a : Nat) (w : Bool) : (b.raise s c p a w).link.main.replies = b.link.main.replies :=
    (raise_keeps b s c p a w .replies (by simp [eventParts])).1
@[simp] theorem raise_main_regs (s : Nat) (c : Byte) (p : Payload) (a : Nat) (w : Bool) : (b.raise s c p a w).link.main.regs = b.link.main.regs :=
    congrArg (fun x => x.1) (raise_keeps b s c p a w .sessRegs (by simp [eventParts])).1
@[simp] theorem raise_main_latches (s : Nat) (c : Byte) (p : Payload) (a : Nat) (w : Bool) : (b.raise s c p a w).link.main.latches = b.link.main.latches :=
    congrArg (fun x => x.2) (raise_keeps b s c p a w .sessRegs (by simp [eventParts])).1
@[simp] theorem raise_main_txn (s : Nat) (c : Byte) (p : Payload) (a : Nat) (w : Bool) : (b.raise s c p a w).link.main.txn = b.link.main.txn :=
    (raise_keeps b s c p a w .txns (by simp [eventParts])).1.1
@[simp] theorem raise_service_state (s : Nat) (c : Byte) (p : Payload) (a : Nat) (w : Bool) : (b.raise s c p a w).link.service.state = b.link.service.state :=
    congrArg (fun x => x.1) (raise_keeps b s c p a w .sessions (by simp [eventParts])).2
@[simp] theorem raise_service_id (s : Nat) (c : Byte) (p : Payload) (a : Nat) (w : Bool) : (b.raise s c p a w).link.service.id = b.link.service.id :=
    congrArg (fun x => x.2.1) (raise_keeps b s c p a w .sessions (by simp [eventParts])).2
@[simp] theorem raise_service_addr (s : Nat) (c : Byte) (p : Payload) (a : Nat) (w : Bool) : (b.raise s c p a w).link.service.addr = b.link.service.addr :=
    congrArg (fun x => x.2.2.1) (raise_keeps b s c p a w .sessions (by simp [eventParts])).2
@[simp] theorem raise_service_port (s : Nat) (c : Byte) (p : Payload) (a : Nat) (w : Bool) : (b.raise s c p a w).link.service.port = b.link.service.port :=
    congrArg (fun x => x.2.2.2.1) (raise_keeps b s c p a w .sessions (by simp [eventParts])).2
@[simp] theorem raise_service_hostNonce (s : Nat) (c : Byte) (p : Payload) (a : Nat) (w : Bool) : (b.raise s c p a w).link.service.hostNonce = b.link.service.hostNonce :=
    congrArg (fun x => x.2.2.2.2.1) (raise_keeps b s c p a w .sessions (by simp [eventParts])).2
@[simp] theorem raise_service_devNonce (s : Nat) (c : Byte) (p : Payload) (a : Nat) (w : Bool) : (b.raise s c p a w).link.service.devNonce = b.link.service.devNonce :=
    congrArg (fun x => x.2.2.2.2.2.1) (raise_keeps b s c p a w .sessions (by simp [eventParts])).2
@[simp] theorem raise_service_endCause (s : Nat) (c : Byte) (p : Payload) (a : Nat) (w : Bool) : (b.raise s c p a w).link.service.endCause = b.link.service.endCause :=
    congrArg (fun x => x.2.2.2.2.2.2) (raise_keeps b s c p a w .sessions (by simp [eventParts])).2
@[simp] theorem raise_service_since (s : Nat) (c : Byte) (p : Payload) (a : Nat) (w : Bool) : (b.raise s c p a w).link.service.since = b.link.service.since :=
    (raise_keeps b s c p a w .keepalive (by simp [eventParts])).2
@[simp] theorem raise_service_ownSeq (s : Nat) (c : Byte) (p : Payload) (a : Nat) (w : Bool) : (b.raise s c p a w).link.service.ownSeq = b.link.service.ownSeq :=
    (raise_keeps b s c p a w .sent (by simp [eventParts])).2.2.2
@[simp] theorem raise_service_replies (s : Nat) (c : Byte) (p : Payload) (a : Nat) (w : Bool) : (b.raise s c p a w).link.service.replies = b.link.service.replies :=
    (raise_keeps b s c p a w .replies (by simp [eventParts])).2
@[simp] theorem raise_service_regs (s : Nat) (c : Byte) (p : Payload) (a : Nat) (w : Bool) : (b.raise s c p a w).link.service.regs = b.link.service.regs :=
    congrArg (fun x => x.1) (raise_keeps b s c p a w .sessRegs (by simp [eventParts])).2
@[simp] theorem raise_service_latches (s : Nat) (c : Byte) (p : Payload) (a : Nat) (w : Bool) : (b.raise s c p a w).link.service.latches = b.link.service.latches :=
    congrArg (fun x => x.2) (raise_keeps b s c p a w .sessRegs (by simp [eventParts])).2
@[simp] theorem raise_service_txn (s : Nat) (c : Byte) (p : Payload) (a : Nat) (w : Bool) : (b.raise s c p a w).link.service.txn = b.link.service.txn :=
    (raise_keeps b s c p a w .txns (by simp [eventParts])).1.2
@[simp] theorem raise_can_claim (s : Nat) (c : Byte) (p : Payload) (a : Nat) (w : Bool) : (b.raise s c p a w).can.claim = b.can.claim :=
    congrArg (fun x => x.claim) (raise_keeps b s c p a w .can (by simp [eventParts]))
@[simp] theorem raise_can_sa (s : Nat) (c : Byte) (p : Payload) (a : Nat) (w : Bool) : (b.raise s c p a w).can.sa = b.can.sa :=
    congrArg (fun x => x.sa) (raise_keeps b s c p a w .can (by simp [eventParts]))
@[simp] theorem raise_can_claimedAt (s : Nat) (c : Byte) (p : Payload) (a : Nat) (w : Bool) : (b.raise s c p a w).can.claimedAt = b.can.claimedAt :=
    congrArg (fun x => x.claimedAt) (raise_keeps b s c p a w .can (by simp [eventParts]))
@[simp] theorem raise_can_taken (s : Nat) (c : Byte) (p : Payload) (a : Nat) (w : Bool) : (b.raise s c p a w).can.taken = b.can.taken :=
    congrArg (fun x => x.taken) (raise_keeps b s c p a w .can (by simp [eventParts]))
@[simp] theorem raise_can_sent (s : Nat) (c : Byte) (p : Payload) (a : Nat) (w : Bool) : (b.raise s c p a w).can.sent = b.can.sent :=
    congrArg (fun x => x.sent) (raise_keeps b s c p a w .can (by simp [eventParts]))
@[simp] theorem raise_can_received (s : Nat) (c : Byte) (p : Payload) (a : Nat) (w : Bool) : (b.raise s c p a w).can.received = b.can.received :=
    congrArg (fun x => x.received) (raise_keeps b s c p a w .can (by simp [eventParts]))
@[simp] theorem raise_can_transfers (s : Nat) (c : Byte) (p : Payload) (a : Nat) (w : Bool) : (b.raise s c p a w).can.transfers = b.can.transfers :=
    congrArg (fun x => x.transfers) (raise_keeps b s c p a w .can (by simp [eventParts]))
@[simp] theorem raise_can_outgoing (s : Nat) (c : Byte) (p : Payload) (a : Nat) (w : Bool) : (b.raise s c p a w).can.outgoing = b.can.outgoing :=
    congrArg (fun x => x.outgoing) (raise_keeps b s c p a w .can (by simp [eventParts]))
@[simp] theorem raise_can_lastDm1 (s : Nat) (c : Byte) (p : Payload) (a : Nat) (w : Bool) : (b.raise s c p a w).can.lastDm1 = b.can.lastDm1 :=
    congrArg (fun x => x.lastDm1) (raise_keeps b s c p a w .can (by simp [eventParts]))
@[simp] theorem raise_can_lastExtraDm1 (s : Nat) (c : Byte) (p : Payload) (a : Nat) (w : Bool) : (b.raise s c p a w).can.lastExtraDm1 = b.can.lastExtraDm1 :=
    congrArg (fun x => x.lastExtraDm1) (raise_keeps b s c p a w .can (by simp [eventParts]))
@[simp] theorem raise_can_lastStatus (s : Nat) (c : Byte) (p : Payload) (a : Nat) (w : Bool) : (b.raise s c p a w).can.lastStatus = b.can.lastStatus :=
    congrArg (fun x => x.lastStatus) (raise_keeps b s c p a w .can (by simp [eventParts]))
@[simp] theorem raise_can_tec (s : Nat) (c : Byte) (p : Payload) (a : Nat) (w : Bool) : (b.raise s c p a w).can.tec = b.can.tec :=
    congrArg (fun x => x.tec) (raise_keeps b s c p a w .can (by simp [eventParts]))
@[simp] theorem raise_can_rec_ (s : Nat) (c : Byte) (p : Payload) (a : Nat) (w : Bool) : (b.raise s c p a w).can.rec_ = b.can.rec_ :=
    congrArg (fun x => x.rec_) (raise_keeps b s c p a w .can (by simp [eventParts]))
@[simp] theorem raise_can_fifoS (s : Nat) (c : Byte) (p : Payload) (a : Nat) (w : Bool) : (b.raise s c p a w).can.fifoS = b.can.fifoS :=
    congrArg (fun x => x.fifoS) (raise_keeps b s c p a w .can (by simp [eventParts]))
@[simp] theorem raise_can_sendingS (s : Nat) (c : Byte) (p : Payload) (a : Nat) (w : Bool) : (b.raise s c p a w).can.sendingS = b.can.sendingS :=
    congrArg (fun x => x.sendingS) (raise_keeps b s c p a w .can (by simp [eventParts]))
@[simp] theorem raise_can_sentS (s : Nat) (c : Byte) (p : Payload) (a : Nat) (w : Bool) : (b.raise s c p a w).can.sentS = b.can.sentS :=
    congrArg (fun x => x.sentS) (raise_keeps b s c p a w .can (by simp [eventParts]))
@[simp] theorem raise_word (s : Nat) (c : Byte) (p : Payload) (a : Nat) (w : Bool) (r : Reg) (i j : Nat) (h : addr r i j ∉ eventWords [s]) :
    (b.raise s c p a w).word r i j = b.word r i j := raise_words b s c p a w (addr r i j) h (resetWord r i j)

@[simp] theorem raise_fileGet (s : Nat) (c : Byte) (p : Payload) (a : Nat) (w : Bool) (x : Nat) (d : Word) (h : x ∉ eventWords [s]) :
    fileGet (b.raise s c p a w).regs x d = fileGet b.regs x d := raise_words b s c p a w x h d

/-! ### What `raiseItems` leaves -/

@[simp] theorem raiseItems_ident (s : Nat) (c : Byte) (k : Nat) (l : List Nat) (a : Nat) (w : Bool) : (b.raiseItems s c k l a w).ident = b.ident :=
    raiseItems_keeps b s c k l a w .ident (by simp [eventParts])
@[simp] theorem raiseItems_time (s : Nat) (c : Byte) (k : Nat) (l : List Nat) (a : Nat) (w : Bool) : (b.raiseItems s c k l a w).time = b.time := by
  have h1 := raiseItems_keeps b s c k l a w .clock (by simp [eventParts])
  have h2 := raiseItems_keeps b s c k l a w .hand (by simp [eventParts])
  simp only [BlockPart.same] at h1 h2
  cases hx : (b.raiseItems s c k l a w).time; cases hy : b.time; simp_all
@[simp] theorem raiseItems_vig (s : Nat) (c : Byte) (k : Nat) (l : List Nat) (a : Nat) (w : Bool) : (b.raiseItems s c k l a w).vig = b.vig := by
  have h1 := raiseItems_keeps b s c k l a w .units (by simp [eventParts])
  have h2 := raiseItems_keeps b s c k l a w .unitReqs (by simp [eventParts])
  have h3 := raiseItems_keeps b s c k l a w .vigil (by simp [eventParts])
  simp only [BlockPart.same] at h1 h2 h3
  cases hx : (b.raiseItems s c k l a w).vig; cases hy : b.vig; simp_all
@[simp] theorem raiseItems_upd (s : Nat) (c : Byte) (k : Nat) (l : List Nat) (a : Nat) (w : Bool) : (b.raiseItems s c k l a w).upd = b.upd :=
    raiseItems_keeps b s c k l a w .update (by simp [eventParts])
@[simp] theorem raiseItems_sup (s : Nat) (c : Byte) (k : Nat) (l : List Nat) (a : Nat) (w : Bool) : (b.raiseItems s c k l a w).sup = b.sup :=
    raiseItems_keeps b s c k l a w .supply (by simp [eventParts])
@[simp] theorem raiseItems_posted (s : Nat) (c : Byte) (k : Nat) (l : List Nat) (a : Nat) (w : Bool) : (b.raiseItems s c k l a w).posted = b.posted :=
    raiseItems_keeps b s c k l a w .posted (by simp [eventParts])
@[simp] theorem raiseItems_eng (s : Nat) (c : Byte) (k : Nat) (l : List Nat) (a : Nat) (w : Bool) : (b.raiseItems s c k l a w).eng = b.eng := by
  have h1 := raiseItems_keeps b s c k l a w .power (by simp [eventParts])
  have h2 := raiseItems_keeps b s c k l a w .lsw (by simp [eventParts])
  have h3 := raiseItems_keeps b s c k l a w .feedback (by simp [eventParts])
  have h4 := raiseItems_keeps b s c k l a w .pose (by simp [eventParts])
  have h5 := raiseItems_keeps b s c k l a w .map (by simp [eventParts])
  have h6 := raiseItems_keeps b s c k l a w .valve (by simp [eventParts])
  have h7 := raiseItems_keeps b s c k l a w .almanac (by simp [eventParts])
  have h8 := raiseItems_keeps b s c k l a w .motors (by simp [eventParts])
  have h9 := raiseItems_keeps b s c k l a w .loops (by simp [eventParts])
  simp only [BlockPart.same] at h1 h2 h3 h4 h5 h6 h7 h8 h9
  cases hx : (b.raiseItems s c k l a w).eng; cases hy : b.eng; simp_all
@[simp] theorem raiseItems_pub (s : Nat) (c : Byte) (k : Nat) (l : List Nat) (a : Nat) (w : Bool) : (b.raiseItems s c k l a w).pub = b.pub :=
    (raiseItems_keeps b s c k l a w .published (by simp [eventParts])).1
@[simp] theorem raiseItems_pubTime (s : Nat) (c : Byte) (k : Nat) (l : List Nat) (a : Nat) (w : Bool) : (b.raiseItems s c k l a w).pubTime = b.pubTime :=
    (raiseItems_keeps b s c k l a w .published (by simp [eventParts])).2.1
@[simp] theorem raiseItems_pubSup (s : Nat) (c : Byte) (k : Nat) (l : List Nat) (a : Nat) (w : Bool) : (b.raiseItems s c k l a w).pubSup = b.pubSup :=
    (raiseItems_keeps b s c k l a w .published (by simp [eventParts])).2.2
@[simp] theorem raiseItems_draws (s : Nat) (c : Byte) (k : Nat) (l : List Nat) (a : Nat) (w : Bool) : (b.raiseItems s c k l a w).draws = b.draws :=
    raiseItems_keeps b s c k l a w .draws (by simp [eventParts])
@[simp] theorem raiseItems_link_queues (s : Nat) (c : Byte) (k : Nat) (l : List Nat) (a : Nat) (w : Bool) : (b.raiseItems s c k l a w).link.queues = b.link.queues :=
    (raiseItems_keeps b s c k l a w .requests (by simp [eventParts])).1
@[simp] theorem raiseItems_link_progress (s : Nat) (c : Byte) (k : Nat) (l : List Nat) (a : Nat) (w : Bool) : (b.raiseItems s c k l a w).link.progress = b.link.progress :=
    (raiseItems_keeps b s c k l a w .requests (by simp [eventParts])).2.1
@[simp] theorem raiseItems_link_arrivals (s : Nat) (c : Byte) (k : Nat) (l : List Nat) (a : Nat) (w : Bool) : (b.raiseItems s c k l a w).link.arrivals = b.link.arrivals :=
    (raiseItems_keeps b s c k l a w .requests (by simp [eventParts])).2.2.1
@[simp] theorem raiseItems_link_arriveAt (s : Nat) (c : Byte) (k : Nat) (l : List Nat) (a : Nat) (w : Bool) : (b.raiseItems s c k l a w).link.arriveAt = b.link.arriveAt :=
    (raiseItems_keeps b s c k l a w .requests (by simp [eventParts])).2.2.2
@[simp] theorem raiseItems_link_sent (s : Nat) (c : Byte) (k : Nat) (l : List Nat) (a : Nat) (w : Bool) : (b.raiseItems s c k l a w).link.sent = b.link.sent :=
    (raiseItems_keeps b s c k l a w .sent (by simp [eventParts])).1
@[simp] theorem raiseItems_link_tx (s : Nat) (c : Byte) (k : Nat) (l : List Nat) (a : Nat) (w : Bool) : (b.raiseItems s c k l a w).link.tx = b.link.tx :=
    (raiseItems_keeps b s c k l a w .sent (by simp [eventParts])).2.1
@[simp] theorem raiseItems_link_authFails (s : Nat) (c : Byte) (k : Nat) (l : List Nat) (a : Nat) (w : Bool) : (b.raiseItems s c k l a w).link.authFails = b.link.authFails :=
    (raiseItems_keeps b s c k l a w .linkOther (by simp [eventParts])).1
@[simp] theorem raiseItems_link_lockouts (s : Nat) (c : Byte) (k : Nat) (l : List Nat) (a : Nat) (w : Bool) : (b.raiseItems s c k l a w).link.lockouts = b.link.lockouts :=
    (raiseItems_keeps b s c k l a w .linkOther (by simp [eventParts])).2.1
@[simp] theorem raiseItems_link_identifies (s : Nat) (c : Byte) (k : Nat) (l : List Nat) (a : Nat) (w : Bool) : (b.raiseItems s c k l a w).link.identifies = b.link.identifies :=
    (raiseItems_keeps b s c k l a w .linkOther (by simp [eventParts])).2.2.1
@[simp] theorem raiseItems_link_portA (s : Nat) (c : Byte) (k : Nat) (l : List Nat) (a : Nat) (w : Bool) : (b.raiseItems s c k l a w).link.portA = b.link.portA :=
    (raiseItems_keeps b s c k l a w .ports (by simp [eventParts])).1
@[simp] theorem raiseItems_link_portB (s : Nat) (c : Byte) (k : Nat) (l : List Nat) (a : Nat) (w : Bool) : (b.raiseItems s c k l a w).link.portB = b.link.portB :=
    (raiseItems_keeps b s c k l a w .ports (by simp [eventParts])).2
@[simp] theorem raiseItems_link_keyMain (s : Nat) (c : Byte) (k : Nat) (l : List Nat) (a : Nat) (w : Bool) : (b.raiseItems s c k l a w).link.keyMain = b.link.keyMain :=
    (raiseItems_keeps b s c k l a w .linkOther (by simp [eventParts])).2.2.2.1
@[simp] theorem raiseItems_link_keyService (s : Nat) (c : Byte) (k : Nat) (l : List Nat) (a : Nat) (w : Bool) : (b.raiseItems s c k l a w).link.keyService = b.link.keyService :=
    (raiseItems_keeps b s c k l a w .linkOther (by simp [eventParts])).2.2.2.2.1
@[simp] theorem raiseItems_link_advertisements (s : Nat) (c : Byte) (k : Nat) (l : List Nat) (a : Nat) (w : Bool) : (b.raiseItems s c k l a w).link.advertisements = b.link.advertisements :=
    (raiseItems_keeps b s c k l a w .linkOther (by simp [eventParts])).2.2.2.2.2.1
@[simp] theorem raiseItems_link_relays (s : Nat) (c : Byte) (k : Nat) (l : List Nat) (a : Nat) (w : Bool) : (b.raiseItems s c k l a w).link.relays = b.link.relays :=
    (raiseItems_keeps b s c k l a w .relays (by simp [eventParts]))
@[simp] theorem raiseItems_link_dadDone (s : Nat) (c : Byte) (k : Nat) (l : List Nat) (a : Nat) (w : Bool) : (b.raiseItems s c k l a w).link.dadDone = b.link.dadDone :=
    (raiseItems_keeps b s c k l a w .linkOther (by simp [eventParts])).2.2.2.2.2.2.1
@[simp] theorem raiseItems_link_nextTxn (s : Nat) (c : Byte) (k : Nat) (l : List Nat) (a : Nat) (w : Bool) : (b.raiseItems s c k l a w).link.nextTxn = b.link.nextTxn :=
    (raiseItems_keeps b s c k l a w .txns (by simp [eventParts])).2
@[simp] theorem raiseItems_link_saveBusySince (s : Nat) (c : Byte) (k : Nat) (l : List Nat) (a : Nat) (w : Bool) : (b.raiseItems s c k l a w).link.saveBusySince = b.link.saveBusySince :=
    (raiseItems_keeps b s c k l a w .linkOther (by simp [eventParts])).2.2.2.2.2.2.2
@[simp] theorem raiseItems_main_state (s : Nat) (c : Byte) (k : Nat) (l : List Nat) (a : Nat) (w : Bool) : (b.raiseItems s c k l a w).link.main.state = b.link.main.state :=
    congrArg (fun x => x.1) (raiseItems_keeps b s c k l a w .sessions (by simp [eventParts])).1
@[simp] theorem raiseItems_main_id (s : Nat) (c : Byte) (k : Nat) (l : List Nat) (a : Nat) (w : Bool) : (b.raiseItems s c k l a w).link.main.id = b.link.main.id :=
    congrArg (fun x => x.2.1) (raiseItems_keeps b s c k l a w .sessions (by simp [eventParts])).1
@[simp] theorem raiseItems_main_addr (s : Nat) (c : Byte) (k : Nat) (l : List Nat) (a : Nat) (w : Bool) : (b.raiseItems s c k l a w).link.main.addr = b.link.main.addr :=
    congrArg (fun x => x.2.2.1) (raiseItems_keeps b s c k l a w .sessions (by simp [eventParts])).1
@[simp] theorem raiseItems_main_port (s : Nat) (c : Byte) (k : Nat) (l : List Nat) (a : Nat) (w : Bool) : (b.raiseItems s c k l a w).link.main.port = b.link.main.port :=
    congrArg (fun x => x.2.2.2.1) (raiseItems_keeps b s c k l a w .sessions (by simp [eventParts])).1
@[simp] theorem raiseItems_main_hostNonce (s : Nat) (c : Byte) (k : Nat) (l : List Nat) (a : Nat) (w : Bool) : (b.raiseItems s c k l a w).link.main.hostNonce = b.link.main.hostNonce :=
    congrArg (fun x => x.2.2.2.2.1) (raiseItems_keeps b s c k l a w .sessions (by simp [eventParts])).1
@[simp] theorem raiseItems_main_devNonce (s : Nat) (c : Byte) (k : Nat) (l : List Nat) (a : Nat) (w : Bool) : (b.raiseItems s c k l a w).link.main.devNonce = b.link.main.devNonce :=
    congrArg (fun x => x.2.2.2.2.2.1) (raiseItems_keeps b s c k l a w .sessions (by simp [eventParts])).1
@[simp] theorem raiseItems_main_endCause (s : Nat) (c : Byte) (k : Nat) (l : List Nat) (a : Nat) (w : Bool) : (b.raiseItems s c k l a w).link.main.endCause = b.link.main.endCause :=
    congrArg (fun x => x.2.2.2.2.2.2) (raiseItems_keeps b s c k l a w .sessions (by simp [eventParts])).1
@[simp] theorem raiseItems_main_since (s : Nat) (c : Byte) (k : Nat) (l : List Nat) (a : Nat) (w : Bool) : (b.raiseItems s c k l a w).link.main.since = b.link.main.since :=
    (raiseItems_keeps b s c k l a w .keepalive (by simp [eventParts])).1
@[simp] theorem raiseItems_main_ownSeq (s : Nat) (c : Byte) (k : Nat) (l : List Nat) (a : Nat) (w : Bool) : (b.raiseItems s c k l a w).link.main.ownSeq = b.link.main.ownSeq :=
    (raiseItems_keeps b s c k l a w .sent (by simp [eventParts])).2.2.1
@[simp] theorem raiseItems_main_replies (s : Nat) (c : Byte) (k : Nat) (l : List Nat) (a : Nat) (w : Bool) : (b.raiseItems s c k l a w).link.main.replies = b.link.main.replies :=
    (raiseItems_keeps b s c k l a w .replies (by simp [eventParts])).1
@[simp] theorem raiseItems_main_regs (s : Nat) (c : Byte) (k : Nat) (l : List Nat) (a : Nat) (w : Bool) : (b.raiseItems s c k l a w).link.main.regs = b.link.main.regs :=
    congrArg (fun x => x.1) (raiseItems_keeps b s c k l a w .sessRegs (by simp [eventParts])).1
@[simp] theorem raiseItems_main_latches (s : Nat) (c : Byte) (k : Nat) (l : List Nat) (a : Nat) (w : Bool) : (b.raiseItems s c k l a w).link.main.latches = b.link.main.latches :=
    congrArg (fun x => x.2) (raiseItems_keeps b s c k l a w .sessRegs (by simp [eventParts])).1
@[simp] theorem raiseItems_main_txn (s : Nat) (c : Byte) (k : Nat) (l : List Nat) (a : Nat) (w : Bool) : (b.raiseItems s c k l a w).link.main.txn = b.link.main.txn :=
    (raiseItems_keeps b s c k l a w .txns (by simp [eventParts])).1.1
@[simp] theorem raiseItems_service_state (s : Nat) (c : Byte) (k : Nat) (l : List Nat) (a : Nat) (w : Bool) : (b.raiseItems s c k l a w).link.service.state = b.link.service.state :=
    congrArg (fun x => x.1) (raiseItems_keeps b s c k l a w .sessions (by simp [eventParts])).2
@[simp] theorem raiseItems_service_id (s : Nat) (c : Byte) (k : Nat) (l : List Nat) (a : Nat) (w : Bool) : (b.raiseItems s c k l a w).link.service.id = b.link.service.id :=
    congrArg (fun x => x.2.1) (raiseItems_keeps b s c k l a w .sessions (by simp [eventParts])).2
@[simp] theorem raiseItems_service_addr (s : Nat) (c : Byte) (k : Nat) (l : List Nat) (a : Nat) (w : Bool) : (b.raiseItems s c k l a w).link.service.addr = b.link.service.addr :=
    congrArg (fun x => x.2.2.1) (raiseItems_keeps b s c k l a w .sessions (by simp [eventParts])).2
@[simp] theorem raiseItems_service_port (s : Nat) (c : Byte) (k : Nat) (l : List Nat) (a : Nat) (w : Bool) : (b.raiseItems s c k l a w).link.service.port = b.link.service.port :=
    congrArg (fun x => x.2.2.2.1) (raiseItems_keeps b s c k l a w .sessions (by simp [eventParts])).2
@[simp] theorem raiseItems_service_hostNonce (s : Nat) (c : Byte) (k : Nat) (l : List Nat) (a : Nat) (w : Bool) : (b.raiseItems s c k l a w).link.service.hostNonce = b.link.service.hostNonce :=
    congrArg (fun x => x.2.2.2.2.1) (raiseItems_keeps b s c k l a w .sessions (by simp [eventParts])).2
@[simp] theorem raiseItems_service_devNonce (s : Nat) (c : Byte) (k : Nat) (l : List Nat) (a : Nat) (w : Bool) : (b.raiseItems s c k l a w).link.service.devNonce = b.link.service.devNonce :=
    congrArg (fun x => x.2.2.2.2.2.1) (raiseItems_keeps b s c k l a w .sessions (by simp [eventParts])).2
@[simp] theorem raiseItems_service_endCause (s : Nat) (c : Byte) (k : Nat) (l : List Nat) (a : Nat) (w : Bool) : (b.raiseItems s c k l a w).link.service.endCause = b.link.service.endCause :=
    congrArg (fun x => x.2.2.2.2.2.2) (raiseItems_keeps b s c k l a w .sessions (by simp [eventParts])).2
@[simp] theorem raiseItems_service_since (s : Nat) (c : Byte) (k : Nat) (l : List Nat) (a : Nat) (w : Bool) : (b.raiseItems s c k l a w).link.service.since = b.link.service.since :=
    (raiseItems_keeps b s c k l a w .keepalive (by simp [eventParts])).2
@[simp] theorem raiseItems_service_ownSeq (s : Nat) (c : Byte) (k : Nat) (l : List Nat) (a : Nat) (w : Bool) : (b.raiseItems s c k l a w).link.service.ownSeq = b.link.service.ownSeq :=
    (raiseItems_keeps b s c k l a w .sent (by simp [eventParts])).2.2.2
@[simp] theorem raiseItems_service_replies (s : Nat) (c : Byte) (k : Nat) (l : List Nat) (a : Nat) (w : Bool) : (b.raiseItems s c k l a w).link.service.replies = b.link.service.replies :=
    (raiseItems_keeps b s c k l a w .replies (by simp [eventParts])).2
@[simp] theorem raiseItems_service_regs (s : Nat) (c : Byte) (k : Nat) (l : List Nat) (a : Nat) (w : Bool) : (b.raiseItems s c k l a w).link.service.regs = b.link.service.regs :=
    congrArg (fun x => x.1) (raiseItems_keeps b s c k l a w .sessRegs (by simp [eventParts])).2
@[simp] theorem raiseItems_service_latches (s : Nat) (c : Byte) (k : Nat) (l : List Nat) (a : Nat) (w : Bool) : (b.raiseItems s c k l a w).link.service.latches = b.link.service.latches :=
    congrArg (fun x => x.2) (raiseItems_keeps b s c k l a w .sessRegs (by simp [eventParts])).2
@[simp] theorem raiseItems_service_txn (s : Nat) (c : Byte) (k : Nat) (l : List Nat) (a : Nat) (w : Bool) : (b.raiseItems s c k l a w).link.service.txn = b.link.service.txn :=
    (raiseItems_keeps b s c k l a w .txns (by simp [eventParts])).1.2
@[simp] theorem raiseItems_can_claim (s : Nat) (c : Byte) (k : Nat) (l : List Nat) (a : Nat) (w : Bool) : (b.raiseItems s c k l a w).can.claim = b.can.claim :=
    congrArg (fun x => x.claim) (raiseItems_keeps b s c k l a w .can (by simp [eventParts]))
@[simp] theorem raiseItems_can_sa (s : Nat) (c : Byte) (k : Nat) (l : List Nat) (a : Nat) (w : Bool) : (b.raiseItems s c k l a w).can.sa = b.can.sa :=
    congrArg (fun x => x.sa) (raiseItems_keeps b s c k l a w .can (by simp [eventParts]))
@[simp] theorem raiseItems_can_claimedAt (s : Nat) (c : Byte) (k : Nat) (l : List Nat) (a : Nat) (w : Bool) : (b.raiseItems s c k l a w).can.claimedAt = b.can.claimedAt :=
    congrArg (fun x => x.claimedAt) (raiseItems_keeps b s c k l a w .can (by simp [eventParts]))
@[simp] theorem raiseItems_can_taken (s : Nat) (c : Byte) (k : Nat) (l : List Nat) (a : Nat) (w : Bool) : (b.raiseItems s c k l a w).can.taken = b.can.taken :=
    congrArg (fun x => x.taken) (raiseItems_keeps b s c k l a w .can (by simp [eventParts]))
@[simp] theorem raiseItems_can_sent (s : Nat) (c : Byte) (k : Nat) (l : List Nat) (a : Nat) (w : Bool) : (b.raiseItems s c k l a w).can.sent = b.can.sent :=
    congrArg (fun x => x.sent) (raiseItems_keeps b s c k l a w .can (by simp [eventParts]))
@[simp] theorem raiseItems_can_received (s : Nat) (c : Byte) (k : Nat) (l : List Nat) (a : Nat) (w : Bool) : (b.raiseItems s c k l a w).can.received = b.can.received :=
    congrArg (fun x => x.received) (raiseItems_keeps b s c k l a w .can (by simp [eventParts]))
@[simp] theorem raiseItems_can_transfers (s : Nat) (c : Byte) (k : Nat) (l : List Nat) (a : Nat) (w : Bool) : (b.raiseItems s c k l a w).can.transfers = b.can.transfers :=
    congrArg (fun x => x.transfers) (raiseItems_keeps b s c k l a w .can (by simp [eventParts]))
@[simp] theorem raiseItems_can_outgoing (s : Nat) (c : Byte) (k : Nat) (l : List Nat) (a : Nat) (w : Bool) : (b.raiseItems s c k l a w).can.outgoing = b.can.outgoing :=
    congrArg (fun x => x.outgoing) (raiseItems_keeps b s c k l a w .can (by simp [eventParts]))
@[simp] theorem raiseItems_can_lastDm1 (s : Nat) (c : Byte) (k : Nat) (l : List Nat) (a : Nat) (w : Bool) : (b.raiseItems s c k l a w).can.lastDm1 = b.can.lastDm1 :=
    congrArg (fun x => x.lastDm1) (raiseItems_keeps b s c k l a w .can (by simp [eventParts]))
@[simp] theorem raiseItems_can_lastExtraDm1 (s : Nat) (c : Byte) (k : Nat) (l : List Nat) (a : Nat) (w : Bool) : (b.raiseItems s c k l a w).can.lastExtraDm1 = b.can.lastExtraDm1 :=
    congrArg (fun x => x.lastExtraDm1) (raiseItems_keeps b s c k l a w .can (by simp [eventParts]))
@[simp] theorem raiseItems_can_lastStatus (s : Nat) (c : Byte) (k : Nat) (l : List Nat) (a : Nat) (w : Bool) : (b.raiseItems s c k l a w).can.lastStatus = b.can.lastStatus :=
    congrArg (fun x => x.lastStatus) (raiseItems_keeps b s c k l a w .can (by simp [eventParts]))
@[simp] theorem raiseItems_can_tec (s : Nat) (c : Byte) (k : Nat) (l : List Nat) (a : Nat) (w : Bool) : (b.raiseItems s c k l a w).can.tec = b.can.tec :=
    congrArg (fun x => x.tec) (raiseItems_keeps b s c k l a w .can (by simp [eventParts]))
@[simp] theorem raiseItems_can_rec_ (s : Nat) (c : Byte) (k : Nat) (l : List Nat) (a : Nat) (w : Bool) : (b.raiseItems s c k l a w).can.rec_ = b.can.rec_ :=
    congrArg (fun x => x.rec_) (raiseItems_keeps b s c k l a w .can (by simp [eventParts]))
@[simp] theorem raiseItems_can_fifoS (s : Nat) (c : Byte) (k : Nat) (l : List Nat) (a : Nat) (w : Bool) : (b.raiseItems s c k l a w).can.fifoS = b.can.fifoS :=
    congrArg (fun x => x.fifoS) (raiseItems_keeps b s c k l a w .can (by simp [eventParts]))
@[simp] theorem raiseItems_can_sendingS (s : Nat) (c : Byte) (k : Nat) (l : List Nat) (a : Nat) (w : Bool) : (b.raiseItems s c k l a w).can.sendingS = b.can.sendingS :=
    congrArg (fun x => x.sendingS) (raiseItems_keeps b s c k l a w .can (by simp [eventParts]))
@[simp] theorem raiseItems_can_sentS (s : Nat) (c : Byte) (k : Nat) (l : List Nat) (a : Nat) (w : Bool) : (b.raiseItems s c k l a w).can.sentS = b.can.sentS :=
    congrArg (fun x => x.sentS) (raiseItems_keeps b s c k l a w .can (by simp [eventParts]))
@[simp] theorem raiseItems_word (s : Nat) (c : Byte) (k : Nat) (l : List Nat) (a : Nat) (w : Bool) (r : Reg) (i j : Nat) (h : addr r i j ∉ eventWords [s]) :
    (b.raiseItems s c k l a w).word r i j = b.word r i j := raiseItems_words b s c k l a w (addr r i j) h (resetWord r i j)

@[simp] theorem raiseItems_fileGet (s : Nat) (c : Byte) (k : Nat) (l : List Nat) (a : Nat) (w : Bool) (x : Nat) (d : Word) (h : x ∉ eventWords [s]) :
    fileGet (b.raiseItems s c k l a w).regs x d = fileGet b.regs x d := raiseItems_words b s c k l a w x h d

/-! ### What `raiseKeyed` leaves -/

@[simp] theorem raiseKeyed_ident (n s : Nat) (c : Byte) (p : Payload) (a : Nat) : (b.raiseKeyed n s c p a).ident = b.ident :=
    raiseKeyed_keeps b n s c p a .ident (by simp [eventParts])
@[simp] theorem raiseKeyed_time (n s : Nat) (c : Byte) (p : Payload) (a : Nat) : (b.raiseKeyed n s c p a).time = b.time := by
  have h1 := raiseKeyed_keeps b n s c p a .clock (by simp [eventParts])
  have h2 := raiseKeyed_keeps b n s c p a .hand (by simp [eventParts])
  simp only [BlockPart.same] at h1 h2
  cases hx : (b.raiseKeyed n s c p a).time; cases hy : b.time; simp_all
@[simp] theorem raiseKeyed_vig (n s : Nat) (c : Byte) (p : Payload) (a : Nat) : (b.raiseKeyed n s c p a).vig = b.vig := by
  have h1 := raiseKeyed_keeps b n s c p a .units (by simp [eventParts])
  have h2 := raiseKeyed_keeps b n s c p a .unitReqs (by simp [eventParts])
  have h3 := raiseKeyed_keeps b n s c p a .vigil (by simp [eventParts])
  simp only [BlockPart.same] at h1 h2 h3
  cases hx : (b.raiseKeyed n s c p a).vig; cases hy : b.vig; simp_all
@[simp] theorem raiseKeyed_upd (n s : Nat) (c : Byte) (p : Payload) (a : Nat) : (b.raiseKeyed n s c p a).upd = b.upd :=
    raiseKeyed_keeps b n s c p a .update (by simp [eventParts])
@[simp] theorem raiseKeyed_sup (n s : Nat) (c : Byte) (p : Payload) (a : Nat) : (b.raiseKeyed n s c p a).sup = b.sup :=
    raiseKeyed_keeps b n s c p a .supply (by simp [eventParts])
@[simp] theorem raiseKeyed_posted (n s : Nat) (c : Byte) (p : Payload) (a : Nat) : (b.raiseKeyed n s c p a).posted = b.posted :=
    raiseKeyed_keeps b n s c p a .posted (by simp [eventParts])
@[simp] theorem raiseKeyed_eng (n s : Nat) (c : Byte) (p : Payload) (a : Nat) : (b.raiseKeyed n s c p a).eng = b.eng := by
  have h1 := raiseKeyed_keeps b n s c p a .power (by simp [eventParts])
  have h2 := raiseKeyed_keeps b n s c p a .lsw (by simp [eventParts])
  have h3 := raiseKeyed_keeps b n s c p a .feedback (by simp [eventParts])
  have h4 := raiseKeyed_keeps b n s c p a .pose (by simp [eventParts])
  have h5 := raiseKeyed_keeps b n s c p a .map (by simp [eventParts])
  have h6 := raiseKeyed_keeps b n s c p a .valve (by simp [eventParts])
  have h7 := raiseKeyed_keeps b n s c p a .almanac (by simp [eventParts])
  have h8 := raiseKeyed_keeps b n s c p a .motors (by simp [eventParts])
  have h9 := raiseKeyed_keeps b n s c p a .loops (by simp [eventParts])
  simp only [BlockPart.same] at h1 h2 h3 h4 h5 h6 h7 h8 h9
  cases hx : (b.raiseKeyed n s c p a).eng; cases hy : b.eng; simp_all
@[simp] theorem raiseKeyed_pub (n s : Nat) (c : Byte) (p : Payload) (a : Nat) : (b.raiseKeyed n s c p a).pub = b.pub :=
    (raiseKeyed_keeps b n s c p a .published (by simp [eventParts])).1
@[simp] theorem raiseKeyed_pubTime (n s : Nat) (c : Byte) (p : Payload) (a : Nat) : (b.raiseKeyed n s c p a).pubTime = b.pubTime :=
    (raiseKeyed_keeps b n s c p a .published (by simp [eventParts])).2.1
@[simp] theorem raiseKeyed_pubSup (n s : Nat) (c : Byte) (p : Payload) (a : Nat) : (b.raiseKeyed n s c p a).pubSup = b.pubSup :=
    (raiseKeyed_keeps b n s c p a .published (by simp [eventParts])).2.2
@[simp] theorem raiseKeyed_draws (n s : Nat) (c : Byte) (p : Payload) (a : Nat) : (b.raiseKeyed n s c p a).draws = b.draws :=
    raiseKeyed_keeps b n s c p a .draws (by simp [eventParts])
@[simp] theorem raiseKeyed_link_queues (n s : Nat) (c : Byte) (p : Payload) (a : Nat) : (b.raiseKeyed n s c p a).link.queues = b.link.queues :=
    (raiseKeyed_keeps b n s c p a .requests (by simp [eventParts])).1
@[simp] theorem raiseKeyed_link_progress (n s : Nat) (c : Byte) (p : Payload) (a : Nat) : (b.raiseKeyed n s c p a).link.progress = b.link.progress :=
    (raiseKeyed_keeps b n s c p a .requests (by simp [eventParts])).2.1
@[simp] theorem raiseKeyed_link_arrivals (n s : Nat) (c : Byte) (p : Payload) (a : Nat) : (b.raiseKeyed n s c p a).link.arrivals = b.link.arrivals :=
    (raiseKeyed_keeps b n s c p a .requests (by simp [eventParts])).2.2.1
@[simp] theorem raiseKeyed_link_arriveAt (n s : Nat) (c : Byte) (p : Payload) (a : Nat) : (b.raiseKeyed n s c p a).link.arriveAt = b.link.arriveAt :=
    (raiseKeyed_keeps b n s c p a .requests (by simp [eventParts])).2.2.2
@[simp] theorem raiseKeyed_link_sent (n s : Nat) (c : Byte) (p : Payload) (a : Nat) : (b.raiseKeyed n s c p a).link.sent = b.link.sent :=
    (raiseKeyed_keeps b n s c p a .sent (by simp [eventParts])).1
@[simp] theorem raiseKeyed_link_tx (n s : Nat) (c : Byte) (p : Payload) (a : Nat) : (b.raiseKeyed n s c p a).link.tx = b.link.tx :=
    (raiseKeyed_keeps b n s c p a .sent (by simp [eventParts])).2.1
@[simp] theorem raiseKeyed_link_authFails (n s : Nat) (c : Byte) (p : Payload) (a : Nat) : (b.raiseKeyed n s c p a).link.authFails = b.link.authFails :=
    (raiseKeyed_keeps b n s c p a .linkOther (by simp [eventParts])).1
@[simp] theorem raiseKeyed_link_lockouts (n s : Nat) (c : Byte) (p : Payload) (a : Nat) : (b.raiseKeyed n s c p a).link.lockouts = b.link.lockouts :=
    (raiseKeyed_keeps b n s c p a .linkOther (by simp [eventParts])).2.1
@[simp] theorem raiseKeyed_link_identifies (n s : Nat) (c : Byte) (p : Payload) (a : Nat) : (b.raiseKeyed n s c p a).link.identifies = b.link.identifies :=
    (raiseKeyed_keeps b n s c p a .linkOther (by simp [eventParts])).2.2.1
@[simp] theorem raiseKeyed_link_portA (n s : Nat) (c : Byte) (p : Payload) (a : Nat) : (b.raiseKeyed n s c p a).link.portA = b.link.portA :=
    (raiseKeyed_keeps b n s c p a .ports (by simp [eventParts])).1
@[simp] theorem raiseKeyed_link_portB (n s : Nat) (c : Byte) (p : Payload) (a : Nat) : (b.raiseKeyed n s c p a).link.portB = b.link.portB :=
    (raiseKeyed_keeps b n s c p a .ports (by simp [eventParts])).2
@[simp] theorem raiseKeyed_link_keyMain (n s : Nat) (c : Byte) (p : Payload) (a : Nat) : (b.raiseKeyed n s c p a).link.keyMain = b.link.keyMain :=
    (raiseKeyed_keeps b n s c p a .linkOther (by simp [eventParts])).2.2.2.1
@[simp] theorem raiseKeyed_link_keyService (n s : Nat) (c : Byte) (p : Payload) (a : Nat) : (b.raiseKeyed n s c p a).link.keyService = b.link.keyService :=
    (raiseKeyed_keeps b n s c p a .linkOther (by simp [eventParts])).2.2.2.2.1
@[simp] theorem raiseKeyed_link_advertisements (n s : Nat) (c : Byte) (p : Payload) (a : Nat) : (b.raiseKeyed n s c p a).link.advertisements = b.link.advertisements :=
    (raiseKeyed_keeps b n s c p a .linkOther (by simp [eventParts])).2.2.2.2.2.1
@[simp] theorem raiseKeyed_link_relays (n s : Nat) (c : Byte) (p : Payload) (a : Nat) : (b.raiseKeyed n s c p a).link.relays = b.link.relays :=
    (raiseKeyed_keeps b n s c p a .relays (by simp [eventParts]))
@[simp] theorem raiseKeyed_link_dadDone (n s : Nat) (c : Byte) (p : Payload) (a : Nat) : (b.raiseKeyed n s c p a).link.dadDone = b.link.dadDone :=
    (raiseKeyed_keeps b n s c p a .linkOther (by simp [eventParts])).2.2.2.2.2.2.1
@[simp] theorem raiseKeyed_link_nextTxn (n s : Nat) (c : Byte) (p : Payload) (a : Nat) : (b.raiseKeyed n s c p a).link.nextTxn = b.link.nextTxn :=
    (raiseKeyed_keeps b n s c p a .txns (by simp [eventParts])).2
@[simp] theorem raiseKeyed_link_saveBusySince (n s : Nat) (c : Byte) (p : Payload) (a : Nat) : (b.raiseKeyed n s c p a).link.saveBusySince = b.link.saveBusySince :=
    (raiseKeyed_keeps b n s c p a .linkOther (by simp [eventParts])).2.2.2.2.2.2.2
@[simp] theorem raiseKeyed_main_state (n s : Nat) (c : Byte) (p : Payload) (a : Nat) : (b.raiseKeyed n s c p a).link.main.state = b.link.main.state :=
    congrArg (fun x => x.1) (raiseKeyed_keeps b n s c p a .sessions (by simp [eventParts])).1
@[simp] theorem raiseKeyed_main_id (n s : Nat) (c : Byte) (p : Payload) (a : Nat) : (b.raiseKeyed n s c p a).link.main.id = b.link.main.id :=
    congrArg (fun x => x.2.1) (raiseKeyed_keeps b n s c p a .sessions (by simp [eventParts])).1
@[simp] theorem raiseKeyed_main_addr (n s : Nat) (c : Byte) (p : Payload) (a : Nat) : (b.raiseKeyed n s c p a).link.main.addr = b.link.main.addr :=
    congrArg (fun x => x.2.2.1) (raiseKeyed_keeps b n s c p a .sessions (by simp [eventParts])).1
@[simp] theorem raiseKeyed_main_port (n s : Nat) (c : Byte) (p : Payload) (a : Nat) : (b.raiseKeyed n s c p a).link.main.port = b.link.main.port :=
    congrArg (fun x => x.2.2.2.1) (raiseKeyed_keeps b n s c p a .sessions (by simp [eventParts])).1
@[simp] theorem raiseKeyed_main_hostNonce (n s : Nat) (c : Byte) (p : Payload) (a : Nat) : (b.raiseKeyed n s c p a).link.main.hostNonce = b.link.main.hostNonce :=
    congrArg (fun x => x.2.2.2.2.1) (raiseKeyed_keeps b n s c p a .sessions (by simp [eventParts])).1
@[simp] theorem raiseKeyed_main_devNonce (n s : Nat) (c : Byte) (p : Payload) (a : Nat) : (b.raiseKeyed n s c p a).link.main.devNonce = b.link.main.devNonce :=
    congrArg (fun x => x.2.2.2.2.2.1) (raiseKeyed_keeps b n s c p a .sessions (by simp [eventParts])).1
@[simp] theorem raiseKeyed_main_endCause (n s : Nat) (c : Byte) (p : Payload) (a : Nat) : (b.raiseKeyed n s c p a).link.main.endCause = b.link.main.endCause :=
    congrArg (fun x => x.2.2.2.2.2.2) (raiseKeyed_keeps b n s c p a .sessions (by simp [eventParts])).1
@[simp] theorem raiseKeyed_main_since (n s : Nat) (c : Byte) (p : Payload) (a : Nat) : (b.raiseKeyed n s c p a).link.main.since = b.link.main.since :=
    (raiseKeyed_keeps b n s c p a .keepalive (by simp [eventParts])).1
@[simp] theorem raiseKeyed_main_ownSeq (n s : Nat) (c : Byte) (p : Payload) (a : Nat) : (b.raiseKeyed n s c p a).link.main.ownSeq = b.link.main.ownSeq :=
    (raiseKeyed_keeps b n s c p a .sent (by simp [eventParts])).2.2.1
@[simp] theorem raiseKeyed_main_replies (n s : Nat) (c : Byte) (p : Payload) (a : Nat) : (b.raiseKeyed n s c p a).link.main.replies = b.link.main.replies :=
    (raiseKeyed_keeps b n s c p a .replies (by simp [eventParts])).1
@[simp] theorem raiseKeyed_main_regs (n s : Nat) (c : Byte) (p : Payload) (a : Nat) : (b.raiseKeyed n s c p a).link.main.regs = b.link.main.regs :=
    congrArg (fun x => x.1) (raiseKeyed_keeps b n s c p a .sessRegs (by simp [eventParts])).1
@[simp] theorem raiseKeyed_main_latches (n s : Nat) (c : Byte) (p : Payload) (a : Nat) : (b.raiseKeyed n s c p a).link.main.latches = b.link.main.latches :=
    congrArg (fun x => x.2) (raiseKeyed_keeps b n s c p a .sessRegs (by simp [eventParts])).1
@[simp] theorem raiseKeyed_main_txn (n s : Nat) (c : Byte) (p : Payload) (a : Nat) : (b.raiseKeyed n s c p a).link.main.txn = b.link.main.txn :=
    (raiseKeyed_keeps b n s c p a .txns (by simp [eventParts])).1.1
@[simp] theorem raiseKeyed_service_state (n s : Nat) (c : Byte) (p : Payload) (a : Nat) : (b.raiseKeyed n s c p a).link.service.state = b.link.service.state :=
    congrArg (fun x => x.1) (raiseKeyed_keeps b n s c p a .sessions (by simp [eventParts])).2
@[simp] theorem raiseKeyed_service_id (n s : Nat) (c : Byte) (p : Payload) (a : Nat) : (b.raiseKeyed n s c p a).link.service.id = b.link.service.id :=
    congrArg (fun x => x.2.1) (raiseKeyed_keeps b n s c p a .sessions (by simp [eventParts])).2
@[simp] theorem raiseKeyed_service_addr (n s : Nat) (c : Byte) (p : Payload) (a : Nat) : (b.raiseKeyed n s c p a).link.service.addr = b.link.service.addr :=
    congrArg (fun x => x.2.2.1) (raiseKeyed_keeps b n s c p a .sessions (by simp [eventParts])).2
@[simp] theorem raiseKeyed_service_port (n s : Nat) (c : Byte) (p : Payload) (a : Nat) : (b.raiseKeyed n s c p a).link.service.port = b.link.service.port :=
    congrArg (fun x => x.2.2.2.1) (raiseKeyed_keeps b n s c p a .sessions (by simp [eventParts])).2
@[simp] theorem raiseKeyed_service_hostNonce (n s : Nat) (c : Byte) (p : Payload) (a : Nat) : (b.raiseKeyed n s c p a).link.service.hostNonce = b.link.service.hostNonce :=
    congrArg (fun x => x.2.2.2.2.1) (raiseKeyed_keeps b n s c p a .sessions (by simp [eventParts])).2
@[simp] theorem raiseKeyed_service_devNonce (n s : Nat) (c : Byte) (p : Payload) (a : Nat) : (b.raiseKeyed n s c p a).link.service.devNonce = b.link.service.devNonce :=
    congrArg (fun x => x.2.2.2.2.2.1) (raiseKeyed_keeps b n s c p a .sessions (by simp [eventParts])).2
@[simp] theorem raiseKeyed_service_endCause (n s : Nat) (c : Byte) (p : Payload) (a : Nat) : (b.raiseKeyed n s c p a).link.service.endCause = b.link.service.endCause :=
    congrArg (fun x => x.2.2.2.2.2.2) (raiseKeyed_keeps b n s c p a .sessions (by simp [eventParts])).2
@[simp] theorem raiseKeyed_service_since (n s : Nat) (c : Byte) (p : Payload) (a : Nat) : (b.raiseKeyed n s c p a).link.service.since = b.link.service.since :=
    (raiseKeyed_keeps b n s c p a .keepalive (by simp [eventParts])).2
@[simp] theorem raiseKeyed_service_ownSeq (n s : Nat) (c : Byte) (p : Payload) (a : Nat) : (b.raiseKeyed n s c p a).link.service.ownSeq = b.link.service.ownSeq :=
    (raiseKeyed_keeps b n s c p a .sent (by simp [eventParts])).2.2.2
@[simp] theorem raiseKeyed_service_replies (n s : Nat) (c : Byte) (p : Payload) (a : Nat) : (b.raiseKeyed n s c p a).link.service.replies = b.link.service.replies :=
    (raiseKeyed_keeps b n s c p a .replies (by simp [eventParts])).2
@[simp] theorem raiseKeyed_service_regs (n s : Nat) (c : Byte) (p : Payload) (a : Nat) : (b.raiseKeyed n s c p a).link.service.regs = b.link.service.regs :=
    congrArg (fun x => x.1) (raiseKeyed_keeps b n s c p a .sessRegs (by simp [eventParts])).2
@[simp] theorem raiseKeyed_service_latches (n s : Nat) (c : Byte) (p : Payload) (a : Nat) : (b.raiseKeyed n s c p a).link.service.latches = b.link.service.latches :=
    congrArg (fun x => x.2) (raiseKeyed_keeps b n s c p a .sessRegs (by simp [eventParts])).2
@[simp] theorem raiseKeyed_service_txn (n s : Nat) (c : Byte) (p : Payload) (a : Nat) : (b.raiseKeyed n s c p a).link.service.txn = b.link.service.txn :=
    (raiseKeyed_keeps b n s c p a .txns (by simp [eventParts])).1.2
@[simp] theorem raiseKeyed_can_claim (n s : Nat) (c : Byte) (p : Payload) (a : Nat) : (b.raiseKeyed n s c p a).can.claim = b.can.claim :=
    congrArg (fun x => x.claim) (raiseKeyed_keeps b n s c p a .can (by simp [eventParts]))
@[simp] theorem raiseKeyed_can_sa (n s : Nat) (c : Byte) (p : Payload) (a : Nat) : (b.raiseKeyed n s c p a).can.sa = b.can.sa :=
    congrArg (fun x => x.sa) (raiseKeyed_keeps b n s c p a .can (by simp [eventParts]))
@[simp] theorem raiseKeyed_can_claimedAt (n s : Nat) (c : Byte) (p : Payload) (a : Nat) : (b.raiseKeyed n s c p a).can.claimedAt = b.can.claimedAt :=
    congrArg (fun x => x.claimedAt) (raiseKeyed_keeps b n s c p a .can (by simp [eventParts]))
@[simp] theorem raiseKeyed_can_taken (n s : Nat) (c : Byte) (p : Payload) (a : Nat) : (b.raiseKeyed n s c p a).can.taken = b.can.taken :=
    congrArg (fun x => x.taken) (raiseKeyed_keeps b n s c p a .can (by simp [eventParts]))
@[simp] theorem raiseKeyed_can_sent (n s : Nat) (c : Byte) (p : Payload) (a : Nat) : (b.raiseKeyed n s c p a).can.sent = b.can.sent :=
    congrArg (fun x => x.sent) (raiseKeyed_keeps b n s c p a .can (by simp [eventParts]))
@[simp] theorem raiseKeyed_can_received (n s : Nat) (c : Byte) (p : Payload) (a : Nat) : (b.raiseKeyed n s c p a).can.received = b.can.received :=
    congrArg (fun x => x.received) (raiseKeyed_keeps b n s c p a .can (by simp [eventParts]))
@[simp] theorem raiseKeyed_can_transfers (n s : Nat) (c : Byte) (p : Payload) (a : Nat) : (b.raiseKeyed n s c p a).can.transfers = b.can.transfers :=
    congrArg (fun x => x.transfers) (raiseKeyed_keeps b n s c p a .can (by simp [eventParts]))
@[simp] theorem raiseKeyed_can_outgoing (n s : Nat) (c : Byte) (p : Payload) (a : Nat) : (b.raiseKeyed n s c p a).can.outgoing = b.can.outgoing :=
    congrArg (fun x => x.outgoing) (raiseKeyed_keeps b n s c p a .can (by simp [eventParts]))
@[simp] theorem raiseKeyed_can_lastDm1 (n s : Nat) (c : Byte) (p : Payload) (a : Nat) : (b.raiseKeyed n s c p a).can.lastDm1 = b.can.lastDm1 :=
    congrArg (fun x => x.lastDm1) (raiseKeyed_keeps b n s c p a .can (by simp [eventParts]))
@[simp] theorem raiseKeyed_can_lastExtraDm1 (n s : Nat) (c : Byte) (p : Payload) (a : Nat) : (b.raiseKeyed n s c p a).can.lastExtraDm1 = b.can.lastExtraDm1 :=
    congrArg (fun x => x.lastExtraDm1) (raiseKeyed_keeps b n s c p a .can (by simp [eventParts]))
@[simp] theorem raiseKeyed_can_lastStatus (n s : Nat) (c : Byte) (p : Payload) (a : Nat) : (b.raiseKeyed n s c p a).can.lastStatus = b.can.lastStatus :=
    congrArg (fun x => x.lastStatus) (raiseKeyed_keeps b n s c p a .can (by simp [eventParts]))
@[simp] theorem raiseKeyed_can_tec (n s : Nat) (c : Byte) (p : Payload) (a : Nat) : (b.raiseKeyed n s c p a).can.tec = b.can.tec :=
    congrArg (fun x => x.tec) (raiseKeyed_keeps b n s c p a .can (by simp [eventParts]))
@[simp] theorem raiseKeyed_can_rec_ (n s : Nat) (c : Byte) (p : Payload) (a : Nat) : (b.raiseKeyed n s c p a).can.rec_ = b.can.rec_ :=
    congrArg (fun x => x.rec_) (raiseKeyed_keeps b n s c p a .can (by simp [eventParts]))
@[simp] theorem raiseKeyed_can_fifoS (n s : Nat) (c : Byte) (p : Payload) (a : Nat) : (b.raiseKeyed n s c p a).can.fifoS = b.can.fifoS :=
    congrArg (fun x => x.fifoS) (raiseKeyed_keeps b n s c p a .can (by simp [eventParts]))
@[simp] theorem raiseKeyed_can_sendingS (n s : Nat) (c : Byte) (p : Payload) (a : Nat) : (b.raiseKeyed n s c p a).can.sendingS = b.can.sendingS :=
    congrArg (fun x => x.sendingS) (raiseKeyed_keeps b n s c p a .can (by simp [eventParts]))
@[simp] theorem raiseKeyed_can_sentS (n s : Nat) (c : Byte) (p : Payload) (a : Nat) : (b.raiseKeyed n s c p a).can.sentS = b.can.sentS :=
    congrArg (fun x => x.sentS) (raiseKeyed_keeps b n s c p a .can (by simp [eventParts]))
@[simp] theorem raiseKeyed_word (n s : Nat) (c : Byte) (p : Payload) (a : Nat) (r : Reg) (i j : Nat) (h : addr r i j ∉ eventWords [s]) :
    (b.raiseKeyed n s c p a).word r i j = b.word r i j := raiseKeyed_words b n s c p a (addr r i j) h (resetWord r i j)

@[simp] theorem raiseKeyed_fileGet (n s : Nat) (c : Byte) (p : Payload) (a : Nat) (x : Nat) (d : Word) (h : x ∉ eventWords [s]) :
    fileGet (b.raiseKeyed n s c p a).regs x d = fileGet b.regs x d := raiseKeyed_words b n s c p a x h d

/-! ### What `raiseLimited` leaves -/

@[simp] theorem raiseLimited_ident (s : Nat) (c : Byte) (p : Payload) (a : Nat) : (b.raiseLimited s c p a).ident = b.ident :=
    raiseLimited_keeps b s c p a .ident (by simp [eventParts])
@[simp] theorem raiseLimited_time (s : Nat) (c : Byte) (p : Payload) (a : Nat) : (b.raiseLimited s c p a).time = b.time := by
  have h1 := raiseLimited_keeps b s c p a .clock (by simp [eventParts])
  have h2 := raiseLimited_keeps b s c p a .hand (by simp [eventParts])
  simp only [BlockPart.same] at h1 h2
  cases hx : (b.raiseLimited s c p a).time; cases hy : b.time; simp_all
@[simp] theorem raiseLimited_vig (s : Nat) (c : Byte) (p : Payload) (a : Nat) : (b.raiseLimited s c p a).vig = b.vig := by
  have h1 := raiseLimited_keeps b s c p a .units (by simp [eventParts])
  have h2 := raiseLimited_keeps b s c p a .unitReqs (by simp [eventParts])
  have h3 := raiseLimited_keeps b s c p a .vigil (by simp [eventParts])
  simp only [BlockPart.same] at h1 h2 h3
  cases hx : (b.raiseLimited s c p a).vig; cases hy : b.vig; simp_all
@[simp] theorem raiseLimited_upd (s : Nat) (c : Byte) (p : Payload) (a : Nat) : (b.raiseLimited s c p a).upd = b.upd :=
    raiseLimited_keeps b s c p a .update (by simp [eventParts])
@[simp] theorem raiseLimited_sup (s : Nat) (c : Byte) (p : Payload) (a : Nat) : (b.raiseLimited s c p a).sup = b.sup :=
    raiseLimited_keeps b s c p a .supply (by simp [eventParts])
@[simp] theorem raiseLimited_posted (s : Nat) (c : Byte) (p : Payload) (a : Nat) : (b.raiseLimited s c p a).posted = b.posted :=
    raiseLimited_keeps b s c p a .posted (by simp [eventParts])
@[simp] theorem raiseLimited_eng (s : Nat) (c : Byte) (p : Payload) (a : Nat) : (b.raiseLimited s c p a).eng = b.eng := by
  have h1 := raiseLimited_keeps b s c p a .power (by simp [eventParts])
  have h2 := raiseLimited_keeps b s c p a .lsw (by simp [eventParts])
  have h3 := raiseLimited_keeps b s c p a .feedback (by simp [eventParts])
  have h4 := raiseLimited_keeps b s c p a .pose (by simp [eventParts])
  have h5 := raiseLimited_keeps b s c p a .map (by simp [eventParts])
  have h6 := raiseLimited_keeps b s c p a .valve (by simp [eventParts])
  have h7 := raiseLimited_keeps b s c p a .almanac (by simp [eventParts])
  have h8 := raiseLimited_keeps b s c p a .motors (by simp [eventParts])
  have h9 := raiseLimited_keeps b s c p a .loops (by simp [eventParts])
  simp only [BlockPart.same] at h1 h2 h3 h4 h5 h6 h7 h8 h9
  cases hx : (b.raiseLimited s c p a).eng; cases hy : b.eng; simp_all
@[simp] theorem raiseLimited_pub (s : Nat) (c : Byte) (p : Payload) (a : Nat) : (b.raiseLimited s c p a).pub = b.pub :=
    (raiseLimited_keeps b s c p a .published (by simp [eventParts])).1
@[simp] theorem raiseLimited_pubTime (s : Nat) (c : Byte) (p : Payload) (a : Nat) : (b.raiseLimited s c p a).pubTime = b.pubTime :=
    (raiseLimited_keeps b s c p a .published (by simp [eventParts])).2.1
@[simp] theorem raiseLimited_pubSup (s : Nat) (c : Byte) (p : Payload) (a : Nat) : (b.raiseLimited s c p a).pubSup = b.pubSup :=
    (raiseLimited_keeps b s c p a .published (by simp [eventParts])).2.2
@[simp] theorem raiseLimited_draws (s : Nat) (c : Byte) (p : Payload) (a : Nat) : (b.raiseLimited s c p a).draws = b.draws :=
    raiseLimited_keeps b s c p a .draws (by simp [eventParts])
@[simp] theorem raiseLimited_link_queues (s : Nat) (c : Byte) (p : Payload) (a : Nat) : (b.raiseLimited s c p a).link.queues = b.link.queues :=
    (raiseLimited_keeps b s c p a .requests (by simp [eventParts])).1
@[simp] theorem raiseLimited_link_progress (s : Nat) (c : Byte) (p : Payload) (a : Nat) : (b.raiseLimited s c p a).link.progress = b.link.progress :=
    (raiseLimited_keeps b s c p a .requests (by simp [eventParts])).2.1
@[simp] theorem raiseLimited_link_arrivals (s : Nat) (c : Byte) (p : Payload) (a : Nat) : (b.raiseLimited s c p a).link.arrivals = b.link.arrivals :=
    (raiseLimited_keeps b s c p a .requests (by simp [eventParts])).2.2.1
@[simp] theorem raiseLimited_link_arriveAt (s : Nat) (c : Byte) (p : Payload) (a : Nat) : (b.raiseLimited s c p a).link.arriveAt = b.link.arriveAt :=
    (raiseLimited_keeps b s c p a .requests (by simp [eventParts])).2.2.2
@[simp] theorem raiseLimited_link_sent (s : Nat) (c : Byte) (p : Payload) (a : Nat) : (b.raiseLimited s c p a).link.sent = b.link.sent :=
    (raiseLimited_keeps b s c p a .sent (by simp [eventParts])).1
@[simp] theorem raiseLimited_link_tx (s : Nat) (c : Byte) (p : Payload) (a : Nat) : (b.raiseLimited s c p a).link.tx = b.link.tx :=
    (raiseLimited_keeps b s c p a .sent (by simp [eventParts])).2.1
@[simp] theorem raiseLimited_link_authFails (s : Nat) (c : Byte) (p : Payload) (a : Nat) : (b.raiseLimited s c p a).link.authFails = b.link.authFails :=
    (raiseLimited_keeps b s c p a .linkOther (by simp [eventParts])).1
@[simp] theorem raiseLimited_link_lockouts (s : Nat) (c : Byte) (p : Payload) (a : Nat) : (b.raiseLimited s c p a).link.lockouts = b.link.lockouts :=
    (raiseLimited_keeps b s c p a .linkOther (by simp [eventParts])).2.1
@[simp] theorem raiseLimited_link_identifies (s : Nat) (c : Byte) (p : Payload) (a : Nat) : (b.raiseLimited s c p a).link.identifies = b.link.identifies :=
    (raiseLimited_keeps b s c p a .linkOther (by simp [eventParts])).2.2.1
@[simp] theorem raiseLimited_link_portA (s : Nat) (c : Byte) (p : Payload) (a : Nat) : (b.raiseLimited s c p a).link.portA = b.link.portA :=
    (raiseLimited_keeps b s c p a .ports (by simp [eventParts])).1
@[simp] theorem raiseLimited_link_portB (s : Nat) (c : Byte) (p : Payload) (a : Nat) : (b.raiseLimited s c p a).link.portB = b.link.portB :=
    (raiseLimited_keeps b s c p a .ports (by simp [eventParts])).2
@[simp] theorem raiseLimited_link_keyMain (s : Nat) (c : Byte) (p : Payload) (a : Nat) : (b.raiseLimited s c p a).link.keyMain = b.link.keyMain :=
    (raiseLimited_keeps b s c p a .linkOther (by simp [eventParts])).2.2.2.1
@[simp] theorem raiseLimited_link_keyService (s : Nat) (c : Byte) (p : Payload) (a : Nat) : (b.raiseLimited s c p a).link.keyService = b.link.keyService :=
    (raiseLimited_keeps b s c p a .linkOther (by simp [eventParts])).2.2.2.2.1
@[simp] theorem raiseLimited_link_advertisements (s : Nat) (c : Byte) (p : Payload) (a : Nat) : (b.raiseLimited s c p a).link.advertisements = b.link.advertisements :=
    (raiseLimited_keeps b s c p a .linkOther (by simp [eventParts])).2.2.2.2.2.1
@[simp] theorem raiseLimited_link_relays (s : Nat) (c : Byte) (p : Payload) (a : Nat) : (b.raiseLimited s c p a).link.relays = b.link.relays :=
    (raiseLimited_keeps b s c p a .relays (by simp [eventParts]))
@[simp] theorem raiseLimited_link_dadDone (s : Nat) (c : Byte) (p : Payload) (a : Nat) : (b.raiseLimited s c p a).link.dadDone = b.link.dadDone :=
    (raiseLimited_keeps b s c p a .linkOther (by simp [eventParts])).2.2.2.2.2.2.1
@[simp] theorem raiseLimited_link_nextTxn (s : Nat) (c : Byte) (p : Payload) (a : Nat) : (b.raiseLimited s c p a).link.nextTxn = b.link.nextTxn :=
    (raiseLimited_keeps b s c p a .txns (by simp [eventParts])).2
@[simp] theorem raiseLimited_link_saveBusySince (s : Nat) (c : Byte) (p : Payload) (a : Nat) : (b.raiseLimited s c p a).link.saveBusySince = b.link.saveBusySince :=
    (raiseLimited_keeps b s c p a .linkOther (by simp [eventParts])).2.2.2.2.2.2.2
@[simp] theorem raiseLimited_main_state (s : Nat) (c : Byte) (p : Payload) (a : Nat) : (b.raiseLimited s c p a).link.main.state = b.link.main.state :=
    congrArg (fun x => x.1) (raiseLimited_keeps b s c p a .sessions (by simp [eventParts])).1
@[simp] theorem raiseLimited_main_id (s : Nat) (c : Byte) (p : Payload) (a : Nat) : (b.raiseLimited s c p a).link.main.id = b.link.main.id :=
    congrArg (fun x => x.2.1) (raiseLimited_keeps b s c p a .sessions (by simp [eventParts])).1
@[simp] theorem raiseLimited_main_addr (s : Nat) (c : Byte) (p : Payload) (a : Nat) : (b.raiseLimited s c p a).link.main.addr = b.link.main.addr :=
    congrArg (fun x => x.2.2.1) (raiseLimited_keeps b s c p a .sessions (by simp [eventParts])).1
@[simp] theorem raiseLimited_main_port (s : Nat) (c : Byte) (p : Payload) (a : Nat) : (b.raiseLimited s c p a).link.main.port = b.link.main.port :=
    congrArg (fun x => x.2.2.2.1) (raiseLimited_keeps b s c p a .sessions (by simp [eventParts])).1
@[simp] theorem raiseLimited_main_hostNonce (s : Nat) (c : Byte) (p : Payload) (a : Nat) : (b.raiseLimited s c p a).link.main.hostNonce = b.link.main.hostNonce :=
    congrArg (fun x => x.2.2.2.2.1) (raiseLimited_keeps b s c p a .sessions (by simp [eventParts])).1
@[simp] theorem raiseLimited_main_devNonce (s : Nat) (c : Byte) (p : Payload) (a : Nat) : (b.raiseLimited s c p a).link.main.devNonce = b.link.main.devNonce :=
    congrArg (fun x => x.2.2.2.2.2.1) (raiseLimited_keeps b s c p a .sessions (by simp [eventParts])).1
@[simp] theorem raiseLimited_main_endCause (s : Nat) (c : Byte) (p : Payload) (a : Nat) : (b.raiseLimited s c p a).link.main.endCause = b.link.main.endCause :=
    congrArg (fun x => x.2.2.2.2.2.2) (raiseLimited_keeps b s c p a .sessions (by simp [eventParts])).1
@[simp] theorem raiseLimited_main_since (s : Nat) (c : Byte) (p : Payload) (a : Nat) : (b.raiseLimited s c p a).link.main.since = b.link.main.since :=
    (raiseLimited_keeps b s c p a .keepalive (by simp [eventParts])).1
@[simp] theorem raiseLimited_main_ownSeq (s : Nat) (c : Byte) (p : Payload) (a : Nat) : (b.raiseLimited s c p a).link.main.ownSeq = b.link.main.ownSeq :=
    (raiseLimited_keeps b s c p a .sent (by simp [eventParts])).2.2.1
@[simp] theorem raiseLimited_main_replies (s : Nat) (c : Byte) (p : Payload) (a : Nat) : (b.raiseLimited s c p a).link.main.replies = b.link.main.replies :=
    (raiseLimited_keeps b s c p a .replies (by simp [eventParts])).1
@[simp] theorem raiseLimited_main_regs (s : Nat) (c : Byte) (p : Payload) (a : Nat) : (b.raiseLimited s c p a).link.main.regs = b.link.main.regs :=
    congrArg (fun x => x.1) (raiseLimited_keeps b s c p a .sessRegs (by simp [eventParts])).1
@[simp] theorem raiseLimited_main_latches (s : Nat) (c : Byte) (p : Payload) (a : Nat) : (b.raiseLimited s c p a).link.main.latches = b.link.main.latches :=
    congrArg (fun x => x.2) (raiseLimited_keeps b s c p a .sessRegs (by simp [eventParts])).1
@[simp] theorem raiseLimited_main_txn (s : Nat) (c : Byte) (p : Payload) (a : Nat) : (b.raiseLimited s c p a).link.main.txn = b.link.main.txn :=
    (raiseLimited_keeps b s c p a .txns (by simp [eventParts])).1.1
@[simp] theorem raiseLimited_service_state (s : Nat) (c : Byte) (p : Payload) (a : Nat) : (b.raiseLimited s c p a).link.service.state = b.link.service.state :=
    congrArg (fun x => x.1) (raiseLimited_keeps b s c p a .sessions (by simp [eventParts])).2
@[simp] theorem raiseLimited_service_id (s : Nat) (c : Byte) (p : Payload) (a : Nat) : (b.raiseLimited s c p a).link.service.id = b.link.service.id :=
    congrArg (fun x => x.2.1) (raiseLimited_keeps b s c p a .sessions (by simp [eventParts])).2
@[simp] theorem raiseLimited_service_addr (s : Nat) (c : Byte) (p : Payload) (a : Nat) : (b.raiseLimited s c p a).link.service.addr = b.link.service.addr :=
    congrArg (fun x => x.2.2.1) (raiseLimited_keeps b s c p a .sessions (by simp [eventParts])).2
@[simp] theorem raiseLimited_service_port (s : Nat) (c : Byte) (p : Payload) (a : Nat) : (b.raiseLimited s c p a).link.service.port = b.link.service.port :=
    congrArg (fun x => x.2.2.2.1) (raiseLimited_keeps b s c p a .sessions (by simp [eventParts])).2
@[simp] theorem raiseLimited_service_hostNonce (s : Nat) (c : Byte) (p : Payload) (a : Nat) : (b.raiseLimited s c p a).link.service.hostNonce = b.link.service.hostNonce :=
    congrArg (fun x => x.2.2.2.2.1) (raiseLimited_keeps b s c p a .sessions (by simp [eventParts])).2
@[simp] theorem raiseLimited_service_devNonce (s : Nat) (c : Byte) (p : Payload) (a : Nat) : (b.raiseLimited s c p a).link.service.devNonce = b.link.service.devNonce :=
    congrArg (fun x => x.2.2.2.2.2.1) (raiseLimited_keeps b s c p a .sessions (by simp [eventParts])).2
@[simp] theorem raiseLimited_service_endCause (s : Nat) (c : Byte) (p : Payload) (a : Nat) : (b.raiseLimited s c p a).link.service.endCause = b.link.service.endCause :=
    congrArg (fun x => x.2.2.2.2.2.2) (raiseLimited_keeps b s c p a .sessions (by simp [eventParts])).2
@[simp] theorem raiseLimited_service_since (s : Nat) (c : Byte) (p : Payload) (a : Nat) : (b.raiseLimited s c p a).link.service.since = b.link.service.since :=
    (raiseLimited_keeps b s c p a .keepalive (by simp [eventParts])).2
@[simp] theorem raiseLimited_service_ownSeq (s : Nat) (c : Byte) (p : Payload) (a : Nat) : (b.raiseLimited s c p a).link.service.ownSeq = b.link.service.ownSeq :=
    (raiseLimited_keeps b s c p a .sent (by simp [eventParts])).2.2.2
@[simp] theorem raiseLimited_service_replies (s : Nat) (c : Byte) (p : Payload) (a : Nat) : (b.raiseLimited s c p a).link.service.replies = b.link.service.replies :=
    (raiseLimited_keeps b s c p a .replies (by simp [eventParts])).2
@[simp] theorem raiseLimited_service_regs (s : Nat) (c : Byte) (p : Payload) (a : Nat) : (b.raiseLimited s c p a).link.service.regs = b.link.service.regs :=
    congrArg (fun x => x.1) (raiseLimited_keeps b s c p a .sessRegs (by simp [eventParts])).2
@[simp] theorem raiseLimited_service_latches (s : Nat) (c : Byte) (p : Payload) (a : Nat) : (b.raiseLimited s c p a).link.service.latches = b.link.service.latches :=
    congrArg (fun x => x.2) (raiseLimited_keeps b s c p a .sessRegs (by simp [eventParts])).2
@[simp] theorem raiseLimited_service_txn (s : Nat) (c : Byte) (p : Payload) (a : Nat) : (b.raiseLimited s c p a).link.service.txn = b.link.service.txn :=
    (raiseLimited_keeps b s c p a .txns (by simp [eventParts])).1.2
@[simp] theorem raiseLimited_can_claim (s : Nat) (c : Byte) (p : Payload) (a : Nat) : (b.raiseLimited s c p a).can.claim = b.can.claim :=
    congrArg (fun x => x.claim) (raiseLimited_keeps b s c p a .can (by simp [eventParts]))
@[simp] theorem raiseLimited_can_sa (s : Nat) (c : Byte) (p : Payload) (a : Nat) : (b.raiseLimited s c p a).can.sa = b.can.sa :=
    congrArg (fun x => x.sa) (raiseLimited_keeps b s c p a .can (by simp [eventParts]))
@[simp] theorem raiseLimited_can_claimedAt (s : Nat) (c : Byte) (p : Payload) (a : Nat) : (b.raiseLimited s c p a).can.claimedAt = b.can.claimedAt :=
    congrArg (fun x => x.claimedAt) (raiseLimited_keeps b s c p a .can (by simp [eventParts]))
@[simp] theorem raiseLimited_can_taken (s : Nat) (c : Byte) (p : Payload) (a : Nat) : (b.raiseLimited s c p a).can.taken = b.can.taken :=
    congrArg (fun x => x.taken) (raiseLimited_keeps b s c p a .can (by simp [eventParts]))
@[simp] theorem raiseLimited_can_sent (s : Nat) (c : Byte) (p : Payload) (a : Nat) : (b.raiseLimited s c p a).can.sent = b.can.sent :=
    congrArg (fun x => x.sent) (raiseLimited_keeps b s c p a .can (by simp [eventParts]))
@[simp] theorem raiseLimited_can_received (s : Nat) (c : Byte) (p : Payload) (a : Nat) : (b.raiseLimited s c p a).can.received = b.can.received :=
    congrArg (fun x => x.received) (raiseLimited_keeps b s c p a .can (by simp [eventParts]))
@[simp] theorem raiseLimited_can_transfers (s : Nat) (c : Byte) (p : Payload) (a : Nat) : (b.raiseLimited s c p a).can.transfers = b.can.transfers :=
    congrArg (fun x => x.transfers) (raiseLimited_keeps b s c p a .can (by simp [eventParts]))
@[simp] theorem raiseLimited_can_outgoing (s : Nat) (c : Byte) (p : Payload) (a : Nat) : (b.raiseLimited s c p a).can.outgoing = b.can.outgoing :=
    congrArg (fun x => x.outgoing) (raiseLimited_keeps b s c p a .can (by simp [eventParts]))
@[simp] theorem raiseLimited_can_lastDm1 (s : Nat) (c : Byte) (p : Payload) (a : Nat) : (b.raiseLimited s c p a).can.lastDm1 = b.can.lastDm1 :=
    congrArg (fun x => x.lastDm1) (raiseLimited_keeps b s c p a .can (by simp [eventParts]))
@[simp] theorem raiseLimited_can_lastExtraDm1 (s : Nat) (c : Byte) (p : Payload) (a : Nat) : (b.raiseLimited s c p a).can.lastExtraDm1 = b.can.lastExtraDm1 :=
    congrArg (fun x => x.lastExtraDm1) (raiseLimited_keeps b s c p a .can (by simp [eventParts]))
@[simp] theorem raiseLimited_can_lastStatus (s : Nat) (c : Byte) (p : Payload) (a : Nat) : (b.raiseLimited s c p a).can.lastStatus = b.can.lastStatus :=
    congrArg (fun x => x.lastStatus) (raiseLimited_keeps b s c p a .can (by simp [eventParts]))
@[simp] theorem raiseLimited_can_tec (s : Nat) (c : Byte) (p : Payload) (a : Nat) : (b.raiseLimited s c p a).can.tec = b.can.tec :=
    congrArg (fun x => x.tec) (raiseLimited_keeps b s c p a .can (by simp [eventParts]))
@[simp] theorem raiseLimited_can_rec_ (s : Nat) (c : Byte) (p : Payload) (a : Nat) : (b.raiseLimited s c p a).can.rec_ = b.can.rec_ :=
    congrArg (fun x => x.rec_) (raiseLimited_keeps b s c p a .can (by simp [eventParts]))
@[simp] theorem raiseLimited_can_fifoS (s : Nat) (c : Byte) (p : Payload) (a : Nat) : (b.raiseLimited s c p a).can.fifoS = b.can.fifoS :=
    congrArg (fun x => x.fifoS) (raiseLimited_keeps b s c p a .can (by simp [eventParts]))
@[simp] theorem raiseLimited_can_sendingS (s : Nat) (c : Byte) (p : Payload) (a : Nat) : (b.raiseLimited s c p a).can.sendingS = b.can.sendingS :=
    congrArg (fun x => x.sendingS) (raiseLimited_keeps b s c p a .can (by simp [eventParts]))
@[simp] theorem raiseLimited_can_sentS (s : Nat) (c : Byte) (p : Payload) (a : Nat) : (b.raiseLimited s c p a).can.sentS = b.can.sentS :=
    congrArg (fun x => x.sentS) (raiseLimited_keeps b s c p a .can (by simp [eventParts]))
@[simp] theorem raiseLimited_word (s : Nat) (c : Byte) (p : Payload) (a : Nat) (r : Reg) (i j : Nat) (h : addr r i j ∉ eventWords [s]) :
    (b.raiseLimited s c p a).word r i j = b.word r i j := raiseLimited_words b s c p a (addr r i j) h (resetWord r i j)

@[simp] theorem raiseLimited_fileGet (s : Nat) (c : Byte) (p : Payload) (a : Nat) (x : Nat) (d : Word) (h : x ∉ eventWords [s]) :
    fileGet (b.raiseLimited s c p a).regs x d = fileGet b.regs x d := raiseLimited_words b s c p a x h d

end Sys2Proof.Machine
end

