-- ==== Sys2Proof/WellFormed.lean ====
section
/-! DEFINITION. Which terms of `Instr` are commands that can reach the V96: the operands of a request agree with the
    length of its payload and with its row of the command table, lists have the lengths that the hardware or the
    packet gives them. A command that is not well formed still has a meaning; none is asked for it. -/

namespace Sys2Proof

/-- The operands of TRACE_ARM: 16 signals (R291). -/
def TraceArm.full (a : TraceArm) : Bool := a.signals.length == 16

/-- The lists of CAPTURE name no element the V96 does not have (R1, R2). -/
def Capture.fits (c : Capture) : Bool :=
  decide (c.lsw.length ≤ 16) && decide (c.props.length ≤ 8) && decide (c.bridges.length ≤ 8)
    && decide (c.boosts.length ≤ 3) && decide (c.noz.length ≤ 96) && decide (c.bankMa.length ≤ 12)

/-- The bytes of a CAN_S frame that a DLC names: 8 at most for a classic frame, 64 for a CAN FD frame. -/
def dlcBytes (fd : Bool) (dlc : Nat) : Nat :=
  if dlc ≤ 8 then dlc
  else if fd then [12, 16, 20, 24, 32, 48, 64].getD (dlc - 9) 64
  else 8

/-- A well-formed command. -/
def Instr.wf : Instr → Bool
  | .tickEdge cap => cap.fits
  | .commit finish _ _ _ => decide (720 ≤ finish)
  | .nop h p => h.len == p.length
  | .regWriteBlock h _ vs => h.len == 4 + 4 * vs.length
  | .updChunk h _ d => h.len == 8 + d.length
  | .poseAiding h _ items => h.len == 8 + 8 * items.length
  | .tileDataTile _ _ _ _ _ _ _ d => d.length == 1024
  | .tileDataRateTable _ _ _ d => d.length == 1024
  | .driveCommandRun _ _ d => d.length == 16
  | .driveCommandStop _ _ d => d.length == 16
  | .driveCommandCoast _ _ d => d.length == 16
  | .driveCommandBrake _ _ d => d.length == 16
  | .traceArmRelease _ a => a.full
  | .traceArmArm _ a => a.full
  | .traceArmForce _ a => a.full
  | .cmpAdd _ v => !v.getLsbD 8 && !v.getLsbD 9
  | .cmpClear _ v => v.getLsbD 8 && !v.getLsbD 9
  | .debugUnlock _ v => v.getLsbD 0
  | .debugLock _ v => v.getLsbD 1
  | .powerPolicySetLtol _ p => p.setLtol
  | .powerPolicySetAlarm _ p => p.setAlarm
  | .powerPolicyDormantNow _ p => p.dormantNow
  | .canSFrameReceived ident dlc d => d.length == dlcBytes (ident.getLsbD 30) dlc.val
  | .watchdogMiss missed => missed.cores != 0
  | .fbEdgeAccepted seen _ => (seen.cycles.map (·.1)).eraseDups.length == seen.cycles.length
  | _ => true

end Sys2Proof
end

