-- ==== Sys2Proof/Tests/Slice0.lean ====
section
/-! SUPPORT. Tests of the model, each about one step or one operation: the well-formedness checks with an ill-formed
    term for each; worked examples of the specification; and, for each statement with hypotheses, a theorem
    `met_<statement>` that a concrete state and operands meet them together, clause by clause. -/

namespace Sys2Proof.Tests

set_option Elab.async false

open Sys2Proof (Instr Word Byte Bytes Sess Hdr)
open Sys2Proof.Machine

/-! ### Small states -/

/-- A V96-F at work: the first COMMIT is done, the Tick runs, both sessions are open, the link is up. -/
def atWork : Block :=
  { vig := { units := resetUnits .f, starting := false }
    time := { now := 10000000000000, dev := 10000000000000, count := 1000000, first := false, finished := true }
    link := { main := { state := .opened, id := 7, addr := 1, port := 9 }
              service := { state := .opened, id := 8, addr := 2, port := 9 }
              portA := { up := true }, portB := { up := true } } }

/-- The block at work, changed in what a test needs. -/
def here (f : Block → Block) : State := { blk := f atWork }

/-- The header of a request of MAIN with a payload of `n` bytes. -/
def ofMain (n : Nat) : Hdr := { session := 7, addr := 1, port := 9, len := n }

/-- The header of a request of SERVICE. -/
def ofService (n : Nat) : Hdr := { session := 8, addr := 2, port := 9, len := n, queue := 3 }

/-- A table with the element at `i` put in. -/
def put {α : Type} (l : List α) (i : Nat) (x : α) : List α := modNth l i (fun _ => x)

def inMap (f : FieldMap → FieldMap) : State := here (fun b => b.modMap f)


/-! Requests at their arrival. -/

def fixOf (h : Hdr) : Instr := .poseFix h
  { time := 0, east := 5, north := 6, speed := 7, heading := 8, headingSigma := 1, posSigma := 2, speedSigma := 3, flags := 0,
    quality := 4, frame := 1 }
def tagged : Hdr := { ofMain 32 with tag := 9 }
def waiting0 : Waiting := { seq := 3, sess := some .main, hdr := tagged, opcode := 0x20, req := fixOf tagged }
/-- `n` requests wait in queue 0. -/
def queued (n : Nat) : State := here (fun b => b.modLink (fun l => { l with
  queues := put l.queues 0 (List.replicate n waiting0), arrivals := 4 }))
/-- The reply to tag 9 is kept. -/
def kept : State := here (fun b => b.modSess .main (fun s => { s with replies := [
  { kind := 1, queue := 0, opcode := 0x20, tag := 9, session := 7, status := .ok, tick := 3, payload := [], addr := 1, port := 9 }] }))
/-- Nozzle `n` put into a state. -/
def nozIn (n : Nat) (st : UnitState) (b : Block) : Block := b.setUnit (unitNoz n) (fun e => { e with state := st })
def motIn (u : Nat) (st : UnitState) (b : Block) : Block := b.setUnit (unitMot u) (fun e => { e with state := st })

/-- Nozzles 0 and 1 are in SERVICE, nozzle 1 is not quiet; nozzle 2 is ACTIVE in AUTO mode. -/
def withNozzles : State := here (fun b => ((nozIn 0 .service (nozIn 1 .service (nozIn 2 .active b))).setWord .ALM_NOZ_CFG 2 0 0x100000).modNoz 1
  (fun x => { x with deferUntil := some 5 }))

/-- A request from SERVICE on queue 1. -/
def ofServiceQ1 (n : Nat) : Hdr := { ofService n with queue := 1 }


/-! The time base and the Tick. -/

def inTime (f : Time → Time) : State := here (fun b => b.modTime f)
/-- The source in force is `n`, followed by the servo. -/
def onSource (n : Nat) (f : Time → Time) : State :=
  here (fun b => (b.setWord .TICK_CTRL 0 0 (BitVec.ofNat 32 n)).modTime (fun t => f { t with src := n }))
/-- A unit request, an action of MAIN and a waiting step of device time. -/
def busyTick : State := here (fun b => { b with
  posted := [{ seq := 1, sess := some .main, arrived := 0, act := .req (.clockSetLeapCancel {}) }]
  vig := { b.vig with reqs := [{ unit := 3, source := .main, target := .active, cause := .main }] }
  time := { b.time with stepDue := 2, run := 2 } })
def resetWaits (image : Bool) : State := here (fun b => { b with
  vig := { b.vig with resetDue := !image }, upd := { b.upd with resetDue := image } })
def inDoze : State := here (fun b => b.modPwr (fun p => { p with state := .doze, target := .doze }))
def relaying (s : State) : State := { s with blk := (s.blk.setWord .LINK_PTP_CFG 0 0 0x10320).modLink (fun l => { l with
  portB := { up := true, goodExchanges := 3, linkDelay := 40 } }) }

/-! Feedback, serial ports, pose. -/

/-- Axis 2 counts the edges of IN5; `pos` is its position, 100 its upper limit. -/
def pulseAxis (pos : Int) : State := here (fun b =>
  ((((b.setWord .AXIS_CFG 2 0 3).setWord .AXIS_BIND 2 0 5).setWord .AXIS_LIM_HI 2 0 100).setWord .AXIS_SPD_CFG 2 0 50).modAxis 2
    (fun x => { x with pos := pos }))
/-- Input 2 is a variable-reluctance receiver. -/
def vrAxis (pos : Int) : State := { pulseAxis pos with blk := (pulseAxis pos).blk.setWord .FB_CFG 2 0 0x8000 }
/-- Port 1 in SENT mode, 3 data nibbles, ticks of 3 us; port 2 in SSI mode, 12 bits, Gray; an axis is bound to each. -/
def ports : State := here (fun b =>
  ((((((b.setWord .SP_CFG 1 0 0x06000321).setWord .SP_CFG 2 0 0x0A0C0006).setWord .SP_FIELD 2 0 0x050A0000).setWord
    .SP_FIELD 1 0 0x050A0000).setWord .AXIS_CFG 3 0 5).setWord .AXIS_BIND 3 0 1))
/-- Axis 4 takes the ground speed message. -/
def speedAxis (f : Axis → Axis) : State := here (fun b =>
  (((((b.setWord .AXIS_CFG 4 0 6).setWord .AXIS_BIND 4 0 1).setWord .MSG_CFG 0 0 0x00FF01F4).setWord
    .AXIS_LIM_HI 4 0 0x7FFFFFFF).setWord .AXIS_LIM_LO 4 0 0x80000000).modAxis 4 f)
def posing (f : Pose → Pose) : State := here (fun b => b.modPose (fun p => f { p with enabled := true }))
def fix0 : Sys2Proof.PoseFix :=
  { time := 0, east := 5, north := 6, speed := 7, heading := 8, headingSigma := 1, posSigma := 2, speedSigma := 3, flags := 0,
    quality := 4, frame := 1 }
def aid0 : Sys2Proof.AidItem := { kind := 2, sigma := 1, value := 5 }
def canMOff (s : State) : State := { s with blk := s.blk.setWord .CANB_CFG 0 0 0 }
def key0 : Key := { fid := 5, tx := 1, ty := -2 }
def fault0 : TileFault :=
  { prod := 0, key := key0, tick := 9, seq := seqNone, poison := true, timedOut := false, lastSent := 0, lastUse := 0 }
def wait0 : KeyWait := { prod := 0, key := key0, since := 0, timedOut := false }

/-- Product 0 shows field 5 in cells of 50 mm; a fault of one of its keys is outstanding, a frame is DIRTY, one is
    in writeback, one is filling, one is POISONED. -/
def withMap (f : Block → Block) : State := here (fun b =>
  f ((b.setWord .MAP_PROD 0 0 0x501).modMap (fun m => { m with
    waits := [wait0], faults := put m.faults 3 (some fault0)
    replay := [{ prod := 0, key := key0, cell := 7, seq := 4 }]
    frames := put (put (put (put (put m.frames 2 { state := .dirty, key := { fid := 5, tx := 7, ty := 7 }, wanted := true })
      3 { state := .writingBack, key := { fid := 5, tx := 8, ty := 7 } }) 4 { state := .filling, key := key0 })
      5 { state := .poisoned }) 6 { state := .valid, key := { fid := 5 }, ackSeq := 3 }
    tlb := put m.tlb 0 { valid := true, frame := 6, key := { fid := 5 } } })))

def back0 : Writeback := { frame := some 3, prod := 0, key := { fid := 5, tx := 8, ty := 7 }, seq := 6, frameId := 1, cells := {}, lastSent := 0 }
def seg0 : Segment := { prod := 0, noz := 0, e0 := 0, n0 := 0, hb0 := 0, e1 := 0, n1 := 120, hb1 := 0, w := 80, seq := 9 }

def withBack (w : Writeback) (b : Block) : Block := b.modMap (fun m => { m with buffers := put m.buffers 0 (some w) })

def parked (b : Block) : Block := (b.setWord .ALM_NOZ_CFG 5 0 0).modAlmNoz 5 (fun x => { x with parked := true, parkKey := key0 })
/-- A segment that covers one cell of the DIRTY frame's tile. -/
def segDirty : Segment := { seg0 with e0 := 44825, e1 := 44825, n0 := 44810, n1 := 44840, w := 30 }
def eve0 : Eve := { order := 3, pos := 0, act := 6, param := 20 }
def open0 : Eve := { order := 3, pos := 0, act := 1, param := 20, tp := 5 }

/-- Lane `l` holds one entry; the lane's own unit and motor unit 0 are ACTIVE, lanes from 120 on are claimed by it. -/
def withEntry (l : Nat) (e : Eve) (f : Block → Block) : State := here (fun b =>
  f ((motIn 0 .active (if l < 120 then b.setUnit l (fun x => { x with state := .active })
    else b.setWord .RES_LANE (l - 120) 0 (BitVec.ofNat 32 (unitMot 0)))).modLane l (fun x => { x with eves := [e] })))

/-- Axis 0 is valid and has moved by one count onto position 6. -/
def axisMoved (b : Block) : Block :=
  (b.modAxis 0 (fun x => { x with steps := [{ no := 4, at_ := b.now 30000, from_ := 5, to_ := 6 }] })).setWord .CMP_CFG 120 0 1

def rec0 : AaRecord := { seq := 1, stamp := 2, kind := 1, flags := 0, noz := 3, odo := 4, e := 5, n := 6, info := 7, made := 0 }

def killed (b : Block) : Block := b.modLane 121 (fun x => { x with gen := 1 })
def axisValid (b : Block) : Block :=
  (axisMoved b).modAxis 0 (fun x => { x with latch := { valid := true } })
def eve6 : Eve := { eve0 with pos := 6 }
def step6 : AxisStep := { no := 4, at_ := 10000000030000, from_ := 5, to_ := 6 }
def withPin : State := here (fun b => b.modAlm (fun a => { a with pins := put a.pins 2 { level := true, pulseEnd := some 0 } }))
def withOn : State := here (fun b => (b.setWord .ALM_NOZ_CFG 5 0 0x50).modAlmNoz 5 (fun x => { x with on := true }))
def withRecords : State := here (fun b => b.modAlm (fun a => { a with ring := [rec0, rec0], waiting := 1 }))

/-- VPWR present on input A. -/
def powered (b : Block) : Block := { b with sup := { b.sup with inA := { b.sup.inA with present := true } } }

/-- Channel 9 of bank 1 in a state, with VPWR present and its unit ACTIVE. -/
def noz9 (x : Noz) (f : Block → Block) : State := here (fun b => f (powered (nozIn 9 .active b) |>.modNoz 9 (fun _ => { x with pset := b.pulseSet 9 })))
def wait9 (p : Pull) : Noz := { seq := .wait, pull := p, pulseNs := 2000000 }
def boosted (w : Word) (b : Block) : Block := b.setWord .BANK_CFG 1 0 w
def spray9 (acc : Int) : Noz :=
  { on := true, duty := 500, acc := acc, nextPeriod := some 10000000000050 }
def estimates : List Sys2Proof.Estimate := [⟨100, true, 100⟩, ⟨300000, true, 200⟩, ⟨400000, true, 200⟩, ⟨500000, true, 200⟩, ⟨600000, true, 200⟩, ⟨700000, true, 200⟩]
def probes : List Sys2Proof.Probe := [⟨1, 10⟩, ⟨2, 10⟩, ⟨3, 10⟩, ⟨4, 10⟩, ⟨1000000, 90⟩]
def det9 : CloseDet := { since := 0, bearing := true, from_ := 0 }
def limitOff (b : Block) : Block := b.setWord .NOZ_DLIM 9 0 100
def withBoost (st : BoostState) : State := here (fun b => (powered b).modBoost 1 (fun x => { x with state := st }))
def withProp (x : Prop_) : State := here (fun b => (powered b).modProp 2 (fun _ => x))
def learnedDue : State := here (fun b => b.modValve (fun v => { v with learnedDirty := true }))

def drip9 : Noz := { spray9 0 with duty := 10 }

/-- PWM unit 3, ACTIVE, with VPWR present. -/
def mot3 (x : Motor) (f : Block → Block) : State := here (fun b => f (powered (motIn 3 .active b) |>.modMot 3 (fun _ => x)))
def shadows (b : Block) : Block := (b.setWord .MDRV_SET 3 1 500).setWord .MDRV_CFG 3 0 0x02000030
def byRegister (b : Block) : Block := b.setWord .MDRV_CFG 3 0 0x02000034
/-- TRIP2 trips unit 3, active low; its level is high. -/
def tripOn (b : Block) : Block :=
  (b.setWord .MDRV_TRIP_CFG 2 0 (BitVec.ofNat 32 (2 ^ 19 + 2 ^ 9))).modMots (fun x => { x with tripLevel := 4 })
/-- Phase A's high side has been on for long. -/
def highA : Motor := { seq := .run, cfg := [1, 0, 0, 0, 0x30010000, 0, 0], ph := [{ level := true }, {}, {}]
                       steps := [{ at_ := 0, drive := .phases none, before := 0 }] }
def resetBraking : State := here (fun b => { b with vig := { b.vig with brakeSince := some 0 } })

/-- Unit 3 takes its duty from its loop slot. -/
def byLoop (b : Block) : Block := b.setWord .MDRV_CFG 3 0 0x02000038
def tripOnF (b : Block) : Block := b.setWord .MDRV_TRIP_CFG 2 0 (BitVec.ofNat 32 (2 ^ 19 + 2 ^ 9 + 8))
/-- Loop slot 5, its unit ACTIVE. -/
def slot5 (x : LoopSlot) (f : Block → Block) : State :=
  here (fun b => f ((b.setUnit (unitLoop 5) (fun e => { e with state := .active })).modSlot 5 (fun _ => x)))
def lossAct (n : Nat) (b : Block) : Block := b.setWord .LOOP_CFG 5 0 (BitVec.ofNat 32 (32 * n))
def ferrOn (w : Word) (b : Block) : Block := b.setWord .LOOP_FERR_CFG 5 0 w
def model2 (b : Block) : Block := ((b.setWord .LOOP_OBS_MODEL 5 0 2).setWord .LOOP_COEF 5 0 0x3F800000).setWord .LOOP_COEF 5 7 0x40000000
def cutLoop : State := here (fun b => b.modLoops (fun l => { l with cut := true, cutSlots := [5] }))
def withTrace (t : Trace) : State := here (fun b => b.modTrace (fun _ => t))

/-- Load switch 3 asks to start, its unit ACTIVE, VPWR present on input A, all rules of the arbiter off. -/
def lsw3 (x : Lsw) (f : Block → Block) : State :=
  here (fun b => f (((b.setUnit (unitLsw 3) (fun e => { e with state := .active })).modSw 3 (fun _ => x)).modInput .a
    (fun i => { i with present := true, closed := true, mv := 13000 })))
def asks : Lsw := { on := true, want := true }
def allowed (n : Int) (b : Block) : Block := b.modPwr (fun p => { p with allowance := n })
def window (b : Block) : Block := b.setWord .LSW_LIMIT 3 0 0x50004014
def grantWait (n : Nat) (b : Block) : Block := b.setWord .PWRB_GRANT 0 0 (BitVec.ofNat 32 (n * 65536))
def waits3 (b : Block) : Block := b.modPwr (fun p => { p with waits := [{ sw := 3, since := 100 }] })
def shed3 (b : Block) : Block := b.modPwr (fun p => { p with shed := [{ sw := 3, since := some 100 }] })
def capped : State := here (fun b => b.modPwr (fun p => { p with cap := true, capSince := some 100 }))
/-- The power state and its target, the target since long ago. -/
def downTo (p t : PState) : State := here (fun b =>
  (((b.modPwr (fun x => { x with state := p, target := t, dozeSince := some 9, holdSince := some 9, dormSince := some 9 })).modMap
    (fun m => { m with frames := modNth m.frames 2 (fun _ => { state := .filling }), faults := modNth m.faults 1 (fun _ => some { prod := 0, key := { fid := 0, tx := 0, ty := 0 }, tick := 0, seq := 0, poison := false, timedOut := false, lastSent := 0, lastUse := 0 }) }))))
def frozen (s : State) : State := { s with blk := { s.blk with diary := { s.blk.diary with freeze := some { by_ := .main, since := 0, timeoutS := 60 } } } }
def record1 : DiaryRec := { seq := 5, occ := { src := 1, code := 1, payload := 0, keyLen := 0 } }
def record2 : DiaryRec := { seq := 6, occ := { src := 2, code := 1, payload := 0, keyLen := 0 } }
def fifo2 (s : State) : State := { s with blk := { s.blk with diary := { s.blk.diary with fifo := [record1, record2] } } }
def alarmed (s : State) : State := { s with blk := s.blk.modTime (fun t => { t with rtc := { t.rtc with alarm := 3, alarmEn := true, sec := 4 } }) }
def ecuWakes (s : State) : State := { s with blk := s.blk.setWord .DEV_PCTRL 0 0 16 }
def heldUp (s : State) : State := { s with blk := s.blk.modSup (fun x => { x with holdUp := true }) }
def due3 (b : Block) : Block := b.modPwr (fun p => { p with shed := [{ sw := 3, since := some 100, due := true }] })
def capDue : State := here (fun b => b.modPwr (fun p => { p with cap := true, capSince := some 100, capDue := true }))
/-- Loop slot 4 runs, slot 5 does not; both hold values. -/
def oneLoop (s : State) : State := { s with
  blk := ((s.blk.setUnit (unitLoop 4) (fun e => { e with state := .active })).modSlot 4 (fun x => { x with
    u := 7 })).modSlot 5 (fun x => { x with u := 8 }) }
def swOn : Lsw := { seq := .on, on := true, limitMa := 5000, d := 1000 }
def retrying (b : Block) : Block := ((b.setWord .LSW_CFG 3 0 2).setWord .LSW_PROT 3 0 0x01310064)
def olAct (b : Block) : Block := ((b.setWord .LSW_CFG 3 0 4).setWord .LSW_PROT 3 0 0x01310064)
def noRetry (b : Block) : Block := b.setWord .LSW_PROT 3 0 0x01310064
/-- SERVICE waits for its PROOF; MAIN is open. -/
def serviceHello : State := here (fun b => { b with link := { b.link with service :=
  { state := .hello, id := 8, addr := 2, port := 9, hostNonce := leBytes 16 5, devNonce := leBytes 16 6 } } })
def serviceClosed : State := here (fun b => { b with link := { b.link with service := {} } })
def helloHdr : Hdr := { session := 0, addr := 2, port := 9, len := 40 }
def proofHdr : Hdr := { session := 8, addr := 2, port := 9, len := 40 }
def rightProof : BitVec 256 := BitVec.ofNat 256 (leNat (serviceHello.blk.proof .service "VRKH1"))
def failedTwice : State := { serviceHello with blk := { serviceHello.blk with link := { serviceHello.blk.link with
  authFails := [{ addr := 2, at_ := 9999999999999 }, { addr := 2, at_ := 9999999999998 }] } } }
def lockedOut : State := here (fun b => { b with link := { b.link with
  lockouts := [{ addr := 2, at_ := 0 }, { addr := 3, at_ := 0 }] } })
/-- MAIN is open with work of its own: a nozzle ACTIVE, a freeze, a waiting action. -/
def busyMain : State := here (fun b =>
  let b1 := b.setUnit (unitNoz 9) (fun e => { e with state := .active })
  { b1 with diary := { b1.diary with freeze := some { by_ := .main, since := 0, timeoutS := 60 } }
            posted := [{ seq := 1, sess := some .main, arrived := 0, act := .req (.nop (ofMain 0) []) }] })
def debugging : State := here (fun b => { b with vig := { b.vig with dbg := .unlocked } })
def withEvents (n : Nat) : State := here (fun b => { b with link := { b.link with main := { b.link.main with
  events := List.replicate n { src := 3, code := 1, payload := 0, keyLen := 0, first := 9999990000000 }, evDiscarded := 2 } } })
def portsDown : State := here (fun b => { b with link := { b.link with portA := {}, portB := {} } })
def roleDue : State := here (fun b => { b with link := { b.link with
  portA := { up := true, roleAt := some 5 }, portB := { up := true, roleAt := some 6 } } })
def onCan (f : Can → Can) : State := here (fun b => { b.setWord .CANB_CFG 0 0 0x00800001 with can := f { claim := .claimed, sa := 0x80 } })
def mgmt (w : Word) (s : State) : State := { s with blk := s.blk.setWord .CANB_MGMT 0 0 w }
def allTaken : List Byte := (List.range 120).map (fun n => BitVec.ofNat 8 (128 + n))
def frameS : CanSFrame := { ident := 5, control := 2, data := [1, 2] }
def filterS (b : Block) : Block :=
  ((b.setWord .CANS_CFG 0 0 3).setWord .CANS_FILT_ID 0 0 0x80000005).setWord .CANS_FILT_MASK 0 0 0x1FFFFFFF
def onCanS (f : Can → Can) : State := here (fun b => { filterS b with can := f {} })
def edgeCode : State := here (fun b => { b.setWord .EVT_CFG 5 0 1 with
  evt := { b.evt with lastSeen := [(5, 0)] }, can := { b.can with active := [{ source := 5, count := 2 }] } })
def ofVariantP : State :=
  here (fun b => { b with ident := { b.ident with variant := .p }, vig := { b.vig with units := resetUnits .p } })
def eve1 : Eve := { order := 1, pos := 0x123456789ABC, act := 3, repeats := true, param := 7, design := false }
def laneEves : State := here (fun b =>
  let c := b.modLane 120 (fun x => { x with eves := [eve1] })
  { c.setSessWord .main .CMP_RD_SEL 0 120 with pub := c.eng })
def flagged : State := here (fun b => ((((b.setWord .NOZ_FLT 9 0 0x7F).setWord .BANK_FLT 1 0 0xFF).setWord .LSW_FLT 3 0 0x1F).setWord .VIG_SAFE 0 0 3).setWord .PWRB_DENIED 0 0 0xFFFF)
def pended : State := here (fun b => { b with evt := { b.evt with pend := 0xFF00FF } })
def shadowed : State := here (fun b => b.modMot 9 (fun m => { m with pending := 0b111 }))
def heldSwitch : State := here (fun b => b.modSw 3 (fun x => { x with held := true, seq := .on }))
def diaryAt (n : Word) : State := here (fun b => { b with diary := { b.diary with ring := [{ record1 with seq := n }], next := n + 1 } })
def unlockable : State := here (fun b => (List.range 8).foldl (fun acc w =>
  acc.setSessWord .service .VIG_DBG_RESP w (BitVec.ofNat 32 (leAt (4 * w) 4 b.dbgResponse))) b)
def inTxn (x : Txn) : State := here (fun b => { b with link := { b.link with main := { b.link.main with txn := x }, nextTxn := 5 } })
def saving : State := here (fun b => { b with upd := { b.upd with save := some { since := 0, words := [(4, 5)], generation := 2 } } })
def rivalled : State := inTxn { state := .committing, staged := [{ addr := addr .LSW_CFG 2, val := 1 }], rivals := [addr .LSW_CFG 2] }
def configured : State := here (fun b => ((b.setWord .LSW_CFG 3 0 6).setWord .NOZ_CNT0 9 0 7).setWord .DEV_RST_CNT 0 0 4)
def mustGoBack : State := here (fun b => { b with upd := { b.upd with state := .migrationFailed } })
def clockFaulty : State := here (fun b => { b with vig := { b.vig with clockFault := true } })
def motorRuns (s : State) : State := { s with blk := s.blk.setUnit (unitMot 9) (fun e => { e with state := .active }) }
def halted : State := here (fun b => { b.setWord .VIG_DBG_CFG 0 0 1 with vig := { b.vig with dbg := .halted } })
def debugLocked : State := here (fun b => { b with vig := { b.vig with dbgLockSince := some 0 } })
def unfinished (n : Nat) (s : State) : State := { s with blk := { s.blk with time := { s.blk.time with finished := false, run := n } } }
def diaryIs (f : Diary → Diary) : State := here (fun b => { b with diary := f b.diary })
def protected_ (s : State) : State := { s with blk := s.blk.setWord .DIARY_CFG 0 0 1 }
def freeze1 : Freeze := { by_ := .main, since := 0, timeoutS := 60 }
def hotBase : State := here (fun b => { b with evt := { b.evt with baseHot := true } })
def updIs (f : Update → Update) : State := here (fun b => { b with upd := f b.upd })
def receiving (x : Slot) : State := updIs (fun u => { u with state := .receiving, slotB := x })
def onTrial : State := updIs (fun u => { u with state := .trial, rec1 := { valid := true, seq := 1, slot := true, store := true, trial := true, prevSlot := some false, prevStore := some false } })
/-- An image of no manifest. -/
def badImage : State := updIs (fun u => { u with state := .verifying, slotB := { state := .complete, length := 4, offset := 4, image := some [1, 2, 3, 4] } })
def saveHeld : State := here (fun b => { b with link := { b.link with saveBusySince := some 0 } })
def record0 : BootRecord := { valid := true }
def record1b : BootRecord := { valid := true, seq := 1, slot := true, store := true, trial := true, prevSlot := some false, prevStore := some false }
def inputs (a b_ : Input) : State := here (fun b => (b.modInput .a (fun _ => a)).modInput .b (fun _ => b_))
def feeds : Input := { present := true, closed := true, mv := 13000, contactMv := 13000 }
def precharging (s : State) : State := { s with blk := s.blk.modSup (fun x => { x with prechargeSince := some 0 }) }

/-! ### Well-formed commands: each check refuses an ill-formed term -/

theorem wf_accepts : Instr.wf (.commit 720 [] 0 0) = true ∧ Instr.wf (.regWriteBlock (ofMain 12) 4 [1, 2]) = true
    ∧ Instr.wf (.cmpAdd (ofMain 8) 7) = true ∧ Instr.wf (.canSFrameReceived 0 9 (List.replicate 8 0)) = true := by decide
theorem wf_refuses_capture : Instr.wf (.tickEdge { lsw := List.replicate 17 {} }) = false
    ∧ Instr.wf (.tickEdge { props := List.replicate 9 {} }) = false
    ∧ Instr.wf (.tickEdge { bridges := List.replicate 9 {} }) = false
    ∧ Instr.wf (.tickEdge { boosts := List.replicate 4 {} }) = false
    ∧ Instr.wf (.tickEdge { noz := List.replicate 97 {} }) = false
    ∧ Instr.wf (.tickEdge { bankMa := List.replicate 13 0 }) = false := by decide
theorem wf_refuses_commit : Instr.wf (.commit 719 [] 0 0) = false := by decide
theorem wf_refuses_lengths : Instr.wf (.nop (ofMain 4) [1, 2]) = false
    ∧ Instr.wf (.regWriteBlock (ofMain 8) 4 [1, 2]) = false ∧ Instr.wf (.updChunk (ofMain 8) 0 [1]) = false
    ∧ Instr.wf (.poseAiding (ofMain 8) 0 [aid0]) = false := by decide
theorem wf_refuses_lists : Instr.wf (.tileDataTile (ofMain 1048) 0 0 0 0 0 0 []) = false
    ∧ Instr.wf (.tileDataRateTable (ofMain 1048) 0 0 []) = false
    ∧ Instr.wf (.driveCommandRun (ofMain 36) 0 []) = false ∧ Instr.wf (.driveCommandStop (ofMain 36) 0 []) = false
    ∧ Instr.wf (.driveCommandCoast (ofMain 36) 0 []) = false
    ∧ Instr.wf (.driveCommandBrake (ofMain 36) 0 []) = false := by decide
theorem wf_refuses_signals : ∀ a : Sys2Proof.TraceArm, a.signals = [] →
    Instr.wf (.traceArmRelease (ofMain 44) a) = false ∧ Instr.wf (.traceArmArm (ofMain 44) a) = false
      ∧ Instr.wf (.traceArmForce (ofMain 44) a) = false := by
  intro a h
  simp [Instr.wf, Sys2Proof.TraceArm.full, h]
theorem wf_refuses_bits : Instr.wf (.cmpAdd (ofMain 8) 0x100) = false ∧ Instr.wf (.cmpClear (ofMain 8) 0x300) = false
    ∧ Instr.wf (.debugUnlock (ofMain 8) 2) = false ∧ Instr.wf (.debugLock (ofMain 8) 1) = false
    ∧ Instr.wf (.canSFrameReceived 0 9 []) = false ∧ Instr.wf (.watchdogMiss ⟨0, 0⟩) = false := by decide
theorem wf_refuses_policies : ∀ p : Sys2Proof.PowerPolicy, p.setLtol = false → p.setAlarm = false →
    p.dormantNow = false → Instr.wf (.powerPolicySetLtol (ofMain 16) p) = false
      ∧ Instr.wf (.powerPolicySetAlarm (ofMain 16) p) = false
      ∧ Instr.wf (.powerPolicyDormantNow (ofMain 16) p) = false := by
  intro p h1 h2 h3
  simp [Instr.wf, h1, h2, h3]

/-- No row of the command table has bits, so no word spells a command. -/
theorem no_word_spells : Sys2Proof.decodeTableWord 32 0 = none ∧ State.reset.withFetchWord 32 0 = State.reset := by
  decide +kernel

/-! ### Worked examples and tables of the specification -/

/-- The stamp of Tick 2 500 of 2026-05-14T09:30:00 UTC (the worked example after R14), TAI less UTC 37 s. -/
theorem test_stamp : stampOf ((832066200 + 946684800 + 37) * 1000000000 + 2500 * 100000) 37 = 0x0C6614A609C4 := by decide
/-- The leap second of the end of 2027-06-30 (the worked example after R64): the two Tick edges around it. -/
theorem test_leap_second :
    let t (dev : Nat) : Time := { dev := dev * 1000000000, taiUtc := 37, leap := some { insert := true, at_ := 867715200 } }
    (t 1814400036).leapTick.taiUtc = 37 ∧ (t 1814400037).leapTick.taiUtc = 38 ∧ (t 1814400037).leapTick.leap = none
      ∧ stampSeconds 1814400037000000000 38 = 867715199 ∧ stampSeconds 1814400038000000000 38 = 867715200 := by decide
/-- CRC-32C (R337) and the CRC-8 of "123456789": the check values of the two polynomials. -/
theorem test_crcs : crc32c (ascii "123456789") = 0xE3069283 ∧ crc8 (ascii "123456789") = 0xDF := by decide +kernel
/-- Duty across a turning boom (07, the worked example after R216): left NZ00, right NZ83 in periods 1 and 2. -/
theorem test_duty : let f (acc owed : Int) := choosePulse acc owed 100000000 500000 2000000 12000000 9000000
    f 51600000 51600000 = (.pulse 54600000, 51600000, false, false)
      ∧ f 4600000 4600000 = (.skip, 0, true, false) ∧ f 9200000 4600000 = (.pulse 12500000, 9500000, true, false) := by
  decide
/-- The energy of a full boost above READY at 90 % (10, after R305): 48.2 mJ, in nJ. -/
theorem test_boost_energy : boostEnergy 220000 48000 43200 = 48153600 := by decide
/-- A fence and a start in the same Tick (14, the worked example after R407, with 4 and 6 units in place of 84 and
    96): FENCED outranks ACTIVE. -/
def fenceAndStart : State := here (fun b => { b with vig := { b.vig with
  reqs := (List.range 4).map (fun u => { unit := u, source := .main, target := .active, cause := .main })
    ++ (List.range 6).map (fun u => { unit := u, source := .management, target := .fenced, cause := .management }) } })
set_option maxRecDepth 20000 in
theorem test_fence_and_start : let b := fenceAndStart.blk.unitsCommit 80000
    b.fld .VIG_CNT 0 31 16 = 4 ∧ (b.unit 0).state = .fenced ∧ (b.unit 5).state = .fenced
      ∧ (b.unit 3).ovr = true ∧ (b.unit 4).ovr = false := by
  decide +kernel
/-- A boundary nozzle on the left boom tip (13, the worked example after R392): ALM_NOZ_GEOM of an ACTIVE nozzle fails
    check 4 on index 0. -/
def activeTip : State := here (fun b => ((b.setWord .MAP_PROD 0 0 0x501).setUnit 0 (fun e => { e with state := .active })).modTxn .main (fun t => { t with
  state := .committing, num := 23
  staged := [{ addr := 0x91000, val := 0xADF8 }, { addr := 0x91004, val := 0x1001F4 }, { addr := 0xB000C, val := 0x960 }] }))
theorem test_boundary_nozzle : (activeTip.blk.txnApply .main 80000).2 = (.fenced, [0, 0, 0, 0, 0, 0, 2, 0]) := by decide +kernel

/-! ### The hypotheses of the statements are met -/

/-- A request is served if the conditions of `Served` hold. -/
theorem served {b : Block} {h : Hdr} {k : Sess} {op : OpRow}
    (p : b.reachable = true ∧ b.sessionOf h = some k ∧ h.multicast = false ∧ b.upd.recovery = false
      ∧ b.keptReply k h = none ∧ b.repeats k h = false ∧ (k = .main → op.serviceOnly = false ∧ h.queue ≠ 3)
      ∧ b.queue h.queue = [] ∧ op.lengthOk h.len = true ∧ b.held h = false ∧ b.roomFor h = true) : Served b h k op :=
  let ⟨p1, p2, p3, p4, p5, p6, p7, p8, p9, p10, p11⟩ := p
  ⟨p1, p2, p3, p4, p5, p6, p7, p8, p9, p10, p11⟩

/-- A state is Sound if its parts are those of its variant. -/
theorem sound {s : State} (p : s.blk.fit = soundFit s.blk.ident.variant) : s.Sound := p

theorem met_EveryStepKeepsTheParts : State.reset.Sound ∧ (State.reset.withFetchWord 0 0).Sound :=
  ⟨sound (by decide +kernel), sound (by decide +kernel)⟩

theorem met_ServedRequestIsDispatchedAtOnce :
    rowOf (fixOf (ofMain 32)) = some (ofMain 32, poseFixRow) ∧ Served atWork (ofMain 32) .main poseFixRow :=
  ⟨rfl, served (by decide +kernel)⟩

theorem met_AbsentUnitsStayAbsent :
    (let s : State := ofVariantP
     let u : Nat := 60
     s.Sound ∧ u < 203) := by
  and_intros <;> first | decide +kernel | (apply sound; decide +kernel)

theorem met_ArrivalChecksRefuseInOrder :
    (let i : Instr := (fixOf { ofMain 32 with session := 99 })
     let s : State := (here id)
     let h : Hdr := { ofMain 32 with session := 99 }
     let op : OpRow := poseFixRow
     rowOf i = some (h, op) ∧ h.session ≠ 0 ∧ s.blk.reachable = true ∧ h.multicast = false
       ∧ s.blk.upd.recovery = false ∧ s.blk.sessionOf h = none)
    ∧ (let i : Instr := (fixOf { ofMain 32 with queue := 3 })
       let s : State := (here id)
       let h : Hdr := { ofMain 32 with queue := 3 }
       let op : OpRow := poseFixRow
       let k : Sess := .main
       rowOf i = some (h, op) ∧ h.session ≠ 0 ∧ s.blk.reachable = true ∧ h.multicast = false
         ∧ s.blk.upd.recovery = false ∧ s.blk.sessionOf h = some k ∧ s.blk.keptReply k h = none
         ∧ s.blk.repeats k h = false ∧ k = Sess.main ∧ (op.serviceOnly = true ∨ h.queue = 3))
    ∧ (let i : Instr := (fixOf (ofMain 32))
       let s : State := (queued 32)
       let h : Hdr := (ofMain 32)
       let op : OpRow := poseFixRow
       let k : Sess := .main
       rowOf i = some (h, op) ∧ h.session ≠ 0 ∧ s.blk.reachable = true ∧ h.multicast = false
         ∧ s.blk.upd.recovery = false ∧ s.blk.sessionOf h = some k ∧ s.blk.keptReply k h = none
         ∧ s.blk.repeats k h = false ∧ (k = Sess.main → op.serviceOnly = false ∧ h.queue ≠ 3)
         ∧ queueSlots h.queue ≤ (s.blk.queue h.queue).length)
    ∧ (let i : Instr := (fixOf (ofMain 31))
       let s : State := (queued 31)
       let h : Hdr := (ofMain 31)
       let op : OpRow := poseFixRow
       let k : Sess := .main
       rowOf i = some (h, op) ∧ h.session ≠ 0 ∧ s.blk.reachable = true ∧ h.multicast = false
         ∧ s.blk.upd.recovery = false ∧ s.blk.sessionOf h = some k ∧ s.blk.keptReply k h = none
         ∧ s.blk.repeats k h = false ∧ (k = Sess.main → op.serviceOnly = false ∧ h.queue ≠ 3)
         ∧ (s.blk.queue h.queue).length < queueSlots h.queue ∧ op.lengthOk h.len = false)
    ∧ (let i : Instr := (fixOf { ofService 32 with hint := 1020001 })
       let s : State := (here id)
       let h : Hdr := { ofService 32 with hint := 1020001 }
       let op : OpRow := poseFixRow
       let k : Sess := .service
       rowOf i = some (h, op) ∧ h.session ≠ 0 ∧ s.blk.reachable = true ∧ h.multicast = false
         ∧ s.blk.upd.recovery = false ∧ s.blk.sessionOf h = some k ∧ s.blk.keptReply k h = none
         ∧ s.blk.repeats k h = false ∧ (k = Sess.main → op.serviceOnly = false ∧ h.queue ≠ 3)
         ∧ (s.blk.queue h.queue).length < queueSlots h.queue ∧ op.lengthOk h.len = true
         ∧ hintTooFar s.blk.time.count h.hint = true) := by
  and_intros <;> first | decide +kernel | rfl

theorem met_RepeatsAndWaitingRequests :
    (let i : Instr := (fixOf tagged)
     let s : State := kept
     let h : Hdr := tagged
     let op : OpRow := poseFixRow
     let k : Sess := .main
     rowOf i = some (h, op) ∧ s.blk.reachable = true ∧ h.multicast = false ∧ s.blk.upd.recovery = false
       ∧ s.blk.sessionOf h = some k)
    ∧ (let i : Instr := (fixOf tagged)
       let s : State := (queued 3)
       let h : Hdr := tagged
       let op : OpRow := poseFixRow
       let k : Sess := .main
       rowOf i = some (h, op) ∧ s.blk.reachable = true ∧ h.multicast = false ∧ s.blk.upd.recovery = false
         ∧ s.blk.sessionOf h = some k ∧ s.blk.keptReply k h = none ∧ s.blk.repeats k h = true)
    ∧ (let i : Instr := (fixOf (ofMain 32))
       let s : State := (queued 31)
       let h : Hdr := (ofMain 32)
       let op : OpRow := poseFixRow
       let k : Sess := .main
       rowOf i = some (h, op) ∧ s.blk.reachable = true ∧ h.multicast = false ∧ s.blk.upd.recovery = false
         ∧ s.blk.sessionOf h = some k ∧ s.blk.keptReply k h = none ∧ s.blk.repeats k h = false
         ∧ (k = Sess.main → op.serviceOnly = false ∧ h.queue ≠ 3) ∧ op.lengthOk h.len = true
         ∧ (s.blk.queue h.queue).length < queueSlots h.queue ∧ hintTooFar s.blk.time.count h.hint = false
         ∧ (s.blk.queue h.queue ≠ [] ∨ s.blk.held h = true ∨ s.blk.roomFor h = false) ∧ s.Sound) := by
  and_intros <;> first | decide +kernel | (apply sound; decide +kernel) | rfl

theorem met_PostedRequestsWaitForTheCommit :
    (let s : State := (here id)
     let h : Hdr := (ofMain 16)
     let k : Sess := .main
     let b : Block := s.blk
     let tai : BitVec 16 := 37
     let sec : BitVec 64 := 0x1000
     let ns : Word := 5
     Served b h k clockSetRow ∧ sec.toNat < 2 ^ 34 ∧ BitVec.toNat ns ≤ 999999999 ∧ 0 ≤ tai.toInt
       ∧ tai.toInt ≤ 100)
    ∧ (let s : State := (here id)
       let h : Hdr := (ofMain 16)
       let k : Sess := .main
       let b : Block := s.blk
       let sec : BitVec 64 := (86400*20000)
       Served b h k clockSetRow ∧ sec.toNat % 86400 = 0
         ∧ stampSeconds b.time.dev b.time.taiUtc < ↑sec.toNat ∧ sec.toNat < 2 ^ 32)
    ∧ (let s : State := (here id)
       let h : Hdr := (ofMain 16)
       let k : Sess := .main
       let b : Block := s.blk
       Served b h k clockSetRow)
    ∧ (let s : State := (here id)
       let h : Hdr := (ofMain 16)
       let k : Sess := .main
       let b : Block := s.blk
       let p : Sys2Proof.PowerPolicy := { setLtol := true, ltol := 3 }
       Served b h k powerPolicyRow ∧ b.alarmBad p = false ∧ (p.dormantNow = true → b.blocks % 64 = 0))
    ∧ (let s : State := (here id)
       let h : Hdr := (ofMain 16)
       let k : Sess := .main
       let b : Block := s.blk
       let quietActive : Prop := ∀ (n : Nat), n < 96 → (b.unit (unitNoz n)).state ≠ UnitState.active
       let frame : BitVec 16 := 3
       Served b h k fieldOriginRow ∧ quietActive ∧ frame ≠ 0)
    ∧ (let s : State := (here id)
       let h : Hdr := (ofMain 8)
       let k : Sess := .main
       let b : Block := s.blk
       let product : Byte := 1
       let policy : Byte := 2
       let tmo : BitVec 16 := 2000
       Served b h k mapPolicyRow ∧ BitVec.toNat product < 2 ∧ BitVec.toNat policy < 3 ∧ tmo.toNat ≤ 2000)
    ∧ (let s : State := (here id)
       let h : Hdr := (ofMain 12)
       let k : Sess := .main
       let b : Block := s.blk
       let quietActive : Prop := ∀ (n : Nat), n < 96 → (b.unit (unitNoz n)).state ≠ UnitState.active
       let scope : Byte := 1
       let product : Byte := 1
       let flags : Byte := 1
       Served b h k tileInvalidateRow ∧ BitVec.toNat scope < 3 ∧ (scope ≠ 2 → BitVec.toNat product < 2)
         ∧ (k = Sess.main → BitVec.getLsbD flags 0 = true → quietActive))
    ∧ (let s : State := withNozzles
       let h : Hdr := (ofServiceQ1 20)
       let k : Sess := .service
       let b : Block := s.blk
       let mask : BitVec 96 := 1
       let all : (Nat → Prop) → Prop := fun p => ∀ (n : Nat), n < 96 → mask.getLsbD n = true → p n
       let inService : Prop := all fun n => (b.unit (unitNoz n)).state = UnitState.service
       Served b h k nozzleForceRow ∧ inService)
    ∧ (let s : State := withNozzles
       let h : Hdr := (ofServiceQ1 20)
       let k : Sess := .service
       let b : Block := s.blk
       let mask : BitVec 96 := 1
       let all : (Nat → Prop) → Prop := fun p => ∀ (n : Nat), n < 96 → mask.getLsbD n = true → p n
       let inService : Prop := all fun n => (b.unit (unitNoz n)).state = UnitState.service
       let quiet : Prop := all fun n => (b.noz n).isQuiet = true
       Served b h k nozzleForceRow ∧ inService ∧ quiet)
    ∧ (let s : State := withNozzles
       let h : Hdr := (ofServiceQ1 20)
       let k : Sess := .service
       let b : Block := s.blk
       let mask : BitVec 96 := 3
       let all : (Nat → Prop) → Prop := fun p => ∀ (n : Nat), n < 96 → mask.getLsbD n = true → p n
       let inService : Prop := all fun n => (b.unit (unitNoz n)).state = UnitState.service
       let quiet : Prop := all fun n => (b.noz n).isQuiet = true
       Served b h k nozzleForceRow ∧ inService ∧ (¬quiet))
    ∧ (let s : State := withNozzles
       let h : Hdr := (ofServiceQ1 20)
       let k : Sess := .service
       let b : Block := s.blk
       let mask : BitVec 96 := 4
       let all : (Nat → Prop) → Prop := fun p => ∀ (n : Nat), n < 96 → mask.getLsbD n = true → p n
       let inService : Prop := all fun n => (b.unit (unitNoz n)).state = UnitState.service
       Served b h k nozzleForceRow ∧ (¬inService))
    ∧ (let s : State := withNozzles
       let h : Hdr := (ofMain 28)
       let k : Sess := .main
       let b : Block := s.blk
       let command : Byte := 2
       let timing : Byte := 1
       let mask : BitVec 96 := 4
       Served b h k sectionRow ∧ BitVec.toNat command ≤ 2 ∧ BitVec.toNat timing ≤ 1
         ∧ (∀ (n : Nat), n < 96 → mask.getLsbD n = true → b.almMode n = 1 ∧ (b.unit (unitNoz n)).state = UnitState.active))
    ∧ (let s : State := withNozzles
       let h : Hdr := (ofMain 12)
       let k : Sess := .main
       let b : Block := s.blk
       let product : Byte := 1
       let flags : Byte := 3
       let scale : BitVec 16 := 2000
       Served b h k rateTargetRow ∧ BitVec.toNat product ≤ 1
         ∧ (BitVec.getLsbD flags 1 = true → 1 ≤ scale.toNat ∧ scale.toNat ≤ 2000))
    ∧ (let s : State := (here (motIn 3 .active))
       let h : Hdr := (ofMain 40)
       let k : Sess := .main
       let b : Block := s.blk
       let mask : BitVec 16 := 8
       let duties : List (BitVec 16) := [0, 0, 0, -10000]
       Served b h k driveRow
         ∧ (∀ (u : Nat), u < 16 → mask.getLsbD u = true → (b.unit (unitMot u)).state = driveState k ∧ (nth duties u 0).toInt.natAbs ≤ 10000))
    ∧ (let s : State := (here (motIn 3 .active))
       let h : Hdr := (ofMain 40)
       let k : Sess := .main
       let b : Block := s.blk
       let mask : BitVec 16 := 8
       let duties : List (BitVec 16) := [0, 0, 0, -10000]
       Served b h k driveRow
         ∧ (∀ (u : Nat), u < 16 → mask.getLsbD u = true → (b.unit (unitMot u)).state = driveState k ∧ (nth duties u 0).toInt.natAbs ≤ 10000)
         ∧ (∀ (u : Nat), u < 16 → mask.getLsbD u = true → (b.mot u).seq ≠ MotSeq.rampDown ∧ (b.mot u).seq ≠ MotSeq.brake ∧ (b.mot u).seq ≠ MotSeq.fault)) := by
  and_intros <;> first | decide +kernel | (apply served; decide +kernel)

theorem met_WaitingRequestsActInStepTwo :
    (let b0 : Block := atWork
     let arrived : Nat := 10000000030000
     let b : Block := { ident := b0.ident, regs := b0.regs, time := b0.time, link := b0.link, vig := b0.vig, evt := b0.evt, diary := b0.diary, can := b0.can, upd := b0.upd, sup := b0.sup, eng := b0.eng, pub := b0.pub, pubTime := b0.pubTime, pubSup := b0.pubSup, draws := b0.draws }
     let sec : BitVec 64 := 1800000000
     b.sourceOwnsTime = false ∧ sec.toNat < 2 ^ 33 ∧ b.time.now ≤ arrived)
    ∧ (let b0 : Block := (withMap id).blk
       let b : Block := { ident := b0.ident, regs := b0.regs, time := b0.time, link := b0.link, vig := b0.vig, evt := b0.evt, diary := b0.diary, can := b0.can, upd := b0.upd, sup := b0.sup, eng := b0.eng, pub := b0.pub, pubTime := b0.pubTime, pubSup := b0.pubSup, draws := b0.draws }
       let scope : Byte := 0
       let product : Byte := 0
       let tx : Word := 7
       let ty : Word := 7
       let f : Fin 128 := 2
       let x : Frame := b.frame ↑f
       let named : Prop := BitVec.toNat scope = 2 ∨ BitVec.toNat scope < 2 ∧ x.prod = BitVec.toNat product ∧ (scope = 0 → x.key = { fid := b.prodFid (BitVec.toNat product), tx := BitVec.toInt tx, ty := BitVec.toInt ty })
       b.eng.map.frames.length = 128 ∧ named ∧ x.state = FrameState.dirty)
    ∧ (let b0 : Block := (withMap id).blk
       let b : Block := { ident := b0.ident, regs := b0.regs, time := b0.time, link := b0.link, vig := b0.vig, evt := b0.evt, diary := b0.diary, can := b0.can, upd := b0.upd, sup := b0.sup, eng := b0.eng, pub := b0.pub, pubTime := b0.pubTime, pubSup := b0.pubSup, draws := b0.draws }
       let scope : Byte := 2
       let product : Byte := 0
       let tx : Word := 7
       let ty : Word := 7
       let f : Fin 128 := 6
       let x : Frame := b.frame ↑f
       let named : Prop := BitVec.toNat scope = 2 ∨ BitVec.toNat scope < 2 ∧ x.prod = BitVec.toNat product ∧ (scope = 0 → x.key = { fid := b.prodFid (BitVec.toNat product), tx := BitVec.toInt tx, ty := BitVec.toInt ty })
       b.eng.map.frames.length = 128 ∧ named ∧ (x.state = FrameState.valid ∨ x.state = FrameState.filling))
    ∧ (let b0 : Block := (withMap id).blk
       let b : Block := { ident := b0.ident, regs := b0.regs, time := b0.time, link := b0.link, vig := b0.vig, evt := b0.evt, diary := b0.diary, can := b0.can, upd := b0.upd, sup := b0.sup, eng := b0.eng, pub := b0.pub, pubTime := b0.pubTime, pubSup := b0.pubSup, draws := b0.draws }
       let scope : Byte := 1
       let product : Byte := 1
       let tx : Word := 7
       let ty : Word := 7
       let f : Fin 128 := 6
       let x : Frame := b.frame ↑f
       let named : Prop := BitVec.toNat scope = 2 ∨ BitVec.toNat scope < 2 ∧ x.prod = BitVec.toNat product ∧ (scope = 0 → x.key = { fid := b.prodFid (BitVec.toNat product), tx := BitVec.toInt tx, ty := BitVec.toInt ty })
       b.eng.map.frames.length = 128 ∧ BitVec.toNat scope < 3 ∧ (¬named))
    ∧ (let b0 : Block := withNozzles.blk
       let b : Block := { ident := b0.ident, regs := b0.regs, time := b0.time, link := b0.link, vig := b0.vig, evt := b0.evt, diary := b0.diary, can := b0.can, upd := b0.upd, sup := b0.sup, eng := b0.eng, pub := b0.pub, pubTime := b0.pubTime, pubSup := b0.pubSup, draws := b0.draws }
       let n : Fin 96 := 0
       (b.unit (unitNoz ↑n)).state = UnitState.service)
    ∧ (let b0 : Block := withNozzles.blk
       let b : Block := { ident := b0.ident, regs := b0.regs, time := b0.time, link := b0.link, vig := b0.vig, evt := b0.evt, diary := b0.diary, can := b0.can, upd := b0.upd, sup := b0.sup, eng := b0.eng, pub := b0.pub, pubTime := b0.pubTime, pubSup := b0.pubSup, draws := b0.draws }
       b.eng.alm.noz.length = 96)
    ∧ (let product : Byte := 1
       BitVec.toNat product ≤ 1)
    ∧ (let b0 : Block := atWork
       let b : Block := { ident := b0.ident, regs := b0.regs, time := b0.time, link := b0.link, vig := b0.vig, evt := b0.evt, diary := b0.diary, can := b0.can, upd := b0.upd, sup := b0.sup, eng := b0.eng, pub := b0.pub, pubTime := b0.pubTime, pubSup := b0.pubSup, draws := b0.draws }
       let p : Posted := { seq := 3, sess := some .main, arrived := 5, since := 10000000072001, act := .req (.clockSetLeapCancel {}) }
       b.inTime p.since = false)
    ∧ (let b0 : Block := (withMap id).blk
       let b : Block := { ident := b0.ident, regs := b0.regs, time := b0.time, link := b0.link, vig := b0.vig, evt := b0.evt, diary := b0.diary, can := b0.can, upd := b0.upd, sup := b0.sup, eng := b0.eng, pub := b0.pub, pubTime := b0.pubTime, pubSup := b0.pubSup, draws := b0.draws }
       let scope : Byte := 0
       let product : Byte := 0
       let tx : Word := 8
       let ty : Word := 7
       let f : Fin 128 := 3
       let x : Frame := b.frame ↑f
       let named : Prop := BitVec.toNat scope = 2 ∨ BitVec.toNat scope < 2 ∧ x.prod = BitVec.toNat product ∧ (scope = 0 → x.key = { fid := b.prodFid (BitVec.toNat product), tx := BitVec.toInt tx, ty := BitVec.toInt ty })
       b.eng.map.frames.length = 128 ∧ named ∧ x.state = FrameState.writingBack)
    ∧ (let b0 : Block := (onSource 1 (fun t => { t with servo := .locked })).blk
       let b : Block := { ident := b0.ident, regs := b0.regs, time := b0.time, link := b0.link, vig := b0.vig, evt := b0.evt, diary := b0.diary, can := b0.can, upd := b0.upd, sup := b0.sup, eng := b0.eng, pub := b0.pub, pubTime := b0.pubTime, pubSup := b0.pubSup, draws := b0.draws }
       b.sourceOwnsTime = true) := by
  and_intros <;> decide +kernel

theorem met_MeasurementsDriveTheServo :
    (let s : State := (onSource 1 id)
     let i : Instr := (.asSyncReceived 250000 100)
     let offset : Int := 250000
     let at_ : Nat := 100
     let b : Block := s.blk
     let relays : Prop := i = Instr.asSyncReceived offset at_ ∧ b.flag Reg.LINK_PTP_CFG 0 16 = true ∧ b.link.portB.up = true ∧ b.asCapable b.link.portB = true
     (i = Instr.asSyncReceived offset at_ ∧ s.blk.timeSource = 1 ∧ s.blk.link.portA.up = true ∨ ∃ rising, i = Instr.syncInEdge rising at_ ∧ (s.blk.timeSource = 2 ∨ s.blk.timeSource = 3) ∧ rising ≠ s.blk.flag Reg.TICK_CTRL 0 4 ∧ offset = s.blk.syncOffset at_)
       ∧ s.blk.ticking = true ∧ s.blk.time.src = s.blk.timeSource
       ∧ (b.time.servo = Servo.free ∨ b.time.servo = Servo.holdover) ∧ (¬relays))
    ∧ (let s : State := (onSource 1 (fun t => { t with servo := .acquiring, near := 15 }))
       let i : Instr := (.asSyncReceived 1000 100)
       let offset : Int := 1000
       let at_ : Nat := 100
       let b : Block := s.blk
       let relays : Prop := i = Instr.asSyncReceived offset at_ ∧ b.flag Reg.LINK_PTP_CFG 0 16 = true ∧ b.link.portB.up = true ∧ b.asCapable b.link.portB = true
       (i = Instr.asSyncReceived offset at_ ∧ s.blk.timeSource = 1 ∧ s.blk.link.portA.up = true ∨ ∃ rising, i = Instr.syncInEdge rising at_ ∧ (s.blk.timeSource = 2 ∨ s.blk.timeSource = 3) ∧ rising ≠ s.blk.flag Reg.TICK_CTRL 0 4 ∧ offset = s.blk.syncOffset at_)
         ∧ s.blk.ticking = true ∧ s.blk.time.src = s.blk.timeSource ∧ b.time.servo = Servo.acquiring
         ∧ offset.natAbs ≤ 1000 ∧ b.time.near = 15 ∧ b.time.sat = false ∧ (¬relays))
    ∧ (let s : State := (onSource 1 (fun t => { t with servo := .locked, far := 3 }))
       let i : Instr := (.asSyncReceived 10001 100)
       let offset : Int := 10001
       let at_ : Nat := 100
       let b : Block := s.blk
       let relays : Prop := i = Instr.asSyncReceived offset at_ ∧ b.flag Reg.LINK_PTP_CFG 0 16 = true ∧ b.link.portB.up = true ∧ b.asCapable b.link.portB = true
       (i = Instr.asSyncReceived offset at_ ∧ s.blk.timeSource = 1 ∧ s.blk.link.portA.up = true ∨ ∃ rising, i = Instr.syncInEdge rising at_ ∧ (s.blk.timeSource = 2 ∨ s.blk.timeSource = 3) ∧ rising ≠ s.blk.flag Reg.TICK_CTRL 0 4 ∧ offset = s.blk.syncOffset at_)
         ∧ s.blk.ticking = true ∧ s.blk.time.src = s.blk.timeSource ∧ b.time.servo = Servo.locked
         ∧ 10000 < offset.natAbs ∧ b.time.far = 3 ∧ (¬relays))
    ∧ (let s : State := (relaying (onSource 1 id))
       let i : Instr := (.asSyncReceived 250000 100)
       let offset : Int := 250000
       let at_ : Nat := 100
       let b : Block := s.blk
       let relays : Prop := i = Instr.asSyncReceived offset at_ ∧ b.flag Reg.LINK_PTP_CFG 0 16 = true ∧ b.link.portB.up = true ∧ b.asCapable b.link.portB = true
       (i = Instr.asSyncReceived offset at_ ∧ s.blk.timeSource = 1 ∧ s.blk.link.portA.up = true ∨ ∃ rising, i = Instr.syncInEdge rising at_ ∧ (s.blk.timeSource = 2 ∨ s.blk.timeSource = 3) ∧ rising ≠ s.blk.flag Reg.TICK_CTRL 0 4 ∧ offset = s.blk.syncOffset at_)
         ∧ s.blk.ticking = true ∧ s.blk.time.src = s.blk.timeSource
         ∧ (b.time.servo = Servo.free ∨ b.time.servo = Servo.holdover) ∧ relays)
    ∧ (let s : State := (relaying (onSource 1 (fun t => { t with servo := .acquiring, near := 15 })))
       let i : Instr := (.asSyncReceived 1000 100)
       let offset : Int := 1000
       let at_ : Nat := 100
       let b : Block := s.blk
       let relays : Prop := i = Instr.asSyncReceived offset at_ ∧ b.flag Reg.LINK_PTP_CFG 0 16 = true ∧ b.link.portB.up = true ∧ b.asCapable b.link.portB = true
       (i = Instr.asSyncReceived offset at_ ∧ s.blk.timeSource = 1 ∧ s.blk.link.portA.up = true ∨ ∃ rising, i = Instr.syncInEdge rising at_ ∧ (s.blk.timeSource = 2 ∨ s.blk.timeSource = 3) ∧ rising ≠ s.blk.flag Reg.TICK_CTRL 0 4 ∧ offset = s.blk.syncOffset at_)
         ∧ s.blk.ticking = true ∧ s.blk.time.src = s.blk.timeSource ∧ b.time.servo = Servo.acquiring
         ∧ offset.natAbs ≤ 1000 ∧ b.time.near = 15 ∧ b.time.sat = false ∧ relays)
    ∧ (let s : State := (relaying (onSource 1 (fun t => { t with servo := .locked, far := 3 })))
       let i : Instr := (.asSyncReceived 10001 100)
       let offset : Int := 10001
       let at_ : Nat := 100
       let b : Block := s.blk
       let relays : Prop := i = Instr.asSyncReceived offset at_ ∧ b.flag Reg.LINK_PTP_CFG 0 16 = true ∧ b.link.portB.up = true ∧ b.asCapable b.link.portB = true
       (i = Instr.asSyncReceived offset at_ ∧ s.blk.timeSource = 1 ∧ s.blk.link.portA.up = true ∨ ∃ rising, i = Instr.syncInEdge rising at_ ∧ (s.blk.timeSource = 2 ∨ s.blk.timeSource = 3) ∧ rising ≠ s.blk.flag Reg.TICK_CTRL 0 4 ∧ offset = s.blk.syncOffset at_)
         ∧ s.blk.ticking = true ∧ s.blk.time.src = s.blk.timeSource ∧ b.time.servo = Servo.locked
         ∧ 10000 < offset.natAbs ∧ b.time.far = 3 ∧ relays) := by
  and_intros <;> decide +kernel

theorem met_TimeSourceLossAndRealTimeClock :
    (let s : State := (inTime (fun t => { t with servo := .locked, freqHist := [3, 4, 6] }))
     let at_ : Nat := 100
     let b : Block := s.blk
     (b.time.servo = Servo.acquiring ∨ b.time.servo = Servo.locked)
       ∧ b.fld Reg.TICK_LOSS_TMO 0 13 0 * 1000000 ≤ b.now at_ - b.time.lastMeas
       ∧ b.fld Reg.TICK_HOLD_MAX 0 11 0 ≠ 0)
    ∧ (let s : State := (here (fun b => (b.setWord .TICK_HOLD_MAX 0 0 60).modTime (fun t => { t with servo := .holdover })))
       let at_ : Nat := 100
       let b : Block := s.blk
       b.time.servo = Servo.holdover
         ∧ b.fld Reg.TICK_HOLD_MAX 0 11 0 * 1000000000 ≤ b.now at_ - b.time.holdSince)
    ∧ (let s : State := (inTime (fun t => { t with utcValid := true, taiUtc := 37, dev := 6000000000000 }))
       let at_ : Nat := 0
       let b : Block := s.blk
       b.time.utcValid = true ∧ b.ticking = true ∧ b.devNow at_ % 60000000000 = 0
         ∧ b.time.rtc.running = true)
    ∧ (let s : State := (here (fun b => (b.setWord .TICK_HOLD_MAX 0 0 0).modTime (fun t => { t with servo := .locked, freqHist := [3] })))
       let at_ : Nat := 100
       let b : Block := s.blk
       (b.time.servo = Servo.acquiring ∨ b.time.servo = Servo.locked)
         ∧ b.fld Reg.TICK_LOSS_TMO 0 13 0 * 1000000 ≤ b.now at_ - b.time.lastMeas
         ∧ b.fld Reg.TICK_HOLD_MAX 0 11 0 = 0) :=
  by decide +kernel

theorem met_TickEdgeAndCommit :
    (let s : State := (downTo .hold .hold)
     let b : Block := s.blk
     b.ticking = false ∨ b.vig.clockFault = true)
    ∧ (let s : State := State.reset
       let b : Block := s.blk
       b.ticking = true ∧ b.vig.clockFault = false ∧ b.upd.resetDue = false ∧ b.vig.resetDue = false
         ∧ b.upd.recovery = false)
    ∧ (let s : State := (resetWaits true)
       let b : Block := s.blk
       let replyLeft : Prop := b.link.tx.left [6, 83, 85] b.time.now = true
       b.ticking = true ∧ b.vig.clockFault = false ∧ b.upd.resetDue = true ∧ replyLeft)
    ∧ (let s : State := (resetWaits false)
       let b : Block := s.blk
       let replyLeft : Prop := b.link.tx.left [6, 83, 85] b.time.now = true
       b.ticking = true ∧ b.vig.clockFault = false ∧ b.upd.resetDue = false ∧ b.vig.resetDue = true
         ∧ replyLeft ∧ b.mustRevert = false ∧ s.Sound)
    ∧ (let s : State := (inTime (fun t => { t with closed := true }))
       let b : Block := s.blk
       b.mayCommit = false)
    ∧ (let s : State := busyTick
       let finish : Nat := 951
       let b : Block := s.blk
       b.mayCommit = true ∧ 950 < finish)
    ∧ (let s : State := busyTick
       let finish : Nat := 950
       let b : Block := s.blk
       let inHand : Block := (b.lookAhead 72000).resume 72000
       b.mayCommit = true ∧ finish ≤ 950 ∧ dormantAsked inHand.stagedInTime = false)
    ∧ (let s : State := busyTick
       let finish : Nat := 951
       let b : Block := s.blk
       b.mayCommit = true ∧ 950 < finish ∧ b.eng.alm.due = 0) := by
  and_intros <;> first | decide +kernel | (apply sound; decide +kernel)

theorem met_PulseAxisCountsAndStops :
    (let s : State := (pulseAxis 3)
     let a : Fin 32 := 2
     let levels : BitVec 49 := 0x20
     let held : Nat := 0
     let cycles : List (Fin 8 × Nat) := []
     let b : Block := s.blk
     let old : BitVec 49 := b.eng.fb.levels
     s.Sound ∧ b.ticking = true ∧ b.axisType ↑a = 3 ∧ b.fld Reg.AXIS_CFG (↑a) 10 9 = 0
       ∧ b.flag Reg.AXIS_CFG (↑a) 8 = false ∧ b.rotary ↑a = false ∧ (b.axis ↑a).pending = none
       ∧ (b.axis ↑a).dir ≠ some false ∧ levelOf old (b.inA ↑a) = false
       ∧ levelOf (b.accepted old levels held (b.vrCounts cycles)) (b.inA ↑a) = true
       ∧ (b.axis ↑a).pos < b.sfld Reg.AXIS_LIM_HI (↑a) 31 0)
    ∧ (let s : State := (pulseAxis 100)
       let a : Fin 32 := 2
       let levels : BitVec 49 := 0x20
       let held : Nat := 0
       let cycles : List (Fin 8 × Nat) := []
       let b : Block := s.blk
       let old : BitVec 49 := b.eng.fb.levels
       s.Sound ∧ b.ticking = true ∧ b.axisType ↑a = 3 ∧ b.fld Reg.AXIS_CFG (↑a) 10 9 = 0
         ∧ b.flag Reg.AXIS_CFG (↑a) 8 = false ∧ b.rotary ↑a = false ∧ (b.axis ↑a).pending = none
         ∧ (b.axis ↑a).dir ≠ some false ∧ levelOf old (b.inA ↑a) = false
         ∧ levelOf (b.accepted old levels held (b.vrCounts cycles)) (b.inA ↑a) = true
         ∧ b.sfld Reg.AXIS_LIM_HI (↑a) 31 0 ≤ (b.axis ↑a).pos)
    ∧ (let s : State := (pulseAxis 3)
       let a : Fin 32 := 2
       let at_ : Nat := 100
       let b : Block := s.blk
       s.Sound ∧ b.fld Reg.AXIS_SPD_CFG (↑a) 10 0 * 1000000 ≤ b.now at_ - (b.axis ↑a).lastCount)
    ∧ (let s : State := (pulseAxis 3)
       let b : Block := s.blk
       s.Sound ∧ b.ticking = true) := by
  and_intros <;> first | decide +kernel | (apply sound; decide +kernel)

theorem met_SerialPortFrames :
    (let s : State := ports
     let p : Fin 4 := 1
     let b : Block := s.blk
     let status : Nat := 5
     let crc : Nat := (sentCrc true [1, 2, 3])
     let data : List Nat := [1, 2, 3]
     let tick : Nat := b.fld Reg.SP_CFG (↑p) 31 24 * 500
     s.Sound ∧ b.fld Reg.SP_CFG (↑p) 1 0 = 1 ∧ 0 < tick ∧ data.length = b.fld Reg.SP_CFG (↑p) 10 8
       ∧ (∀ (v : Nat), v ∈ status :: crc :: data → v < 16) ∧ crc = sentCrc (b.flag Reg.SP_CFG (↑p) 5) data
       ∧ ((b.port ↑p).lastSync = none ∨ (b.port ↑p).lastSync = some (56 * tick)))
    ∧ (let s : State := ports
       let p : Fin 4 := 2
       let b : Block := s.blk
       s.Sound ∧ b.fld Reg.SP_CFG (↑p) 1 0 = 2 ∧ b.fld Reg.SP_CFG (↑p) 4 3 = 0)
    ∧ (let s : State := ports
       let p : Fin 4 := 2
       let b : Block := s.blk
       s.Sound ∧ b.fld Reg.SP_CFG (↑p) 1 0 = 2 ∧ b.fld Reg.SP_CFG (↑p) 4 3 = 0
         ∧ (b.port ↑p).badRun + 1 < b.fld Reg.SP_FIELD (↑p) 23 16)
    ∧ (let s : State := ports
       let p : Fin 4 := 1
       let at_ : Nat := 100
       let b : Block := s.blk
       s.Sound ∧ b.fld Reg.SP_CFG (↑p) 1 0 ≠ 0 ∧ (b.port ↑p).lost = false
         ∧ b.fld Reg.SP_FIELD (↑p) 31 24 * 1000000 ≤ b.now at_ - (b.port ↑p).stamp) := by
  and_intros <;> first | decide +kernel | (apply sound; decide +kernel)

theorem met_TractorSpeedMessages :
    (let s : State := (speedAxis id)
     let b : Block := s.blk
     let source : Byte := 0x22
     let speed : BitVec 16 := 500
     s.Sound ∧ b.flag Reg.CANB_CFG 0 0 = true
       ∧ (b.fld Reg.MSG_CFG 0 23 16 = 255 ∨ b.fld Reg.MSG_CFG 0 23 16 = BitVec.toNat source)
       ∧ speed.toNat < 65024)
    ∧ (let s : State := (speedAxis id |> canMOff)
       let b : Block := s.blk
       s.Sound ∧ b.flag Reg.CANB_CFG 0 0 = false)
    ∧ (let s : State := (speedAxis id)
       s.Sound) := by
  and_intros <;> first | decide +kernel | (apply sound; decide +kernel)

theorem met_PoseTimeoutsAndInertialSamples :
    (let s : State := (posing (fun p => { p with bridge := true, now := { p.now with v := 5 } }))
     let at_ : Nat := 100
     let b : Block := s.blk
     let p : Pose := b.eng.pose
     p.bridge = true ∧ p.enabled = true ∧ p.travelLost = false
       ∧ b.fld Reg.POSE_BRIDGE 0 15 0 * 1000000 ≤ b.now at_ - p.bridgeSince)
    ∧ (let s : State := (posing id)
       let b : Block := s.blk
       let p : Pose := b.eng.pose
       p.imuFault = false ∨ p.enabled = false)
    ∧ (let s : State := (posing (fun p => { p with imuFault := true }))
       let b : Block := s.blk
       let p : Pose := b.eng.pose
       p.imuFault = true ∧ p.enabled = true)
    ∧ (let s : State := (posing (fun p => { p with bridge := true, sway := 4, psi := 3, swaySat := true }))
       let at_ : Nat := 100
       let b : Block := s.blk
       let p : Pose := b.eng.pose
       let failed : Bool := true
       (failed = true ∨ 5000000 ≤ b.now at_ - p.imuAt) ∧ p.imuFault = false ∧ p.enabled = true)
    ∧ (let s : State := (posing (fun p => { p with init := true, grade := 3, now := { p.now with sigPos := 0, sigHdg := 0 } }))
       let at_ : Nat := 100
       let b : Block := s.blk
       let p : Pose := b.eng.pose
       p.enabled = true ∧ b.fld Reg.POSE_FIX_CFG 0 27 16 * 10000000 ≤ b.now at_ - p.lastFixNow
         ∧ b.gradeNow ≠ 0)
    ∧ (let s : State := (here id)
       let b : Block := s.blk
       let p : Pose := b.eng.pose
       p.enabled = false) :=
  by decide +kernel

theorem met_PoseFixesAndAiding :
    (let s : State := (posing id)
     let h : Hdr := (ofMain 32)
     let k : Sess := .main
     let f : Sys2Proof.PoseFix := fix0
     let b : Block := s.blk
     let p : Pose := b.eng.pose
     let fixed : Prop := 0 < f.headingSigma.toNat ∧ 0 < f.posSigma.toNat ∧ f.posSigma.toNat < 65535 ∧ (f.speed ≠ 2147483648 → 0 < f.speedSigma.toNat) ∧ BitVec.toNat f.quality ≤ 4
     Served b h k poseFixRow ∧ p.enabled = true ∧ fixed ∧ p.fixes.length < 4)
    ∧ (let s : State := (posing (fun p => { p with fixes := [fix0, fix0, fix0, fix0] }))
       let h : Hdr := (ofMain 32)
       let k : Sess := .main
       let f : Sys2Proof.PoseFix := fix0
       let b : Block := s.blk
       let p : Pose := b.eng.pose
       let fixed : Prop := 0 < f.headingSigma.toNat ∧ 0 < f.posSigma.toNat ∧ f.posSigma.toNat < 65535 ∧ (f.speed ≠ 2147483648 → 0 < f.speedSigma.toNat) ∧ BitVec.toNat f.quality ≤ 4
       Served b h k poseFixRow ∧ p.enabled = true ∧ fixed ∧ 4 ≤ p.fixes.length)
    ∧ (let s : State := (posing id)
       let h : Hdr := (ofMain 32)
       let k : Sess := .main
       let f : Sys2Proof.PoseFix := { fix0 with quality := 5 }
       let b : Block := s.blk
       let p : Pose := b.eng.pose
       let fixed : Prop := 0 < f.headingSigma.toNat ∧ 0 < f.posSigma.toNat ∧ f.posSigma.toNat < 65535 ∧ (f.speed ≠ 2147483648 → 0 < f.speedSigma.toNat) ∧ BitVec.toNat f.quality ≤ 4
       Served b h k poseFixRow ∧ p.enabled = true ∧ (¬fixed))
    ∧ (let s : State := (here id)
       let h : Hdr := (ofMain 32)
       let k : Sess := .main
       let b : Block := s.blk
       let p : Pose := b.eng.pose
       Served b h k poseFixRow ∧ p.enabled = false)
    ∧ (let s : State := (posing id)
       let h : Hdr := (ofMain 24)
       let k : Sess := .main
       let items : List Sys2Proof.AidItem := [aid0, aid0]
       let b : Block := s.blk
       let p : Pose := b.eng.pose
       let aided : Prop := ∀ (i : Sys2Proof.AidItem), i ∈ items → 1 ≤ BitVec.toNat i.kind ∧ BitVec.toNat i.kind ≤ 4 ∧ (BitVec.toNat i.kind ≠ 4 → 0 < i.sigma.toNat)
       Served b h k poseAidingRow ∧ p.enabled = true ∧ aided ∧ p.aids.length < 4)
    ∧ (let s : State := (posing (fun p => { p with aids := [⟨1, []⟩, ⟨1, []⟩, ⟨1, []⟩, ⟨1, []⟩] }))
       let h : Hdr := (ofMain 16)
       let k : Sess := .main
       let items : List Sys2Proof.AidItem := [aid0]
       let b : Block := s.blk
       let p : Pose := b.eng.pose
       let aided : Prop := ∀ (i : Sys2Proof.AidItem), i ∈ items → 1 ≤ BitVec.toNat i.kind ∧ BitVec.toNat i.kind ≤ 4 ∧ (BitVec.toNat i.kind ≠ 4 → 0 < i.sigma.toNat)
       Served b h k poseAidingRow ∧ p.enabled = true ∧ aided ∧ 4 ≤ p.aids.length)
    ∧ (let s : State := (posing id)
       let h : Hdr := (ofMain 16)
       let k : Sess := .main
       let items : List Sys2Proof.AidItem := [{ aid0 with sigma := 0 }]
       let b : Block := s.blk
       let p : Pose := b.eng.pose
       let aided : Prop := ∀ (i : Sys2Proof.AidItem), i ∈ items → 1 ≤ BitVec.toNat i.kind ∧ BitVec.toNat i.kind ≤ 4 ∧ (BitVec.toNat i.kind ≠ 4 → 0 < i.sigma.toNat)
       Served b h k poseAidingRow ∧ p.enabled = true ∧ (¬aided))
    ∧ (let s : State := (here id)
       let h : Hdr := (ofMain 16)
       let k : Sess := .main
       let b : Block := s.blk
       let p : Pose := b.eng.pose
       Served b h k poseAidingRow ∧ p.enabled = false) := by
  and_intros <;> first | decide +kernel | (apply served; decide +kernel)

theorem met_MissingTilesAndAbandonedFills :
    (let s : State := (withMap parked)
     let at_ : Nat := 100
     let b : Block := s.blk
     let p : Fin 2 := 0
     let tx : Int := 1
     let ty : Int := (-2)
     let w : KeyWait := wait0
     let k : Key := { fid := b.prodFid ↑p, tx := tx, ty := ty }
     b.waitOf (↑p) k = some w ∧ w.timedOut = false ∧ b.parkedOn (↑p) k = true
       ∧ b.fld Reg.MAP_POLICY (↑p) 26 16 * 1000000 ≤ b.now at_ - w.since)
    ∧ (let s : State := (withMap id)
       let at_ : Nat := 100
       let b : Block := s.blk
       let m : FieldMap := b.eng.map
       let slot : Fin 16 := 3
       let f : TileFault := fault0
       nth m.faults (↑slot) none = some f ∧ b.fld Reg.MAP_CFG 0 11 8 * 10000000 ≤ b.now at_ - f.lastSent)
    ∧ (let s : State := (withMap id)
       let at_ : Nat := 100
       let b : Block := s.blk
       let m : FieldMap := b.eng.map
       let slot : Fin 16 := 3
       let f : TileFault := fault0
       nth m.faults (↑slot) none = some f ∧ b.faultOf f.key = some ↑slot
         ∧ 500000000 ≤ b.now at_ - f.lastUse ∧ b.parkedOn 0 f.key = false ∧ b.parkedOn 1 f.key = false)
    ∧ (let s : State := (withMap id)
       let at_ : Nat := 100
       let b : Block := s.blk
       let f : Fin 128 := 4
       (b.frame ↑f).state = FrameState.filling ∧ (b.frame ↑f).doneAt = none
         ∧ b.fld Reg.MAP_CFG 0 7 0 * 1000000 ≤ b.now at_ - (b.frame ↑f).since) :=
  by decide +kernel

theorem met_CoverageAndPoisonedFrames :
    (let at_ : Nat := 30000
     20000 ≤ at_ ∧ at_ < 72000)
    ∧ (let at_ : Nat := 100
       at_ < 20000 ∨ 72000 ≤ at_)
    ∧ (let s : State := (withMap (·.modMap fun m => {m with queue := [seg0]}))
       let at_ : Nat := 72000
       let b : Block := s.blk
       let m : FieldMap := b.eng.map
       let seg : Segment := seg0
       let rest : List Segment := []
       m.queue = seg :: rest ∧ (at_ < 20000 ∨ 72000 ≤ at_ ∧ b.eng.alm.due = 0))
    ∧ (let s : State := (withMap (·.modMap fun m => {m with queue := [segDirty]}))
       let at_ : Nat := 100
       let b : Block := s.blk
       let m : FieldMap := b.eng.map
       let seg : Segment := segDirty
       let rest : List Segment := []
       let c : Int × Int := (896, 896)
       let f : Nat := 2
       m.queue = seg :: rest ∧ (at_ < 20000 ∨ 72000 ≤ at_ ∧ b.eng.alm.due = 0)
         ∧ seg.cells (b.cellMm seg.prod) = [c] ∧ b.coverOf (cellPlace (b.prodFid seg.prod) c).fst = some f
         ∧ (b.frame f).state = FrameState.dirty)
    ∧ (let s : State := (withMap id)
       let b : Block := s.blk
       let seg : Segment := seg0
       let c : Int × Int := (896, 896)
       let key : Key := { fid := b.prodFid seg.prod, tx := c.fst / 128, ty := c.snd / 128 }
       let f : Nat := 2
       let x : Frame := b.frame f
       b.coverOf key = some f ∧ b.fillOf key = none ∧ x.state = FrameState.dirty)
    ∧ (let s : State := (withMap id)
       let b : Block := s.blk
       let seg : Segment := seg0
       let c : Int × Int := (896, 896)
       let key : Key := { fid := b.prodFid seg.prod, tx := c.fst / 128, ty := c.snd / 128 }
       let f : Nat := 2
       b.coverOf key = some f ∧ b.fillOf key = none)
    ∧ (let s : State := (withMap id)
       let b : Block := s.blk
       let seg : Segment := seg0
       let c : Int × Int := (1024, 896)
       let key : Key := { fid := b.prodFid seg.prod, tx := c.fst / 128, ty := c.snd / 128 }
       let f : Nat := 3
       let x : Frame := b.frame f
       b.coverOf key = some f ∧ b.fillOf key = none ∧ x.state = FrameState.writingBack)
    ∧ (let s : State := (withMap id)
       let b : Block := s.blk
       let seg : Segment := seg0
       let c : Int × Int := (8, 8)
       let key : Key := { fid := b.prodFid seg.prod, tx := c.fst / 128, ty := c.snd / 128 }
       let f : Nat := 6
       let x : Frame := b.frame f
       b.coverOf key = some f ∧ b.fillOf key = none ∧ x.state = FrameState.valid)
    ∧ (let s : State := (withMap id)
       let b : Block := s.blk
       let m : FieldMap := b.eng.map
       let seg : Segment := seg0
       let c : Int × Int := (128, -256)
       let key : Key := { fid := b.prodFid seg.prod, tx := c.fst / 128, ty := c.snd / 128 }
       b.coverOf key = none ∧ ((b.fillOf key).isSome = true ∨ (b.faultOf key).isSome = true)
         ∧ m.replay.length < 4096)
    ∧ (let s : State := (withMap id)
       let b : Block := s.blk
       let seg : Segment := seg0
       let c : Int × Int := (1280, -256)
       let key : Key := { fid := b.prodFid seg.prod, tx := c.fst / 128, ty := c.snd / 128 }
       b.coverOf key = none ∧ b.fillOf key = none ∧ b.faultOf key = none)
    ∧ (let s : State := (withMap id)
       let b : Block := s.blk
       let f : Fin 128 := 5
       let x : Frame := b.frame ↑f
       s.Sound ∧ x.state = FrameState.poisoned ∧ x.dead = false)
    ∧ (let s : State := (withMap id)
       let b : Block := s.blk
       let f : Fin 128 := 6
       let x : Frame := b.frame ↑f
       s.Sound ∧ (x.state ≠ FrameState.poisoned ∨ x.dead = true))
    ∧ (let s : State := (withMap id)
       let b : Block := s.blk
       let f : Fin 128 := 6
       let x : Frame := b.frame ↑f
       s.Sound
         ∧ (x.state = FrameState.valid ∨ x.state = FrameState.dirty ∨ x.state = FrameState.writingBack))
    ∧ (let s : State := (withMap id)
       let b : Block := s.blk
       let f : Fin 128 := 6
       let x : Frame := b.frame ↑f
       s.Sound
         ∧ (x.state = FrameState.valid ∨ x.state = FrameState.dirty ∨ x.state = FrameState.writingBack)
         ∧ b.powered = true)
    ∧ (let s : State := (withMap id)
       let b : Block := s.blk
       let f : Fin 128 := 4
       let x : Frame := b.frame ↑f
       s.Sound ∧ x.state = FrameState.filling)
    ∧ (let s : State := (withMap id)
       let b : Block := s.blk
       let f : Fin 128 := 0
       let x : Frame := b.frame ↑f
       s.Sound ∧ (x.state = FrameState.free ∨ x.state = FrameState.poisoned ∧ x.dead = true)) := by
  and_intros <;> first | decide +kernel | (apply sound; decide +kernel)

theorem met_Writebacks :
    (let s : State := (withMap id)
     let at_ : Nat := 100
     let b : Block := s.blk
     let f : Fin 128 := 2
     s.Sound ∧ (b.frame ↑f).state = FrameState.dirty
       ∧ b.fld Reg.MAP_CFG 0 31 24 * 1000000000 ≤ b.now at_ - (b.frame ↑f).since)
    ∧ (let s : State := (withMap (withBack back0))
       let b : Block := s.blk
       let m : FieldMap := b.eng.map
       let f : Fin 128 := 2
       let tag : Nat := 1
       s.Sound ∧ (b.frame ↑f).state = FrameState.dirty ∧ tag < 4 ∧ nth m.buffers tag none = none
         ∧ (∀ (i : Nat), i < tag → nth m.buffers i none ≠ none) ∧ (b.frame ↑f).wanted = true
         ∧ b.segmentsTouch (b.frame ↑f).prod (b.frame ↑f).key = false)
    ∧ (let s : State := (withMap (withBack back0))
       let at_ : Nat := 100
       let b : Block := s.blk
       let m : FieldMap := b.eng.map
       let tag : Fin 4 := 0
       let w : Writeback := back0
       s.Sound ∧ nth m.buffers (↑tag) none = some w ∧ b.isOpen Sess.main = true
         ∧ b.fld Reg.MAP_CFG 0 23 16 * 10000000 ≤ b.now at_ - w.lastSent ∧ w.resends < 3)
    ∧ (let s : State := (withMap (withBack {back0 with resends := 3}))
       let at_ : Nat := 100
       let b : Block := s.blk
       let m : FieldMap := b.eng.map
       let tag : Fin 4 := 0
       let w : Writeback := {back0 with resends := 3}
       let f : Fin 128 := 3
       s.Sound ∧ nth m.buffers (↑tag) none = some w ∧ b.isOpen Sess.main = true
         ∧ b.fld Reg.MAP_CFG 0 23 16 * 10000000 ≤ b.now at_ - w.lastSent ∧ 3 ≤ w.resends ∧ w.frame = some ↑f
         ∧ (b.frame ↑f).state = FrameState.writingBack) := by
  and_intros <;> first | decide +kernel | (apply sound; decide +kernel)

theorem met_TileDataAndAcknowledgements :
    (let s : State := (withMap id)
     let h : Hdr := (ofMain 1048)
     let k : Sess := .main
     let b : Block := s.blk
     let product : Byte := 0
     let chunk : Byte := 31
     let fid : Byte := 5
     let tx : Word := 1
     let ty : Word := (-2)
     let key : Key := { fid := BitVec.toNat fid, tx := BitVec.toInt tx, ty := BitVec.toInt ty }
     let f : Nat := 4
     let x : Frame := if (b.frame f).state = FrameState.filling then b.frame f else { state := FrameState.filling, prod := BitVec.toNat product, key := key }
     b.dirtyOf key = none
       ∧ (b.fillOf key = some f ∨ b.fillOf key = none ∧ b.framesIn FrameState.filling < 16 ∧ (b.findFrame fun x => x.state == FrameState.free) = some f)
       ∧ Served b h k (tileDataRow 1048)
       ∧ b.chunkOk product chunk fid (BitVec.toInt tx) (BitVec.toInt ty) 32 = true ∧ x.doneAt = none)
    ∧ (let s : State := (withMap id)
       let h : Hdr := (ofMain 28)
       let k : Sess := .main
       let b : Block := s.blk
       let product : Byte := 0
       let chunk : Byte := 0
       let fid : Byte := 5
       let tx : Word := 1
       let ty : Word := (-20)
       let key : Key := { fid := BitVec.toNat fid, tx := BitVec.toInt tx, ty := BitVec.toInt ty }
       let f : Nat := 0
       let x : Frame := if (b.frame f).state = FrameState.filling then b.frame f else { state := FrameState.filling, prod := BitVec.toNat product, key := key }
       b.dirtyOf key = none
         ∧ (b.fillOf key = some f ∨ b.fillOf key = none ∧ b.framesIn FrameState.filling < 16 ∧ (b.findFrame fun x => x.state == FrameState.free) = some f)
         ∧ Served b h k (tileDataRow 28)
         ∧ b.chunkOk product chunk fid (BitVec.toInt tx) (BitVec.toInt ty) 1 = true ∧ x.doneAt = none)
    ∧ (let s : State := (withMap id)
       let h : Hdr := (ofMain 28)
       let k : Sess := .main
       let b : Block := s.blk
       let product : Byte := 0
       let chunk : Byte := 0
       let fid : Byte := 5
       let tx : Word := 7
       let ty : Word := 7
       let key : Key := { fid := BitVec.toNat fid, tx := BitVec.toInt tx, ty := BitVec.toInt ty }
       let f : Nat := 2
       b.dirtyOf key = some f ∧ Served b h k (tileDataRow 28)
         ∧ b.chunkOk product chunk fid (BitVec.toInt tx) (BitVec.toInt ty) 1 = true)
    ∧ (let s : State := (withMap id)
       let h : Hdr := (ofMain 1048)
       let k : Sess := .main
       let b : Block := s.blk
       let product : Byte := 0
       let chunk : Byte := 0
       let fid : Byte := 5
       let tx : Word := 8
       let ty : Word := 7
       let key : Key := { fid := BitVec.toNat fid, tx := BitVec.toInt tx, ty := BitVec.toInt ty }
       let f : Nat := 3
       b.dirtyOf key = some f ∧ Served b h k (tileDataRow 1048)
         ∧ b.chunkOk product chunk fid (BitVec.toInt tx) (BitVec.toInt ty) 32 = true)
    ∧ (let s : State := (withMap id)
       let h : Hdr := (ofMain 1048)
       let k : Sess := .main
       let b : Block := s.blk
       let m : FieldMap := b.eng.map
       let product : Byte := 0
       let chunk : Byte := 3
       Served b h k (tileDataRow 1048) ∧ BitVec.toNat product < 2 ∧ BitVec.toNat chunk < 16
         ∧ b.prodOn (BitVec.toNat product) = true ∧ (nth m.shadows (BitVec.toNat product) { }).doneAt = none)
    ∧ (let s : State := (withMap (withBack back0))
       let h : Hdr := (ofMain 8)
       let k : Sess := .main
       let b : Block := s.blk
       let m : FieldMap := b.eng.map
       let tag : Byte := 0
       let w : Writeback := back0
       let f : Fin 128 := 3
       Served b h k writebackAckRow ∧ nth m.buffers (BitVec.toNat tag) none = some w ∧ w.frame = some ↑f
         ∧ (b.frame ↑f).state = FrameState.writingBack ∧ (b.frame ↑f).retired = none
         ∧ (b.frame ↑f).dropped = false)
    ∧ (let s : State := (withMap (withBack back0))
       let h : Hdr := (ofMain 8)
       let k : Sess := .main
       let b : Block := s.blk
       let m : FieldMap := b.eng.map
       let tag : Byte := 0
       let missing : Word := 5
       let w : Writeback := back0
       Served b h k writebackAckRow ∧ nth m.buffers (BitVec.toNat tag) none = some w ∧ missing ≠ 4294967295) := by
  and_intros <;> first | decide +kernel | (apply served; decide +kernel)

theorem met_LaneEntriesFire :
    (let s : State := (withEntry 120 eve0 id)
     let l : Fin 160 := 120
     let at_ : Nat := 30000
     let b : Block := s.blk
     let e : Eve := eve0
     let ref : Nat := b.refAt (b.laneRef ↑l) at_
     s.Sound ∧ s.blk.vig.dbg ≠ DbgState.halted ∧ (at_ < 20000 ∨ b.eng.alm.due = 0)
       ∧ (b.laneRef ↑l = LaneRef.odometer ∨ b.laneRef ↑l = LaneRef.time)
       ∧ List.filter (fun x => reached ref x.pos) (b.lane ↑l).eves = [e]
       ∧ (b.lane ↑l).current e (b.now at_) = true ∧ b.laneMayFire ↑l = true ∧ 120 ≤ ↑l ∧ ↑l < 128)
    ∧ (let s : State := (withEntry 121 eve0 killed)
       let l : Fin 160 := 121
       let at_ : Nat := 30000
       let b : Block := s.blk
       let e : Eve := eve0
       let ref : Nat := b.refAt (b.laneRef ↑l) at_
       s.Sound ∧ s.blk.vig.dbg ≠ DbgState.halted ∧ (at_ < 20000 ∨ b.eng.alm.due = 0)
         ∧ (b.laneRef ↑l = LaneRef.odometer ∨ b.laneRef ↑l = LaneRef.time)
         ∧ List.filter (fun x => reached ref x.pos) (b.lane ↑l).eves = [e]
         ∧ ((b.lane ↑l).current e (b.now at_) = false ∨ b.laneMayFire ↑l = false))
    ∧ (let s : State := (withEntry 4 open0 id)
       let l : Fin 160 := 4
       let at_ : Nat := 30000
       let b : Block := s.blk
       let e : Eve := open0
       let ref : Nat := b.refAt (b.laneRef ↑l) at_
       s.Sound ∧ s.blk.vig.dbg ≠ DbgState.halted ∧ (at_ < 20000 ∨ b.eng.alm.due = 0)
         ∧ (b.laneRef ↑l = LaneRef.odometer ∨ b.laneRef ↑l = LaneRef.time)
         ∧ List.filter (fun x => reached ref x.pos) (b.lane ↑l).eves = [e]
         ∧ (b.lane ↑l).current e (b.now at_) = true ∧ b.laneMayFire ↑l = true ∧ ↑l < 96 ∧ e.act = 1
         ∧ e.want = none ∧ e.firm = false ∧ (b.noz ↑l).seq = NozSeq.quiet ∧ (b.noz ↑l).stuck = false
         ∧ (b.noz ↑l).on = false)
    ∧ (let s : State := (withEntry 120 eve6 (fun b => b.setUnit (unitAxis 0) (fun e => { e with state := .active }) |> axisValid))
       let l : Fin 160 := 120
       let at_ : Nat := 30000
       let b : Block := s.blk
       let e : Eve := eve6
       let a : Nat := 0
       let st : AxisStep := step6
       s.Sound ∧ s.blk.vig.dbg ≠ DbgState.halted ∧ (at_ < 20000 ∨ b.eng.alm.due = 0)
         ∧ b.laneRef ↑l = LaneRef.axis a ∧ 120 ≤ ↑l ∧ ↑l < 128
         ∧ List.filter (fun x => x.at_ == b.now at_ && decide ((b.lane ↑l).seen < x.no)) (b.axis a).steps = [st]
         ∧ b.fld Reg.CMP_CFG (↑l) 9 8 ≠ 1 ∧ b.rotary a = false ∧ st.to_ = st.from_ + 1
         ∧ (b.lane ↑l).eves = [e] ∧ ↑e.pos = st.to_ ∧ e.pos < 2 ^ 47
         ∧ (b.lane ↑l).current e (b.now at_) = true ∧ b.laneMayFire ↑l = true ∧ e.repeats = false)
    ∧ (let s : State := withPin
       let at_ : Nat := 100
       let b : Block := s.blk
       let p : Fin 8 := 2
       let end_ : Nat := 0
       s.Sound ∧ s.blk.vig.dbg ≠ DbgState.halted ∧ (nth b.eng.alm.pins ↑p { }).pulseEnd = some end_
         ∧ end_ ≤ b.now at_) := by
  and_intros <;> first | decide +kernel | (apply sound; decide +kernel)

theorem met_AsAppliedRecords :
    (let s : State := withOn
     let b : Block := s.blk
     let a : Almanac := b.eng.alm
     let p : Fin 2 := 0
     let k : Track := nth a.tracks ↑p { }
     s.Sound ∧ b.anyOn ↑p = true
       ∧ (b.fld Reg.ALM_AA_CFG 0 15 0 * 100 ≤ b.odoEdge - k.odo ∨ b.fld Reg.ALM_AA_CFG 0 23 16 * 10000000 ≤ b.time.now - k.at_))
    ∧ (let s : State := withRecords
       let at_ : Nat := 100
       let b : Block := s.blk
       let a : Almanac := b.eng.alm
       let r : AaRecord := rec0
       let rest : List AaRecord := []
       s.Sound ∧ lastN a.waiting a.ring = r :: rest ∧ b.link.main.state = SessState.opened
         ∧ (43 ≤ rest.length + 1 ∨ r.made + 10000000 ≤ b.now at_)) := by
  and_intros <;> first | decide +kernel | (apply sound; decide +kernel)

theorem met_NozzlePullInToQuiet :
    (let s : State := (noz9 (wait9 .pulse) (boosted 8))
     let n : Fin 96 := 9
     let at_ : Nat := 100
     let b : Block := s.blk
     let x : Noz := b.noz ↑n
     let now : Nat := b.now at_
     let bank : Nat := bankOf ↑n
     s.Sound ∧ b.admissible (↑n) now = true ∧ (x.pull = Pull.period ∨ b.fld Reg.NOZ_DLIM (↑n) 7 0 = 100)
       ∧ (b.flag Reg.BANK_CFG bank 0 = false ∨ (b.boost (boostOf bank)).state = BoostState.ready))
    ∧ (let s : State := (noz9 (wait9 .period) (boosted 9))
       let n : Fin 96 := 9
       let at_ : Nat := 100
       let b : Block := s.blk
       let x : Noz := b.noz ↑n
       let now : Nat := b.now at_
       let bank : Nat := bankOf ↑n
       s.Sound ∧ b.admissible (↑n) now = true ∧ (x.pull = Pull.period ∨ b.fld Reg.NOZ_DLIM (↑n) 7 0 = 100)
         ∧ b.flag Reg.BANK_CFG bank 0 = true ∧ (b.boost (boostOf bank)).state ≠ BoostState.ready
         ∧ b.flag Reg.BANK_CFG bank 1 = false)
    ∧ (let s : State := (noz9 (wait9 .leadIn) (boosted 11))
       let n : Fin 96 := 9
       let at_ : Nat := 100
       let b : Block := s.blk
       let x : Noz := b.noz ↑n
       let now : Nat := b.now at_
       let bank : Nat := bankOf ↑n
       s.Sound ∧ b.admissible (↑n) now = true ∧ (x.pull = Pull.period ∨ b.fld Reg.NOZ_DLIM (↑n) 7 0 = 100)
         ∧ b.flag Reg.BANK_CFG bank 0 = true ∧ (b.boost (boostOf bank)).state ≠ BoostState.ready
         ∧ b.flag Reg.BANK_CFG bank 1 = true)
    ∧ (let s : State := (noz9 (wait9 .leadIn) id)
       let n : Fin 96 := 9
       let at_ : Nat := 100
       let b : Block := s.blk
       let x : Noz := b.noz ↑n
       let now : Nat := b.now at_
       s.Sound ∧ x.waiting now = true ∧ 400000 ≤ now - x.waitFrom)
    ∧ (let s : State := (noz9 { seq := .rise } id)
       let n : Fin 96 := 9
       let ma : Nat := 9000
       let b : Block := s.blk
       let x : Noz := b.noz ↑n
       s.Sound ∧ x.seq = NozSeq.rise ∧ x.pset.iPeak ≤ ma)
    ∧ (let s : State := (noz9 { seq := .rise } id)
       let n : Fin 96 := 9
       let at_ : Nat := 100
       let b : Block := s.blk
       let x : Noz := b.noz ↑n
       let now : Nat := b.now at_
       s.Sound ∧ x.riseAt + x.pset.tPeak ≤ now ∧ x.seq = NozSeq.rise)
    ∧ (let s : State := (noz9 { seq := .peak } id)
       let n : Fin 96 := 9
       let at_ : Nat := 100
       let b : Block := s.blk
       let x : Noz := b.noz ↑n
       let now : Nat := b.now at_
       s.Sound ∧ x.riseAt + x.pset.tPeak ≤ now ∧ x.seq = NozSeq.peak)
    ∧ (let s : State := (noz9 { seq := .hold, falling := true } id)
       let n : Fin 96 := 9
       let ma : Nat := 1
       let b : Block := s.blk
       let x : Noz := b.noz ↑n
       s.Sound ∧ x.seq = NozSeq.hold ∧ ma < b.iHold ↑n)
    ∧ (let s : State := (noz9 { seq := .decay } id)
       let n : Fin 96 := 9
       let ma : Nat := 19
       let b : Block := s.blk
       let x : Noz := b.noz ↑n
       s.Sound ∧ x.seq = NozSeq.decay ∧ ma < 20)
    ∧ (let s : State := (noz9 { seq := .settle } id)
       let n : Fin 96 := 9
       let at_ : Nat := 100
       let b : Block := s.blk
       let x : Noz := b.noz ↑n
       let now : Nat := b.now at_
       s.Sound ∧ x.seq = NozSeq.settle ∧ x.closeDet = none ∧ x.pset.minOff ≤ now - x.offAt ∧ x.held = none)
    ∧ (let s : State := (noz9 { seq := .settle } id)
       let n : Fin 96 := 9
       let at_ : Nat := 100
       let b : Block := s.blk
       let x : Noz := b.noz ↑n
       let now : Nat := b.now at_
       s.Sound ∧ x.seq = NozSeq.settle ∧ x.closeDet = none ∧ x.pset.minOff ≤ now - x.offAt)
    ∧ (let s : State := (noz9 { seq := .settle, held := some .period } id)
       let n : Fin 96 := 9
       let at_ : Nat := 100
       let b : Block := s.blk
       let x : Noz := b.noz ↑n
       let now : Nat := b.now at_
       let p : Pull := .period
       s.Sound ∧ x.seq = NozSeq.settle ∧ x.closeDet = none ∧ x.pset.minOff ≤ now - x.offAt
         ∧ x.held = some p) := by
  and_intros <;> first | decide +kernel | (apply sound; decide +kernel)

theorem met_SprayPeriodsAndDetection :
    (let s : State := (noz9 { seq := .hold, pulseEnd := some 5 } id)
     let n : Fin 96 := 9
     let at_ : Nat := 100
     let b : Block := s.blk
     let x : Noz := b.noz ↑n
     let now : Nat := b.now at_
     let e : Nat := 5
     s.Sound ∧ x.pulseEnd = some e ∧ e ≤ now ∧ x.seq = NozSeq.hold
       ∧ (x.leadIn = true → x.openDet = true → x.limited = true))
    ∧ (let s : State := (noz9 { seq := .rise, openDet := true, fails := 1 } id)
       let n : Fin 96 := 9
       let b : Block := s.blk
       let x : Noz := b.noz ↑n
       let l : List Sys2Proof.Estimate := estimates
       let ns : Nat := 500000
       s.Sound ∧ x.openDet = true
         ∧ openScan x.pset.openMin x.pset.openMax x.pset.openStep x.pset.openConf l none true [] = some ns)
    ∧ (let s : State := (noz9 { seq := .decay, closeDet := some det9 } id)
       let n : Fin 96 := 9
       let b : Block := s.blk
       let x : Noz := b.noz ↑n
       let l : List Sys2Proof.Probe := probes
       let ns : Nat := 1000000
       let c : CloseDet := det9
       s.Sound ∧ x.closeDet = some c
         ∧ closeScan (x.pset.closeMin + (c.since - x.offAt)) (x.pset.closeMax + (c.since - x.offAt)) x.pset.closeStep l = some ns)
    ∧ (let s : State := (noz9 { seq := .rise, openDet := true, fails := 1 } id)
       let n : Fin 96 := 9
       let at_ : Nat := 100
       let b : Block := s.blk
       let x : Noz := b.noz ↑n
       let now : Nat := b.now at_
       s.Sound ∧ x.fails < 2 ∧ x.openDet = true ∧ x.pset.openMax ≤ now - x.riseAt ∧ x.pull ≠ Pull.period)
    ∧ (let s : State := (noz9 { seq := .decay, closeDet := some det9 } id)
       let n : Fin 96 := 9
       let at_ : Nat := 100
       let b : Block := s.blk
       let x : Noz := b.noz ↑n
       let now : Nat := b.now at_
       let c : CloseDet := det9
       s.Sound ∧ x.fails < 2 ∧ x.closeDet = some c ∧ c.bearing = true ∧ x.pset.closeMax ≤ now - c.since)
    ∧ (let s : State := (noz9 { seq := .decay, closeDet := some det9, fails := 2 } id)
       let n : Fin 96 := 9
       let at_ : Nat := 100
       let b : Block := s.blk
       let x : Noz := b.noz ↑n
       let now : Nat := b.now at_
       let c : CloseDet := det9
       s.Sound ∧ x.fails = 2 ∧ x.stuck = false ∧ x.closeDet = some c ∧ c.bearing = true
         ∧ x.pset.closeMax ≤ now - c.since)
    ∧ (let s : State := (noz9 { seq := .hold, force := some ⟨false, 5, 6⟩, forceEnd := some 0 } id)
       let n : Fin 96 := 9
       let at_ : Nat := 100
       let b : Block := s.blk
       let x : Noz := b.noz ↑n
       let now : Nat := b.now at_
       let e : Nat := 0
       let f : Force := ⟨false, 5, 6⟩
       s.Sound ∧ x.forceEnd = some e ∧ e ≤ now ∧ x.force = some f ∧ f.pulse = false
         ∧ x.seq.energised = true)
    ∧ (let s : State := (noz9 { seq := .hold, force := some ⟨true, 5, 6⟩, forceEnd := some 0 } id)
       let n : Fin 96 := 9
       let at_ : Nat := 100
       let b : Block := s.blk
       let x : Noz := b.noz ↑n
       let now : Nat := b.now at_
       let e : Nat := 0
       let f : Force := ⟨true, 5, 6⟩
       s.Sound ∧ x.forceEnd = some e ∧ e ≤ now ∧ x.force = some f ∧ f.pulse = true)
    ∧ (let s : State := learnedDue
       let at_ : Nat := 100
       let b : Block := s.blk
       let now : Nat := b.now at_
       s.Sound ∧ b.eng.valve.learnedDirty = true ∧ b.eng.valve.learnedAt + 60000000000 ≤ now)
    ∧ (let s : State := (noz9 (spray9 0) limitOff)
       let n : Fin 96 := 9
       let at_ : Nat := 100
       let b : Block := s.blk
       let x : Noz := b.noz ↑n
       let now : Nat := b.now at_
       let period : Nat := b.periodNs (bankOf ↑n)
       let from_ : Nat := 10000000000050
       let owed : Int := 50000000
       let g : Int := 50000000
       let t : Nat := 50000000
       let skips : Bool := false
       let merges : Bool := false
       let choice : Choice → Int → Prop := fun c gain => choosePulse (x.acc + owed) owed ↑period ↑(b.tPeak ↑n) ↑(b.minOff ↑n) ↑(b.delayNs (↑n) true) ↑(b.delayNs (↑n) false) = (c, gain, skips, merges)
       s.Sound ∧ x.on = true ∧ x.nextPeriod = some from_ ∧ from_ ≤ now ∧ x.seq = NozSeq.quiet
         ∧ x.stuck = false ∧ x.rateWait = false ∧ x.closeDet = none ∧ b.fld Reg.NOZ_DLIM (↑n) 7 0 = 100
         ∧ 0 < b.openFraction ↑n ∧ b.openFraction ↑n < 1000 ∧ owed = ↑(b.openFraction ↑n * period / 1000)
         ∧ choice (Choice.pulse t) g)
    ∧ (let s : State := (noz9 drip9 limitOff)
       let n : Fin 96 := 9
       let at_ : Nat := 100
       let b : Block := s.blk
       let x : Noz := b.noz ↑n
       let now : Nat := b.now at_
       let period : Nat := b.periodNs (bankOf ↑n)
       let from_ : Nat := 10000000000050
       let owed : Int := 1000000
       let skips : Bool := true
       let merges : Bool := false
       let choice : Choice → Int → Prop := fun c gain => choosePulse (x.acc + owed) owed ↑period ↑(b.tPeak ↑n) ↑(b.minOff ↑n) ↑(b.delayNs (↑n) true) ↑(b.delayNs (↑n) false) = (c, gain, skips, merges)
       s.Sound ∧ x.on = true ∧ x.nextPeriod = some from_ ∧ from_ ≤ now ∧ x.seq = NozSeq.quiet
         ∧ x.stuck = false ∧ x.rateWait = false ∧ x.closeDet = none ∧ b.fld Reg.NOZ_DLIM (↑n) 7 0 = 100
         ∧ 0 < b.openFraction ↑n ∧ b.openFraction ↑n < 1000 ∧ owed = ↑(b.openFraction ↑n * period / 1000)
         ∧ choice Choice.skip 0) := by
  and_intros <;> first | decide +kernel | (apply sound; decide +kernel)

theorem met_NozzleAndBankFaults :
    (let s : State := (noz9 { seq := .rise } id)
     let n : Fin 96 := 9
     let at_ : Nat := 100
     let b : Block := s.blk
     let x : Noz := b.noz ↑n
     let ma : Nat := 49
     s.Sound ∧ s.blk.present (unitNoz ↑n) = true ∧ x.seq = NozSeq.rise ∧ ma < 50
       ∧ 100000 ≤ b.now at_ - x.riseAt ∧ b.vpwrPresent = true)
    ∧ (let s : State := (noz9 { seq := .peak, peakAt := some 10000 } id)
       let n : Fin 96 := 9
       let b : Block := s.blk
       let x : Noz := b.noz ↑n
       let t : Nat := 10000
       s.Sound ∧ s.blk.present (unitNoz ↑n) = true ∧ x.seq.energised = true ∧ x.peakAt = some t
         ∧ t ≤ x.riseAt + 10000)
    ∧ (let s : State := (noz9 { seq := .peak, peakAt := some 10000 } id)
       let n : Fin 96 := 9
       let b : Block := s.blk
       let x : Noz := b.noz ↑n
       let ma : Nat := 6001
       s.Sound ∧ s.blk.present (unitNoz ↑n) = true ∧ 6000 < ma ∧ x.seq ≠ NozSeq.fault)
    ∧ (let s : State := (noz9 { seq := .peak, peakAt := some 10000 } id)
       let n : Fin 96 := 9
       let b : Block := s.blk
       let tj : Int := 1701
       s.Sound ∧ s.blk.present (unitNoz ↑n) = true ∧ 1700 < tj ∧ b.flag Reg.NOZ_FLT (↑n) 4 = false)
    ∧ (let s : State := (noz9 {} id)
       let n : Fin 96 := 9
       let b : Block := s.blk
       let x : Noz := b.noz ↑n
       let drain : Nat := 100
       let node : Nat := 2101
       s.Sound ∧ s.blk.present (unitNoz ↑n) = true ∧ x.seq = NozSeq.quiet ∧ b.hsOn (bankOf ↑n) = true
         ∧ b.vpwrPresent = true ∧ drain + 2000 < node)
    ∧ (let s : State := (noz9 {} id)
       let n : Fin 96 := 9
       let b : Block := s.blk
       let x : Noz := b.noz ↑n
       let drain : Nat := 1999
       let node : Nat := 6001
       let ns : Nat := 50000
       s.Sound ∧ s.blk.present (unitNoz ↑n) = true ∧ x.seq.energised = false ∧ b.hsOn (bankOf ↑n) = true
         ∧ drain < 2000 ∧ 6000 < node ∧ 50000 ≤ ns)
    ∧ (let s : State := (noz9 {} id)
       let n : Fin 96 := 9
       let b : Block := s.blk
       let k : Fin 12 := 1
       let ma : Nat := 10001
       let ns : Nat := 5000
       s.Sound ∧ s.blk.present (unitNoz ↑n) = true ∧ ↑k = bankOf ↑n ∧ b.hsOn ↑k = true ∧ 10000 < ma
         ∧ 5000 ≤ ns)
    ∧ (let s : State := (noz9 {} id)
       let n : Fin 96 := 9
       let b : Block := s.blk
       let k : Fin 12 := 1
       let tj : Int := 1701
       s.Sound ∧ s.blk.present (unitNoz ↑n) = true ∧ ↑k = bankOf ↑n ∧ b.hsOn ↑k = true ∧ 1700 < tj) := by
  and_intros <;> first | decide +kernel | (apply sound; decide +kernel)

theorem met_BoostAndProportionalChannels :
    (let s : State := (withBoost .softStart)
     let b : Block := s.blk
     let c : Fin 3 := 1
     let mv : Nat := 48000
     let x : Boost := b.boost ↑c
     s.Sound ∧ (x.state = BoostState.softStart ∨ x.state = BoostState.low) ∧ b.boostReadyMv ↑c ≤ mv)
    ∧ (let s : State := (withBoost .softStart)
       let at_ : Nat := 100
       let b : Block := s.blk
       let now : Nat := b.now at_
       let c : Fin 3 := 1
       let x : Boost := b.boost ↑c
       s.Sound ∧ x.state = BoostState.softStart ∧ x.since + 50000000 ≤ now ∧ b.vpwrPresent = true)
    ∧ (let s : State := (withBoost .low)
       let at_ : Nat := 100
       let b : Block := s.blk
       let now : Nat := b.now at_
       let c : Fin 3 := 1
       let x : Boost := b.boost ↑c
       s.Sound ∧ x.state = BoostState.low ∧ x.since + 20000000 ≤ now ∧ b.vpwrPresent = true)
    ∧ (let s : State := (withBoost .low)
       let b : Block := s.blk
       let c : Fin 3 := 1
       let x : Boost := b.boost ↑c
       s.Sound ∧ (x.state = BoostState.ready ∨ x.state = BoostState.low))
    ∧ (let s : State := (withBoost .ready)
       let b : Block := s.blk
       let c : Fin 3 := 1
       let mv : Nat := 4800
       let x : Boost := b.boost ↑c
       s.Sound ∧ x.state = BoostState.ready ∧ mv < b.boostReadyMv ↑c)
    ∧ (let s : State := (withProp { seq := .peak, target := 2000 })
       let at_ : Nat := 100
       let b : Block := s.blk
       let now : Nat := b.now at_
       let k : Fin 8 := 2
       let x : Prop_ := b.prop ↑k
       s.Sound ∧ x.seq = PropSeq.peak ∧ x.since + b.fld Reg.PROP_PEAK (↑k) 31 16 * 10000 ≤ now)
    ∧ (let s : State := (withProp { seq := .ramp, target := 2000 })
       let b : Block := s.blk
       let k : Fin 8 := 2
       let ma : Nat := 9
       let x : Prop_ := b.prop ↑k
       s.Sound ∧ x.seq = PropSeq.ramp
         ∧ if x.rampFrom ≤ x.target then 2 * ma < x.target else x.target < 2 * ma)
    ∧ (let s : State := (withProp { seq := .decay, target := 2000 })
       let b : Block := s.blk
       let k : Fin 8 := 2
       let ma : Nat := 9
       let x : Prop_ := b.prop ↑k
       s.Sound ∧ x.seq = PropSeq.decay ∧ ma < 10 ∧ b.propWanted ↑k = 0)
    ∧ (let s : State := (withProp { seq := .regulate, target := 2000 })
       let b : Block := s.blk
       let k : Fin 8 := 2
       let ma : Nat := 9
       let x : Prop_ := b.prop ↑k
       let duty : Nat := 500
       let ns : Nat := 10000000
       s.Sound ∧ x.seq ≠ PropSeq.fault ∧ 200 ≤ x.target ∧ 500 ≤ duty ∧ ma < 10 ∧ 10000000 ≤ ns
         ∧ b.vpwrPresent = true)
    ∧ (let s : State := (withProp { seq := .regulate, target := 2000 })
       let b : Block := s.blk
       let k : Fin 8 := 2
       let ma : Nat := 4501
       let x : Prop_ := b.prop ↑k
       s.Sound ∧ x.seq ≠ PropSeq.fault ∧ 4500 < ma)
    ∧ (let s : State := (withProp { seq := .regulate, target := 2000 })
       let b : Block := s.blk
       let k : Fin 8 := 2
       let x : Prop_ := b.prop ↑k
       let tj : Int := 1701
       s.Sound ∧ x.seq ≠ PropSeq.fault ∧ 1700 < tj)
    ∧ (let s : State := (withProp { seq := .regulate, target := 2000 })
       let b : Block := s.blk
       let k : Fin 8 := 2
       let ma : Nat := 4
       let x : Prop_ := b.prop ↑k
       let duty : Nat := 1000
       let ns : Nat := 20000000
       s.Sound ∧ 1000 ≤ duty ∧ 20000000 ≤ ns ∧ ma + max 50 (x.target / 2 / 10) < x.target / 2
         ∧ b.vpwrPresent = true)
    ∧ (let s : State := (withProp { seq := .ramp, target := 2000 })
       let b : Block := s.blk
       let k : Fin 8 := 2
       let ma : Nat := 1000
       let x : Prop_ := b.prop ↑k
       s.Sound ∧ x.seq = PropSeq.ramp
         ∧ if x.rampFrom ≤ x.target then x.target ≤ 2 * ma else 2 * ma ≤ x.target) := by
  and_intros <;> first | decide +kernel | (apply sound; decide +kernel)

theorem met_CarrierPeriodsAndShadows :
    (let s : State := (mot3 { pending := 12, armed := 8 } shadows)
     let u : Fin 16 := 3
     let b : Block := s.blk
     let x : Motor := b.mot ↑u
     let m : Fin 4 := 1
     s.Sound ∧ b.frozen = false ∧ b.present (unitMot ↑u) = true ∧ ↑m < x.k ∧ x.seq ≠ MotSeq.rampDown
       ∧ x.armed.getLsbD 0 = false ∧ x.ph.length = 3)
    ∧ (let s : State := (mot3 { pending := 12, age := 16 } shadows)
       let u : Fin 16 := 3
       let b : Block := s.blk
       let x : Motor := b.mot ↑u
       s.Sound ∧ x.pending ≠ 0 ∧ 16 ≤ x.age ∧ x.stale = false)
    ∧ (let s : State := (mot3 {} id)
       let tap : Nat := 250
       s.Sound ∧ tap < 65536 ∧ 100 ≤ tap ∧ tap ≤ 250)
    ∧ (let s : State := (mot3 {} id)
       let tap : Nat := 99
       s.Sound ∧ tap < 65536 ∧ (tap < 100 ∨ 250 < tap)) := by
  and_intros <;> first | decide +kernel | (apply sound; decide +kernel)

theorem met_MotorProtection :
    (let s : State := (mot3 { seq := .run } id)
     let u : Fin 8 := 3
     let b : Block := s.blk
     let ma : Nat := 20001
     let ns : Nat := 1000
     s.Sound ∧ s.blk.present (unitMot ↑u) = true ∧ 20000 < ma ∧ 1000 ≤ ns
       ∧ b.flag Reg.MDRV_FLT (↑u) 5 = false)
    ∧ (let s : State := (mot3 { seq := .run } id)
       let u : Fin 8 := 3
       let b : Block := s.blk
       let ma : Nat := 24001
       let ns : Nat := 5000
       s.Sound ∧ s.blk.present (unitMot ↑u) = true ∧ 24000 < ma ∧ 5000 ≤ ns
         ∧ b.flag Reg.MDRV_FLT (↑u) 7 = false)
    ∧ (let s : State := (mot3 { seq := .run } id)
       let u : Fin 8 := 3
       let b : Block := s.blk
       let tj : Int := 1701
       s.Sound ∧ s.blk.present (unitMot ↑u) = true ∧ 1700 < tj ∧ b.flag Reg.MDRV_FLT (↑u) 6 = false)
    ∧ (let s : State := (mot3 { seq := .run, invalidSince := some 0 } id)
       let u : Fin 8 := 3
       let at_ : Nat := 100
       let b : Block := s.blk
       let x : Motor := b.mot ↑u
       let t : Nat := 0
       s.Sound ∧ s.blk.present (unitMot ↑u) = true ∧ x.invalidSince = some t
         ∧ max t x.since + x.invNs ≤ b.now at_ ∧ x.seq ≠ MotSeq.fault ∧ x.sixStep = true
         ∧ b.runs (unitMot ↑u) = true)
    ∧ (let s : State := (mot3 { seq := .run } tripOn)
       let u : Fin 8 := 3
       let at_ : Nat := 100
       let b : Block := s.blk
       let t : Fin 4 := 2
       let high : Bool := false
       let held : Nat := 80
       s.Sound ∧ s.blk.present (unitMot ↑u) = true ∧ b.fld Reg.MDRV_TRIP_CFG (↑t) 7 0 * 10 ≤ held
         ∧ b.flag Reg.MDRV_TRIP_CFG (↑t) 9 = true ∧ high = b.flag Reg.MDRV_TRIP_CFG (↑t) 8
         ∧ (∀ (t' : Nat), t' < 4 → b.tripOn t' = false) ∧ b.tripUnits (↑t) true at_ = [↑u])
    ∧ (let s : State := (mot3 highA id)
       let u : Fin 8 := 3
       let at_ : Nat := 100
       let b : Block := s.blk
       let x : Motor := b.mot ↑u
       let sw : Fin 6 := 0
       let ma : Nat := 11
       s.Sound ∧ s.blk.present (unitMot ↑u) = true ∧ b.motorLimit ↑u < ma
         ∧ (b.motorOut (↑u) at_).getLsbD ↑sw = true ∧ b.blanked (↑u) at_ = false ∧ b.vig.brakeSince = none
         ∧ x.cbcNow = false ∧ x.seq ≠ MotSeq.brake ∧ x.seq ≠ MotSeq.fault ∧ x.cbcRun + 1 < x.cbcLim)
    ∧ (let s : State := (mot3 { highA with cbcRun := 2 } id)
       let u : Fin 8 := 3
       let at_ : Nat := 100
       let b : Block := s.blk
       let x : Motor := b.mot ↑u
       let sw : Fin 6 := 0
       let ma : Nat := 11
       s.Sound ∧ s.blk.present (unitMot ↑u) = true ∧ b.motorLimit ↑u < ma
         ∧ (b.motorOut (↑u) at_).getLsbD ↑sw = true ∧ b.blanked (↑u) at_ = false ∧ b.vig.brakeSince = none
         ∧ x.cbcNow = false ∧ x.seq ≠ MotSeq.brake ∧ x.seq ≠ MotSeq.fault ∧ x.cbcLim ≤ x.cbcRun + 1)
    ∧ (let s : State := (mot3 { seq := .run } id)
       let u : Fin 8 := 3
       let b : Block := s.blk
       s.Sound ∧ s.blk.present (unitMot ↑u) = true ∧ b.vpwrPresent = true)
    ∧ (let s : State := (mot3 { seq := .run } id)
       let u : Fin 8 := 3
       let b : Block := s.blk
       let x : Motor := b.mot ↑u
       let l : List (Nat × Nat) := [(20000, 1000000)]
       let q : Nat := overload x.ovl l
       s.Sound ∧ s.blk.present (unitMot ↑u) = true ∧ 322000000000000 ≤ q ∧ x.foldback = false)
    ∧ (let s : State := (mot3 { seq := .run, foldback := true } id)
       let u : Fin 8 := 3
       let b : Block := s.blk
       let x : Motor := b.mot ↑u
       let l : List (Nat × Nat) := []
       let q : Nat := overload x.ovl l
       s.Sound ∧ s.blk.present (unitMot ↑u) = true ∧ q < 161000000000000 ∧ x.foldback = true)
    ∧ (let s : State := (mot3 { seq := .run, foldback := true, ovl := 161000000000000 } id)
       let u : Fin 8 := 3
       let b : Block := s.blk
       let x : Motor := b.mot ↑u
       let l : List (Nat × Nat) := []
       let q : Nat := overload x.ovl l
       s.Sound ∧ s.blk.present (unitMot ↑u) = true ∧ 161000000000000 ≤ q
         ∧ (q < 322000000000000 ∨ x.foldback = true))
    ∧ (let s : State := (mot3 { seq := .run } tripOnF)
       let u : Fin 8 := 3
       let b : Block := s.blk
       let t : Fin 4 := 2
       let held : Nat := 79
       s.Sound ∧ s.blk.present (unitMot ↑u) = true ∧ held < b.fld Reg.MDRV_TRIP_CFG (↑t) 7 0 * 10) := by
  and_intros <;> first | decide +kernel | (apply sound; decide +kernel)

theorem met_MotorRunAndStop :
    (let s : State := (mot3 { seq := .rampDown } id)
     let u : Fin 16 := 3
     let at_ : Nat := 100
     let b : Block := s.blk
     let x : Motor := b.mot ↑u
     let now : Nat := b.now at_
     s.Sound ∧ b.frozen = false ∧ x.seq = MotSeq.rampDown ∧ x.ramped now = 0)
    ∧ (let s : State := (mot3 { seq := .brake } id)
       let u : Fin 16 := 3
       let at_ : Nat := 100
       let b : Block := s.blk
       let x : Motor := b.mot ↑u
       let now : Nat := b.now at_
       s.Sound ∧ b.frozen = false ∧ x.seq = MotSeq.brake ∧ x.since + x.brakeNs ≤ now)
    ∧ (let s : State := (mot3 { tripBrake := some 5 } id)
       let u : Fin 16 := 3
       let at_ : Nat := 100
       let b : Block := s.blk
       let x : Motor := b.mot ↑u
       let now : Nat := b.now at_
       let t : Nat := 5
       s.Sound ∧ x.tripBrake = some t ∧ t + x.brakeNs ≤ now)
    ∧ (let s : State := resetBraking
       let at_ : Nat := 100
       let b : Block := s.blk
       let now : Nat := b.now at_
       let t : Nat := 0
       s.Sound ∧ b.vig.brakeSince = some t ∧ t + 200000000 ≤ now)
    ∧ (let s : State := (mot3 { seq := .run } byRegister)
       let u : Fin 16 := 3
       let b : Block := s.blk
       let x : Motor := b.mot ↑u
       let k : Sess := .main
       s.Sound ∧ b.posted = [] ∧ (b.unit (unitMot ↑u)).state = driveState k ∧ x.seq = MotSeq.run)
    ∧ (let s : State := (mot3 { seq := .run } byRegister)
       let u : Fin 16 := 3
       let b : Block := s.blk
       let k : Sess := .main
       s.Sound ∧ b.posted = [] ∧ (b.unit (unitMot ↑u)).state = driveState k)
    ∧ (let s : State := (mot3 {} byRegister)
       let u : Fin 16 := 3
       let b : Block := s.blk
       let x : Motor := b.mot ↑u
       let k : Sess := .main
       s.Sound ∧ b.posted = [] ∧ (b.unit (unitMot ↑u)).state = driveState k ∧ x.seq = MotSeq.quiet
         ∧ x.src ≠ 2)
    ∧ (let s : State := (mot3 { seq := .rampDown } byRegister)
       let u : Fin 16 := 3
       let b : Block := s.blk
       let x : Motor := b.mot ↑u
       let k : Sess := .main
       s.Sound ∧ b.posted = [] ∧ (b.unit (unitMot ↑u)).state = driveState k ∧ x.seq ≠ MotSeq.quiet
         ∧ x.seq ≠ MotSeq.run)
    ∧ (let s : State := (mot3 { seq := .rampDown } byRegister)
       let u : Fin 16 := 3
       let b : Block := s.blk
       let k : Sess := .service
       s.Sound ∧ b.posted = [] ∧ (b.unit (unitMot ↑u)).state ≠ driveState k)
    ∧ (let s : State := (mot3 { cfg := [0x02000038, 0x0C800C80, 50, 0x80001019, 0x83E80032, 0x006400C8, 0x14000000] } byLoop)
       let u : Fin 16 := 3
       let b : Block := s.blk
       let x : Motor := b.mot ↑u
       let k : Sess := .main
       s.Sound ∧ b.posted = [] ∧ (b.unit (unitMot ↑u)).state = driveState k ∧ x.seq = MotSeq.quiet
         ∧ x.src = 2) := by
  and_intros <;> first | decide +kernel | (apply sound; decide +kernel)

theorem met_LoopSlotsBetweenRuns :
    (let s : State := (slot5 { predictDue := true, x := [0x3F800000, 0x40000000, 0, 0, 0, 0] } model2)
     let q : Fin 32 := 5
     let b : Block := s.blk
     let x : LoopSlot := b.slot ↑q
     s.Sound ∧ x.predictDue = true)
    ∧ (let s : State := (slot5 { fb := .observer, u := 7 } (lossAct 0))
       let q : Fin 32 := 5
       let at_ : Nat := 100
       let b : Block := s.blk
       let x : LoopSlot := b.slot ↑q
       s.Sound ∧ x.fb = LoopFb.observer ∧ b.slotRuns ↑q = true
         ∧ x.obsSince + b.fld Reg.LOOP_OBS_USE (↑q) 31 24 * 100000000 ≤ b.now at_
         ∧ (b.fld Reg.LOOP_CFG (↑q) 6 5 = 0 ∨ b.fld Reg.LOOP_CFG (↑q) 6 5 = 3))
    ∧ (let s : State := (slot5 { fb := .observer, u := 7 } (lossAct 1))
       let q : Fin 32 := 5
       let at_ : Nat := 100
       let b : Block := s.blk
       let x : LoopSlot := b.slot ↑q
       s.Sound ∧ x.fb = LoopFb.observer ∧ b.slotRuns ↑q = true
         ∧ x.obsSince + b.fld Reg.LOOP_OBS_USE (↑q) 31 24 * 100000000 ≤ b.now at_
         ∧ b.fld Reg.LOOP_CFG (↑q) 6 5 = 1)
    ∧ (let s : State := (slot5 { fb := .observer, u := 7 } (lossAct 2))
       let q : Fin 32 := 5
       let at_ : Nat := 100
       let b : Block := s.blk
       let x : LoopSlot := b.slot ↑q
       s.Sound ∧ x.fb = LoopFb.observer ∧ b.slotRuns ↑q = true
         ∧ x.obsSince + b.fld Reg.LOOP_OBS_USE (↑q) 31 24 * 100000000 ≤ b.now at_
         ∧ b.fld Reg.LOOP_CFG (↑q) 6 5 = 2 ∧ b.flag Reg.LOOP_FLT (↑q) 1 = false)
    ∧ (let s : State := (slot5 { ferr := 10 } (ferrOn 5))
       let q : Fin 32 := 5
       let b : Block := s.blk
       let x : LoopSlot := b.slot ↑q
       s.Sound ∧ b.flag Reg.LOOP_FERR_CFG (↑q) 0 = true ∧ b.slotRuns ↑q = true
         ∧ b.flag Reg.LOOP_FLT (↑q) 0 = false ∧ b.fld Reg.LOOP_FERR_CFG (↑q) 12 2 * 10 ≤ x.ferr
         ∧ b.flag Reg.LOOP_FERR_CFG (↑q) 1 = false)
    ∧ (let s : State := (slot5 { ferr := 10 } (ferrOn 7))
       let q : Fin 32 := 5
       let b : Block := s.blk
       let x : LoopSlot := b.slot ↑q
       s.Sound ∧ b.flag Reg.LOOP_FERR_CFG (↑q) 0 = true ∧ b.slotRuns ↑q = true
         ∧ b.flag Reg.LOOP_FLT (↑q) 0 = false ∧ b.fld Reg.LOOP_FERR_CFG (↑q) 12 2 * 10 ≤ x.ferr
         ∧ b.flag Reg.LOOP_FERR_CFG (↑q) 1 = true)
    ∧ (let s : State := cutLoop
       let b : Block := s.blk
       s.Sound ∧ b.powered = true)
    ∧ (let s : State := cutLoop
       let b : Block := s.blk
       s.Sound ∧ b.eng.loop.cut = true) := by
  and_intros <;> first | decide +kernel | (apply sound; decide +kernel)

theorem met_TraceRequests :
    (let s : State := (withTrace {})
     let h : Hdr := (ofMain 76)
     let k : Sess := .main
     let b : Block := s.blk
     Served b h k traceArmRow ∧ b.traceRival k = none)
    ∧ (let s : State := (withTrace {})
       let h : Hdr := (ofMain 76)
       let k : Sess := .main
       let arm : Sys2Proof.TraceArm := {}
       let b : Block := s.blk
       Served b h k traceArmRow ∧ b.traceRival k = none ∧ armBad arm = false)
    ∧ (let s : State := (withTrace {})
       let h : Hdr := (ofMain 76)
       let k : Sess := .main
       let b : Block := s.blk
       Served b h k traceArmRow ∧ b.traceRival k = none ∧ b.eng.loop.trace.state ≠ TraceState.armed)
    ∧ (let s : State := (withTrace {})
       let h : Hdr := (ofMain 76)
       let k : Sess := .main
       let b : Block := s.blk
       Served b h k traceArmRow)
    ∧ (let s : State := (withTrace { state := .armed, owner := some (.main, 7) })
       let h : Hdr := (ofMain 76)
       let k : Sess := .main
       let b : Block := s.blk
       Served b h k traceArmRow ∧ b.traceRival k = none ∧ b.eng.loop.trace.state = TraceState.armed)
    ∧ (let s : State := (withTrace { state := .armed, owner := some (.service, 8) })
       let h : Hdr := (ofMain 76)
       let k : Sess := .main
       let b : Block := s.blk
       let id : BitVec 16 := 8
       Served b h k traceArmRow ∧ b.traceRival k = some id)
    ∧ (let s : State := (withTrace { state := .done, samples := [[1], [2]] })
       let h : Hdr := (ofMain 4)
       let k : Sess := .main
       let b : Block := s.blk
       let first : BitVec 16 := 0
       let count : Byte := 2
       Served b h k traceReadRow ∧ b.eng.loop.trace.state = TraceState.done ∧ 1 ≤ BitVec.toNat count
         ∧ BitVec.toNat count ≤ 21 ∧ first.toNat + BitVec.toNat count ≤ b.eng.loop.trace.samples.length)
    ∧ (let s : State := (withTrace { state := .armed, samples := [[1], [2]] })
       let h : Hdr := (ofMain 4)
       let k : Sess := .main
       let b : Block := s.blk
       Served b h k traceReadRow ∧ b.eng.loop.trace.state ≠ TraceState.done) := by
  and_intros <;> first | decide +kernel | (apply served; decide +kernel)

theorem met_LoadStartsAndRestores :
    (let s : State := (lsw3 asks (fun b => window (allowed 60000000 b)))
     let k : Fin 16 := 3
     let b : Block := s.blk
     let p : Power := b.eng.pwr
     let c : Nat := b.startCharge ↑k * 1000
     s.Sound ∧ b.lswReady ↑k = true ∧ (p.waits.any fun w => w.sw == ↑k) = false ∧ ↑c ≤ p.allowance)
    ∧ (let s : State := (lsw3 asks (fun b => window (grantWait 0 b)))
       let k : Fin 16 := 3
       let b : Block := s.blk
       let p : Power := b.eng.pwr
       let c : Nat := b.startCharge ↑k * 1000
       s.Sound ∧ b.lswReady ↑k = true ∧ (p.waits.any fun w => w.sw == ↑k) = false ∧ p.allowance < ↑c
         ∧ b.fld Reg.PWRB_GRANT 0 31 16 = 0)
    ∧ (let s : State := (lsw3 asks (fun b => window (grantWait 5 b)))
       let k : Fin 16 := 3
       let b : Block := s.blk
       let p : Power := b.eng.pwr
       let c : Nat := b.startCharge ↑k * 1000
       s.Sound ∧ b.lswReady ↑k = true ∧ (p.waits.any fun w => w.sw == ↑k) = false ∧ p.allowance < ↑c
         ∧ b.fld Reg.PWRB_GRANT 0 31 16 ≠ 0)
    ∧ (let s : State := (lsw3 asks (fun b => waits3 (grantWait 5 b)))
       let k : Fin 16 := 3
       let at_ : Nat := 100
       let b : Block := s.blk
       let p : Power := b.eng.pwr
       let now : Nat := b.now at_
       let w : LoadWait := { sw := 3, since := 100 }
       s.Sound ∧ w ∈ p.waits ∧ w.sw = ↑k ∧ b.fld Reg.PWRB_GRANT 0 31 16 * 1000000 < now - w.since)
    ∧ (let s : State := (lsw3 { on := true } (fun b => shed3 (allowed 60000000 b)))
       s.Sound)
    ∧ (let s : State := capped
       s.Sound)
    ∧ (let s : State := (lsw3 { on := true } (fun b => due3 (allowed 60000000 b)))
       let k : Fin 16 := 3
       let b : Block := s.blk
       let x : Lsw := b.sw ↑k
       let p : Power := b.eng.pwr
       let c : Nat := b.startCharge ↑k * 1000
       let limit : Int := 90000000
       let a : Arb := { total := 5 }
       s.Sound ∧ (∃ y, y ∈ p.shed ∧ y.sw = ↑k ∧ y.due = true) ∧ x.seq = LswSeq.quiet ∧ x.asksOn = true
         ∧ b.runs (unitLsw ↑k) = true ∧ b.vpwrPresent = true ∧ a.total + ↑c + b.hyst ≤ limit)
    ∧ (let s : State := (lsw3 { on := true } (fun b => due3 (allowed 60000000 b)))
       let k : Fin 16 := 3
       let b : Block := s.blk
       let x : Lsw := b.sw ↑k
       let p : Power := b.eng.pwr
       let c : Nat := b.startCharge ↑k * 1000
       let limit : Int := 90000000
       let a : Arb := { total := 5 }
       s.Sound ∧ (∃ y, y ∈ p.shed ∧ y.sw = ↑k ∧ y.due = true) ∧ x.seq = LswSeq.quiet ∧ x.asksOn = true
         ∧ b.runs (unitLsw ↑k) = true ∧ b.vpwrPresent = true ∧ a.total + ↑c + b.hyst ≤ limit
         ∧ b.hasWindow ↑k = false)
    ∧ (let s : State := (lsw3 { on := true } (fun b => window (due3 (allowed 60000000 b))))
       let k : Fin 16 := 3
       let b : Block := s.blk
       let x : Lsw := b.sw ↑k
       let p : Power := b.eng.pwr
       let c : Nat := b.startCharge ↑k * 1000
       let limit : Int := 90000000
       let a : Arb := { total := 5 }
       s.Sound ∧ (∃ y, y ∈ p.shed ∧ y.sw = ↑k ∧ y.due = true) ∧ x.seq = LswSeq.quiet ∧ x.asksOn = true
         ∧ b.runs (unitLsw ↑k) = true ∧ b.vpwrPresent = true ∧ a.total + ↑c + b.hyst ≤ limit
         ∧ b.hasWindow ↑k = true)
    ∧ (let s : State := capDue
       let b : Block := s.blk
       let p : Power := b.eng.pwr
       let limit : Int := 90000000
       let a : Arb := { total := 5 }
       s.Sound ∧ p.cap = true ∧ p.capDue = true ∧ b.bareTotal a.total + b.hyst ≤ limit) := by
  and_intros <;> first | decide +kernel | (apply sound; decide +kernel)

theorem met_PowerStatesGoDownAndUp :
    (let s : State := (downTo .idle .doze)
     let at_ : Nat := 100
     let b : Block := s.blk
     let p : Power := b.eng.pwr
     let now : Nat := b.now at_
     let t0 : Nat := 9
     s.Sound ∧ p.dozeSince = some t0 ∧ t0 + b.fld Reg.DEV_PCTRL 0 15 8 * 10000000 ≤ now
       ∧ p.state.code ≤ 1 ∧ 2 ≤ p.target.code)
    ∧ (let s : State := (downTo .doze .hold)
       let at_ : Nat := 100
       let b : Block := s.blk
       let p : Power := b.eng.pwr
       let now : Nat := b.now at_
       let t0 : Nat := 9
       s.Sound ∧ p.holdSince = some t0 ∧ t0 + b.fld Reg.DEV_PCTRL 0 23 16 * 100000000 ≤ now
         ∧ p.state.code ≤ 2 ∧ 3 ≤ p.target.code)
    ∧ (let s : State := (fifo2 (downTo .hold .dormant))
       let at_ : Nat := 100
       let b : Block := s.blk
       let p : Power := b.eng.pwr
       let now : Nat := b.now at_
       let t0 : Nat := 9
       s.Sound ∧ p.dormSince = some t0 ∧ t0 + b.fld Reg.DEV_PCTRL 0 31 24 * 1000000000 ≤ now
         ∧ p.state.code ≤ 3 ∧ p.target = PState.dormant)
    ∧ (let s : State := (downTo .idle .doze)
       let b : Block := s.blk
       let p : Power := b.eng.pwr
       s.Sound ∧ p.state = PState.idle)
    ∧ (let s : State := (downTo .doze .hold)
       let b : Block := s.blk
       let p : Power := b.eng.pwr
       let cause : Sys2Proof.WakeCause := .key
       s.Sound ∧ p.state = PState.doze ∧ cause ≠ Sys2Proof.WakeCause.ecuPower
         ∧ cause ≠ Sys2Proof.WakeCause.input ∧ cause ≠ Sys2Proof.WakeCause.alarm)
    ∧ (let s : State := (downTo .hold .hold)
       let b : Block := s.blk
       let p : Power := b.eng.pwr
       let cause : Sys2Proof.WakeCause := .alarm
       s.Sound ∧ p.state = PState.hold ∧ cause ≠ Sys2Proof.WakeCause.event
         ∧ cause ≠ Sys2Proof.WakeCause.condition) := by
  and_intros <;> first | decide +kernel | (apply sound; decide +kernel)

theorem met_WakesFromDormant :
    (let s : State := (ecuWakes (alarmed (downTo .dormant .dormant)))
     let b : Block := s.blk
     s.Sound ∧ b.eng.pwr.state = PState.dormant ∧ b.sup.holdUp = false ∧ b.time.rtc.running = true)
    ∧ (let s : State := (ecuWakes (alarmed (downTo .dormant .dormant)))
       let b : Block := s.blk
       let mv : Nat := 8001
       s.Sound ∧ b.eng.pwr.state = PState.dormant ∧ b.sup.holdUp = false ∧ b.time.rtc.running = true
         ∧ 8000 < mv ∧ b.flag Reg.DEV_PCTRL 0 4 = true)
    ∧ (let s : State := (ecuWakes (alarmed (downTo .dormant .dormant)))
       let b : Block := s.blk
       s.Sound ∧ b.eng.pwr.state = PState.dormant ∧ b.sup.holdUp = false ∧ b.time.rtc.running = true
         ∧ b.time.rtc.alarmEn = true)
    ∧ (let s : State := (ecuWakes (alarmed (downTo .dormant .dormant)))
       let offNs : Nat := 5
       let b : Block := s.blk
       let alarm : Rtc := b.time.rtc.upTo (b.now offNs)
       s.Sound ∧ b.eng.pwr.state = PState.dormant ∧ b.sup.holdUp = false ∧ b.time.rtc.running = true
         ∧ alarm.alarmEn = true ∧ alarm.alarm.toNat ≤ alarm.sec)
    ∧ (let s : State := (alarmed (downTo .hold .dormant))
       let offNs : Nat := 5
       let b : Block := s.blk
       let alarm : Rtc := b.time.rtc.upTo (b.now offNs)
       s.Sound ∧ b.eng.pwr.state = PState.hold ∧ b.sup.holdUp = false ∧ alarm.running = true
         ∧ alarm.alarmEn = true ∧ alarm.alarm.toNat ≤ alarm.sec)
    ∧ (let s : State := (heldUp (alarmed (downTo .dormant .dormant)))
       let b : Block := s.blk
       s.Sound ∧ b.sup.holdUp = true) := by
  and_intros <;> first | decide +kernel | (apply sound; decide +kernel)

theorem met_LoadSwitchTripsAndDiagnoses :
    (let s : State := (lsw3 { swOn with seq := .demag } noRetry)
     let k : Fin 16 := 3
     let ma : Nat := 26000
     let ns : Nat := 9000
     let at_ : Nat := 100
     let b : Block := s.blk
     let x : Lsw := (b.lswRoll (↑k) at_).sw ↑k
     let retries : Prop := BitVec.getLsbD x.set.cfg 1 = true ∧ x.trips < bits x.set.prot 23 20 ∧ x.held = false
     s.Sound ∧ x.seq = LswSeq.demag ∧ (¬retries) ∧ x.limitMa < ma ∧ bits x.set.prot 19 16 * 1000 ≤ ns)
    ∧ (let s : State := (lsw3 { swOn with seq := .demag } noRetry)
       let k : Fin 16 := 3
       let at_ : Nat := 100
       let b : Block := s.blk
       let x : Lsw := (b.lswRoll (↑k) at_).sw ↑k
       let retries : Prop := BitVec.getLsbD x.set.cfg 1 = true ∧ x.trips < bits x.set.prot 23 20 ∧ x.held = false
       let tj : Int := 1701
       s.Sound ∧ x.seq = LswSeq.demag ∧ (¬retries) ∧ 1700 < tj)
    ∧ (let s : State := (lsw3 { swOn with seq := .demag } retrying)
       let k : Fin 16 := 3
       let ma : Nat := 26000
       let ns : Nat := 9000
       let at_ : Nat := 100
       let b : Block := s.blk
       let x : Lsw := (b.lswRoll (↑k) at_).sw ↑k
       s.Sound ∧ x.seq = LswSeq.demag ∧ 25000 ≤ ma ∧ 2000 ≤ ns)
    ∧ (let s : State := (lsw3 swOn retrying)
       let k : Fin 16 := 3
       let ma : Nat := 26000
       let ns : Nat := 9000
       let at_ : Nat := 100
       let b : Block := s.blk
       let x : Lsw := (b.lswRoll (↑k) at_).sw ↑k
       let retries : Prop := BitVec.getLsbD x.set.cfg 1 = true ∧ x.trips < bits x.set.prot 23 20 ∧ x.held = false
       s.Sound ∧ x.conducts = true ∧ x.limitMa < ma ∧ bits x.set.prot 19 16 * 1000 ≤ ns ∧ retries)
    ∧ (let s : State := (lsw3 swOn noRetry)
       let k : Fin 16 := 3
       let ma : Nat := 26000
       let ns : Nat := 9000
       let at_ : Nat := 100
       let b : Block := s.blk
       let x : Lsw := (b.lswRoll (↑k) at_).sw ↑k
       let retries : Prop := BitVec.getLsbD x.set.cfg 1 = true ∧ x.trips < bits x.set.prot 23 20 ∧ x.held = false
       s.Sound ∧ x.conducts = true ∧ x.limitMa < ma ∧ bits x.set.prot 19 16 * 1000 ≤ ns ∧ (¬retries))
    ∧ (let s : State := (lsw3 swOn retrying)
       let k : Fin 16 := 3
       let at_ : Nat := 100
       let b : Block := s.blk
       let x : Lsw := (b.lswRoll (↑k) at_).sw ↑k
       let retries : Prop := BitVec.getLsbD x.set.cfg 1 = true ∧ x.trips < bits x.set.prot 23 20 ∧ x.held = false
       let tj : Int := 1701
       s.Sound ∧ x.conducts = true ∧ 1700 < tj ∧ retries)
    ∧ (let s : State := (lsw3 swOn noRetry)
       let k : Fin 16 := 3
       let at_ : Nat := 100
       let b : Block := s.blk
       let x : Lsw := (b.lswRoll (↑k) at_).sw ↑k
       let retries : Prop := BitVec.getLsbD x.set.cfg 1 = true ∧ x.trips < bits x.set.prot 23 20 ∧ x.held = false
       let tj : Int := 1701
       s.Sound ∧ x.conducts = true ∧ 1700 < tj ∧ (¬retries))
    ∧ (let s : State := (lsw3 swOn retrying)
       let k : Fin 16 := 3
       let ma : Nat := 25000
       let ns : Nat := 2000
       let at_ : Nat := 100
       let b : Block := s.blk
       let x : Lsw := (b.lswRoll (↑k) at_).sw ↑k
       s.Sound ∧ x.conducts = true ∧ 25000 ≤ ma ∧ 2000 ≤ ns)
    ∧ (let s : State := (lsw3 swOn olAct)
       let k : Fin 16 := 3
       let ma : Nat := 20
       let ns : Nat := 100000000
       let at_ : Nat := 100
       let b : Block := s.blk
       let x : Lsw := (b.lswRoll (↑k) at_).sw ↑k
       s.Sound ∧ x.conducts = true ∧ x.held = false ∧ 100 ≤ x.d ∧ ma < bits x.set.prot 8 0 * 2
         ∧ 100000000 ≤ ns ∧ b.vpwrPresent = true ∧ BitVec.getLsbD x.set.cfg 2 = true)
    ∧ (let s : State := (lsw3 swOn noRetry)
       let k : Fin 16 := 3
       let ma : Nat := 20
       let ns : Nat := 100000000
       let at_ : Nat := 100
       let b : Block := s.blk
       let x : Lsw := (b.lswRoll (↑k) at_).sw ↑k
       s.Sound ∧ x.conducts = true ∧ x.held = false ∧ 100 ≤ x.d ∧ ma < bits x.set.prot 8 0 * 2
         ∧ 100000000 ≤ ns ∧ b.vpwrPresent = true ∧ BitVec.getLsbD x.set.cfg 2 = false)
    ∧ (let s : State := (lsw3 {} id)
       let k : Fin 16 := 3
       let ns : Nat := 10000000
       let b : Block := s.blk
       let x0 : Lsw := b.sw ↑k
       let pulledMv : Nat := 3001
       let freeMv : Nat := 6000
       s.Sound ∧ x0.seq = LswSeq.quiet ∧ x0.held = false ∧ b.vpwrPresent = true ∧ 3000 < pulledMv
         ∧ 10000000 ≤ ns ∧ freeMv ≤ 6000)
    ∧ (let s : State := (lsw3 {} id)
       let k : Fin 16 := 3
       let b : Block := s.blk
       let x0 : Lsw := b.sw ↑k
       let pulledMv : Nat := 3000
       let freeMv : Nat := 6001
       s.Sound ∧ x0.seq = LswSeq.quiet ∧ x0.held = false ∧ b.vpwrPresent = true ∧ pulledMv ≤ 3000
         ∧ 6000 < freeMv)
    ∧ (let s : State := (lsw3 {} id)
       let k : Fin 16 := 3
       let ns : Nat := 10000000
       let b : Block := s.blk
       let x0 : Lsw := b.sw ↑k
       let pulledMv : Nat := 3001
       let freeMv : Nat := 6001
       s.Sound ∧ x0.seq = LswSeq.quiet ∧ x0.held = false ∧ b.vpwrPresent = true ∧ 3000 < pulledMv
         ∧ 10000000 ≤ ns ∧ 6000 < freeMv)
    ∧ (let s : State := (lsw3 {} id)
       let k : Fin 16 := 3
       let b : Block := s.blk
       let x0 : Lsw := b.sw ↑k
       let pulledMv : Nat := 3000
       let freeMv : Nat := 6000
       s.Sound ∧ x0.seq = LswSeq.quiet ∧ x0.held = false ∧ b.vpwrPresent = true ∧ pulledMv ≤ 3000
         ∧ freeMv ≤ 6000) := by
  and_intros <;> first | decide +kernel | (apply sound; decide +kernel)

theorem met_LoadSwitchFromStartToQuiet :
    (let s : State := (lsw3 { seq := .inrush, on := true } window)
     let k : Fin 16 := 3
     let at_ : Nat := 100
     let b : Block := s.blk
     let x : Lsw := (b.lswRoll (↑k) at_).sw ↑k
     let now : Nat := b.now at_
     s.Sound ∧ x.seq = LswSeq.inrush ∧ bits x.set.limit 22 14 * 1000000 ≤ now - x.since)
    ∧ (let s : State := (lsw3 { seq := .demag } window)
       let k : Fin 16 := 3
       let b : Block := s.blk
       let x0 : Lsw := b.sw ↑k
       let ma : Nat := 19
       s.Sound ∧ x0.seq = LswSeq.demag ∧ ma < 20)
    ∧ (let s : State := (lsw3 swOn window)
       let k : Fin 16 := 3
       let at_ : Nat := 100
       let b : Block := s.blk
       let x0 : Lsw := b.sw ↑k
       let now : Nat := b.now at_
       s.Sound ∧ x0.seq = LswSeq.on ∧ 1000000000 ≤ now - x0.since)
    ∧ (let s : State := (lsw3 { seq := .cool } window)
       let k : Fin 16 := 3
       let at_ : Nat := 100
       let b : Block := s.blk
       let x : Lsw := (b.lswRoll (↑k) at_).sw ↑k
       let now : Nat := b.now at_
       let ma : Nat := 19
       let tj : Int := 1399
       s.Sound ∧ x.seq = LswSeq.cool ∧ bits x.set.prot 31 24 * 10000000 ≤ now - x.since ∧ ma < 20
         ∧ tj < 1400 ∧ (x.asksOn = false ∨ b.runs (unitLsw ↑k) = false))
    ∧ (let s : State := (lsw3 { seq := .cool, on := true } (fun b => window (allowed 60000000 b)))
       let k : Fin 16 := 3
       let at_ : Nat := 100
       let b : Block := s.blk
       let x : Lsw := (b.lswRoll (↑k) at_).sw ↑k
       let now : Nat := b.now at_
       let ma : Nat := 19
       let tj : Int := 1399
       s.Sound ∧ x.seq = LswSeq.cool ∧ bits x.set.prot 31 24 * 10000000 ≤ now - x.since ∧ ma < 20
         ∧ tj < 1400 ∧ x.asksOn = true ∧ b.runs (unitLsw ↑k) = true ∧ b.vpwrPresent = true ∧ x.held = false
         ∧ b.isShed ↑k = false ∧ b.eng.pwr.waits = [] ∧ ↑(b.startCharge ↑k * 1000) ≤ b.eng.pwr.allowance)
    ∧ (let s : State := (lsw3 { seq := .inrush } window)
       s.Sound) := by
  and_intros <;> first | decide +kernel | (apply sound; decide +kernel)

theorem met_SessionsOpen :
    (let s : State := serviceClosed
     let h : Hdr := helloHdr
     let k : Sess := .service
     let kind : Byte := 2
     let b : Block := s.blk
     let x : Session := b.link.sess k
     let now : Nat := b.now h.at_
     let free : Prop := b.reachable = true ∧ h.multicast = false ∧ b.upd.recovery = false ∧ b.queue h.queue = [] ∧ b.held h = false ∧ b.roomFor h = true ∧ h.len = 40 ∧ hintTooFar b.time.count h.hint = false
     sessKind kind = some k ∧ free ∧ h.session = 0 ∧ b.lockedOut h.addr now = false
       ∧ (¬(k = Sess.main ∧ b.upd.state = UpdState.migrationFailed))
       ∧ (x.state = SessState.closed ∨ x.state = SessState.hello ∧ x.addr = h.addr))
    ∧ (let s : State := serviceHello
       let h : Hdr := proofHdr
       let k : Sess := .service
       let kind : Byte := 2
       let b : Block := s.blk
       let x : Session := b.link.sess k
       let now : Nat := b.now h.at_
       let free : Prop := b.reachable = true ∧ h.multicast = false ∧ b.upd.recovery = false ∧ b.queue h.queue = [] ∧ b.held h = false ∧ b.roomFor h = true ∧ h.len = 40 ∧ hintTooFar b.time.count h.hint = false
       let proof : BitVec 256 := rightProof
       sessKind kind = some k ∧ free ∧ b.sessionOf h = none ∧ x.state = SessState.hello ∧ x.id = h.session
         ∧ x.addr = h.addr ∧ x.port = h.port ∧ b.lockedOut h.addr now = false
         ∧ leBytes 32 proof.toNat = b.proof k "VRKH1")
    ∧ (let s : State := serviceHello
       let h : Hdr := proofHdr
       let k : Sess := .service
       let kind : Byte := 2
       let b : Block := s.blk
       let x : Session := b.link.sess k
       let now : Nat := b.now h.at_
       let free : Prop := b.reachable = true ∧ h.multicast = false ∧ b.upd.recovery = false ∧ b.queue h.queue = [] ∧ b.held h = false ∧ b.roomFor h = true ∧ h.len = 40 ∧ hintTooFar b.time.count h.hint = false
       let proof : BitVec 256 := 7
       sessKind kind = some k ∧ free ∧ b.sessionOf h = none ∧ x.state = SessState.hello ∧ x.id = h.session
         ∧ x.addr = h.addr ∧ x.port = h.port ∧ b.lockedOut h.addr now = false
         ∧ leBytes 32 proof.toNat ≠ b.proof k "VRKH1" ∧ b.diary.freeze = none)
    ∧ (let s : State := serviceHello
       let h : Hdr := proofHdr
       let k : Sess := .service
       let kind : Byte := 2
       let b : Block := s.blk
       let x : Session := b.link.sess k
       let now : Nat := b.now h.at_
       sessKind kind = some k ∧ x.state = SessState.hello ∧ x.since + 1000000000 ≤ now
         ∧ b.diary.freeze = none)
    ∧ (let s : State := lockedOut
       let h : Hdr := proofHdr
       let k : Sess := .service
       let kind : Byte := 2
       let b : Block := s.blk
       let now : Nat := b.now h.at_
       let f : AuthFail := { addr := 2, at_ := 0 }
       sessKind kind = some k ∧ f ∈ b.link.lockouts ∧ f.addr = h.addr ∧ f.at_ + 10000000000 ≤ now) := by
  and_intros <;> decide +kernel

theorem met_SessionsEnd :
    (let s : State := busyMain
     let h : Hdr := (ofMain 0)
     let k : Sess := .main
     let b : Block := s.blk
     let x : Session := b.link.sess k
     let now : Nat := b.now h.at_
     let ms : Nat := match k with | Sess.main => b.fld Reg.LINK_SESS_CFG 0 12 0 | Sess.service => b.fld Reg.LINK_SESS_CFG 0 28 16
     s.Sound ∧ x.state = SessState.opened ∧ x.since + ms * 1000000 ≤ now)
    ∧ (let s : State := busyMain
       let h : Hdr := (ofMain 0)
       let k : Sess := .main
       let b : Block := s.blk
       s.Sound ∧ b.link.progress = [] ∧ Served b h k sessionCloseRow)
    ∧ (let s : State := busyMain
       let h : Hdr := (ofMain 0)
       let k : Sess := .main
       let b : Block := s.blk
       s.Sound ∧ b.link.progress = [] ∧ Served b h k sessionResetRow ∧ h.asyncOk = false) := by
  and_intros <;> first | decide +kernel | (apply served; decide +kernel) | (apply sound; decide +kernel)

theorem met_RequestsOfTheProtocol :
    (let s : State := (here id)
     let h : Hdr := (ofMain 3)
     let k : Sess := .main
     let b : Block := s.blk
     s.Sound ∧ Served b h k nopRow)
    ∧ (let s : State := (here id)
       let h : Hdr := (ofMain 0)
       let k : Sess := .main
       let b : Block := s.blk
       s.Sound ∧ Served b h k identifyRow)
    ∧ (let s : State := (here id)
       let h : Hdr := { addr := 5, port := 6 }
       let b : Block := s.blk
       let count : Word := b.time.count
       s.Sound ∧ b.linked = true ∧ h.session = 0 ∧ h.multicast = false ∧ b.queue h.queue = []
         ∧ b.held h = false ∧ b.roomFor h = true ∧ h.len = 0 ∧ hintTooFar count h.hint = false)
    ∧ (let s : State := (here id)
       let h : Hdr := (ofMain 4)
       let k : Sess := .main
       let b : Block := s.blk
       s.Sound ∧ Served b h k deviceResetRow)
    ∧ (let s : State := (here id)
       let h : Hdr := (ofMain 4)
       let k : Sess := .main
       let b : Block := s.blk
       let word : BitVec 16 := 0
       s.Sound ∧ Served b h k deviceResetRow ∧ word ≠ 31324)
    ∧ (let s : State := (here id)
       let h : Hdr := (ofMain 4)
       let k : Sess := .main
       let b : Block := s.blk
       s.Sound ∧ Served b h k fenceRow ∧ h.asyncOk = false ∧ b.earlierOpen k b.link.arrivals = false)
    ∧ (let s : State := (here id)
       let h : Hdr := (ofMain 4)
       let k : Sess := .main
       let b : Block := s.blk
       s.Sound ∧ Served b h k fenceRow ∧ h.asyncOk = false ∧ b.earlierOpen k b.link.arrivals = false
         ∧ b.openFills = [])
    ∧ (let s : State := (here id)
       let b : Block := s.blk
       let why : Sys2Proof.BadRequest := .notRequest
       s.Sound ∧ b.linked = true
         ∧ why ∈ [Sys2Proof.BadRequest.wrongLength, Sys2Proof.BadRequest.notRequest])
    ∧ (let s : State := (here id)
       let b : Block := s.blk
       s.Sound ∧ b.linked = true)
    ∧ (let s : State := (here id)
       let h : Hdr := (ofMain 4)
       let k : Sess := .main
       let b : Block := s.blk
       s.Sound ∧ b.linked = true ∧ h.multicast = false ∧ b.sessionOf h = some k)
    ∧ (let s : State := (here id)
       let h : Hdr := (ofMain 16)
       let k : Sess := .main
       let b : Block := s.blk
       let kind : Sys2Proof.Kinded := .clockSet
       s.Sound ∧ Served b h k (kindedRow kind)) := by
  and_intros <;> first | decide +kernel | (apply served; decide +kernel) | (apply sound; decide +kernel)

theorem met_PortsAndEventPackets :
    (let s : State := roleDue
     let p : Sys2Proof.EthPort := .a
     let b : Block := s.blk
     let x : Port := b.link.port p
     x.up = true)
    ∧ (let s : State := roleDue
       let p : Sys2Proof.EthPort := .a
       let at_ : Nat := 100
       let b : Block := s.blk
       let x : Port := b.link.port p
       let t0 : Nat := 5
       x.up = true ∧ x.roleAt = some t0 ∧ t0 ≤ b.now at_)
    ∧ (let s : State := portsDown
       let p : Sys2Proof.EthPort := .a
       let b : Block := s.blk
       let x : Port := b.link.port p
       x.up = false ∧ b.eng.pwr.state ≠ PState.dormant)
    ∧ (let s : State := roleDue
       let b : Block := s.blk
       b.linked = true)
    ∧ (let s : State := (withEvents 1)
       let at_ : Nat := 100000000
       let b : Block := s.blk
       let k : Sess := .main
       let o : Occurrence := { src := 3, code := 1, payload := 0, keyLen := 0, first := 9999990000000 }
       let rest : List Occurrence := []
       let q : List Occurrence := (b.link.sess k).events
       q = o :: rest ∧ (b.link.sess k).state = SessState.opened
         ∧ (43 ≤ q.length ∨ o.first + b.fld Reg.EVT_CTRL 0 7 0 * 1000000 ≤ b.now at_)) :=
  by decide +kernel

theorem met_AddressOnTheManagementBus :
    (let s : State := (onCan (fun _ => {}))
     let b : Block := s.blk
     let c : Can := b.can
     b.canOn = true ∧ c.claim = ClaimState.claiming ∧ c.sa = 254)
    ∧ (let s : State := (onCan (fun _ => { claim := .busOff }))
       let b : Block := s.blk
       let c : Can := b.can
       c.claim = ClaimState.busOff ∧ b.flag Reg.CANB_CFG 0 0 = true ∧ b.ticking = true
         ∧ b.vig.clockFault = false ∧ b.upd.recovery = false)
    ∧ (let s : State := (onCan id)
       let b : Block := s.blk
       let c : Can := b.can
       let other : Byte := 0x81
       b.canOn = true ∧ (¬(c.claim = ClaimState.claiming ∨ c.claim = ClaimState.claimed) ∨ other ≠ c.sa))
    ∧ (let s : State := (onCan id)
       let b : Block := s.blk
       let c : Can := b.can
       b.canOn = true ∧ (c.sa ≠ 254 ∨ c.claim = ClaimState.cannotClaim))
    ∧ (let s : State := (onCan id)
       let b : Block := s.blk
       let c : Can := b.can
       let other : Byte := 0x80
       let name : BitVec 64 := 0xFFFFFFFFFFFFFFFF
       b.canOn = true ∧ (c.claim = ClaimState.claiming ∨ c.claim = ClaimState.claimed) ∧ other = c.sa
         ∧ b.canName < name.toNat)
    ∧ (let s : State := (onCan id)
       let b : Block := s.blk
       let c : Can := b.can
       let other : Byte := 0x80
       let name : BitVec 64 := 0
       b.canOn = true ∧ (c.claim = ClaimState.claiming ∨ c.claim = ClaimState.claimed) ∧ other = c.sa
         ∧ name.toNat ≤ b.canName)
    ∧ (let s : State := (onCan (fun _ => { claim := .claiming, sa := 0x80 }))
       let at_ : Nat := 5
       let b : Block := s.blk
       let c : Can := b.can
       b.canOn = true ∧ c.claim = ClaimState.claiming ∧ c.sa ≠ 254 ∧ c.claimedAt + 250000000 ≤ b.now at_)
    ∧ (let s : State := (onCan id)
       let b : Block := s.blk
       b.canOn = true) :=
  by decide +kernel

theorem met_ManagementPathAndTroubleCodes :
    (let s : State := (mgmt 0x000AFF01 (onCan id))
     let source : Byte := 0x26
     let b : Block := s.blk
     let c : Can := b.can
     let function : Byte := 1
     let target : Byte := 1
     let group : Byte := 3
     let st : UnitState := .standby
     let release : Bool := false
     let us : List Nat := ((List.range 16).map unitMot)
     b.canOn = true ∧ c.claim = ClaimState.claimed ∧ b.mgmtAccepts source = true
       ∧ b.flag Reg.CANB_MGMT 0 0 = true ∧ function = 1 ∧ mgmtTarget target = some (st, release)
       ∧ groupUnits (BitVec.toNat group) = some us)
    ∧ (let s : State := (mgmt 0x000AFF01 (onCan id))
       let source : Byte := 0x26
       let b : Block := s.blk
       let c : Can := b.can
       let function : Byte := 2
       let target : Byte := 1
       let group : Byte := 3
       b.canOn = true ∧ c.claim = ClaimState.claimed ∧ b.mgmtAccepts source = true
         ∧ (b.flag Reg.CANB_MGMT 0 0 = false ∨ function ≠ 1 ∨ mgmtTarget target = none ∨ groupUnits (BitVec.toNat group) = none))
    ∧ (let s : State := (mgmt 0x000AFF01 (onCan id))
       let source : Byte := 0x26
       let b : Block := s.blk
       b.mgmtAccepts source = true ∧ b.flag Reg.CANB_MGMT 0 0 = true ∧ b.fld Reg.CANB_MGMT 0 23 16 ≠ 0)
    ∧ (let s : State := (mgmt 0x000AFF00 (onCan id))
       let source : Byte := 0x26
       let b : Block := s.blk
       b.mgmtAccepts source = true ∧ b.flag Reg.CANB_MGMT 0 0 = false)
    ∧ (let s : State := (mgmt 0x000AFF01 (onCan id))
       let at_ : Nat := 5
       let b : Block := s.blk
       let c : Can := b.can
       let now : Nat := b.now at_
       b.fld Reg.CANB_MGMT 0 23 16 ≠ 0 ∧ c.lastStatus + b.fld Reg.CANB_MGMT 0 23 16 * 10000000 ≤ now)
    ∧ (let s : State := (onCan id)
       let at_ : Nat := 5
       let b : Block := s.blk
       let c : Can := b.can
       let now : Nat := b.now at_
       c.lastDm1 + 1000000000 ≤ now)
    ∧ (let s : State := (onCan (fun c => { c with lastDm1 := 10000000000000, newCode := true }))
       let at_ : Nat := 5
       let b : Block := s.blk
       let c : Can := b.can
       let now : Nat := b.now at_
       now < c.lastDm1 + 1000000000 ∧ c.newCode = true ∧ c.lastExtraDm1 = none)
    ∧ (let s : State := edgeCode
       let at_ : Nat := 5
       let b : Block := s.blk
       let c : Can := b.can
       let now : Nat := b.now at_
       let q : Fin 128 := 5
       let t0 : Nat := 0
       let d : Dtc := { source := 5, count := 2 }
       look b.evt.lastSeen ↑q = some t0 ∧ t0 + 1000000000 ≤ now ∧ isCondition ↑q = false
         ∧ b.flag Reg.EVT_CFG (↑q) 1 = false ∧ List.find? (fun x => x.source == ↑q) c.active = some d) :=
  by decide +kernel

theorem met_CanFrames :
    (let s : State := (onCan (fun c => { c with outgoing := [{ dst := 0x26, pgn := 65226, data := (List.range 16).map (fun n => BitVec.ofNat 8 n) }] }))
     let b : Block := s.blk
     let c : Can := b.can
     let source : Byte := 0x26
     let dest : Byte := 0x80
     let data : BitVec 64 := 0x00FECAFFFF010311
     let o : Outgoing := { dst := 0x26, pgn := 65226, data := (List.range 16).map (fun n => BitVec.ofNat 8 n) }
     b.canOn = true ∧ c.claim = ClaimState.claimed ∧ (dest = c.sa ∨ dest = 255) ∧ frameByte data 0 = 17
       ∧ List.find? (fun o => o.dst == source && o.pgn == frameNum data 5 3) c.outgoing = some o)
    ∧ (let s : State := (onCan (fun c => { c with outgoing := [{ dst := 0x26, pgn := 65226, data := (List.range 16).map (fun n => BitVec.ofNat 8 n) }] }))
       let b : Block := s.blk
       let c : Can := b.can
       let dest : Byte := 0x80
       let data : BitVec 64 := 0x00FECAFF03000E13
       b.canOn = true ∧ c.claim = ClaimState.claimed ∧ (dest = c.sa ∨ dest = 255) ∧ frameByte data 0 = 19)
    ∧ (let s : State := (onCan id)
       let b : Block := s.blk
       let c : Can := b.can
       let dest : Byte := 0x80
       let data : BitVec 64 := 0x00EF0012001410
       let size : Nat := frameNum data 1 2
       b.canOn = true ∧ c.claim = ClaimState.claimed ∧ (dest = c.sa ∨ dest = 255) ∧ frameByte data 0 = 16
         ∧ size ≤ 1785)
    ∧ (let s : State := (onCan id)
       let b : Block := s.blk
       let c : Can := b.can
       let dest : Byte := 0x80
       let data : BitVec 64 := 0x00EF0012FFFF10
       let size : Nat := frameNum data 1 2
       b.canOn = true ∧ c.claim = ClaimState.claimed ∧ (dest = c.sa ∨ dest = 255) ∧ frameByte data 0 = 16
         ∧ 1785 < size)
    ∧ (let s : State := (onCan (fun c => { c with transfers := [{ src := 0x26, dst := 0x80, pgn := 61184, size := 14, extended := false, broadcast := false, data := [], nextSeq := 1 }] }))
       let b : Block := s.blk
       let c : Can := b.can
       let source : Byte := 0x26
       let dest : Byte := 0x80
       let data : BitVec 64 := 0x0102030405060701
       let x : Transfer := { src := 0x26, dst := 0x80, pgn := 61184, size := 14, extended := false, broadcast := false, data := [], nextSeq := 1 }
       let all : List Byte := List.take x.size (x.data ++ leBytes 7 (frameNum data 1 7))
       b.canOn = true ∧ c.claim = ClaimState.claimed ∧ (dest = c.sa ∨ dest = 255)
         ∧ List.find? (fun t => t.src == source && t.dst == dest && t.extended == false) c.transfers = some x
         ∧ frameByte data 0 + x.offset = x.nextSeq ∧ all.length < x.size)
    ∧ (let s : State := (onCan (fun c => { c with transfers := [{ src := 0x26, dst := 0x80, pgn := 61184, size := 7, extended := false, broadcast := false, data := [], nextSeq := 1 }] }))
       let b : Block := s.blk
       let c : Can := b.can
       let source : Byte := 0x26
       let dest : Byte := 0x80
       let data : BitVec 64 := 0x0102030405060701
       let x : Transfer := { src := 0x26, dst := 0x80, pgn := 61184, size := 7, extended := false, broadcast := false, data := [], nextSeq := 1 }
       let all : List Byte := List.take x.size (x.data ++ leBytes 7 (frameNum data 1 7))
       b.canOn = true ∧ c.claim = ClaimState.claimed ∧ (dest = c.sa ∨ dest = 255)
         ∧ List.find? (fun t => t.src == source && t.dst == dest && t.extended == false) c.transfers = some x
         ∧ frameByte data 0 + x.offset = x.nextSeq ∧ x.size ≤ all.length)
    ∧ (let s : State := (onCanS id)
       let b : Block := s.blk
       let c : Can := b.can
       let ident : Word := 5
       let f : Nat := 0
       b.flag Reg.CANS_CFG 0 0 = true ∧ (BitVec.getLsbD ident 30 = true → b.flag Reg.CANS_CFG 0 1 = true)
         ∧ b.ticking = true ∧ List.find? (fun f => b.filterPasses f ident) (List.range 8) = some f
         ∧ c.fifoS.length < 64)
    ∧ (let s : State := (onCanS (fun c => { c with fifoS := List.replicate 64 frameS }))
       let b : Block := s.blk
       let c : Can := b.can
       let ident : Word := 5
       let f : Nat := 0
       b.flag Reg.CANS_CFG 0 0 = true ∧ (BitVec.getLsbD ident 30 = true → b.flag Reg.CANS_CFG 0 1 = true)
         ∧ b.ticking = true ∧ List.find? (fun f => b.filterPasses f ident) (List.range 8) = some f
         ∧ 64 ≤ c.fifoS.length)
    ∧ (let s : State := (onCanS (fun c => { c with sendingS := some frameS }))
       let b : Block := s.blk
       let c : Can := b.can
       let m : CanSFrame := frameS
       c.sendingS = some m)
    ∧ (let s : State := (onCanS (fun c => { c with fifoS := [frameS, frameS] }))
       let b : Block := s.blk
       let h : Hdr := (ofMain 8)
       let k : Sess := .main
       Served b h k regWriteRow ∧ (b.link.sess k).txn.state = TxnState.none ∧ b.upd.recovery = false)
    ∧ (let s : State := (onCanS (fun c => { c with fifoS := [frameS, frameS] }))
       let b : Block := s.blk
       let c : Can := b.can
       let h : Hdr := (ofMain 8)
       let k : Sess := .main
       Served b h k regWriteRow ∧ (b.link.sess k).txn.state = TxnState.none ∧ b.upd.recovery = false
         ∧ c.sendingS = none ∧ (b.txFrame k).bad = false)
    ∧ (let s : State := (onCanS (fun c => { c with sendingS := some frameS }))
       let b : Block := s.blk
       let c : Can := b.can
       let h : Hdr := (ofMain 8)
       let k : Sess := .main
       Served b h k regWriteRow ∧ (b.link.sess k).txn.state = TxnState.none ∧ b.upd.recovery = false
         ∧ c.sendingS ≠ none) := by
  and_intros <;> first | decide +kernel | (apply served; decide +kernel)

theorem met_RegistersAreRead :
    (let s : State := (here id)
     let h : Hdr := (ofMain 4)
     let k : Sess := .main
     let address : Word := (BitVec.ofNat 32 (addr .PWRB_CFG))
     let b : Block := s.blk
     let a : Nat := BitVec.toNat address
     let r : Reg := .PWRB_CFG
     let i : Nat := 0
     let j : Nat := 0
     Served b h k regReadRow ∧ b.upd.recovery = false ∧ regAt a = some (r, i, j)
       ∧ b.absentReg r i = false)
    ∧ (let s : State := (here id)
       let h : Hdr := (ofMain 4)
       let k : Sess := .main
       let address : Word := (BitVec.ofNat 32 (addr .PWRB_CFG))
       let b : Block := s.blk
       let a : Nat := BitVec.toNat address
       let r : Reg := .PWRB_CFG
       let i : Nat := 0
       let j : Nat := 0
       Served b h k regReadRow ∧ b.upd.recovery = false ∧ regAt a = some (r, i, j)
         ∧ b.absentReg r i = false
         ∧ r ∈ [Reg.NOZ_CFG, Reg.BANK_CFG, Reg.AXIS_CFG, Reg.MDRV_PROT, Reg.LOOP_COEF, Reg.LSW_LIMIT, Reg.PWRB_CFG, Reg.EVT_CFG, Reg.NOZ_CNT0, Reg.LSW_CNT])
    ∧ (let s : State := ofVariantP
       let h : Hdr := (ofMain 4)
       let k : Sess := .main
       let address : Word := (BitVec.ofNat 32 (addr .NOZ_CFG 60))
       let b : Block := s.blk
       let a : Nat := BitVec.toNat address
       let r : Reg := .NOZ_CFG
       let i : Nat := 60
       let j : Nat := 0
       Served b h k regReadRow ∧ b.upd.recovery = false ∧ regAt a = some (r, i, j) ∧ b.absentReg r i = true)
    ∧ (let s : State := (here id)
       let h : Hdr := (ofMain 4)
       let k : Sess := .main
       let address : Word := 3
       let b : Block := s.blk
       let a : Nat := BitVec.toNat address
       Served b h k regReadRow ∧ b.upd.recovery = false ∧ regAt a = none)
    ∧ (let s : State := (here id)
       let h : Hdr := (ofMain 8)
       let k : Sess := .main
       let address : Word := (BitVec.ofNat 32 (addr .LSW_FLT 2))
       let count : BitVec 16 := 2
       let b : Block := s.blk
       let a : Nat := BitVec.toNat address
       let n : Nat := count.toNat
       Served b h k regReadBlockRow ∧ b.upd.recovery = false ∧ 1 ≤ n ∧ n ≤ 350
         ∧ (∀ (m : Nat), m < n → (regAt (a + 4 * m)).isSome = true))
    ∧ (let s : State := (here id)
       let h : Hdr := (ofMain 8)
       let k : Sess := .main
       let address : Word := (BitVec.ofNat 32 (addr .LSW_CNT 15))
       let count : BitVec 16 := 3
       let b : Block := s.blk
       let a : Nat := BitVec.toNat address
       let n : Nat := count.toNat
       let m : Nat := 1
       Served b h k regReadBlockRow ∧ b.upd.recovery = false ∧ m < n ∧ 1 ≤ n ∧ n ≤ 350
         ∧ (∀ (p : Nat), p < m → (regAt (a + 4 * p)).isSome = true) ∧ regAt (a + 4 * m) = none)
    ∧ (let s : State := (here id)
       let h : Hdr := (ofMain 8)
       let k : Sess := .main
       let count : BitVec 16 := 351
       let b : Block := s.blk
       let n : Nat := count.toNat
       Served b h k regReadBlockRow ∧ b.upd.recovery = false ∧ (n = 0 ∨ 350 < n)) := by
  and_intros <;> first | decide +kernel | (apply served; decide +kernel)

theorem met_LowReadsLatchHigh :
    (let s : State := laneEves
     let h : Hdr := (ofMain 4)
     let k : Sess := .main
     Served s.blk h k regReadRow ∧ s.blk.upd.recovery = false)
    ∧ (let s : State := laneEves
       let h : Hdr := (ofMain 4)
       let k : Sess := .main
       let l : Fin 160 := 120
       let b : Block := s.blk
       Served s.blk h k regReadRow ∧ s.blk.upd.recovery = false ∧ b.absentReg Reg.CMP_NEXT_LO ↑l = false)
    ∧ (let s : State := ofVariantP
       let h : Hdr := (ofMain 4)
       let k : Sess := .main
       let l : Fin 160 := 60
       let b : Block := s.blk
       Served s.blk h k regReadRow ∧ s.blk.upd.recovery = false ∧ b.absentReg Reg.CMP_NEXT_LO ↑l = true) := by
  and_intros <;> first | decide +kernel | (apply served; decide +kernel)

theorem met_RegistersAreWritten :
    (let s : State := (here id)
     let h : Hdr := (ofMain 8)
     let k : Sess := .main
     let address : Word := (BitVec.ofNat 32 (addr .RES_GPO))
     let value : Word := 3
     let r : Reg := .RES_GPO
     let i : Nat := 0
     let j : Nat := 0
     let b : Block := s.blk
     let a : Nat := BitVec.toNat address
     let plain : Reg → Prop := fun r => ((desc r).fields.any fun f => f.acc == Acc.rw) = true ∧ ((desc r).fields.any fun f => f.acc == Acc.rws) = false ∧ ¬r ∈ [Reg.NOZ_FLT, Reg.BANK_FLT, Reg.BST_FLT, Reg.PROP_FLT, Reg.MDRV_FLT, Reg.LOOP_FLT, Reg.LSW_FLT, Reg.PWRB_DENIED, Reg.VIG_SAFE, Reg.EVT_PEND, Reg.MDRV_ARM, Reg.MDRV_CARRIER, Reg.MDRV_SET, Reg.MDRV_RST, Reg.LSW_HOLD, Reg.CANB_DTC_CLR, Reg.CANS_RX_POP, Reg.CANS_TX_GO, Reg.VIG_DBG_RESP, Reg.VIG_DBG_CTRL, Reg.DEV_ALARM_LO, Reg.DEV_ALARM_HI, Reg.DIARY_DRAINED, Reg.LSW_CTRL, Reg.PROP_TARGET, Reg.LOOP_SP, Reg.DEV_LTOL, Reg.VIG_UNIT, Reg.LINK_KEY]
     let may : Reg → Nat → Nat → Prop := fun r i j => b.absentReg r i = false ∧ noWritable r j = false ∧ b.rightDenied k r i = false
     (b.link.sess k).txn.state = TxnState.none ∧ regAt a = some (r, i, j) ∧ plain r ∧ may r i j
       ∧ Served b h k regWriteRow ∧ b.rangeOk r i j value = true ∧ perSession r = false)
    ∧ (let s : State := (here id)
       let h : Hdr := (ofMain 8)
       let k : Sess := .main
       let address : Word := (BitVec.ofNat 32 (addr .CMP_RD_SEL))
       let value : Word := 3
       let r : Reg := .CMP_RD_SEL
       let i : Nat := 0
       let j : Nat := 0
       let b : Block := s.blk
       let a : Nat := BitVec.toNat address
       let plain : Reg → Prop := fun r => ((desc r).fields.any fun f => f.acc == Acc.rw) = true ∧ ((desc r).fields.any fun f => f.acc == Acc.rws) = false ∧ ¬r ∈ [Reg.NOZ_FLT, Reg.BANK_FLT, Reg.BST_FLT, Reg.PROP_FLT, Reg.MDRV_FLT, Reg.LOOP_FLT, Reg.LSW_FLT, Reg.PWRB_DENIED, Reg.VIG_SAFE, Reg.EVT_PEND, Reg.MDRV_ARM, Reg.MDRV_CARRIER, Reg.MDRV_SET, Reg.MDRV_RST, Reg.LSW_HOLD, Reg.CANB_DTC_CLR, Reg.CANS_RX_POP, Reg.CANS_TX_GO, Reg.VIG_DBG_RESP, Reg.VIG_DBG_CTRL, Reg.DEV_ALARM_LO, Reg.DEV_ALARM_HI, Reg.DIARY_DRAINED, Reg.LSW_CTRL, Reg.PROP_TARGET, Reg.LOOP_SP, Reg.DEV_LTOL, Reg.VIG_UNIT, Reg.LINK_KEY]
       let may : Reg → Nat → Nat → Prop := fun r i j => b.absentReg r i = false ∧ noWritable r j = false ∧ b.rightDenied k r i = false
       (b.link.sess k).txn.state = TxnState.none ∧ regAt a = some (r, i, j) ∧ plain r ∧ may r i j
         ∧ Served b h k regWriteRow ∧ b.rangeOk r i j value = true ∧ perSession r = true)
    ∧ (let s : State := (here id)
       let h : Hdr := (ofMain 12)
       let k : Sess := .main
       let address : Word := (BitVec.ofNat 32 (addr .RES_GPO))
       let value : Word := 3
       let mask : Word := 2
       let r : Reg := .RES_GPO
       let i : Nat := 0
       let j : Nat := 0
       let b : Block := s.blk
       let a : Nat := BitVec.toNat address
       let live : Block := b.taken k h
       let plain : Reg → Prop := fun r => ((desc r).fields.any fun f => f.acc == Acc.rw) = true ∧ ((desc r).fields.any fun f => f.acc == Acc.rws) = false ∧ ¬r ∈ [Reg.NOZ_FLT, Reg.BANK_FLT, Reg.BST_FLT, Reg.PROP_FLT, Reg.MDRV_FLT, Reg.LOOP_FLT, Reg.LSW_FLT, Reg.PWRB_DENIED, Reg.VIG_SAFE, Reg.EVT_PEND, Reg.MDRV_ARM, Reg.MDRV_CARRIER, Reg.MDRV_SET, Reg.MDRV_RST, Reg.LSW_HOLD, Reg.CANB_DTC_CLR, Reg.CANS_RX_POP, Reg.CANS_TX_GO, Reg.VIG_DBG_RESP, Reg.VIG_DBG_CTRL, Reg.DEV_ALARM_LO, Reg.DEV_ALARM_HI, Reg.DIARY_DRAINED, Reg.LSW_CTRL, Reg.PROP_TARGET, Reg.LOOP_SP, Reg.DEV_LTOL, Reg.VIG_UNIT, Reg.LINK_KEY]
       let may : Reg → Nat → Nat → Prop := fun r i j => b.absentReg r i = false ∧ noWritable r j = false ∧ b.rightDenied k r i = false
       let old : Word := live.modifyBase k (b.actAt (b.now h.at_)) a r i j
       let new : Word := old &&& ~~~mask ||| value &&& mask
       (b.link.sess k).txn.state = TxnState.none ∧ regAt a = some (r, i, j) ∧ plain r ∧ may r i j
         ∧ Served b h k regModifyRow ∧ fieldMask (desc r) [Acc.w1c, Acc.rc, Acc.wo] = 0
         ∧ perSession r = false ∧ b.rangeOk r i j new = true)
    ∧ (let s : State := (here id)
       let h : Hdr := (ofMain 8)
       let k : Sess := .main
       let address : Word := (BitVec.ofNat 32 (addr .RES_GPO))
       let b : Block := s.blk
       let a : Nat := BitVec.toNat address
       let plain : Reg → Prop := fun r => ((desc r).fields.any fun f => f.acc == Acc.rw) = true ∧ ((desc r).fields.any fun f => f.acc == Acc.rws) = false ∧ ¬r ∈ [Reg.NOZ_FLT, Reg.BANK_FLT, Reg.BST_FLT, Reg.PROP_FLT, Reg.MDRV_FLT, Reg.LOOP_FLT, Reg.LSW_FLT, Reg.PWRB_DENIED, Reg.VIG_SAFE, Reg.EVT_PEND, Reg.MDRV_ARM, Reg.MDRV_CARRIER, Reg.MDRV_SET, Reg.MDRV_RST, Reg.LSW_HOLD, Reg.CANB_DTC_CLR, Reg.CANS_RX_POP, Reg.CANS_TX_GO, Reg.VIG_DBG_RESP, Reg.VIG_DBG_CTRL, Reg.DEV_ALARM_LO, Reg.DEV_ALARM_HI, Reg.DIARY_DRAINED, Reg.LSW_CTRL, Reg.PROP_TARGET, Reg.LOOP_SP, Reg.DEV_LTOL, Reg.VIG_UNIT, Reg.LINK_KEY]
       let may : Reg → Nat → Nat → Prop := fun r i j => b.absentReg r i = false ∧ noWritable r j = false ∧ b.rightDenied k r i = false
       let values : List Word := [3]
       (b.link.sess k).txn.state = TxnState.none ∧ Served b h k regWriteBlockRow ∧ 1 ≤ values.length
         ∧ values.length ≤ 349
         ∧ (∀ (n : Nat), n < values.length → ∀ (x : Reg × Nat × Nat), regAt (a + 4 * n) = some x → plain x.fst ∧ may x.fst x.snd.fst x.snd.snd ∧ perSession x.fst = false ∧ b.rangeOk x.fst x.snd.fst x.snd.snd (nth values n 0) = true)
         ∧ (∀ (n : Nat), n < values.length → (regAt (a + 4 * n)).isSome = true))
    ∧ (let s : State := (here id)
       let h : Hdr := (ofMain 8)
       let k : Sess := .main
       let address : Word := 3
       let b : Block := s.blk
       let a : Nat := BitVec.toNat address
       (b.link.sess k).txn.state = TxnState.none ∧ Served b h k regWriteRow ∧ regAt a = none)
    ∧ (let s : State := ofVariantP
       let h : Hdr := (ofMain 8)
       let k : Sess := .main
       let address : Word := (BitVec.ofNat 32 (addr .NOZ_FLT 60))
       let r : Reg := .NOZ_FLT
       let i : Nat := 60
       let j : Nat := 0
       let b : Block := s.blk
       let a : Nat := BitVec.toNat address
       (b.link.sess k).txn.state = TxnState.none ∧ Served b h k regWriteRow ∧ regAt a = some (r, i, j)
         ∧ b.absentReg r i = true)
    ∧ (let s : State := (here id)
       let h : Hdr := (ofMain 8)
       let k : Sess := .main
       let address : Word := (BitVec.ofNat 32 (addr .TICK_COUNT))
       let r : Reg := .TICK_COUNT
       let i : Nat := 0
       let j : Nat := 0
       let b : Block := s.blk
       let a : Nat := BitVec.toNat address
       (b.link.sess k).txn.state = TxnState.none ∧ Served b h k regWriteRow ∧ regAt a = some (r, i, j)
         ∧ b.absentReg r i = false ∧ noWritable r j = true)
    ∧ (let s : State := (here id)
       let h : Hdr := (ofMain 8)
       let k : Sess := .main
       let address : Word := (BitVec.ofNat 32 (addr .CANB_DTC_CLR))
       let r : Reg := .CANB_DTC_CLR
       let i : Nat := 0
       let j : Nat := 0
       let b : Block := s.blk
       let a : Nat := BitVec.toNat address
       (b.link.sess k).txn.state = TxnState.none ∧ Served b h k regWriteRow ∧ regAt a = some (r, i, j)
         ∧ b.absentReg r i = false ∧ noWritable r j = false ∧ (b.rightDenied k r i = true ∨ r = Reg.LINK_KEY))
    ∧ (let s : State := (here id)
       let h : Hdr := (ofMain 8)
       let k : Sess := .main
       let address : Word := (BitVec.ofNat 32 (addr .LSW_CFG 2))
       let r : Reg := .LSW_CFG
       let i : Nat := 2
       let j : Nat := 0
       let b : Block := s.blk
       let a : Nat := BitVec.toNat address
       let may : Reg → Nat → Nat → Prop := fun r i j => b.absentReg r i = false ∧ noWritable r j = false ∧ b.rightDenied k r i = false
       (b.link.sess k).txn.state = TxnState.none ∧ Served b h k regWriteRow ∧ regAt a = some (r, i, j)
         ∧ may r i j ∧ r ≠ Reg.LINK_KEY ∧ ((desc r).fields.any fun f => f.acc == Acc.rws) = true)
    ∧ (let s : State := (here id)
       let h : Hdr := (ofMain 8)
       let k : Sess := .main
       let address : Word := (BitVec.ofNat 32 (addr .VIG_UNIT 2))
       let value : Word := 0x07000000
       let r : Reg := .VIG_UNIT
       let i : Nat := 2
       let j : Nat := 0
       let b : Block := s.blk
       let a : Nat := BitVec.toNat address
       let live : Block := b.taken k h
       let may : Reg → Nat → Nat → Prop := fun r i j => b.absentReg r i = false ∧ noWritable r j = false ∧ b.rightDenied k r i = false
       (b.link.sess k).txn.state = TxnState.none ∧ Served b h k regWriteRow ∧ regAt a = some (r, i, j)
         ∧ may r i j ∧ r ≠ Reg.LINK_KEY ∧ ((desc r).fields.any fun f => f.acc == Acc.rws) = false
         ∧ live.rangeOk r i j value = false) := by
  and_intros <;> first | decide +kernel | (apply served; decide +kernel)

theorem met_FlagsAreCleared :
    (let s : State := flagged
     let h : Hdr := (ofMain 8)
     let k : Sess := .main
     Served s.blk h k regWriteRow ∧ (s.blk.link.sess k).txn.state = TxnState.none)
    ∧ (let s : State := flagged
       let h : Hdr := (ofMain 8)
       let k : Sess := .main
       let value : Word := 3
       let n : Fin 96 := 9
       let b : Block := s.blk
       Served s.blk h k regWriteRow ∧ (s.blk.link.sess k).txn.state = TxnState.none
         ∧ b.absentReg Reg.NOZ_FLT ↑n = false ∧ b.rangeOk Reg.NOZ_FLT (↑n) 0 value = true
         ∧ BitVec.getLsbD value 5 = false)
    ∧ (let s : State := flagged
       let h : Hdr := (ofMain 8)
       let k : Sess := .main
       let value : Word := 3
       let w : Fin 4 := 0
       let b : Block := s.blk
       Served s.blk h k regWriteRow ∧ (s.blk.link.sess k).txn.state = TxnState.none
         ∧ b.rangeOk Reg.EVT_PEND (↑w) 0 value = true)
    ∧ (let s : State := flagged
       let h : Hdr := (ofMain 8)
       let k : Sess := .main
       let value : Word := 3
       let b : Block := s.blk
       Served s.blk h k regWriteRow ∧ (s.blk.link.sess k).txn.state = TxnState.none
         ∧ b.rangeOk Reg.MDRV_ARM 0 0 value = true)
    ∧ (let s : State := pended
       let h : Hdr := (ofMain 8)
       let k : Sess := .main
       let value : Word := 0x23
       let n : Fin 96 := 9
       let b : Block := s.blk
       Served s.blk h k regWriteRow ∧ (s.blk.link.sess k).txn.state = TxnState.none
         ∧ b.absentReg Reg.NOZ_FLT ↑n = false ∧ b.rangeOk Reg.NOZ_FLT (↑n) 0 value = true
         ∧ BitVec.getLsbD value 5 = true)
    ∧ (let s : State := ofVariantP
       let h : Hdr := (ofMain 8)
       let k : Sess := .main
       let n : Fin 96 := 60
       let b : Block := s.blk
       Served s.blk h k regWriteRow ∧ (s.blk.link.sess k).txn.state = TxnState.none
         ∧ b.absentReg Reg.NOZ_FLT ↑n = true) := by
  and_intros <;> first | decide +kernel | (apply served; decide +kernel)

theorem met_RegistersThatCommand :
    (let s : State := (here id)
     let h : Hdr := (ofMain 8)
     let k : Sess := .main
     Served s.blk h k regWriteRow ∧ (s.blk.link.sess k).txn.state = TxnState.none)
    ∧ (let s : State := (here id)
       let h : Hdr := (ofMain 8)
       let k : Sess := .main
       let value : Word := 0x80000001
       let b : Block := s.blk
       Served s.blk h k regWriteRow ∧ (s.blk.link.sess k).txn.state = TxnState.none
         ∧ b.rangeOk Reg.DEV_ALARM_HI 0 0 value = true)
    ∧ (let s : State := (here id)
       let h : Hdr := (ofMain 8)
       let k : Sess := .main
       let value : Word := 0x02000000
       let b : Block := s.blk
       let u : Fin 203 := 9
       let st : UnitState := .active
       Served s.blk h k regWriteRow ∧ (s.blk.link.sess k).txn.state = TxnState.none
         ∧ b.rangeOk Reg.VIG_UNIT (↑u) 0 value = true ∧ reqState (bits value 26 24) = some st
         ∧ b.requestStatus k (↑u) st = none)
    ∧ (let s : State := (here id)
       let h : Hdr := (ofMain 8)
       let k : Sess := .main
       let value : Word := 0x05000000
       let b : Block := s.blk
       let u : Fin 203 := 9
       let st : UnitState := .service
       Served s.blk h k regWriteRow ∧ (s.blk.link.sess k).txn.state = TxnState.none
         ∧ b.rangeOk Reg.VIG_UNIT (↑u) 0 value = true ∧ reqState (bits value 26 24) = some st
         ∧ b.requestStatus k (↑u) st = some Status.denied)
    ∧ (let s : State := heldSwitch
       let h : Hdr := (ofMain 8)
       let k : Sess := .main
       let value : Word := 8
       let b : Block := s.blk
       Served s.blk h k regWriteRow ∧ (s.blk.link.sess k).txn.state = TxnState.none
         ∧ b.rangeOk Reg.LSW_HOLD 0 0 value = true ∧ s.Sound)
    ∧ (let s : State := (here id)
       let h : Hdr := (ofMain 8)
       let k : Sess := .main
       let value : Word := 3
       let b : Block := s.blk
       Served s.blk h k regWriteRow ∧ (s.blk.link.sess k).txn.state = TxnState.none
         ∧ b.rangeOk Reg.RES_GPO 0 0 value = true)
    ∧ (let s : State := (diaryAt 9)
       let h : Hdr := (ofMain 8)
       let k : Sess := .main
       let value : Word := 9
       let b : Block := s.blk
       Served s.blk h k regWriteRow ∧ (s.blk.link.sess k).txn.state = TxnState.none
         ∧ b.rangeOk Reg.DIARY_DRAINED 0 0 value = true)
    ∧ (let s : State := (here id)
       let h : Hdr := (ofMain 8)
       let k : Sess := .main
       Served s.blk h k regWriteRow ∧ (s.blk.link.sess k).txn.state = TxnState.none ∧ k = Sess.main)
    ∧ (let s : State := (here id)
       let h : Hdr := (ofService 8)
       let k : Sess := .service
       Served s.blk h k regWriteRow ∧ (s.blk.link.sess k).txn.state = TxnState.none ∧ k = Sess.service)
    ∧ (let s : State := unlockable
       let h : Hdr := (ofService 8)
       let k : Sess := .service
       let b : Block := s.blk
       Served s.blk h k regWriteRow ∧ (s.blk.link.sess k).txn.state = TxnState.none ∧ k = Sess.service
         ∧ b.vig.dbg = DbgState.locked ∧ b.vig.dbgLockSince = none ∧ b.dbgGiven = b.dbgResponse)
    ∧ (let s : State := (here id)
       let h : Hdr := (ofService 8)
       let k : Sess := .service
       let b : Block := s.blk
       Served s.blk h k regWriteRow ∧ (s.blk.link.sess k).txn.state = TxnState.none ∧ k = Sess.service
         ∧ b.vig.dbg = DbgState.locked ∧ b.vig.dbgLockSince = none ∧ b.dbgGiven ≠ b.dbgResponse
         ∧ b.vig.dbgFails.length < 2)
    ∧ (let s : State := debugging
       let h : Hdr := (ofService 8)
       let k : Sess := .service
       let b : Block := s.blk
       Served s.blk h k regWriteRow ∧ (s.blk.link.sess k).txn.state = TxnState.none ∧ k = Sess.service
         ∧ b.vig.dbg = DbgState.unlocked) := by
  and_intros <;> first | decide +kernel | (apply served; decide +kernel) | (apply sound; decide +kernel)

theorem met_Transactions :
    (let s : State := (inTxn {})
     let h : Hdr := (ofMain 4)
     let k : Sess := .main
     let b : Block := s.blk
     let x : Txn := (b.link.sess k).txn
     let timeout : BitVec 16 := 500
     let ms : Nat := if timeout = 0 then 2000 else timeout.toNat
     s.Sound ∧ Served b h k txnBeginRow ∧ (x.state = TxnState.none ∨ x.state = TxnState.expired)
       ∧ 100 ≤ ms ∧ ms ≤ 10000)
    ∧ (let s : State := (inTxn { state := .opened })
       let h : Hdr := (ofMain 4)
       let k : Sess := .main
       let b : Block := s.blk
       let x : Txn := (b.link.sess k).txn
       s.Sound ∧ Served b h k txnBeginRow ∧ (x.state = TxnState.opened ∨ x.state = TxnState.committing))
    ∧ (let s : State := (inTxn {})
       let h : Hdr := (ofMain 4)
       let k : Sess := .main
       let b : Block := s.blk
       let x : Txn := (b.link.sess k).txn
       let timeout : BitVec 16 := 99
       let ms : Nat := if timeout = 0 then 2000 else timeout.toNat
       s.Sound ∧ Served b h k txnBeginRow ∧ (x.state = TxnState.none ∨ x.state = TxnState.expired)
         ∧ (ms < 100 ∨ 10000 < ms))
    ∧ (let s : State := (inTxn {})
       let h : Hdr := (ofMain 0)
       let k : Sess := .main
       let b : Block := s.blk
       let x : Txn := (b.link.sess k).txn
       s.Sound ∧ Served b h k txnCommitRow ∧ x.state = TxnState.none)
    ∧ (let s : State := (inTxn { state := .expired })
       let h : Hdr := (ofMain 0)
       let k : Sess := .main
       let b : Block := s.blk
       let x : Txn := (b.link.sess k).txn
       s.Sound ∧ Served b h k txnCommitRow ∧ x.state = TxnState.expired)
    ∧ (let s : State := (inTxn { state := .opened, num := 4 })
       let h : Hdr := (ofMain 0)
       let k : Sess := .main
       let b : Block := s.blk
       let x : Txn := (b.link.sess k).txn
       s.Sound ∧ Served b h k txnCommitRow ∧ x.state = TxnState.opened ∧ h.asyncOk = false
         ∧ b.link.progress = [])
    ∧ (let s : State := (inTxn { state := .opened, num := 4 })
       let h : Hdr := (ofMain 0)
       let k : Sess := .main
       let b : Block := s.blk
       let x : Txn := (b.link.sess k).txn
       s.Sound ∧ Served b h k txnRollbackRow ∧ (x.state = TxnState.opened ∨ x.state = TxnState.expired))
    ∧ (let s : State := (inTxn {})
       let h : Hdr := (ofMain 0)
       let k : Sess := .main
       let b : Block := s.blk
       let x : Txn := (b.link.sess k).txn
       s.Sound ∧ Served b h k txnRollbackRow ∧ x.state = TxnState.none)
    ∧ (let s : State := (inTxn { state := .committing })
       let h : Hdr := (ofMain 0)
       let k : Sess := .main
       let b : Block := s.blk
       let x : Txn := (b.link.sess k).txn
       s.Sound ∧ Served b h k txnRollbackRow ∧ x.state = TxnState.committing)
    ∧ (let s : State := (inTxn { state := .opened, began := 10000000000000 })
       let h : Hdr := (ofMain 0)
       let k : Sess := .main
       let b : Block := s.blk
       s.Sound ∧ Served b h k txnStatusRow)
    ∧ (let s : State := (inTxn { state := .opened, num := 4 })
       let h : Hdr := (ofMain 8)
       let k : Sess := .main
       let b : Block := s.blk
       let x : Txn := (b.link.sess k).txn
       s.Sound ∧ Served b h k regWriteRow ∧ x.state = TxnState.opened ∧ x.staged.length < 1024)
    ∧ (let s : State := (inTxn { state := .opened, num := 4 })
       let h : Hdr := (ofMain 8)
       let k : Sess := .main
       let b : Block := s.blk
       let x : Txn := (b.link.sess k).txn
       let address : Word := (BitVec.ofNat 32 (addr .LSW_CFG 2))
       let r : Reg := .LSW_CFG
       let i : Nat := 2
       let j : Nat := 0
       s.Sound ∧ Served b h k regWriteRow ∧ x.state = TxnState.opened ∧ x.staged.length < 1024
         ∧ regAt (BitVec.toNat address) = some (r, i, j) ∧ b.absentReg r i = false ∧ noWritable r j = false
         ∧ b.rightDenied k r i = false)
    ∧ (let s : State := (inTxn { state := .opened, num := 4 })
       let k : Sess := .main
       let b : Block := s.blk
       let x : Txn := (b.link.sess k).txn
       s.Sound ∧ x.state = TxnState.opened ∧ x.began + x.timeoutMs * 1000000 ≤ b.time.now)
    ∧ (let s : State := rivalled
       let k : Sess := .main
       let b : Block := s.blk
       let f : TxnFail := { status := .txnConflict, index := 0, detail := addressPayload (addr .LSW_CFG 2) }
       s.Sound ∧ b.txnCheck k = some f)
    ∧ (let s : State := saving
       let b : Block := s.blk
       let save : Save := { since := 0, words := [(4, 5)], generation := 2 }
       s.Sound ∧ b.upd.save = some save ∧ b.coresRun = true ∧ b.upd.running = false) := by
  and_intros <;> first | decide +kernel | (apply served; decide +kernel) | (apply sound; decide +kernel)

theorem met_UnalignedAccessesAreRefused :
    (let s : State := (here id)
     let h : Hdr := (ofMain 4)
     let k : Sess := .main
     let address : Word := 0x90003
     let b : Block := s.blk
     BitVec.toNat address % 4 ≠ 0 ∧ Served b h k regReadRow)
    ∧ (let s : State := (here id)
       let h : Hdr := (ofMain 8)
       let k : Sess := .main
       let address : Word := 1
       let count : BitVec 16 := 350
       let b : Block := s.blk
       BitVec.toNat address % 4 ≠ 0 ∧ Served b h k regReadBlockRow ∧ 1 ≤ count.toNat ∧ count.toNat ≤ 350)
    ∧ (let s : State := (here id)
       let h : Hdr := (ofMain 8)
       let k : Sess := .main
       let address : Word := 2
       let b : Block := s.blk
       let unended : Prop := txnRefuses (b.link.sess k).txn.state = none
       BitVec.toNat address % 4 ≠ 0 ∧ Served b h k regWriteRow ∧ unended)
    ∧ (let s : State := (here id)
       let h : Hdr := (ofMain 12)
       let k : Sess := .main
       let address : Word := 6
       let values : List Word := [1, 2]
       let b : Block := s.blk
       let unended : Prop := txnRefuses (b.link.sess k).txn.state = none
       BitVec.toNat address % 4 ≠ 0 ∧ Served b h k regWriteBlockRow ∧ unended ∧ values ≠ [])
    ∧ (let s : State := (here id)
       let h : Hdr := (ofMain 12)
       let k : Sess := .main
       let address : Word := 7
       let b : Block := s.blk
       let unended : Prop := txnRefuses (b.link.sess k).txn.state = none
       BitVec.toNat address % 4 ≠ 0 ∧ Served b h k regModifyRow ∧ unended) := by
  and_intros <;> first | decide +kernel | (apply served; decide +kernel)

theorem met_ResetEntries :
    (let s : State := configured
     s.Sound)
    ∧ (let s : State := configured
       let b : Block := s.blk
       let ns : Nat := 1000
       s.Sound ∧ b.powered = true ∧ 1000 ≤ ns)
    ∧ (let s : State := configured
       let b : Block := s.blk
       s.Sound ∧ b.powered = true)
    ∧ (let s : State := configured
       let b : Block := s.blk
       s.Sound ∧ b.powered = true ∧ b.mustRevert = false)
    ∧ (let s : State := configured
       let b : Block := s.blk
       s.Sound ∧ b.powered = true ∧ b.mustRevert = false ∧ b.vig.clockFault = false)
    ∧ (let s : State := configured
       let b : Block := s.blk
       let cores : BitVec 4 := 5
       let ns : Nat := 1000000000
       s.Sound ∧ cores ≠ 0 ∧ b.coresRun = true ∧ b.wdtOnTime ns = false ∧ b.mustRevert = false)
    ∧ (let s : State := configured
       let b : Block := s.blk
       let ns : Nat := (configured.blk.fld .VIG_WDT_CFG 0 6 0 * 1000000)
       s.Sound ∧ b.wdtOnTime ns = true)
    ∧ (let s : State := mustGoBack
       let b : Block := s.blk
       let cores : BitVec 4 := 5
       let ns : Nat := 1000000000
       s.Sound ∧ cores ≠ 0 ∧ b.coresRun = true ∧ b.wdtOnTime ns = false ∧ b.mustRevert = true)
    ∧ (let s : State := clockFaulty
       let ns : Nat := 10000000
       s.Sound ∧ 10000000 ≤ ns) := by
  and_intros <;> first | decide +kernel | (apply sound; decide +kernel)

theorem met_HaltsOverrunsAndSafeState :
    (let s : State := debugging
     let b : Block := s.blk
     let v : Vigil := b.vig
     s.Sound ∧ v.dbg = DbgState.unlocked
       ∧ (b.motorLive = false ∨ BitVec.getLsbD (b.sessWord Sess.service Reg.VIG_DBG_CTRL) 2 = true))
    ∧ (let s : State := (motorRuns debugging)
       let b : Block := s.blk
       let v : Vigil := b.vig
       s.Sound ∧ v.dbg = DbgState.unlocked ∧ b.motorLive = true
         ∧ BitVec.getLsbD (b.sessWord Sess.service Reg.VIG_DBG_CTRL) 2 = false)
    ∧ (let s : State := halted
       let b : Block := s.blk
       let v : Vigil := b.vig
       s.Sound ∧ v.dbg = DbgState.halted)
    ∧ (let s : State := debugLocked
       let at_ : Nat := 5
       let b : Block := s.blk
       let v : Vigil := b.vig
       let now : Nat := b.now at_
       let t0 : Nat := 0
       s.Sound ∧ v.dbgLockSince = some t0 ∧ t0 + 10000000000 ≤ now)
    ∧ (let s : State := (motorRuns halted)
       let at_ : Nat := 5
       let b : Block := s.blk
       let v : Vigil := b.vig
       let now : Nat := b.now at_
       s.Sound ∧ v.dbg = DbgState.halted ∧ v.haltLimited = false ∧ b.fld Reg.VIG_DBG_CFG 0 7 0 ≠ 0
         ∧ v.haltSince + b.fld Reg.VIG_DBG_CFG 0 7 0 * 1000000000 ≤ now)
    ∧ (let s : State := (unfinished 1 (here id))
       let b : Block := s.blk
       let v : Vigil := b.vig
       let overrun : Prop := b.time.finished = false ∧ v.dbg ≠ DbgState.halted ∧ b.ticking = true ∧ v.starting = false
       s.Sound ∧ overrun ∧ b.eng.alm.due = 0 ∧ b.time.run ≠ 2)
    ∧ (let s : State := (motorRuns (unfinished 2 (here id)))
       let b : Block := s.blk
       let v : Vigil := b.vig
       let overrun : Prop := b.time.finished = false ∧ v.dbg ≠ DbgState.halted ∧ b.ticking = true ∧ v.starting = false
       s.Sound ∧ overrun ∧ b.eng.alm.due = 0 ∧ b.time.run = 2) := by
  and_intros <;> first | decide +kernel | (apply sound; decide +kernel)

theorem met_DiaryIsWritten :
    (let s : State := (diaryIs (fun d => { d with fifo := [record1, record2] }))
     let b : Block := s.blk
     let d : Diary := b.diary
     let r : DiaryRec := record1
     let rest : List DiaryRec := [record2]
     let readBack : List Bool := [true]
     let slot : Nat := d.writeSlot % ringSlots
     let old : Option DiaryRec := List.find? (fun x => x.slot == slot) d.ring
     s.Sound ∧ b.coresRun = true ∧ d.failed = false ∧ d.fifo = r :: rest ∧ d.freeze = none
       ∧ d.staging = [] ∧ d.badSlots = [] ∧ d.lostPending = 0 ∧ (twoTries readBack).fst = true
       ∧ (¬(b.flag Reg.DIARY_CFG 0 0 = true ∧ ∃ x, x ∈ old ∧ seqNewer x.seq d.drained = true)))
    ∧ (let s : State := (protected_ (diaryIs (fun d => { d with fifo := [record1, record2], drained := 1, ring := [{ record2 with seq := 3 }] })))
       let b : Block := s.blk
       let d : Diary := b.diary
       let r : DiaryRec := record1
       let rest : List DiaryRec := [record2]
       let readBack : List Bool := [false, true]
       let slot : Nat := d.writeSlot % ringSlots
       let old : Option DiaryRec := List.find? (fun x => x.slot == slot) d.ring
       let x : DiaryRec := { record2 with seq := 3 }
       s.Sound ∧ b.coresRun = true ∧ d.failed = false ∧ d.fifo = r :: rest ∧ d.freeze = none
         ∧ d.staging = [] ∧ d.badSlots = [] ∧ d.lostPending = 0 ∧ (twoTries readBack).fst = true
         ∧ b.flag Reg.DIARY_CFG 0 0 = true ∧ old = some x ∧ seqNewer x.seq d.drained = true)
    ∧ (let s : State := (diaryIs (fun d => { d with fifo := [record1, record2] }))
       let b : Block := s.blk
       let d : Diary := b.diary
       let r : DiaryRec := record1
       let rest : List DiaryRec := [record2]
       s.Sound ∧ b.coresRun = true ∧ d.failed = false ∧ d.fifo = r :: rest ∧ d.freeze = none
         ∧ d.staging = [] ∧ d.badSlots = [] ∧ d.ring = [] ∧ d.lostPending = 0)
    ∧ (let s : State := (diaryIs (fun d => { d with fifo := [record1, record2], freeze := some freeze1 }))
       let b : Block := s.blk
       let d : Diary := b.diary
       let r : DiaryRec := record1
       let rest : List DiaryRec := [record2]
       s.Sound ∧ b.coresRun = true ∧ d.failed = false ∧ d.fifo = r :: rest ∧ d.freeze ≠ none
         ∧ d.lostPending = 0 ∧ d.staging.length < stagingSlots)
    ∧ (let s : State := (diaryIs (fun d => { d with fifo := [record1, record2], freeze := some freeze1 }))
       let b : Block := s.blk
       let d : Diary := b.diary
       let r : DiaryRec := record1
       let rest : List DiaryRec := [record2]
       s.Sound ∧ b.coresRun = true ∧ d.failed = false ∧ d.fifo = r :: rest)
    ∧ (let s : State := (diaryIs (fun d => { d with drained := 4 }))
       let at_ : Nat := 5
       let b : Block := s.blk
       let d : Diary := b.diary
       let now : Nat := b.now at_
       s.Sound ∧ b.coresRun = true ∧ d.drained ≠ d.drainedMram
         ∧ (∀ (t0 : Nat), d.drainedAt = some t0 → t0 + 1000000000 ≤ now))
    ∧ (let s : State := (diaryIs (fun d => { d with fifo := [record1, record2], freeze := some freeze1 }))
       let b : Block := s.blk
       let lowNs : Nat := 20000
       s.Sound ∧ 20000 ≤ lowNs ∧ b.powered = true)
    ∧ (let s : State := (here id)
       let b : Block := s.blk
       let temp : Int := 2000
       let warn : Int := ↑(b.fld Reg.EVT_THERM 0 15 0)
       s.Sound ∧ b.evt.baseHot = false ∧ warn < temp)
    ∧ (let s : State := hotBase
       let b : Block := s.blk
       let temp : Int := (-2000)
       let warn : Int := ↑(b.fld Reg.EVT_THERM 0 15 0)
       s.Sound ∧ b.evt.baseHot = true ∧ temp ≤ warn - 50)
    ∧ (let s : State := (here id)
       let b : Block := s.blk
       let temp : Int := 500
       let warn : Int := ↑(b.fld Reg.EVT_THERM 0 15 0)
       s.Sound ∧ (b.evt.baseHot = false ∧ temp ≤ warn ∨ b.evt.baseHot = true ∧ warn - 50 < temp)) := by
  and_intros <;> first | decide +kernel | (apply sound; decide +kernel)

theorem met_DiaryRequests :
    (let s : State := (diaryIs (fun d => { d with ring := [record1, record2] }))
     let h : Hdr := (ofMain 4)
     let k : Sess := .main
     let b : Block := s.blk
     let d : Diary := b.diary
     let timeout : BitVec 16 := 0
     let seconds : Nat := if timeout = 0 then 60 else timeout.toNat
     let oldest : DiaryRec := record1
     let newest : DiaryRec := record2
     Served b h k diaryFreezeRow ∧ d.failed = false ∧ (∀ (f : Freeze), d.freeze = some f → f.by_ = k)
       ∧ seconds ≤ 600 ∧ d.ring.head? = some oldest ∧ d.ring.getLast? = some newest)
    ∧ (let s : State := (diaryIs id)
       let h : Hdr := (ofMain 4)
       let k : Sess := .main
       let b : Block := s.blk
       let d : Diary := b.diary
       let timeout : BitVec 16 := 601
       let seconds : Nat := if timeout = 0 then 60 else timeout.toNat
       Served b h k diaryFreezeRow ∧ d.failed = false ∧ (∀ (f : Freeze), d.freeze = some f → f.by_ = k)
         ∧ 600 < seconds)
    ∧ (let s : State := (diaryIs id)
       let h : Hdr := (ofMain 4)
       let k : Sess := .main
       let b : Block := s.blk
       let d : Diary := b.diary
       Served b h k diaryFreezeRow ∧ d.failed = false)
    ∧ (let s : State := (diaryIs (fun d => { d with failed := true }))
       let h : Hdr := (ofMain 4)
       let k : Sess := .main
       let b : Block := s.blk
       let d : Diary := b.diary
       Served b h k diaryFreezeRow ∧ d.failed = true)
    ∧ (let s : State := (diaryIs (fun d => { d with freeze := some freeze1 }))
       let h : Hdr := (ofService 4)
       let k : Sess := .service
       let b : Block := s.blk
       Served b h k diaryThawRow)
    ∧ (let s : State := (diaryIs id)
       let h : Hdr := (ofMain 4)
       let k : Sess := .main
       let b : Block := s.blk
       let d : Diary := b.diary
       Served b h k diaryThawRow ∧ d.freeze = none)
    ∧ (let s : State := (diaryIs (fun d => { d with freeze := some freeze1 }))
       let h : Hdr := (ofMain 4)
       let b : Block := s.blk
       let d : Diary := b.diary
       let f : Freeze := freeze1
       d.freeze = some f ∧ f.since + f.timeoutS * 1000000000 ≤ b.now h.at_)
    ∧ (let s : State := (diaryIs (fun d => { d with ring := [{ record1 with good := false }, record2], ember := [record1] }))
       let h : Hdr := (ofMain 8)
       let k : Sess := .main
       let b : Block := s.blk
       let count : Byte := 4
       Served b h k diaryReadRow ∧ 1 ≤ BitVec.toNat count ∧ BitVec.toNat count ≤ 43)
    ∧ (let s : State := (diaryIs id)
       let h : Hdr := (ofMain 8)
       let k : Sess := .main
       let b : Block := s.blk
       let count : Byte := 44
       Served b h k diaryReadRow ∧ (BitVec.toNat count = 0 ∨ 43 < BitVec.toNat count))
    ∧ (let s : State := (diaryIs (fun d => { d with fifo := List.replicate 64 record1 }))
       let h : Hdr := (ofMain 20)
       let k : Sess := .main
       let b : Block := s.blk
       let d : Diary := b.diary
       Served b h k diaryMarkRow ∧ 64 ≤ d.fifo.length)
    ∧ (let s : State := (diaryIs id)
       let h : Hdr := (ofMain 20)
       let k : Sess := .main
       let b : Block := s.blk
       let d : Diary := b.diary
       Served b h k diaryMarkRow ∧ d.fifo.length < 63 ∧ d.failed = false ∧ b.flag Reg.EVT_CFG 23 5 = true
         ∧ b.evtEnabled 23 = true ∧ d.fifo = [] ∧ d.newest = Newest.nowhere ∧ d.lostPending = 0) := by
  and_intros <;> first | decide +kernel | (apply served; decide +kernel)

theorem met_ImagesAreDownloadedAndVerified :
    (let s : State := (here id)
     let h : Hdr := (ofService 48)
     let b : Block := s.blk
     let u : Update := b.upd
     let k : Sess := Sess.service
     let x : Slot := u.slot u.target
     let length : Word := 8
     let n : Nat := BitVec.toNat length
     Served b h k updBeginRow ∧ u.state = UpdState.idle ∧ x.state ≠ SlotState.installed ∧ n ≠ 0
       ∧ n % 4 = 0 ∧ n ≤ imageMax)
    ∧ (let s : State := (receiving { state := .partialImage, identity := leBytes 32 5, length := 8 })
       let h : Hdr := (ofService 48)
       let b : Block := s.blk
       let u : Update := b.upd
       let k : Sess := Sess.service
       let x : Slot := u.slot u.target
       let identity : BitVec 256 := 5
       let length : Word := 8
       let id : Bytes := leBytes 32 identity.toNat
       let n : Nat := BitVec.toNat length
       let same : Prop := x.identity = id ∧ x.length = n
       Served b h k updBeginRow ∧ (u.state = UpdState.receiving ∨ u.state = UpdState.complete) ∧ n ≠ 0
         ∧ n % 4 = 0 ∧ n ≤ imageMax ∧ same)
    ∧ (let s : State := (receiving { state := .partialImage, identity := leBytes 32 5, length := 8 })
       let h : Hdr := (ofService 48)
       let b : Block := s.blk
       let u : Update := b.upd
       let k : Sess := Sess.service
       let x : Slot := u.slot u.target
       let identity : BitVec 256 := 5
       let length : Word := 12
       let id : Bytes := leBytes 32 identity.toNat
       let n : Nat := BitVec.toNat length
       let same : Prop := x.identity = id ∧ x.length = n
       Served b h k updBeginRow ∧ (u.state = UpdState.receiving ∨ u.state = UpdState.complete) ∧ n ≠ 0
         ∧ n % 4 = 0 ∧ n ≤ imageMax ∧ (¬same))
    ∧ (let s : State := (here id)
       let h : Hdr := (ofService 48)
       let b : Block := s.blk
       let u : Update := b.upd
       let k : Sess := Sess.service
       let length : Word := 6
       let n : Nat := BitVec.toNat length
       Served b h k updBeginRow
         ∧ (u.state = UpdState.idle ∨ u.state = UpdState.receiving ∨ u.state = UpdState.complete)
         ∧ (n = 0 ∨ n % 4 ≠ 0))
    ∧ (let s : State := (here id)
       let h : Hdr := (ofService 48)
       let b : Block := s.blk
       let u : Update := b.upd
       let k : Sess := Sess.service
       let length : Word := 8384516
       let n : Nat := BitVec.toNat length
       Served b h k updBeginRow
         ∧ (u.state = UpdState.idle ∨ u.state = UpdState.receiving ∨ u.state = UpdState.complete) ∧ n % 4 = 0
         ∧ imageMax < n)
    ∧ (let s : State := onTrial
       let h : Hdr := (ofService 48)
       let b : Block := s.blk
       let u : Update := b.upd
       let k : Sess := Sess.service
       Served b h k updBeginRow ∧ (u.state = UpdState.verifying ∨ u.state = UpdState.trial))
    ∧ (let s : State := (receiving { state := .partialImage, identity := leBytes 32 5, length := 12 })
       let h : Hdr := (ofService 12)
       let b : Block := s.blk
       let u : Update := b.upd
       let k : Sess := Sess.service
       let x : Slot := u.slot u.target
       let offset : Word := 0
       let data : Bytes := [1,2,3,4]
       let o : Nat := BitVec.toNat offset
       Served b h k updChunkRow ∧ u.state = UpdState.receiving ∧ o % 4 = 0
         ∧ o + List.length data ≤ x.length ∧ o ≤ x.offset ∧ x.offset < o + List.length data)
    ∧ (let s : State := (receiving { state := .partialImage, identity := leBytes 32 5, length := 8, offset := 4 })
       let h : Hdr := (ofService 12)
       let b : Block := s.blk
       let u : Update := b.upd
       let k : Sess := Sess.service
       let x : Slot := u.slot u.target
       let offset : Word := 0
       let data : Bytes := [1,2,3,4]
       let o : Nat := BitVec.toNat offset
       Served b h k updChunkRow ∧ u.state = UpdState.receiving ∧ o % 4 = 0
         ∧ o + List.length data ≤ x.length ∧ o + List.length data ≤ x.offset)
    ∧ (let s : State := (receiving { state := .partialImage, identity := leBytes 32 5, length := 8 })
       let h : Hdr := (ofService 12)
       let b : Block := s.blk
       let u : Update := b.upd
       let k : Sess := Sess.service
       let x : Slot := u.slot u.target
       let offset : Word := 4
       let data : Bytes := [1,2,3,4]
       let o : Nat := BitVec.toNat offset
       Served b h k updChunkRow ∧ u.state = UpdState.receiving ∧ o % 4 = 0
         ∧ o + List.length data ≤ x.length ∧ x.offset < o)
    ∧ (let s : State := (receiving { state := .partialImage, identity := leBytes 32 5, length := 8 })
       let h : Hdr := (ofService 12)
       let b : Block := s.blk
       let u : Update := b.upd
       let k : Sess := Sess.service
       let x : Slot := u.slot u.target
       let offset : Word := 8
       let data : Bytes := [1,2,3,4]
       let o : Nat := BitVec.toNat offset
       Served b h k updChunkRow ∧ u.state = UpdState.receiving
         ∧ (o % 4 ≠ 0 ∨ x.length < o + List.length data))
    ∧ (let s : State := (here id)
       let h : Hdr := (ofService 12)
       let b : Block := s.blk
       let u : Update := b.upd
       let k : Sess := Sess.service
       Served b h k updChunkRow ∧ u.state ≠ UpdState.receiving)
    ∧ (let s : State := (here id)
       let h : Hdr := (ofService 0)
       let b : Block := s.blk
       let u : Update := b.upd
       let k : Sess := Sess.service
       Served b h k updVerifyRow ∧ u.state ≠ UpdState.complete)
    ∧ (let s : State := (updIs (fun u => { u with state := .complete }))
       let h : Hdr := (ofService 0)
       let b : Block := s.blk
       let u : Update := b.upd
       let k : Sess := Sess.service
       Served b h k updVerifyRow ∧ u.state = UpdState.complete ∧ h.asyncOk = false ∧ b.link.progress = [])
    ∧ (let s : State := badImage
       let b : Block := s.blk
       let u : Update := b.upd
       u.state = UpdState.verifying ∧ b.coresRun = true ∧ b.link.progress = [] ∧ b.verify.fst ≠ 0) := by
  and_intros <;> first | decide +kernel | (apply served; decide +kernel)

theorem met_ImagesAreActivatedAndConfirmed :
    (let s : State := (updIs (fun u => { u with state := .verified }))
     let h : Hdr := (ofService 0)
     let w : BootRecord := record0
     let b : Block := s.blk
     let u : Update := b.upd
     let k : Sess := Sess.service
     s.blk.upd.winner = some w ∧ s.blk.upd.recovery = false ∧ s.blk.link.progress = []
       ∧ h.asyncOk = false ∧ Served b h k updActivateRow ∧ u.state = UpdState.verified
       ∧ b.outputUnit = false)
    ∧ (let s : State := (motorRuns (updIs (fun u => { u with state := .verified })))
       let h : Hdr := (ofService 0)
       let w : BootRecord := record0
       let b : Block := s.blk
       let u : Update := b.upd
       let k : Sess := Sess.service
       s.blk.upd.winner = some w ∧ s.blk.upd.recovery = false ∧ s.blk.link.progress = []
         ∧ h.asyncOk = false ∧ Served b h k updActivateRow ∧ u.state = UpdState.verified
         ∧ b.outputUnit = true)
    ∧ (let s : State := (here id)
       let h : Hdr := (ofService 0)
       let w : BootRecord := record0
       let b : Block := s.blk
       let u : Update := b.upd
       let k : Sess := Sess.service
       s.blk.upd.winner = some w ∧ s.blk.upd.recovery = false ∧ s.blk.link.progress = []
         ∧ h.asyncOk = false ∧ Served b h k updActivateRow ∧ u.state ≠ UpdState.verified)
    ∧ (let s : State := onTrial
       let h : Hdr := (ofService 0)
       let w : BootRecord := record1b
       let b : Block := s.blk
       let u : Update := b.upd
       let k : Sess := Sess.service
       s.blk.upd.winner = some w ∧ s.blk.upd.recovery = false ∧ s.blk.link.progress = []
         ∧ h.asyncOk = false ∧ Served b h k updConfirmRow ∧ u.state = UpdState.trial)
    ∧ (let s : State := (here id)
       let h : Hdr := (ofService 0)
       let w : BootRecord := record0
       let b : Block := s.blk
       let u : Update := b.upd
       let k : Sess := Sess.service
       s.blk.upd.winner = some w ∧ s.blk.upd.recovery = false ∧ s.blk.link.progress = []
         ∧ h.asyncOk = false ∧ Served b h k updConfirmRow ∧ u.state = UpdState.idle)
    ∧ (let s : State := mustGoBack
       let h : Hdr := (ofService 0)
       let w : BootRecord := record0
       let b : Block := s.blk
       let u : Update := b.upd
       let k : Sess := Sess.service
       s.blk.upd.winner = some w ∧ s.blk.upd.recovery = false ∧ s.blk.link.progress = []
         ∧ h.asyncOk = false ∧ Served b h k updConfirmRow ∧ u.state = UpdState.migrationFailed)
    ∧ (let s : State := (receiving { state := .partialImage })
       let h : Hdr := (ofService 0)
       let w : BootRecord := record0
       let b : Block := s.blk
       let u : Update := b.upd
       let k : Sess := Sess.service
       s.blk.upd.winner = some w ∧ s.blk.upd.recovery = false ∧ s.blk.link.progress = []
         ∧ h.asyncOk = false ∧ Served b h k updAbortRow
         ∧ (u.state = UpdState.receiving ∨ u.state = UpdState.complete ∨ u.state = UpdState.verified))
    ∧ (let s : State := (receiving { state := .partialImage })
       let h : Hdr := (ofService 0)
       let w : BootRecord := record0
       let b : Block := s.blk
       let k : Sess := Sess.service
       s.blk.upd.winner = some w ∧ s.blk.upd.recovery = false ∧ s.blk.link.progress = []
         ∧ h.asyncOk = false ∧ Served b h k updAbortRow)
    ∧ (let s : State := onTrial
       let h : Hdr := (ofService 0)
       let w : BootRecord := record1b
       let b : Block := s.blk
       let u : Update := b.upd
       let k : Sess := Sess.service
       let p : Bool := false
       s.blk.upd.winner = some w ∧ s.blk.upd.recovery = false ∧ s.blk.link.progress = []
         ∧ h.asyncOk = false ∧ Served b h k updAbortRow ∧ u.state = UpdState.trial ∧ w.prevSlot = some p)
    ∧ (let s : State := (here id)
       let h : Hdr := (ofService 0)
       let w : BootRecord := record0
       let b : Block := s.blk
       let u : Update := b.upd
       let k : Sess := Sess.service
       s.blk.upd.winner = some w ∧ s.blk.upd.recovery = false ∧ s.blk.link.progress = []
         ∧ h.asyncOk = false ∧ Served b h k updAbortRow ∧ u.state = UpdState.idle)
    ∧ (let s : State := badImage
       let h : Hdr := (ofService 0)
       let w : BootRecord := record0
       let b : Block := s.blk
       let u : Update := b.upd
       let k : Sess := Sess.service
       s.blk.upd.winner = some w ∧ s.blk.upd.recovery = false ∧ s.blk.link.progress = []
         ∧ h.asyncOk = false ∧ Served b h k updAbortRow ∧ u.state = UpdState.verifying)
    ∧ (let s : State := (here id)
       let h : Hdr := (ofService 0)
       let w : BootRecord := record0
       let b : Block := s.blk
       let k : Sess := Sess.service
       s.blk.upd.winner = some w ∧ s.blk.upd.recovery = false ∧ s.blk.link.progress = []
         ∧ h.asyncOk = false ∧ Served b h k updStatusRow)
    ∧ (let s : State := saveHeld
       let h : Hdr := (ofService 0)
       let w : BootRecord := record0
       let b : Block := s.blk
       let t0 : Nat := 0
       s.blk.upd.winner = some w ∧ s.blk.upd.recovery = false ∧ s.blk.link.progress = []
         ∧ h.asyncOk = false ∧ b.link.saveBusySince = some t0 ∧ t0 + 200000000 ≤ b.now h.at_) := by
  and_intros <;> first | decide +kernel | (apply served; decide +kernel)

theorem met_SupplyInputs :
    (let s : State := (inputs feeds feeds)
     let i : Sys2Proof.VpwrInput := .a
     let mv : Nat := 8499
     let b : Block := s.blk
     let x : Input := b.sup.input i
     mv < 8500 ∧ x.present = true)
    ∧ (let s : State := (inputs {} feeds)
       let i : Sys2Proof.VpwrInput := .a
       let mv : Nat := 8499
       let b : Block := s.blk
       let x : Input := b.sup.input i
       mv < 8500 ∧ x.present = false)
    ∧ (let s : State := (inputs { closed := true, lost := true } feeds)
       let i : Sys2Proof.VpwrInput := .a
       let mv : Nat := 9000
       let b : Block := s.blk
       let x : Input := b.sup.input i
       9000 ≤ mv ∧ x.closed = true ∧ x.present = false ∧ x.lost = true)
    ∧ (let s : State := (inputs { closed := true } {})
       let i : Sys2Proof.VpwrInput := .a
       let mv : Nat := 9000
       let b : Block := s.blk
       let x : Input := b.sup.input i
       9000 ≤ mv ∧ x.closed = true ∧ x.present = false ∧ x.lost = false)
    ∧ (let s : State := (inputs feeds {})
       let i : Sys2Proof.VpwrInput := .a
       let mv : Nat := 9000
       let b : Block := s.blk
       let x : Input := b.sup.input i
       9000 ≤ mv ∧ x.closed = true ∧ x.present = true)
    ∧ (let s : State := (inputs feeds {})
       let i : Sys2Proof.VpwrInput := .a
       let b : Block := s.blk
       let x : Input := b.sup.input i
       let ma : Nat := 40001
       40000 < ma ∧ x.overLatched = false)
    ∧ (let s : State := (inputs feeds {})
       let i : Sys2Proof.VpwrInput := .b
       let b : Block := s.blk
       let x : Input := b.sup.input i
       let ma : Nat := 40000
       ma ≤ 40000 ∨ x.overLatched = true)
    ∧ (let ns : Nat := 10000000
       10000000 ≤ ns)
    ∧ (let s : State := (inputs feeds {})
       let i : Sys2Proof.VpwrInput := .a
       let b : Block := s.blk
       let x : Input := b.sup.input i
       let ma : Nat := 60001
       let ns : Nat := 100000
       x.closed = true ∧ 60000 < ma ∧ 100000 ≤ ns ∧ x.present = true)
    ∧ (let s : State := (inputs { closed := true } {})
       let i : Sys2Proof.VpwrInput := .a
       let b : Block := s.blk
       let x : Input := b.sup.input i
       let ma : Nat := 60001
       let ns : Nat := 100000
       x.closed = true ∧ 60000 < ma ∧ 100000 ≤ ns ∧ x.present = false)
    ∧ (let s : State := (inputs feeds {})
       let i : Sys2Proof.VpwrInput := .a
       let mv : Nat := 36001
       let b : Block := s.blk
       let x : Input := b.sup.input i
       36000 < mv ∧ x.present = true)
    ∧ (let s : State := (inputs feeds {})
       let i : Sys2Proof.VpwrInput := .b
       let mv : Nat := 36001
       let b : Block := s.blk
       let x : Input := b.sup.input i
       36000 < mv ∧ x.present = false)
    ∧ (let mv : Nat := 1001
       let ns : Nat := 10000
       1000 < mv ∧ 10000 ≤ ns)
    ∧ (let s : State := (inputs feeds { opened := .overCurrent })
       let i : Sys2Proof.VpwrInput := .b
       let mv : Nat := 0
       let at_ : Nat := 100
       let b : Block := s.blk
       let x : Input := b.sup.input i
       let now : Nat := b.now at_
       let settled : Nat := 0
       x.closed = false
         ∧ (x.opened = SwitchOpen.overCurrent ∧ x.openedAt + 1000000000 ≤ now ∨ x.opened = SwitchOpen.overVoltage ∧ mv < 34000 ∧ 10000000 ≤ settled ∨ x.opened = SwitchOpen.groundLift ∧ mv ≤ 500 ∧ 10000000 ≤ settled))
    ∧ (let s : State := (inputs {} feeds)
       let mv : Nat := 14001
       let b : Block := s.blk
       let busMv : Nat := 13000
       b.eng.pwr.state ≠ PState.dormant ∧ b.sup.prechargeSince = none ∧ b.sup.retryAt = none
         ∧ busMv + 1000 < mv ∧ b.sup.inA.eligible = true)
    ∧ (let s : State := (precharging (inputs {} feeds))
       let mv : Nat := 14000
       let b : Block := s.blk
       let t0 : Nat := 0
       let busMv : Nat := 13000
       b.sup.prechargeSince = some t0 ∧ b.sup.inA.eligible = true ∧ mv ≤ busMv + 1000 ∧ busMv ≤ mv + 1000
         ∧ 2000 < busMv ∧ b.sup.inA.lost = false)
    ∧ (let s : State := (precharging (inputs {} feeds))
       let at_ : Nat := 100
       let b : Block := s.blk
       let now : Nat := b.now at_
       let t0 : Nat := 0
       b.sup.prechargeSince = some t0 ∧ t0 + 30000000 ≤ now) :=
  by decide +kernel

end Sys2Proof.Tests
end

/-! PROOFS. The scope of the block (00): what is there at reset and what no command changes. -/

namespace Sys2Proof.Machine

open Sys2Proof (Word Byte Bytes Sess Hdr Instr)

/-- The command answers a next state with the queue as it was, whose block has the parts it had. -/
def KeepsFit (o : Host.Outcome State Fault Refusal) (s : State) : Prop :=
  ∃ t : Block, o = .next { s with blk := t } ∧ t.fit = s.blk.fit

theorem lift_keepsFit (f : Block → Block) (s : State) (h : (f s.blk).fit = s.blk.fit) : KeepsFit (lift f s) s :=
  ⟨_, rfl, h⟩

/-! ### Requests -/

/-- A command with a row is a request that reaches its row's dispatch; IDENTIFY is answered without a session too. -/
theorem exec_of_row (i : Instr) (s : State) (h : Hdr) (op : OpRow) (hr : rowOf i = some (h, op))
    (hi : i ≠ .identify h) :
    ∃ d, dispatchOf i = some d ∧ exec i s = .next { s with blk := s.blk.request i h op d } := by
  cases i
  case identify => cases hr; exact absurd rfl hi
  case invalidRequest why =>
    cases why
    case reservedKind => cases hr; exact ⟨_, rfl, exec_reserved _ _ _⟩
    all_goals cases hr
  -- a command without a row is none of these
  all_goals cases hr
  all_goals exact ⟨_, rfl, rfl⟩

theorem execIdentify_keepsFit (h : Hdr) (s : State) : KeepsFit (execIdentify h s) s := by
  unfold execIdentify
  refine lift_keepsFit _ s ?_
  (repeat' split) <;> simp [Block.arriveFree_fit, Block.arrive_fit, Block.request_fit]

theorem exec_keepsFit_of_row (i : Instr) (s : State) (h : Hdr) (op : OpRow) (hr : rowOf i = some (h, op)) :
    KeepsFit (exec i s) s := by
  by_cases hi : i = .identify h
  · subst hi; exact execIdentify_keepsFit h s
  · obtain ⟨d, hd, e⟩ := exec_of_row i s h op hr hi
    exact ⟨_, e, Block.request_fit _ _ _ _ _ (dispatchOf_fit i d hd)⟩

theorem execSessionOpenHello_keepsFit (h : Hdr) (kind : Byte) (nonce : BitVec 128) (s : State) :
    KeepsFit (execSessionOpenHello h kind nonce s) s := by
  unfold execSessionOpenHello
  refine lift_keepsFit _ s ?_
  (repeat' split) <;> simp [Block.arriveFree_fit]

theorem execSessionOpenProof_keepsFit (h : Hdr) (kind : Byte) (proof : BitVec 256) (s : State) :
    KeepsFit (execSessionOpenProof h kind proof s) s := by
  unfold execSessionOpenProof
  refine lift_keepsFit _ s ?_
  (repeat' split) <;> simp [Block.arriveFree_fit]

theorem execInvalidRequest_keepsFit (h : Hdr) (why : Sys2Proof.BadRequest) (s : State) :
    KeepsFit (execInvalidRequest h why s) s := by
  refine lift_keepsFit _ s ?_
  dsimp only
  (repeat' split) <;> simp [Block.request_fit]

/-! ### Commands that reset the block or darken it -/

theorem Block.Sound.sizes {b : Block} (h : b.Sound) :
    b.eng.sizes = [16, 32, 4, 4, 128, 64, 16, 4, 2, 96, 12, 3, 8, 160, 8, 96, 2, 16, 32] := congrArg (·.2.2.2) h

theorem Block.Sound.queues {b : Block} (h : b.Sound) : b.link.queues.length = 4 := congrArg (·.2.2.1) h

/-- Hold-up leaves the engines as a cold reset does, but for the feedback inputs. -/
theorem heldUpEngines_sizes (b : Block) (h : b.Sound) (p : Power) (e : BitVec 16) (now : Nat) :
    ({ b.resetEngines true (fun _ => false) now 0 with
        pwr := p, mot := b.eng.mot.afterReset b.motorWords now, fb := b.eng.fb, alm := { epoch := e } } : Engines).sizes
      = b.eng.sizes := by
  have hs := h.sizes
  rw [hs]
  simp only [Engines.sizes, List.cons.injEq, and_true] at hs
  obtain ⟨h1, h2, h3, h4, -, -, -, -, -, h10, -, h12, -⟩ := hs
  simp only [Block.resetEngines, FieldMap.afterReset, if_true, sizes_mk, List.length_map, List.length_zipIdx,
    motors_afterReset_length, h1, h2, h3, h4, h10, h12]
  rfl

theorem execHoldUpEntry_keepsFit (lowNs : Nat) (s : State) (h : s.Sound) : KeepsFit (execHoldUpEntry lowNs s) s := by
  refine lift_keepsFit _ s ?_
  dsimp only
  split
  · rfl
  · generalize e4 : Block.saveDrained _ 0 = b4
    have e : b4.fit = s.blk.fit := by rw [← e4]; simp
    have h4 : b4.Sound := Block.sound_of_fit e h
    rw [Block.modSup_fit, fit_mk, heldUpEngines_sizes b4 h4, ← e]
    simp [Block.fit, h4.queues, Link.afterReset]

theorem execRtcAlarm_keepsFit (at_ : Nat) (s : State) (h : s.Sound) : KeepsFit (execRtcAlarm at_ s) s := by
  refine lift_keepsFit _ s ?_
  have hs : ∀ f, (s.blk.modTime f).Sound := fun f => Block.sound_of_fit (Block.modTime_fit _ f) h
  dsimp only
  (repeat' split) <;> simp [Block.dormantStart_fit, hs]

theorem execDormantWake_keepsFit (cause : Sys2Proof.DormCause) (offNs : Nat) (s : State) (h : s.Sound) :
    KeepsFit (execDormantWake cause offNs s) s := by
  refine lift_keepsFit _ s ?_
  have ht : ∀ f, (s.blk.modTime f).Sound := fun f => Block.sound_of_fit (Block.modTime_fit _ f) h
  have hp : ∀ f, (s.blk.modSup f).Sound := fun f => Block.sound_of_fit (Block.modSup_fit _ f) h
  dsimp only
  (repeat' split) <;> simp [Block.dormantStart_fit, ht, hp]

theorem execTickEdge_keepsFit (cap : Sys2Proof.Capture) (s : State) (h : s.Sound) : KeepsFit (execTickEdge cap s) s := by
  refine lift_keepsFit _ s ?_
  simp [Block.tickEdge_fit, show s.blk.Sound from h]

/-! ### Every command -/

theorem execPwmCalibration_keepsFit (tapPs at_ : Nat) (s : State) : KeepsFit (execPwmCalibration tapPs at_ s) s := by
  refine lift_keepsFit _ s ?_
  dsimp only
  (repeat' split) <;> simp [Block.modMots]

/-- No command changes the parts of a sound block. A request keeps them as its dispatch does; the commands named have
    arms that need a lemma of their own; each branch of every other arm is made of the operations of Laws/Fit.lean. -/
theorem exec_keepsFit (i : Instr) (s : State) (h : s.Sound) : KeepsFit (exec i s) s := by
  have hb : s.blk.Sound := h
  cases hr : rowOf i with
  | some x => exact exec_keepsFit_of_row i s x.1 x.2 hr
  | none =>
    cases i
    case sessionOpenHello h kind nonce => exact execSessionOpenHello_keepsFit h kind nonce s
    case sessionOpenProof h kind proof => exact execSessionOpenProof_keepsFit h kind proof s
    case invalidRequest h why => exact execInvalidRequest_keepsFit h why s
    case tickEdge cap => exact execTickEdge_keepsFit cap s h
    case dormantWake cause offNs => exact execDormantWake_keepsFit cause offNs s h
    case rtcAlarm at_ => exact execRtcAlarm_keepsFit at_ s h
    case holdUpEntry lowNs => exact execHoldUpEntry_keepsFit lowNs s h
    case pwmCalibration tapPs at_ => exact execPwmCalibration_keepsFit tapPs at_ s
    -- what is left of the requests has a row
    all_goals cases hr
    all_goals
      dsimp only [exec]
      refine lift_keepsFit _ s ?_
      try dsimp only
      (repeat' split) <;> simp [Block.resetEntry_fit, hb]

/-! ### Absent units (R1, R2) -/

/-- The marks of a table tell whether a unit of it is ABSENT; a unit outside the table counts as ABSENT. -/
theorem unit_absent_iff_mask (b : Block) (u : Nat) :
    (b.unit u).state = .absent ↔ (absentMask b.vig.units).getD u true = true := by
  simp only [Block.unit, nth, absentMask, List.getD_eq_getElem?_getD, List.getElem?_map]
  cases b.vig.units[u]? <;> simp

/-- The units that a variant lacks. -/
def LacksUnit (v : Variant) (u : Nat) : Prop := v = .p ∧ 48 ≤ u ∧ u ≤ 95 ∨ v = .s ∧ 120 ≤ u ∧ u ≤ 127

theorem resetUnits_mask (v : Variant) : ∀ u < 203, ((absentMask (resetUnits v)).getD u true = true ↔ LacksUnit v u) := by
  unfold LacksUnit
  cases v <;> decide +kernel

theorem Block.Sound.absent_iff {b : Block} (h : b.Sound) {u : Nat} (hu : u < 203) :
    (b.unit u).state = .absent ↔ LacksUnit b.ident.variant u := by
  rw [unit_absent_iff_mask, show absentMask b.vig.units = absentMask (resetUnits b.ident.variant) from
    congrArg (·.2.1) h]
  exact resetUnits_mask _ u hu

/-! ### The obligations -/

/-- Settles O4: the parts of the reset state, counted. -/
theorem resetIsSound : Obligations.ResetIsSound := by
  unfold Obligations.ResetIsSound State.Sound Block.Sound
  decide +kernel

/-- Settles O5: a step is the command at the front or nothing, and every command keeps the parts. -/
theorem everyStepKeepsTheParts : Obligations.EveryStepKeepsTheParts := by
  intro s t hs h
  unfold step at h
  split at h
  · cases h; exact ⟨hs, rfl⟩
  · next c rest _ =>
    obtain ⟨b, e, hf⟩ := exec_keepsFit c { s with pending := rest } hs
    rw [e] at h
    cases h
    exact ⟨Block.sound_of_fit hf hs, congrArg (·.1) hf⟩

/-- Settles O6: every command keeps the parts of a sound state, and a sound state's ABSENT units are those that its
    variant lacks. -/
theorem absentUnitsStayAbsent : Obligations.AbsentUnitsStayAbsent := by
  intro c s u hs hu
  obtain ⟨t, e, hf⟩ := exec_keepsFit c s hs
  have hv : t.ident.variant = s.blk.ident.variant := congrArg (·.1) hf
  refine ⟨Block.Sound.absent_iff hs hu, t, e, hv, ?_⟩
  rw [(Block.sound_of_fit hf hs).absent_iff hu, hv]
  rfl

/-! ### A read completes a fence of the other session (R356)

After every dispatch the fences in progress are brought up to date, those of the other session too: one that is due
completes then, and its final reply joins the replies kept for its session (R339). -/

/-- A V96-F at work with both sessions open, in which a COMPLETION fence of SERVICE in queue 1 is due: no request of
    SERVICE that arrived before it is left. A fence stays in this state when the last such request, itself a fence
    that waited in queue 0, is dispatched after it: `Block.fences` has then passed the later fence already. -/
def fenceDue : Block :=
  { vig := { units := resetUnits .f, starting := false }
    time := { first := false, finished := true }
    link := { main := { state := .opened, id := 7, addr := 1, port := 9 }
              service := { state := .opened, id := 8, addr := 2, port := 9 }
              portA := { up := true }
              arrivals := 2
              progress := [{ seq := 1, sess := .service
                             hdr := { session := 8, addr := 2, port := 9, len := 4, queue := 1, tag := 2 }
                             opcode := 0x001F, ends := .earlier false, holds := true }] } }

/-- A request of MAIN in queue 0 whose payload is one word. -/
def mainHdr : Hdr := { session := 7, addr := 1, port := 9, len := 4 }

theorem fenceDue_served : Served fenceDue mainHdr .main regReadRow where
  reachable := by decide +kernel
  session := by decide +kernel
  single := rfl
  running := rfl
  fresh := by decide +kernel
  noRepeat := by decide +kernel
  permitted := by decide +kernel
  queueEmpty := by decide +kernel
  length := by decide +kernel
  notHeld := by decide +kernel
  room := by decide +kernel

/-- A read by MAIN leaves SERVICE with the reply to its fence, which it did not have before. -/
theorem fenceDue_read_replies :
    fenceDue.link.service.replies = []
    ∧ (dispatchRead mainHdr regReadRow.code 0 1 .main fenceDue.link.arrivals (fenceDue.now mainHdr.at_)
        (fenceDue.taken .main mainHdr)).fences.link.service.replies.length = 1 := by
  decide +kernel

/-- Refutes O48: the other session does not stay as it was. A REG_READ by MAIN of the register at address 0 in the
    state `fenceDue` completes the fence of SERVICE, whose kept replies then hold one more. -/
theorem not_registersAreRead : ¬ Obligations.RegistersAreRead := by
  intro h
  have hr : regAt 0 = some (.DEV_ID, 0, 0) := by decide +kernel
  obtain ⟨t, ht, -, -, -, -, -, hother⟩ :=
    (((h { blk := fenceDue } mainHdr .main 0 0).1 fenceDue_served rfl).1 _ _ _ hr rfl).1
  rw [exec_served _ _ _ _ _ _ rfl rfl fenceDue_served] at ht
  injection ht with ht
  injection ht with _ ht
  obtain ⟨hbefore, hafter⟩ := fenceDue_read_replies
  have hsame : t.link.service = fenceDue.link.service := hother
  rw [← ht] at hsame
  rw [hsame, hbefore] at hafter
  exact absurd hafter (by decide)

end Sys2Proof.Machine

/-! PROOFS. The architecture of the block (01): what serving a request leaves, and the requests that act at a COMMIT. -/

namespace Sys2Proof.Machine

open Sys2Proof (Word Byte Bytes Sess Hdr Instr)

/-! ### What a request that is taken finds -/

section Taken

variable (b : Block) (k : Sess) (h : Hdr)

@[simp] theorem taken_eng : (b.taken k h).eng = b.eng := rfl
@[simp] theorem taken_vig : (b.taken k h).vig = b.vig := rfl
@[simp] theorem taken_sup : (b.taken k h).sup = b.sup := rfl
@[simp] theorem taken_posted : (b.taken k h).posted = b.posted := rfl
@[simp] theorem taken_time : (b.taken k h).time = (b.reaches h.at_).time := rfl
@[simp] theorem taken_unit (u : Nat) : (b.taken k h).unit u = b.unit u := rfl
@[simp] theorem taken_noz (n : Nat) : (b.taken k h).noz n = b.noz n := rfl
@[simp] theorem taken_mot (u : Nat) : (b.taken k h).mot u = b.mot u := rfl
@[simp] theorem taken_stagedAt : (b.taken k h).stagedAt = (b.reaches h.at_).stagedAt := rfl
@[simp] theorem taken_commitTick : (b.taken k h).commitTick = (b.reaches h.at_).commitTick := rfl
@[simp] theorem taken_nozStates (mask : BitVec 96) : (b.taken k h).nozStates mask = b.nozStates mask := rfl

/-- Serving a request leaves the transaction of each session as it was. -/
@[simp] theorem taken_txn (k' : Sess) : ((b.taken k h).link.sess k').txn = (b.link.sess k').txn := by
  cases k <;> cases k' <;> rfl

@[simp] theorem taken_sessWord (k' : Sess) (r : Reg) (i : Nat) :
    (b.taken k h).sessWord k' r i = b.sessWord k' r i := by
  cases k <;> cases k' <;> rfl

@[simp] theorem taken_isOpen (k' : Sess) : (b.taken k h).isOpen k' = b.isOpen k' := by
  cases k <;> cases k' <;> rfl

/-- The words that serving a request changes are the statistics of its queue. -/
theorem requestWords_page {a : Nat} (ha : a ∈ requestWords h) : a / 0x10000 = 3 := by
  have hq := h.queue.isLt
  simp only [requestWords, addr, desc, List.mem_cons, List.not_mem_nil, or_false] at ha
  omega

theorem taken_word {r : Reg} {i j : Nat} (hr : addr r i j / 0x10000 ≠ 3) :
    (b.taken k h).word r i j = b.word r i j :=
  taken_words b k h _ (fun hm => hr (requestWords_page h hm)) _

theorem taken_fld {r : Reg} {i : Nat} (m l : Nat) (hr : addr r i / 0x10000 ≠ 3) :
    (b.taken k h).fld r i m l = b.fld r i m l := by
  unfold Block.fld; rw [taken_word b k h hr]

@[simp] theorem taken_almMode {n : Nat} (hn : n < 96) : (b.taken k h).almMode n = b.almMode n :=
  taken_fld b k h _ _ (by simp [addr, desc]; omega)

theorem taken_hsOn {c : Nat} (hc : c < 12) : (b.taken k h).hsOn c = b.hsOn c := by
  unfold Block.hsOn
  rw [taken_fld b k h _ _ (by simp [addr, desc]; omega)]
  rfl

/-- What keeps the V96 out of a deep power state (R312) does not depend on the request. -/
@[simp] theorem taken_blocks : (b.taken k h).blocks = b.blocks := by
  have hhs : (List.range 12).any (b.taken k h).hsOn = (List.range 12).any b.hsOn := by
    rw [Bool.eq_iff_iff, List.any_eq_true, List.any_eq_true]
    simp only [List.mem_range]
    exact exists_congr fun c => and_congr_right fun hc => by rw [taken_hsOn b k h hc]
  have hpctrl : (b.taken k h).flag .DEV_PCTRL 0 3 = b.flag .DEV_PCTRL 0 3 := by
    unfold Block.flag; rw [taken_word b k h (by decide)]
  have htol : (b.taken k h).tolerates .dormant = b.tolerates .dormant := by
    simp [Block.tolerates, Block.tolerance]
  have htxn (k' : Sess) : ((b.taken k h).link.sess k').inTxn = (b.link.sess k').inTxn := by
    simp [Session.inTxn]
  have hmain : (b.taken k h).link.main.inTxn = b.link.main.inTxn := htxn .main
  have hservice : (b.taken k h).link.service.inTxn = b.link.service.inTxn := htxn .service
  simp only [Block.blocks, Block.energised, hhs, hpctrl, htol, hmain, hservice, taken_isOpen]
  rfl

end Taken

/-! ### Posting for a COMMIT -/

section Posting

variable (b : Block) (seq arrived : Nat) (k : Sess) (h : Hdr) (op : BitVec 16) (i : Instr) (st : Status)
  (payload : Bytes)

theorem posted_keeps (l : List Posted) : Keeps [.posted] b { b with posted := l } := by
  intro q hq
  cases q <;> simp_all [BlockPart.same, sessSame]

theorem postsWith_keeps :
    Keeps [.posted, .requests, .sent, .replies] b (b.postsWith seq arrived k h op i st payload) :=
  ((posted_keeps b _).mono (by simp)).trans
    (((begins_keeps _ _ _ _ _ _ _).mono (by simp)).trans ((reply_keeps _ _ _ _ _ _ _).mono (by simp)))

@[simp] theorem postsWith_regs : (b.postsWith seq arrived k h op i st payload).regs = b.regs := by
  simp [Block.postsWith]

@[simp] theorem postsWith_sent :
    (b.postsWith seq arrived k h op i st payload).link.sent
      = b.link.sent ++ answer h op st b.commitTick payload := reply_sent _ _ _ _ _ _ _

@[simp] theorem postsWith_posted :
    (b.postsWith seq arrived k h op i st payload).posted
      = b.posted ++ [{ seq := seq, sess := some k, arrived := arrived, since := b.stagedAt, act := .req i }] :=
  reply_keeps _ _ _ _ _ _ _ .posted (by simp)

@[simp] theorem fences_posted : b.fences.posted = b.posted := fences_keeps b .posted (by simp)

end Posting

/-! ### What a request that is served leaves -/

section Serving

variable {i : Instr} {s : State} {h : Hdr} {k : Sess} {op : OpRow} {d : Dispatch} {st : Status} {payload : Bytes}
  (hr : rowOf i = some (h, op)) (hd : dispatchOf i = some d) (v : Served s.blk h k op)
include hr hd v

/-- A request is served as its dispatch `t` says, the fences that end with it besides. -/
theorem serves_of_dispatch {tick : Word} {parts : List BlockPart} {words : List Nat} {P : Block → Prop} {t : Block}
    (ht : d k s.blk.link.arrivals (s.blk.now h.at_) (s.blk.taken k h) = t)
    (hkeeps : Keeps (requestParts ++ parts) (s.blk.taken k h) t) (hwords : KeepsWords words (s.blk.taken k h) t)
    (hsent : t.link.sent = s.blk.link.sent ++ answer h op.code st tick payload) (hP : P t.fences) :
    Serves i s h op.code st tick payload parts words P := by
  refine ⟨t.fences, by rw [exec_served i s h k op d hr hd v, ht], ?_, ?_, ?_, hP⟩
  · refine ((taken_keeps _ _ _).mono ?_).trans (hkeeps.trans ((fences_keeps t).mono ?_)) <;> simp [requestParts]
  · exact ((taken_words _ _ _).mono (by simp)).trans ((hwords.mono (by simp)).trans (KeepsWords.of_regs (by simp)))
  · unfold Answered
    rw [← hsent]
    exact fences_sent t

/-- A request answered at its dispatch, with nothing else done. -/
theorem serves_of_replyNow
    (ht : d k s.blk.link.arrivals (s.blk.now h.at_) (s.blk.taken k h)
      = (s.blk.taken k h).replyNow (some k) h op.code st payload) :
    Serves i s h op.code st s.blk.time.count payload [] [] (fun _ => True) :=
  serves_of_dispatch hr hd v ht ((replyNow_keeps _ _ _ _ _ _).mono (by simp [requestParts]))
    (KeepsWords.of_regs (by simp)) (by simp) trivial

/-- A request that its dispatch posts waits for the COMMIT. -/
theorem posts_of_postsWith
    (ht : d k s.blk.link.arrivals (s.blk.now h.at_) (s.blk.taken k h)
      = (s.blk.taken k h).postsWith s.blk.link.arrivals (s.blk.now h.at_) k h op.code i st payload) :
    Posts i s h op.code st payload := by
  refine serves_of_dispatch hr hd v ht ((postsWith_keeps _ _ _ _ _ _ _ _ _).mono (by simp [requestParts]))
    (KeepsWords.of_regs (by simp)) (by simp) ?_
  simp [v.session]

theorem posts_of_posts
    (ht : d k s.blk.link.arrivals (s.blk.now h.at_) (s.blk.taken k h)
      = (s.blk.taken k h).posts s.blk.link.arrivals (s.blk.now h.at_) k h op.code i) :
    Posts i s h op.code .ok [] := posts_of_postsWith hr hd v ht

end Serving

/-! ### Register accesses that are not aligned (R34) -/

theorem regAt_unaligned {a : Nat} (ha : a % 4 ≠ 0) : regAt a = none := by simp [regAt, ha]

/-- The checks of a read end at its first word where that is no register. -/
theorem readsCheck_unmapped (b : Block) {n a : Nat} (hn : 0 < n) (ha : regAt a = none) :
    b.readsCheck n a = some (.badAddress, a) := by
  cases n with
  | zero => omega
  | succ n => simp [Block.readsCheck, Block.readCheck, ha]

theorem dispatchRead_unmapped (h : Hdr) (op : BitVec 16) {address : Word} {n : Nat} (k : Sess) (seq arrived : Nat)
    (b : Block) (hn : 0 < n) (ha : regAt address.toNat = none) :
    dispatchRead h op address n k seq arrived b
      = b.replyNow (some k) h op .badAddress (addressPayload address.toNat) := by
  simp [dispatchRead, readsCheck_unmapped b hn ha]

/-- Writes whose first word is no register are refused, unless the transaction refuses them first. -/
theorem writeWords_unmapped (b : Block) (h : Hdr) (op : BitVec 16) (k : Sess) (seq arrived : Nat) {a : Nat} (v : Word)
    (ws : List (Nat × Word)) (payload : Bytes) (ht : txnRefuses (b.link.sess k).txn.state = none)
    (ha : regAt a = none) :
    b.writeWords h op k seq arrived ((a, v) :: ws) payload
      = b.replyNow (some k) h op .badAddress (addressPayload a) := by
  simp [Block.writeWords, ht, Block.writesCheck, Block.writeCheck, ha, refuseAt]

theorem dispatchModify_unmapped (h : Hdr) {address : Word} (mask value : Word) (k : Sess) (seq arrived : Nat)
    (b : Block) (ht : txnRefuses (b.link.sess k).txn.state = none) (ha : regAt address.toNat = none) :
    dispatchModify h address mask value k seq arrived b
      = b.replyNow (some k) h regModifyRow.code .badAddress (addressPayload address.toNat) := by
  simp [dispatchModify, ht, ha]

/-- Settles O47: no register stands at such an address, and the checks of each access end there. -/
theorem unalignedAccessesAreRefused : Obligations.UnalignedAccessesAreRefused := by
  refine ⟨fun a x hx => Decidable.byContradiction fun ha => ?_, ?_⟩
  · rw [regAt_unaligned ha] at hx
    cases hx
  intro s h k address value mask count values b refused unended ha
  have hnone := regAt_unaligned ha
  have htxn : unended → txnRefuses ((b.taken k h).link.sess k).txn.state = none := by simp [unended]
  refine ⟨fun v => ?_, fun v h1 h350 => ?_, fun v hu => ?_, fun v hu hv => ?_, fun v hu => ?_⟩
  · exact serves_of_replyNow (op := regReadRow) rfl rfl v (dispatchRead_unmapped _ _ _ _ _ _ Nat.one_pos hnone)
  · refine serves_of_replyNow (op := regReadBlockRow) rfl rfl v ?_
    have hcount : ¬ (count.toNat = 0 ∨ 350 < count.toNat) := by omega
    unfold dispatchReadBlock
    rw [if_neg hcount, dispatchRead_unmapped _ _ _ _ _ _ h1 hnone]
  · exact serves_of_replyNow (op := regWriteRow) rfl rfl v (writeWords_unmapped _ _ _ _ _ _ _ _ _ (htxn hu) hnone)
  · obtain ⟨w, ws, rfl⟩ := List.exists_cons_of_ne_nil hv
    exact serves_of_replyNow (op := regWriteBlockRow) rfl rfl v (writeWords_unmapped _ _ _ _ _ _ _ _ _ (htxn hu) hnone)
  · exact serves_of_replyNow (op := regModifyRow) rfl rfl v (dispatchModify_unmapped _ _ _ _ _ _ _ (htxn hu) hnone)


/-! ### The requests that act at a COMMIT (R17, R351) -/

theorem signed_toNat (x : BitVec 16) : signed 16 x.toNat = x.toInt := by
  unfold signed
  rw [BitVec.toInt_eq_toNat_cond]
  split <;> split <;> omega

theorem any_maskNozzles_false {mask : BitVec 96} {p : Nat → Bool} :
    (maskNozzles mask).any p = false ↔ ∀ n < 96, mask.getLsbD n = true → p n = false := by
  simp [maskNozzles]

theorem any_maskUnits_false {mask : BitVec 16} {p : Nat → Bool} :
    (maskUnits mask).any p = false ↔ ∀ u < 16, mask.getLsbD u = true → p u = false := by
  simp [maskUnits]

/-- No nozzle is ACTIVE. -/
theorem any_nozzleActive_false {b : Block} :
    (List.range 96).any (fun n => (b.unit (unitNoz n)).state == .active) = false
      ↔ ∀ n < 96, (b.unit (unitNoz n)).state ≠ .active := by
  simp

section Dispatches

variable {h : Hdr} {i : Instr} {k : Sess} {seq arrived : Nat} {b : Block}

theorem dispatchClockSet_posts {tai : BitVec 16} {sec : BitVec 64} {ns : Word} (hsec : sec.toNat < 2 ^ 34)
    (hns : ns.toNat ≤ 999999999) (h0 : 0 ≤ tai.toInt) (h100 : tai.toInt ≤ 100) :
    dispatchClockSet h tai sec ns i k seq arrived b = b.posts seq arrived k h clockSetRow.code i :=
  if_neg (by rw [signed_toNat]; omega)

theorem dispatchLeap_posts {sec : BitVec 64} (hday : sec.toNat % 86400 = 0)
    (hlater : stampSeconds b.time.dev b.time.taiUtc < sec.toNat) (hsec : sec.toNat < 2 ^ 32) :
    dispatchLeap h sec i k seq arrived b = b.posts seq arrived k h clockSetRow.code i :=
  if_neg (by simp [Block.leapRefused, hday]; omega)

theorem dispatchPolicy_posts {p : Sys2Proof.PowerPolicy} (halarm : b.alarmBad p = false)
    (hblocks : p.dormantNow = true → b.blocks % 64 = 0) :
    dispatchPolicy h p i k seq arrived b = b.posts seq arrived k h powerPolicyRow.code i := by
  have hbits : b.blocks &&& 63 = b.blocks % 64 := Nat.and_two_pow_sub_one_eq_mod _ 6
  have hfree : ¬ (p.dormantNow && b.blocks &&& 63 != 0) = true := by simpa [hbits] using hblocks
  unfold dispatchPolicy
  rw [if_neg (by simp [halarm]), if_neg hfree]

theorem dispatchFieldOrigin_posts {frame : BitVec 16} (hframe : frame ≠ 0)
    (hquiet : ∀ n < 96, (b.unit (unitNoz n)).state ≠ .active) :
    dispatchFieldOrigin h frame i k seq arrived b = b.posts seq arrived k h fieldOriginRow.code i := by
  unfold dispatchFieldOrigin
  rw [if_neg hframe, any_nozzleActive_false.mpr hquiet, if_neg Bool.false_ne_true]

theorem dispatchMapPolicy_posts {product policy : Byte} {tmo : BitVec 16} (hproduct : product.toNat < 2)
    (hpolicy : policy.toNat < 3) (htmo : tmo.toNat ≤ 2000) :
    dispatchMapPolicy h product policy tmo i k seq arrived b = b.posts seq arrived k h mapPolicyRow.code i :=
  if_neg (by omega)

theorem dispatchTileInvalidate_posts {scope product flags : Byte} (hscope : scope.toNat < 3)
    (hproduct : scope ≠ 2 → product.toNat < 2)
    (hquiet : k = .main → flags.getLsbD 0 = true → ∀ n < 96, (b.unit (unitNoz n)).state ≠ .active) :
    dispatchTileInvalidate h scope product flags i k seq arrived b
      = b.posts seq arrived k h tileInvalidateRow.code i := by
  have hrange : ¬ (3 ≤ scope.toNat ∨ scope ≠ 2 ∧ 2 ≤ product.toNat) := by
    rintro (g | ⟨g, g'⟩)
    · omega
    · have := hproduct g; omega
  unfold dispatchTileInvalidate
  rw [if_neg hrange, if_neg]
  rintro ⟨hk, hf, hany⟩
  rw [any_nozzleActive_false.mpr (hquiet hk hf)] at hany
  cases hany

/-- Every nozzle that the mask names is in SERVICE. -/
def InService (b : Block) (mask : BitVec 96) : Prop :=
  ∀ n < 96, mask.getLsbD n = true → (b.unit (unitNoz n)).state = .service

/-- Every nozzle that the mask names is quiet. -/
def NozzlesQuiet (b : Block) (mask : BitVec 96) : Prop :=
  ∀ n < 96, mask.getLsbD n = true → (b.noz n).isQuiet = true

theorem any_notInService {mask : BitVec 96} :
    (maskNozzles mask).any (fun n => (b.unit (unitNoz n)).state != .service) = false ↔ InService b mask := by
  rw [any_maskNozzles_false]; simp [InService]

theorem any_notQuiet {mask : BitVec 96} :
    (maskNozzles mask).any (fun n => !(b.noz n).isQuiet) = false ↔ NozzlesQuiet b mask := by
  rw [any_maskNozzles_false]; simp [NozzlesQuiet]

theorem dispatchForce_fenced {mask : BitVec 96} {start : Bool} (hout : ¬ InService b mask) :
    dispatchForce h mask start false i k seq arrived b
      = b.postsWith seq arrived k h nozzleForceRow.code i .fenced (b.nozStates mask) := by
  rw [← any_notInService, Bool.not_eq_false] at hout
  simp only [dispatchForce, hout, Bool.false_eq_true, if_false, if_true]

theorem dispatchForce_posts {mask : BitVec 96} {start : Bool} (hin : InService b mask)
    (hquiet : start = true → NozzlesQuiet b mask) :
    dispatchForce h mask start false i k seq arrived b = b.posts seq arrived k h nozzleForceRow.code i := by
  have hwait : (start && (maskNozzles mask).any (fun n => !(b.noz n).isQuiet)) = false := by
    cases start
    · rfl
    · exact any_notQuiet.mpr (hquiet rfl)
  simp only [dispatchForce, any_notInService.mpr hin, hwait, Bool.false_eq_true, if_false]

theorem dispatchForce_deferred {mask : BitVec 96} (hin : InService b mask) (hbusy : ¬ NozzlesQuiet b mask) :
    dispatchForce h mask true false i k seq arrived b
      = b.postsWith seq arrived k h nozzleForceRow.code i .deferred [] := by
  rw [← any_notQuiet, Bool.not_eq_false] at hbusy
  simp only [dispatchForce, any_notInService.mpr hin, hbusy, Bool.false_eq_true, if_false, Bool.and_self, if_true]

theorem dispatchSection_posts {command timing : Byte} {mask : BitVec 96} (hcommand : command.toNat ≤ 2)
    (htiming : timing.toNat ≤ 1)
    (hnoz : ∀ n < 96, mask.getLsbD n = true → b.almMode n = 1 ∧ (b.unit (unitNoz n)).state = .active) :
    dispatchSection h command timing mask i k seq arrived b = b.posts seq arrived k h sectionRow.code i := by
  have hmode : (maskNozzles mask).any (fun n => b.present (unitNoz n) && b.almMode n != 1) = false :=
    any_maskNozzles_false.mpr fun n hn hm => by simp [(hnoz n hn hm).1]
  have hactive : (maskNozzles mask).any (fun n => (b.unit (unitNoz n)).state != .active) = false :=
    any_maskNozzles_false.mpr fun n hn hm => by simp [(hnoz n hn hm).2]
  have hc : ¬ 2 < command.toNat := by omega
  have ht : ¬ 1 < timing.toNat := by omega
  simp [dispatchSection, hc, ht, hmode, hactive]

theorem dispatchRateTarget_posts {product flags : Byte} {scale : BitVec 16} (hproduct : product.toNat ≤ 1)
    (hscale : flags.getLsbD 1 = true → 1 ≤ scale.toNat ∧ scale.toNat ≤ 2000) :
    dispatchRateTarget h product flags scale i k seq arrived b = b.posts seq arrived k h rateTargetRow.code i := by
  refine if_neg ?_
  simp only [Bool.or_eq_true, Bool.and_eq_true, decide_eq_true_eq]
  rintro (g | ⟨g, g'⟩)
  · omega
  · have := hscale g; omega

theorem dispatchDrive_posts {d : Drive} {mask : BitVec 16} {duties : List (BitVec 16)}
    (hunits : ∀ u < 16, mask.getLsbD u = true → (b.unit (unitMot u)).state = driveState k
      ∧ (nth duties u 0).toInt.natAbs ≤ 10000)
    (hstops : d = .run → ∀ u < 16, mask.getLsbD u = true →
      (b.mot u).seq ≠ .rampDown ∧ (b.mot u).seq ≠ .brake ∧ (b.mot u).seq ≠ .fault) :
    dispatchDrive h d mask duties i k seq arrived b = b.posts seq arrived k h driveRow.code i := by
  have hduties : dutiesBad mask duties = false :=
    any_maskUnits_false.mpr fun u hu hm => by
      have := (hunits u hu hm).2
      rw [signed_toNat, decide_eq_false_iff_not]; omega
  have hstate : (maskUnits mask).any (fun u => (b.unit (unitMot u)).state != driveState k) = false :=
    any_maskUnits_false.mpr fun u hu hm => by simp [(hunits u hu hm).1]
  have hdeferred : ¬ (d = .run && (maskUnits mask).any (fun u => (b.mot u).seq == .rampDown || (b.mot u).seq == .brake
      || (b.mot u).seq == .fault)) = true := by
    simp only [Bool.and_eq_true, decide_eq_true_eq]
    rintro ⟨hd, hany⟩
    rw [any_maskUnits_false.mpr fun u hu hm => by simp [hstops hd u hu hm]] at hany
    cases hany
  unfold dispatchDrive
  simp only [hduties, hstate, Bool.false_eq_true, if_false]
  exact if_neg hdeferred

end Dispatches

section Posted

variable {s : State} {h : Hdr} {k : Sess}

theorem posts_policy {i : Instr} {p : Sys2Proof.PowerPolicy} (v : Served s.blk h k powerPolicyRow)
    (hr : rowOf i = some (h, powerPolicyRow)) (hd : dispatchOf i = some (dispatchPolicy h p i))
    (halarm : s.blk.alarmBad p = false) (hblocks : p.dormantNow = true → s.blk.blocks % 64 = 0) :
    Posts i s h powerPolicyRow.code .ok [] :=
  posts_of_posts hr hd v (dispatchPolicy_posts halarm (by rwa [taken_blocks]))

theorem posts_fieldOrigin (v : Served s.blk h k fieldOriginRow)
    (hquiet : ∀ n < 96, (s.blk.unit (unitNoz n)).state ≠ .active) {frame : BitVec 16} (lat lon alt : Word)
    (hframe : frame ≠ 0) : Posts (.fieldOrigin h frame lat lon alt) s h fieldOriginRow.code .ok [] :=
  posts_of_posts rfl rfl v (dispatchFieldOrigin_posts hframe (by simpa using hquiet))

theorem posts_tileInvalidate (v : Served s.blk h k tileInvalidateRow) {scope product flags : Byte} (tx ty : Word)
    (hscope : scope.toNat < 3) (hproduct : scope ≠ 2 → product.toNat < 2)
    (hquiet : k = .main → flags.getLsbD 0 = true → ∀ n < 96, (s.blk.unit (unitNoz n)).state ≠ .active) :
    Posts (.tileInvalidate h scope product flags tx ty) s h tileInvalidateRow.code .ok [] :=
  posts_of_posts rfl rfl v (dispatchTileInvalidate_posts hscope hproduct (by simpa using hquiet))

theorem posts_section (v : Served s.blk h k sectionRow) {command timing : Byte} {mask : BitVec 96}
    (odo : BitVec 48) (hcommand : command.toNat ≤ 2) (htiming : timing.toNat ≤ 1)
    (hnoz : ∀ n < 96, mask.getLsbD n = true → s.blk.almMode n = 1 ∧ (s.blk.unit (unitNoz n)).state = .active) :
    Posts (.sectionCommand h command timing mask odo) s h sectionRow.code .ok [] :=
  posts_of_posts rfl rfl v (dispatchSection_posts hcommand htiming (by simpa +contextual using hnoz))

/-- What a NOZZLE_FORCE with its fields in range is answered, as the states of the nozzles that it names give it. -/
theorem posts_force {i : Instr} {mask : BitVec 96} {start bad : Bool} (v : Served s.blk h k nozzleForceRow)
    (hr : rowOf i = some (h, nozzleForceRow)) (hd : dispatchOf i = some (dispatchForce h mask start bad i))
    (hbad : bad = false) :
    (InService s.blk mask → (start = true → NozzlesQuiet s.blk mask) → Posts i s h nozzleForceRow.code .ok [])
    ∧ (InService s.blk mask → start = true → ¬ NozzlesQuiet s.blk mask →
      Posts i s h nozzleForceRow.code .deferred [])
    ∧ (¬ InService s.blk mask → Posts i s h nozzleForceRow.code .fenced (s.blk.nozStates mask)) := by
  have hservice : InService (s.blk.taken k h) mask ↔ InService s.blk mask := by simp [InService]
  have hquiet : NozzlesQuiet (s.blk.taken k h) mask ↔ NozzlesQuiet s.blk mask := by simp [NozzlesQuiet]
  rw [← hservice, ← hquiet]
  subst hbad
  refine ⟨fun hin hq => posts_of_posts hr hd v (dispatchForce_posts hin hq), ?_,
    fun hout => posts_of_postsWith hr hd v (dispatchForce_fenced hout)⟩
  rintro hin rfl hbusy
  exact posts_of_postsWith hr hd v (dispatchForce_deferred hin hbusy)

theorem posts_drive {i : Instr} {d : Drive} {mask : BitVec 16} {duties : List (BitVec 16)}
    (v : Served s.blk h k driveRow) (hr : rowOf i = some (h, driveRow))
    (hd : dispatchOf i = some (dispatchDrive h d mask duties i))
    (hunits : ∀ u < 16, mask.getLsbD u = true → (s.blk.unit (unitMot u)).state = driveState k
      ∧ (nth duties u 0).toInt.natAbs ≤ 10000)
    (hstops : d = .run → ∀ u < 16, mask.getLsbD u = true →
      (s.blk.mot u).seq ≠ .rampDown ∧ (s.blk.mot u).seq ≠ .brake ∧ (s.blk.mot u).seq ≠ .fault) :
    Posts i s h driveRow.code .ok [] :=
  posts_of_posts hr hd v (dispatchDrive_posts (by simpa using hunits) (by simpa using hstops))

/-- The four NOZZLE_FORCE: those that stop nozzles wait for nothing, those that start them for the nozzles that are
    not quiet. -/
theorem posts_forces (v : Served s.blk h k nozzleForceRow) (mask : BitVec 96) {duty : BitVec 16} {ms : Word} :
    (InService s.blk mask →
      (Posts (.nozzleForceRelease h mask) s h nozzleForceRow.code .ok []
        ∧ Posts (.nozzleForceClose h mask) s h nozzleForceRow.code .ok [])
      ∧ (∀ st, (st = .ok ∧ NozzlesQuiet s.blk mask ∨ st = .deferred ∧ ¬ NozzlesQuiet s.blk mask) →
        (duty.toNat ≤ 1000 ∧ ms.toNat ≤ 600000 →
          Posts (.nozzleForceOpen h duty ms mask) s h nozzleForceRow.code st [])
        ∧ (1 ≤ ms.toNat ∧ ms.toNat ≤ 600000 → Posts (.nozzleForcePulse h ms mask) s h nozzleForceRow.code st [])))
    ∧ (¬ InService s.blk mask →
      (Posts (.nozzleForceRelease h mask) s h nozzleForceRow.code .fenced (s.blk.nozStates mask)
        ∧ Posts (.nozzleForceClose h mask) s h nozzleForceRow.code .fenced (s.blk.nozStates mask))
      ∧ (duty.toNat ≤ 1000 ∧ ms.toNat ≤ 600000 →
        Posts (.nozzleForceOpen h duty ms mask) s h nozzleForceRow.code .fenced (s.blk.nozStates mask))
      ∧ (1 ≤ ms.toNat ∧ ms.toNat ≤ 600000 →
        Posts (.nozzleForcePulse h ms mask) s h nozzleForceRow.code .fenced (s.blk.nozStates mask))) := by
  obtain ⟨hrelease, -, hreleaseOut⟩ := posts_force (i := .nozzleForceRelease h mask) v rfl rfl rfl
  obtain ⟨hclose, -, hcloseOut⟩ := posts_force (i := .nozzleForceClose h mask) v rfl rfl rfl
  have hopen (g : duty.toNat ≤ 1000 ∧ ms.toNat ≤ 600000) :=
    posts_force (i := .nozzleForceOpen h duty ms mask) v rfl rfl (by simpa [forceOpenBad] using g)
  have hpulse (g : 1 ≤ ms.toNat ∧ ms.toNat ≤ 600000) :=
    posts_force (i := .nozzleForcePulse h ms mask) v rfl rfl (by simp [forcePulseBad]; omega)
  refine ⟨fun hin => ⟨⟨hrelease hin nofun, hclose hin nofun⟩, ?_⟩,
    fun hout => ⟨⟨hreleaseOut hout, hcloseOut hout⟩, fun g => (hopen g).2.2 hout, fun g => (hpulse g).2.2 hout⟩⟩
  rintro st (⟨rfl, hq⟩ | ⟨rfl, hq⟩)
  · exact ⟨fun g => (hopen g).1 hin fun _ => hq, fun g => (hpulse g).1 hin fun _ => hq⟩
  · exact ⟨fun g => (hopen g).2.1 hin rfl hq, fun g => (hpulse g).2.1 hin rfl hq⟩

end Posted

/-- Settles O10: each dispatch finds the request in range and posts it. -/
theorem postedRequestsWaitForTheCommit : Obligations.PostedRequestsWaitForTheCommit := by
  intro s h k b quietActive
  refine ⟨fun v => ⟨fun tai sec ns h1 h2 h3 h4 => ?_, fun sec h1 h2 h3 => ⟨?_, ?_⟩, ?_⟩, fun v p hp hd => ?_,
    fun v hq frame lat lon alt hf => posts_fieldOrigin v hq lat lon alt hf, fun v product policy tmo h1 h2 h3 => ?_,
    fun v scope product flags tx ty h1 h2 h3 => posts_tileInvalidate v tx ty h1 h2 h3, ?_,
    fun v command timing mask odo h1 h2 h3 => posts_section v odo h1 h2 h3,
    fun v product flags scale target h1 h2 => ?_, fun v mask duties hu => ?_⟩
  · exact posts_of_posts (op := clockSetRow) rfl rfl v (dispatchClockSet_posts h1 h2 h3 h4)
  · exact posts_of_posts (op := clockSetRow) rfl rfl v (dispatchLeap_posts h1 h2 h3)
  · exact posts_of_posts (op := clockSetRow) rfl rfl v (dispatchLeap_posts h1 h2 h3)
  · exact posts_of_posts (op := clockSetRow) rfl rfl v rfl
  · simp only [List.forall_mem_cons, List.not_mem_nil, false_imp_iff, implies_true, and_true]
    exact ⟨posts_policy v rfl rfl hp hd, posts_policy v rfl rfl hp hd, posts_policy v rfl rfl hp hd⟩
  · exact posts_of_posts (op := mapPolicyRow) rfl rfl v (dispatchMapPolicy_posts h1 h2 h3)
  · intro v mask duty ms all inService quiet starts stops
    obtain ⟨hin, hout⟩ := posts_forces v mask (duty := duty) (ms := ms)
    simp only [starts, stops, List.forall_mem_cons, List.not_mem_nil, false_imp_iff, implies_true, and_true,
      decide_eq_true_eq]
    exact ⟨fun g => ⟨(hin g).1, fun hq => (hin g).2 .ok (.inl ⟨rfl, hq⟩), fun hq => (hin g).2 .deferred (.inr ⟨rfl, hq⟩)⟩,
      hout⟩
  · exact posts_of_posts (op := rateTargetRow) rfl rfl v (dispatchRateTarget_posts h1 h2)
  · exact ⟨posts_drive v rfl rfl hu nofun, posts_drive v rfl rfl hu nofun, posts_drive v rfl rfl hu nofun,
      fun hs => posts_drive v rfl rfl hu fun _ => hs⟩

end Sys2Proof.Machine

/-! PROOFS. The tile cache (05): coverage, poisoned frames, scrubs. -/

namespace Sys2Proof.Machine

open Sys2Proof (Word Byte Bytes Sess Hdr Instr)

/-! ### Counter fields -/

/-- A field that is set reads back what it holds of the value. -/
theorem bits_setBits_same (w : Word) {m l : Nat} (v : Nat) (hm : m < 32) :
    bits (setBits w m l v) m l = v % 2 ^ (m + 1 - l) := by
  refine Nat.eq_of_testBit_eq fun i => ?_
  simp only [bits, bitsOf, setBits, Nat.testBit_mod_two_pow, Nat.testBit_div_two_pow, BitVec.testBit_toNat,
    BitVec.getLsbD_or, BitVec.getLsbD_and, BitVec.getLsbD_not, BitVec.getLsbD_shiftLeft, BitVec.getLsbD_ofNat,
    Nat.testBit_two_pow_sub_one]
  by_cases hi : i < m + 1 - l
  · have h32 : i + l < 32 := by omega
    have h32' : i < 32 := by omega
    have hl : ¬ i + l < l := by omega
    simp only [hi, h32, h32', hl, Nat.add_sub_cancel, decide_true, decide_false, Bool.not_true, Bool.not_false,
      Bool.and_true, Bool.true_and, Bool.and_false, Bool.false_or]
  · simp only [hi, decide_false, Bool.false_and]

/-- A counter field after it has counted (R8). -/
theorem fld_count_same (b : Block) (r : Reg) (i : Nat) {m l : Nat} (n : Nat) (hm : m < 32) :
    (b.count r i m l n).fld r i m l = min (b.fld r i m l + n) (2 ^ (m + 1 - l) - 1) := by
  have hpos := Nat.two_pow_pos (m + 1 - l)
  unfold Block.count Block.setFld
  rw [Block.fld, word_setWord_same, bits_setBits_same _ _ hm]
  exact Nat.mod_eq_of_lt (by omega)

theorem fld_congr {b t : Block} {r : Reg} {i : Nat} (m l : Nat) (h : t.word r i = b.word r i) :
    t.fld r i m l = b.fld r i m l := by unfold Block.fld; rw [h]

/-! ### The frames of the tile cache -/

section FrameTable

variable (b : Block)

theorem frame_congr {b t : Block} (h : t.eng.map.frames = b.eng.map.frames) (f : Nat) : t.frame f = b.frame f := by
  unfold Block.frame; rw [h]

theorem modMap_keeps (g : FieldMap → FieldMap) : Keeps [.map] b (b.modMap g) := by
  intro q hq
  cases q <;> simp_all [BlockPart.same, sessSame, Block.modMap]

theorem modFrame_keeps (f : Nat) (g : Frame → Frame) : Keeps [.map] b (b.modFrame f g) := modMap_keeps _ _

theorem modMap_words (l : List Nat) (g : FieldMap → FieldMap) : KeepsWords l b (b.modMap g) := KeepsWords.of_regs rfl

theorem modFrame_words (l : List Nat) (f : Nat) (g : Frame → Frame) : KeepsWords l b (b.modFrame f g) :=
  modMap_words _ _ _

theorem frame_modFrame_same {f : Nat} (g : Frame → Frame) (hf : f < b.eng.map.frames.length) :
    (b.modFrame f g).frame f = g (b.frame f) := by
  simp [Block.frame, nth, modNth, hf]

theorem keepsRows_modNth {α : Type} (i : Nat) (l : List α) (g : α → α) : KeepsRows i l (modNth l i g) := by
  intro j hj
  simp [modNth, Ne.symm hj]

/-- Changing one frame leaves every other as it was. -/
theorem modFrame_keepsRows (f : Nat) (g : Frame → Frame) :
    KeepsRows f b.eng.map.frames (b.modFrame f g).eng.map.frames := keepsRows_modNth _ _ _

/-- A frame found is in the table and is what was looked for. -/
theorem findFrame_some {p : Frame → Bool} {f : Nat} (h : b.findFrame p = some f) :
    f < b.eng.map.frames.length ∧ p (b.frame f) = true := by
  simp only [Block.findFrame] at h
  split at h
  · next hlt =>
    cases h
    exact ⟨hlt, by simpa [Block.frame, nth, hlt] using List.findIdx_getElem (w := hlt)⟩
  · cases h

theorem findFrame_none {p : Frame → Bool} : b.findFrame p = none ↔ ∀ x ∈ b.eng.map.frames, p x = false := by
  simp [Block.findFrame, List.findIdx_lt_length]

/-- A change that fits no frame into a search leaves a search that fails failing. -/
theorem findFrame_modFrame_none {p : Frame → Bool} {f : Nat} {g : Frame → Frame} (h : b.findFrame p = none)
    (hg : ∀ x, p x = false → p (g x) = false) : (b.modFrame f g).findFrame p = none := by
  rw [findFrame_none] at h ⊢
  intro x hx
  obtain ⟨j, hj, rfl⟩ := List.mem_iff_getElem.mp hx
  simp only [modFrame_own, modNth, List.length_modify] at hj
  simp only [modFrame_own, modNth, List.getElem_modify]
  split
  · exact hg _ (h _ (List.getElem_mem _))
  · exact h _ (List.getElem_mem _)

/-- A change that makes no frame FILLING begins no fill. -/
theorem fillOf_modFrame_none {key : Key} {f : Nat} {g : Frame → Frame} (h : b.fillOf key = none)
    (hg : ∀ x, (g x).state = .filling → x.state = .filling) (hkey : ∀ x, (g x).key = x.key) :
    (b.modFrame f g).fillOf key = none := by
  unfold Block.fillOf at h ⊢
  refine findFrame_modFrame_none b h fun x hx => ?_
  rw [Bool.eq_false_iff] at hx ⊢
  intro h'
  simp only [Bool.and_eq_true, beq_iff_eq, hkey, ne_eq] at h' hx
  exact hx ⟨hg x h'.1, h'.2⟩

end FrameTable

/-! ### The write of a cell (R154) -/

theorem raiseCell_valid {x : Frame} (cell : Nat) (seq : Word) (now : Nat) (h : x.state = .valid) :
    x.raiseCell cell seq now = { x with
      cells := x.cells.modify cell raiseCov, seq := seqMax seq x.seq, raised := x.raised + 1
      raisedNew := x.raisedNew + 1, state := .dirty, since := now, wanted := false } := by
  simp only [Frame.raiseCell, h]

theorem raiseCell_dirty {x : Frame} (cell : Nat) (seq : Word) (now : Nat) (h : x.state = .dirty) :
    x.raiseCell cell seq now = { x with
      cells := x.cells.modify cell raiseCov, seq := seqMax seq x.seq, raised := x.raised + 1
      raisedNew := x.raisedNew + 1 } := by
  simp only [Frame.raiseCell, h]

theorem raiseCell_writingBack {x : Frame} (cell : Nat) (seq : Word) (now : Nat) (h : x.state = .writingBack) :
    x.raiseCell cell seq now = { x with
      cells := x.cells.modify cell raiseCov, seq := seqMax seq x.seq, raised := x.raised + 1
      raisedNew := x.raisedNew + 1, redirty := true } := by
  simp only [Frame.raiseCell, h]

/-- No write of a cell makes a frame FILLING. -/
theorem raiseCell_filling {x : Frame} (cell : Nat) (seq : Word) (now : Nat)
    (h : (x.raiseCell cell seq now).state = .filling) : x.state = .filling := by
  unfold Frame.raiseCell at h
  split at h <;> simp_all

@[simp] theorem raiseCell_key (x : Frame) (cell : Nat) (seq : Word) (now : Nat) :
    (x.raiseCell cell seq now).key = x.key := by
  unfold Frame.raiseCell
  split <;> rfl

section WriteCell

variable (b : Block) (seg : Segment) (c : Int × Int) (at_ : Nat)

theorem endFill_keeps (f : Nat) (event : Bool) : Keeps (.map :: eventParts) b (b.endFill f event at_) := by
  have hcount : Keeps (.map :: eventParts) b ((b.modFrame f (fun _ => {})).count .MAP_CNT_FILL 0 7 0) :=
    ((modFrame_keeps _ _ _).mono (by simp)).trans ((count_keeps _ _ _ _ _ _).mono (by simp))
  unfold Block.endFill
  dsimp only
  split
  · exact hcount.trans ((raise_keeps _ _ _ _ _ _).mono (by simp))
  · exact hcount

theorem endFill_words (f : Nat) (event : Bool) :
    KeepsWords (addr .MAP_CNT_FILL :: eventWords [56]) b (b.endFill f event at_) := by
  have hcount : KeepsWords (addr .MAP_CNT_FILL :: eventWords [56]) b
      ((b.modFrame f (fun _ => {})).count .MAP_CNT_FILL 0 7 0) :=
    (modFrame_words _ _ _ _).trans ((count_words _ _ _ _ _ _).mono (by simp))
  unfold Block.endFill
  dsimp only
  split
  · exact hcount.trans ((raise_words _ _ _ _ _ _).mono (by simp))
  · exact hcount

theorem abandonFill_keeps (f : Nat) (event : Bool) : Keeps (.map :: eventParts) b (b.abandonFill f event at_) :=
  (endFill_keeps _ _ _ _).trans ((modMap_keeps _ _).mono (by simp))

theorem abandonFill_words (f : Nat) (event : Bool) :
    KeepsWords (addr .MAP_CNT_FILL :: eventWords [56]) b (b.abandonFill f event at_) :=
  (endFill_words _ _ _ _).trans (modMap_words _ _ _)

theorem logReplay_keeps (r : Replay) : Keeps [.map] b (b.logReplay r) := by
  have hfull (g : FieldMap → FieldMap) : Keeps [.map] b ((b.modMap g).count .MAP_CNT_COV 0 31 16) :=
    (modMap_keeps _ _).trans ((count_keeps _ _ _ _ _ _).mono (by simp))
  unfold Block.logReplay
  split
  · split
    · dsimp only
      split
      · exact (hfull _).trans (modFrame_keeps _ _ _)
      · exact hfull _
    · exact modMap_keeps _ _
  · exact modMap_keeps _ _

theorem logReplay_words (r : Replay) : KeepsWords [addr .MAP_CNT_COV] b (b.logReplay r) := by
  have hfull (g : FieldMap → FieldMap) :
      KeepsWords [addr .MAP_CNT_COV] b ((b.modMap g).count .MAP_CNT_COV 0 31 16) :=
    (modMap_words _ _ _).trans (count_words _ _ _ _ _ _)
  unfold Block.logReplay
  split
  · split
    · dsimp only
      split
      · exact (hfull _).trans (modFrame_words _ _ _ _)
      · exact hfull _
    · exact modMap_words _ _ _
  · exact modMap_words _ _ _

/-- While the log has room an entry goes to its end. -/
theorem logReplay_room {r : Replay} (h : b.eng.map.replay.length < 4096) :
    b.logReplay r = b.modMap (fun m => { m with replay := b.eng.map.replay ++ [r] }) := by
  unfold Block.logReplay
  split
  · next old rest e =>
    rw [e, List.length_cons] at h
    rw [if_neg (by omega)]
    simp [Block.modMap, e]
  · next e => simp [Block.modMap, e]

/-- The parts and the words that the write of a cell may change. -/
theorem writeCell_keeps : Keeps (.map :: eventParts) b (b.writeCell seg c at_) := by
  have hframe (f : Nat) (g : Frame → Frame) (b : Block) : Keeps (.map :: eventParts) b (b.modFrame f g) :=
    (modFrame_keeps _ _ _).mono (by simp)
  unfold Block.writeCell
  dsimp only
  split
  · split
    · split
      · exact (hframe _ _ _).trans ((abandonFill_keeps _ _ _ _).trans (hframe _ _ _))
      · exact hframe _ _ _
    · exact hframe _ _ _
  · split
    · exact (logReplay_keeps _ _).mono (by simp)
    · exact (count_keeps _ _ _ _ _ _).mono (by simp)

theorem writeCell_words :
    KeepsWords (addr .MAP_CNT_FILL :: addr .MAP_CNT_COV :: eventWords [56]) b (b.writeCell seg c at_) := by
  unfold Block.writeCell
  dsimp only
  split
  · split
    · split
      · exact (modFrame_words _ _ _ _).trans
          (((abandonFill_words _ _ _ _).mono (by simp)).trans (modFrame_words _ _ _ _))
      · exact modFrame_words _ _ _ _
    · exact modFrame_words _ _ _ _
  · split
    · exact (logReplay_words _ _).mono (by simp)
    · exact (count_words _ _ _ _ _ _).mono (by simp)

variable {b seg c at_} {key : Key} {cell : Nat}

/-- Coverage of a frame that is in the cache: where it was VALID no fill of its key ends with it. -/
theorem writeCell_covered {f : Nat} (hplace : cellPlace (b.prodFid seg.prod) c = (key, cell))
    (hcover : b.coverOf key = some f) (hfill : (b.frame f).state = .valid → b.fillOf key = none) :
    b.writeCell seg c at_ = b.modFrame f (fun x => x.raiseCell cell seg.seq (b.now at_)) := by
  simp only [Block.writeCell, hplace, hcover]
  split
  · next hvalid =>
    have hnone : (b.modFrame f (fun x => x.raiseCell cell seg.seq (b.now at_))).fillOf key = none :=
      fillOf_modFrame_none b (hfill (beq_iff_eq.mp hvalid)) (fun x => raiseCell_filling _ _ _)
        (fun x => raiseCell_key _ _ _ _)
    rw [hnone]
  · rfl

theorem writeCell_logged (hplace : cellPlace (b.prodFid seg.prod) c = (key, cell)) (hcover : b.coverOf key = none)
    (hout : (b.fillOf key).isSome ∨ (b.faultOf key).isSome) (hroom : b.eng.map.replay.length < 4096) :
    b.writeCell seg c at_ = b.modMap (fun m => { m with
      replay := b.eng.map.replay ++ [{ prod := seg.prod, key := key, cell := cell, seq := seg.seq }] }) := by
  have hout' : ((b.fillOf key).isSome || (b.faultOf key).isSome) = true := by simpa using hout
  simp only [Block.writeCell, hplace, hcover, hout', if_true]
  exact logReplay_room b hroom

theorem writeCell_lost (hplace : cellPlace (b.prodFid seg.prod) c = (key, cell)) (hcover : b.coverOf key = none)
    (hfill : b.fillOf key = none) (hfault : b.faultOf key = none) :
    b.writeCell seg c at_ = b.count .MAP_CNT_COV 0 15 0 := by
  simp [Block.writeCell, hplace, hcover, hfill, hfault]

end WriteCell

/-! ### COVERAGE_WRITE (R18, R155) -/

section CoverageWrite

variable {s : State} {at_ : Nat}

theorem walkerBusy_iff : walkerBusy at_ = true ↔ 20000 ≤ at_ ∧ at_ < 72000 := by
  simp [walkerBusy, closeNs]

theorem exec_coverageWrite_busy (h : 20000 ≤ at_ ∧ at_ < 72000) : exec (.coverageWrite at_) s = .next s := by
  show execCoverageWrite at_ s = _
  simp [execCoverageWrite, lift, walkerBusy_iff.mpr h]

theorem exec_coverageWrite (h : at_ < 20000 ∨ 72000 ≤ at_) :
    exec (.coverageWrite at_) s = .next { s with blk := (s.blk.lookAhead at_).coverNext at_ } := by
  have hfree : walkerBusy at_ = false := by
    rw [Bool.eq_false_iff, Ne, walkerBusy_iff]; omega
  show execCoverageWrite at_ s = _
  simp [execCoverageWrite, lift, hfree]

/-- Before 20 us, and with no ALMANAC phase due, nothing runs ahead. -/
theorem lookAhead_none (b : Block) (h : at_ < 20000 ∨ b.eng.alm.due = 0) : b.lookAhead at_ = b := by
  rcases h with h | h <;> simp [Block.lookAhead, h]

theorem coverNext_cons {b : Block} {seg : Segment} {rest : List Segment} (h : b.eng.map.queue = seg :: rest) :
    b.coverNext at_ = (seg.cells (b.cellMm seg.prod)).foldl (fun acc c => acc.writeCell seg c at_)
      (b.modMap (fun m => { m with queue := rest })) := by
  simp only [Block.coverNext, h]

/-- What COVERAGE_WRITE does with the oldest segment, once the ALMANAC phase is over. -/
theorem exec_coverageWrite_segment {seg : Segment} {rest : List Segment} (hqueue : s.blk.eng.map.queue = seg :: rest)
    (h : at_ < 20000 ∨ 72000 ≤ at_ ∧ s.blk.eng.alm.due = 0) :
    exec (.coverageWrite at_) s = .next { s with
      blk := (seg.cells (s.blk.cellMm seg.prod)).foldl (fun acc c => acc.writeCell seg c at_)
        (s.blk.modMap (fun m => { m with queue := rest })) } := by
  rw [exec_coverageWrite (by omega), lookAhead_none _ (by omega), coverNext_cons hqueue]

end CoverageWrite

/-! ### TILE_FAULT sent again (R146, R159) -/

section ResendFault

variable (b : Block)

theorem sendOwn_keeps (k : Sess) (op : BitVec 16) (q : Fin 4) (payload : Bytes) (at_ : Nat) :
    Keeps [.sent] b (b.sendOwn k op q payload at_) := by
  have hown (b : Block) (f : Session → BitVec 16) :
      Keeps [.sent] b (b.modSess k (fun s => { s with ownSeq := f s })) := by
    intro q hq
    cases k <;> cases q <;> simp_all [BlockPart.same, sessSame, Block.modSess, Link.modSess]
  unfold Block.sendOwn
  dsimp only
  split
  · exact (send_keeps _ _ _).trans (hown _ _)
  · exact Keeps.refl _ _

@[simp] theorem sendOwn_regs (k : Sess) (op : BitVec 16) (q : Fin 4) (payload : Bytes) (at_ : Nat) :
    (b.sendOwn k op q payload at_).regs = b.regs := by
  unfold Block.sendOwn
  dsimp only
  split <;> rfl

@[simp] theorem sendOwn_eng (k : Sess) (op : BitVec 16) (q : Fin 4) (payload : Bytes) (at_ : Nat) :
    (b.sendOwn k op q payload at_).eng = b.eng := by
  unfold Block.sendOwn
  dsimp only
  split <;> rfl

theorem resendFault_keeps (key : Key) (at_ : Nat) : Keeps [.map, .sent] b (b.resendFault key at_) := by
  unfold Block.resendFault
  split
  · unfold Block.sendFault
    split
    · exact Keeps.refl _ _
    · exact ((sendOwn_keeps _ _ _ _ _ _).mono (by simp)).trans ((modMap_keeps _ _).mono (by simp))
  · exact Keeps.refl _ _

@[simp] theorem resendFault_regs (key : Key) (at_ : Nat) : (b.resendFault key at_).regs = b.regs := by
  unfold Block.resendFault
  split
  · unfold Block.sendFault
    split <;> simp
  · rfl

@[simp] theorem resendFault_frames (key : Key) (at_ : Nat) :
    (b.resendFault key at_).eng.map.frames = b.eng.map.frames := by
  unfold Block.resendFault
  split
  · unfold Block.sendFault
    split <;> simp
  · rfl

end ResendFault

/-! ### Poisoned frames (R143, R159) -/

/-- What it means that the cells of frame `f` are lost: it is POISONED and in no TLB entry, and its key is lost with
    the sequence number last acknowledged. -/
structure CellsLost (b t : Block) (f : Nat) : Prop where
  frame : t.frame f = { state := .poisoned, prod := (b.frame f).prod, key := (b.frame f).key, age := (b.frame f).age
                        seq := (b.frame f).seq }
  tlb : ∀ e ∈ t.eng.map.tlb, e.valid = true → e.frame ≠ f
  lost : (b.frame f).retired = none → t.eng.map.lost = ((b.frame f).key, (b.frame f).ackSeq) :: b.eng.map.lost
  rows : KeepsRows f b.eng.map.frames t.eng.map.frames

theorem CellsLost.of_eng {b t t' : Block} {f : Nat} (h : CellsLost b t f) (e : t'.eng = t.eng) : CellsLost b t' f where
  frame := by
    rw [← h.frame]
    exact frame_congr (by rw [e]) f
  tlb := by rw [e]; exact h.tlb
  lost := by rw [e]; exact h.lost
  rows := by rw [e]; exact h.rows

/-- What a raise of an event counts on a block with the same count counts on both. -/
theorem Raised.of_word {source : Nat} {b b1 t : Block} (h : Raised source b1 t)
    (hw : b1.word .EVT_CNT source = b.word .EVT_CNT source) : Raised source b t := by
  unfold Raised at *
  rw [h, hw]

theorem word_of_regs {b t : Block} (h : t.regs = b.regs) (r : Reg) (i j : Nat) : t.word r i j = b.word r i j := by
  unfold Block.word; rw [h]

section Poison

variable {b : Block} {f at_ : Nat}

/-- Frame `f` with its cells lost: POISONED, in no TLB entry, and no writeback in flight is its own. -/
def Block.losesCells (b : Block) (f : Nat) : Block :=
  let x := b.frame f
  (b.modFrame f (fun _ => { state := .poisoned, prod := x.prod, key := x.key, age := x.age, seq := x.seq })).modMap
    (fun m => { m with
      tlb := m.tlb.map (fun t => if t.frame == f then {} else t)
      lost := if x.retired.isSome then m.lost else (x.key, x.ackSeq) :: m.lost
      buffers := m.buffers.map (fun w => match w with
        | some v => some (if v.frame = some f then { v with frame := none } else v)
        | none => none) })

/-- Frame `f` with its fill ended by an error, and the fill counted. -/
def Block.endsPoisoned (b : Block) (f : Nat) : Block :=
  let x := b.frame f
  ((b.modFrame f (fun _ => { state := .poisoned, prod := x.prod, key := x.key, age := x.age })).count
    .MAP_CNT_FILL 0 7 0).dropReplay x.key

/-- A frame with cells is poisoned: its cells are lost, with event 58. -/
theorem poison_cells
    (hx : (b.frame f).state = .valid ∨ (b.frame f).state = .dirty ∨ (b.frame f).state = .writingBack) :
    b.poison f at_ = (b.losesCells f).raise 58 1
      (keyPayload (b.frame f).prod (b.frame f).key (b.frame f).seq) at_ := by
  unfold Block.poison
  dsimp only
  rcases hx with e | e | e <;> rw [e] <;> rfl

/-- A frame that is being filled is poisoned: the fill ends, with event 58, and an outstanding fault is sent again. -/
theorem poison_filling (hx : (b.frame f).state = .filling) :
    b.poison f at_ = ((b.endsPoisoned f).raise 58 1
      (keyPayload (b.frame f).prod (b.frame f).key seqNone) at_).resendFault (b.frame f).key at_ := by
  unfold Block.poison
  dsimp only
  rw [hx]
  rfl

theorem losesCells_keeps : Keeps [.map] b (b.losesCells f) := (modFrame_keeps _ _ _).trans (modMap_keeps _ _)

theorem losesCells_cellsLost (hf : f < b.eng.map.frames.length) : CellsLost b (b.losesCells f) f where
  frame := frame_modFrame_same b _ hf
  tlb := by
    intro e he hvalid
    simp only [Block.losesCells, modMap_own, List.mem_map] at he
    obtain ⟨e', -, rfl⟩ := he
    split at hvalid
    · cases hvalid
    · next hne => rw [if_neg hne]; simpa using hne
  lost := by
    intro hretired
    simp [Block.losesCells, hretired]
  rows := modFrame_keepsRows b f _

theorem endsPoisoned_keeps : Keeps [.map] b (b.endsPoisoned f) :=
  (modFrame_keeps _ _ _).trans (((count_keeps _ _ _ _ _ _).mono (by simp)).trans (modMap_keeps _ _))

theorem endsPoisoned_words : KeepsWords [addr .MAP_CNT_FILL] b (b.endsPoisoned f) :=
  (modFrame_words _ _ _ _).trans ((count_words _ _ _ _ _ _).trans (modMap_words _ _ _))

theorem endsPoisoned_fld : (b.endsPoisoned f).fld .MAP_CNT_FILL 0 7 0 = min (b.fld .MAP_CNT_FILL 0 7 0 + 1) 255 :=
  fld_count_same (b.modFrame f _) .MAP_CNT_FILL 0 1 (by omega)

theorem poison_free (hx : (b.frame f).state = .free) : b.poison f at_ = b := by
  simp only [Block.poison, hx]

end Poison

/-! ### FRAME_SCRUB and uncorrectable errors -/

/-- A command that answers the state it was given. -/
theorem does_nothing {i : Instr} {s : State} (h : exec i s = .next s) : Does i s [] [] (fun t => t = s.blk) :=
  ⟨s.blk, h, Keeps.refl _ _, KeepsWords.refl _ _, rfl⟩

section Scrub

variable {s : State} {f : Fin 128} {at_ : Nat}

theorem Block.Sound.frames_length {b : Block} (h : b.Sound) : b.eng.map.frames.length = 128 := by
  have hsizes := h.sizes
  simp only [Engines.sizes, List.cons.injEq] at hsizes
  obtain ⟨-, -, -, -, hframes, -⟩ := hsizes
  exact hframes

theorem exec_frameScrub_dead {good : Bool} (hx : (s.blk.frame f).state = .poisoned)
    (hdead : (s.blk.frame f).dead = true) : exec (.frameScrub f good at_) s = .next s := by
  show execFrameScrub f good at_ s = _
  simp [execFrameScrub, lift, hx, hdead]

theorem exec_frameScrub_good (hx : (s.blk.frame f).state ≠ .poisoned) :
    exec (.frameScrub f true at_) s = .next s := by
  show execFrameScrub f true at_ s = _
  simp [execFrameScrub, lift, hx]

theorem exec_frameScrub_bad (hx : (s.blk.frame f).state ≠ .poisoned) :
    exec (.frameScrub f false at_) s = .next { s with blk := s.blk.poison f at_ } := by
  show execFrameScrub f false at_ s = _
  simp [execFrameScrub, lift, hx]

theorem exec_frameScrub_frees (hx : (s.blk.frame f).state = .poisoned) (hdead : (s.blk.frame f).dead = false) :
    exec (.frameScrub f true at_) s = .next { s with blk := s.blk.modFrame f (fun _ => {}) } := by
  show execFrameScrub f true at_ s = _
  simp [execFrameScrub, lift, hx, hdead]

theorem exec_frameScrub_kills (hx : (s.blk.frame f).state = .poisoned) (hdead : (s.blk.frame f).dead = false) :
    exec (.frameScrub f false at_) s = .next { s with
      blk := (s.blk.modFrame f (fun x => { x with dead := true })).raise 58 1
        (keyPayload (s.blk.frame f).prod (s.blk.frame f).key seqNone) at_ } := by
  show execFrameScrub f false at_ s = _
  simp [execFrameScrub, lift, hx, hdead]

theorem exec_eccUncorrectable_tile (hp : s.blk.powered = true) :
    exec (.eccUncorrectable (.tileCache f)) s = .next { s with blk := s.blk.poison f 0 } := by
  show execEccUncorrectable (.tileCache f) s = _
  simp [execEccUncorrectable, lift, hp]

/-- A command that poisons a frame with cells loses them, with event 58. -/
theorem does_poison_cells {i : Instr} (hf : f.val < s.blk.eng.map.frames.length)
    (hx : (s.blk.frame f).state = .valid ∨ (s.blk.frame f).state = .dirty ∨ (s.blk.frame f).state = .writingBack)
    (hi : exec i s = .next { s with blk := s.blk.poison f at_ }) :
    Does i s (.map :: eventParts) (eventWords [58]) (fun t => Raised 58 s.blk t ∧ CellsLost s.blk t f) := by
  rw [poison_cells hx] at hi
  refine ⟨_, hi, ?_, ?_, ?_, (losesCells_cellsLost hf).of_eng (raise_eng _ _ _ _ _ _)⟩
  · exact (losesCells_keeps.mono (by simp)).trans ((raise_keeps _ _ _ _ _ _).mono (by simp))
  · exact (KeepsWords.of_regs (b := s.blk.losesCells f) rfl).trans (raise_words _ _ _ _ _ _)
  · exact (raise_raised (s.blk.losesCells f) _ _ _ _ _ (by omega)).of_word (word_of_regs rfl _ _ _)

/-- A scrub that finds an error ends a fill. -/
theorem does_scrub_filling (hf : f.val < s.blk.eng.map.frames.length) (hx : (s.blk.frame f).state = .filling) :
    Does (.frameScrub f false at_) s (.map :: .sent :: eventParts) (addr .MAP_CNT_FILL :: eventWords [58]) (fun t =>
      Raised 58 s.blk t
        ∧ t.frame f = { state := .poisoned, prod := (s.blk.frame f).prod, key := (s.blk.frame f).key
                        age := (s.blk.frame f).age }
        ∧ t.fld .MAP_CNT_FILL 0 7 0 = min (s.blk.fld .MAP_CNT_FILL 0 7 0 + 1) 255
        ∧ KeepsRows f.val s.blk.eng.map.frames t.eng.map.frames) := by
  have hi := exec_frameScrub_bad (s := s) (f := f) (at_ := at_) (by simp [hx])
  rw [poison_filling hx] at hi
  generalize keyPayload (s.blk.frame f).prod (s.blk.frame f).key seqNone = p at hi
  have hcount : (s.blk.endsPoisoned f).word .EVT_CNT 58 = s.blk.word .EVT_CNT 58 :=
    endsPoisoned_words _ (by decide) _
  have hfill : ((s.blk.endsPoisoned f).raise 58 1 p at_).word .MAP_CNT_FILL
      = (s.blk.endsPoisoned f).word .MAP_CNT_FILL := raise_word _ _ _ _ _ _ _ _ _ (by decide)
  have hframes : (((s.blk.endsPoisoned f).raise 58 1 p at_).resendFault (s.blk.frame f).key at_).eng.map.frames
      = (s.blk.endsPoisoned f).eng.map.frames := by simp
  refine ⟨_, hi, ?_, ?_, ?_, ?_, ?_, ?_⟩
  · exact (endsPoisoned_keeps.mono (by simp)).trans (((raise_keeps _ _ _ _ _ _).mono (by simp [eventParts])).trans
      ((resendFault_keeps _ _ _).mono (by simp)))
  · exact (endsPoisoned_words.mono (by simp)).trans (((raise_words _ _ _ _ _ _).mono (by simp)).trans
      (KeepsWords.of_regs (resendFault_regs _ _ _)))
  · exact raised_of_regs _ ((raise_raised (s.blk.endsPoisoned f) _ _ p at_ _ (by omega)).of_word hcount)
      (resendFault_regs _ _ _)
  · rw [frame_congr hframes]
    exact frame_modFrame_same s.blk _ hf
  · rw [← endsPoisoned_fld]
    exact fld_congr _ _ ((word_of_regs (resendFault_regs _ _ _) _ _ _).trans hfill)
  · rw [hframes]
    exact modFrame_keepsRows s.blk f _

/-- A scrub that fails leaves its frame POISONED until a cold reset. -/
theorem does_scrub_kills (hf : f.val < s.blk.eng.map.frames.length) (hx : (s.blk.frame f).state = .poisoned)
    (hdead : (s.blk.frame f).dead = false) :
    Does (.frameScrub f false at_) s (.map :: eventParts) (eventWords [58]) (fun t =>
      Raised 58 s.blk t ∧ t.frame f = { s.blk.frame f with dead := true }
        ∧ KeepsRows f.val s.blk.eng.map.frames t.eng.map.frames) := by
  refine ⟨_, exec_frameScrub_kills hx hdead, ?_, ?_, ?_, ?_, ?_⟩
  · exact ((modFrame_keeps _ _ _).mono (by simp)).trans ((raise_keeps _ _ _ _ _ _).mono (by simp))
  · exact (modFrame_words _ _ _ _).trans (raise_words _ _ _ _ _ _)
  · exact (raise_raised _ _ _ _ _ _ (by omega)).of_word (word_of_regs rfl _ _ _)
  · rw [frame_congr (b := s.blk.modFrame f (fun x => { x with dead := true })) (by rw [raise_eng])]
    exact frame_modFrame_same _ _ hf
  · rw [raise_eng]
    exact modFrame_keepsRows _ _ _

theorem does_scrub_frees (hf : f.val < s.blk.eng.map.frames.length) (hx : (s.blk.frame f).state = .poisoned)
    (hdead : (s.blk.frame f).dead = false) :
    Does (.frameScrub f true at_) s [.map] [] (fun t =>
      t.frame f = {} ∧ { t.eng.map with frames := s.blk.eng.map.frames } = s.blk.eng.map
        ∧ KeepsRows f.val s.blk.eng.map.frames t.eng.map.frames) :=
  ⟨_, exec_frameScrub_frees hx hdead, modFrame_keeps _ _ _, modFrame_words _ _ _ _, frame_modFrame_same _ _ hf, rfl,
    modFrame_keepsRows _ _ _⟩

end Scrub

/-! ### The obligation -/

/-- The oldest segment is written: the cells it covers, one after the other. -/
theorem does_coverageWrite {s : State} {at_ : Nat} {seg : Segment} {rest : List Segment}
    (hqueue : s.blk.eng.map.queue = seg :: rest) (h : at_ < 20000 ∨ 72000 ≤ at_ ∧ s.blk.eng.alm.due = 0) :
    Does (.coverageWrite at_) s (.map :: eventParts) (addr .MAP_CNT_FILL :: addr .MAP_CNT_COV :: eventWords [56])
      (fun t => t = (seg.cells (s.blk.cellMm seg.prod)).foldl (fun acc c => acc.writeCell seg c at_)
        (s.blk.modMap (fun m => { m with queue := rest }))) :=
  ⟨_, exec_coverageWrite_segment hqueue h,
    ((modMap_keeps _ _).mono (by simp)).trans (keeps_foldl _ _ _ _ fun b c => writeCell_keeps b seg c at_),
    (modMap_words _ _ _).trans (keepsWords_foldl _ _ _ _ fun b c => writeCell_words b seg c at_), rfl⟩

/-- A segment that covers one cell of a DIRTY frame raises that cell and nothing else. -/
theorem does_coverageWrite_dirty {s : State} {at_ : Nat} {seg : Segment} {rest : List Segment} {c : Int × Int}
    {f : Nat} (hqueue : s.blk.eng.map.queue = seg :: rest) (h : at_ < 20000 ∨ 72000 ≤ at_ ∧ s.blk.eng.alm.due = 0)
    (hcells : seg.cells (s.blk.cellMm seg.prod) = [c])
    (hcover : s.blk.coverOf (cellPlace (s.blk.prodFid seg.prod) c).1 = some f)
    (hdirty : (s.blk.frame f).state = .dirty) :
    Does (.coverageWrite at_) s [.map] [] (fun t =>
      t.frame f = (s.blk.frame f).raiseCell (cellPlace (s.blk.prodFid seg.prod) c).2 seg.seq (s.blk.now at_)
        ∧ t.eng.map.queue = rest ∧ KeepsRows f s.blk.eng.map.frames t.eng.map.frames) := by
  have hcell : (s.blk.modMap (fun m => { m with queue := rest })).writeCell seg c at_ = _ :=
    writeCell_covered (key := (cellPlace (s.blk.prodFid seg.prod) c).1)
      (cell := (cellPlace (s.blk.prodFid seg.prod) c).2) rfl hcover
      (fun hv => absurd (hdirty.symm.trans hv) (by decide))
  have hi := exec_coverageWrite_segment (at_ := at_) hqueue h
  rw [hcells, List.foldl_cons, List.foldl_nil, hcell] at hi
  exact ⟨_, hi, (modMap_keeps _ _).trans (modFrame_keeps _ _ _), (modMap_words _ _ _).trans (modFrame_words _ _ _ _),
    frame_modFrame_same _ _ (findFrame_some s.blk hcover).1, rfl, modFrame_keepsRows _ _ _⟩

/-- Settles O21: the write of a cell by what the cache holds of its key, and each outcome of a scrub by the state of
    the frame. -/
theorem coverageAndPoisonedFrames : Obligations.CoverageAndPoisonedFrames := by
  intro s at_ b m raised
  refine ⟨fun h1 h2 => does_nothing (exec_coverageWrite_busy ⟨h1, h2⟩), fun h => ⟨_, exec_coverageWrite h, rfl⟩,
    fun seg rest hqueue h => ⟨does_coverageWrite hqueue h, fun c f hcells hcover hdirty => ?_⟩, ?_, ?_⟩
  · have hdoes := does_coverageWrite_dirty hqueue h hcells hcover hdirty
    rwa [raiseCell_dirty _ _ _ hdirty] at hdoes
  · intro seg c key cell t
    refine ⟨fun f hcover hfill => ?_, fun hcover hout hroom => ?_, fun hcover hfill hfault => ?_⟩
    · intro x y
      have ht : t = _ := writeCell_covered (at_ := at_) rfl hcover fun _ => hfill
      have hframe : t.frame f = _ := ht ▸ frame_modFrame_same b _ (findFrame_some b hcover).1
      refine ⟨fun hx => ?_, fun hx => ?_, fun hx => ?_, ?_, ?_⟩
      · rw [hframe, raiseCell_valid _ _ _ hx]
      · rw [hframe, raiseCell_dirty _ _ _ hx]
      · rw [hframe, raiseCell_writingBack _ _ _ hx]
      · rw [ht]; exact modFrame_keepsRows b f _
      · rw [ht]; rfl
    · have ht : t = _ := writeCell_logged (at_ := at_) rfl hcover hout hroom
      rw [ht]
      exact ⟨rfl, rfl⟩
    · have ht : t = _ := writeCell_lost (at_ := at_) rfl hcover hfill hfault
      rw [ht]
      exact ⟨rfl, fld_count_same b .MAP_CNT_COV 0 1 (by omega)⟩
  · intro f hs x lost
    have hf : f.val < b.eng.map.frames.length := by rw [Block.Sound.frames_length hs]; exact f.isLt
    have hlost (t : Block) (h : Raised 58 b t ∧ CellsLost b t f) : lost t :=
      ⟨h.1, h.2.frame, h.2.tlb, h.2.lost, h.2.rows⟩
    refine ⟨fun hx => does_nothing ?_, fun hx => does_nothing ?_, does_scrub_filling hf,
      fun hx hdead => ⟨does_scrub_frees hf hx hdead, does_scrub_kills hf hx hdead⟩, fun hx => ⟨?_, fun hp => ?_⟩⟩
    · by_cases hpoisoned : x.state = .poisoned
      · exact exec_frameScrub_dead hpoisoned (hx.resolve_left (not_not_intro hpoisoned))
      · exact exec_frameScrub_good hpoisoned
    · rcases hx with hfree | ⟨hpoisoned, hdead⟩
      · rw [exec_frameScrub_bad (by simp [x, b] at hfree; simp [hfree]), poison_free hfree]
      · exact exec_frameScrub_dead hpoisoned hdead
    · have hne : x.state ≠ .poisoned := by rcases hx with e | e | e <;> simp [e]
      obtain ⟨t, ht, hkeeps, hwords, h⟩ := does_poison_cells hf hx (exec_frameScrub_bad (at_ := at_) hne)
      exact ⟨t, ht, hkeeps, hwords, hlost t h⟩
    · obtain ⟨t, ht, hkeeps, hwords, h⟩ := does_poison_cells hf hx (exec_eccUncorrectable_tile hp)
      exact ⟨t, ht, hkeeps, hwords, hlost t h⟩

end Sys2Proof.Machine

/-! PROOFS. Statements of the family 01 that the model refutes: writes with a fence of the other session due, and the time-out
    of a trouble code whose source is latched. -/

namespace Sys2Proof.Machine

open Sys2Proof (Word Byte Bytes Sess Hdr Instr)

/-! ### A write completes a fence of the other session (R356) -/

/-- A request of MAIN in queue 0 whose payload is an address and a word. -/
def mainWriteHdr : Hdr := { mainHdr with len := 8 }

theorem fenceDue_served_write : Served fenceDue mainWriteHdr .main regWriteRow where
  reachable := by decide +kernel
  session := by decide +kernel
  single := rfl
  running := rfl
  fresh := by decide +kernel
  noRepeat := by decide +kernel
  permitted := by decide +kernel
  queueEmpty := by decide +kernel
  length := by decide +kernel
  notHeld := by decide +kernel
  room := by decide +kernel

/-- A write by MAIN of its own copy of CMP_RD_SEL leaves SERVICE with the reply to its fence. -/
theorem fenceDue_write_replies :
    (dispatchWrite mainWriteHdr (BitVec.ofNat 32 (addr .CMP_RD_SEL)) 0 .main fenceDue.link.arrivals
        (fenceDue.now mainWriteHdr.at_) (fenceDue.taken .main mainWriteHdr)).fences.link.service.replies.length = 1 := by
  decide +kernel

/-- Refutes O50: the other session does not stay as it was. A REG_WRITE by MAIN of its copy of CMP_RD_SEL in the state
    `fenceDue` completes the fence of SERVICE, whose kept replies then hold one more. -/
theorem not_registersAreWritten : ¬ Obligations.RegistersAreWritten := by
  intro h
  have hr : regAt (BitVec.ofNat 32 (addr .CMP_RD_SEL) : Word).toNat = some (.CMP_RD_SEL, 0, 0) := by decide +kernel
  obtain ⟨hplain, -⟩ := h { blk := fenceDue } mainWriteHdr .main (BitVec.ofNat 32 (addr .CMP_RD_SEL)) 0 0 .CMP_RD_SEL
    0 0 rfl
  obtain ⟨hwrite, -⟩ := hplain hr (by decide +kernel) (by decide +kernel)
  obtain ⟨-, hown⟩ := hwrite fenceDue_served_write (by decide +kernel)
  obtain ⟨t, ht, -, -, -, -, hother, -⟩ := hown (by decide +kernel)
  rw [exec_served _ _ _ _ _ _ rfl rfl fenceDue_served_write] at ht
  injection ht with ht
  injection ht with _ ht
  have hsame : t.link.service = fenceDue.link.service := hother
  have hafter := fenceDue_write_replies
  obtain ⟨hbefore, -⟩ := fenceDue_read_replies
  rw [ht, hsame, hbefore] at hafter
  exact absurd hafter (by decide)

/-! ### A latched source stays an active trouble code (R431, R433) -/

/-- The block without the instant at which a source was last seen. -/
def Block.unseen (b : Block) (s : Nat) : Block :=
  { b with evt := { b.evt with lastSeen := b.evt.lastSeen.filter (fun p => p.1 != s) } }

/-- DM1_ACTIVE_TIMEOUT forgets the last occurrence and brings the trouble codes up to date. -/
theorem exec_dm1ActiveTimeout_due {q : Fin 128} {at_ t0 : Nat} {s : State} (hseen : look s.blk.evt.lastSeen q = some t0)
    (hdue : t0 + 1000000000 ≤ s.blk.now at_) :
    exec (.dm1ActiveTimeout q at_) s = .next { s with blk := (s.blk.unseen q).dtcUpdate q } := by
  show execDm1ActiveTimeout q at_ s = _
  simp only [execDm1ActiveTimeout, lift, hseen, if_pos hdue, Block.unseen]

/-- A code that is listed and still active stays as it is. -/
theorem dtcUpdate_active_listed {b : Block} {s : Nat} {d : Dtc} (hactive : b.dtcActive s = true)
    (hlisted : b.can.active.find? (fun x => x.source == s) = some d) : b.dtcUpdate s = b := by
  simp only [Block.dtcUpdate, hactive, hlisted]

/-- Source 20 has occurred once, at instant 0. At reset EVT_CFG[20] is EDGE with LATCH = 1 (bit 6): its pending bit is
    cleared by software only, and the code is active while it stands. -/
def latchedCode : Block := ({} : Block).raise 20 1 payZ

/-- Refutes O45: the hypothesis reads bit 1 of EVT_CFG, which no field has, where LATCH is bit 6. In the state
    `latchedCode` DM1_ACTIVE_TIMEOUT leaves the code of source 20 on the active list, as its pending bit stands. -/
theorem not_managementPathAndTroubleCodes : ¬ Obligations.ManagementPathAndTroubleCodes := by
  intro h
  obtain ⟨-, -, -, -, -, -, htimeout⟩ := h { blk := latchedCode } 0 1000000000
  have hseen : look latchedCode.evt.lastSeen 20 = some 0 := by decide +kernel
  have hlisted : latchedCode.can.active.find? (fun x => x.source == 20) = some { source := 20, count := 1 } := by
    decide +kernel
  have hactive : (latchedCode.unseen 20).dtcActive 20 = true := by decide +kernel
  obtain ⟨t, ht, -, -, -, hgone, -⟩ :=
    htimeout 20 0 _ hseen (by decide +kernel) (by decide +kernel) (by decide +kernel) hlisted
  rw [exec_dm1ActiveTimeout_due (q := 20) hseen (by decide +kernel)] at ht
  injection ht with ht
  injection ht with _ ht
  have hstays : t = latchedCode.unseen 20 := ht.symm.trans (dtcUpdate_active_listed hactive hlisted)
  rw [hstays] at hgone
  exact absurd hgone (by decide +kernel)

end Sys2Proof.Machine

/-! PROOFS. Tick and time (02): the state after reset, the servo and the real-time clock. -/

namespace Sys2Proof.Machine

open Sys2Proof (Word Byte Bytes Sess Hdr Instr)

/-! ### The state after reset -/

/-- Settles O3: no word is listed in the reset state's register file, and every other part is written out in it. -/
theorem resetLeavesTheStartingState : Obligations.ResetLeavesTheStartingState := by
  refine ⟨rfl, fun r i j => rfl, by decide +kernel, fun k => ?_, rfl, rfl, rfl, rfl, rfl, rfl, rfl, rfl⟩
  cases k <;> exact ⟨rfl, rfl, rfl⟩

/-! ### The time base -/

section TimeBase

variable (b : Block)

theorem modTime_keeps (f : Time → Time) (hf : (f b.time).hand = b.time.hand) :
    Keeps [.clock] b (b.modTime f) := by
  intro q hq
  cases q <;> simp_all [BlockPart.same, sessSame, Block.modTime]

theorem modTime_words (l : List Nat) (f : Time → Time) : KeepsWords l b (b.modTime f) := KeepsWords.of_regs rfl

/-! ### Changes of servo state (R54) -/

theorem servoTo_keeps (s : Servo) (at_ : Nat) : Keeps (.clock :: eventParts) b (b.servoTo s at_) := by
  unfold Block.servoTo
  split
  · exact Keeps.refl _ _
  · exact ((modTime_keeps b _ rfl).mono (by simp)).trans ((raise_keeps _ _ _ _ _ _).mono (by simp))

theorem servoTo_words (s : Servo) (at_ : Nat) : KeepsWords (eventWords [114]) b (b.servoTo s at_) := by
  unfold Block.servoTo
  split
  · exact KeepsWords.refl _ _
  · exact (modTime_words b _ _).trans (raise_words _ _ _ _ _ _)

variable {b}

theorem servoTo_time {s : Servo} (at_ : Nat) (hs : b.time.servo ≠ s) :
    (b.servoTo s at_).time = { b.time with servo := s, near := 0, far := 0 } := by
  simp [Block.servoTo, hs, Block.modTime]

theorem servoTo_raised {s : Servo} (at_ : Nat) (hs : b.time.servo ≠ s) : Raised 114 b (b.servoTo s at_) := by
  rw [Block.servoTo, if_neg hs]
  exact raise_raised (b.modTime _) 114 1 _ at_ false (by decide)

/-! ### Measurements (R50 to R53) -/

theorem acquire_keeps (offset : Int) (at_ : Nat) : Keeps (.clock :: eventParts) b (b.acquire offset at_) :=
  (servoTo_keeps _ _ _).trans ((modTime_keeps _ _ rfl).mono (by simp))

theorem acquire_words (offset : Int) (at_ : Nat) : KeepsWords (eventWords [114]) b (b.acquire offset at_) :=
  (servoTo_words _ _ _).trans (modTime_words _ _ _)

theorem acquire_raised (offset : Int) (at_ : Nat) (hs : b.time.servo ≠ .acquiring) :
    Raised 114 b (b.acquire offset at_) := raised_of_regs _ (servoTo_raised at_ hs) rfl

/-- The whole Ticks of an offset that the entry to ACQUIRING steps (R53). -/
def Block.wholeTicks (b : Block) (offset : Int) : Int := if b.timeSource = 2 then 0 else divRound offset 100000

theorem acquire_time (offset : Int) (at_ : Nat) (hs : b.time.servo ≠ .acquiring) :
    (b.acquire offset at_).time = { b.time with
      servo := .acquiring, near := 0, far := 0, stepDue := b.time.stepDue - b.wholeTicks offset
      residual := offset - b.wholeTicks offset * 100000, phaseErr := offset - b.wholeTicks offset * 100000 } := by
  simp only [Block.acquire, Block.modTime, servoTo_time at_ hs]
  rfl

/-- The time base with a measurement noted, before the servo's state follows it (R50, R52). -/
def Block.noted (b : Block) (offset : Int) (at_ : Nat) : Block :=
  b.modTime (fun t => { t with
    lastMeas := b.now at_
    freqHist := lastN 16 (t.freqHist ++ [t.freq])
    phaseErr := clampInt (-2147483647) 2147483647 offset
    residual := offset
    near := if offset.natAbs ≤ 1000 then t.near + 1 else 0
    far := if 10000 < offset.natAbs then t.far + 1 else 0 })

theorem noted_keeps (offset : Int) (at_ : Nat) : Keeps [.clock] b (b.noted offset at_) := modTime_keeps b _ rfl

theorem noted_words (l : List Nat) (offset : Int) (at_ : Nat) : KeepsWords l b (b.noted offset at_) :=
  modTime_words b _ _

/-- From FREE and HOLDOVER a measurement begins ACQUIRING (R52). -/
theorem measure_unlocked (offset : Int) (at_ : Nat) (hs : b.time.servo = .free ∨ b.time.servo = .holdover) :
    b.measure offset at_ = (b.noted offset at_).acquire offset at_ := by
  rcases hs with hs | hs <;> simp only [Block.measure, hs] <;> rfl

/-- In ACQUIRING the 16th near offset in a row, unsaturated, gives LOCKED (R52). -/
theorem measure_locks {offset : Int} (at_ : Nat) (hs : b.time.servo = .acquiring) (hnear : offset.natAbs ≤ 1000)
    (hrun : b.time.near = 15) (hsat : b.time.sat = false) :
    b.measure offset at_ = (b.noted offset at_).servoTo .locked at_ := by
  have hlock : 16 ≤ (b.noted offset at_).time.near ∧ !(b.noted offset at_).time.sat := by
    simp [Block.noted, Block.modTime, hnear, hrun, hsat]
  simp only [Block.measure, hs]
  exact if_pos hlock

/-- In LOCKED the 4th far offset in a row begins ACQUIRING again (R52). -/
theorem measure_unlocks {offset : Int} (at_ : Nat) (hs : b.time.servo = .locked) (hfar : 10000 < offset.natAbs)
    (hrun : b.time.far = 3) : b.measure offset at_ = (b.noted offset at_).acquire offset at_ := by
  have hlost : 4 ≤ (b.noted offset at_).time.far := by simp [Block.noted, Block.modTime, hfar, hrun]
  simp only [Block.measure, hs]
  exact if_pos hlost

/-- What every change of servo state on a measurement leaves: device time, the Tick count, the event (R54), and all
    that is neither the time base nor the event's. -/
structure Measured (b t : Block) (at_ : Nat) : Prop where
  keeps : Keeps (.clock :: eventParts) b t
  words : KeepsWords (eventWords [114]) b t
  dev : t.time.dev = b.time.dev
  count : t.time.count = b.time.count
  now : t.time.now = b.time.now
  lastMeas : t.time.lastMeas = b.now at_
  raised : Raised 114 b t

/-- ACQUIRING has begun on an offset: its whole Ticks wait for the next edge, the rest is left to the slew (R53). -/
structure Acquires (b t : Block) (offset : Int) : Prop where
  servo : t.time.servo = .acquiring
  stepDue : t.time.stepDue = b.time.stepDue - b.wholeTicks offset
  residual : t.time.residual = offset - b.wholeTicks offset * 100000

theorem acquire_noted (offset : Int) (at_ : Nat) (hs : b.time.servo ≠ .acquiring) :
    Acquires b ((b.noted offset at_).acquire offset at_) offset
      ∧ Measured b ((b.noted offset at_).acquire offset at_) at_ := by
  have hnoted : (b.noted offset at_).time.servo ≠ .acquiring := hs
  have htime := acquire_time offset at_ hnoted
  refine ⟨⟨?_, ?_, ?_⟩, ((noted_keeps _ _).mono (by simp)).trans (acquire_keeps _ _),
    (noted_words _ _ _).trans (acquire_words _ _), ?_, ?_, ?_, ?_, acquire_raised offset at_ hnoted⟩ <;> rw [htime] <;> rfl

theorem locks_noted (offset : Int) (at_ : Nat) (hs : b.time.servo ≠ .locked) :
    ((b.noted offset at_).servoTo .locked at_).time.servo = .locked
      ∧ Measured b ((b.noted offset at_).servoTo .locked at_) at_ := by
  have hnoted : (b.noted offset at_).time.servo ≠ .locked := hs
  have htime := servoTo_time at_ hnoted
  refine ⟨?_, ((noted_keeps _ _).mono (by simp)).trans (servoTo_keeps _ _ _),
    (noted_words _ _ _).trans (servoTo_words _ _ _), ?_, ?_, ?_, ?_, servoTo_raised at_ hnoted⟩ <;> rw [htime] <;> rfl

end TimeBase

/-! ### The relay (R55) -/

section Relays

variable (b : Block)

/-- RELAY_EN is 1 and ETH_B is up and asCapable. -/
def Block.relayDue (b : Block) : Prop :=
  b.flag .LINK_PTP_CFG 0 16 = true ∧ b.link.portB.up = true ∧ b.asCapable b.link.portB = true

variable {b}

theorem relaySync_idle (at_ : Nat) (h : ¬ b.relayDue) : b.relaySync at_ = b := by
  refine if_neg ?_
  simpa [Block.relayDue, and_assoc] using h

/-- The Sync that is relayed: its residence in the switch is a free value. -/
theorem relaySync_due (at_ : Nat) (h : b.relayDue) :
    b.relaySync at_ = { b.draw.2 with link := { b.link with
      relays := b.link.relays ++ [{ at_ := b.now at_, correction := b.draw.1 + b.link.portB.linkDelay }] } } := by
  refine if_pos ?_
  simpa [Block.relayDue, and_assoc] using h

theorem relaySync_time (at_ : Nat) : (b.relaySync at_).time = b.time := by
  unfold Block.relaySync; split <;> rfl

theorem relaySync_regs (at_ : Nat) : (b.relaySync at_).regs = b.regs := by
  unfold Block.relaySync; split <;> rfl

theorem relaySync_eng (at_ : Nat) : (b.relaySync at_).eng = b.eng := by
  unfold Block.relaySync; split <;> rfl

theorem relaySync_keeps (at_ : Nat) : Keeps [.relays, .draws] b (b.relaySync at_) := by
  intro q hq
  unfold Block.relaySync
  split <;> cases q <;> simp_all [BlockPart.same, sessSame, Block.draw]

end Relays

/-! ### The commands that measure -/

theorem followSource_same {b : Block} (at_ : Nat) (h : b.time.src = b.timeSource) : b.followSource at_ = b :=
  if_pos h.symm

theorem exec_syncInEdge {s : State} {rising : Bool} {at_ : Nat} (hsrc : s.blk.timeSource = 2 ∨ s.blk.timeSource = 3)
    (hedge : rising ≠ s.blk.flag .TICK_CTRL 0 4) (htick : s.blk.ticking = true) (hsame : s.blk.time.src = s.blk.timeSource) :
    exec (.syncInEdge rising at_) s = .next { s with blk := s.blk.measure (s.blk.syncOffset at_) at_ } := by
  show execSyncInEdge rising at_ s = _
  simp only [execSyncInEdge, lift]
  rw [if_pos ⟨hsrc, hedge, htick⟩, followSource_same at_ hsame]

theorem ticking_awake {b : Block} (h : b.ticking = true) : b.eng.pwr.state ≠ .dormant := by
  intro hd
  simp [Block.ticking, hd] at h

theorem exec_asSyncReceived {s : State} {offset : Int} {at_ : Nat} (hsrc : s.blk.timeSource = 1)
    (hup : s.blk.link.portA.up = true) (htick : s.blk.ticking = true) (hsame : s.blk.time.src = s.blk.timeSource) :
    exec (.asSyncReceived offset at_) s = .next { s with blk := (s.blk.relaySync at_).measure offset at_ } := by
  have hsource : (s.blk.relaySync at_).timeSource = s.blk.timeSource := by
    simp only [Block.timeSource, Block.fld, Block.word, relaySync_regs]
  have hticking : (s.blk.relaySync at_).ticking = true := by
    simpa only [Block.ticking, relaySync_eng] using htick
  show execAsSyncReceived offset at_ s = _
  simp only [execAsSyncReceived, lift]
  rw [if_neg (by simp [hup, ticking_awake htick]), if_pos ⟨hsource.trans hsrc, hticking⟩,
    followSource_same at_ (by rw [relaySync_time, hsource, hsame])]

/-! ### What a measurement does -/

/-- The command is AS_SYNC_RECEIVED or an active SYNC_IN edge of the source that is committed, with its offset. -/
def Measures (b : Block) (i : Instr) (offset : Int) (at_ : Nat) : Prop :=
  i = .asSyncReceived offset at_ ∧ b.timeSource = 1 ∧ b.link.portA.up = true
    ∨ ∃ rising, i = .syncInEdge rising at_ ∧ (b.timeSource = 2 ∨ b.timeSource = 3)
      ∧ rising ≠ b.flag .TICK_CTRL 0 4 ∧ offset = b.syncOffset at_

/-- The command is AS_SYNC_RECEIVED, and the switch relays its Sync. -/
def Relays (b : Block) (i : Instr) (offset : Int) (at_ : Nat) : Prop :=
  i = .asSyncReceived offset at_ ∧ b.relayDue

/-- What a measurement does beside the relay satisfies `P`; the relay is a Sync corrected for its link delay. -/
def MeasureDoes (i : Instr) (s : State) (offset : Int) (at_ : Nat) (P : Block → Prop) : Prop :=
  (¬ Relays s.blk i offset at_ → Does i s (.clock :: eventParts) (eventWords [114]) P)
  ∧ (Relays s.blk i offset at_ → Does i s (.clock :: .relays :: .draws :: eventParts) (eventWords [114]) (fun t => P t
    ∧ ∃ r : Relay, t.link.relays = s.blk.link.relays ++ [r] ∧ r.at_ = s.blk.now at_
      ∧ s.blk.link.portB.linkDelay ≤ r.correction))

/-- A measurement is the servo's, on the block as it is or with the Sync relayed: both have the time base and the
    registers of the block. -/
theorem measureDoes_of_measured {i : Instr} {s : State} {offset : Int} {at_ : Nat} {P : Block → Prop}
    (hi : Measures s.blk i offset at_) (htick : s.blk.ticking = true) (hsame : s.blk.time.src = s.blk.timeSource)
    (hP : ∀ b1 : Block, b1.time = s.blk.time → b1.regs = s.blk.regs →
      Measured b1 (b1.measure offset at_) at_ ∧ P (b1.measure offset at_)) :
    MeasureDoes i s offset at_ P := by
  rcases hi with ⟨rfl, hsrc, hup⟩ | ⟨rising, rfl, hsrc, hedge, rfl⟩
  · have hexec := exec_asSyncReceived (offset := offset) (at_ := at_) hsrc hup htick hsame
    obtain ⟨hm, hp⟩ := hP (s.blk.relaySync at_) (relaySync_time at_) (relaySync_regs at_)
    refine ⟨fun hr => ?_, fun hr => ⟨_, hexec, ?_, ?_, hp, ?_⟩⟩
    · have hidle : s.blk.relaySync at_ = s.blk := relaySync_idle at_ fun h => hr ⟨rfl, h⟩
      rw [hidle] at hexec hm hp
      exact ⟨_, hexec, hm.keeps, hm.words, hp⟩
    · exact ((relaySync_keeps at_).mono (by simp)).trans (hm.keeps.mono (by simp [eventParts]))
    · exact (KeepsWords.of_regs (relaySync_regs at_)).trans hm.words
    · have hrelays := hm.keeps .relays (by simp [eventParts])
      simp only [BlockPart.same] at hrelays
      rw [hrelays, relaySync_due at_ hr.2]
      exact ⟨_, rfl, rfl, Nat.le_add_left _ _⟩
  · obtain ⟨hm, hp⟩ := hP s.blk rfl rfl
    exact ⟨fun _ => ⟨_, exec_syncInEdge hsrc hedge htick hsame, hm.keeps, hm.words, hp⟩, fun hr => nomatch hr.1⟩

/-- Blocks with one time base and one register file start a measurement alike. -/
theorem Measured.congr {b b1 t : Block} {at_ : Nat} (htime : b1.time = b.time) (hregs : b1.regs = b.regs)
    (h : Measured b1 t at_) :
    t.time.dev = b.time.dev ∧ t.time.count = b.time.count ∧ t.time.now = b.time.now ∧ t.time.lastMeas = b.now at_
      ∧ Raised 114 b t := by
  obtain ⟨-, -, hdev, hcount, hnow, hmeas, hraised⟩ := h
  simp only [Raised, Block.word, Block.now, htime, hregs] at *
  exact ⟨hdev, hcount, hnow, hmeas, hraised⟩

theorem Acquires.congr {b b1 t : Block} {offset : Int} (htime : b1.time = b.time) (hregs : b1.regs = b.regs)
    (h : Acquires b1 t offset) : Acquires b t offset := by
  have hsource : b1.timeSource = b.timeSource := by simp only [Block.timeSource, Block.fld, Block.word, hregs]
  have hwhole : b1.wholeTicks offset = b.wholeTicks offset := by simp only [Block.wholeTicks, hsource]
  obtain ⟨hservo, hstep, hrest⟩ := h
  rw [hwhole, htime] at hstep
  rw [hwhole] at hrest
  exact ⟨hservo, hstep, hrest⟩

/-- Settles O12: each change of servo state that a measurement makes, on the block with the Sync relayed or not. -/
theorem measurementsDriveTheServo : Obligations.MeasurementsDriveTheServo := by
  intro s i offset at_ hi htick hsrc b steps whole same relays changes
  have hacquires (b1 : Block) (htime : b1.time = b.time) (hregs : b1.regs = b.regs) (hs : b.time.servo ≠ .acquiring)
      (he : b1.measure offset at_ = (b1.noted offset at_).acquire offset at_) :
      Measured b1 (b1.measure offset at_) at_
        ∧ steps whole (b1.measure offset at_) ∧ same (b1.measure offset at_) := by
    rw [he]
    obtain ⟨ha, hm⟩ := acquire_noted offset at_ (htime ▸ hs)
    obtain ⟨hservo, hstep, hrest⟩ := ha.congr htime hregs
    exact ⟨hm, ⟨hservo, hstep, hrest⟩, hm.congr htime hregs⟩
  refine ⟨fun hs => measureDoes_of_measured hi htick hsrc fun b1 htime hregs => ?_,
    fun hs hnear hrun hsat => measureDoes_of_measured hi htick hsrc fun b1 htime hregs => ?_,
    fun hs hfar hrun => measureDoes_of_measured hi htick hsrc fun b1 htime hregs => ?_⟩
  · have hne : b.time.servo ≠ .acquiring := by rcases hs with hs | hs <;> simp [hs]
    exact hacquires b1 htime hregs hne (measure_unlocked offset at_ (htime ▸ hs))
  · rw [measure_locks at_ (htime ▸ hs) hnear (htime ▸ hrun) (htime ▸ hsat)]
    obtain ⟨hlocked, hm⟩ := locks_noted (b := b1) offset at_ (by simp [htime, b, hs])
    exact ⟨hm, hlocked, hm.congr htime hregs⟩
  · exact hacquires b1 htime hregs (by simp [hs]) (measure_unlocks at_ (htime ▸ hs) hfar (htime ▸ hrun))

/-! ### Loss of the source, the end of HOLDOVER (R52), the real-time clock (R66, R67) -/

section Losses

/-- HOLDOVER entered at an instant, with the mean of the last corrections (R52). -/
def Block.lost (b : Block) (at_ : Nat) : Block :=
  (b.servoTo .holdover at_).modTime (fun t => { t with freq := meanOf t.freqHist, holdSince := b.now at_ })

theorem lost_keeps (b : Block) (at_ : Nat) : Keeps (.clock :: eventParts) b (b.lost at_) :=
  (servoTo_keeps _ _ _).trans ((modTime_keeps _ _ rfl).mono (by simp))

theorem lost_words (b : Block) (at_ : Nat) : KeepsWords (eventWords [114]) b (b.lost at_) :=
  (servoTo_words _ _ _).trans (modTime_words _ _ _)

theorem lost_time {b : Block} (at_ : Nat) (hs : b.time.servo ≠ .holdover) :
    (b.lost at_).time = { b.time with servo := .holdover, near := 0, far := 0, freq := meanOf b.time.freqHist
                                      holdSince := b.now at_ } := by
  simp only [Block.lost, Block.modTime, servoTo_time at_ hs]

theorem lost_raised {b : Block} (at_ : Nat) (hs : b.time.servo ≠ .holdover) : Raised 114 b (b.lost at_) :=
  raised_of_regs _ (servoTo_raised at_ hs) rfl

variable {s : State} {at_ : Nat}

/-- TICK_LOSS_TIMEOUT when it is due: HOLDOVER with the mean correction, and FREE at once without a HOLDOVER time. -/
theorem exec_tickLossTimeout (hs : s.blk.time.servo = .acquiring ∨ s.blk.time.servo = .locked)
    (hdue : s.blk.fld .TICK_LOSS_TMO 0 13 0 * 1000000 ≤ s.blk.now at_ - s.blk.time.lastMeas) :
    exec (.tickLossTimeout at_) s = .next { s with
      blk := if s.blk.fld .TICK_HOLD_MAX 0 11 0 = 0 then (s.blk.lost at_).servoTo .free at_ else s.blk.lost at_ } := by
  show execTickLossTimeout at_ s = _
  simp only [execTickLossTimeout, lift]
  rw [if_pos ⟨hs, hdue⟩]
  rfl

theorem exec_holdoverLimit (hs : s.blk.time.servo = .holdover)
    (hdue : s.blk.fld .TICK_HOLD_MAX 0 11 0 * 1000000000 ≤ s.blk.now at_ - s.blk.time.holdSince) :
    exec (.holdoverLimit at_) s = .next { s with blk := s.blk.servoTo .free at_ } := by
  show execHoldoverLimit at_ s = _
  simp only [execHoldoverLimit, lift]
  rw [if_pos ⟨hs, hdue⟩]
  rfl

theorem exec_rtcMinuteWrite (hutc : s.blk.time.utcValid = true) (htick : s.blk.ticking = true)
    (hminute : s.blk.devNow at_ % 60000000000 = 0) :
    exec (.rtcMinuteWrite at_) s = .next { s with blk := s.blk.rtcWrite at_ s.blk.time.rtc.valid } := by
  show execRtcMinuteWrite at_ s = _
  simp only [execRtcMinuteWrite, lift]
  rw [if_pos ⟨hutc, htick, hminute⟩]

/-- A running clock written at a whole second has no fraction. -/
theorem rtcWrite_second {r : Rtc} {dev : Nat} (now : Nat) (taiUtc : Int) (hrun : r.running = true)
    (hsecond : dev % 1000000000 = 0) :
    r.write dev now taiUtc r.valid = { r with sec := narrow 34 (stampSeconds dev taiUtc), sub := 0, taiUtc := taiUtc
                                              since := now } := by
  simp [Rtc.write, hrun, hsecond]

end Losses

/-- Settles O13: each command, when it is due, is a change of servo state or a write of the real-time clock. -/
theorem timeSourceLossAndRealTimeClock : Obligations.TimeSourceLossAndRealTimeClock := by
  intro s at_ b
  have hlost (hs : b.time.servo = .acquiring ∨ b.time.servo = .locked) : b.time.servo ≠ .holdover := by
    rcases hs with hs | hs <;> simp [hs]
  refine ⟨fun hs hdue hmax => ?_, fun hs hdue hmax => ?_, fun hs hdue => ?_, fun hutc htick hminute hrun => ?_, ?_⟩
  · have hexec := exec_tickLossTimeout hs hdue
    rw [if_neg hmax] at hexec
    exact ⟨_, hexec, lost_keeps _ _, lost_words _ _, lost_time at_ (hlost hs), lost_raised at_ (hlost hs)⟩
  · have hexec := exec_tickLossTimeout hs hdue
    rw [if_pos hmax] at hexec
    have htime := lost_time at_ (hlost hs)
    have hne : (b.lost at_).time.servo ≠ .free := by simp [htime]
    refine ⟨_, hexec, (lost_keeps _ _).trans (servoTo_keeps _ _ _), (lost_words _ _).trans (servoTo_words _ _ _), ?_, ?_⟩
    · rw [servoTo_time at_ hne, htime]
    · have hfirst : (b.lost at_).word .EVT_CNT 114 = b.word .EVT_CNT 114 + 1 := lost_raised at_ (hlost hs)
      have hsecond : ((b.lost at_).servoTo .free at_).word .EVT_CNT 114 = (b.lost at_).word .EVT_CNT 114 + 1 :=
        servoTo_raised at_ hne
      rw [hsecond, hfirst, BitVec.add_assoc]
      rfl
  · have hne : b.time.servo ≠ .free := by simp [hs]
    exact ⟨_, exec_holdoverLimit hs hdue, servoTo_keeps _ _ _, servoTo_words _ _ _, servoTo_time at_ hne,
      servoTo_raised at_ hne⟩
  · have hsecond : (b.time.dev + at_) % 1000000000 = 0 := by
      simp only [Block.devNow] at hminute
      omega
    refine ⟨_, exec_rtcMinuteWrite hutc htick hminute, modTime_keeps _ _ rfl, modTime_words _ _ _, ?_⟩
    exact congrArg (fun r => { b.time with rtc := r }) (rtcWrite_second (b.now at_) b.time.taiUtc hrun hsecond)
  · exact ⟨_, rfl, modTime_keeps _ _ rfl, modTime_words _ _ _, rfl, rfl, rfl⟩

/-! ### A LO read completes a fence of the other session (R356) -/

/-- A read of DEVTIME_LO by MAIN leaves SERVICE with the reply to its fence. -/
theorem fenceDue_lowRead_replies :
    (dispatchReadOf mainHdr (addr .DEVTIME_LO) .main fenceDue.link.arrivals (fenceDue.now mainHdr.at_)
        (fenceDue.taken .main mainHdr)).fences.link.service.replies.length = 1 := by
  decide +kernel

/-- Refutes O49: the other session does not stay as it was. A read of DEVTIME_LO by MAIN in the state `fenceDue`
    completes the fence of SERVICE, whose kept replies then hold one more. -/
theorem not_lowReadsLatchHigh : ¬ Obligations.LowReadsLatchHigh := by
  intro h
  obtain ⟨⟨t, ht, -, -, -, -, -, hother⟩, -⟩ := h { blk := fenceDue } mainHdr .main 0 fenceDue_served rfl
  rw [exec_served _ _ _ _ _ _ rfl rfl fenceDue_served] at ht
  injection ht with ht
  injection ht with _ ht
  have hsame : t.link.service = fenceDue.link.service := hother
  have hafter := fenceDue_lowRead_replies
  obtain ⟨hbefore, -⟩ := fenceDue_read_replies
  rw [ht, hsame, hbefore] at hafter
  exact absurd hafter (by decide)

end Sys2Proof.Machine

/-! PROOFS. Halts, overruns and the safe state (02, 14). -/

namespace Sys2Proof.Machine

open Sys2Proof (Word Byte Bytes Sess Hdr Instr)

/-- What every step of a fold leaves, the fold leaves. -/
theorem foldl_leaves {α β : Type} (view : Block → β) (l : List α) (g : Block → α → Block) (b : Block)
    (h : ∀ b, ∀ x ∈ l, view (g b x) = view b) : view (l.foldl g b) = view b := by
  induction l generalizing b with
  | nil => rfl
  | cons x l ih =>
    rw [List.foldl_cons, ih _ (fun b y hy => h b y (List.mem_cons_of_mem _ hy)), h b x List.mem_cons_self]

/-! ### What the ALMANAC phase leaves (R18, R25) -/

/-- What the overrun watch reads of a block. -/
def Block.watched (b : Block) : Time × Vigil × Power × Nat := (b.time, b.vig, b.eng.pwr, b.eng.alm.due)

@[simp] theorem foldl_watched {α : Type} (l : List α) (g : Block → α → Block) (b : Block)
    (h : ∀ b x, (g b x).watched = b.watched) : (l.foldl g b).watched = b.watched :=
  foldl_leaves _ l g b (fun b x _ => h b x)

section Walk

variable (b : Block)

@[simp] theorem watched_ite (c : Prop) [Decidable c] (x y : Block) :
    (if c then x else y).watched = if c then x.watched else y.watched := apply_ite _ _ _ _

@[simp] theorem setFld_watched (r : Reg) (i m l v : Nat) : (b.setFld r i m l v).watched = b.watched := (rfl)
@[simp] theorem count_watched (r : Reg) (i m l n : Nat) : (b.count r i m l n).watched = b.watched := (rfl)
@[simp] theorem draw_watched : b.draw.2.watched = b.watched := (rfl)
@[simp] theorem modMap_watched (f : FieldMap → FieldMap) : (b.modMap f).watched = b.watched := (rfl)
@[simp] theorem modLane_watched (l : Nat) (f : Lane → Lane) : (b.modLane l f).watched = b.watched := (rfl)
@[simp] theorem modAlmNoz_watched (n : Nat) (f : AlmNoz → AlmNoz) : (b.modAlmNoz n f).watched = b.watched := (rfl)

theorem modAlm_watched (f : Almanac → Almanac) (h : (f b.eng.alm).due = b.eng.alm.due) :
    (b.modAlm f).watched = b.watched := by simp [Block.watched, Block.modAlm, h]

@[simp] theorem raise_watched (s : Nat) (c : Byte) (p : Payload) (at_ : Nat) (still : Bool) :
    (b.raise s c p at_ still).watched = b.watched := by simp [Block.watched]

@[simp] theorem raiseItems_watched (s : Nat) (c : Byte) (kind : Nat) (items : List Nat) (at_ : Nat) :
    (b.raiseItems s c kind items at_).watched = b.watched := by simp [Block.watched]

@[simp] theorem sendOwn_watched (k : Sess) (op : BitVec 16) (queue : Fin 4) (payload : Bytes) (at_ : Nat) :
    (b.sendOwn k op queue payload at_).watched = b.watched := by
  unfold Block.sendOwn
  dsimp only
  split <;> rfl

@[simp] theorem sendFault_watched (slot : Nat) (resend : Bool) (at_ : Nat) :
    (b.sendFault slot resend at_).watched = b.watched := by
  unfold Block.sendFault
  split <;> simp

@[simp] theorem useFault_watched (k : Key) : (b.useFault k).watched = b.watched := (rfl)
@[simp] theorem touchWait_watched (p : Nat) (k : Key) : (b.touchWait p k).watched = b.watched := (rfl)
@[simp] theorem useSlots_watched (n : Nat) : (b.useSlots n).watched = b.watched := (rfl)
@[simp] theorem tlbUse_watched (k : Key) (f : Nat) : (b.tlbUse k f).watched = b.watched := (rfl)

@[simp] theorem keyTimesOut_watched (p : Nat) (k : Key) (at_ : Nat) : (b.keyTimesOut p k at_).watched = b.watched := by
  simp [Block.keyTimesOut]

@[simp] theorem takeFault_watched (p : Nat) (k : Key) : (b.takeFault p k).watched = b.watched := by
  simp [Block.takeFault]

@[simp] theorem missing_watched (p : Nat) (k : Key) : (b.missing p k).2.watched = b.watched := by
  unfold Block.missing
  dsimp only
  (repeat' split) <;> simp

@[simp] theorem lookup_watched (p : Nat) (e n : Int) : (b.lookup p e n).2.watched = b.watched := by
  unfold Block.lookup
  dsimp only
  (repeat' split) <;> simp

@[simp] theorem scanStep_watched (n : Nat) : (b.scanStep n).2.watched = b.watched := by
  unfold Block.scanStep
  dsimp only
  (repeat' split) <;> simp [modAlm_watched]

@[simp] theorem scanNoz_watched (n fuel : Nat) : (Block.scanNoz n fuel b).watched = b.watched := by
  induction fuel generalizing b with
  | zero => rfl
  | succ k ih =>
    have h := scanStep_watched b n
    simp only [Block.scanNoz]
    split <;> simp_all

@[simp] theorem pathCheck_watched (n : Nat) : (b.pathCheck n).watched = b.watched := by
  unfold Block.pathCheck
  dsimp only
  split <;> simp

@[simp] theorem planBegins_watched (n : Nat) : (b.planBegins n).watched = b.watched := by
  simp [Block.planBegins]

@[simp] theorem killFor_watched (n : Nat) (gone : List Eve) : (b.killFor n gone).watched = b.watched := by
  simp [Block.killFor]

@[simp] theorem planNoz_watched (n : Nat) : (b.planNoz n).watched = b.watched := by
  simp [Block.planNoz, modAlm_watched]

@[simp] theorem idleNoz_watched (n : Nat) : (b.idleNoz n).watched = b.watched := (rfl)

@[simp] theorem keepFault_watched (n : Nat) : (b.keepFault n).watched = b.watched := by
  simp [Block.keepFault]

@[simp] theorem blindPass_watched (l : List Nat) : (b.blindPass l).watched = b.watched := by
  simp [Block.blindPass]

@[simp] theorem almanacPhase_watched : b.almanacPhase.watched = b.watched := by
  simp [Block.almanacPhase, modAlm_watched]

@[simp] theorem almanacStage_watched (ticks : Nat) : (b.almanacStage ticks).watched = b.watched := by
  simp [Block.almanacStage, Block.mapTick]

/-- A look-ahead runs the ALMANAC phase at most once. -/
theorem lookAhead_watched (at_ : Nat) :
    (b.lookAhead at_).watched = if b.eng.alm.due = 0 || Nat.blt at_ 20000 || b.frozen then b.watched
      else (b.time, b.vig, b.eng.pwr, 0) := by
  unfold Block.lookAhead
  dsimp only
  split
  · rfl
  · exact almanacStage_watched _ _

end Walk

/-! ### What a unit that becomes FAULTED leaves (R29, R49) -/

/-- The words that tell what Vigil did: its latches, its counts, and how often events 112 and 113 were raised. -/
def vigilWords : List Nat := [addr .VIG_SAFE, addr .VIG_CNT, addr .EVT_CNT 112, addr .EVT_CNT 113]

/-- What the channels' own safe states leave: the time base, Vigil, the packets sent, what is published, the CMP pins
    and Vigil's words. -/
def Block.aside (b : Block) : Time × Vigil × List Packet × Engines × List CmpPin × (Word → List Word) :=
  (b.time, b.vig, b.link.sent, b.pub, b.eng.alm.pins, fun d => vigilWords.map (fun a => fileGet b.regs a d))

@[simp] theorem foldl_aside {α : Type} (l : List α) (g : Block → α → Block) (b : Block)
    (h : ∀ b x, (g b x).aside = b.aside) : (l.foldl g b).aside = b.aside :=
  foldl_leaves _ l g b (fun b x _ => h b x)

section Aside

variable (b : Block)

@[simp] theorem aside_ite (c : Prop) [Decidable c] (x y : Block) :
    (if c then x else y).aside = if c then x.aside else y.aside := apply_ite _ _ _ _

@[simp] theorem modSw_aside (k : Nat) (f : Lsw → Lsw) : (b.modSw k f).aside = b.aside := (rfl)
@[simp] theorem modPwr_aside (f : Power → Power) : (b.modPwr f).aside = b.aside := (rfl)
@[simp] theorem modAxis_aside (a : Nat) (f : Axis → Axis) : (b.modAxis a f).aside = b.aside := (rfl)
@[simp] theorem modNoz_aside (n : Nat) (f : Noz → Noz) : (b.modNoz n f).aside = b.aside := (rfl)
@[simp] theorem modProp_aside (k : Nat) (f : Prop_ → Prop_) : (b.modProp k f).aside = b.aside := (rfl)
@[simp] theorem modLane_aside (l : Nat) (f : Lane → Lane) : (b.modLane l f).aside = b.aside := (rfl)
@[simp] theorem modAlmNoz_aside (n : Nat) (f : AlmNoz → AlmNoz) : (b.modAlmNoz n f).aside = b.aside := (rfl)
@[simp] theorem modMot_aside (u : Nat) (f : Motor → Motor) : (b.modMot u f).aside = b.aside := (rfl)
@[simp] theorem modSlot_aside (s : Nat) (f : LoopSlot → LoopSlot) : (b.modSlot s f).aside = b.aside := (rfl)

/-- Words elsewhere in the register file are aside. -/
theorem aside_of_words {b t : Block} {l : List Nat} (hwords : KeepsWords l b t) (hl : ∀ a ∈ vigilWords, a ∉ l)
    (htime : t.time = b.time) (hvig : t.vig = b.vig) (hsent : t.link.sent = b.link.sent) (hpub : t.pub = b.pub)
    (heng : t.eng = b.eng) : t.aside = b.aside := by
  have hsame : ∀ d, vigilWords.map (fun a => fileGet t.regs a d) = vigilWords.map (fun a => fileGet b.regs a d) :=
    fun d => List.map_congr_left (fun a ha => hwords a (hl a ha) d)
  simp only [Block.aside, htime, hvig, hsent, hpub, heng, hsame]

theorem count_aside (r : Reg) (i m l n : Nat) (h : ∀ a ∈ vigilWords, a ∉ [addr r i]) :
    (b.count r i m l n).aside = b.aside := aside_of_words (count_words b r i m l n) h rfl rfl rfl rfl rfl

theorem countWrap_aside (r : Reg) (i m l n : Nat) (h : ∀ a ∈ vigilWords, a ∉ [addr r i]) :
    (b.countWrap r i m l n).aside = b.aside := aside_of_words (countWrap_words b r i m l n) h rfl rfl rfl rfl rfl

/-- The counts of a PWM unit are none of Vigil's words. -/
theorem motorWords_aside {u : Nat} (hu : u < 16) (r : Reg) (hr : r = .MDRV_CNT0 ∨ r = .MDRV_CNT1 ∨ r = .MDRV_COMM_CNT) :
    ∀ a ∈ vigilWords, a ∉ [addr r u] := by
  rcases hr with rfl | rfl | rfl <;> simp [vigilWords, addr, desc] <;> omega

theorem raiseItems_aside (s : Nat) (c : Byte) (kind : Nat) (items : List Nat) (at_ : Nat)
    (h : ∀ a ∈ vigilWords, a ∉ eventWords [s]) : (b.raiseItems s c kind items at_).aside = b.aside :=
  aside_of_words (fun a ha d => by simp [ha]) h (by simp) (by simp) (by simp) (by simp) (by simp)

theorem raiseLimited_aside (s : Nat) (c : Byte) (p : Payload) (at_ : Nat)
    (h : ∀ a ∈ vigilWords, a ∉ eventWords [s]) : (b.raiseLimited s c p at_).aside = b.aside :=
  aside_of_words (fun a ha d => by simp [ha]) h (by simp) (by simp) (by simp) (by simp) (by simp)

/-! Nozzles, proportional channels, load switches, axes, boosts -/

@[simp] theorem measureCoil_aside (n now : Nat) : (b.measureCoil n now).aside = b.aside := by
  unfold Block.measureCoil
  dsimp only
  (repeat' split) <;> simp

@[simp] theorem result_aside (n : Nat) (r : ActResult) : (b.result n r).aside = b.aside := (rfl)
@[simp] theorem countEnergised_aside (n now : Nat) : (b.countEnergised n now).aside = b.aside := (rfl)

@[simp] theorem turnOff_aside (n : Nat) (bearing : Bool) (now : Nat) : (b.turnOff n bearing now).aside = b.aside := by
  unfold Block.turnOff
  dsimp only
  split <;> simp

@[simp] theorem failPull_aside (n : Nat) (p : Pull) (kind now : Nat) : (b.failPull n p kind now).aside = b.aside := by
  cases p <;> rfl

@[simp] theorem cancelPull_aside (n now : Nat) : (b.cancelPull n now).aside = b.aside := by
  unfold Block.cancelPull
  dsimp only
  split <;> simp

@[simp] theorem abandonClose_aside (n : Nat) : (b.abandonClose n).aside = b.aside := by
  unfold Block.abandonClose
  split <;> simp

@[simp] theorem closeNow_aside (n now : Nat) : (b.closeNow n now).aside = b.aside := (rfl)

@[simp] theorem nozToFault_aside (n at_ : Nat) : (b.nozToFault n at_).aside = b.aside := by
  simp [Block.nozToFault]

@[simp] theorem nozUnitChange_aside (n : Nat) (old : UnitState) (at_ : Nat) :
    (b.nozUnitChange n old .faulted at_).aside = b.aside := by
  simp [Block.nozUnitChange]

@[simp] theorem propUnitChange_aside (k : Nat) (old : UnitState) (at_ : Nat) :
    (b.propUnitChange k old .faulted at_).aside = b.aside := (rfl)

@[simp] theorem lswUnitChange_aside (k : Nat) (old : UnitState) (at_ : Nat) :
    (b.lswUnitChange k old .faulted at_).aside = b.aside := by
  simp [Block.lswUnitChange]

@[simp] theorem axisUnitChange_aside (a : Nat) (old : UnitState) (at_ : Nat) :
    (b.axisUnitChange a old .faulted at_).aside = b.aside := by
  have hevent : ∀ a ∈ vigilWords, a ∉ eventWords [35] := by decide
  simp [Block.axisUnitChange, raiseItems_aside _ _ _ _ _ _ hevent]

@[simp] theorem boostTo_aside (c : Nat) (s : BoostState) (at_ : Nat) : (b.boostTo c s at_).aside = b.aside := (rfl)

@[simp] theorem boostUnitChange_aside (c : Nat) (old : UnitState) (at_ : Nat) :
    (b.boostUnitChange c old .faulted at_).aside = b.aside := by
  simp [Block.boostUnitChange]

@[simp] theorem boostSafe_aside (c at_ : Nat) : (b.boostSafe c at_).aside = b.aside := by
  simp [Block.boostSafe]

/-! PWM units -/

@[simp] theorem motorSettle_aside (u t : Nat) : (b.motorSettle u t).aside = b.aside := (rfl)
@[simp] theorem motorSet_aside (u at_ : Nat) (f : Motor → Motor) : (b.motorSet u at_ f).aside = b.aside := (rfl)

@[simp] theorem motorToFault_aside (u : Nat) (low : Bool) (at_ : Nat) : (b.motorToFault u low at_).aside = b.aside := by
  simp [Block.motorToFault]

@[simp] theorem motorUnitChange_aside (u : Nat) (old : UnitState) (at_ : Nat) :
    (b.motorUnitChange u old .faulted at_).aside = b.aside := by
  simp [Block.motorUnitChange]

section MotorUnit

variable {u : Nat} (hu : u < 16)
include hu

theorem followHall_aside (t lag : Nat) : (b.followHall u t lag).aside = b.aside := by
  have hcomm := motorWords_aside hu .MDRV_COMM_CNT (by simp)
  have hcnt := motorWords_aside hu .MDRV_CNT1 (by simp)
  unfold Block.followHall
  dsimp only
  (repeat' split) <;> simp [countWrap_aside _ _ _ _ _ _ hcomm, count_aside _ _ _ _ _ _ hcnt]

theorem takeCompares_aside (t : Nat) (c : List (Nat × Nat)) (carried : List (List (Nat × Bool))) :
    (b.takeCompares u t c carried).aside = b.aside := by
  have hevent : ∀ a ∈ vigilWords, a ∉ eventWords [99] := by decide
  have hcnt := motorWords_aside hu .MDRV_CNT0 (by simp)
  simp [Block.takeCompares, raiseLimited_aside _ _ _ _ _ hevent, count_aside _ _ _ _ _ _ hcnt]

theorem loopDuty_aside (d : Int) (t : Nat) : (b.loopDuty u d t).aside = b.aside := by
  simp [Block.loopDuty, Block.takeDuty, takeCompares_aside _ hu, followHall_aside _ hu]

end MotorUnit

/-! Loop slots -/

@[simp] theorem motorLoop_aside (slot : Nat) (d : Int) (at_ : Nat) : (b.motorLoop slot d at_).aside = b.aside := by
  refine foldl_leaves _ _ _ _ (fun b u hu => ?_)
  simp [loopDuty_aside _ (List.mem_range.mp hu)]

@[simp] theorem propFollow_aside (k at_ : Nat) : (b.propFollow k at_).aside = b.aside := by
  unfold Block.propFollow
  dsimp only
  split <;> simp [Block.propRamp, Block.propDecay]

@[simp] theorem propLoop_aside (slot v at_ : Nat) : (b.propLoop slot v at_).aside = b.aside := by
  simp [Block.propLoop]

@[simp] theorem loopUnitChange_aside (s : Nat) (old : UnitState) (at_ : Nat) :
    (b.loopUnitChange s old .faulted at_).aside = b.aside := by
  simp [Block.loopUnitChange, Block.loopWrite]

@[simp] theorem laneUnitChange_aside (u : Nat) (old new : UnitState) :
    (b.laneUnitChange u old new).aside = b.aside := by
  simp [Block.laneUnitChange, Block.clearLane, Block.unstage]

/-- A unit that becomes FAULTED changes its own channel only. -/
@[simp] theorem unitChange_aside (u : Nat) (old : UnitState) (at_ : Nat) :
    (b.unitChange u old .faulted at_).aside = b.aside := by
  unfold Block.unitChange
  dsimp only
  split <;> simp

end Aside

/-! ### The units in the safe state (R49, R408) -/

/-- The entry of a unit that Vigil drives to its safe state. -/
def UnitEntry.safed (c : Cause) (e : UnitEntry) : UnitEntry :=
  { e with state := .faulted, cause := c, mgmtFence := false, queued := none }

theorem setEntry_safed {c : Cause} {e : UnitEntry} (h : e.state ≠ .absent) :
    setEntry (UnitEntry.safed c) e = e.safed c := by simp [setEntry, h, UnitEntry.safed]

theorem setEntry_of_absent {f : UnitEntry → UnitEntry} {e : UnitEntry} (h : e.state = .absent) : setEntry f e = e :=
  if_pos h

theorem setEntry_safed_twice (c : Cause) (e : UnitEntry) :
    setEntry (UnitEntry.safed c) (setEntry (UnitEntry.safed c) e) = setEntry (UnitEntry.safed c) e := by
  by_cases h : e.state = .absent
  · rw [setEntry_of_absent h, setEntry_of_absent h]
  · have hsafed : (e.safed c).state ≠ .absent := by simp [UnitEntry.safed]
    rw [setEntry_safed h, setEntry_safed hsafed]
    rfl

theorem setUnit_unit (b : Block) (u v : Nat) (f : UnitEntry → UnitEntry) :
    (b.setUnit u f).unit v = if v = u then setEntry f (b.unit v) else b.unit v := by
  simp only [Block.unit, Block.setUnit, nth, modNth, List.getD_eq_getElem?_getD, List.getElem?_modify]
  by_cases h : v = u
  · subst h
    cases b.vig.units[v]? <;> simp [setEntry]
  · simp [h, Ne.symm h]

/-- What of Vigil is beside the Unit State Table. -/
def Vigil.beside (v : Vigil) : Vigil := { v with units := [] }

/-- What the channels' safe states leave, the Unit State Table apart. -/
def Block.asideUnits (b : Block) : Time × Vigil × List Packet × Engines × List CmpPin × (Word → List Word) :=
  (b.modVig Vigil.beside).aside

theorem asideUnits_of_aside {b t : Block} (h : t.aside = b.aside) : t.asideUnits = b.asideUnits :=
  congrArg (fun x => (x.1, x.2.1.beside, x.2.2)) h

theorem vig_of_aside {b t : Block} (h : t.aside = b.aside) : t.vig = b.vig := congrArg (fun x => x.2.1) h

theorem unit_of_vig {b t : Block} (h : t.vig = b.vig) (u : Nat) : t.unit u = b.unit u := by
  unfold Block.unit
  rw [h]

/-- One unit driven to its safe state: its entry first, then its channel, and a boost in any case. -/
def Block.safeUnit (c : Cause) (at_ : Nat) (b : Block) (u : Nat) : Block :=
  let e := b.unit u
  if e.state = .absent then b
  else
    let b1 := b.setUnit u (UnitEntry.safed c)
    let b2 := if e.state = .faulted then b1 else b1.unitChange u e.state .faulted at_
    if unitClass u = .boost then b2.boostSafe (u - 200) at_ else b2

section SafeUnits

variable (c : Cause) (at_ : Nat) (b : Block)

theorem safeUnit_present {u : Nat} (h : (b.unit u).state ≠ .absent) :
    (b.safeUnit c at_ u).aside = (b.setUnit u (UnitEntry.safed c)).aside := by
  simp [Block.safeUnit, h]

theorem safeUnit_unit (u v : Nat) :
    (b.safeUnit c at_ u).unit v = if v = u then setEntry (UnitEntry.safed c) (b.unit v) else b.unit v := by
  by_cases h : (b.unit u).state = .absent
  · have hsame : b.safeUnit c at_ u = b := if_pos h
    rw [hsame]
    split
    · rename_i hv
      rw [setEntry_of_absent (hv ▸ h)]
    · rfl
  · rw [unit_of_vig (vig_of_aside (safeUnit_present c at_ b h)), setUnit_unit]

theorem safeUnit_asideUnits (u : Nat) : (b.safeUnit c at_ u).asideUnits = b.asideUnits := by
  by_cases h : (b.unit u).state = .absent
  · exact congrArg Block.asideUnits (if_pos h)
  · exact asideUnits_of_aside (safeUnit_present c at_ b h) |>.trans rfl

/-- Each unit of a list driven to its safe state once, however often it stands there. -/
theorem safeUnits_unit (l : List Nat) (u : Nat) :
    (l.foldl (Block.safeUnit c at_) b).unit u
      = if u ∈ l then setEntry (UnitEntry.safed c) (b.unit u) else b.unit u := by
  induction l generalizing b with
  | nil => rfl
  | cons v l ih =>
    rw [List.foldl_cons, ih, safeUnit_unit]
    by_cases huv : u = v
    · by_cases hl : u ∈ l <;> simp [huv, setEntry_safed_twice]
    · simp [huv]

end SafeUnits

/-! ### The safe state (R49, R408, R409, R416, R421) -/

/-- The load switches that hold their output in the safe state: latched on, and conducting (R409). -/
def Block.holding (b : Block) : List Nat :=
  (List.range 16).filter (fun k => b.present (unitLsw k) && (b.sw k).latchOn && (b.sw k).conducts)

/-- The units and the load switches in the safe state, before the bridges brake. -/
def Block.unitsHeld (b : Block) (c : Cause) (at_ : Nat) : Block :=
  b.holding.foldl (fun acc k => acc.modSw k (fun s => { s with held := true, seq := .quiet, limitMa := s.latchMa }))
    (allUnits.foldl (Block.safeUnit c at_) b)

/-- The units and the channels in the safe state. -/
def Block.unitsSafe (b : Block) (c : Cause) (at_ : Nat) : Block := (b.unitsHeld c at_).motorsBrake at_

/-- The pins low until reset, and Vigil's words. -/
def Block.pinsHeld (b : Block) (flag : Nat) (tick : Nat) : Block :=
  let b1 := b.modAlm (fun a => { a with pins := a.pins.map (fun _ => {}) })
  let b2 := b1.modVig (fun g => { g with safePins := true })
  ((b2.latch .VIG_SAFE 0 flag).setFld .VIG_SAFE 0 31 16 tick).count .VIG_CNT 0 7 0

theorem safeState_eq (b : Block) (c : Cause) (code flag at_ : Nat) :
    b.safeState c code flag at_ = ((b.unitsSafe c at_).pinsHeld flag (b.time.count.toNat % 65536)).publishUnits.raise
      112 1 (payS code) at_ := rfl

/-- What Vigil keeps in the safe state: all but the Unit State Table, the brake and the pins. -/
def Vigil.kept (v : Vigil) : Vigil := { v with units := [], brakeSince := none, safePins := false }

/-- What the units and channels in the safe state leave, but for the Unit State Table and the brake. -/
structure Untouched (b t : Block) : Prop where
  time : t.time = b.time
  vig : t.vig.kept = b.vig.kept
  sent : t.link.sent = b.link.sent
  pub : t.pub = b.pub
  pins : t.eng.alm.pins = b.eng.alm.pins
  words : ∀ a ∈ vigilWords, ∀ d, fileGet t.regs a d = fileGet b.regs a d

theorem untouched_of_asideUnits {b t : Block} (h : t.asideUnits = b.asideUnits) : Untouched b t where
  time := congrArg (fun x => x.1) h
  vig := congrArg (fun x => x.2.1.kept) h
  sent := congrArg (fun x => x.2.2.1) h
  pub := congrArg (fun x => x.2.2.2.1) h
  pins := congrArg (fun x => x.2.2.2.2.1) h
  words := fun a ha d => by
    have hmap : vigilWords.map (fun a => fileGet t.regs a d) = vigilWords.map (fun a => fileGet b.regs a d) :=
      congrFun (congrArg (fun x => x.2.2.2.2.2) h) d
    exact List.map_inj_left.mp hmap a ha

theorem Untouched.trans {a b c : Block} (h : Untouched a b) (g : Untouched b c) : Untouched a c :=
  ⟨g.time.trans h.time, g.vig.trans h.vig, g.sent.trans h.sent, g.pub.trans h.pub, g.pins.trans h.pins,
    fun x hx d => (g.words x hx d).trans (h.words x hx d)⟩

section SafeState

variable (b : Block) (c : Cause) (at_ : Nat)

/-- The brake is the only change of Vigil that the bridges make. -/
theorem motorsBrake_aside :
    (b.motorsBrake at_).aside = (b.modVig (fun v => { v with brakeSince := some (b.now at_) })).aside := by
  refine (foldl_aside _ _ _ (fun acc u => ?_)).trans rfl
  simp

theorem unitsHeld_aside :
    (b.unitsHeld c at_).aside = (allUnits.foldl (Block.safeUnit c at_) b).aside := by
  simp [Block.unitsHeld]

theorem unitsHeld_asideUnits : (b.unitsHeld c at_).asideUnits = b.asideUnits :=
  (asideUnits_of_aside (unitsHeld_aside b c at_)).trans
    (foldl_leaves Block.asideUnits _ _ _ (fun b u _ => safeUnit_asideUnits c at_ b u))

theorem unitsHeld_untouched : Untouched b (b.unitsHeld c at_) := untouched_of_asideUnits (unitsHeld_asideUnits b c at_)

theorem motorsBrake_untouched : Untouched b (b.motorsBrake at_) :=
  (⟨rfl, rfl, rfl, rfl, rfl, fun _ _ _ => rfl⟩ : Untouched b (b.modVig _)).trans
    (untouched_of_asideUnits (asideUnits_of_aside (motorsBrake_aside b at_)))

theorem unitsSafe_untouched : Untouched b (b.unitsSafe c at_) :=
  (unitsHeld_untouched b c at_).trans (motorsBrake_untouched _ _)

theorem unitsSafe_unit {u : Nat} (hu : u < 203) :
    (b.unitsSafe c at_).unit u = setEntry (UnitEntry.safed c) (b.unit u) := by
  have hbrake : (b.unitsSafe c at_).vig.units = (b.unitsHeld c at_).vig.units :=
    (congrArg Vigil.units (vig_of_aside (motorsBrake_aside (b.unitsHeld c at_) at_))).trans rfl
  have hheld : (b.unitsHeld c at_).vig.units = (allUnits.foldl (Block.safeUnit c at_) b).vig.units :=
    congrArg Vigil.units (vig_of_aside (unitsHeld_aside b c at_))
  have hmem : u ∈ allUnits := List.mem_range.mpr hu
  have hunit := safeUnits_unit c at_ b allUnits u
  rw [if_pos hmem] at hunit
  rw [← hunit]
  unfold Block.unit
  rw [hbrake, hheld]

theorem unitsSafe_brakeSince : (b.unitsSafe c at_).vig.brakeSince = some (b.now at_) := by
  have hbrake : (b.unitsSafe c at_).vig.brakeSince = some ((b.unitsHeld c at_).now at_) :=
    congrArg Vigil.brakeSince (vig_of_aside (motorsBrake_aside _ at_))
  rw [hbrake, Block.now, Block.now, (unitsHeld_untouched b c at_).time]

/-! What a safe state shows -/

/-- A bit below a field that is set stays. -/
theorem getLsbD_setBits_below (w : Word) {m l i : Nat} (v : Nat) (hi : i < l) :
    (setBits w m l v).getLsbD i = w.getLsbD i := by
  have hlt := fun h => BitVec.lt_of_getLsbD (x := w) (i := i) h
  simpa [setBits, hi] using hlt

theorem safeState_vig (code flag : Nat) :
    (b.safeState c code flag at_).vig = { (b.unitsSafe c at_).vig with safePins := true } := by
  rw [safeState_eq, raise_vig]
  rfl

theorem safeState_eng (code flag : Nat) : (b.safeState c code flag at_).eng
    = ((b.unitsSafe c at_).modAlm (fun a => { a with pins := a.pins.map (fun _ => {}) })).eng := by
  rw [safeState_eq, raise_eng]
  rfl

theorem publishUnits_word (r : Reg) (i j : Nat) : b.publishUnits.word r i j = b.word r i j := rfl

/-- Raising event 112 leaves the words that count nothing of it. -/
theorem safeState_word (code flag : Nat) {r : Reg} {i : Nat} (h : addr r i ∉ eventWords [112]) :
    (b.safeState c code flag at_).word r i
      = ((b.unitsSafe c at_).pinsHeld flag (b.time.count.toNat % 65536)).word r i := by
  rw [safeState_eq, raise_word _ _ _ _ _ _ _ _ _ h, publishUnits_word]

/-- The words that a safe state has not written before its event. -/
theorem pinsHeld_word (flag tick : Nat) {r : Reg} {i : Nat} (hsafe : addr r i ≠ addr .VIG_SAFE)
    (hcnt : addr r i ≠ addr .VIG_CNT) : (b.pinsHeld flag tick).word r i = b.word r i := by
  unfold Block.pinsHeld Block.count Block.setFld Block.latch
  rw [word_setWord_ne _ _ _ _ _ _ _ _ hcnt, word_setWord_ne _ _ _ _ _ _ _ _ hsafe,
    word_setWord_ne _ _ _ _ _ _ _ _ hsafe]
  rfl

theorem pinsHeld_safe (flag tick : Nat) :
    (b.pinsHeld flag tick).word .VIG_SAFE = setBits (b.word .VIG_SAFE ||| BitVec.ofNat 32 (2 ^ flag)) 31 16 tick := by
  unfold Block.pinsHeld Block.count Block.setFld Block.latch
  rw [word_setWord_ne _ _ _ _ _ _ _ _ (by decide), word_setWord_same, word_setWord_same]
  rfl

theorem pinsHeld_count (flag tick : Nat) :
    (b.pinsHeld flag tick).fld .VIG_CNT 0 7 0 = min (b.fld .VIG_CNT 0 7 0 + 1) 255 := by
  unfold Block.pinsHeld
  rw [fld_count_same _ _ _ _ (by decide)]
  refine congrArg (fun n => min (n + 1) 255) (fld_congr 7 0 ?_)
  unfold Block.setFld Block.latch
  rw [word_setWord_ne _ _ _ _ _ _ _ _ (by decide), word_setWord_ne _ _ _ _ _ _ _ _ (by decide)]
  rfl

theorem Untouched.word {b t : Block} (h : Untouched b t) {r : Reg} {i : Nat} (hr : addr r i ∈ vigilWords) :
    t.word r i = b.word r i := h.words _ hr _

/-- What the obligation on halts and overruns says of a safe state entered `from_` ns after the Tick edge of `b`. -/
def SafeStateEntered (b : Block) (c : Cause) (bit from_ : Nat) (t : Block) : Prop :=
  (∀ u < 203, (b.unit u).state ≠ .absent → (t.unit u).state = .faulted ∧ (t.unit u).cause = c
      ∧ (t.unit u).queued = none ∧ (t.unit u).mgmtFence = false)
    ∧ (∀ u < 203, (b.unit u).state = .absent → (t.unit u).state = .absent)
    ∧ t.vig.safePins = true ∧ t.eng.alm.pins = b.eng.alm.pins.map (fun _ => {})
    ∧ t.pub = { b.pub with
        lsw := t.eng.lsw, fb := t.eng.fb, valve := t.eng.valve, mot := t.eng.mot, loop := t.eng.loop }
    ∧ t.vig.brakeSince = some (b.now from_) ∧ t.flag .VIG_SAFE 0 bit = true
    ∧ t.fld .VIG_SAFE 0 31 16 = b.time.count.toNat % 65536
    ∧ t.fld .VIG_CNT 0 7 0 = min (b.fld .VIG_CNT 0 7 0 + 1) 255 ∧ Raised 112 b t

theorem safeState_unit (code flag : Nat) {u : Nat} (hu : u < 203) :
    (b.safeState c code flag at_).unit u = setEntry (UnitEntry.safed c) (b.unit u) := by
  rw [← unitsSafe_unit b c at_ hu]
  unfold Block.unit
  rw [safeState_vig]

theorem safeState_pins (code flag : Nat) :
    (b.safeState c code flag at_).eng.alm.pins = b.eng.alm.pins.map (fun _ => {}) := by
  rw [safeState_eng, ← (unitsSafe_untouched b c at_).pins]
  rfl

/-- The register views of the units show the safe state at once (R49). -/
theorem safeState_pub (code flag : Nat) : (b.safeState c code flag at_).pub =
    let e := (b.safeState c code flag at_).eng
    { b.pub with lsw := e.lsw, fb := e.fb, valve := e.valve, mot := e.mot, loop := e.loop } := by
  rw [safeState_eng, safeState_eq, raise_pub, ← (unitsSafe_untouched b c at_).pub]
  rfl

theorem safeState_raised (code flag : Nat) : Raised 112 b (b.safeState c code flag at_) := by
  have hsame : ((b.unitsSafe c at_).pinsHeld flag (b.time.count.toNat % 65536)).publishUnits.word .EVT_CNT 112
      = b.word .EVT_CNT 112 := by
    rw [publishUnits_word, pinsHeld_word _ _ _ (by decide) (by decide),
      (unitsSafe_untouched b c at_).word (by decide)]
  have hraised := raise_raised ((b.unitsSafe c at_).pinsHeld flag (b.time.count.toNat % 65536)).publishUnits 112 1
    (payS code) at_ false (by decide)
  rw [← safeState_eq] at hraised
  exact hraised.trans (by rw [hsame])

/-- Entering the safe state. -/
theorem safeState_entered (code : Nat) {flag : Nat} (hflag : flag < 16) :
    SafeStateEntered b c flag at_ (b.safeState c code flag at_) := by
  have hsafe : (b.safeState c code flag at_).word .VIG_SAFE
      = setBits (b.word .VIG_SAFE ||| BitVec.ofNat 32 (2 ^ flag)) 31 16 (b.time.count.toNat % 65536) := by
    rw [safeState_word _ _ _ _ _ (by decide), pinsHeld_safe, (unitsSafe_untouched b c at_).word (by decide)]
  have hcnt : (b.safeState c code flag at_).fld .VIG_CNT 0 7 0 = min (b.fld .VIG_CNT 0 7 0 + 1) 255 := by
    rw [fld_congr 7 0 (safeState_word b c at_ code flag (by decide)), pinsHeld_count,
      fld_congr 7 0 ((unitsSafe_untouched b c at_).word (by decide))]
  refine ⟨fun u hu hu' => ?_, fun u hu hu' => ?_, ?_, safeState_pins .., safeState_pub .., ?_, ?_, ?_, hcnt,
    safeState_raised ..⟩
  · rw [safeState_unit _ _ _ _ _ hu, setEntry_safed hu']
    exact ⟨rfl, rfl, rfl, rfl⟩
  · rw [safeState_unit _ _ _ _ _ hu, setEntry_of_absent hu']
    exact hu'
  · rw [safeState_vig]
  · rw [safeState_vig]
    exact unitsSafe_brakeSince b c at_
  · rw [Block.flag, hsafe, getLsbD_setBits_below _ _ hflag]
    have hbit : flag < 32 := by omega
    simp only [BitVec.getLsbD_or, BitVec.getLsbD_ofNat, Nat.testBit_two_pow_self, hbit, decide_true, Bool.and_true,
      Bool.or_true]
  · rw [Block.fld, hsafe, bits_setBits_same _ _ (by decide)]
    exact Nat.mod_mod _ _

/-- What the safe state leaves of the time base, of Vigil and of the packets sent. -/
theorem pinsHeld_time (flag tick : Nat) : (b.pinsHeld flag tick).time = b.time := rfl

theorem safeState_time (code flag : Nat) : (b.safeState c code flag at_).time = b.time := by
  rw [safeState_eq, raise_time, Block.publishUnits, pinsHeld_time, (unitsSafe_untouched b c at_).time]

theorem safeState_kept (code flag : Nat) : (b.safeState c code flag at_).vig.kept = b.vig.kept := by
  rw [safeState_vig, ← (unitsSafe_untouched b c at_).vig]
  rfl

theorem safeState_sent (code flag : Nat) : (b.safeState c code flag at_).link.sent = b.link.sent := by
  rw [safeState_eq, raise_link_sent, ← (unitsSafe_untouched b c at_).sent]
  rfl

/-- The safe state raises no other event of Vigil. -/
theorem safeState_overruns (code flag : Nat) :
    (b.safeState c code flag at_).word .EVT_CNT 113 = b.word .EVT_CNT 113 := by
  rw [safeState_word _ _ _ _ _ (by decide), pinsHeld_word _ _ _ (by decide) (by decide),
    (unitsSafe_untouched b c at_).word (by decide)]

end SafeState

/-! ### Halts (R419, R420) -/

section Halts

variable (b : Block)

theorem modVig_keeps (f : Vigil → Vigil) (hunits : (f b.vig).units = b.vig.units)
    (hreqs : (f b.vig).reqs = b.vig.reqs) : Keeps [.vigil] b (b.modVig f) := by
  intro q hq
  cases q <;> simp_all [BlockPart.same, sessSame, Block.modVig]

theorem modMots_keeps (f : Motors → Motors) : Keeps [.motors] b (b.modMots f) := by
  intro q hq
  cases q <;> simp_all [BlockPart.same, sessSame, Block.modMots]

theorem modAlm_keeps (f : Almanac → Almanac) : Keeps [.almanac] b (b.modAlm f) := by
  intro q hq
  cases q <;> simp_all [BlockPart.same, sessSame, Block.modAlm]

theorem motorFreeze_keeps (at_ : Nat) : Keeps [.motors] b (b.motorFreeze at_) :=
  keeps_foldl _ _ _ _ (fun b _ => modMots_keeps b _)

theorem motorFreeze_regs (at_ : Nat) : (b.motorFreeze at_).regs = b.regs :=
  foldl_leaves Block.regs _ _ _ (fun _ _ _ => rfl)

theorem motorFreeze_vig (at_ : Nat) : (b.motorFreeze at_).vig = b.vig :=
  foldl_leaves Block.vig _ _ _ (fun _ _ _ => rfl)

theorem modMot_opened (b : Block) (u v : Nat) (f : Motor → Motor) (hf : ∀ m, (f m).opened = 0) :
    ((b.modMot u f).mot v).opened = if v = u then 0 else (b.mot v).opened := by
  simp only [Block.mot, Block.modMot, Block.modMots, nth, modNth, List.getD_eq_getElem?_getD, List.getElem?_modify]
  by_cases h : v = u
  · subst h
    cases b.eng.mot.units[v]? <;> simp [hf]
  · simp [h, Ne.symm h]

theorem foldl_modMot_opened (g : Nat → Motor → Motor) (hg : ∀ u m, (g u m).opened = 0) (l : List Nat) (v : Nat) :
    ((l.foldl (fun acc u => acc.modMot u (g u)) b).mot v).opened = if v ∈ l then 0 else (b.mot v).opened := by
  induction l generalizing b with
  | nil => rfl
  | cons u l ih =>
    rw [List.foldl_cons, ih, modMot_opened _ _ _ _ (hg u)]
    by_cases h : v = u <;> simp [h]

/-- A halt opens no leg of a unit whose levels it freezes (R267). -/
theorem motorFreeze_opened (at_ : Nat) {u : Nat} (hu : u < 16) : ((b.motorFreeze at_).mot u).opened = 0 :=
  (foldl_modMot_opened b (fun u m => { m with out := b.motorOut u at_, opened := 0 }) (fun _ _ => rfl) _ u).trans
    (if_pos (List.mem_range.mpr hu))

/-- An occurrence counted from a block with the same count. -/
theorem raised_from {b x t : Block} {s : Nat} (h : Raised s x t) (hsame : x.word .EVT_CNT s = b.word .EVT_CNT s) :
    Raised s b t := h.trans (by rw [hsame])

variable {s : State} {at_ : Nat}

/-- A live motor unit refuses the halt (R420). -/
theorem exec_debugHalt_refused (hdbg : s.blk.vig.dbg = .unlocked) (hlive : s.blk.motorLive = true)
    (hallow : (s.blk.sessWord .service .VIG_DBG_CTRL).getLsbD 2 = false) :
    exec (.debugHalt at_) s = .next { s with blk := s.blk.count .VIG_DBG_STAT 0 31 24 } := by
  show execDebugHalt at_ s = _
  have hopen : ¬ s.blk.vig.dbg ≠ .unlocked := by simp [hdbg]
  have hrefuse : (s.blk.motorLive && !(s.blk.sessWord .service .VIG_DBG_CTRL).getLsbD 2) = true := by
    rw [hlive, hallow]
    rfl
  simp only [execDebugHalt, lift, if_neg hopen, if_pos hrefuse]

/-- The block halted: the outputs frozen, the port HALTED since now (R420, R267). -/
def Block.halted (b : Block) (at_ : Nat) : Block :=
  (b.motorFreeze at_).modVig (fun g => { g with dbg := .halted, haltSince := b.now at_, haltLimited := false })

theorem exec_debugHalt (hdbg : s.blk.vig.dbg = .unlocked) (hallow : s.blk.motorLive = false
    ∨ (s.blk.sessWord .service .VIG_DBG_CTRL).getLsbD 2 = true) :
    exec (.debugHalt at_) s = .next { s with blk := (s.blk.halted at_).raise 118 1 (payS 3) at_ } := by
  show execDebugHalt at_ s = _
  have hopen : ¬ s.blk.vig.dbg ≠ .unlocked := by simp [hdbg]
  have haccept : ¬ (s.blk.motorLive && !(s.blk.sessWord .service .VIG_DBG_CTRL).getLsbD 2) = true := by
    rcases hallow with h | h <;> rw [h] <;> simp
  simp only [execDebugHalt, lift, if_neg hopen, if_neg haccept]
  rfl

theorem halted_keeps (b : Block) (at_ : Nat) :
    Keeps ([BlockPart.vigil, BlockPart.motors] ++ eventParts) b (b.halted at_) :=
  ((motorFreeze_keeps b at_).mono (by simp)).trans ((modVig_keeps _ _ rfl rfl).mono (by simp))

theorem halted_regs (b : Block) (at_ : Nat) : (b.halted at_).regs = b.regs := by
  simp only [Block.halted, modVig_regs, motorFreeze_regs]

theorem halted_vig (b : Block) (at_ : Nat) : (b.halted at_).vig
    = { b.vig with dbg := .halted, haltSince := b.now at_, haltLimited := false } := by
  simp only [Block.halted, modVig_own, motorFreeze_vig]

/-- The block with its halt ended: each unit waits for its next period start, the overrun count starts from 0
    (R267, R420, R421). -/
def Block.resumed (b : Block) : Block :=
  ((b.modVig (fun g => { g with dbg := .unlocked })).motorThaw).modTime (fun t => { t with run := 0 })

theorem exec_debugResume (hdbg : s.blk.vig.dbg = .halted) :
    exec (.debugResume at_) s = .next { s with blk := s.blk.resumed.raise 118 1 (payS 4) at_ } := by
  show execDebugResume at_ s = _
  simp only [execDebugResume, lift, Block.dbgResume]
  rw [if_pos hdbg]
  rfl

theorem resumed_keeps (b : Block) :
    Keeps ([BlockPart.vigil, BlockPart.clock, BlockPart.motors] ++ eventParts) b b.resumed :=
  ((modVig_keeps _ _ rfl rfl).mono (by simp)).trans (((modMots_keeps _ _).mono (by simp)).trans
    ((modTime_keeps _ _ rfl).mono (by simp)))

theorem exec_debugLockoutEnd {t : Nat} (hsince : s.blk.vig.dbgLockSince = some t)
    (hdue : t + 10000000000 ≤ s.blk.now at_) : exec (.debugLockoutEnd at_) s
      = .next { s with blk := s.blk.modVig (fun g => { g with dbgLockSince := none }) } := by
  show execDebugLockoutEnd at_ s = _
  simp only [execDebugLockoutEnd, lift, hsince]
  rw [if_pos hdue]

/-- HALT_LIMIT when it is due (R421). -/
theorem exec_haltLimit (hdbg : s.blk.vig.dbg = .halted) (hlimited : s.blk.vig.haltLimited = false)
    (hmax : s.blk.fld .VIG_DBG_CFG 0 7 0 ≠ 0)
    (hdue : s.blk.vig.haltSince + s.blk.fld .VIG_DBG_CFG 0 7 0 * 1000000000 ≤ s.blk.now at_) :
    exec (.haltLimit at_) s = .next { s with
      blk := (s.blk.safeState .haltLimit 9 1 at_).modVig (fun g => { g with haltLimited := true }) } := by
  show execHaltLimit at_ s = _
  simp only [execHaltLimit, lift]
  rw [if_pos ⟨hdbg, hmax, by simp [hlimited], hdue⟩]

end Halts

/-! ### The overrun watch (R48, R49) -/

section Overruns

/-- OVERRUN_CHECK has an unfinished COMMIT to abandon. -/
def Block.overruns (b : Block) : Prop :=
  b.time.finished = false ∧ b.vig.dbg ≠ .halted ∧ b.ticking = true ∧ b.vig.starting = false

/-- The COMMIT abandoned: its plans dropped, the run of overruns one longer, counted. -/
def Block.abandoned (b : Block) : Block :=
  (b.dropPlans.modTime (fun t => { t with run := min (t.run + 1) 255, closed := true })).count .TICK_OVR_CNT 0 15 0

/-- The overrun raised: when the last finished COMMIT ended, and the run (R48). -/
def Block.overrun (b : Block) : Block :=
  b.abandoned.raise 113 1 (payS (b.abandoned.time.lastEnd * 65536 + b.abandoned.time.run)) 95000

theorem overrun_time (b : Block) :
    b.overrun.time = { b.time with run := min (b.time.run + 1) 255, closed := true } := raise_time _ _ _ _ _ _

/-- What OVERRUN_CHECK makes of an overrun once the ALMANAC phase has run. -/
def Block.overrunChecked (b : Block) : Block :=
  if b.time.run = 2 then b.overrun.safeState .overrun 6 0 95000 else b.overrun

/-- The look-ahead leaves what the watch reads. -/
theorem lookAhead_leaves (b : Block) (at_ : Nat) :
    (b.lookAhead at_).time = b.time ∧ (b.lookAhead at_).vig = b.vig ∧ (b.lookAhead at_).eng.pwr = b.eng.pwr := by
  have h := lookAhead_watched b at_
  split at h <;> exact ⟨congrArg (·.1) h, congrArg (·.2.1) h, congrArg (·.2.2.1) h⟩

theorem overruns_lookAhead {b : Block} (h : b.overruns) (at_ : Nat) : (b.lookAhead at_).overruns := by
  obtain ⟨htime, hvig, hpwr⟩ := lookAhead_leaves b at_
  unfold Block.overruns Block.ticking
  rw [htime, hvig, hpwr]
  exact h

/-- After a look-ahead nothing of the ALMANAC phase is left to run. -/
theorem lookAhead_lookAhead (b : Block) (at_ : Nat) :
    (b.lookAhead at_).lookAhead at_ = b.lookAhead at_ := by
  by_cases hsoon : (b.eng.alm.due = 0 || Nat.blt at_ 20000 || b.frozen) = true
  · have hsame : b.lookAhead at_ = b := if_pos hsoon
    rw [hsame, hsame]
  · have hview := lookAhead_watched b at_
    rw [if_neg hsoon] at hview
    have hdue : (b.lookAhead at_).eng.alm.due = 0 := congrArg (·.2.2.2) hview
    exact lookAhead_none _ (.inr hdue)

theorem exec_overrunCheck {s : State} (h : s.blk.overruns) :
    exec .overrunCheck s = .next { s with blk := (s.blk.lookAhead 95000).overrunChecked } := by
  obtain ⟨htime, -, -⟩ := lookAhead_leaves s.blk 95000
  have hrun : (s.blk.lookAhead 95000).overrun.time.run = min (s.blk.time.run + 1) 255 := by
    rw [overrun_time, htime]
  have hthird : ((s.blk.lookAhead 95000).overrun.time.run = 3 ∧ s.blk.time.run ≠ 3)
      ↔ (s.blk.lookAhead 95000).time.run = 2 := by
    rw [hrun, htime]
    omega
  obtain ⟨hunfinished, hrunning, hticking, hstarted⟩ := h
  have hwatched :
      ¬ (s.blk.time.finished || s.blk.vig.dbg == .halted || !s.blk.ticking || s.blk.vig.starting) = true := by
    simp [hunfinished, hrunning, hticking, hstarted]
  show execOverrunCheck s = _
  simp only [execOverrunCheck, lift, if_neg hwatched]
  unfold Block.overrunChecked
  simp only [← hthird]
  rfl

theorem overrun_keeps (b : Block) : Keeps ([BlockPart.clock, BlockPart.almanac] ++ eventParts) b b.overrun :=
  ((modAlm_keeps b _).mono (by simp)).trans (((modTime_keeps _ _ rfl).mono (by simp)).trans
    (((count_keeps _ _ _ _ _ _).mono (by simp)).trans ((raise_keeps _ _ _ _ _ _).mono (by simp))))

theorem overrun_words (b : Block) : KeepsWords (addr .TICK_OVR_CNT :: eventWords [113]) b b.overrun :=
  ((count_words (b.dropPlans.modTime _) _ _ _ _ _).mono (by simp)).trans ((raise_words _ _ _ _ _ _).mono (by simp))

theorem overrun_raised (b : Block) : Raised 113 b b.overrun := by
  refine raised_from (raise_raised b.abandoned _ _ _ _ _ (by decide)) ?_
  exact word_setWord_ne _ _ _ _ _ _ _ _ (by decide)

theorem overrun_count (b : Block) :
    b.overrun.fld .TICK_OVR_CNT 0 15 0 = min (b.fld .TICK_OVR_CNT 0 15 0 + 1) 65535 := by
  have hword : b.overrun.word .TICK_OVR_CNT = b.abandoned.word .TICK_OVR_CNT := raise_word _ _ _ _ _ _ _ _ _ (by decide)
  rw [fld_congr 15 0 hword]
  exact fld_count_same _ _ _ _ (by decide)

end Overruns

/-- A block that differs from another only where a safe state does not look. -/
structure SafeAlike (b x : Block) : Prop where
  vig : x.vig = b.vig
  now : x.time.now = b.time.now
  count : x.time.count = b.time.count
  pub : x.pub = b.pub
  pins : x.eng.alm.pins = b.eng.alm.pins
  cnt : x.word .VIG_CNT = b.word .VIG_CNT
  raised : x.word .EVT_CNT 112 = b.word .EVT_CNT 112

theorem SafeStateEntered.of_alike {b x t : Block} {c : Cause} {bit from_ : Nat} (h : SafeStateEntered x c bit from_ t)
    (ha : SafeAlike b x) : SafeStateEntered b c bit from_ t := by
  obtain ⟨hfaulted, habsent, hpins, hidle, hpub, hbrake, hflag, htick, hcnt, hraised⟩ := h
  simp only [unit_of_vig ha.vig] at hfaulted habsent
  rw [ha.pins] at hidle
  rw [ha.pub] at hpub
  rw [Block.now, ha.now] at hbrake
  rw [ha.count] at htick
  rw [fld_congr 7 0 ha.cnt] at hcnt
  exact ⟨hfaulted, habsent, hpins, hidle, hpub, hbrake, hflag, htick, hcnt, raised_from hraised ha.raised⟩

/-- An overrun raised is no part of the safe state that the third enters. -/
theorem overrun_alike (b : Block) : SafeAlike b b.overrun where
  vig := raise_vig _ _ _ _ _ _
  now := by rw [overrun_time]
  count := by rw [overrun_time]
  pub := raise_pub _ _ _ _ _ _
  pins := congrArg (fun e => e.alm.pins) (raise_eng b.abandoned _ _ _ _ _)
  cnt := (raise_word b.abandoned _ _ _ _ _ _ _ _ (by decide)).trans (word_setWord_ne _ _ _ _ _ _ _ _ (by decide))
  raised := (raise_word b.abandoned _ _ _ _ _ _ _ _ (by decide)).trans (word_setWord_ne _ _ _ _ _ _ _ _ (by decide))

/-- That the limit is reached once is no part of the safe state. -/
theorem SafeStateEntered.haltLimited {b t : Block} {c : Cause} {bit from_ : Nat}
    (h : SafeStateEntered b c bit from_ t) :
    SafeStateEntered b c bit from_ (t.modVig (fun g => { g with haltLimited := true })) := h

/-- Settles O55: a halt, its end and its limit, and the overrun watch, each from what its command makes of the block.
    The safe state is read off the units, whose channels leave the time base, Vigil and its words aside; a look-ahead
    leaves what the watch reads. -/
theorem haltsOverrunsAndSafeState : Obligations.HaltsOverrunsAndSafeState := by
  intro s at_ _ b v now safe overrun
  refine ⟨fun hdbg => ⟨fun hallow => ?_, fun hlive hallow => ?_⟩, fun hdbg => ?_, fun t0 hsince hdue => ?_,
    fun hdbg hlimited hmax hdue => ?_, fun hover => ?_, fun hover hdue hrun => ?_, fun hover hdue hrun => ?_⟩
  · refine ⟨_, exec_debugHalt hdbg hallow, (halted_keeps b at_).trans ((raise_keeps _ _ _ _ _ _).mono (by simp)),
      (KeepsWords.of_regs (halted_regs b at_)).trans (raise_words _ _ _ _ _ _), ?_, ?_, fun u => ?_⟩
    · rw [raise_vig]
      exact halted_vig b at_
    · refine raised_from (raise_raised (b.halted at_) _ _ _ _ _ (by decide)) ?_
      unfold Block.word
      rw [halted_regs]
    · exact (congrArg (fun e => (nth e.mot.units u.val {}).opened) (raise_eng (b.halted at_) _ _ _ _ _)).trans
        (motorFreeze_opened b at_ u.isLt)
  · exact ⟨_, exec_debugHalt_refused hdbg hlive hallow, count_keeps _ _ _ _ _ _, count_words _ _ _ _ _ _,
      fld_count_same b _ _ _ (by decide)⟩
  · refine ⟨_, exec_debugResume hdbg,
      (resumed_keeps b).trans ((raise_keeps _ _ _ _ _ _).mono (List.subset_append_right _ _)),
      (KeepsWords.of_regs rfl : KeepsWords _ b b.resumed).trans (raise_words _ _ _ _ _ _), ?_, ?_, ?_, ?_⟩
    · rw [raise_eng]
      rfl
    · exact raise_vig _ _ _ _ _ _
    · exact raise_time _ _ _ _ _ _
    · exact raised_from (raise_raised b.resumed _ _ _ _ _ (by decide)) rfl
  · exact ⟨_, exec_debugLockoutEnd hsince hdue, modVig_keeps _ _ rfl rfl, KeepsWords.of_regs rfl, rfl⟩
  · have hkept := safeState_kept b .haltLimit at_ 9 1
    have hsafe := safeState_entered b .haltLimit at_ 9 (flag := 1) (by decide)
    exact ⟨_, exec_haltLimit hdbg hlimited hmax hdue, hsafe.haltLimited, rfl,
      (congrArg Vigil.dbg hkept).trans hdbg, safeState_time .., safeState_sent ..⟩
  · rw [exec_overrunCheck hover, exec_overrunCheck (overruns_lookAhead hover _), lookAhead_lookAhead]
  · have hexec := exec_overrunCheck hover
    rw [lookAhead_none _ (.inr hdue), Block.overrunChecked, if_neg hrun] at hexec
    exact ⟨_, hexec, overrun_keeps b, overrun_words b, overrun_time b, overrun_raised b, overrun_count b⟩
  · have hexec := exec_overrunCheck hover
    rw [lookAhead_none _ (.inr hdue), Block.overrunChecked, if_pos hrun] at hexec
    have hkept := safeState_kept b.overrun .overrun 95000 6 0
    have hsafe := safeState_entered b.overrun .overrun 95000 6 (flag := 0) (by decide)
    refine ⟨_, hexec, hsafe.of_alike (overrun_alike b), ?_, ?_, ?_, ?_⟩
    · rw [safeState_time, overrun_time, hrun]
      rfl
    · exact (safeState_overruns b.overrun .overrun 95000 6 0).trans (overrun_raised b)
    · have hvig : b.overrun.vig = b.vig := (overrun_alike b).vig
      exact (congrArg Vigil.resetDue hkept).trans (congrArg (fun v => v.kept.resetDue) hvig)
    · exact (safeState_sent ..).trans (raise_link_sent ..)

end Sys2Proof.Machine

/-! PROOFS. The pose unit (04): its timeouts and inertial samples, its fixes and aiding. -/

namespace Sys2Proof.Machine

open Sys2Proof (Word Byte Bytes Sess Hdr Instr)

/-! ### Changes of the pose unit -/

section PoseUnit

variable (b : Block)

theorem modPose_keeps (f : Pose → Pose) : Keeps [.pose] b (b.modPose f) := by
  intro q hq
  cases q <;> simp_all [BlockPart.same, sessSame, Block.modPose]

theorem modPose_words (l : List Nat) (f : Pose → Pose) : KeepsWords l b (b.modPose f) := KeepsWords.of_regs rfl

/-- `t` is `b` with the pose unit `p` and an occurrence of the event source `n`. -/
structure PoseEvent (n : Nat) (p : Pose) (b t : Block) : Prop where
  keeps : Keeps (.pose :: eventParts) b t
  words : KeepsWords (eventWords [n]) b t
  pose : t.eng.pose = p
  raised : Raised n b t

variable {b} {t : Block} {n : Nat} {p : Pose}

theorem poseEvent_raise (f : Pose → Pose) (c : Byte) (x : Payload) (at_ : Nat) (hn : n < 128) :
    PoseEvent n (f b.eng.pose) b ((b.modPose f).raise n c x at_) where
  keeps := ((modPose_keeps b f).mono (by simp)).trans ((raise_keeps _ _ _ _ _ _).mono (by simp))
  words := (modPose_words b _ f).trans (raise_words _ _ _ _ _ _)
  pose := by simp
  raised := raise_raised (b.modPose f) n c x at_ false hn

/-- A change of the pose unit before the event belongs to what leads to it. -/
theorem PoseEvent.of_modPose {f : Pose → Pose} (e : PoseEvent n p (b.modPose f) t) : PoseEvent n p b t where
  keeps := ((modPose_keeps b f).mono (by simp)).trans e.keeps
  words := (modPose_words b _ f).trans e.words
  pose := e.pose
  raised := e.raised

theorem PoseEvent.does {i : Instr} {s : State} (e : PoseEvent n p s.blk t)
    (hexec : exec i s = .next { s with blk := t }) :
    Does i s (.pose :: eventParts) (eventWords [n]) (fun t => t.eng.pose = p ∧ Raised n s.blk t) :=
  ⟨t, hexec, e.keeps, e.words, e.pose, e.raised⟩

/-- TRAVEL_LOST set is event 42 (R111). -/
theorem setTravelLost_poseEvent (at_ : Nat) (h : b.eng.pose.travelLost = false) :
    PoseEvent 42 { b.eng.pose with travelLost := true } b (b.setTravelLost true at_) := by
  have hne : ¬ b.eng.pose.travelLost = true := by simp [h]
  rw [Block.setTravelLost, if_neg hne]
  simpa using poseEvent_raise (b := b)
    (fun p => { p with travelLost := true, bridgeEnded := p.bridgeEnded && true }) 1 payZ at_ (n := 42) (by decide)

theorem setImuFault_same (at_ : Nat) {fault : Bool} (h : b.eng.pose.imuFault = fault) : b.setImuFault fault at_ = b :=
  if_pos h

/-- A change of IMU_FAULT is event 43 (R113). -/
theorem setImuFault_poseEvent (at_ : Nat) {fault : Bool} (h : b.eng.pose.imuFault ≠ fault) :
    PoseEvent 43 { b.eng.pose with imuFault := fault } b (b.setImuFault fault at_) := by
  rw [Block.setImuFault, if_neg h]
  exact poseEvent_raise (fun p => { p with imuFault := fault }) _ _ at_ (by decide)

theorem regrade_same (at_ : Nat) (h : b.gradeNow = b.eng.pose.grade) : b.regrade at_ = b := if_pos h

/-- A change of grade is event 39 (R131). -/
theorem regrade_poseEvent (at_ : Nat) (h : b.gradeNow ≠ b.eng.pose.grade) :
    PoseEvent 39 { b.eng.pose with grade := b.gradeNow } b (b.regrade at_) := by
  simp only [Block.regrade]
  rw [if_neg h]
  exact poseEvent_raise (fun p => { p with grade := b.gradeNow }) _ _ at_ (by decide)

/-- The last accepted fix become stale (R131). -/
def Block.staled (b : Block) : Block := b.modPose (fun p => { p with stale := true })

/-- A position that has a grade is DEAD_RECKONING once its fixes are stale: whether it has one does not depend on
    them (R131). -/
theorem gradeNow_stale (h : b.gradeNow ≠ 0) : b.staled.gradeNow = 1 := by
  unfold Block.gradeNow at *
  dsimp only at *
  split at h
  · exact absurd rfl h
  · next hgraded => exact (if_neg hgraded).trans (if_pos rfl)

end PoseUnit

/-! ### The timeouts and the samples (R111, R113, R131) -/

section PoseCommands

variable {s : State} {at_ : Nat}

/-- The bridge ended, the speed 0 (R111). -/
def Block.bridgeStopped (b : Block) : Block :=
  b.modPose (fun p => { p with bridge := false, bridgeEnded := true, now := { p.now with v := 0 } })

/-- Bridging and the estimation of sway stopped (R113). -/
def Block.swayStopped (b : Block) : Block :=
  b.modPose (fun p => { p with bridge := false, sway := 0, psi := 0, swaySat := false })

/-- The sample kept with its instant (R113). -/
def Block.sampled (b : Block) (sample : Sys2Proof.ImuSample) (at_ : Nat) : Block :=
  b.modPose (fun p => { p with imu := sample, imuAt := b.now at_ })

theorem exec_bridgeTimeout_due (hbridge : s.blk.eng.pose.bridge = true) (hen : s.blk.eng.pose.enabled = true)
    (hdue : s.blk.fld .POSE_BRIDGE 0 15 0 * 1000000 ≤ s.blk.now at_ - s.blk.eng.pose.bridgeSince) :
    exec (.bridgeTimeout at_) s = .next { s with
      blk := s.blk.bridgeStopped.setTravelLost true at_ } := by
  show execBridgeTimeout at_ s = _
  simp only [execBridgeTimeout, lift]
  rw [if_pos ⟨hbridge, hen, hdue⟩]
  rfl

theorem exec_imuSample (sample : Sys2Proof.ImuSample) :
    exec (.imuSample sample at_) s = .next { s with
      blk := if s.blk.eng.pose.enabled then (s.blk.sampled sample at_).setImuFault false at_ else s.blk.sampled sample at_ } :=
  rfl

theorem exec_imuSample_keepsFault (sample : Sys2Proof.ImuSample)
    (h : s.blk.eng.pose.imuFault = false ∨ s.blk.eng.pose.enabled = false) :
    exec (.imuSample sample at_) s = .next { s with blk := s.blk.sampled sample at_ } := by
  rw [exec_imuSample]
  split
  · next hen =>
    have hfault : (s.blk.sampled sample at_).eng.pose.imuFault = false := h.resolve_right (by simp [hen])
    rw [setImuFault_same at_ hfault]
  · rfl

theorem exec_imuSampleTimeout_due {failed : Bool} (hen : s.blk.eng.pose.enabled = true)
    (hdue : failed = true ∨ 5000000 ≤ s.blk.now at_ - s.blk.eng.pose.imuAt) :
    exec (.imuSampleTimeout failed at_) s = .next { s with
      blk := s.blk.swayStopped.setImuFault true at_ } := by
  show execImuSampleTimeout failed at_ s = _
  simp only [execImuSampleTimeout, lift]
  rw [if_pos ⟨hen, hdue⟩]
  rfl

theorem exec_imuSampleTimeout_disabled (failed : Bool) (hen : s.blk.eng.pose.enabled = false) :
    exec (.imuSampleTimeout failed at_) s = .next { s with blk := s.blk } := by
  show execImuSampleTimeout failed at_ s = _
  simp [execImuSampleTimeout, lift, hen]

theorem exec_fixTimeout_due (hen : s.blk.eng.pose.enabled = true)
    (hdue : s.blk.fld .POSE_FIX_CFG 0 27 16 * 10000000 ≤ s.blk.now at_ - s.blk.eng.pose.lastFixNow) :
    exec (.fixTimeout at_) s = .next { s with
      blk := s.blk.staled.regrade at_ } := by
  show execFixTimeout at_ s = _
  simp only [execFixTimeout, lift]
  rw [if_pos ⟨hen, hdue⟩]
  rfl

end PoseCommands

/-- Settles O18: each command, when it is due, changes the pose unit and then one of its flags or its grade, whose
    event is raised where that is a change. -/
theorem poseTimeoutsAndInertialSamples : Obligations.PoseTimeoutsAndInertialSamples := by
  intro s at_ b p
  refine ⟨fun hbridge hen hlost hdue => ?_, fun sample hkeep => ?_, fun sample hfault hen => ?_,
    fun failed hdue hfault hen => ?_, fun failed hen => ?_, fun hen hdue hgraded => ?_⟩
  · have hlost' : b.bridgeStopped.eng.pose.travelLost = false := hlost
    exact (setTravelLost_poseEvent at_ hlost').of_modPose.does (exec_bridgeTimeout_due hbridge hen hdue)
  · exact ⟨_, exec_imuSample_keepsFault sample hkeep, modPose_keeps _ _, modPose_words _ _ _, rfl⟩
  · have hne : (b.sampled sample at_).eng.pose.imuFault ≠ false := fun h => Bool.noConfusion (hfault.symm.trans h)
    refine (setImuFault_poseEvent at_ hne).of_modPose.does ?_
    rw [exec_imuSample, if_pos hen]
  · have hne : b.swayStopped.eng.pose.imuFault ≠ true := fun h => Bool.noConfusion (hfault.symm.trans h)
    exact (setImuFault_poseEvent at_ hne).of_modPose.does (exec_imuSampleTimeout_due hen hdue)
  · exact ⟨b, exec_imuSampleTimeout_disabled failed hen, Keeps.refl _ _, KeepsWords.refl _ _, rfl⟩
  · have hexec := exec_fixTimeout_due hen hdue
    have hgrade := gradeNow_stale hgraded
    by_cases hold : p.grade = 1
    · rw [regrade_same at_ (hgrade.trans hold.symm)] at hexec
      refine ⟨_, hexec, (modPose_keeps _ _).mono (by simp), modPose_words _ _ _, ?_, fun hne => absurd hold hne⟩
      exact congrArg (fun g => { p with stale := true, grade := g }) hold
    · have hne : b.staled.gradeNow ≠ b.staled.eng.pose.grade := fun h => hold (h.symm.trans hgrade)
      have e := regrade_poseEvent at_ hne
      rw [hgrade] at e
      exact ⟨_, hexec, e.of_modPose.keeps, e.of_modPose.words, e.pose, fun _ => e.of_modPose.raised⟩

/-! ### Fixes and aiding (R116, R117, R118, R518) -/

/-- Every field of a POSE_FIX in its range (R116). -/
def FixInRange (f : Sys2Proof.PoseFix) : Prop :=
  0 < f.headingSigma.toNat ∧ 0 < f.posSigma.toNat ∧ f.posSigma.toNat < 0xFFFF
    ∧ (f.speed ≠ 0x80000000 → 0 < f.speedSigma.toNat) ∧ f.quality.toNat ≤ 4

theorem beq_zero_eq_false {w : Nat} (x : BitVec w) : (x == 0) = false ↔ 0 < x.toNat := by
  simp [BitVec.toNat_eq, Nat.pos_iff_ne_zero]

theorem poseFixBad_false {f : Sys2Proof.PoseFix} : poseFixBad f = false ↔ FixInRange f := by
  have hpos : (f.posSigma == 0xFFFF) = false ↔ f.posSigma.toNat < 0xFFFF := by
    rw [beq_eq_false_iff_ne]
    bv_omega
  have hspeed : (f.speed != 0x80000000 && f.speedSigma == 0) = false
      ↔ (f.speed ≠ 0x80000000 → 0 < f.speedSigma.toNat) := by
    rw [Bool.and_eq_false_iff, beq_zero_eq_false, bne_eq_false_iff_eq, Decidable.or_iff_not_imp_left]
  have hquality : decide (5 ≤ f.quality.toNat) = false ↔ f.quality.toNat ≤ 4 := by
    rw [decide_eq_false_iff_not]; omega
  simp only [poseFixBad, FixInRange, Bool.or_eq_false_iff, beq_zero_eq_false, hpos, hspeed, hquality, and_assoc]

/-- An aiding item of a known kind, with a sigma where its kind has one (R117). -/
def AidInRange (i : Sys2Proof.AidItem) : Prop :=
  1 ≤ i.kind.toNat ∧ i.kind.toNat ≤ 4 ∧ (i.kind.toNat ≠ 4 → 0 < i.sigma.toNat)

theorem aidItemBad_false {i : Sys2Proof.AidItem} : aidItemBad i = false ↔ AidInRange i := by
  have hkind : decide (5 ≤ i.kind.toNat) = false ↔ i.kind.toNat ≤ 4 := by
    rw [decide_eq_false_iff_not]; omega
  have hsigma : (i.kind != 4 && i.sigma == 0) = false ↔ (i.kind.toNat ≠ 4 → 0 < i.sigma.toNat) := by
    rw [Bool.and_eq_false_iff, beq_zero_eq_false, bne_eq_false_iff_eq, ← BitVec.toNat_inj, Decidable.or_iff_not_imp_left]
    rfl
  simp only [aidItemBad, AidInRange, Bool.or_eq_false_iff, beq_zero_eq_false, hkind, hsigma, and_assoc]
  rfl

theorem any_aidItemBad_false {items : List Sys2Proof.AidItem} :
    items.any aidItemBad = false ↔ ∀ i ∈ items, AidInRange i := by
  simp only [List.any_eq_false, Bool.not_eq_true, aidItemBad_false]

/-- How a request that waits for the POSE phase is answered at its dispatch: `bad` tells whether a field of it is out
    of range, `waiting` how many of its kind wait, and `f` puts it behind them (R116 to R118, R518). -/
def Block.poseTakes (b : Block) (k : Sess) (h : Hdr) (op : BitVec 16) (bad : Bool) (waiting : Nat)
    (f : Pose → Pose) : Block :=
  if !b.eng.pose.enabled then b.replyNow (some k) h op .denied
  else if bad then b.replyNow (some k) h op .range
  else if 4 ≤ waiting then b.replyNow (some k) h op .busy
  else (b.modPose f).replyNow (some k) h op .ok

theorem dispatchPoseFix_eq (h : Hdr) (f : Sys2Proof.PoseFix) (k : Sess) (seq arrived : Nat) (b : Block) :
    dispatchPoseFix h f k seq arrived b
      = b.poseTakes k h poseFixRow.code (poseFixBad f) b.eng.pose.fixes.length
        (fun p => { p with fixes := p.fixes ++ [f] }) := rfl

theorem dispatchPoseAiding_eq (h : Hdr) (time : BitVec 64) (items : List Sys2Proof.AidItem) (k : Sess)
    (seq arrived : Nat) (b : Block) :
    dispatchPoseAiding h time items k seq arrived b
      = b.poseTakes k h poseAidingRow.code (items.any aidItemBad) b.eng.pose.aids.length
        (fun p => { p with aids := p.aids ++ [{ time := time.toNat, items := items }] }) := rfl

section PoseRequests

variable {i : Instr} {s : State} {h : Hdr} {k : Sess} {op : OpRow} {d : Dispatch}
  (hr : rowOf i = some (h, op)) (hd : dispatchOf i = some d) (v : Served s.blk h k op)

@[simp] theorem fences_pose (b : Block) : b.fences.eng.pose = b.eng.pose := fences_keeps b .pose (by simp)

@[simp] theorem replyNow_pose (b : Block) (k : Option Sess) (h : Hdr) (op : BitVec 16) (st : Status)
    (payload : Bytes) : (b.replyNow k h op st payload).eng.pose = b.eng.pose :=
  replyNow_keeps b k h op st payload .pose (by simp)

include hr hd v in
/-- A request whose dispatch changes the pose unit is answered OK. -/
theorem serves_of_modPose {f : Pose → Pose}
    (ht : d k s.blk.link.arrivals (s.blk.now h.at_) (s.blk.taken k h)
      = ((s.blk.taken k h).modPose f).replyNow (some k) h op.code .ok) :
    Serves i s h op.code .ok s.blk.time.count [] [.pose] [] (fun t => t.eng.pose = f s.blk.eng.pose) :=
  serves_of_dispatch hr hd v ht
    (((modPose_keeps _ f).mono (by simp)).trans ((replyNow_keeps _ _ _ _ _ _).mono (by simp [requestParts])))
    (KeepsWords.of_regs (by simp)) (by simp) (by simp)

include hr hd v in
/-- A request that waits for the POSE phase is served in each case with the answer of that case. -/
theorem serves_of_poseTakes {bad : Bool} {inRange : Prop} {waiting : Nat} {f : Pose → Pose}
    (ht : d k s.blk.link.arrivals (s.blk.now h.at_) (s.blk.taken k h)
      = (s.blk.taken k h).poseTakes k h op.code bad waiting f) (hbad : bad = false ↔ inRange) :
    (s.blk.eng.pose.enabled = true →
      (inRange →
        (waiting < 4 → Serves i s h op.code .ok s.blk.time.count [] [.pose] [] (fun t =>
          t.eng.pose = f s.blk.eng.pose))
        ∧ (4 ≤ waiting → Serves i s h op.code .busy s.blk.time.count [] [] [] (fun _ => True)))
      ∧ (¬ inRange → Serves i s h op.code .range s.blk.time.count [] [] [] (fun _ => True)))
    ∧ (s.blk.eng.pose.enabled = false → Serves i s h op.code .denied s.blk.time.count [] [] [] (fun _ => True)) := by
  rw [← hbad, Bool.not_eq_false]
  refine ⟨fun hen => ⟨fun hgood => ⟨fun hfew => ?_, fun hfull => ?_⟩, fun hout => ?_⟩, fun hen => ?_⟩
  · exact serves_of_modPose hr hd v (ht.trans (by simp [Block.poseTakes, hen, hgood, Nat.not_le_of_lt hfew]))
  · exact serves_of_replyNow hr hd v (ht.trans (by simp [Block.poseTakes, hen, hgood, hfull]))
  · exact serves_of_replyNow hr hd v (ht.trans (by simp [Block.poseTakes, hen, hout]))
  · exact serves_of_replyNow hr hd v (ht.trans (by simp [Block.poseTakes, hen]))

end PoseRequests

/-- Settles O19: both requests are taken as `Block.poseTakes` says. -/
theorem poseFixesAndAiding : Obligations.PoseFixesAndAiding := by
  intro s h k f time items b p tick fixed aided refused
  exact ⟨fun v => serves_of_poseTakes (op := poseFixRow) rfl rfl v (dispatchPoseFix_eq h f k _ _ _) poseFixBad_false,
    fun v => serves_of_poseTakes (op := poseAidingRow) rfl rfl v (dispatchPoseAiding_eq h time items k _ _ _)
      any_aidItemBad_false⟩

end Sys2Proof.Machine

/-! PROOFS. The field map (05): missing tiles, abandoned fills, writebacks. -/

namespace Sys2Proof.Machine

open Sys2Proof (Word Byte Bytes Sess Hdr Instr)

/-! ### Entries of a table -/

section TableEntries

variable {α : Type} {l : List α} {i : Nat} {d : α}

theorem lt_length_of_nth_ne (h : nth l i d ≠ d) : i < l.length :=
  Nat.lt_of_not_le fun hi => h (by simp [nth, hi])

theorem nth_modNth_same (f : α → α) (hi : i < l.length) : nth (modNth l i f) i d = f (nth l i d) := by
  simp [nth, modNth, hi]

theorem modNth_modNth (f g : α → α) : modNth (modNth l i f) i g = modNth l i (fun x => g (f x)) :=
  List.modify_modify_eq f g i l

/-- What replaces an entry is told by its image of that entry alone. -/
theorem modNth_congr {f g : α → α} (h : f (nth l i d) = g (nth l i d)) : modNth l i f = modNth l i g := by
  refine List.ext_getElem? fun j => ?_
  simp only [modNth, List.getElem?_modify]
  split
  · next hj =>
    subst hj
    rcases Nat.lt_or_ge i l.length with hi | hi
    · simpa [nth, hi] using h
    · simp [hi]
  · rfl

/-- The first free place of a table is where the search for one ends. -/
theorem findIdx_none_eq [DecidableEq α] {l : List (Option α)} (hi : i < l.length) (hfree : nth l i none = none)
    (hfirst : ∀ j < i, nth l j none ≠ none) : l.findIdx (fun x => x == none) = i := by
  refine (List.findIdx_eq hi).mpr ⟨by simpa [nth, hi] using hfree, fun j hj => ?_⟩
  simpa [nth, Nat.lt_trans hj hi, Option.isSome_iff_ne_none] using hfirst j hj

end TableEntries

/-! ### Packets sent on the V96's own account (R362, R363) -/

section OwnPackets

variable {b : Block} (k : Sess) (op : BitVec 16) (q : Fin 4)

/-- The first packet takes the number of the session, and those after it follow on. -/
theorem ownPackets_cons (p : Bytes) (l : List Bytes) (at_ : Nat) :
    ownPackets b k op q (p :: l) = ownPackets b k op q [p] ++ ownPackets (b.sendOwn k op q p at_) k op q l := by
  have hnext (x : BitVec 16) (n : Nat) : x + BitVec.ofNat 16 (n + 1) = x + 1 + BitVec.ofNat 16 n :=
    (congrArg (x + ·) ((BitVec.ofNat_add n 1).trans (BitVec.add_comm _ _))).trans (BitVec.add_assoc _ _ _).symm
  by_cases h : (b.link.sess k).state = .opened
  · cases k <;>
      simp_all only [ownPackets, Block.sendOwn, Link.sess, Link.modSess, List.mapIdx_cons, if_true, modSess_own,
        send_own, send_time, modSess_time] <;> simp
  · simp [ownPackets, Block.sendOwn, h]

theorem sendOwn_sent (p : Bytes) (at_ : Nat) :
    (b.sendOwn k op q p at_).link.sent = b.link.sent ++ ownPackets b k op q [p] := by
  by_cases h : (b.link.sess k).state = .opened
  · cases k <;> simp_all [ownPackets, Block.sendOwn, Link.sess, Link.modSess]
  · simp [ownPackets, Block.sendOwn, h]

end OwnPackets

/-! ### Packets about the map -/

/-- `t` is `b` with the map `m`, and with `packets` sent. -/
structure MapSends (packets : List Packet) (m : FieldMap) (b t : Block) : Prop where
  keeps : Keeps [.map, .sent] b t
  regs : t.regs = b.regs
  sent : t.link.sent = b.link.sent ++ packets
  map : t.eng.map = m

section MapSends

variable {b t : Block} {ps : List Packet} {m : FieldMap}

/-- A change of the map before the packets are sent belongs to what leads to them. -/
theorem MapSends.of_modMap {f : FieldMap → FieldMap} (e : MapSends ps m (b.modMap f) t) : MapSends ps m b t where
  keeps := ((modMap_keeps b f).mono (by simp)).trans e.keeps
  regs := e.regs
  sent := e.sent
  map := e.map

theorem MapSends.modMap (e : MapSends ps m b t) (f : FieldMap → FieldMap) : MapSends ps (f m) b (t.modMap f) where
  keeps := e.keeps.trans ((modMap_keeps t f).mono (by simp))
  regs := e.regs
  sent := e.sent
  map := congrArg f e.map

/-- Packets sent one after the other, to one session. -/
theorem mapSends_foldl_sendOwn {α : Type} (k : Sess) (op : BitVec 16) (q : Fin 4) (payload : α → Bytes) (at_ : Nat)
    (l : List α) (b : Block) :
    MapSends (ownPackets b k op q (l.map payload)) b.eng.map b
      (l.foldl (fun acc c => acc.sendOwn k op q (payload c) at_) b) := by
  induction l generalizing b with
  | nil => exact ⟨Keeps.refl _ _, rfl, by simp [ownPackets], rfl⟩
  | cons c l ih =>
    have e := ih (b.sendOwn k op q (payload c) at_)
    refine ⟨((sendOwn_keeps b k op q _ at_).mono (by simp)).trans e.keeps, ?_, ?_, ?_⟩
    · exact e.regs.trans (sendOwn_regs ..)
    · rw [List.map_cons, ownPackets_cons k op q _ _ at_, ← List.append_assoc, ← sendOwn_sent k op q _ at_]
      exact e.sent
    · rw [← sendOwn_eng b k op q (payload c) at_]
      exact e.map

theorem MapSends.does {i : Instr} {s : State} (e : MapSends ps m s.blk t)
    (hexec : exec i s = .next { s with blk := t }) :
    Does i s [.map, .sent] [] (fun t => t.link.sent = s.blk.link.sent ++ ps ∧ t.eng.map = m) :=
  ⟨t, hexec, e.keeps, KeepsWords.of_regs e.regs, e.sent, e.map⟩

end MapSends

/-! ### Events of the map (R161) -/

/-- `t` is `b` with the map `m`, one more in the counter `r`, and an occurrence of the event source `n`. -/
structure MapEvent (r : Reg) (msb lsb n : Nat) (m : FieldMap) (b t : Block) : Prop where
  keeps : Keeps (.map :: eventParts) b t
  words : KeepsWords (addr r :: eventWords [n]) b t
  raised : Raised n b t
  counted : t.fld r 0 msb lsb = min (b.fld r 0 msb lsb + 1) (2 ^ (msb + 1 - lsb) - 1)
  map : t.eng.map = m

section MapEvent

variable {b t : Block} {r : Reg} {msb lsb n : Nat} {m : FieldMap}

/-- The map changed, the change counted and its event raised. -/
theorem mapEvent_raise (f : FieldMap → FieldMap) (c : Byte) (p : Payload) (at_ : Nat) (hn : n < 128) (hmsb : msb < 32)
    (hr : addr r ∉ eventWords [n]) :
    MapEvent r msb lsb n (f b.eng.map) b (((b.modMap f).count r 0 msb lsb).raise n c p at_) where
  keeps := ((modMap_keeps b f).mono (by simp)).trans
    (((count_keeps _ _ _ _ _ _).mono (by simp)).trans ((raise_keeps _ _ _ _ _ _).mono (by simp)))
  words := (modMap_words b _ f).trans
    (((count_words _ _ _ _ _ _).mono (by simp)).trans ((raise_words _ _ _ _ _ _).mono (by simp)))
  raised := by
    have hne : addr .EVT_CNT n ∉ [addr r] := by
      simp only [eventWords, List.map_cons, List.map_nil, List.mem_cons, not_or] at hr
      simpa using Ne.symm hr.2.2.1
    exact (raise_raised _ n c p at_ false hn).of_word (count_words (b.modMap f) _ _ _ _ _ _ hne _)
  counted := by
    rw [fld_congr _ _ (raise_word _ n c p at_ false r 0 0 hr)]
    exact fld_count_same (b.modMap f) r 0 1 hmsb
  map := by simp

theorem MapEvent.modMap (e : MapEvent r msb lsb n m b t) (f : FieldMap → FieldMap) :
    MapEvent r msb lsb n (f m) b (t.modMap f) where
  keeps := e.keeps.trans ((modMap_keeps t f).mono (by simp))
  words := e.words.trans (modMap_words t _ f)
  raised := e.raised
  counted := e.counted
  map := congrArg f e.map

theorem MapEvent.does {i : Instr} {s : State} (e : MapEvent r msb lsb n m s.blk t)
    (hexec : exec i s = .next { s with blk := t }) :
    Does i s (.map :: eventParts) (addr r :: eventWords [n]) (fun t => Raised n s.blk t
      ∧ t.fld r 0 msb lsb = min (s.blk.fld r 0 msb lsb + 1) (2 ^ (msb + 1 - lsb) - 1) ∧ t.eng.map = m) :=
  ⟨t, hexec, e.keeps, e.words, e.raised, e.counted, e.map⟩

/-- An event leaves what is sent to a session afterwards as it was. -/
theorem MapEvent.ownPackets_eq (e : MapEvent r msb lsb n m b t) (op : BitVec 16) (q : Fin 4) (l : List Bytes) :
    ownPackets t .main op q l = ownPackets b .main op q l := by
  have hclock : { t.time with hand := 0 } = { b.time with hand := 0 } := e.keeps .clock (by simp [eventParts])
  have hsess := e.keeps .sessions (by simp [eventParts])
  have hsent := e.keeps .sent (by simp [eventParts])
  have htick : t.time.count = b.time.count := by simpa using congrArg Time.count hclock
  simp only [BlockPart.same, sessSame, Prod.mk.injEq] at hsess hsent
  obtain ⟨⟨hstate, hid, haddr, hport, -⟩, -⟩ := hsess
  obtain ⟨-, -, hseq, -⟩ := hsent
  by_cases h : b.link.main.state = .opened <;>
    simp [ownPackets, Link.sess, htick, hstate, hid, haddr, hport, hseq, h]

end MapEvent

/-! ### TILE_FAULT (R146) -/

/-- What TILE_FAULT carries of a fault slot; flag bit 0 is set where the packet is sent again. -/
def faultPayload (slot : Nat) (resend : Bool) (f : TileFault) : Bytes :=
  leBytes 1 slot ++ leBytes 1 f.prod ++ leBytes 1 f.key.fid
    ++ leBytes 1 ((if resend then 1 else 0) + (if f.poison then 2 else 0) + (if f.timedOut then 4 else 0))
    ++ leBytes 4 (narrow 32 f.key.tx) ++ leBytes 4 (narrow 32 f.key.ty) ++ leBytes 4 f.tick.toNat
    ++ leBytes 4 f.seq.toNat

section Faults

variable {b t : Block} {slot : Nat} {f : TileFault} {key : Key}

theorem mapSends_sendFault (resend : Bool) (at_ : Nat) (h : nth b.eng.map.faults slot none = some f) :
    MapSends (ownPackets b .main 0x0081 0 [faultPayload slot resend f])
      { b.eng.map with faults := modNth b.eng.map.faults slot (fun _ => some { f with lastSent := b.now at_ }) } b
      (b.sendFault slot resend at_) := by
  have e := (mapSends_foldl_sendOwn .main 0x0081 0 (faultPayload slot resend) at_ [f] b).modMap (fun m => { m with
    faults := modNth m.faults slot (fun x => x.map (fun f => { f with lastSent := b.now at_ })) })
  have hslot : modNth b.eng.map.faults slot (fun x => x.map (fun f => { f with lastSent := b.now at_ }))
      = modNth b.eng.map.faults slot (fun _ => some { f with lastSent := b.now at_ }) :=
    modNth_congr (d := none) (by rw [h]; rfl)
  rw [← hslot]
  simp only [Block.sendFault, h]
  exact e

theorem faultOf_congr (h : t.eng.map.faults = b.eng.map.faults) (key : Key) : t.faultOf key = b.faultOf key := by
  simp only [Block.faultOf, h]

theorem resendFault_none (at_ : Nat) (h : b.faultOf key = none) : b.resendFault key at_ = b := by
  simp only [Block.resendFault, h]

theorem resendFault_some (at_ : Nat) (h : b.faultOf key = some slot) :
    b.resendFault key at_ = b.sendFault slot true at_ := by
  simp only [Block.resendFault, h]

@[simp] theorem resendFault_replay (b : Block) (key : Key) (at_ : Nat) :
    (b.resendFault key at_).eng.map.replay = b.eng.map.replay := by
  unfold Block.resendFault Block.sendFault
  split
  · split <;> simp
  · rfl

theorem releaseFault_some (h : b.faultOf key = some slot) :
    b.releaseFault key = b.modMap (fun m => { m with
      faults := modNth m.faults slot (fun _ => none), replay := m.replay.filter (fun r => r.key != key) }) := by
  simp only [Block.releaseFault, h]
  rfl

end Faults

/-! ### Missing tiles (R143, R145, R146, R159) -/

section MissingTiles

variable {s : State} {at_ : Nat}

/-- The map once a key has timed out for a product (R145). -/
def FieldMap.timesOut (m : FieldMap) (p : Nat) (k : Key) : FieldMap :=
  { m with
    waits := m.waits.map (fun w => if w.prod == p && w.key == k then { w with timedOut := true } else w)
    faults := m.faults.map (fun x => x.map (fun f => if f.key == k then { f with timedOut := true } else f)) }

/-- The wait of a product on a key that has timed out for it. -/
theorem waitOf_timesOut {b t : Block} {p : Nat} {k : Key} {w : KeyWait} (hw : b.waitOf p k = some w)
    (ht : t.eng.map = b.eng.map.timesOut p k) : t.waitOf p k = some { w with timedOut := true } := by
  have hmine : (w.prod == p && w.key == k) = true :=
    List.find?_some (p := fun w : KeyWait => w.prod == p && w.key == k) hw
  have hsame : ((fun w : KeyWait => w.prod == p && w.key == k)
      ∘ (fun w => if w.prod == p && w.key == k then { w with timedOut := true } else w))
      = fun w => w.prod == p && w.key == k := by
    funext x
    simp only [Function.comp_apply]
    split <;> rfl
  unfold Block.waitOf at hw ⊢
  rw [ht, FieldMap.timesOut, List.find?_map, hsame, hw, Option.map_some, if_pos hmine]

theorem exec_mapFaultTmo_due {p : Fin 2} {tx ty : Int} {w : KeyWait}
    (hw : s.blk.waitOf p { fid := s.blk.prodFid p, tx := tx, ty := ty } = some w) (hfirst : w.timedOut = false)
    (hparked : s.blk.parkedOn p { fid := s.blk.prodFid p, tx := tx, ty := ty } = true)
    (hdue : s.blk.fld .MAP_POLICY p 26 16 * 1000000 ≤ s.blk.now at_ - w.since) :
    exec (.mapFaultTmo p tx ty at_) s = .next { s with
      blk := s.blk.keyTimesOut p { fid := s.blk.prodFid p, tx := tx, ty := ty } at_ } := by
  show execMapFaultTmo p tx ty at_ s = _
  simp only [execMapFaultTmo, lift, hw]
  rw [if_pos ⟨by simp [hfirst], hparked, hdue⟩]

theorem exec_tileFaultResend_due {slot : Fin 16} {f : TileFault}
    (hf : nth s.blk.eng.map.faults slot none = some f)
    (hdue : s.blk.fld .MAP_CFG 0 11 8 * 10000000 ≤ s.blk.now at_ - f.lastSent) :
    exec (.tileFaultResend slot at_) s = .next { s with blk := s.blk.sendFault slot true at_ } := by
  show execTileFaultResend slot at_ s = _
  simp only [execTileFaultResend, lift, hf]
  rw [if_pos hdue]

theorem exec_faultSlotRelease_due {slot : Fin 16} {f : TileFault}
    (hf : nth s.blk.eng.map.faults slot none = some f) (hdue : 500000000 ≤ s.blk.now at_ - f.lastUse)
    (h0 : s.blk.parkedOn 0 f.key = false) (h1 : s.blk.parkedOn 1 f.key = false) :
    exec (.faultSlotRelease slot at_) s = .next { s with blk := s.blk.releaseFault f.key } := by
  show execFaultSlotRelease slot at_ s = _
  simp only [execFaultSlotRelease, lift, hf]
  rw [if_pos ⟨hdue, by simp [h0], by simp [h1]⟩]

theorem exec_fillTimeout_due {f : Fin 128} (hx : (s.blk.frame f).state = .filling)
    (hopen : (s.blk.frame f).doneAt = none)
    (hdue : s.blk.fld .MAP_CFG 0 7 0 * 1000000 ≤ s.blk.now at_ - (s.blk.frame f).since) :
    exec (.fillTimeout f at_) s = .next { s with
      blk := (s.blk.abandonFill f true at_).resendFault (s.blk.frame f).key at_ } := by
  show execFillTimeout f at_ s = _
  simp only [execFillTimeout, lift]
  rw [if_pos ⟨hx, hopen, hdue⟩]

/-- A frame that is not FREE is one of the table. -/
theorem frame_lt_length {b : Block} {f : Nat} (h : (b.frame f).state ≠ .free) : f < b.eng.map.frames.length :=
  lt_length_of_nth_ne (d := {}) fun e => h (congrArg Frame.state e)

/-- A fill abandoned with its event: its frame is as after reset, and its replay entries are gone (R143, R154). -/
theorem mapEvent_abandonFill (b : Block) (f : Nat) (at_ : Nat) :
    MapEvent .MAP_CNT_FILL 7 0 56
      { b.eng.map with
        frames := modNth b.eng.map.frames f (fun _ => {})
        replay := b.eng.map.replay.filter (fun r => r.key != (b.frame f).key) } b (b.abandonFill f true at_) :=
  (mapEvent_raise (b := b) (fun m => { m with frames := modNth m.frames f (fun _ => {}) }) 1
    (keyPayload (b.frame f).prod (b.frame f).key seqNone) at_ (by decide) (by decide) (by decide)).modMap
      (fun m => { m with replay := m.replay.filter (fun r => r.key != (b.frame f).key) })

/-- The fill that has timed out is abandoned, and an outstanding fault of its key is sent again (R143, R159). -/
theorem does_fillTimeout {f : Fin 128} (hx : (s.blk.frame f).state = .filling)
    (hopen : (s.blk.frame f).doneAt = none)
    (hdue : s.blk.fld .MAP_CFG 0 7 0 * 1000000 ≤ s.blk.now at_ - (s.blk.frame f).since) :
    Does (.fillTimeout f at_) s (.map :: .sent :: eventParts) (addr .MAP_CNT_FILL :: eventWords [56]) (fun t =>
      Raised 56 s.blk t ∧ t.fld .MAP_CNT_FILL 0 7 0 = min (s.blk.fld .MAP_CNT_FILL 0 7 0 + 1) 255
        ∧ t.frame f = {} ∧ KeepsRows f.val s.blk.eng.map.frames t.eng.map.frames
        ∧ t.eng.map.replay = s.blk.eng.map.replay.filter (fun r => r.key != (s.blk.frame f).key)
        ∧ (s.blk.faultOf (s.blk.frame f).key = none → t.link.sent = s.blk.link.sent)
        ∧ ∀ (slot : Fin 16) (x : TileFault), nth s.blk.eng.map.faults slot none = some x →
            s.blk.faultOf (s.blk.frame f).key = some slot.val →
            t.link.sent = s.blk.link.sent ++ ownPackets s.blk .main 0x0081 0 [faultPayload slot true x]) := by
  have hexec := exec_fillTimeout_due hx hopen hdue
  have e := mapEvent_abandonFill s.blk f at_
  generalize s.blk.abandonFill f true at_ = b1 at hexec e
  generalize (s.blk.frame f).key = key at hexec e ⊢
  have hregs := resendFault_regs b1 key at_
  have hfaults : b1.eng.map.faults = s.blk.eng.map.faults := by rw [e.map]
  have hframes : (b1.resendFault key at_).eng.map.frames = modNth s.blk.eng.map.frames f (fun _ => {}) := by
    rw [resendFault_frames, e.map]
  have hsent : b1.link.sent = s.blk.link.sent := (e.keeps .sent (by simp [eventParts])).1
  refine ⟨_, hexec, ?_, e.words.trans (KeepsWords.of_regs hregs), raised_of_regs _ e.raised hregs,
    ?_, ?_, ?_, ?_, ?_, ?_⟩
  · exact (e.keeps.mono (by simp)).trans ((resendFault_keeps _ _ _).mono (by simp))
  · exact (fld_congr _ _ (word_of_regs hregs _ _ _)).trans e.counted
  · rw [frame_congr (b := s.blk.modFrame f (fun _ => {})) hframes]
    exact frame_modFrame_same _ _ (frame_lt_length (by simp [hx]))
  · rw [hframes]
    exact keepsRows_modNth _ _ _
  · rw [resendFault_replay, e.map]
  · intro hnone
    rw [resendFault_none _ ((faultOf_congr hfaults key).trans hnone), hsent]
  · intro slot x hslot hfault
    rw [resendFault_some _ ((faultOf_congr hfaults key).trans hfault),
      (mapSends_sendFault true at_ (hfaults ▸ hslot)).sent, e.ownPackets_eq, hsent]

end MissingTiles

/-- Settles O20: the time-out of a key and the end of a fill are changes of the map with a count and an event; a fault
    sent again is one packet; a slot is released with the replay entries of its key. -/
theorem missingTilesAndAbandonedFills : Obligations.MissingTilesAndAbandonedFills := by
  intro s at_ b m fault
  have hkey (k : Key) : (fun r : Replay => decide (r.key ≠ k)) = fun r => r.key != k := by
    funext r
    rw [bne, decide_not]
    rfl
  refine ⟨?_, fun slot f hf => ⟨fun hdue => ?_, fun hslot hdue h0 h1 => ?_⟩, fun f hx hopen hdue => ?_⟩
  · intro p tx ty w k hw hfirst hparked hdue
    have e : MapEvent .MAP_CNT_FAULT 31 16 55 (m.timesOut p k) b (b.keyTimesOut p k at_) :=
      mapEvent_raise (fun m => m.timesOut p k) _ _ _ (by decide) (by decide) (by decide)
    refine ⟨_, exec_mapFaultTmo_due hw hfirst hparked hdue, e.keeps, e.words, e.raised, e.counted,
      waitOf_timesOut hw e.map, ?_, ?_⟩
    · rw [e.map]
      simp only [FieldMap.timesOut, beq_iff_eq]
    · rw [e.map]
      rfl
  · exact (mapSends_sendFault true at_ hf).does (exec_tileFaultResend_due hf hdue)
  · have hexec := exec_faultSlotRelease_due (at_ := at_) hf hdue h0 h1
    rw [releaseFault_some hslot] at hexec
    refine ⟨_, hexec, modMap_keeps _ _, modMap_words _ _ _, ?_⟩
    rw [hkey]
    rfl
  · simp only [hkey]
    exact does_fillTimeout hx hopen hdue

/-! ### Writebacks (R156, R157) -/

/-- What TILE_WRITEBACK carries of a chunk of a snapshot. -/
def chunkPayload (tag : Nat) (w : Writeback) (chunk : Nat) : Bytes :=
  leBytes 1 tag ++ leBytes 1 w.prod ++ leBytes 1 chunk ++ leBytes 1 w.key.fid ++ leBytes 4 (narrow 32 w.key.tx)
    ++ leBytes 4 (narrow 32 w.key.ty) ++ leBytes 4 w.seq.toNat ++ leBytes 2 w.frameId.toNat ++ leBytes 6 0
    ++ w.cells.bytes chunk

/-- The packets of a whole writeback. -/
def Block.chunkPackets (b : Block) (tag : Nat) (w : Writeback) : List Packet :=
  ownPackets b .main 0x0082 2 ((List.range 32).map (chunkPayload tag w))

/-- The four writeback buffers (R156). -/
theorem Block.Sound.buffers_length {b : Block} (h : b.Sound) : b.eng.map.buffers.length = 4 := by
  have hsizes := h.sizes
  simp only [Engines.sizes, List.cons.injEq] at hsizes
  obtain ⟨-, -, -, -, -, -, -, hbuffers, -⟩ := hsizes
  exact hbuffers

section Writebacks

variable {s : State} {b : Block} {at_ tag : Nat} {w : Writeback} {f : Fin 128}

/-- A snapshot is sent whole: the other side has none of its chunks (R156, R157). -/
theorem mapSends_sendWriteback (at_ : Nat) (h : nth b.eng.map.buffers tag none = some w) :
    MapSends (b.chunkPackets tag w)
      { b.eng.map with buffers := modNth b.eng.map.buffers tag (fun _ => some { w with lastSent := b.now at_ }) } b
      (b.sendWriteback tag 0 at_) := by
  have e := (mapSends_foldl_sendOwn .main 0x0082 2 (chunkPayload tag w) at_ (List.range 32) b).modMap (fun m =>
    { m with buffers := modNth m.buffers tag (fun x => x.map (fun v => { v with lastSent := b.now at_ })) })
  have hbuffer : modNth b.eng.map.buffers tag (fun x => x.map (fun v => { v with lastSent := b.now at_ }))
      = modNth b.eng.map.buffers tag (fun _ => some { w with lastSent := b.now at_ }) :=
    modNth_congr (d := none) (by rw [h]; rfl)
  have hall (c : Nat) : (0 : Word).getLsbD c = false := BitVec.getLsbD_zero
  rw [← hbuffer]
  simp only [Block.sendWriteback, h, hall, Bool.false_eq_true, if_false]
  exact e

/-- A snapshot put into a buffer and sent, beside another change of the map. -/
theorem mapSends_putWriteback {g : FieldMap → FieldMap} (at_ : Nat) (htag : tag < b.eng.map.buffers.length)
    (hg : (g b.eng.map).buffers = modNth b.eng.map.buffers tag (fun _ => some w)) :
    MapSends (b.chunkPackets tag w)
      { g b.eng.map with
        buffers := modNth b.eng.map.buffers tag (fun _ => some { w with lastSent := b.now at_ }) } b
      ((b.modMap g).sendWriteback tag 0 at_) := by
  have hw : nth (b.modMap g).eng.map.buffers tag none = some w := by
    rw [modMap_own, hg, nth_modNth_same _ htag]
  have e := (mapSends_sendWriteback at_ hw).of_modMap
  rw [modMap_own, hg, modNth_modNth] at e
  exact e

theorem exec_dirtyAgeExpiry_due (hx : (s.blk.frame f).state = .dirty)
    (hdue : s.blk.fld .MAP_CFG 0 31 24 * 1000000000 ≤ s.blk.now at_ - (s.blk.frame f).since) :
    exec (.dirtyAgeExpiry f at_) s = .next { s with blk := s.blk.wantWriteback f } := by
  show execDirtyAgeExpiry f at_ s = _
  simp only [execDirtyAgeExpiry, lift]
  rw [if_pos ⟨hx, hdue⟩]

/-- A writeback of a DIRTY frame is called for (R156). -/
theorem wantWriteback_dirty {n : Nat} (hx : (b.frame n).state = .dirty) :
    b.wantWriteback n = b.modFrame n (fun x => { x with wanted := true }) := by
  have hframes := modNth_congr (l := b.eng.map.frames) (i := n) (d := {})
    (f := fun x => if x.state == .dirty then { x with wanted := true } else x)
    (g := fun x => { x with wanted := true }) (if_pos (beq_iff_eq.mpr hx))
  simp only [Block.wantWriteback, Block.modFrame, Block.modMap, hframes]

/-- The snapshot of frame `f` that WRITEBACK_START takes (R156). -/
def Block.snapshotOf (b : Block) (f : Nat) (at_ : Nat) : Writeback :=
  let x := b.frame f
  { frame := some f, prod := x.prod, key := x.key, seq := x.seq, frameId := x.retired.getD b.eng.pose.frame
    cells := x.cells, lastSent := b.now at_ }

/-- The map with a snapshot in a buffer, and the frame that it is of WRITING_BACK (R156). -/
def FieldMap.writesBack (m : FieldMap) (tag : Nat) (w : Writeback) (f : Nat) : FieldMap :=
  { m with
    buffers := modNth m.buffers tag (fun _ => some w)
    frames := modNth m.frames f (fun x => { x with
      state := .writingBack, redirty := false, wanted := false, raisedNew := 0 }) }

theorem exec_writebackStart_due (hx : (s.blk.frame f).state = .dirty) (hwanted : (s.blk.frame f).wanted = true)
    (htag : tag < s.blk.eng.map.buffers.length) (hfree : nth s.blk.eng.map.buffers tag none = none)
    (hfirst : ∀ i < tag, nth s.blk.eng.map.buffers i none ≠ none)
    (hqueue : s.blk.segmentsTouch (s.blk.frame f).prod (s.blk.frame f).key = false) :
    exec (.writebackStart f at_) s = .next { s with
      blk := (s.blk.modMap (fun m => m.writesBack tag (s.blk.snapshotOf f at_) f)).sendWriteback tag 0 at_ } := by
  show execWritebackStart f at_ s = _
  simp only [execWritebackStart, lift, findIdx_none_eq htag hfree hfirst]
  rw [if_pos ⟨hx, hwanted, htag, by simp [hqueue]⟩]
  rfl

/-- A frame whose writeback has failed: DIRTY again (R157, R158). -/
def Frame.redirtied (x : Frame) (now : Nat) : Frame :=
  { x with state := .dirty, since := now, redirty := false, wanted := x.retired.isSome || x.dropped }

/-- The map with a buffer free again, and the frame it was of DIRTY again (R157, R158). -/
def FieldMap.writebackFails (m : FieldMap) (tag f now : Nat) : FieldMap :=
  { m with
    buffers := modNth m.buffers tag (fun _ => none)
    frames := modNth m.frames f (fun x => x.redirtied now) }

section Timeout

variable {tag : Fin 4} (hw : nth s.blk.eng.map.buffers tag none = some w) (hopen : s.blk.isOpen .main = true)
  (hdue : s.blk.fld .MAP_CFG 0 23 16 * 10000000 ≤ s.blk.now at_ - w.lastSent)

include hw hopen hdue

theorem exec_writebackTimeout_resends (hfew : w.resends < 3) :
    exec (.writebackTimeout tag at_) s = .next { s with
      blk := ((s.blk.modMap (fun m => { m with
        buffers := modNth m.buffers tag (fun _ => some { w with resends := w.resends + 1 }) })).sendWriteback
          tag 0 at_).count .MAP_CNT_WB 0 15 8 } := by
  show execWritebackTimeout tag at_ s = _
  simp only [execWritebackTimeout, lift, hw]
  rw [if_neg (by simpa [hopen] using hdue), if_pos hfew]

theorem exec_writebackTimeout_fails (hlast : 3 ≤ w.resends) (hf : w.frame = some f.val) :
    exec (.writebackTimeout tag at_) s = .next { s with
      blk := (((s.blk.modMap (fun m => { m with buffers := modNth m.buffers tag (fun _ => none) })).count
        .MAP_CNT_WB 0 7 0).raise 57 1 (keyPayload w.prod w.key w.seq) at_).modFrame f (fun x =>
          if x.state = .writingBack then x.redirtied (s.blk.now at_) else x) } := by
  show execWritebackTimeout tag at_ s = _
  simp only [execWritebackTimeout, lift, hw]
  rw [if_neg (by simpa [hopen] using hdue), if_neg (Nat.not_lt_of_le hlast)]
  simp only [hf]
  rfl

/-- A writeback not acknowledged in time is sent whole again, and the resend counted (R157). -/
theorem does_writebackTimeout_resends (hfew : w.resends < 3) :
    Does (.writebackTimeout tag at_) s [.map, .sent] [addr .MAP_CNT_WB] (fun t =>
      t.link.sent = s.blk.link.sent ++ s.blk.chunkPackets tag w
        ∧ t.fld .MAP_CNT_WB 0 15 8 = min (s.blk.fld .MAP_CNT_WB 0 15 8 + 1) 255
        ∧ t.eng.map = { s.blk.eng.map with buffers := modNth s.blk.eng.map.buffers tag (fun _ =>
            some { w with resends := w.resends + 1, lastSent := s.blk.now at_ }) }) := by
  have e := mapSends_putWriteback (b := s.blk) (w := { w with resends := w.resends + 1 })
    (g := fun m => { m with
      buffers := modNth m.buffers tag (fun _ => some { w with resends := w.resends + 1 }) })
    at_ (lt_length_of_nth_ne (d := none) (by simp [hw])) rfl
  refine ⟨_, exec_writebackTimeout_resends hw hopen hdue hfew, ?_, ?_, e.sent, ?_, e.map⟩
  · exact e.keeps.trans ((count_keeps _ _ _ _ _ _).mono (by simp))
  · exact (KeepsWords.of_regs e.regs).trans (count_words _ _ _ _ _ _)
  · rw [← fld_congr 15 8 (word_of_regs e.regs .MAP_CNT_WB 0 0)]
    exact fld_count_same _ .MAP_CNT_WB 0 1 (by decide)

/-- A writeback not acknowledged after three resends has failed: its frame is DIRTY again (R157). -/
theorem does_writebackTimeout_fails (hlast : 3 ≤ w.resends) (hf : w.frame = some f.val)
    (hx : (s.blk.frame f).state = .writingBack) :
    Does (.writebackTimeout tag at_) s (.map :: eventParts) (addr .MAP_CNT_WB :: eventWords [57]) (fun t =>
      Raised 57 s.blk t ∧ t.fld .MAP_CNT_WB 0 7 0 = min (s.blk.fld .MAP_CNT_WB 0 7 0 + 1) 255
        ∧ t.eng.map = s.blk.eng.map.writebackFails tag f (s.blk.now at_)) := by
  have hframes := modNth_congr (l := s.blk.eng.map.frames) (i := f) (d := {})
    (f := fun x => if x.state = .writingBack then x.redirtied (s.blk.now at_) else x)
    (g := fun x => x.redirtied (s.blk.now at_)) (if_pos hx)
  have e := (mapEvent_raise (b := s.blk) (r := .MAP_CNT_WB) (msb := 7) (lsb := 0) (n := 57)
    (fun m => { m with buffers := modNth m.buffers tag (fun _ => none) }) 1 (keyPayload w.prod w.key w.seq) at_
    (by decide) (by decide) (by decide)).modMap (fun m => { m with frames := modNth m.frames f (fun x =>
      if x.state = .writingBack then x.redirtied (s.blk.now at_) else x) })
  rw [hframes] at e
  exact e.does (exec_writebackTimeout_fails hw hopen hdue hlast hf)

end Timeout

end Writebacks

/-- Settles O22: a writeback is called for by its frame, sent whole from its snapshot, and sent whole again until it
    has failed. -/
theorem writebacks : Obligations.Writebacks := by
  intro s at_ hs b m chunks
  have hbuffers := hs.buffers_length
  refine ⟨fun f hx => ⟨fun hdue => ?_, fun tag htag hfree hfirst hwanted hqueue => ?_⟩,
    fun tag w hw hopen hdue => ⟨does_writebackTimeout_resends hw hopen hdue,
      fun f hlast hf hx => does_writebackTimeout_fails hw hopen hdue hlast hf hx⟩⟩
  · have hexec := exec_dirtyAgeExpiry_due hx hdue
    rw [wantWriteback_dirty hx] at hexec
    exact ⟨_, hexec, modFrame_keeps _ _ _, modFrame_words _ _ _ _, rfl⟩
  · have hlen : tag < b.eng.map.buffers.length := by rw [hbuffers]; exact htag
    exact (mapSends_putWriteback (g := fun m => m.writesBack tag (b.snapshotOf f at_) f) at_ hlen rfl).does
      (exec_writebackStart_due hx hwanted hlen hfree hfirst hqueue)

end Sys2Proof.Machine

/-! PROOFS. The Almanac and the compare unit (06): the AS_APPLIED stream, and lanes whose nozzle is in SERVICE. -/

namespace Sys2Proof.Machine

open Sys2Proof (Word Byte Bytes Sess Hdr Instr)

/-! ### Coverage segments of the Tick (R153) -/

theorem BlockPart.same_symm {b t : Block} {p : BlockPart} (h : p.same b t) : p.same t b := by
  cases p <;> simp_all [BlockPart.same, sessSame]

theorem Keeps.symm {l : List BlockPart} {b t : Block} (h : Keeps l b t) : Keeps l t b :=
  fun p hp => BlockPart.same_symm (h p hp)

/-- A track without the coverage segments of its interval. -/
def Track.emptied (k : Track) : Track := { k with segments := [] }

/-- The block but for the coverage segments of the tracks and what the Almanac keeps for each nozzle. -/
def Block.beyondSegments (b : Block) : Block :=
  b.modAlm (fun a => { a with tracks := a.tracks.map Track.emptied, noz := [] })

theorem modAlm_words (l : List Nat) (b : Block) (f : Almanac → Almanac) : KeepsWords l b (b.modAlm f) :=
  KeepsWords.of_regs rfl

theorem map_modNth_of_absorbs {α β : Type} (g : α → β) (f : α → α) (h : ∀ x, g (f x) = g x) (l : List α) (i : Nat) :
    (modNth l i f).map g = l.map g := by
  refine List.ext_getElem? fun j => ?_
  simp only [modNth, List.getElem?_map, List.getElem?_modify]
  split <;> cases l[j]? <;> simp [h]

section Segments

variable (b : Block)

@[simp] theorem modAlmNoz_beyondSegments (n : Nat) (f : AlmNoz → AlmNoz) :
    (b.modAlmNoz n f).beyondSegments = b.beyondSegments := (rfl)

theorem modTrack_beyondSegments (p : Nat) {f : Track → Track} (h : ∀ k, (f k).emptied = k.emptied) :
    (b.modAlm (fun a => { a with tracks := modNth a.tracks p f })).beyondSegments = b.beyondSegments := by
  simp [Block.beyondSegments, Block.modAlm, map_modNth_of_absorbs _ _ h]

@[simp] theorem segmentIn_beyondSegments (n t : Nat) (e no hb : Int) :
    (b.segmentIn n t e no hb).beyondSegments = b.beyondSegments := by
  unfold Block.segmentIn
  dsimp only
  split
  · rfl
  · rw [modAlmNoz_beyondSegments]
    split
    · exact modTrack_beyondSegments _ _ fun _ => rfl
    · rfl

@[simp] theorem segmentTo_beyondSegments (n t : Nat) (e no hb : Int) :
    (b.segmentTo n t e no hb).beyondSegments = b.beyondSegments := by
  unfold Block.segmentTo
  rw [segmentIn_beyondSegments]
  exact foldl_leaves _ _ _ _ fun b v _ => segmentIn_beyondSegments b n _ _ _ _

theorem segmentsToEdge_beyondSegments : b.segmentsToEdge.beyondSegments = b.beyondSegments := by
  unfold Block.segmentsToEdge
  refine foldl_leaves Block.beyondSegments _ _ _ fun b n _ => ?_
  split
  · exact segmentTo_beyondSegments ..
  · rfl

theorem segmentsToEdge_keeps : Keeps [.almanac] b b.segmentsToEdge := by
  have h : Keeps [.almanac] b b.segmentsToEdge.beyondSegments := by
    rw [segmentsToEdge_beyondSegments]
    exact modAlm_keeps _ _
  exact h.trans (modAlm_keeps _ _).symm

@[simp] theorem segmentsToEdge_regs : b.segmentsToEdge.regs = b.regs := by
  simpa [Block.beyondSegments] using congrArg Block.regs (segmentsToEdge_beyondSegments b)

@[simp] theorem segmentsToEdge_time : b.segmentsToEdge.time = b.time := by
  simpa [Block.beyondSegments] using congrArg Block.time (segmentsToEdge_beyondSegments b)

@[simp] theorem segmentsToEdge_next : b.segmentsToEdge.eng.alm.next = b.eng.alm.next := by
  simpa [Block.beyondSegments] using congrArg (·.eng.alm.next) (segmentsToEdge_beyondSegments b)

@[simp] theorem segmentsToEdge_ring : b.segmentsToEdge.eng.alm.ring = b.eng.alm.ring := by
  simpa [Block.beyondSegments] using congrArg (·.eng.alm.ring) (segmentsToEdge_beyondSegments b)

theorem segmentsToEdge_tracks :
    b.segmentsToEdge.eng.alm.tracks.map Track.emptied = b.eng.alm.tracks.map Track.emptied := by
  simpa only [Block.beyondSegments, modAlm_own] using congrArg (·.eng.alm.tracks) (segmentsToEdge_beyondSegments b)

@[simp] theorem segmentsToEdge_tracks_length : b.segmentsToEdge.eng.alm.tracks.length = b.eng.alm.tracks.length := by
  simpa using congrArg List.length (segmentsToEdge_tracks b)

theorem segmentsToEdge_track (p : Nat) :
    (nth b.segmentsToEdge.eng.alm.tracks p {}).emptied = (nth b.eng.alm.tracks p {}).emptied := by
  have hmap (l : List Track) : nth (l.map Track.emptied) p {} = (nth l p {}).emptied := by
    simp only [nth, List.getD_eq_getElem?_getD, List.getElem?_map]
    exact Option.getD_map Track.emptied {} l[p]?
  rw [← hmap, ← hmap, segmentsToEdge_tracks]

end Segments

/-! ### The walker's queue and the ring of records (R155, R195) -/

section Records

variable (b : Block)

theorem queueSegments_keeps (l : List Segment) (at_ : Nat) : Keeps (.map :: eventParts) b (b.queueSegments l at_) := by
  refine keeps_foldl _ _ _ _ fun b s => ?_
  dsimp only
  split
  · exact (modMap_keeps _ _).mono (by simp)
  · exact ((count_keeps _ _ _ _ _ _).mono (by simp)).trans ((raiseLimited_keeps _ _ _ _ _).mono (by simp))

theorem queueSegments_words (l : List Segment) (at_ : Nat) :
    KeepsWords (addr .MAP_CNT_COV :: eventWords [59]) b (b.queueSegments l at_) := by
  refine keepsWords_foldl _ _ _ _ fun b s => ?_
  dsimp only
  split
  · exact modMap_words _ _ _
  · exact ((count_words _ _ _ _ _ _).mono (by simp)).trans ((raiseLimited_words _ _ _ _ _).mono (by simp))

@[simp] theorem queueSegments_alm (l : List Segment) (at_ : Nat) : (b.queueSegments l at_).eng.alm = b.eng.alm :=
  queueSegments_keeps b l at_ .almanac (by simp [eventParts])

variable (r : AaRecord) (at_ : Nat)

theorem keepRecord_keeps : Keeps (.almanac :: eventParts) b (b.keepRecord r at_) := by
  have halm (f : Almanac → Almanac) : Keeps (.almanac :: eventParts) b (b.modAlm f) :=
    (modAlm_keeps b f).mono (by simp)
  unfold Block.keepRecord
  dsimp only
  split
  · exact (halm _).trans
      (((count_keeps _ _ _ _ _ _).mono (by simp)).trans ((raiseLimited_keeps _ _ _ _ _).mono (by simp)))
  · exact halm _

theorem keepRecord_words : KeepsWords (addr .ALM_AA_STAT :: eventWords [53]) b (b.keepRecord r at_) := by
  unfold Block.keepRecord
  dsimp only
  split
  · exact (modAlm_words _ _ _).trans
      (((count_words _ _ _ _ _ _).mono (by simp)).trans ((raiseLimited_words _ _ _ _ _).mono (by simp)))
  · exact modAlm_words _ _ _

@[simp] theorem keepRecord_next : (b.keepRecord r at_).eng.alm.next = seqNext b.eng.alm.next := by
  unfold Block.keepRecord
  dsimp only
  split <;> simp

@[simp] theorem keepRecord_tracks : (b.keepRecord r at_).eng.alm.tracks = b.eng.alm.tracks := by
  unfold Block.keepRecord
  dsimp only
  split <;> simp

@[simp] theorem keepRecord_ring : (b.keepRecord r at_).eng.alm.ring
    = (if b.eng.alm.ring.length = 4096 then b.eng.alm.ring.drop 1 else b.eng.alm.ring) ++ [r] := by
  unfold Block.keepRecord
  dsimp only
  split <;> simp

/-- A track record takes the segments of its product with it; no event is raised for its kind (R192, R196). -/
theorem makeRecord_track {p : Nat} (hp : p < 2) (hr : r.kind = 4) :
    b.makeRecord p r at_ =
      ((b.modAlm (fun a => { a with tracks := modNth a.tracks p (fun k => { k with segments := [] }) })).queueSegments
        ((nth b.eng.alm.tracks p {}).segments.map (fun s => { s with seq := b.eng.alm.next })) at_).keepRecord
          { r with seq := b.eng.alm.next, made := b.now at_ } at_ := by
  simp [Block.makeRecord, hp, hr]

theorem makeRecord_track_keeps {p : Nat} (hp : p < 2) (hr : r.kind = 4) :
    Keeps ([BlockPart.almanac, BlockPart.map] ++ eventParts) b (b.makeRecord p r at_) := by
  rw [makeRecord_track b r at_ hp hr]
  exact ((modAlm_keeps _ _).mono (by simp)).trans
    (((queueSegments_keeps _ _ _).mono (by simp)).trans ((keepRecord_keeps _ _ _).mono (by simp)))

theorem makeRecord_track_words {p : Nat} (hp : p < 2) (hr : r.kind = 4) :
    KeepsWords ([addr .ALM_AA_STAT, addr .MAP_CNT_COV] ++ eventWords [53, 59]) b (b.makeRecord p r at_) := by
  rw [makeRecord_track b r at_ hp hr]
  exact (modAlm_words _ _ _).trans (((queueSegments_words _ _ _).mono (by simp [eventWords])).trans
    ((keepRecord_words _ _ _).mono (by simp [eventWords])))

end Records

/-! ### TRACK_RECORD_DUE (R193) -/

/-- The record that TRACK_RECORD_DUE makes, before the ring gives it its number and the instant. -/
def Block.trackRecord (b : Block) (p : Nat) : AaRecord :=
  let v := b.eng.alm.view
  b.placed
    { seq := 0, stamp := v.stamp, kind := 4, flags := b.recordFlags p false false false false false
      noz := 0xFF, odo := v.odoAt 0 % 2 ^ 48, e := divRound v.e mmUnit, n := divRound v.n mmUnit
      info := narrow 16 (v.hb / 4294967296) + narrow 16 (divRound v.yaw 100) * 65536, made := 0 }

/-- The track of a product begins its next interval at the Tick edge. -/
def Track.restarted (b : Block) (k : Track) : Track := { k with odo := b.odoEdge, at_ := b.time.now }

theorem restarted_emptied (b : Block) (k : Track) : (k.restarted b).emptied = k.emptied.restarted b := rfl

/-- The block as TRACK_RECORD_DUE makes its record: segments up to the Tick edge, the interval begun anew. -/
def Block.trackEdge (b : Block) (p : Nat) : Block :=
  b.segmentsToEdge.modAlm (fun a => { a with tracks := modNth a.tracks p (Track.restarted b) })

theorem trackRecord_fields (b : Block) (p : Nat) :
    (b.trackRecord p).kind = 4 ∧ (b.trackRecord p).noz = 0xFF ∧ (b.trackRecord p).stamp = b.eng.alm.view.stamp
      ∧ (b.trackRecord p).odo = b.eng.alm.view.odoAt 0 % 2 ^ 48 := by
  unfold Block.trackRecord Block.placed
  dsimp only
  split <;> exact ⟨rfl, rfl, rfl, rfl⟩

theorem exec_trackRecordDue_due {s : State} {p : Fin 2} {at_ : Nat} (hon : s.blk.anyOn p = true)
    (hdue : s.blk.fld .ALM_AA_CFG 0 15 0 * 100 ≤ s.blk.odoEdge - (nth s.blk.eng.alm.tracks p {}).odo
      ∨ s.blk.fld .ALM_AA_CFG 0 23 16 * 10000000 ≤ s.blk.time.now - (nth s.blk.eng.alm.tracks p {}).at_) :
    exec (.trackRecordDue p at_) s
      = .next { s with blk := (s.blk.trackEdge p).makeRecord p (s.blk.trackRecord p) at_ } := by
  show execTrackRecordDue p at_ s = _
  simp only [execTrackRecordDue, lift]
  rw [if_pos ⟨hon, hdue⟩]
  rfl

theorem trackEdge_keeps (b : Block) (p : Nat) : Keeps [.almanac] b (b.trackEdge p) :=
  (segmentsToEdge_keeps b).trans (modAlm_keeps _ _)

@[simp] theorem trackEdge_regs (b : Block) (p : Nat) : (b.trackEdge p).regs = b.regs := by
  simp [Block.trackEdge]
@[simp] theorem trackEdge_now (b : Block) (p at_ : Nat) : (b.trackEdge p).now at_ = b.now at_ := by
  simp [Block.now, Block.trackEdge]
@[simp] theorem trackEdge_next (b : Block) (p : Nat) : (b.trackEdge p).eng.alm.next = b.eng.alm.next := by
  simp [Block.trackEdge]
@[simp] theorem trackEdge_ring (b : Block) (p : Nat) : (b.trackEdge p).eng.alm.ring = b.eng.alm.ring := by
  simp [Block.trackEdge]

theorem Block.Sound.tracks_length {b : Block} (h : b.Sound) : b.eng.alm.tracks.length = 2 := by
  have hsizes := h.sizes
  simp only [Engines.sizes, List.cons.injEq] at hsizes
  obtain ⟨-, -, -, -, -, -, -, -, -, -, -, -, -, -, -, -, htracks, -⟩ := hsizes
  exact htracks

/-- Without its segments, the track at the edge is the one before with its interval begun anew. -/
theorem trackEdge_track {b : Block} {p : Nat} (hp : p < b.eng.alm.tracks.length) :
    (nth (b.trackEdge p).eng.alm.tracks p {}).emptied = ((nth b.eng.alm.tracks p {}).restarted b).emptied := by
  have hlen : p < b.segmentsToEdge.eng.alm.tracks.length := by simpa using hp
  simp only [Block.trackEdge, modAlm_own, nth_modNth_same _ hlen]
  rw [restarted_emptied, restarted_emptied, segmentsToEdge_track]

/-- A due track record closes the interval of its product and goes to the end of the ring. -/
theorem does_trackRecordDue {s : State} {p : Fin 2} {at_ : Nat} (hs : s.Sound) (hon : s.blk.anyOn p = true)
    (hdue : s.blk.fld .ALM_AA_CFG 0 15 0 * 100 ≤ s.blk.odoEdge - (nth s.blk.eng.alm.tracks p {}).odo
      ∨ s.blk.fld .ALM_AA_CFG 0 23 16 * 10000000 ≤ s.blk.time.now - (nth s.blk.eng.alm.tracks p {}).at_) :
    Does (.trackRecordDue p at_) s ([BlockPart.almanac, BlockPart.map] ++ eventParts)
      ([addr .ALM_AA_STAT, addr .MAP_CNT_COV] ++ eventWords [53, 59]) (fun t =>
        t.eng.alm.next = seqNext s.blk.eng.alm.next
          ∧ nth t.eng.alm.tracks p {} = ((nth s.blk.eng.alm.tracks p {}).restarted s.blk).emptied
          ∧ t.eng.alm.ring = (if s.blk.eng.alm.ring.length = 4096 then s.blk.eng.alm.ring.drop 1
              else s.blk.eng.alm.ring) ++ [{ s.blk.trackRecord p with
                seq := s.blk.eng.alm.next, made := s.blk.now at_ }]) := by
  have hp : (p : Nat) < s.blk.eng.alm.tracks.length := by rw [hs.tracks_length]; exact p.isLt
  have hedge : (p : Nat) < (s.blk.trackEdge p).eng.alm.tracks.length := by simpa [Block.trackEdge] using hp
  obtain ⟨hkind, -⟩ := trackRecord_fields s.blk p
  refine ⟨_, exec_trackRecordDue_due hon hdue, ?_, ?_, ?_⟩
  · exact ((trackEdge_keeps _ _).mono (by simp)).trans (makeRecord_track_keeps _ _ _ p.isLt hkind)
  · exact (KeepsWords.of_regs (trackEdge_regs _ _)).trans (makeRecord_track_words _ _ _ p.isLt hkind)
  rw [makeRecord_track _ _ _ p.isLt hkind]
  refine ⟨?_, ?_, ?_⟩
  · simp only [keepRecord_next, queueSegments_alm, modAlm_own, trackEdge_next]
  · simp only [keepRecord_tracks, queueSegments_alm, modAlm_own, nth_modNth_same _ hedge]
    exact trackEdge_track hp
  · simp only [keepRecord_ring, queueSegments_alm, modAlm_own, trackEdge_ring, trackEdge_next, trackEdge_now]

/-! ### AS_APPLIED_SEND (R195) -/

/-- What an AS_APPLIED packet carries of its records, the first of which is `r`. -/
def Block.recordsPayload (b : Block) (r : AaRecord) (recs : List AaRecord) : Bytes :=
  leBytes 4 r.seq.toNat ++ leBytes 1 recs.length ++ leBytes 1 0 ++ leBytes 2 b.eng.alm.epoch.toNat
    ++ leBytes 6 b.time.stamp.toNat ++ leBytes 2 0 ++ (recs.map AaRecord.bytes).flatten

theorem exec_asAppliedSend_due {s : State} {at_ : Nat} {r : AaRecord} {rest : List AaRecord}
    (hwaiting : lastN s.blk.eng.alm.waiting s.blk.eng.alm.ring = r :: rest) (hopen : s.blk.link.main.state = .opened)
    (hdue : 43 ≤ rest.length + 1 ∨ r.made + 10000000 ≤ s.blk.now at_) :
    exec (.asAppliedSend at_) s = .next { s with
      blk := (s.blk.sendOwn .main 0x0084 2 (s.blk.recordsPayload r ((r :: rest).take 43)) at_).modAlm (fun a =>
        { a with waiting := a.waiting - ((r :: rest).take 43).length }) } := by
  have hmain : s.blk.isOpen .main = true := by simp [Block.isOpen, Link.sess, hopen]
  show execAsAppliedSend at_ s = _
  simp only [execAsAppliedSend, lift, hwaiting]
  rw [if_pos ⟨hmain, hdue⟩]
  rfl

/-- The records that wait, 43 at most, leave in one packet. -/
theorem does_asAppliedSend {s : State} {at_ : Nat} {r : AaRecord} {rest : List AaRecord}
    (hwaiting : lastN s.blk.eng.alm.waiting s.blk.eng.alm.ring = r :: rest) (hopen : s.blk.link.main.state = .opened)
    (hdue : 43 ≤ rest.length + 1 ∨ r.made + 10000000 ≤ s.blk.now at_) :
    Does (.asAppliedSend at_) s [.almanac, .sent] [] (fun t =>
      t.eng.alm = { s.blk.eng.alm with waiting := s.blk.eng.alm.waiting - ((r :: rest).take 43).length }
        ∧ t.link.sent = s.blk.link.sent
            ++ ownPackets s.blk .main 0x0084 2 [s.blk.recordsPayload r ((r :: rest).take 43)]) := by
  refine ⟨_, exec_asAppliedSend_due hwaiting hopen hdue, ?_, ?_, ?_, ?_⟩
  · exact ((sendOwn_keeps _ _ _ _ _ _).mono (by simp)).trans ((modAlm_keeps _ _).mono (by simp))
  · exact KeepsWords.of_regs (sendOwn_regs ..)
  · simp only [modAlm_own, sendOwn_eng]
  · exact sendOwn_sent ..

/-- Settles O25: a due track record closes the interval of its product and goes to the end of the ring, and records
    that wait are sent in packets of up to 43. -/
theorem asAppliedRecords : Obligations.AsAppliedRecords := by
  intro s at_ hs b a
  refine ⟨fun p hon => ?_, fun r rest hwaiting hopen hdue => does_asAppliedSend hwaiting hopen hdue⟩
  intro k hdue
  obtain ⟨t, ht, hkeeps, hwords, hnext, htrack, hring⟩ := does_trackRecordDue (at_ := at_) hs hon hdue
  obtain ⟨hkind, hnoz, hstamp, hodo⟩ := trackRecord_fields b p
  refine ⟨t, ht, hkeeps, hwords, hnext, htrack, ?_, ?_, fun r hr => ?_⟩
  · rw [hring]
    exact List.append_ne_nil_of_right_ne_nil _ (List.cons_ne_nil _ _)
  · rw [hring]
    exact List.dropLast_concat
  · rw [hring, List.getLast?_concat] at hr
    cases hr
    exact ⟨rfl, hkind, hnoz, hstamp, hodo, rfl⟩

/-! ### Lanes whose nozzle is not ACTIVE (R184, R229) -/

section Crossings

variable {b : Block} {l at_ : Nat} {e : Eve}

theorem exec_compareCrossing_odometer {s : State} {l : Fin 160} (hrun : s.blk.vig.dbg ≠ .halted)
    (hphase : at_ < 20000 ∨ s.blk.eng.alm.due = 0) (href : s.blk.laneRef l = .odometer) :
    exec (.compareCrossing l at_) s = .next { s with blk := s.blk.crossPassed l at_ } := by
  show execCompareCrossing l at_ s = _
  simp only [execCompareCrossing, lift, if_neg hrun, lookAhead_none _ hphase, href]

/-- The one entry crossed fires where its tag is current and its lane may fire. -/
theorem crossPassed_fires (hone : (b.lane l).eves.filter (fun x => reached (b.refAt (b.laneRef l) at_) x.pos) = [e])
    (hcurrent : (b.lane l).current e (b.now at_) = true) (hmay : b.laneMayFire l = true) :
    b.crossPassed l at_ = b.fire l e (b.refAt (b.laneRef l) at_) at_ := by
  simp [Block.crossPassed, hone, sortEves, insertEve, hcurrent, hmay]

/-- A nozzle channel takes no action of its lane while its unit is not ACTIVE (R229). -/
theorem deliverNoz_of_not_active (byRate : Bool) (h : (b.unit (unitNoz l)).state ≠ .active) :
    b.deliverNoz l byRate e at_ = b := if_pos h

theorem fire_valve_of_not_active (ref : Nat) (hl : l < 96) (h : (b.unit (unitNoz l)).state ≠ .active) :
    (b.fire l e ref at_).eng.valve = b.eng.valve := by
  unfold Block.fire Block.deliver
  rw [if_pos hl, deliverNoz_of_not_active]
  · split <;> rfl
  · split <;> exact h

end Crossings

/-- An OPEN at position 0. -/
def openAtZero : Eve := { order := 0, pos := 0, act := 1 }

/-- Lane 4 holds an OPEN at position 0, where the odometer stands, and its nozzle is in SERVICE. -/
def openInService : Block :=
  (({ vig := { units := resetUnits .f, starting := false } } : Block).setUnit (unitNoz 4)
    (fun u => { u with state := .service })).modLane 4 (fun x => { x with eves := [openAtZero] })

theorem openInService_sound : State.Sound { blk := openInService } := by
  unfold State.Sound Block.Sound
  decide +kernel

/-- The OPEN of lane 4 is crossed, its tag is current, and its lane may fire. -/
theorem openInService_crossed :
    (openInService.lane 4).eves.filter (fun x => reached (openInService.refAt (openInService.laneRef 4) 0) x.pos)
        = [openAtZero]
      ∧ (openInService.lane 4).current openAtZero (openInService.now 0) = true
      ∧ openInService.laneMayFire 4 = true := by
  decide +kernel

/-- The OPEN that lane 4 fires leaves the channels as they were. -/
theorem openInService_crossPassed_valve : (openInService.crossPassed 4 0).eng.valve = openInService.eng.valve := by
  obtain ⟨hone, hcurrent, hmay⟩ := openInService_crossed
  rw [crossPassed_fires hone hcurrent hmay]
  exact fire_valve_of_not_active _ (by decide) (by decide +kernel)

/-- Refutes O24: a lane may fire while its unit is in SERVICE (R184), but a nozzle in SERVICE carries out
    NOZZLE_FORCE only (R229). The OPEN that lane 4 fires in the state `openInService` leaves its channel in QUIET. -/
theorem not_laneEntriesFire : ¬ Obligations.LaneEntriesFire := by
  intro h
  have hrun : openInService.vig.dbg ≠ .halted := by decide +kernel
  have hquiet : (openInService.noz 4).seq = .quiet := by decide +kernel
  obtain ⟨hone, hcurrent, hmay⟩ := openInService_crossed
  obtain ⟨-, hpassed, -⟩ := h { blk := openInService } 4 0 openInService_sound hrun
  obtain ⟨-, hfires⟩ := hpassed openAtZero (.inl (by decide)) (.inl rfl) hone
  obtain ⟨-, hnozzle⟩ := hfires hcurrent hmay
  obtain ⟨t, ht, -, -, -, -, -, -, hwait, -⟩ :=
    hnozzle (by decide) rfl rfl rfl hquiet (by decide +kernel) (by decide +kernel)
  rw [exec_compareCrossing_odometer hrun (.inl (by decide)) rfl] at ht
  injection ht with ht
  injection ht with _ ht
  have hstays : t.noz 4 = openInService.noz 4 := by
    rw [Block.noz, ← ht]
    exact congrArg (fun v : Valve => nth v.noz 4 {}) openInService_crossPassed_valve
  have hseq : (t.noz 4).seq = .wait := hwait
  rw [hstays, hquiet] at hseq
  exact absurd hseq (by decide)

end Sys2Proof.Machine

/-! PROOFS. The valve drive (07): what latching a fault of one of its units leaves, the boosts, the proportional
    channels. -/

namespace Sys2Proof.Machine

open Sys2Proof (Word Byte Bytes Sess Hdr Instr)

/-! ### Changes of the valve drive -/

section ValveDrive

variable (b : Block)

theorem modValve_keeps (g : Valve → Valve) : Keeps [.valve] b (b.modValve g) := by
  intro q hq
  cases q <;> simp_all [BlockPart.same, sessSame, Block.modValve]

theorem modValve_words (l : List Nat) (g : Valve → Valve) : KeepsWords l b (b.modValve g) := KeepsWords.of_regs rfl

theorem does_modValve {i : Instr} {s : State} {g : Valve → Valve} {v : Valve}
    (hexec : exec i s = .next { s with blk := s.blk.modValve g }) (hv : g s.blk.eng.valve = v) :
    Does i s [.valve] [] (fun t => t.eng.valve = v) :=
  ⟨_, hexec, modValve_keeps _ _, modValve_words _ _ _, hv⟩

/-- A command whose condition holds does what it does then. -/
theorem next_if_pos {s : State} {x y : Block} {c : Prop} [Decidable c] (h : c) :
    (Host.Outcome.next { s with blk := if c then x else y } : Host.Outcome State Fault Refusal)
      = .next { s with blk := x } := by rw [if_pos h]

end ValveDrive

/-! ### A fault of a unit (R206, R227, R228, R236) -/

/-- `t` is `b` with the valve drive `v` and a fault latched at the instant `at_`: the flag `bit` of NAME[i], unit `u`
    asked FAULTED, and an occurrence of the event source `n`. -/
structure UnitFault (r : Reg) (i bit u n at_ : Nat) (v : Valve) (b t : Block) : Prop where
  keeps : Keeps ([.valve, .unitReqs, .hand] ++ eventParts) b t
  words : KeepsWords (addr r i :: eventWords [n]) b t
  valve : t.eng.valve = v
  flag : t.word r i = b.word r i ||| BitVec.twoPow 32 bit
  reqs : t.vig.reqs = (b.faultUnit u at_).vig.reqs
  time : t.time = (b.reaches at_).time
  raised : Raised n b t

section UnitFaults

variable {r : Reg} {i bit u n at_ : Nat} {v : Valve} {b t : Block}

theorem ofNat_two_pow_eq (bit : Nat) : BitVec.ofNat 32 (2 ^ bit) = BitVec.twoPow 32 bit := by
  apply BitVec.eq_of_toNat_eq; simp

/-- A word that no raise of a source changes is not its count. -/
theorem evtCnt_of_notMem {a : Nat} (h : a ∉ eventWords [n]) : addr .EVT_CNT n ∉ [a] := by
  simp only [eventWords, List.map_cons, List.map_nil, List.mem_cons, not_or] at h
  simpa using Ne.symm h.2.2.1

/-- The block with the flag latched, the valve drive changed and the unit asked FAULTED. -/
def Block.faultsUnit (b : Block) (r : Reg) (i bit u at_ : Nat) (g : Valve → Valve) : Block :=
  ((b.latch r i bit).modValve g).faultUnit u at_

theorem faultsUnit_keeps (g : Valve → Valve) :
    Keeps [.valve, .unitReqs, .hand] b (b.faultsUnit r i bit u at_ g) :=
  ((latch_keeps b r i bit).mono (by simp)).trans (((modValve_keeps _ g).mono (by simp)).trans
    ((faultUnit_keeps _ u at_ _).mono (by simp)))

theorem faultsUnit_regs (g : Valve → Valve) : (b.faultsUnit r i bit u at_ g).regs = (b.latch r i bit).regs := rfl

theorem faultsUnit_words (g : Valve → Valve) : KeepsWords [addr r i] b (b.faultsUnit r i bit u at_ g) :=
  (latch_words b r i bit).trans (KeepsWords.of_regs (faultsUnit_regs g))

/-- A fault of a unit is latched, and the event for it raised. -/
theorem unitFault_raise (g : Valve → Valve) (hu : u < 288) (hn : n < 128) (hr : addr r i ∉ eventWords [n]) :
    UnitFault r i bit u n at_ (g b.eng.valve) b ((b.faultsUnit r i bit u at_ g).raiseItems n 1 0 [u] at_) where
  keeps := ((faultsUnit_keeps g).mono (List.subset_append_left _ _)).trans
    ((raiseItems_keeps _ _ _ _ _ _ _).mono (List.subset_append_right _ _))
  words := ((faultsUnit_words g).mono (by simp)).trans ((raiseItems_words _ _ _ _ _ _ _).mono (by simp))
  valve := congrArg Engines.valve (raiseItems_eng _ _ _ _ _ _ _)
  flag := by
    rw [raiseItems_word _ _ _ _ _ _ _ _ _ _ hr, word_of_regs (faultsUnit_regs g), word_latch_same, ofNat_two_pow_eq]
  reqs := congrArg Vigil.reqs (raiseItems_vig _ _ _ _ _ _ _)
  time := raiseItems_time _ _ _ _ _ _ _
  raised := by
    rw [raiseItems_one _ _ _ _ _ _ _ hu]
    exact (raise_raised _ n _ _ at_ false hn).of_word (faultsUnit_words g _ (evtCnt_of_notMem hr) _)

/-- A command that latches a fault of a unit changes no more than that does. -/
theorem UnitFault.does {c : Instr} {s : State} {P : Block → Prop} (e : UnitFault r i bit u n at_ v s.blk t)
    (hexec : exec c s = .next { s with blk := t }) (hP : P t) :
    Does c s ([.valve, .unitReqs, .hand] ++ eventParts) (addr r i :: eventWords [n]) P :=
  ⟨t, hexec, e.keeps, e.words, hP⟩

end UnitFaults

/-! ### The boost converters (R206) -/

section Boosts

variable {s : State} {c : Fin 3} {at_ : Nat}

/-- A change of a boost by a command that names it. -/
theorem does_modBoost {i : Instr} {f : Boost → Boost} {y : Boost}
    (hexec : exec i s = .next { s with blk := s.blk.modBoost c f }) (hy : f (s.blk.boost c) = y) :
    Does i s [.valve] [] (fun t =>
      t.eng.valve = { s.blk.eng.valve with boosts := modNth s.blk.eng.valve.boosts c (fun _ => y) }) :=
  does_modValve hexec (congrArg (fun l => { s.blk.eng.valve with boosts := l }) (modNth_congr (d := {}) hy))

/-- A measured output, and the state that it brings. -/
theorem modBoost_boostTo (b : Block) (k mv : Nat) (st : BoostState) :
    (b.modBoost k (fun x => { x with vout := mv })).boostTo k st at_
      = b.modBoost k (fun x => { x with vout := mv, state := st, since := b.now at_ }) :=
  congrArg (fun l => b.modValve fun v => { v with boosts := l }) (modNth_modNth _ _)

theorem exec_boostReady {mv : Nat} (hstate : (s.blk.boost c).state = .softStart ∨ (s.blk.boost c).state = .low)
    (hmv : s.blk.boostReadyMv c ≤ mv) :
    exec (.boostReady c mv at_) s = .next { s with
      blk := s.blk.modBoost c (fun x => { x with vout := mv, state := .ready, since := s.blk.now at_ }) } := by
  show execBoostReady c mv at_ s = _
  rw [← modBoost_boostTo]
  simp only [execBoostReady, lift, hstate, hmv, and_self, if_true]

theorem exec_boostLow {mv : Nat} (hstate : (s.blk.boost c).state = .ready) (hmv : mv < s.blk.boostReadyMv c) :
    exec (.boostLow c mv at_) s = .next { s with
      blk := s.blk.modBoost c (fun x => { x with vout := mv, state := .low, since := s.blk.now at_ }) } := by
  show execBoostLow c mv at_ s = _
  rw [← modBoost_boostTo]
  simp only [execBoostLow, lift, hstate, hmv, and_self, if_true]

/-- The flags of a boost are no count of an event. -/
theorem bstFlt_addr : addr .BST_FLT c ∉ eventWords [69] := by
  simp [eventWords, addr, desc]; omega

/-- What a fault leaves the boosts. -/
def Valve.boostFaulted (v : Valve) (c now : Nat) : Valve :=
  { v with boosts := modNth v.boosts c (fun x => { x with state := .fault, since := now }) }

theorem boostFault_unitFault (b : Block) (bit : Nat) :
    UnitFault .BST_FLT c bit (unitBst c) 69 at_ (b.eng.valve.boostFaulted c (b.now at_)) b
      (b.boostFault c bit at_) :=
  unitFault_raise (fun v => v.boostFaulted c (b.now at_)) (by unfold unitBst; omega) (by decide) bstFlt_addr

/-- A command that faults a boost. -/
theorem does_boostFault {i : Instr} {bit : Nat}
    (hexec : exec i s = .next { s with blk := s.blk.boostFault c bit at_ }) :
    Does i s ([.valve, .unitReqs, .hand] ++ eventParts) (addr .BST_FLT c :: eventWords [69]) (fun t =>
      t.eng.valve = s.blk.eng.valve.boostFaulted c (s.blk.now at_)
        ∧ t.word .BST_FLT c = s.blk.word .BST_FLT c ||| BitVec.twoPow 32 bit
        ∧ t.vig.reqs = (s.blk.faultUnit (unitBst c) at_).vig.reqs ∧ Raised 69 s.blk t) :=
  have e := boostFault_unitFault (c := c) (at_ := at_) s.blk bit
  e.does hexec ⟨e.valve, e.flag, e.reqs, e.raised⟩

theorem exec_boostSoftStartTimeout (hstate : (s.blk.boost c).state = .softStart)
    (hdue : (s.blk.boost c).since + 50000000 ≤ s.blk.now at_) (hvpwr : s.blk.vpwrPresent = true) :
    exec (.boostSoftStartTimeout c at_) s = .next { s with blk := s.blk.boostFault c 1 at_ } := by
  show execBoostSoftStartTimeout c at_ s = _
  simp only [execBoostSoftStartTimeout, lift, hstate, hdue, hvpwr, and_self, if_true]

theorem exec_boostLowTimeout (hstate : (s.blk.boost c).state = .low)
    (hdue : (s.blk.boost c).since + 20000000 ≤ s.blk.now at_) (hvpwr : s.blk.vpwrPresent = true) :
    exec (.boostLowTimeout c at_) s = .next { s with blk := s.blk.boostFault c 1 at_ } := by
  show execBoostLowTimeout c at_ s = _
  simp only [execBoostLowTimeout, lift, hstate, hdue, hvpwr, and_self, if_true]

theorem exec_boostFault (f : Sys2Proof.BoostFault)
    (hstate : (s.blk.boost c).state = .ready ∨ (s.blk.boost c).state = .low) :
    exec (.boostFault c f at_) s = .next { s with blk := s.blk.boostFault c (boostBit f) at_ } := by
  show execBoostFault c f at_ s = _
  simp only [execBoostFault, lift, hstate, if_true]

end Boosts

/-! ### The proportional channels (R234, R236) -/

section Props

variable {s : State} {k : Fin 8} {ma at_ : Nat}

/-- A change of a channel by a command that names it. -/
theorem does_modProp {i : Instr} {f : Prop_ → Prop_} {y : Prop_}
    (hexec : exec i s = .next { s with blk := s.blk.modProp k f }) (hy : f (s.blk.prop k) = y) :
    Does i s [.valve] [] (fun t =>
      t.eng.valve = { s.blk.eng.valve with props := modNth s.blk.eng.valve.props k (fun _ => y) }) :=
  does_modValve hexec (congrArg (fun l => { s.blk.eng.valve with props := l }) (modNth_congr (d := {}) hy))

theorem exec_propPeakEnd (hseq : (s.blk.prop k).seq = .peak)
    (hdue : (s.blk.prop k).since + s.blk.fld .PROP_PEAK k 31 16 * 10000 ≤ s.blk.now at_) :
    exec (.propPeakEnd k at_) s = .next { s with blk := s.blk.propRamp k (s.blk.prop k).target at_ } := by
  show execPropPeakEnd k at_ s = _
  simp only [execPropPeakEnd, lift, hseq, hdue, and_self, if_true]

/-- In PEAK the setpoint is I_PEAK, from which the ramp begins. -/
theorem propSetpoint_peak (b : Block) (j now : Nat) (hseq : (b.prop j).seq = .peak) :
    b.propSetpoint j now = 2 * b.fld .PROP_PEAK j 12 0 := by
  simp only [Block.propSetpoint, hseq]

theorem reached_iff (x : Prop_) (ma : Nat) :
    x.reached ma = true ↔ if x.rampFrom ≤ x.target then x.target ≤ 2 * ma else 2 * ma ≤ x.target := by
  unfold Prop_.reached
  split <;> exact decide_eq_true_iff

theorem not_reached_iff (x : Prop_) (ma : Nat) :
    x.reached ma = false ↔ if x.rampFrom ≤ x.target then 2 * ma < x.target else x.target < 2 * ma := by
  unfold Prop_.reached
  split <;> simp

theorem exec_propRampDone_reached (hseq : (s.blk.prop k).seq = .ramp) (hma : (s.blk.prop k).reached ma = true) :
    exec (.propRampDone k ma at_) s = .next { s with
      blk := s.blk.modProp k (fun x => { x with seq := .regulate, since := s.blk.now at_ }) } := by
  show execPropRampDone k ma at_ s = _
  simp only [execPropRampDone, lift, hseq, hma, decide_true, Bool.and_self, if_true]

theorem exec_propRampDone_short (hma : (s.blk.prop k).reached ma = false) :
    exec (.propRampDone k ma at_) s = .next { s with blk := s.blk } := by
  show execPropRampDone k ma at_ s = _
  simp only [execPropRampDone, lift, hma, Bool.and_false, Bool.false_eq_true, if_false]

/-- An entry replaced by itself. -/
theorem modNth_self {α : Type} (l : List α) (i : Nat) (d : α) : modNth l i (fun _ => nth l i d) = l :=
  (modNth_congr (f := fun _ => nth l i d) (g := id) (d := d) rfl).trans (List.modify_id i l)

theorem Block.Sound.props_length {b : Block} (h : b.Sound) : b.eng.valve.props.length = 8 := by
  have hs := h.sizes
  simp only [Engines.sizes, List.cons.injEq] at hs
  obtain ⟨-, -, -, -, -, -, -, -, -, -, -, -, hprops, -⟩ := hs
  exact hprops

theorem prop_modProp_same {b : Block} {j : Nat} (f : Prop_ → Prop_) (hj : j < b.eng.valve.props.length) :
    (b.modProp j f).prop j = f (b.prop j) := nth_modNth_same f hj

/-- What a channel's source asks for does not depend on where its sequencer stands. -/
theorem propWanted_sequencer (b : Block) {j : Nat} (st : PropSeq) (now : Nat) (hj : j < b.eng.valve.props.length) :
    (b.modProp j (fun x => { x with seq := st, since := now })).propWanted j = b.propWanted j := by
  unfold Block.propWanted
  rw [prop_modProp_same _ hj]
  rfl

/-- A quiet channel whose source asks for nothing stays quiet. -/
theorem propFollow_quiet {b : Block} {j : Nat} (hseq : (b.prop j).seq = .quiet) (hwanted : b.propWanted j = 0) :
    b.propFollow j at_ = b.modProp j (fun x => { x with target := 0 }) := by
  simp only [Block.propFollow, hseq, hwanted, if_true]

theorem exec_propDecayDone (hs : s.Sound) (hseq : (s.blk.prop k).seq = .decay) (hma : ma < 10)
    (hwanted : s.blk.propWanted k = 0) :
    exec (.propDecayDone k ma at_) s = .next { s with
      blk := s.blk.modProp k (fun x => { x with seq := .quiet, since := s.blk.now at_, target := 0 }) } := by
  have hk : (k : Nat) < s.blk.eng.valve.props.length := by
    rw [Block.Sound.props_length hs]; exact k.isLt
  have hquiet := prop_modProp_same (b := s.blk) (fun x => { x with seq := .quiet, since := s.blk.now at_ }) hk
  have hfollow := propFollow_quiet (at_ := at_) (congrArg Prop_.seq hquiet)
    ((propWanted_sequencer s.blk .quiet (s.blk.now at_) hk).trans hwanted)
  show execPropDecayDone k ma at_ s = _
  simp only [execPropDecayDone, lift, hseq, hma, and_self, if_true, hfollow]
  exact congrArg (fun l => Host.Outcome.next { s with blk := s.blk.modValve fun v => { v with props := l } })
    (modNth_modNth _ _)

/-! Faults -/

/-- The flags of a proportional channel are no count of an event. -/
theorem propFlt_addr {n : Nat} (hn : n = 71 ∨ n = 72) : addr .PROP_FLT k ∉ eventWords [n] := by
  rcases hn with rfl | rfl <;> simp [eventWords, addr, desc] <;> omega

/-- What a fault leaves the proportional channels. -/
def Valve.propFaulted (v : Valve) (k now : Nat) : Valve :=
  { v with props := modNth v.props k (fun x =>
    { x with seq := .fault, since := now, target := 0, saturated := false }) }

theorem propFault_unitFault (b : Block) (bit : Nat) :
    UnitFault .PROP_FLT k bit (unitProp k) 71 at_ (b.eng.valve.propFaulted k (b.now at_)) b (b.propFault k bit at_) :=
  unitFault_raise (fun v => v.propFaulted k (b.now at_)) (by unfold unitProp; omega) (by decide)
    (propFlt_addr (.inl rfl))

/-- A command that faults a proportional channel. -/
theorem does_propFault {i : Instr} {bit : Nat}
    (hexec : exec i s = .next { s with blk := s.blk.propFault k bit at_ }) :
    Does i s ([.valve, .unitReqs, .hand] ++ eventParts) (addr .PROP_FLT k :: eventWords [71]) (fun t =>
      t.eng.valve = s.blk.eng.valve.propFaulted k (s.blk.now at_)
        ∧ t.word .PROP_FLT k = s.blk.word .PROP_FLT k ||| BitVec.twoPow 32 bit
        ∧ t.vig.reqs = (s.blk.faultUnit (unitProp k) at_).vig.reqs ∧ Raised 71 s.blk t) :=
  have e := propFault_unitFault (k := k) (at_ := at_) s.blk bit
  e.does hexec ⟨e.valve, e.flag, e.reqs, e.raised⟩

section

variable (hseq : (s.blk.prop k).seq ≠ .fault)
include hseq

theorem exec_propOpenLoad {duty ns : Nat} (htarget : 200 ≤ (s.blk.prop k).target) (hduty : 500 ≤ duty)
    (hma : ma < 10) (hns : 10000000 ≤ ns) (hvpwr : s.blk.vpwrPresent = true) :
    exec (.propOpenLoad k duty ma ns at_) s = .next { s with blk := s.blk.propFault k 0 at_ } := by
  show execPropOpenLoad k duty ma ns at_ s = _
  exact next_if_pos ⟨htarget, hduty, hma, hns, hseq, hvpwr⟩

theorem exec_propShort (hma : 4500 < ma) :
    exec (.propShort k ma at_) s = .next { s with blk := s.blk.propFault k 1 at_ } := by
  show execPropShort k ma at_ s = _
  exact next_if_pos ⟨hma, hseq⟩

theorem exec_propThermal {tj : Int} (htj : 1700 < tj) :
    exec (.propThermal k tj at_) s = .next { s with blk := s.blk.propFault k 2 at_ } := by
  show execPropThermal k tj at_ s = _
  exact next_if_pos ⟨htj, hseq⟩

end

/-! Undercurrent -/

/-- Channel `k` marked SATURATED, with its flag. -/
def Block.propSaturates (b : Block) (k : Nat) : Block :=
  (b.modProp k (fun x => { x with saturated := true })).latch .PROP_FLT k 3

theorem propSaturates_keeps (b : Block) (j : Nat) : Keeps [.valve] b (b.propSaturates j) :=
  (modValve_keeps b _).trans ((latch_keeps _ _ _ _).mono (by simp))

theorem propSaturates_words (b : Block) (j : Nat) : KeepsWords [addr .PROP_FLT j] b (b.propSaturates j) :=
  (modValve_words b _ _).trans (latch_words _ _ _ _)

theorem propSaturates_flag (b : Block) (j : Nat) : (b.propSaturates j).flag .PROP_FLT j 3 = true := by
  unfold Block.flag Block.propSaturates
  rw [word_latch_same, ofNat_two_pow_eq]
  simp

theorem exec_propUndercurrent {duty ns : Nat} (hduty : 1000 ≤ duty) (hns : 20000000 ≤ ns)
    (hma : ma + max 50 ((s.blk.prop k).target / 2 / 10) < (s.blk.prop k).target / 2)
    (hvpwr : s.blk.vpwrPresent = true) :
    exec (.propUndercurrent k duty ma ns at_) s = .next { s with
      blk := (s.blk.propSaturates k).raiseLimited 72 1 (payB 0 96 [unitProp k]) at_ } := by
  show execPropUndercurrent k duty ma ns at_ s = _
  exact next_if_pos ⟨hduty, hns, hma, hvpwr⟩

/-- A source that was not raised in the last 100 ms is raised (R425). -/
theorem raiseLimited_raised {b : Block} {n : Nat} (c : Byte) (p : Payload) (hn : n < 128)
    (hquiet : b.evt.quiet n (b.now at_) = false) : Raised n b (b.raiseLimited n c p at_) := by
  unfold Block.raiseLimited Block.raiseKeyed
  rw [hquiet, if_neg Bool.false_ne_true]
  exact raised_from (raise_raised _ n c p at_ false hn) rfl

/-- PROP_UNDERCURRENT: SATURATED, its flag, and event 72 at most once in 100 ms. -/
theorem does_propUndercurrent {i : Instr}
    (hexec : exec i s = .next { s with
      blk := (s.blk.propSaturates k).raiseLimited 72 1 (payB 0 96 [unitProp k]) at_ }) :
    Does i s (.valve :: eventParts) (addr .PROP_FLT k :: eventWords [72]) (fun t =>
      t.eng.valve = { s.blk.eng.valve with
          props := modNth s.blk.eng.valve.props k (fun x => { x with saturated := true }) }
        ∧ t.flag .PROP_FLT k 3 = true
        ∧ (s.blk.evt.quiet 72 (s.blk.now at_) = false → Raised 72 s.blk t)) := by
  have hflt : addr .PROP_FLT k ∉ eventWords [72] := propFlt_addr (.inr rfl)
  refine ⟨_, hexec, ?_, ?_, ?_, ?_, fun hquiet => ?_⟩
  · exact ((propSaturates_keeps _ _).mono (by simp)).trans ((raiseLimited_keeps _ _ _ _ _).mono (by simp))
  · exact ((propSaturates_words _ _).mono (by simp)).trans ((raiseLimited_words _ _ _ _ _).mono (by simp))
  · exact congrArg Engines.valve (raiseLimited_eng ..)
  · rw [← propSaturates_flag s.blk k]
    unfold Block.flag
    rw [raiseLimited_word _ _ _ _ _ _ _ _ hflt]
  · exact raised_from (raiseLimited_raised (b := s.blk.propSaturates k) _ _ (by decide) hquiet)
      (propSaturates_words s.blk k _ (evtCnt_of_notMem hflt) _)

end Props

/-- Settles O29: each command, where its condition holds, changes its boost or channel alone, or latches its fault. -/
theorem boostAndProportionalChannels : Obligations.BoostAndProportionalChannels := by
  intro s at_ hs b v now boost boostFaults prop propFaults
  refine ⟨fun c mv => ?_, fun k ma => ?_⟩
  · intro x
    refine ⟨fun hst hmv => does_modBoost (exec_boostReady hst hmv) rfl,
      fun hst hmv => does_modBoost (exec_boostLow hst hmv) rfl,
      fun hst hdue hv => does_boostFault (exec_boostSoftStartTimeout hst hdue hv),
      fun hst hdue hv => does_boostFault (exec_boostLowTimeout hst hdue hv), fun hst => ⟨?_, ?_, ?_⟩⟩
    · exact does_boostFault (exec_boostFault .overvolt hst)
    · exact does_boostFault (exec_boostFault .overload hst)
    · exact does_boostFault (exec_boostFault .thermal hst)
  · intro x
    refine ⟨fun hseq hdue => does_modProp (exec_propPeakEnd hseq hdue) ?_,
      fun hseq => ⟨fun hma => ?_, fun hma => ?_⟩,
      fun hseq hma hw => does_modProp (exec_propDecayDone hs hseq hma hw) rfl,
      fun hseq => ⟨fun duty ns h200 h500 hma hns hv => ?_, fun hma => ?_, fun tj htj => ?_⟩,
      fun duty ns hduty hns hma hv => does_propUndercurrent (exec_propUndercurrent hduty hns hma hv)⟩
    · rw [propSetpoint_peak _ _ _ hseq]
    · exact does_modProp (exec_propRampDone_reached hseq ((reached_iff x ma).mpr hma)) rfl
    · exact ⟨_, exec_propRampDone_short ((not_reached_iff x ma).mpr hma), Keeps.refl _ _, KeepsWords.refl _ _,
        congrArg (fun l => { v with props := l }) (modNth_self _ _ _).symm⟩
    · exact does_propFault (exec_propOpenLoad hseq h200 h500 hma hns hv)
    · exact does_propFault (exec_propShort hseq hma)
    · exact does_propFault (exec_propThermal hseq htj)

end Sys2Proof.Machine

/-! PROOFS. Nozzle channels and banks (07): what a fault of a channel and of its bank leaves. -/

namespace Sys2Proof.Machine

open Sys2Proof (Word Byte Bytes Sess Hdr Instr)

/-! ### A change of one nozzle channel -/

/-- `t` is `b` with nothing but nozzle channel `n` changed. -/
def ChangesNoz (n : Nat) (b t : Block) : Prop := ∃ f, t = b.modNoz n f

section ChangesOfNozzles

variable {n m : Nat} {b t u : Block}

theorem ChangesNoz.refl (n : Nat) (b : Block) : ChangesNoz n b b :=
  ⟨id, congrArg (fun l => b.modValve fun v => { v with noz := l }) (List.modify_id n b.eng.valve.noz).symm⟩

theorem changesNoz_modNoz (n : Nat) (b : Block) (f : Noz → Noz) : ChangesNoz n b (b.modNoz n f) := ⟨f, rfl⟩

theorem ChangesNoz.trans (h : ChangesNoz n b t) (g : ChangesNoz n t u) : ChangesNoz n b u := by
  obtain ⟨f, rfl⟩ := h
  obtain ⟨f', rfl⟩ := g
  exact ⟨_, congrArg (fun l => b.modValve fun v => { v with noz := l }) (modNth_modNth f f')⟩

theorem ChangesNoz.modNoz (h : ChangesNoz n b t) (f : Noz → Noz) : ChangesNoz n b (t.modNoz n f) :=
  h.trans (changesNoz_modNoz _ _ _)

theorem ChangesNoz.ite {c : Prop} [Decidable c] (h : ChangesNoz n b t) (g : ChangesNoz n b u) :
    ChangesNoz n b (if c then t else u) := by
  split <;> assumption

/-- A change of one channel is a change of the valve drive. -/
theorem ChangesNoz.exists_modValve (h : ChangesNoz n b t) :
    ∃ g : Valve → Valve, t = b.modValve g ∧ KeepsRows n b.eng.valve.noz (g b.eng.valve).noz := by
  obtain ⟨f, rfl⟩ := h
  exact ⟨_, rfl, keepsRows_modNth _ _ _⟩

theorem noz_congr (h : t.eng.valve.noz = b.eng.valve.noz) (m : Nat) : t.noz m = b.noz m := by
  unfold Block.noz; rw [h]

theorem noz_of_keepsRows (h : KeepsRows n b.eng.valve.noz t.eng.valve.noz) (hm : m ≠ n) : t.noz m = b.noz m := by
  simp only [Block.noz, nth, List.getD_eq_getElem?_getD, h m hm]

theorem noz_modNoz_same (f : Noz → Noz) (hn : n < b.eng.valve.noz.length) : (b.modNoz n f).noz n = f (b.noz n) :=
  nth_modNth_same f hn

theorem ChangesNoz.length (h : ChangesNoz n b t) : t.eng.valve.noz.length = b.eng.valve.noz.length := by
  obtain ⟨f, rfl⟩ := h
  simp

/-! The operations of a channel -/

theorem result_changesNoz (n : Nat) (b : Block) (r : ActResult) : ChangesNoz n b (b.result n r) :=
  changesNoz_modNoz _ _ _

theorem countEnergised_changesNoz (n : Nat) (b : Block) (now : Nat) : ChangesNoz n b (b.countEnergised n now) :=
  changesNoz_modNoz _ _ _

theorem measureCoil_changesNoz (n : Nat) (b : Block) (now : Nat) : ChangesNoz n b (b.measureCoil n now) :=
  .ite (changesNoz_modNoz _ _ _) (.ite (changesNoz_modNoz _ _ _) (.refl _ _))

theorem turnOff_changesNoz (n : Nat) (b : Block) (bearing : Bool) (now : Nat) :
    ChangesNoz n b (b.turnOff n bearing now) := by
  have hmeasured := (countEnergised_changesNoz n b now).trans (measureCoil_changesNoz n _ now)
  exact .ite (.refl _ _) (.modNoz (.ite (hmeasured.trans (result_changesNoz _ _ _)) hmeasured) _)

theorem failPull_changesNoz (n : Nat) (b : Block) (p : Pull) (kind now : Nat) :
    ChangesNoz n b (b.failPull n p kind now) := by
  cases p with
  | period => exact .refl _ _
  | pulse => exact result_changesNoz _ _ _
  | leadIn => exact result_changesNoz _ _ _

theorem cancelPull_changesNoz (n : Nat) (b : Block) (now : Nat) : ChangesNoz n b (b.cancelPull n now) := by
  unfold Block.cancelPull
  dsimp only
  split
  · exact (changesNoz_modNoz _ _ _).trans (failPull_changesNoz _ _ _ _ _)
  · exact changesNoz_modNoz _ _ _

theorem abandonClose_changesNoz (n : Nat) (b : Block) : ChangesNoz n b (b.abandonClose n) := by
  unfold Block.abandonClose
  split
  · exact changesNoz_modNoz _ _ _
  · exact .refl _ _

theorem nozToFault_of_fault (at_ : Nat) (h : (b.noz n).seq = .fault) : b.nozToFault n at_ = b := if_pos h

/-- A channel that is not in FAULT is turned off and its requests end before it enters FAULT. -/
theorem nozToFault_of_ne (at_ : Nat) (h : (b.noz n).seq ≠ .fault) :
    ∃ x f, ChangesNoz n b x ∧ (∀ y, (f y).seq = .fault) ∧ b.nozToFault n at_ = x.modNoz n f := by
  have hoff := ((turnOff_changesNoz n b true (b.now at_)).trans (cancelPull_changesNoz n _ (b.now at_))).modNoz
    (fun y => { y with
      closeDet := y.closeDet.map (fun c => { c with bearing := c.bearing || (b.noz n).on }) })
  exact ⟨_, _, .ite (hoff.trans (result_changesNoz _ _ _)) (hoff.trans (abandonClose_changesNoz _ _)), fun _ => rfl,
    if_neg h⟩

theorem nozToFault_changesNoz (n : Nat) (b : Block) (at_ : Nat) : ChangesNoz n b (b.nozToFault n at_) := by
  by_cases h : (b.noz n).seq = .fault
  · rw [nozToFault_of_fault at_ h]
    exact .refl _ _
  · obtain ⟨x, f, hx, -, e⟩ := nozToFault_of_ne at_ h
    rw [e]
    exact hx.modNoz f

/-- A channel brought to FAULT is in FAULT. -/
theorem nozToFault_seq (at_ : Nat) (hn : n < b.eng.valve.noz.length) : ((b.nozToFault n at_).noz n).seq = .fault := by
  by_cases h : (b.noz n).seq = .fault
  · rwa [nozToFault_of_fault at_ h]
  · obtain ⟨x, f, hx, hf, e⟩ := nozToFault_of_ne at_ h
    rw [e, noz_modNoz_same f (hx.length ▸ hn)]
    exact hf _

end ChangesOfNozzles

/-! ### A fault of a channel (R227, R228) -/

theorem Block.Sound.noz_length {b : Block} (h : b.Sound) : b.eng.valve.noz.length = 96 := by
  have hs := h.sizes
  simp only [Engines.sizes, List.cons.injEq] at hs
  obtain ⟨-, -, -, -, -, -, -, -, -, hnoz, -⟩ := hs
  exact hnoz

section NozzleFaults

variable {s : State} {n : Fin 96} {b : Block} {at_ : Nat}

/-- The flags of a channel are no count of an event. -/
theorem nozFlt_addr {m k : Nat} (hm : m < 96) (hk : k = 64 ∨ k = 65) : addr .NOZ_FLT m ∉ eventWords [k] := by
  rcases hk with rfl | rfl <;> simp [eventWords, addr, desc] <;> omega

/-- `t` is `b` with a fault of channel `n` latched. -/
structure NozFault (n bit at_ : Nat) (b t : Block) : Prop where
  unit : UnitFault .NOZ_FLT n bit (unitNoz n) 64 at_ t.eng.valve b t
  seq : (t.noz n).seq = .fault
  others : KeepsRows n b.eng.valve.noz t.eng.valve.noz
  length : t.eng.valve.noz.length = b.eng.valve.noz.length

theorem nozFault_nozFault (bit at_ : Nat) {m : Nat} (hm : m < 96) (hlen : b.eng.valve.noz.length = 96) :
    NozFault m bit at_ b (b.nozFault m bit at_) := by
  have hchanges := nozToFault_changesNoz m (b.latch .NOZ_FLT m bit) at_
  have hcount := hchanges.length
  obtain ⟨g, e, hrows⟩ := hchanges.exists_modValve
  rw [e] at hcount
  have hunit : UnitFault .NOZ_FLT m bit (unitNoz m) 64 at_ (g b.eng.valve) b (b.nozFault m bit at_) := by
    unfold Block.nozFault
    rw [e]
    exact unitFault_raise g (by unfold unitNoz; omega) (by decide) (nozFlt_addr hm (.inl rfl))
  have hvalve := hunit.valve
  refine ⟨hvalve ▸ hunit, ?_, hvalve ▸ hrows, hvalve ▸ hcount⟩
  rw [← nozToFault_seq (b := b.latch .NOZ_FLT m bit) at_ (hlen ▸ hm), e]
  exact congrArg Noz.seq (noz_congr (congrArg Valve.noz hvalve) m)

/-- A command that faults a channel. -/
theorem does_nozFault {i : Instr} {bit : Nat} (hs : s.Sound)
    (hexec : exec i s = .next { s with blk := s.blk.nozFault n bit at_ }) :
    Does i s ([.valve, .unitReqs, .hand] ++ eventParts) (addr .NOZ_FLT n :: eventWords [64]) (fun t =>
      t.word .NOZ_FLT n = s.blk.word .NOZ_FLT n ||| BitVec.twoPow 32 bit ∧ (t.noz n).seq = .fault
        ∧ t.vig.reqs = (s.blk.faultUnit (unitNoz n) at_).vig.reqs ∧ Raised 64 s.blk t
        ∧ KeepsRows n.val s.blk.eng.valve.noz t.eng.valve.noz) :=
  have e := nozFault_nozFault (b := s.blk) bit at_ n.isLt (Block.Sound.noz_length hs)
  e.unit.does hexec ⟨e.unit.flag, e.seq, e.unit.reqs, e.unit.raised, e.others⟩

theorem exec_nozOpenLoad {ma : Nat} (hseq : (s.blk.noz n).seq = .rise) (hma : ma < 50)
    (hdue : 100000 ≤ s.blk.now at_ - (s.blk.noz n).riseAt) (hvpwr : s.blk.vpwrPresent = true) :
    exec (.nozOpenLoad n ma at_) s = .next { s with blk := s.blk.nozFault n 0 at_ } := by
  show execNozOpenLoad n ma at_ s = _
  exact next_if_pos ⟨hseq, hma, hdue, hvpwr⟩

theorem exec_nozShortLoad {t : Nat} (hon : (s.blk.noz n).seq.energised = true) (hpeak : (s.blk.noz n).peakAt = some t)
    (ht : t ≤ (s.blk.noz n).riseAt + 10000) :
    exec (.nozShortLoad n at_) s = .next { s with blk := s.blk.nozFault n 1 at_ } := by
  show execNozShortLoad n at_ s = _
  simp only [execNozShortLoad, lift, hon, hpeak, ht, decide_true, Bool.and_self, if_true]

section

variable (hpresent : s.blk.present (unitNoz n) = true)
include hpresent

theorem exec_nozShortBat {ma : Nat} (hma : 6000 < ma) (hseq : (s.blk.noz n).seq ≠ .fault) :
    exec (.nozShortBat n ma at_) s = .next { s with blk := s.blk.nozFault n 2 at_ } := by
  show execNozShortBat n ma at_ s = _
  exact next_if_pos ⟨hpresent, hma, hseq⟩

theorem exec_nozThermal {tj : Int} (htj : 1700 < tj) (hflag : s.blk.flag .NOZ_FLT n 4 = false) :
    exec (.nozThermal n tj at_) s = .next { s with blk := s.blk.nozFault n 4 at_ } := by
  show execNozThermal n tj at_ s = _
  exact next_if_pos ⟨hpresent, htj, by rw [hflag]; rfl⟩

theorem exec_nozShortGnd {drain node ns : Nat} (hoff : (s.blk.noz n).seq.energised = false)
    (hhs : s.blk.hsOn (bankOf n) = true) (hdrain : drain < 2000) (hnode : 6000 < node) (hns : 50000 ≤ ns) :
    exec (.nozShortGnd n drain node ns at_) s
      = .next { s with blk := (s.blk.nozFault n 3 at_).bankFault (bankOf n) 2 at_ } := by
  show execNozShortGnd n drain node ns at_ s = _
  exact next_if_pos ⟨hpresent, by rw [hoff]; rfl, hhs, hdrain, hnode, hns⟩

theorem exec_nozOpenOffTest {drain node : Nat} (hseq : (s.blk.noz n).seq = .quiet)
    (hhs : s.blk.hsOn (bankOf n) = true) (hvpwr : s.blk.vpwrPresent = true) (hdrain : drain + 2000 < node) :
    exec (.nozOpenOffTest n drain node at_) s = .next { s with
      blk := if s.blk.flag .NOZ_FLT n 6 then s.blk.latch .NOZ_FLT n 6
        else (s.blk.latch .NOZ_FLT n 6).raiseItems 64 2 0 [unitNoz n] at_ } := by
  show execNozOpenOffTest n drain node at_ s = _
  exact next_if_pos ⟨hseq, hpresent, hhs, hvpwr, hdrain⟩

end

/-- NOZ_OPEN_OFF_TEST: the flag latches, and event 64 is raised where it was clear. -/
theorem does_nozOpenOffTest {i : Instr}
    (hexec : exec i s = .next { s with
      blk := if s.blk.flag .NOZ_FLT n 6 then s.blk.latch .NOZ_FLT n 6
        else (s.blk.latch .NOZ_FLT n 6).raiseItems 64 2 0 [unitNoz n] at_ }) :
    Does i s eventParts (addr .NOZ_FLT n :: eventWords [64]) (fun t =>
      t.word .NOZ_FLT n = s.blk.word .NOZ_FLT n ||| 0x40#32
        ∧ (s.blk.flag .NOZ_FLT n 6 = false → Raised 64 s.blk t)) := by
  have hflt := nozFlt_addr n.isLt (.inl rfl)
  have hkeeps := (latch_keeps s.blk .NOZ_FLT n 6).mono (List.nil_subset eventParts)
  have hwords := (latch_words s.blk .NOZ_FLT n 6).mono (m := addr .NOZ_FLT n :: eventWords [64]) (by simp)
  have hword := word_latch_same s.blk .NOZ_FLT n 6
  cases hflag : s.blk.flag .NOZ_FLT n 6 with
  | true =>
    rw [hflag] at hexec
    exact ⟨_, hexec, hkeeps, hwords, hword, nofun⟩
  | false =>
    rw [hflag] at hexec
    refine ⟨_, hexec, hkeeps.trans (raiseItems_keeps _ _ _ _ _ _ _),
      hwords.trans ((raiseItems_words _ _ _ _ _ _ _).mono (by simp)), ?_, fun _ => ?_⟩
    · exact (raiseItems_word _ _ _ _ _ _ _ _ _ _ hflt).trans hword
    · rw [if_neg Bool.false_ne_true, raiseItems_one _ _ _ _ _ _ _ (by unfold unitNoz; omega)]
      exact (raise_raised _ 64 _ _ at_ false (by decide)).of_word (latch_words _ _ _ _ _ (evtCnt_of_notMem hflt) _)

end NozzleFaults

/-! ### A fault of a bank (R227, R228) -/

/-- The request of a unit for FAULTED that a fault latched at the instant `at_` posts. -/
def faultRequest (b : Block) (u at_ : Nat) : UnitReq :=
  { unit := u, source := .vigil, target := .faulted, cause := .latchedFault, since := (b.reaches at_).stagedAt }

section BankFaults

variable {s : State} {b t u : Block} {at_ : Nat}

theorem faultUnit_asks (b : Block) (n at_ : Nat) : faultRequest b n at_ ∈ (b.faultUnit n at_).vig.reqs :=
  List.mem_append_right _ List.mem_cons_self

/-- A request for one unit leaves those for the others. -/
theorem mem_faultUnit_of_ne {q : UnitReq} {n : Nat} (h : q ∈ b.vig.reqs) (hne : q.unit ≠ n) :
    q ∈ (b.faultUnit n at_).vig.reqs := by
  refine List.mem_append_left _ (List.mem_filter.mpr ⟨h, ?_⟩)
  simp [hne]

theorem faultRequest_congr (h : (t.reaches at_).time = (b.reaches at_).time) (n : Nat) :
    faultRequest t n at_ = faultRequest b n at_ := by
  unfold faultRequest Block.stagedAt Block.now; rw [h]

/-- Naming an instant twice is naming it once. -/
theorem reaches_reaches (b : Block) (at_ : Nat) : ((b.reaches at_).reaches at_).time = (b.reaches at_).time := by
  simp

/-- `t` is `b` with the channels `ns` in FAULT and their units asked FAULTED. -/
structure ChannelsFaulted (ns : List Nat) (at_ : Nat) (b t : Block) : Prop where
  keeps : Keeps [.valve, .unitReqs, .hand] b t
  regs : t.regs = b.regs
  reached : (t.reaches at_).time = (b.reaches at_).time
  length : t.eng.valve.noz.length = b.eng.valve.noz.length
  seq : ∀ m ∈ ns, (t.noz m).seq = .fault
  asked : ∀ m ∈ ns, faultRequest b (unitNoz m) at_ ∈ t.vig.reqs
  others : ∀ m, m ∉ ns → t.noz m = b.noz m

/-- One more channel in FAULT. -/
theorem ChannelsFaulted.snoc {ns : List Nat} {n : Nat} (e : ChannelsFaulted ns at_ b t)
    (hn : n < b.eng.valve.noz.length) :
    ChannelsFaulted (ns ++ [n]) at_ b ((t.nozToFault n at_).faultUnit (unitNoz n) at_) := by
  have hseq := nozToFault_seq (b := t) at_ (e.length ▸ hn)
  obtain ⟨g, hg, hrows⟩ := (nozToFault_changesNoz n t at_).exists_modValve
  have hlen := (nozToFault_changesNoz n t at_).length
  rw [hg] at hseq hlen ⊢
  have hsame : ∀ m, m ≠ n → ((t.modValve g).faultUnit (unitNoz n) at_).noz m = t.noz m :=
    fun m hm => noz_of_keepsRows hrows hm
  have hreached : (((t.modValve g).faultUnit (unitNoz n) at_).reaches at_).time = (t.reaches at_).time :=
    reaches_reaches t at_
  have hmem {m : Nat} : m ∈ ns ++ [n] ↔ m ∈ ns ∨ m = n := by simp
  refine ⟨?_, e.regs, hreached.trans e.reached, hlen.trans e.length, fun m hm => ?_, fun m hm => ?_, fun m hm => ?_⟩
  · exact e.keeps.trans (((modValve_keeps t g).mono (by simp)).trans ((faultUnit_keeps _ _ _ _).mono (by simp)))
  · by_cases h : m = n
    · subst h; exact hseq
    · rw [hsame m h]
      exact e.seq m ((hmem.mp hm).resolve_right h)
  · by_cases h : m = n
    · subst h
      rw [← faultRequest_congr e.reached]
      exact faultUnit_asks (t.modValve g) (unitNoz m) at_
    · exact mem_faultUnit_of_ne (b := t.modValve g) (e.asked m ((hmem.mp hm).resolve_right h)) h
  · rw [hmem, not_or] at hm
    rw [hsame m hm.2, e.others m hm.1]

/-- The channels `ns` in FAULT after those before them. -/
theorem ChannelsFaulted.foldl {before ns : List Nat} (e : ChannelsFaulted before at_ b t)
    (hns : ∀ n ∈ ns, n < b.eng.valve.noz.length) :
    ChannelsFaulted (before ++ ns) at_ b
      (ns.foldl (fun acc n => (acc.nozToFault n at_).faultUnit (unitNoz n) at_) t) := by
  induction ns generalizing before t with
  | nil => rwa [List.append_nil]
  | cons n ns ih =>
    rw [List.append_cons]
    exact ih (e.snoc (hns n List.mem_cons_self)) fun m hm => hns m (List.mem_cons_of_mem _ hm)

theorem channelsFaulted_foldl (ns : List Nat) (hns : ∀ n ∈ ns, n < b.eng.valve.noz.length) :
    ChannelsFaulted ns at_ b (ns.foldl (fun acc n => (acc.nozToFault n at_).faultUnit (unitNoz n) at_) b) :=
  ChannelsFaulted.foldl (before := []) ⟨.refl _ _, rfl, rfl, rfl, nofun, nofun, fun _ _ => rfl⟩ hns

/-- Nozzles raise one event together, under the base 0 (R428). -/
theorem raiseItems_nozzles (b : Block) (s : Nat) (c : Byte) (k : Nat) {l : List Nat} (at_ : Nat) (hne : l ≠ [])
    (hl : ∀ u ∈ l, u < 96) : b.raiseItems s c k l at_ = b.raise s c (payB k 0 l) at_ := by
  obtain ⟨x, hx⟩ := List.exists_mem_of_ne_nil l hne
  have hfirst : l.any (fun i => decide (0 ≤ i) && decide (i < 0 + 96)) = true :=
    List.any_eq_true.mpr ⟨x, hx, by simpa using hl x hx⟩
  have hnone (base : Nat) (hb : 96 ≤ base) :
      l.any (fun i => decide (base ≤ i) && decide (i < base + 96)) = false := by
    rw [List.any_eq_false]
    intro i hi
    have := hl i hi
    simp; omega
  simp only [Block.raiseItems, List.foldl_cons, List.foldl_nil, hfirst, hnone 96 (by omega), hnone 192 (by omega),
    if_true, Bool.false_eq_true, if_false]

/-- `t` is `b` with a fault of bank `k` latched: its flag, every fitted channel of it in FAULT with its unit asked
    FAULTED, and an occurrence of event 65. -/
structure BankFault (k bit at_ : Nat) (b t : Block) : Prop where
  keeps : Keeps ([.valve, .unitReqs, .hand] ++ eventParts) b t
  words : KeepsWords (addr .BANK_FLT k :: eventWords [65]) b t
  flag : t.word .BANK_FLT k = b.word .BANK_FLT k ||| BitVec.twoPow 32 bit
  raised : Raised 65 b t
  faulted : ∀ m < 96, b.present (unitNoz m) = true → m / 8 = k →
    (t.noz m).seq = .fault ∧ faultRequest b (unitNoz m) at_ ∈ t.vig.reqs
  others : ∀ m < 96, m / 8 ≠ k → t.noz m = b.noz m

theorem mem_bankChannels {m k : Nat} : m ∈ bankChannels k ↔ m / 8 = k := by
  simp only [bankChannels, List.mem_map, List.mem_range]
  constructor
  · rintro ⟨j, hj, rfl⟩; omega
  · intro h; exact ⟨m % 8, by omega, by omega⟩

/-- The flags of a bank are no count of an event. -/
theorem bankFlt_addr {k : Nat} (hk : k < 12) : addr .BANK_FLT k ∉ eventWords [65] := by
  simp [eventWords, addr, desc]; omega

/-- A fault of a bank of which some channel is fitted. -/
theorem bankFault_bankFault (bit : Nat) {n : Nat} (hn : n < 96) (hpresent : b.present (unitNoz n) = true)
    (hlen : b.eng.valve.noz.length = 96) : BankFault (bankOf n) bit at_ b (b.bankFault (bankOf n) bit at_) := by
  have hk : bankOf n < 12 := by unfold bankOf; omega
  have hflt := bankFlt_addr hk
  have hmem {m : Nat} : m ∈ (bankChannels (bankOf n)).filter (fun n => b.present (unitNoz n))
      ↔ m / 8 = bankOf n ∧ b.present (unitNoz m) = true := by
    rw [List.mem_filter, mem_bankChannels]
  have hlt : ∀ m ∈ (bankChannels (bankOf n)).filter (fun n => b.present (unitNoz n)), m < 96 := by
    intro m hm
    obtain ⟨h8, -⟩ := hmem.mp hm
    omega
  have hfirst := hmem.mpr ⟨rfl, hpresent⟩
  unfold Block.bankFault
  dsimp only
  generalize (bankChannels (bankOf n)).filter (fun n => b.present (unitNoz n)) = ns at hmem hlt hfirst ⊢
  have e := channelsFaulted_foldl (b := b.latch .BANK_FLT (bankOf n) bit) (at_ := at_) ns
    (fun m hm => hlen ▸ hlt m hm)
  generalize ns.foldl (fun acc n => (acc.nozToFault n at_).faultUnit (unitNoz n) at_)
    (b.latch .BANK_FLT (bankOf n) bit) = t at e ⊢
  have hwords : KeepsWords [addr .BANK_FLT (bankOf n)] b t :=
    (latch_words b .BANK_FLT (bankOf n) bit).trans (KeepsWords.of_regs e.regs)
  rw [raiseItems_nozzles t 65 1 0 at_ (by simpa using List.ne_nil_of_mem hfirst) (by simpa [unitNoz] using hlt)]
  refine ⟨?_, ?_, ?_, ?_, fun m hm hp h8 => ⟨?_, ?_⟩, fun m hm h8 => ?_⟩
  · exact ((latch_keeps b _ _ _).mono (List.nil_subset _)).trans ((e.keeps.mono (List.subset_append_left _ _)).trans
      ((raise_keeps _ _ _ _ _ _).mono (List.subset_append_right _ _)))
  · exact (hwords.mono (by simp)).trans ((raise_words _ _ _ _ _ _).mono (by simp))
  · rw [raise_word _ _ _ _ _ _ _ _ _ hflt, word_of_regs e.regs, word_latch_same, ofNat_two_pow_eq]
  · exact (raise_raised t 65 _ _ at_ false (by decide)).of_word (hwords _ (evtCnt_of_notMem hflt) _)
  · rw [noz_congr (congrArg (fun x => x.valve.noz) (raise_eng ..))]
    exact e.seq m (hmem.mpr ⟨h8, hp⟩)
  · rw [raise_vig]
    exact e.asked m (hmem.mpr ⟨h8, hp⟩)
  · rw [noz_congr (congrArg (fun x => x.valve.noz) (raise_eng ..))]
    exact e.others m (fun h => h8 (hmem.mp h).1)

/-- A command that faults a bank, of which nothing more is asked. -/
theorem does_bankFault {i : Instr} {n : Fin 96} {k bit : Nat} (hs : s.Sound)
    (hpresent : s.blk.present (unitNoz n) = true) (hk : k = bankOf n)
    (hexec : exec i s = .next { s with blk := s.blk.bankFault k bit at_ }) :
    Does i s ([.valve, .unitReqs, .hand] ++ eventParts) (addr .BANK_FLT k :: eventWords [65]) (fun t =>
      t.word .BANK_FLT k = s.blk.word .BANK_FLT k ||| BitVec.twoPow 32 bit ∧ Raised 65 s.blk t
        ∧ (∀ m < 96, s.blk.present (unitNoz m) = true → m / 8 = k →
          (t.noz m).seq = .fault ∧ faultRequest s.blk (unitNoz m) at_ ∈ t.vig.reqs)
        ∧ (∀ m < 96, m / 8 ≠ k → t.noz m = s.blk.noz m) ∧ True) := by
  subst hk
  have e := bankFault_bankFault (at_ := at_) bit n.isLt hpresent (Block.Sound.noz_length hs)
  exact ⟨_, hexec, e.keeps, e.words, e.flag, e.raised, e.faulted, e.others, trivial⟩

theorem exec_hsOvercurrent {k : Fin 12} {ma ns : Nat} (hhs : s.blk.hsOn k = true) (hma : 10000 < ma)
    (hns : 5000 ≤ ns) : exec (.hsOvercurrent k ma ns at_) s = .next { s with blk := s.blk.bankFault k 0 at_ } := by
  show execHsOvercurrent k ma ns at_ s = _
  exact next_if_pos ⟨hhs, hma, hns⟩

theorem exec_hsThermal {k : Fin 12} {tj : Int} (hhs : s.blk.hsOn k = true) (htj : 1700 < tj) :
    exec (.hsThermal k tj at_) s = .next { s with blk := s.blk.bankFault k 1 at_ } := by
  show execHsThermal k tj at_ s = _
  exact next_if_pos ⟨hhs, htj⟩

/-- A fault of a channel leaves which units are fitted. -/
theorem NozFault.present {n bit : Nat} (e : NozFault n bit at_ b t) (u : Nat) : t.present u = b.present u := by
  have hunits : t.vig.units = b.vig.units := e.unit.keeps .units (by simp [eventParts])
  simp only [Block.present, Block.unit, hunits]

/-- A bank fault after a fault of one of its channels names the same instant. -/
theorem NozFault.faultRequest_eq {n bit : Nat} (e : NozFault n bit at_ b t) (u : Nat) :
    faultRequest t u at_ = faultRequest b u at_ := by
  refine faultRequest_congr ?_ u
  rw [reaches_own, e.unit.time]
  exact reaches_reaches b at_

/-- A channel shorted to ground is a fault of the channel and of its bank. -/
theorem does_nozShortGnd {i : Instr} {n : Fin 96} (hs : s.Sound) (hpresent : s.blk.present (unitNoz n) = true)
    (hexec : exec i s = .next { s with blk := (s.blk.nozFault n 3 at_).bankFault (bankOf n) 2 at_ }) :
    Does i s ([.valve, .unitReqs, .hand] ++ eventParts)
      (addr .BANK_FLT (bankOf n) :: [addr .NOZ_FLT n] ++ eventWords [64, 65]) (fun t =>
      t.word .BANK_FLT (bankOf n) = s.blk.word .BANK_FLT (bankOf n) ||| BitVec.twoPow 32 2 ∧ Raised 65 s.blk t
        ∧ (∀ m < 96, s.blk.present (unitNoz m) = true → m / 8 = bankOf n →
          (t.noz m).seq = .fault ∧ faultRequest s.blk (unitNoz m) at_ ∈ t.vig.reqs)
        ∧ (∀ m < 96, m / 8 ≠ bankOf n → t.noz m = s.blk.noz m)
        ∧ t.flag .NOZ_FLT n 3 = true ∧ Raised 64 s.blk t) := by
  have hn := n.isLt
  have e := nozFault_nozFault (b := s.blk) 3 at_ hn (Block.Sound.noz_length hs)
  generalize s.blk.nozFault n 3 at_ = x at e hexec
  have hlen : x.eng.valve.noz.length = 96 := e.length.trans (Block.Sound.noz_length hs)
  have g := bankFault_bankFault (b := x) (at_ := at_) 2 hn (by rwa [e.present]) hlen
  have hbank : addr .BANK_FLT (bankOf n) ∉ addr .NOZ_FLT n :: eventWords [64] := by
    simp [eventWords, addr, desc, bankOf]; omega
  have hflt : addr .NOZ_FLT n ∉ addr .BANK_FLT (bankOf n) :: eventWords [65] := by
    simp [eventWords, addr, desc, bankOf]; omega
  have h65 : addr .EVT_CNT 65 ∉ addr .NOZ_FLT n :: eventWords [64] := by
    simp [eventWords, addr, desc]; omega
  have h64 : addr .EVT_CNT 64 ∉ addr .BANK_FLT (bankOf n) :: eventWords [65] := by
    simp [eventWords, addr, desc, bankOf]; omega
  refine ⟨_, hexec, e.unit.keeps.trans g.keeps, ?_, ?_, ?_, fun m hm hp h8 => ?_, fun m hm h8 => ?_, ?_, ?_⟩
  · exact (e.unit.words.mono (by simp [eventWords])).trans (g.words.mono (by simp [eventWords]))
  · rw [g.flag]
    exact congrArg (· ||| BitVec.twoPow 32 2) (e.unit.words _ hbank _)
  · exact g.raised.of_word (e.unit.words _ h65 _)
  · rw [← e.faultRequest_eq]
    exact g.faulted m hm (by rwa [e.present]) h8
  · exact (g.others m hm h8).trans (noz_of_keepsRows e.others fun h => h8 (congrArg (· / 8) h))
  · have hword : (x.bankFault (bankOf n) 2 at_).word .NOZ_FLT n = x.word .NOZ_FLT n := g.words _ hflt _
    unfold Block.flag
    rw [hword, e.unit.flag]
    simp
  · exact (g.words _ h64 _).trans e.unit.raised

end BankFaults

/-- Settles O28: each command, where its condition holds, latches the fault of the channel or of the bank. -/
theorem nozzleAndBankFaults : Obligations.NozzleAndBankFaults := by
  intro s n at_ hs hpresent b x others faults bankFaults
  refine ⟨fun ma hseq hma hdue hv => does_nozFault hs (exec_nozOpenLoad hseq hma hdue hv),
    fun t hon hpeak ht => does_nozFault hs (exec_nozShortLoad hon hpeak ht),
    fun ma hma hseq => does_nozFault hs (exec_nozShortBat hpresent hma hseq),
    fun tj htj hflag => does_nozFault hs (exec_nozThermal hpresent htj hflag),
    fun drain node hseq hhs hv hdrain => does_nozOpenOffTest (exec_nozOpenOffTest hpresent hseq hhs hv hdrain),
    fun drain node ns hoff hhs hdrain hnode hns =>
      does_nozShortGnd hs hpresent (exec_nozShortGnd hpresent hoff hhs hdrain hnode hns),
    fun k hk hhs => ⟨fun ma ns hma hns => does_bankFault hs hpresent hk (exec_hsOvercurrent hhs hma hns),
      fun tj htj => does_bankFault hs hpresent hk (exec_hsThermal hhs htj)⟩⟩

end Sys2Proof.Machine

/-! PROOFS. Flags written 1 clear (07, 08, 09, 10, 11, 14, 15): what a write of a flag register does. -/

namespace Sys2Proof.Machine

open Sys2Proof (Word Byte Bytes Sess Hdr Instr)

/-! ### The flag registers -/

/-- The registers whose flags are cleared by writing them 1, and MDRV_ARM, that is written the same way. -/
def flagRegs : List Reg :=
  [.NOZ_FLT, .BANK_FLT, .BST_FLT, .PROP_FLT, .MDRV_FLT, .LOOP_FLT, .LSW_FLT, .PWRB_DENIED, .VIG_SAFE, .EVT_PEND,
   .MDRV_ARM]

/-- What the checks of a write ask of a register alone (R376, R378). -/
theorem flagRegs_writable : ∀ r ∈ flagRegs,
    noWritable r 0 = false ∧ (desc r).fields.any (fun f => f.acc == .rws) = false ∧ (r == .LINK_KEY) = false := by
  decide

theorem flagRegs_at {r : Reg} (hr : r ∈ flagRegs) {i : Nat} (hi : i < (desc r).count1) :
    regAt (addr r i) = some (r, i, 0) := by
  have hall : ∀ r ∈ flagRegs, ∀ i < (desc r).count1, regAt (addr r i) = some (r, i, 0) := by decide +kernel
  exact hall r hr i hi

/-- They lie within the address space, and not among the statistics of the queues. -/
theorem flagRegs_addr {r : Reg} (hr : r ∈ flagRegs) {i : Nat} (hi : i < (desc r).count1) :
    addr r i < 2 ^ 32 ∧ addr r i / 0x10000 ≠ 3 := by
  have hall : ∀ r ∈ flagRegs, ∀ i < (desc r).count1, addr r i < 2 ^ 32 ∧ addr r i / 0x10000 ≠ 3 := by
    decide +kernel
  exact hall r hr i hi

/-- None of them is a register whose writes are checked or answered in a way of their own. -/
structure PlainFlags (r : Reg) : Prop where
  right : ∀ (b : Block) k i, b.rightDenied k r i = false
  encoding : ∀ (b : Block) i v, b.encodingOk r i 0 v = true
  noUnit : r ≠ .VIG_UNIT
  noFrame : r ≠ .CANS_TX_GO
  noSwitch : r ≠ .LSW_CTRL

theorem plainFlags {r : Reg} (hr : r ∈ flagRegs) : PlainFlags r := by
  simp only [flagRegs, List.mem_cons, List.not_mem_nil, or_false] at hr
  rcases hr with rfl | rfl | rfl | rfl | rfl | rfl | rfl | rfl | rfl | rfl | rfl <;>
    exact ⟨fun _ _ _ => rfl, fun _ _ _ => rfl, nofun, nofun, nofun⟩

section FlagWrites

variable {b : Block} {h : Hdr} {k : Sess} {r : Reg} {i : Nat} {a seq arrived : Nat} {v : Word}

/-- Their ranges are those of their fields, whatever the block holds. -/
theorem rangeOk_flagReg (hr : r ∈ flagRegs) (b t : Block) : t.rangeOk r i 0 v = b.rangeOk r i 0 v := by
  simp only [Block.rangeOk, (plainFlags hr).encoding]

theorem writeCheck_flagReg (hr : r ∈ flagRegs) (ha : regAt a = some (r, i, 0)) (habsent : b.absentReg r i = false)
    (hrange : b.rangeOk r i 0 v = true) : b.writeCheck k false a v = none := by
  obtain ⟨hright, -, hunit, hframe, -⟩ := plainFlags hr
  obtain ⟨hwritable, hrws, hkey⟩ := flagRegs_writable r hr
  -- `hunit` and `hframe` leave the last case of the checks
  simp only [Block.writeCheck, ha, habsent, hwritable, hright, hkey, hrws, hrange, Bool.false_eq_true, if_false,
    Bool.false_and, Bool.or_self, Bool.not_true]

theorem writeCheck_absent {j : Nat} (ha : regAt a = some (r, i, j)) (habsent : b.absentReg r i = true) :
    b.writeCheck k false a v = some (refuseAt .badAddress a) := by
  simp only [Block.writeCheck, ha, habsent, if_true]

/-- A write of flags starts no unit and no load switch: it is answered OK (R322, R403). -/
theorem writeStatus_flagReg (hr : r ∈ flagRegs) (ha : regAt a = some (r, i, 0)) : b.writeStatus [(a, v)] = .ok := by
  obtain ⟨-, -, hunit, -, hswitch⟩ := plainFlags hr
  simp only [Block.writeStatus, List.any_cons, List.any_nil, ha]
  split
  · next h => cases h; exact absurd rfl hunit
  · next h => cases h; exact absurd rfl hswitch
  · rfl

/-- Outside a transaction a write that no check refuses is carried out. -/
theorem dispatchWriteOf_now {b : Block} (hsmall : a < 2 ^ 32) (htxn : (b.link.sess k).txn.state = .none)
    (hcheck : b.writeCheck k false a v = none) :
    dispatchWriteOf h a v k seq arrived b = b.writeNow h regWriteRow.code k seq arrived [(a, v)] [] := by
  have ha : (BitVec.ofNat 32 a : Word).toNat = a := Nat.mod_eq_of_lt hsmall
  simp only [dispatchWriteOf, dispatchWrite, Block.writeWords, ha, htxn, txnRefuses, Block.writesCheck]
  rw [show ((TxnState.none == TxnState.opened) = false) from rfl, hcheck]
  rfl

theorem dispatchWriteOf_refused {e : Refuse} (hsmall : a < 2 ^ 32) (htxn : (b.link.sess k).txn.state = .none)
    (hcheck : b.writeCheck k false a v = some e) :
    dispatchWriteOf h a v k seq arrived b = b.replyNow (some k) h regWriteRow.code e.status e.payload := by
  have ha : (BitVec.ofNat 32 a : Word).toNat = a := Nat.mod_eq_of_lt hsmall
  simp only [dispatchWriteOf, dispatchWrite, Block.writeWords, ha, htxn, txnRefuses, Block.writesCheck]
  rw [show ((TxnState.none == TxnState.opened) = false) from rfl, hcheck]

/-- A write of flags of which none waits for a COMMIT acts and is answered now. -/
theorem writeNow_direct (hr : r ∈ flagRegs) (ha : regAt a = some (r, i, 0)) (hnow : actsAtCommit r v = false) :
    b.writeNow h regWriteRow.code k seq arrived [(a, v)] []
      = (b.applyDirect k r i 0 v (b.actAt arrived - b.time.now)).replyNow (some k) h regWriteRow.code .ok [] := by
  simp only [Block.writeNow, writeStatus_flagReg hr ha, Block.applyWrite, List.foldl_cons, List.foldl_nil,
    List.any_cons, List.any_nil, ha, hnow, (plainFlags hr).noUnit, Bool.or_false, Bool.false_eq_true, if_false]

/-- The block with a write that waits for the COMMIT. -/
def Block.postsWrite (b : Block) (seq arrived : Nat) (k : Sess) (a : Nat) (v : Word) : Block :=
  { b with posted := b.posted ++ [{ seq := seq, sess := some k, arrived := arrived, since := b.stagedAt
                                    act := .write a v }] }

/-- A write of flags of which one waits for the COMMIT acts now on the others, and is answered with the Tick of that
    COMMIT. -/
theorem writeNow_posted (hr : r ∈ flagRegs) (ha : regAt a = some (r, i, 0)) (hwait : actsAtCommit r v = true)
    {x : Block} (hx : b.applyDirect k r i 0 v (b.actAt arrived - b.time.now) = x) :
    b.writeNow h regWriteRow.code k seq arrived [(a, v)] []
      = ((x.postsWrite seq arrived k a v).begins seq k h regWriteRow.code .commit).reply (some k) h regWriteRow.code .ok
          b.commitTick [] := by
  simp only [Block.writeNow, writeStatus_flagReg hr ha, Block.applyWrite, List.foldl_cons, List.foldl_nil,
    List.any_cons, List.any_nil, ha, hwait, (plainFlags hr).noUnit, Bool.or_false, if_false, if_true, hx]
  rfl

/-! What serving them leaves -/

section

variable {s : State} (hr : r ∈ flagRegs) (hi : i < (desc r).count1) (htxn : (s.blk.link.sess k).txn.state = .none)
include hr hi htxn

/-- The checks refuse a write of flags that the variant lacks (R1, R34). -/
theorem dispatch_flagWrite_absent (habsent : s.blk.absentReg r i = true) :
    dispatchWriteOf h (addr r i) v k s.blk.link.arrivals (s.blk.now h.at_) (s.blk.taken k h)
      = (s.blk.taken k h).replyNow (some k) h regWriteRow.code .badAddress (addressPayload (addr r i)) :=
  dispatchWriteOf_refused (flagRegs_addr hr hi).1 ((congrArg Txn.state (taken_txn _ _ _ _)).trans htxn)
    (writeCheck_absent (flagRegs_at hr hi) habsent)

/-- The dispatch of a write of flags that passes the checks. -/
theorem dispatch_flagWrite (habsent : s.blk.absentReg r i = false) (hrange : s.blk.rangeOk r i 0 v = true) :
    dispatchWriteOf h (addr r i) v k s.blk.link.arrivals (s.blk.now h.at_) (s.blk.taken k h)
      = (s.blk.taken k h).writeNow h regWriteRow.code k s.blk.link.arrivals (s.blk.now h.at_) [(addr r i, v)] [] :=
  dispatchWriteOf_now (flagRegs_addr hr hi).1 ((congrArg Txn.state (taken_txn _ _ _ _)).trans htxn)
    (writeCheck_flagReg hr (flagRegs_at hr hi) habsent (by rwa [rangeOk_flagReg hr s.blk]))

end

variable {c : Instr} {s : State} (hr : r ∈ flagRegs) (hi : i < (desc r).count1)
  (hrow : rowOf c = some (h, regWriteRow)) (hd : dispatchOf c = some (dispatchWriteOf h (addr r i) v))
  (hserved : Served s.blk h k regWriteRow) (htxn : (s.blk.link.sess k).txn.state = .none)
include hr hi hrow hd hserved htxn

/-- A write of flags of a channel or unit that the variant lacks is refused (R1, R34). -/
theorem serves_flagWrite_absent (habsent : s.blk.absentReg r i = true) :
    Serves c s h 0x0011 .badAddress s.blk.time.count (addressPayload (addr r i)) [] [] (fun _ => True) :=
  serves_of_replyNow (op := regWriteRow) hrow hd hserved (dispatch_flagWrite_absent hr hi htxn habsent)

section

variable (habsent : s.blk.absentReg r i = false) (hrange : s.blk.rangeOk r i 0 v = true)
include habsent hrange

/-- A write of flags of which none waits for a COMMIT, that does `x`, is answered OK now. -/
theorem serves_flagWrite {x : Block} {parts : List BlockPart} {words : List Nat} {P : Block → Prop}
    (hnow : actsAtCommit r v = false) (hx : ∀ at_, (s.blk.taken k h).applyDirect k r i 0 v at_ = x)
    (hkeeps : Keeps parts (s.blk.taken k h) x) (hparts : .sent ∉ parts ∧ .clock ∉ parts)
    (hwords : KeepsWords words (s.blk.taken k h) x)
    (hP : ∀ t, Keeps [.requests, .sent, .replies] x t → t.regs = x.regs → P t) :
    Serves c s h 0x0011 .ok s.blk.time.count [] parts words P := by
  have hsent : x.link.sent = (s.blk.taken k h).link.sent := (hkeeps .sent hparts.1).1
  have hclock : { x.time with hand := 0 } = { (s.blk.taken k h).time with hand := 0 } := hkeeps .clock hparts.2
  have hcount : x.time.count = s.blk.time.count := by simpa using congrArg Time.count hclock
  refine serves_of_dispatch (op := regWriteRow) hrow hd hserved
    ((dispatch_flagWrite hr hi htxn habsent hrange).trans
      ((writeNow_direct hr (flagRegs_at hr hi) hnow).trans (by rw [hx])))
    ((hkeeps.mono (List.subset_append_right _ _)).trans ((replyNow_keeps _ _ _ _ _ _).mono (by simp [requestParts])))
    (hwords.trans (KeepsWords.of_regs (by simp))) (by simp [hsent, hcount]) ?_
  exact hP _ (((replyNow_keeps _ _ _ _ _ _).mono (by simp)).trans (fences_keeps _)) (by simp)

/-- A write that clears the flags of `m` in its word. -/
theorem serves_flagWrite_unlatch {m : Word} (hnow : actsAtCommit r v = false)
    (hx : ∀ at_, (s.blk.taken k h).applyDirect k r i 0 v at_ = (s.blk.taken k h).unlatch r i m) :
    Serves c s h 0x0011 .ok s.blk.time.count [] [] [addr r i] (fun t =>
      t.word r i = s.blk.word r i &&& ~~~m) := by
  refine serves_flagWrite hr hi hrow hd hserved htxn habsent hrange hnow hx (unlatch_keeps _ _ _ _) (by simp)
    (unlatch_words _ _ _ _) fun t _ ht => ?_
  rw [word_of_regs ht, word_unlatch_same, taken_word _ _ _ (flagRegs_addr hr hi).2]

end

/-- A write of a register all of whose flags clear at once. -/
theorem serves_flagWrite_row (hnow : actsAtCommit r v = false)
    (hx : ∀ (b : Block) (at_ : Nat), b.applyDirect k r i 0 v at_ = b.unlatch r i (v &&& fieldMask (desc r) [.w1c])) :
    (s.blk.absentReg r i = false → s.blk.rangeOk r i 0 v = true →
      Serves c s h 0x0011 .ok s.blk.time.count [] [] [addr r i] (fun t =>
        t.word r i = s.blk.word r i &&& ~~~(v &&& fieldMask (desc r) [.w1c])))
    ∧ (s.blk.absentReg r i = true →
      Serves c s h 0x0011 .badAddress s.blk.time.count (addressPayload (addr r i)) [] [] (fun _ => True)) :=
  ⟨fun habsent hrange => serves_flagWrite_unlatch hr hi hrow hd hserved htxn habsent hrange hnow (hx _),
    serves_flagWrite_absent hr hi hrow hd hserved htxn⟩

end FlagWrites

/-! ### NOZ_FLT.STUCK waits for the COMMIT (R223, R376) -/

section Stuck

variable {s : State} {h : Hdr} {k : Sess} {v : Word} {n : Fin 96}

/-- The block that waits for the COMMIT with STUCK, the other flags of channel `n` cleared. -/
def Block.postsStuck (b : Block) (n seq arrived : Nat) (k : Sess) (v : Word) : Block :=
  (b.unlatch .NOZ_FLT n (v &&& 0x5F)).postsWrite seq arrived k (addr .NOZ_FLT n) v

theorem postsStuck_keeps (b : Block) (m seq arrived : Nat) : Keeps [.posted] b (b.postsStuck m seq arrived k v) :=
  ((unlatch_keeps b .NOZ_FLT m _).mono (by simp)).trans (posted_keeps _ _)

theorem serves_nozFltWrite_stuck (hserved : Served s.blk h k regWriteRow)
    (htxn : (s.blk.link.sess k).txn.state = .none) (habsent : s.blk.absentReg .NOZ_FLT n = false)
    (hrange : s.blk.rangeOk .NOZ_FLT n 0 v = true) (hstuck : v.getLsbD 5 = true) :
    Serves (.nozFltWrite h n v) s h 0x0011 .ok (s.blk.reaches h.at_).commitTick [] [.posted] [addr .NOZ_FLT n]
      (fun t => t.word .NOZ_FLT n = s.blk.word .NOZ_FLT n &&& ~~~(v &&& 0x5F)
        ∧ t.posted = s.blk.posted ++ [{ seq := s.blk.link.arrivals, sess := some k, arrived := s.blk.now h.at_
                                        since := (s.blk.reaches h.at_).stagedAt
                                        act := .write (addr .NOZ_FLT n) v }]) := by
  have hr : Reg.NOZ_FLT ∈ flagRegs := by decide
  have hi : (n : Nat) < (desc .NOZ_FLT).count1 := n.isLt
  have hdispatch : dispatchWriteOf h (addr .NOZ_FLT n) v k s.blk.link.arrivals (s.blk.now h.at_) (s.blk.taken k h)
      = ((((s.blk.taken k h).postsStuck n s.blk.link.arrivals (s.blk.now h.at_) k v).begins s.blk.link.arrivals k h
          regWriteRow.code .commit).reply (some k) h regWriteRow.code .ok (s.blk.taken k h).commitTick []) :=
    (dispatch_flagWrite hr hi htxn habsent hrange).trans (writeNow_posted hr (flagRegs_at hr hi) hstuck rfl)
  have hkeeps := postsStuck_keeps (k := k) (v := v) (s.blk.taken k h) n s.blk.link.arrivals (s.blk.now h.at_)
  refine serves_of_dispatch (op := regWriteRow) rfl rfl hserved hdispatch ?_ ?_ ?_ ⟨?_, ?_⟩
  · exact (hkeeps.mono (by simp)).trans (((begins_keeps _ _ _ _ _ _ _).mono (by simp [requestParts])).trans
      ((reply_keeps _ _ _ _ _ _ _).mono (by simp [requestParts])))
  · exact (unlatch_words (s.blk.taken k h) .NOZ_FLT n _).trans (KeepsWords.of_regs (reply_regs ..))
  · exact (reply_sent ..).trans (congrArg (· ++ _) (taken_sent s.blk k h))
  · rw [word_of_regs (fences_regs _), word_of_regs (reply_regs ..), begins_word,
      ← taken_word s.blk k h (flagRegs_addr hr hi).2]
    exact word_unlatch_same _ _ _ _
  · rw [fences_posted]
    exact reply_keeps _ _ _ _ _ _ _ .posted (by simp)

end Stuck

/-! ### EVT_PEND (R431) -/

section Pending

/-- The trouble codes of the sources named brought up to date. -/
theorem foldl_dtcUpdate_keeps (b : Block) (v : Word) (w : Nat) (l : List Nat) :
    Keeps [.codes] b (l.foldl (fun acc n => if v.getLsbD n then acc.dtcUpdate (32 * w + n) else acc) b) := by
  refine keeps_foldl _ _ _ _ fun b n => ?_
  split
  · exact dtcUpdate_keeps _ _
  · exact Keeps.refl _ _

theorem foldl_dtcUpdate_regs (b : Block) (v : Word) (w : Nat) (l : List Nat) :
    (l.foldl (fun acc n => if v.getLsbD n then acc.dtcUpdate (32 * w + n) else acc) b).regs = b.regs := by
  refine foldl_regs _ _ _ fun b n => ?_
  split
  · exact dtcUpdate_regs _ _
  · rfl

/-- The block with pending bits of the 32 sources of EVT_PEND[w] cleared. -/
def Block.pendCleared (b : Block) (w : Nat) (v : Word) : Block :=
  { b with evt := { b.evt with pend := b.evt.pend &&& ~~~BitVec.ofNat 128 (v.toNat * 2 ^ (32 * w)) } }

theorem pendCleared_keeps (b : Block) (w : Nat) (v : Word) : Keeps [.events] b (b.pendCleared w v) := by
  intro q hq
  cases q <;> simp_all [BlockPart.same, sessSame, Block.pendCleared]

theorem clearPend_keeps (b : Block) (w : Nat) (v : Word) : Keeps [.events, .codes] b (b.clearPend w v) :=
  ((pendCleared_keeps b w v).mono (by simp)).trans ((foldl_dtcUpdate_keeps (b.pendCleared w v) v w _).mono (by simp))

theorem clearPend_regs (b : Block) (w : Nat) (v : Word) : (b.clearPend w v).regs = b.regs :=
  foldl_dtcUpdate_regs (b.pendCleared w v) v w _

theorem clearPend_evt (b : Block) (w : Nat) (v : Word) :
    (b.clearPend w v).evt
      = { b.evt with pend := b.evt.pend &&& ~~~BitVec.ofNat 128 (v.toNat * 2 ^ (32 * w)) } :=
  foldl_dtcUpdate_keeps (b.pendCleared w v) v w _ .events (by simp)

end Pending

/-! ### MDRV_ARM (R254) -/

section Arms

/-- Entries changed one after the other, each where its index asks for it. -/
theorem foldl_modNth_range {α : Type} (p : Nat → Bool) (f : α → α) (n : Nat) (l : List α) :
    (List.range n).foldl (fun acc u => if p u then modNth acc u f else acc) l
      = l.mapIdx (fun u x => if u < n ∧ p u = true then f x else x) := by
  induction n with
  | zero => exact (List.ext_getElem? fun j => by simp)
  | succ n ih =>
    rw [List.range_succ, List.foldl_append, ih]
    refine List.ext_getElem? fun j => ?_
    by_cases hp : p n = true
    · simp only [List.foldl_cons, List.foldl_nil, hp, if_true, modNth, List.getElem?_modify, List.getElem?_mapIdx]
      by_cases hj : n = j
      · subst hj; cases l[n]? <;> simp [hp]
      · have hlt : j < n + 1 ↔ j < n := by omega
        simp [hj, hlt]
    · have hlt (hpj : p j = true) : j < n + 1 ↔ j < n := by
        have : j ≠ n := fun h => hp (h ▸ hpj)
        omega
      simp only [List.foldl_cons, List.foldl_nil, hp, List.getElem?_mapIdx]
      cases hpj : p j <;> simp_all

/-- Units changed one after the other, each where the configuration asks for it. -/
theorem foldl_modMot {p : Block → Nat → Bool} (f : Motor → Motor)
    (hp : ∀ b g u, p (Block.modMots b g) u = p b u) (l : List Nat) (b : Block) :
    l.foldl (fun acc u => if p acc u then acc.modMot u f else acc) b
      = b.modMots (fun m => { m with
          units := l.foldl (fun acc u => if p b u then modNth acc u f else acc) m.units }) := by
  induction l generalizing b with
  | nil => rfl
  | cons u l ih =>
    have hsame : p (b.modMot u f) = p b := funext fun v => hp b _ v
    rw [List.foldl_cons, ih]
    cases hu : p b u with
    | true =>
      simp only [if_true, hsame, List.foldl_cons, hu]
      rfl
    | false => simp only [Bool.false_eq_true, if_false, List.foldl_cons, hu]

/-- The units of the groups named that do not arm by themselves, armed. -/
theorem armGroups_eq (b : Block) (groups : Word) :
    b.armGroups groups = b.modMots (fun x => { x with units := x.units.mapIdx (fun u m =>
      if u < 16 ∧ groups.getLsbD (b.fld .MDRV_CFG u 10 8) = true ∧ b.flag .MDRV_CFG u 6 = false then
        { m with armed := m.armed ||| m.pending } else m) }) := by
  unfold Block.armGroups
  rw [foldl_modMot (p := fun acc u => groups.getLsbD (acc.fld .MDRV_CFG u 10 8) && !acc.flag .MDRV_CFG u 6) _
    (fun _ _ _ => rfl)]
  refine congrArg b.modMots (funext fun x => congrArg (fun l => { x with units := l }) ?_)
  rw [foldl_modNth_range (fun u => groups.getLsbD (b.fld .MDRV_CFG u 10 8) && !b.flag .MDRV_CFG u 6)]
  simp only [Bool.and_eq_true, Bool.not_eq_true']

end Arms

/-- The groups of the units, and which arm by themselves, are the same when the request is taken. -/
theorem taken_armGroups_mot (b : Block) (k : Sess) (h : Hdr) (groups : Word) :
    ((b.taken k h).armGroups groups).eng.mot = { b.eng.mot with units := b.eng.mot.units.mapIdx (fun u m =>
      if u < 16 ∧ groups.getLsbD (b.fld .MDRV_CFG u 10 8) = true ∧ b.flag .MDRV_CFG u 6 = false then
        { m with armed := m.armed ||| m.pending } else m) } := by
  have hword {u : Nat} (hu : u < 16) : (b.taken k h).word .MDRV_CFG u = b.word .MDRV_CFG u :=
    taken_word b k h (by simp [addr, desc]; omega)
  rw [armGroups_eq, modMots_own, taken_eng]
  refine congrArg (fun f => { b.eng.mot with units := b.eng.mot.units.mapIdx f }) (funext fun u => funext fun m => ?_)
  refine ite_congr (propext (and_congr_right fun hu => ?_)) (fun _ => rfl) (fun _ => rfl)
  simp only [Block.fld, Block.flag, hword hu]

/-- Settles O51: each write passes the checks of its register and is served as its own lemma says. -/
theorem flagsAreCleared : Obligations.FlagsAreCleared := by
  intro s h k value n bank c p u q w hserved htxn b tick rows
  refine ⟨?_, ?_, ?_, ?_, ?_⟩
  · simp only [rows, List.forall_mem_cons, List.not_mem_nil, false_imp_iff, implies_true, and_true]
    exact ⟨serves_flagWrite_row (r := .BANK_FLT) (by decide) bank.isLt rfl rfl hserved htxn rfl fun _ _ => rfl,
      serves_flagWrite_row (r := .BST_FLT) (by decide) c.isLt rfl rfl hserved htxn rfl fun _ _ => rfl,
      serves_flagWrite_row (r := .PROP_FLT) (by decide) p.isLt rfl rfl hserved htxn rfl fun _ _ => rfl,
      serves_flagWrite_row (r := .MDRV_FLT) (by decide) u.isLt rfl rfl hserved htxn rfl fun _ _ => rfl,
      serves_flagWrite_row (r := .LOOP_FLT) (by decide) q.isLt rfl rfl hserved htxn rfl fun _ _ => rfl,
      serves_flagWrite_row (r := .LSW_FLT) (by decide) u.isLt rfl rfl hserved htxn rfl fun _ _ => rfl,
      serves_flagWrite_row (r := .PWRB_DENIED) (by decide) (by decide) rfl rfl hserved htxn rfl fun _ _ => rfl,
      serves_flagWrite_row (r := .VIG_SAFE) (by decide) (by decide) rfl rfl hserved htxn rfl fun _ _ => rfl⟩
  · exact serves_flagWrite_absent (r := .NOZ_FLT) (by decide) n.isLt rfl rfl hserved htxn
  · exact fun habsent hrange => ⟨fun hstuck => serves_flagWrite_unlatch (r := .NOZ_FLT) (by decide) n.isLt rfl rfl
      hserved htxn habsent hrange hstuck (fun _ => rfl), serves_nozFltWrite_stuck hserved htxn habsent hrange⟩
  · exact fun hrange => serves_flagWrite (r := .EVT_PEND) (by decide) w.isLt rfl rfl hserved htxn rfl hrange rfl
      (fun _ => rfl) (clearPend_keeps _ w value) (by simp) (KeepsWords.of_regs (clearPend_regs _ _ _))
      (fun t ht _ => (ht .events (by simp)).trans (clearPend_evt _ _ _))
  · have hkeeps : Keeps [.motors] (b.taken k h) ((b.taken k h).armGroups value) := by
      rw [armGroups_eq]
      exact modMots_keeps _ _
    have hregs : ((b.taken k h).armGroups value).regs = (b.taken k h).regs := by rw [armGroups_eq]; rfl
    exact fun hrange => serves_flagWrite (r := .MDRV_ARM) (i := 0) (by decide) (by decide) rfl rfl hserved htxn rfl
      hrange rfl (fun _ => rfl) hkeeps (by simp) (KeepsWords.of_regs hregs)
      (fun t ht _ => (ht .motors (by simp)).trans (taken_armGroups_mot b k h value))

end Sys2Proof.Machine

/-! PROOFS. The PWM units (08): what drives their outputs, carrier periods, shadows and calibration. -/

namespace Sys2Proof.Machine

open Sys2Proof (Word Byte Bytes Sess Hdr Instr)

/-! ### A change of one PWM unit -/

/-- `t` is `b` with nothing but PWM unit `u` changed. -/
def ChangesMot (u : Nat) (b t : Block) : Prop := ∃ f, t = b.modMot u f

section ChangesOfMotors

variable {u e : Nat} {b t x : Block}

theorem changesMot_modMot (u : Nat) (b : Block) (f : Motor → Motor) : ChangesMot u b (b.modMot u f) := ⟨f, rfl⟩

theorem modMot_modMot (f g : Motor → Motor) : (b.modMot u f).modMot u g = b.modMot u (fun m => g (f m)) :=
  congrArg (fun l => b.modMots fun m => { m with units := l }) (modNth_modNth f g)

theorem ChangesMot.trans (h : ChangesMot u b t) (g : ChangesMot u t x) : ChangesMot u b x := by
  obtain ⟨f, rfl⟩ := h
  obtain ⟨f', rfl⟩ := g
  exact ⟨_, modMot_modMot f f'⟩

theorem ChangesMot.keeps (h : ChangesMot u b t) : Keeps [.motors] b t := by
  obtain ⟨f, rfl⟩ := h
  exact modMots_keeps _ _

theorem ChangesMot.regs (h : ChangesMot u b t) : t.regs = b.regs := by
  obtain ⟨f, rfl⟩ := h
  rfl

theorem ChangesMot.others (h : ChangesMot u b t) : KeepsRows u b.eng.mot.units t.eng.mot.units := by
  obtain ⟨f, rfl⟩ := h
  exact keepsRows_modNth _ _ _

/-- What the units share is as it was. -/
theorem ChangesMot.shared (h : ChangesMot u b t) : { t.eng.mot with units := b.eng.mot.units } = b.eng.mot := by
  obtain ⟨f, rfl⟩ := h
  rfl

theorem ChangesMot.length (h : ChangesMot u b t) : t.eng.mot.units.length = b.eng.mot.units.length := by
  obtain ⟨f, rfl⟩ := h
  simp

theorem mot_modMot_same (f : Motor → Motor) (hu : u < b.eng.mot.units.length) :
    (b.modMot u f).mot u = f (b.mot u) := nth_modNth_same f hu

theorem mot_of_keepsRows (h : KeepsRows u b.eng.mot.units t.eng.mot.units) (he : e ≠ u) : t.mot e = b.mot e := by
  simp only [Block.mot, nth, List.getD_eq_getElem?_getD, h e he]

theorem mot_congr (h : t.eng.mot = b.eng.mot) (u : Nat) : t.mot u = b.mot u := by
  unfold Block.mot; rw [h]

theorem Block.Sound.mot_length {b : Block} (h : b.Sound) : b.eng.mot.units.length = 16 := by
  have hs := h.sizes
  simp only [Engines.sizes, List.cons.injEq] at hs
  obtain ⟨-, -, -, -, -, -, -, -, -, -, -, -, -, -, -, -, -, hmot, -⟩ := hs
  exact hmot

end ChangesOfMotors

/-! ### What drives the outputs (R252, R258, R260, R262, R266) -/

/-- `t` shows unit `u` as `y`, but for how its outputs came to be driven as they are. -/
def LikeMot (y : Motor) (u : Nat) (t : Block) : Prop :=
  { t.mot u with steps := y.steps, edgeLast := y.edgeLast } = y

/-- Unit `u` is `y`, and the newest entry of what drives its outputs is what drives them now. -/
def FollowsMot (y : Motor) (u : Nat) (t : Block) : Prop :=
  LikeMot y u t ∧ (t.mot u).steps.head?.map (·.drive) = some (t.motorDrive u)

section Settling

variable {u v n : Nat} {b t : Block} {y : Motor}

/-- Settling changes of a unit only how its outputs came to be driven; the newest drive is the one in force. -/
theorem motorSettle_eq (b : Block) (u n : Nat) :
    ∃ f, b.motorSettle u n = b.modMot u f
      ∧ ∀ m, ∃ s l, f m = { m with steps := s, edgeLast := l } ∧ s.head?.map (·.drive) = some (b.motorDrive u) := by
  refine ⟨_, rfl, fun m => ?_⟩
  split
  · exact ⟨_, _, rfl, rfl⟩
  · next d rest hsteps =>
    split
    · next hd => exact ⟨m.steps, m.edgeLast, rfl, by rw [hsteps]; exact congrArg some hd⟩
    · split
      · exact ⟨_, _, rfl, rfl⟩
      · exact ⟨_, _, rfl, rfl⟩

theorem motorSettle_changesMot (b : Block) (u n : Nat) : ChangesMot u b (b.motorSettle u n) := ⟨_, rfl⟩

theorem mot_motorSettle (b : Block) (v n u : Nat) :
    ∃ s l, (b.motorSettle v n).mot u = { b.mot u with steps := s, edgeLast := l } := by
  obtain ⟨f, e, hf⟩ := motorSettle_eq b v n
  by_cases hv : u = v
  · subst hv
    by_cases hu : u < b.eng.mot.units.length
    · obtain ⟨s, l, hsl, -⟩ := hf (b.mot u)
      exact ⟨s, l, by rw [e, mot_modMot_same f hu, hsl]⟩
    · exact ⟨(b.mot u).steps, (b.mot u).edgeLast, by rw [e]; simp [Block.mot, nth, modNth, hu]⟩
  · exact ⟨_, _, mot_of_keepsRows (motorSettle_changesMot b v n).others hv⟩

/-- What drives a unit does not depend on how its outputs came to be driven as they are. -/
theorem motorDrive_congr {s : List DriveStep} {l : Option Nat}
    (hm : t.mot u = { b.mot u with steps := s, edgeLast := l }) (hv : t.vig = b.vig) (hsup : t.sup = b.sup) : t.motorDrive u = b.motorDrive u := by
  have hstages : t.stagesOn = b.stagesOn := by
    unfold Block.stagesOn Block.vpwrPresent
    rw [hsup]
  unfold Block.motorDrive
  rw [hm, hv, hstages]
  rfl

theorem motorSettle_motorDrive (b : Block) (v n u : Nat) : (b.motorSettle v n).motorDrive u = b.motorDrive u := by
  obtain ⟨s, l, h⟩ := mot_motorSettle b v n u
  exact motorDrive_congr h rfl rfl

theorem LikeMot.motorSettle (h : LikeMot y u b) (v n : Nat) : LikeMot y u (b.motorSettle v n) := by
  obtain ⟨s, l, e⟩ := mot_motorSettle b v n u
  unfold LikeMot
  rw [e]
  exact h

/-- A unit that has settled follows what drives it. -/
theorem motorSettle_follows (h : LikeMot y u b) (n : Nat) (hu : u < b.eng.mot.units.length) :
    FollowsMot y u (b.motorSettle u n) := by
  refine ⟨h.motorSettle u n, ?_⟩
  rw [motorSettle_motorDrive]
  obtain ⟨f, e, hf⟩ := motorSettle_eq b u n
  obtain ⟨s, l, hsl, hd⟩ := hf (b.mot u)
  rw [e, mot_modMot_same f hu, hsl]
  exact hd

/-- Other units that settle leave a unit following what drives it. -/
theorem FollowsMot.motorSettle_of_ne (h : FollowsMot y u b) (n : Nat) (hv : u ≠ v) :
    FollowsMot y u (b.motorSettle v n) := by
  refine ⟨h.1.motorSettle v n, ?_⟩
  rw [motorSettle_motorDrive, mot_of_keepsRows (motorSettle_changesMot b v n).others hv]
  exact h.2

/-- Each unit of a list that settles follows what drives it in the end. -/
theorem foldl_motorSettle_follows (l : List Nat) (g : Block → Nat) (hu : u < b.eng.mot.units.length)
    (hlike : LikeMot y u b) (h : u ∈ l ∨ FollowsMot y u b) :
    FollowsMot y u (l.foldl (fun acc v => acc.motorSettle v (g acc)) b) := by
  induction l generalizing b with
  | nil => exact h.resolve_left (List.not_mem_nil)
  | cons v l ih =>
    refine ih (by rwa [(motorSettle_changesMot b v _).length]) (hlike.motorSettle v _) ?_
    by_cases hv : u = v
    · subst hv
      exact .inr (motorSettle_follows hlike _ hu)
    · exact h.imp (List.mem_of_ne_of_mem hv) (·.motorSettle_of_ne _ hv)

theorem motorsSettle_follows (at_ : Nat) (hu : u < 16) (hlen : b.eng.mot.units.length = 16) :
    FollowsMot (b.mot u) u (b.motorsSettle at_) :=
  foldl_motorSettle_follows _ _ (hlen ▸ hu) rfl (.inl (List.mem_range.mpr hu))

theorem motorsSettle_keeps (b : Block) (at_ : Nat) : Keeps [.motors] b (b.motorsSettle at_) :=
  keeps_foldl _ _ _ _ fun b u => (motorSettle_changesMot b u _).keeps

theorem motorsSettle_regs (b : Block) (at_ : Nat) : (b.motorsSettle at_).regs = b.regs :=
  foldl_leaves Block.regs _ _ _ fun _ _ _ => rfl

theorem motorsSettle_vig (b : Block) (at_ : Nat) : (b.motorsSettle at_).vig = b.vig :=
  foldl_leaves Block.vig _ _ _ fun _ _ _ => rfl

theorem foldl_motorSettle_shared (l : List Nat) (g : Block → Nat) (b : Block) :
    { (l.foldl (fun acc v => acc.motorSettle v (g acc)) b).eng.mot with units := b.eng.mot.units } = b.eng.mot :=
  foldl_leaves (fun x => { x.eng.mot with units := b.eng.mot.units }) l (fun acc v => acc.motorSettle v (g acc)) b
    fun _ _ _ => rfl

theorem motorsSettle_shared (b : Block) (at_ : Nat) :
    { (b.motorsSettle at_).eng.mot with units := b.eng.mot.units } = b.eng.mot :=
  foldl_motorSettle_shared _ _ b

end Settling

/-! ### A unit that is set, and settles -/

/-- `t` is `b` with unit `u` become `y`, its outputs following what drives it. -/
def PutsMot (y : Motor) (u : Nat) (b t : Block) : Prop :=
  FollowsMot y u t ∧ KeepsRows u b.eng.mot.units t.eng.mot.units
    ∧ { t.eng.mot with units := b.eng.mot.units } = b.eng.mot

section Setting

variable {u at_ : Nat} {b t : Block} {y : Motor}

theorem motorSet_changesMot (b : Block) (u at_ : Nat) (f : Motor → Motor) : ChangesMot u b (b.motorSet u at_ f) :=
  (changesMot_modMot u b f).trans (motorSettle_changesMot _ _ _)

theorem motorSet_puts {f : Motor → Motor} (hu : u < b.eng.mot.units.length) (hy : f (b.mot u) = y) :
    PutsMot y u b (b.motorSet u at_ f) := by
  have hc := motorSet_changesMot b u at_ f
  have hlike : LikeMot y u (b.modMot u f) := by
    unfold LikeMot
    rw [mot_modMot_same f hu, hy]
  refine ⟨motorSettle_follows hlike _ ?_, hc.others, hc.shared⟩
  rwa [(changesMot_modMot u b f).length]

/-- A change before a unit is set is a part of what it is set to. -/
theorem modMot_motorSet (f g : Motor → Motor) :
    (b.modMot u f).motorSet u at_ g = b.motorSet u at_ (fun m => g (f m)) :=
  congrArg (fun x : Block => x.motorSettle u (fineOf (b.now at_))) (modMot_modMot f g)

/-- A command that sets a unit changes nothing else. -/
theorem does_motorSet {i : Instr} {s : State} {f : Motor → Motor} (hu : u < s.blk.eng.mot.units.length)
    (hexec : exec i s = .next { s with blk := s.blk.motorSet u at_ f }) (hy : f (s.blk.mot u) = y) :
    Does i s [.motors] [] (PutsMot y u s.blk) :=
  have hc := motorSet_changesMot s.blk u at_ f
  ⟨_, hexec, hc.keeps, KeepsWords.of_regs hc.regs, motorSet_puts hu hy⟩

end Setting

/-! ### What carrier periods and duties change (R242 to R256) -/

/-- The words in which unit `u` counts, and those of the event of its minimum-pulse check. -/
def motorCounts (u : Nat) : List Nat :=
  [addr .MDRV_CNT0 u, addr .MDRV_CNT1 u, addr .MDRV_COMM_CNT u] ++ eventWords [99]

/-- `t` is `b` with nothing changed but PWM unit `u`, its counts and the event of its minimum-pulse check, and of the
    unit nothing that `view` shows. -/
structure MotorStep {α : Type} (view : Motor → α) (u : Nat) (b t : Block) : Prop where
  keeps : Keeps (.motors :: eventParts) b t
  words : KeepsWords (motorCounts u) b t
  unit : ∃ f, (∀ m, view (f m) = view m) ∧ t.eng.mot = { b.eng.mot with units := modNth b.eng.mot.units u f }

section Steps

variable {α : Type} {view : Motor → α} {u : Nat} {b t x : Block}

theorem MotorStep.trans (h : MotorStep view u b t) (g : MotorStep view u t x) : MotorStep view u b x := by
  obtain ⟨f, hf, e⟩ := h.unit
  obtain ⟨f', hf', e'⟩ := g.unit
  refine ⟨h.keeps.trans g.keeps, h.words.trans g.words, fun m => f' (f m), fun m => (hf' _).trans (hf m), ?_⟩
  rw [e', e]
  exact congrArg (fun l => { b.eng.mot with units := l }) (modNth_modNth f f')

/-- What keeps the engines and changes no word but the unit's counts leaves the unit as it was. -/
theorem MotorStep.of_counts (hkeeps : Keeps eventParts b t) (hwords : KeepsWords (motorCounts u) b t) :
    MotorStep view u b t where
  keeps := hkeeps.mono (List.subset_cons_self _ _)
  words := hwords
  unit := ⟨id, fun _ => rfl, (hkeeps .motors (by simp [eventParts])).trans
    (congrArg (fun l => { b.eng.mot with units := l }) (List.modify_id u b.eng.mot.units).symm)⟩

theorem MotorStep.refl (view : Motor → α) (u : Nat) (b : Block) : MotorStep view u b b :=
  .of_counts (Keeps.refl _ _) (KeepsWords.refl _ _)

theorem MotorStep.ite {c : Prop} [Decidable c] (h : MotorStep view u b t) (g : MotorStep view u b x) :
    MotorStep view u b (if c then t else x) := by
  split <;> assumption

/-- A step shows no less to a view that shows less. -/
theorem MotorStep.of_view {β : Type} {less : Motor → β} (h : MotorStep view u b t) (g : α → β)
    (hless : ∀ m, less m = g (view m)) : MotorStep less u b t where
  keeps := h.keeps
  words := h.words
  unit := by
    obtain ⟨f, hf, e⟩ := h.unit
    exact ⟨f, fun m => by rw [hless, hless, hf], e⟩

theorem modMot_step {f : Motor → Motor} (b : Block) (u : Nat) (hf : ∀ m, view (f m) = view m) :
    MotorStep view u b (b.modMot u f) where
  keeps := (modMots_keeps _ _).mono (by simp)
  words := KeepsWords.of_regs rfl
  unit := ⟨f, hf, rfl⟩

theorem MotorStep.others (h : MotorStep view u b t) : KeepsRows u b.eng.mot.units t.eng.mot.units := by
  obtain ⟨f, -, e⟩ := h.unit
  rw [e]
  exact keepsRows_modNth _ _ _

theorem MotorStep.length (h : MotorStep view u b t) : t.eng.mot.units.length = b.eng.mot.units.length := by
  obtain ⟨f, -, e⟩ := h.unit
  rw [e]
  exact modNth_length _ _ _

theorem MotorStep.mot (h : MotorStep view u b t) : view (t.mot u) = view (b.mot u) := by
  obtain ⟨f, hf, e⟩ := h.unit
  have hmot : t.mot u = (b.modMot u f).mot u := mot_congr e u
  rw [hmot]
  by_cases hu : u < b.eng.mot.units.length
  · rw [mot_modMot_same f hu, hf]
  · simp [Block.mot, nth, modNth, hu]

/-! The operations of a unit -/

theorem count_step (b : Block) (u : Nat) {r : Reg} (hr : addr r u ∈ motorCounts u) (m l n : Nat) :
    MotorStep view u b (b.count r u m l n) :=
  .of_counts ((count_keeps _ _ _ _ _ _).mono (by simp)) ((count_words _ _ _ _ _ _).mono (by simpa using hr))

theorem countWrap_step (b : Block) (u : Nat) {r : Reg} (hr : addr r u ∈ motorCounts u) (m l n : Nat) :
    MotorStep view u b (b.countWrap r u m l n) :=
  .of_counts ((countWrap_keeps _ _ _ _ _ _).mono (by simp)) ((countWrap_words _ _ _ _ _ _).mono (by simpa using hr))

theorem raiseLimited_step (b : Block) (u : Nat) (c : Byte) (p : Payload) (at_ : Nat) :
    MotorStep view u b (b.raiseLimited 99 c p at_) :=
  .of_counts (raiseLimited_keeps _ _ _ _ _)
    ((raiseLimited_words _ _ _ _ _).mono (List.subset_append_right _ _))

/-- A change of what drives the outputs, or of what the halls say, does not show. -/
def HidesDrive (view : Motor → α) : Prop :=
  ∀ (m : Motor) (st : List DriveStep) (l iv sec : Option Nat),
    view { m with steps := st, edgeLast := l, invalidSince := iv, sector := sec } = view m

theorem motorSettle_step (hview : HidesDrive view) (b : Block) (u n : Nat) :
    MotorStep view u b (b.motorSettle u n) := by
  obtain ⟨f, e, hf⟩ := motorSettle_eq b u n
  rw [e]
  refine modMot_step b u fun m => ?_
  obtain ⟨st, l, hsl, -⟩ := hf m
  rw [hsl]
  exact hview m st l m.invalidSince m.sector

theorem followHall_step (hview : HidesDrive view) (b : Block) (u n lag : Nat) :
    MotorStep view u b (b.followHall u n lag) := by
  have hseen (p : Nat) := modMot_step (view := view) b u fun m => hview m m.steps m.edgeLast none (some p)
  have hlost := modMot_step (view := view) b u fun m => hview m m.steps m.edgeLast (some (n * 5 / 32)) m.sector
  unfold Block.followHall
  dsimp only
  split
  · exact .refl _ _ _
  · split
    · exact (MotorStep.ite (hseen _) ((hseen _).trans (countWrap_step _ _ (by simp [motorCounts]) _ _ _))).trans
        (motorSettle_step hview _ _ _)
    · exact (MotorStep.ite (.refl _ _ _) (hlost.trans (count_step _ _ (by simp [motorCounts]) _ _ _))).trans
        (motorSettle_step hview _ _ _)

/-- New compares change the phases alone. -/
theorem takeCompares_step (hview : ∀ m ph, view { m with ph := ph } = view m) (b : Block) (u n : Nat)
    (c : List (Nat × Nat)) (carried : List (List (Nat × Bool))) :
    MotorStep view u b (b.takeCompares u n c carried) := by
  have hph (ph : List PwmPhase) := modMot_step (view := view) b u fun m => hview m ph
  exact .ite (hph _)
    (((hph _).trans (count_step _ _ (by simp [motorCounts]) _ _ _)).trans (raiseLimited_step _ _ _ _ _))

/-- The phases of a unit that takes up compares at an offset of its period. -/
def Motor.phasesTaking (m : Motor) (n : Nat) (c : List (Nat × Nat)) (carried : List (List (Nat × Bool))) :
    List PwmPhase :=
  (List.range 3).map fun i =>
    ((nth m.ph i {}).take m m.start m.period n (nth c i (0, 0)).1 (nth c i (0, 0)).2 (nth carried i [])).1

theorem mot_takeCompares (n : Nat) (c : List (Nat × Nat)) (carried : List (List (Nat × Bool)))
    (hu : u < b.eng.mot.units.length) :
    (b.takeCompares u n c carried).mot u = { b.mot u with ph := (b.mot u).phasesTaking n c carried } := by
  have htaken := mot_modMot_same (fun m => { m with ph := (b.mot u).phasesTaking n c carried }) hu
  simp only [Motor.phasesTaking] at htaken ⊢
  unfold Block.takeCompares
  simp only [List.map_map, Function.comp_def]
  split
  · exact htaken
  · exact (mot_congr (congrArg Engines.mot (raiseLimited_eng _ _ _ _ _)) u).trans htaken

end Steps

/-! ### A carrier period (R242 to R244, R253 to R255) -/

/-- The compares of the phases. -/
def Motor.compares (m : Motor) : List (Nat × Nat) := m.ph.map fun x => (x.cmpSet, x.cmpRst)

/-- What is set as a carrier period begins, and the state of the sequencer. -/
structure MotorCarrier where
  start : Nat
  period : Nat
  k : Nat
  cfg : List Word
  pending : BitVec 7
  armed : BitVec 7
  seq : MotSeq

def Motor.carrier (m : Motor) : MotorCarrier := ⟨m.start, m.period, m.k, m.cfg, m.pending, m.armed, m.seq⟩

/-- What the references of a period are made of. -/
structure MotorWave where
  carrier : MotorCarrier
  duty : Int
  compares : List (Nat × Nat)

def Motor.wave (m : Motor) : MotorWave := ⟨m.carrier, m.duty, m.compares⟩

/-- What the unit is to do, and the duties asked of it. -/
structure MotorWanted where
  seq : MotSeq
  asked : Int
  loopDuty : Int
  loopDue : Option (Int × Nat)

def Motor.wanted (m : Motor) : MotorWanted := ⟨m.seq, m.asked, m.loopDuty, m.loopDue⟩

theorem hidesDrive_carrier : HidesDrive Motor.carrier := fun _ _ _ _ _ => rfl

theorem nth_map {α β : Type} (f : α → β) (l : List α) (d : α) (i : Nat) : nth (l.map f) i (f d) = f (nth l i d) := by
  unfold nth
  rw [List.getD_eq_getElem?_getD, List.getD_eq_getElem?_getD, List.getElem?_map]
  cases l[i]? <;> rfl

theorem nth_replicate {α : Type} (x d : α) {n i : Nat} (hi : i < n) : nth (List.replicate n x) i d = x := by
  unfold nth
  rw [List.getD_eq_getElem?_getD, List.getElem?_replicate_of_lt hi]
  rfl

theorem nth_compares (m : Motor) (i : Nat) :
    nth m.compares i (0, 0) = ((nth m.ph i {}).cmpSet, (nth m.ph i {}).cmpRst) :=
  nth_map (fun x : PwmPhase => (x.cmpSet, x.cmpRst)) m.ph {} i

/-- The shadow compares of the phases. -/
def Motor.shadows (m : Motor) : List (Nat × Nat) := m.ph.map fun x => (x.shSet, x.shRst)

theorem nth_shadows (m : Motor) (i : Nat) :
    nth m.shadows i (0, 0) = ((nth m.ph i {}).shSet, (nth m.ph i {}).shRst) :=
  nth_map (fun x : PwmPhase => (x.shSet, x.shRst)) m.ph {} i

section Periods

variable {u j : Nat} {b : Block} {c : List (Nat × Nat)} {carried : List (List (Nat × Bool))}

theorem setDuty_step (b : Block) (u : Nat) (d : Int) :
    MotorStep Motor.carrier u b (b.modMot u (fun m => { m with duty := d })) := modMot_step b u fun _ => rfl

theorem takeDuty_step (b : Block) (u : Nat) (d : Int) (n : Nat) :
    MotorStep Motor.carrier u b (b.takeDuty u d n) :=
  (setDuty_step b u d).trans (takeCompares_step (fun _ _ => rfl) _ _ _ _ _)

theorem setLoopDuty_step (b : Block) (u : Nat) (d : Int) (due : Option (Int × Nat)) :
    MotorStep Motor.carrier u b (b.modMot u (fun m => { m with loopDuty := d, loopDue := due })) :=
  modMot_step b u fun _ => rfl

theorem loopDuty_step (b : Block) (u : Nat) (d : Int) (n : Nat) : MotorStep Motor.carrier u b (b.loopDuty u d n) := by
  have hwrite := setLoopDuty_step b u d none
  have hwait := modMot_step (view := Motor.carrier) (f := fun m => { m with loopDue := some (d, n) }) b u fun _ => rfl
  have htake := (hwrite.trans (takeDuty_step _ u d (n - (b.mot u).start))).trans
    (followHall_step hidesDrive_carrier _ u n 0)
  exact .ite hwrite (.ite hwait (.ite htake hwrite))

/-- A duty taken up at the start of a period. -/
def Block.dutyAtStart (b : Block) (u : Nat) (d : Int) (carried : List (List (Nat × Bool))) : Block :=
  (b.modMot u (fun m => { m with duty := d })).takeCompares u 0 ((b.mot u).dutyCmp d) carried

theorem dutyAtStart_step (b : Block) (u : Nat) (d : Int) (carried : List (List (Nat × Bool))) :
    MotorStep Motor.carrier u b (b.dutyAtStart u d carried) :=
  (setDuty_step b u d).trans (takeCompares_step (fun _ _ => rfl) _ _ _ _ _)

/-- A loop duty that no later write waits behind is taken up at once. -/
theorem loopAtStart_of_none (h : (b.mot u).loopDue = none) :
    b.loopAtStart u carried = b.dutyAtStart u (b.mot u).loopDuty carried := by
  unfold Block.loopAtStart
  rw [h]
  rfl

theorem loopAtStart_step (b : Block) (u : Nat) (carried : List (List (Nat × Bool))) :
    MotorStep Motor.carrier u b (b.loopAtStart u carried) := by
  unfold Block.loopAtStart
  dsimp only
  split
  · exact dutyAtStart_step _ _ _ _
  · split
    · exact (setLoopDuty_step _ _ _ _).trans (dutyAtStart_step _ _ _ _)
    · exact (dutyAtStart_step _ _ _ _).trans (loopDuty_step _ _ _ _)

theorem startCompares_step (b : Block) (u : Nat) (carried : List (List (Nat × Bool))) :
    MotorStep Motor.carrier u b (b.startCompares u carried) := by
  unfold Block.startCompares
  dsimp only
  split
  · exact dutyAtStart_step _ _ _ _
  · exact takeCompares_step (fun _ _ => rfl) _ _ _ _ _
  · exact dutyAtStart_step _ _ _ _
  · exact loopAtStart_step _ _ _
  · exact takeCompares_step (fun _ _ => rfl) _ _ _ _ _

/-! The compares of a period as it begins -/

theorem startCompares_compare (hseq : (b.mot u).seq ≠ .rampDown) (hsrc : (b.mot u).src = 0) :
    b.startCompares u carried = b.takeCompares u 0 (b.mot u).shadows carried := by
  unfold Block.startCompares
  cases h : (b.mot u).seq with
  | rampDown => exact absurd h hseq
  | _ => simp only [h, hsrc]; rfl

theorem startCompares_register (hseq : (b.mot u).seq = .run) (hsrc : (b.mot u).src = 1) :
    b.startCompares u carried = b.dutyAtStart u (b.mot u).asked carried := by
  unfold Block.startCompares
  simp only [hseq, hsrc]
  rfl

theorem startCompares_loop (hseq : (b.mot u).seq = .run) (hsrc : (b.mot u).src = 2) :
    b.startCompares u carried = b.loopAtStart u carried := by
  unfold Block.startCompares
  simp only [hseq, hsrc]

theorem nth_range_map {α : Type} (f : Nat → α) (d : α) {n i : Nat} (hi : i < n) :
    nth ((List.range n).map f) i d = f i := by
  simp [nth, hi]

/-- Each phase has the compares that it has taken up. -/
theorem nth_compares_takeCompares (n : Nat) (hu : u < b.eng.mot.units.length) {i : Nat} (hi : i < 3) :
    nth ((b.takeCompares u n c carried).mot u).compares i (0, 0) = nth c i (0, 0) := by
  rw [mot_takeCompares n c carried hu, Motor.compares, Motor.phasesTaking, List.map_map, nth_range_map _ _ hi]
  rfl

theorem nth_compares_dutyAtStart (d : Int) (hu : u < b.eng.mot.units.length) {i : Nat} (hi : i < 3) :
    nth ((b.dutyAtStart u d carried).mot u).compares i (0, 0)
      = dutyCompares (b.mot u).centred ((b.mot u).magnitude d) (b.mot u).period := by
  unfold Block.dutyAtStart
  rw [nth_compares_takeCompares 0 (by simpa using hu) hi]
  exact nth_replicate _ _ hi

theorem duty_dutyAtStart (d : Int) (hu : u < b.eng.mot.units.length) :
    ((b.dutyAtStart u d carried).mot u).duty = d := by
  unfold Block.dutyAtStart
  rw [mot_takeCompares _ _ _ (by simpa using hu), mot_modMot_same _ hu]

/-! The period that begins, and its shadows -/

/-- The block once the period has begun and its armed shadows have moved. -/
def Block.periodBegun (b : Block) (u j : Nat) : Block := (b.rollPeriod u j).moveShadows u

/-- The block once a period that has its compares has taken up the outputs of its unit. -/
def Block.outputsBegun (b : Block) (u : Nat) : Block :=
  let b1 := (b.modMot u Motor.refreshed).motorResume u
  (b1.followHall u (b1.mot u).start 0).countRefreshes u

theorem periodStart_eq (b : Block) (u j : Nat) :
    (b.periodStart u j).countRefreshes u
      = ((b.periodBegun u j).startCompares u ((b.mot u).ph.map fun x => x.carried (b.mot u))).outputsBegun u := rfl

theorem rollPeriod_step (b : Block) (u j : Nat) : MotorStep Motor.wanted u b (b.rollPeriod u j) :=
  modMot_step b u fun _ => rfl

theorem moveShadows_step (b : Block) (u : Nat) : MotorStep Motor.wanted u b (b.moveShadows u) :=
  modMot_step b u fun _ => rfl

theorem periodBegun_step (b : Block) (u j : Nat) :
    MotorStep Motor.wanted u b (b.periodBegun u j) :=
  (rollPeriod_step b u j).trans (moveShadows_step _ u)

theorem compares_refreshed (m : Motor) : m.refreshed.compares = m.compares := by
  simp only [Motor.compares, Motor.refreshed, List.map_map]
  refine List.map_congr_left fun x _ => ?_
  dsimp only [Function.comp]
  split <;> rfl

theorem wave_refreshed (m : Motor) : m.refreshed.wave = m.wave := by
  unfold Motor.wave
  rw [compares_refreshed]
  rfl

theorem hidesDrive_wave : HidesDrive (fun m => (m.wave, m.resuming)) := fun _ _ _ _ _ => rfl

theorem motorResume_step (b : Block) (u : Nat) : MotorStep Motor.wave u b (b.motorResume u) :=
  .ite (.refl _ _ _) (modMot_step b u fun _ => rfl)

theorem motorResume_resuming (hu : u < b.eng.mot.units.length) : ((b.motorResume u).mot u).resuming = false := by
  unfold Block.motorResume
  dsimp only
  split
  · next h => simpa using h
  · rw [mot_modMot_same _ hu]

theorem countRefreshes_step {α : Type} {view : Motor → α} (b : Block) (u : Nat) :
    MotorStep view u b (b.countRefreshes u) :=
  .ite (.refl _ _ _) (count_step _ _ (by simp [motorCounts]) _ _ _)

/-- Following the halls and counting the refreshes leaves the wave, and whether the unit resumes from a halt. -/
theorem followHall_countRefreshes_step (b : Block) (u n : Nat) :
    MotorStep (fun m => (m.wave, m.resuming)) u b ((b.followHall u n 0).countRefreshes u) :=
  (followHall_step hidesDrive_wave b u n 0).trans (countRefreshes_step _ _)

theorem outputsBegun_step (b : Block) (u : Nat) : MotorStep Motor.wave u b (b.outputsBegun u) :=
  ((modMot_step b u wave_refreshed).trans (motorResume_step _ _)).trans
    ((followHall_countRefreshes_step _ _ _).of_view Prod.fst fun _ => rfl)

/-- A halt's hold on the outputs ends (R267). -/
theorem outputsBegun_resuming (hu : u < b.eng.mot.units.length) : ((b.outputsBegun u).mot u).resuming = false :=
  (congrArg Prod.snd (followHall_countRefreshes_step _ u _).mot).trans
    (motorResume_resuming (by simpa using hu))

/-- The settings, the length and the start of the period are those of the registers and of the carrier (R242, R269);
    armed shadows are pending no more (R254). -/
theorem carrier_periodBegun (hu : u < b.eng.mot.units.length) (hcarrier : (b.mot u).armed.getLsbD 0 = false) :
    ((b.periodBegun u j).mot u).carrier
      = ⟨fineOf b.time.now + (b.mot u).phase + carrierStart (b.mot u).k j, carrierPeriod (b.mot u).k j, (b.mot u).k,
          b.motorWords u, (b.mot u).pending &&& ~~~(b.mot u).armed, 0, (b.mot u).seq⟩ := by
  unfold Block.periodBegun Block.moveShadows Block.rollPeriod
  dsimp only
  rw [mot_modMot_same _ (by simpa using hu), mot_modMot_same _ hu]
  simp only [Motor.carrier, Motor.moves, hcarrier, Bool.false_eq_true, if_false]

theorem nth_mapIdx {α : Type} (f : Nat → α → α) {l : List α} {i : Nat} (d : α) (hi : i < l.length) :
    nth (l.mapIdx f) i d = f i (nth l i d) := by
  simp [nth, hi]

theorem nth_shadows_moveShadows (hu : u < b.eng.mot.units.length) {i : Nat} (hi : i < (b.mot u).ph.length) :
    nth ((b.moveShadows u).mot u).shadows i (0, 0) = nth (b.transferred u) i (0, 0) := by
  unfold Block.moveShadows
  rw [mot_modMot_same _ hu, nth_shadows, nth_mapIdx _ _ hi]

theorem ph_rollPeriod (hu : u < b.eng.mot.units.length) : ((b.rollPeriod u j).mot u).ph
    = (b.mot u).ph.mapIdx fun i x => x.roll (b.mot u) ((b.mot u).heldHigh i) := by
  unfold Block.rollPeriod
  rw [mot_modMot_same _ hu]

/-- What the shadows transfer does not depend on the period that they begin. -/
theorem nth_transferred_rollPeriod (hu : u < b.eng.mot.units.length) {i : Nat} (hi : i < (b.mot u).ph.length)
    (h3 : i < 3) : nth ((b.rollPeriod u j).transferred u) i (0, 0) = nth (b.transferred u) i (0, 0) := by
  have hmoves (n : Nat) : ((b.rollPeriod u j).mot u).moves n = (b.mot u).moves n := by
    unfold Block.rollPeriod Motor.moves
    rw [mot_modMot_same _ hu]
  unfold Block.transferred
  rw [nth_range_map _ _ h3, nth_range_map _ _ h3, ph_rollPeriod hu, nth_mapIdx _ _ hi, hmoves, hmoves]
  rfl

/-- The shadow compares of a phase once a period has begun: those of its registers where they were armed (R254). -/
theorem shadows_periodBegun (hu : u < b.eng.mot.units.length) (hph : (b.mot u).ph.length = 3) {i : Nat} (hi : i < 3) :
    nth ((b.periodBegun u j).mot u).shadows i (0, 0)
      = (if (b.mot u).armed.getLsbD (1 + 2 * i) = true then bits (b.word .MDRV_SET u i) 19 0
          else (nth (b.mot u).ph i {}).shSet,
         if (b.mot u).armed.getLsbD (2 + 2 * i) = true then bits (b.word .MDRV_RST u i) 19 0
          else (nth (b.mot u).ph i {}).shRst) := by
  have hlen : i < ((b.rollPeriod u j).mot u).ph.length := by
    rw [ph_rollPeriod hu, List.length_mapIdx, hph]
    exact hi
  unfold Block.periodBegun
  rw [nth_shadows_moveShadows (by simpa using (rollPeriod_step b u j).length ▸ hu) hlen,
    nth_transferred_rollPeriod hu (hph ▸ hi) hi, Block.transferred, nth_range_map _ _ hi]
  rfl

/-! The whole of it -/

/-- The block once a carrier period has started. -/
def Block.periodStarted (b : Block) (u j : Nat) : Block := (b.periodStart u j).countRefreshes u

theorem exec_carrierPeriodStart {s : State} {u : Fin 16} {m : Fin 4} (hfrozen : s.blk.frozen = false)
    (hpresent : s.blk.present (unitMot u) = true) (hm : m.val < (s.blk.mot u).k) :
    exec (.carrierPeriodStart u m) s = .next { s with blk := s.blk.periodStarted u m } := by
  have hk : ¬ (s.blk.mot u).k ≤ m.val := by omega
  show execCarrierPeriodStart u m s = _
  simp only [execCarrierPeriodStart, lift, hpresent, hfrozen, hk, Bool.not_true, decide_false, Bool.or_self,
    Bool.false_eq_true, if_false]
  rfl

theorem periodStarted_step (b : Block) (u j : Nat) : MotorStep Motor.seq u b (b.periodStarted u j) := by
  unfold Block.periodStarted
  rw [periodStart_eq]
  exact (((periodBegun_step b u j).of_view MotorWanted.seq fun _ => rfl).trans
    ((startCompares_step _ u _).of_view MotorCarrier.seq fun _ => rfl)).trans
    ((outputsBegun_step _ u).of_view (·.carrier.seq) fun _ => rfl)

/-- Once the compares of a period are chosen, what its references are made of stands. -/
theorem wave_periodStarted (b : Block) (u j : Nat) :
    ((b.periodStarted u j).mot u).wave
      = (((b.periodBegun u j).startCompares u ((b.mot u).ph.map fun x => x.carried (b.mot u))).mot u).wave :=
  (outputsBegun_step _ u).mot

theorem carrier_periodStarted (b : Block) (u j : Nat) :
    ((b.periodStarted u j).mot u).carrier = ((b.periodBegun u j).mot u).carrier :=
  (congrArg MotorWave.carrier (wave_periodStarted b u j)).trans (startCompares_step _ u _).mot

theorem resuming_periodStarted (hu : u < b.eng.mot.units.length) :
    ((b.periodStarted u j).mot u).resuming = false := by
  unfold Block.periodStarted
  rw [periodStart_eq]
  exact outputsBegun_resuming (by rwa [(startCompares_step _ u _).length, (periodBegun_step b u j).length])

theorem cfg_periodBegun (hu : u < b.eng.mot.units.length) : ((b.periodBegun u j).mot u).cfg = b.motorWords u := by
  unfold Block.periodBegun Block.moveShadows Block.rollPeriod
  rw [mot_modMot_same _ (by simpa using hu), mot_modMot_same _ hu]

theorem src_periodBegun (hu : u < b.eng.mot.units.length) :
    ((b.periodBegun u j).mot u).src = bits (b.word .MDRV_CFG u) 3 2 := by
  unfold Motor.src Motor.word
  rw [cfg_periodBegun hu]
  rfl

theorem centred_periodBegun (hu : u < b.eng.mot.units.length) :
    ((b.periodBegun u j).mot u).centred = b.flag .MDRV_CFG u 4 := by
  unfold Motor.centred Motor.word
  rw [cfg_periodBegun hu]
  rfl

theorem magnitude_congr {m m' : Motor} (h : m.cfg = m'.cfg) (d : Int) : m.magnitude d = m'.magnitude d := by
  unfold Motor.magnitude Motor.sixStep Motor.mode Motor.word
  rw [h]

/-- With source COMPARE the compares are the shadows (R253, R254). -/
theorem compares_periodStarted_compare (hu : u < b.eng.mot.units.length) (hseq : (b.mot u).seq ≠ .rampDown)
    (hsrc : bits (b.word .MDRV_CFG u) 3 2 = 0) {i : Nat} (hi : i < 3) :
    nth ((b.periodStarted u j).mot u).compares i (0, 0) = nth ((b.periodBegun u j).mot u).shadows i (0, 0) := by
  have hstep := periodBegun_step b u j
  have hseq' : ((b.periodBegun u j).mot u).seq ≠ .rampDown := by
    rwa [show ((b.periodBegun u j).mot u).seq = (b.mot u).seq from congrArg MotorWanted.seq hstep.mot]
  rw [show ((b.periodStarted u j).mot u).compares = _ from congrArg MotorWave.compares (wave_periodStarted b u j)]
  dsimp only [Motor.wave]
  rw [startCompares_compare hseq' ((src_periodBegun hu).trans hsrc),
    nth_compares_takeCompares 0 (by rwa [hstep.length]) hi]

/-- A period that takes up a duty has it, and the compares that R244 gives for it. -/
theorem duty_periodStarted {d : Int} (hu : u < b.eng.mot.units.length)
    (h : ∀ c, (b.periodBegun u j).startCompares u c = (b.periodBegun u j).dutyAtStart u d c) :
    let y := (b.periodStarted u j).mot u
    y.duty = d ∧ ∀ i < 3, nth y.compares i (0, 0) = dutyCompares (b.flag .MDRV_CFG u 4) (y.magnitude d) y.period := by
  intro y
  have hu' : u < (b.periodBegun u j).eng.mot.units.length := by rwa [(periodBegun_step b u j).length]
  have hwave : y.wave = _ := wave_periodStarted b u j
  have hcarrier : y.carrier = _ := carrier_periodStarted b u j
  rw [h] at hwave
  refine ⟨(congrArg MotorWave.duty hwave).trans (duty_dutyAtStart d hu'), fun i hi => ?_⟩
  rw [show y.compares = _ from congrArg MotorWave.compares hwave, magnitude_congr (congrArg MotorCarrier.cfg hcarrier),
    show y.period = _ from congrArg MotorCarrier.period hcarrier, ← centred_periodBegun hu]
  exact nth_compares_dutyAtStart d hu' hi

end Periods

/-! ### Stale shadows and the calibration of the fine edges (R245, R256) -/

section Shadows

variable {s : State} {u : Fin 16} {at_ tap : Nat}

theorem exec_staleShadow (hpending : (s.blk.mot u).pending ≠ 0) (hage : 16 ≤ (s.blk.mot u).age)
    (hstale : (s.blk.mot u).stale = false) :
    exec (.staleShadow u at_) s = .next { s with
      blk := ((s.blk.modMot u (fun m => { m with stale := true })).count .MDRV_CNT1 u 7 0).raiseItems 100 1 0
        [unitMot u] at_ } := by
  show execStaleShadow u at_ s = _
  exact next_if_pos ⟨hpending, hage, by rw [hstale]; rfl⟩

/-- The counts of a unit are no count of an event. -/
theorem mdrvCnt1_addr : addr .MDRV_CNT1 u ∉ eventWords [100] := by
  simp [eventWords, addr, desc]; omega

theorem does_staleShadow {i : Instr}
    (hexec : exec i s = .next { s with
      blk := ((s.blk.modMot u (fun m => { m with stale := true })).count .MDRV_CNT1 u 7 0).raiseItems 100 1 0
        [unitMot u] at_ }) :
    Does i s (.motors :: eventParts) (addr .MDRV_CNT1 u :: eventWords [100]) (fun t =>
      t.eng.mot = { s.blk.eng.mot with units := modNth s.blk.eng.mot.units u (fun m => { m with stale := true }) }
        ∧ Raised 100 s.blk t ∧ t.fld .MDRV_CNT1 u 7 0 = min (s.blk.fld .MDRV_CNT1 u 7 0 + 1) 255) := by
  have hcounted : KeepsWords [addr .MDRV_CNT1 u] s.blk
      ((s.blk.modMot u (fun m => { m with stale := true })).count .MDRV_CNT1 u 7 0) := count_words _ _ _ _ _ _
  refine ⟨_, hexec, ?_, ?_, ?_, ?_, ?_⟩
  · exact (((modMots_keeps _ _).mono (by simp)).trans ((count_keeps _ _ _ _ _ _).mono (by simp))).trans
      ((raiseItems_keeps _ _ _ _ _ _ _).mono (by simp))
  · exact (hcounted.mono (by simp)).trans ((raiseItems_words _ _ _ _ _ _ _).mono (by simp))
  · exact congrArg Engines.mot (raiseItems_eng _ _ _ _ _ _ _)
  · rw [raiseItems_one _ _ _ _ _ _ _ (by unfold unitMot; omega)]
    exact (raise_raised _ 100 _ _ at_ false (by decide)).of_word (hcounted _ (evtCnt_of_notMem mdrvCnt1_addr) _)
  · rw [fld_congr 7 0 (raiseItems_word _ _ _ _ _ _ _ _ _ _ mdrvCnt1_addr), fld_count_same _ _ _ 1 (by decide)]
    rfl

/-- A tap in range: the fine edges return at the next Tick edge where they were coarse. -/
theorem does_pwmCalibration_fine (htap : tap < 65536) (hlo : 100 ≤ tap) (hhi : tap ≤ 250) :
    Does (.pwmCalibration tap at_) s [.motors] [] (fun t =>
      t.eng.mot = { s.blk.eng.mot with tap := tap, calAt := s.blk.now at_, fineDue := s.blk.eng.mot.coarse }) := by
  refine ⟨s.blk.modMots fun m => { m with tap := tap, calAt := s.blk.now at_, fineDue := m.coarse }, ?_,
    modMots_keeps _ _, KeepsWords.of_regs rfl, rfl⟩
  show execPwmCalibration tap at_ s = _
  simp only [execPwmCalibration, lift, Nat.mod_eq_of_lt htap, hlo, hhi, and_self, if_true]
  rfl

/-- The edges coarse from a measurement on. -/
def Block.edgesCoarse (b : Block) (tap at_ : Nat) : Block :=
  b.modMots fun m => { m with tap := tap, calAt := b.now at_, coarse := true, fineDue := false }

theorem exec_pwmCalibration_coarse (htap : tap < 65536) (hout : tap < 100 ∨ 250 < tap) :
    exec (.pwmCalibration tap at_) s = .next { s with
      blk := if s.blk.eng.mot.coarse then s.blk.edgesCoarse tap at_
        else (s.blk.edgesCoarse tap at_).raise 101 1 payZ at_ } := by
  have hrange : ¬ (100 ≤ tap ∧ tap ≤ 250) := by omega
  show execPwmCalibration tap at_ s = _
  simp only [execPwmCalibration, lift, Nat.mod_eq_of_lt htap, hrange, if_false]
  rfl

/-- A tap out of range: coarse at once, with event 101 at the change. -/
theorem does_pwmCalibration_coarse (htap : tap < 65536) (hout : tap < 100 ∨ 250 < tap) :
    Does (.pwmCalibration tap at_) s (.motors :: eventParts) (eventWords [101]) (fun t =>
      t.eng.mot = { s.blk.eng.mot with tap := tap, calAt := s.blk.now at_, coarse := true, fineDue := false }
        ∧ (s.blk.eng.mot.coarse = false → Raised 101 s.blk t)) := by
  have hexec := exec_pwmCalibration_coarse (s := s) (at_ := at_) htap hout
  have hkeeps : Keeps (.motors :: eventParts) s.blk (s.blk.edgesCoarse tap at_) := (modMots_keeps _ _).mono (by simp)
  cases hcoarse : s.blk.eng.mot.coarse with
  | true =>
    rw [hcoarse] at hexec
    exact ⟨_, hexec, hkeeps, KeepsWords.of_regs rfl, rfl, nofun⟩
  | false =>
    rw [hcoarse] at hexec
    refine ⟨_, hexec, hkeeps.trans ((raise_keeps _ _ _ _ _ _).mono (by simp)), raise_words _ 101 _ _ _ _, ?_,
      fun _ => raised_from (raise_raised _ 101 _ _ _ _ (by decide)) rfl⟩
    exact congrArg Engines.mot (raise_eng _ _ _ _ _ _)

end Shadows

/-- Settles O30: a period that begins takes up its carrier, its settings and its shadows, then its compares by the
    unit's source, and nothing after that changes them. -/
theorem carrierPeriodsAndShadows : Obligations.CarrierPeriodsAndShadows := by
  intro s u at_ hs b x
  have hu : (u : Nat) < b.eng.mot.units.length := by
    rw [Block.Sound.mot_length hs]; exact u.isLt
  refine ⟨fun m hfrozen hpresent hm hseq harmed hph => ?_,
    fun hpending hage hstale => does_staleShadow (exec_staleShadow hpending hage hstale),
    fun tap htap => ⟨does_pwmCalibration_fine htap, does_pwmCalibration_coarse htap⟩⟩
  have hstep := periodStarted_step b u m
  have hcarrier := (carrier_periodStarted b u m).trans (carrier_periodBegun hu harmed)
  have hwanted := (periodBegun_step b u m).mot
  simp only [Motor.carrier, MotorCarrier.mk.injEq] at hcarrier
  simp only [Motor.wanted, MotorWanted.mk.injEq] at hwanted
  obtain ⟨hstart, hperiod, hk, hcfg, hpending, harmed', hseq'⟩ := hcarrier
  obtain ⟨hseqBegun, hasked, hloopDuty, hloopDue⟩ := hwanted
  have hsrc (n : Nat) (h : bits (b.word .MDRV_CFG u) 3 2 = n) := (src_periodBegun (j := m) hu).trans h
  refine ⟨_, exec_carrierPeriodStart hfrozen hpresent hm, hstep.keeps, hstep.words, hstart, hperiod, hk, hcfg, hpending,
    harmed', hseq', ?_, fun hcompare i => ?_, fun hregister hrun => ?_, fun hloop hrun hdue => ?_, hstep.others⟩
  · exact resuming_periodStarted hu
  · have hcmp := (compares_periodStarted_compare (j := m) hu hseq hcompare i.isLt).trans
      (shadows_periodBegun hu hph i.isLt)
    rw [nth_compares] at hcmp
    exact Prod.mk.inj hcmp
  · obtain ⟨hduty, hcmp⟩ := duty_periodStarted (j := m) hu fun c =>
      startCompares_register (hseqBegun.trans hrun) (hsrc 1 hregister)
    rw [hasked] at hduty hcmp
    exact ⟨hduty, fun i => (nth_compares _ _).symm.trans (hcmp i i.isLt)⟩
  · obtain ⟨hduty, hcmp⟩ := duty_periodStarted (j := m) hu fun c =>
      (startCompares_loop (hseqBegun.trans hrun) (hsrc 2 hloop)).trans (loopAtStart_of_none (hloopDue.trans hdue))
    rw [hloopDuty] at hduty hcmp
    exact ⟨hduty, fun i => (nth_compares _ _).symm.trans (hcmp i i.isLt)⟩

end Sys2Proof.Machine

/-! PROOFS. The PWM units (08): run, ramp-down, brake and coast, by command and by time. -/

namespace Sys2Proof.Machine

open Sys2Proof (Word Byte Bytes Sess Hdr Instr)

/-! ### Ends of ramps and brakes (R260, R262, R266) -/

section Ends

variable {s : State} {u : Fin 16} {at_ : Nat}

theorem exec_rampDownDone (hfrozen : s.blk.frozen = false) (hseq : (s.blk.mot u).seq = .rampDown)
    (hramped : (s.blk.mot u).ramped (s.blk.now at_) = 0) :
    exec (.rampDownDone u at_) s = .next { s with
      blk := s.blk.motorSet u at_ (fun m => { m with seq := .brake, since := s.blk.now at_, duty := 0 }) } := by
  show execRampDownDone u at_ s = _
  exact next_if_pos ⟨hseq, hramped, by rw [hfrozen]; rfl⟩

theorem exec_brakeTimeEnd (hfrozen : s.blk.frozen = false) (hseq : (s.blk.mot u).seq = .brake)
    (hdue : (s.blk.mot u).since + (s.blk.mot u).brakeNs ≤ s.blk.now at_) :
    exec (.brakeTimeEnd u at_) s = .next { s with
      blk := s.blk.motorSet u at_ (fun m => { m with seq := .quiet, since := s.blk.now at_ }) } := by
  show execBrakeTimeEnd u at_ s = _
  exact next_if_pos ⟨hseq, hdue, by rw [hfrozen]; rfl⟩

theorem exec_tripBrakeEnd {t : Nat} (hbrake : (s.blk.mot u).tripBrake = some t)
    (hdue : t + (s.blk.mot u).brakeNs ≤ s.blk.now at_) :
    exec (.tripBrakeEnd u at_) s = .next { s with
      blk := s.blk.motorSet u at_ (fun m => { m with tripBrake := none }) } := by
  show execTripBrakeEnd u at_ s = _
  simp only [execTripBrakeEnd, lift, hbrake, hdue, if_true]

/-- The block with the brake of a reset over. -/
def Block.brakeOver (b : Block) : Block := { b with vig := { b.vig with brakeSince := none } }

theorem brakeOver_keeps (b : Block) : Keeps [.vigil] b b.brakeOver := by
  intro q hq
  cases q <;> simp_all [BlockPart.same, sessSame, Block.brakeOver]

theorem exec_resetBrakeEnd {t : Nat} (hbrake : s.blk.vig.brakeSince = some t) (hdue : t + 200000000 ≤ s.blk.now at_) :
    exec (.resetBrakeEnd at_) s = .next { s with blk := s.blk.brakeOver.motorsSettle at_ } := by
  show execResetBrakeEnd at_ s = _
  simp only [execResetBrakeEnd, lift, hbrake, hdue, if_true]
  rfl

theorem does_resetBrakeEnd {i : Instr} (hs : s.Sound)
    (hexec : exec i s = .next { s with blk := s.blk.brakeOver.motorsSettle at_ }) :
    Does i s [.vigil, .motors] [] (fun t => t.vig = { s.blk.vig with brakeSince := none }
      ∧ (∀ e < 16, FollowsMot (s.blk.mot e) e t) ∧ { t.eng.mot with units := s.blk.eng.mot.units } = s.blk.eng.mot) :=
  ⟨_, hexec, ((brakeOver_keeps _).mono (by simp)).trans ((motorsSettle_keeps _ _).mono (by simp)),
    KeepsWords.of_regs (motorsSettle_regs _ _), motorsSettle_vig _ _,
    fun _ he => motorsSettle_follows (b := s.blk.brakeOver) at_ he (Block.Sound.mot_length hs),
    motorsSettle_shared s.blk.brakeOver at_⟩

end Ends

/-! ### DRIVE_COMMAND at its COMMIT (R262 to R265) -/

/-- The request for a drive. -/
def Drive.request (d : Drive) (h : Hdr) (mask : BitVec 16) (duties : List (BitVec 16)) : Instr :=
  match d with
  | .run => .driveCommandRun h mask duties
  | .stop => .driveCommandStop h mask duties
  | .coast => .driveCommandCoast h mask duties
  | .brake => .driveCommandBrake h mask duties

section Drives

variable {u at_ : Nat} {b : Block} {k : Sess} {d : Drive} {h : Hdr} {mask : BitVec 16} {duties : List (BitVec 16)}

/-- Step 2 of a COMMIT for which one drive alone waits. -/
theorem stepTwo_drive (hposted : b.posted = []) (d : Drive) :
    ({ b with posted := [{ seq := 0, sess := some k, arrived := 0, act := .req (d.request h mask duties) }] }.stepTwo
      at_).2 = b.driveApply k d mask duties at_ := by
  have hempty : { b with posted := [] } = b := by rw [← hposted]
  have hintime : ∀ x : Block, x.inTime 0 = true := fun x => decide_eq_true (Nat.zero_le _)
  cases d <;>
    simp only [Block.stepTwo, Block.stagedInTime, hintime, List.filter_cons, List.filter_nil, List.foldl_cons,
      List.foldl_nil, if_true, Bool.not_true, Bool.false_eq_true, if_false, Block.applyPosted, Drive.request,
      Block.applyReq, hempty]

theorem maskUnits_twoPow (u : Fin 16) : maskUnits (BitVec.twoPow 16 u) = [u.val] := by
  revert u; decide

end Drives

section Applied

variable {u : Fin 16} {at_ : Nat} {b : Block} {k : Sess} {duties : List (BitVec 16)}

/-- What a drive does to one unit that it names. -/
def Block.drives (b : Block) (u : Nat) (d : Drive) (duties : List (BitVec 16)) (at_ : Nat) : Block :=
  match d with
  | .run => (b.modMot u fun m => { m with
      asked := if b.fld .MDRV_CFG u 3 2 = 1 then (nth duties u 0).toInt * 10000 else m.asked }).motorStart u at_
  | .stop => (b.modMot u fun m => { m with queuedStart := false }).motorStop u at_
  | .coast => b.motorCoast u at_
  | .brake => b.motorBrake u at_

/-- A drive acts on its unit in the state that its session drives (R265). -/
theorem driveApply_of_state (hstate : (b.unit (unitMot u)).state = driveState k) (d : Drive) :
    b.driveApply k d (BitVec.twoPow 16 u) duties at_ = b.drives u d duties at_ := by
  unfold Block.driveApply
  rw [maskUnits_twoPow]
  refine (if_pos hstate).trans ?_
  cases d with
  | run =>
    unfold Block.drives
    rw [← signed_toNat]
  | _ => rfl

/-- In another state it does nothing. -/
theorem driveApply_of_ne (hstate : (b.unit (unitMot u)).state ≠ driveState k) (d : Drive) :
    b.driveApply k d (BitVec.twoPow 16 u) duties at_ = b := by
  unfold Block.driveApply
  rw [maskUnits_twoPow]
  exact if_neg hstate

end Applied

/-! ### RUN, STOP, COAST and BRAKE (R262, R264) -/

section Starts

variable {u at_ : Nat} {b t : Block} {y : Motor}

/-- The unit in RUN from an instant on. -/
def Motor.runs (m : Motor) (now : Nat) : Motor := { m with seq := .run, since := now, queuedStart := false }

theorem motorStart_quiet (h : (b.mot u).seq = .quiet) : b.motorStart u at_ = b.motorRun u at_ := by
  unfold Block.motorStart
  rw [h]

theorem motorStart_running (h : (b.mot u).seq = .run) : b.motorStart u at_ = b := by
  unfold Block.motorStart
  rw [h]

/-- A start of a unit that stops is queued (R264). -/
theorem motorStart_stopping (hquiet : (b.mot u).seq ≠ .quiet) (hrun : (b.mot u).seq ≠ .run) :
    b.motorStart u at_ = b.modMot u (fun m => { m with queuedStart := true }) := by
  unfold Block.motorStart
  cases h : (b.mot u).seq with
  | quiet => exact absurd h hquiet
  | run => exact absurd h hrun
  | _ => rfl

/-- Without a loop slot as its source a unit runs as soon as its sequencer does. -/
theorem motorRun_of_src (hu : u < b.eng.mot.units.length) (hsrc : (b.mot u).src ≠ 2) :
    b.motorRun u at_ = b.motorSet u at_ (·.runs (b.now at_)) := by
  have hsrc' : ¬ ((b.modMot u (·.runs (b.now at_))).mot u).src = 2 := by
    rwa [mot_modMot_same _ hu]
  exact congrArg (fun x : Block => x.motorSettle u (fineOf (b.now at_))) (if_neg hsrc')

theorem mot_takeDuty (d : Int) (n : Nat) (hu : u < b.eng.mot.units.length) :
    ((b.takeDuty u d n).mot u).seq = (b.mot u).seq ∧ ((b.takeDuty u d n).mot u).duty = d := by
  unfold Block.takeDuty
  rw [mot_takeCompares _ _ _ (by simpa using hu), mot_modMot_same _ hu]
  exact ⟨rfl, rfl⟩

/-- A duty taken up at an instant of the present period by a unit that has just begun to run. -/
def Block.dutyAtRun (b : Block) (u : Nat) (d : Int) (t : Nat) : Block :=
  ((b.takeDuty u d (t - (b.mot u).start)).followHall u t 0).motorSettle u t

theorem mot_dutyAtRun (d : Int) (t : Nat) (hu : u < b.eng.mot.units.length) :
    ((b.dutyAtRun u d t).mot u).seq = (b.mot u).seq ∧ ((b.dutyAtRun u d t).mot u).duty = d
      ∧ KeepsRows u b.eng.mot.units (b.dutyAtRun u d t).eng.mot.units := by
  have hhide : HidesDrive (fun m => (m.seq, m.duty)) := fun _ _ _ _ _ => rfl
  have hsettled : MotorStep (fun m => (m.seq, m.duty)) u (b.takeDuty u d (t - (b.mot u).start)) (b.dutyAtRun u d t) :=
    (followHall_step hhide _ u t 0).trans (motorSettle_step hhide _ u t)
  obtain ⟨hseq, hduty⟩ := mot_takeDuty d (t - (b.mot u).start) hu
  obtain ⟨hseq', hduty'⟩ := Prod.mk.inj hsettled.mot
  exact ⟨hseq'.trans hseq, hduty'.trans hduty,
    fun j hj => (hsettled.others j hj).trans ((takeDuty_step b u d _).others j hj)⟩

/-- A unit under LOOP runs with the duty that its slot has written by then (R253, R255). -/
theorem motorRun_of_loop (hu : u < b.eng.mot.units.length) (hsrc : (b.mot u).src = 2) :
    b.motorRun u at_ = (b.modMot u (·.runs (b.now at_))).dutyAtRun u ((b.mot u).loopBy (fineOf (b.now at_)))
      (fineOf (b.now at_)) := by
  have hruns : (b.modMot u (·.runs (b.now at_))).mot u = (b.mot u).runs (b.now at_) := mot_modMot_same _ hu
  have hsrc' : ((b.modMot u (·.runs (b.now at_))).mot u).src = 2 := by
    rwa [hruns]
  have hloop : ((b.modMot u (·.runs (b.now at_))).mot u).loopBy (fineOf (b.now at_))
      = (b.mot u).loopBy (fineOf (b.now at_)) := by
    rw [hruns]
    rfl
  rw [← hloop]
  exact congrArg (fun x : Block => x.motorSettle u (fineOf (b.now at_))) (if_pos hsrc')

theorem ChangesMot.only (h : ChangesMot u b t) :
    Keeps [.motors] b t ∧ KeepsWords [] b t ∧ KeepsRows u b.eng.mot.units t.eng.mot.units :=
  ⟨h.keeps, KeepsWords.of_regs h.regs, h.others⟩

/-- A unit that is set to `y` is all that changes. -/
theorem motorSet_only_puts {f : Motor → Motor} (hu : u < b.eng.mot.units.length) (ht : t = b.motorSet u at_ f)
    (hy : f (b.mot u) = y) :
    (Keeps [.motors] b t ∧ KeepsWords [] b t ∧ KeepsRows u b.eng.mot.units t.eng.mot.units) ∧ PutsMot y u b t := by
  subst ht
  exact ⟨(motorSet_changesMot b u at_ f).only, motorSet_puts hu hy⟩

/-! A start of a unit whose duty asked for has changed -/

section

variable {f : Motor → Motor} (hu : u < b.eng.mot.units.length) (hf : (f (b.mot u)).seq = (b.mot u).seq)
  (hsrc : (f (b.mot u)).src = (b.mot u).src)
include hu hf

theorem modMot_motorStart_running (hseq : (b.mot u).seq = .run) : (b.modMot u f).motorStart u at_ = b.modMot u f :=
  motorStart_running (by rw [mot_modMot_same f hu, hf, hseq])

theorem modMot_motorStart_stopping (hquiet : (b.mot u).seq ≠ .quiet) (hrun : (b.mot u).seq ≠ .run) :
    (b.modMot u f).motorStart u at_ = b.modMot u (fun m => { f m with queuedStart := true }) := by
  rw [← hf] at hquiet hrun
  rw [motorStart_stopping (by rwa [mot_modMot_same f hu]) (by rwa [mot_modMot_same f hu]), modMot_modMot]

theorem modMot_motorStart_quiet (hseq : (b.mot u).seq = .quiet) :
    (b.modMot u f).motorStart u at_ = (b.modMot u f).motorRun u at_ :=
  motorStart_quiet (by rw [mot_modMot_same f hu, hf, hseq])

include hsrc

/-- RUN from QUIET of a unit under LOOP. -/
theorem mot_modMot_motorStart_loop (hloop : ∀ t, (f (b.mot u)).loopBy t = (b.mot u).loopBy t)
    (hseq : (b.mot u).seq = .quiet) (h2 : (b.mot u).src = 2) :
    (((b.modMot u f).motorStart u at_).mot u).seq = .run
      ∧ (((b.modMot u f).motorStart u at_).mot u).duty = (b.mot u).loopBy (fineOf (b.now at_))
      ∧ KeepsRows u b.eng.mot.units ((b.modMot u f).motorStart u at_).eng.mot.units := by
  rw [modMot_motorStart_quiet hu hf hseq, motorRun_of_loop (by simpa using hu) (by rwa [mot_modMot_same f hu, hsrc]),
    modMot_modMot, mot_modMot_same f hu, hloop]
  obtain ⟨hrun, hduty, hothers⟩ := mot_dutyAtRun (b := b.modMot u fun m => (f m).runs ((b.modMot u f).now at_))
    ((b.mot u).loopBy (fineOf (b.now at_))) (fineOf (b.now at_)) (by simpa using hu)
  rw [mot_modMot_same _ hu] at hrun
  exact ⟨hrun, hduty, fun j hj => (hothers j hj).trans ((changesMot_modMot u b _).others j hj)⟩

/-- RUN from QUIET, but for a unit under LOOP. -/
theorem modMot_motorStart_set (hseq : (b.mot u).seq = .quiet) (h2 : (b.mot u).src ≠ 2) :
    (b.modMot u f).motorStart u at_ = b.motorSet u at_ (fun m => (f m).runs (b.now at_)) := by
  rw [modMot_motorStart_quiet hu hf hseq, motorRun_of_src (by simpa using hu) (by rwa [mot_modMot_same f hu, hsrc])]
  exact modMot_motorSet f _

end

end Starts

/-- Settles O32: each end of a ramp or brake, and each drive at its COMMIT, sets the unit and settles what drives its
    outputs, or changes no more than the unit's duty asked and its queued start. -/
theorem motorRunAndStop : Obligations.MotorRunAndStop := by
  intro s u at_ hs b x now follows put becomes
  have hlen := Block.Sound.mot_length hs
  have hu : (u : Nat) < b.eng.mot.units.length := by
    rw [hlen]; exact u.isLt
  refine ⟨fun hfrozen => ⟨fun hseq hramped => does_motorSet hu (exec_rampDownDone hfrozen hseq hramped) rfl,
      fun hseq hdue => does_motorSet hu (exec_brakeTimeEnd hfrozen hseq hdue) rfl⟩,
    fun t hbrake hdue => does_motorSet hu (exec_tripBrakeEnd hbrake hdue) rfl,
    fun t hbrake hdue => does_resetBrakeEnd hs (exec_resetBrakeEnd hbrake hdue), ?_⟩
  intro k h duties hposted mask after asked only
  have hafter (d : Drive) : after (d.request h mask duties) = b.driveApply k d mask duties at_ :=
    stepTwo_drive hposted d
  refine ⟨fun hstate => ?_, fun hstate => ?_⟩
  · simp only [List.forall_mem_cons, List.not_mem_nil, false_imp_iff, implies_true, and_true]
    exact ⟨(hafter .run).trans (driveApply_of_ne hstate _), (hafter .stop).trans (driveApply_of_ne hstate _),
      (hafter .coast).trans (driveApply_of_ne hstate _), (hafter .brake).trans (driveApply_of_ne hstate _)⟩
  intro run stop coast brake
  have hdrives (d : Drive) := (hafter d).trans (driveApply_of_state hstate d)
  have hrun := hdrives .run
  have hstop := (hdrives .stop).trans (modMot_motorSet _ _)
  have hcoast := hdrives .coast
  have hbrake := hdrives .brake
  obtain ⟨stopOnly, stopPut⟩ := motorSet_only_puts hu hstop rfl
  obtain ⟨coastOnly, coastPut⟩ := motorSet_only_puts hu hcoast rfl
  obtain ⟨brakeOnly, brakePut⟩ := motorSet_only_puts hu hbrake rfl
  refine ⟨fun hseq hsrc => ?_, fun hseq hsrc => ?_, fun hseq => ?_, fun hquiet hne => ?_, stopOnly, stopPut, coastOnly,
    coastPut, brakeOnly, brakePut⟩
  · exact motorSet_only_puts hu (hrun.trans (modMot_motorStart_set hu rfl rfl hseq hsrc)) rfl
  · rw [show run = _ from hrun]
    exact mot_modMot_motorStart_loop hu rfl rfl (fun _ => rfl) hseq hsrc
  · rw [show run = _ from hrun.trans (modMot_motorStart_running hu rfl hseq)]
    exact ⟨(changesMot_modMot _ _ _).only, mot_modMot_same _ hu⟩
  · rw [show run = _ from hrun.trans (modMot_motorStart_stopping hu rfl hquiet hne)]
    exact ⟨(changesMot_modMot _ _ _).only, mot_modMot_same _ hu⟩

end Sys2Proof.Machine

/-! PROOFS. The trace (09): the requests that arm it and read it. -/

namespace Sys2Proof.Machine

open Sys2Proof (Word Byte Bytes Sess Hdr Instr)

/-! ### Requests that change the loop engine or a counter -/

theorem modLoops_keeps (b : Block) (f : Loops → Loops) : Keeps [.loops] b (b.modLoops f) := by
  intro q hq
  cases q <;> simp_all [BlockPart.same, sessSame, Block.modLoops]

@[simp] theorem fences_loop (b : Block) : b.fences.eng.loop = b.eng.loop := fences_keeps b .loops (by simp)

@[simp] theorem replyNow_loop (b : Block) (k : Option Sess) (h : Hdr) (op : BitVec 16) (st : Status)
    (payload : Bytes) : (b.replyNow k h op st payload).eng.loop = b.eng.loop :=
  replyNow_keeps b k h op st payload .loops (by simp)

section Served

variable {i : Instr} {s : State} {h : Hdr} {k : Sess} {op : OpRow} {d : Dispatch}
  (hr : rowOf i = some (h, op)) (hd : dispatchOf i = some d) (v : Served s.blk h k op)
include hr hd v

/-- A request whose dispatch changes the loop engine is answered OK. -/
theorem serves_of_modLoops {f : Loops → Loops}
    (ht : d k s.blk.link.arrivals (s.blk.now h.at_) (s.blk.taken k h)
      = ((s.blk.taken k h).modLoops f).replyNow (some k) h op.code .ok) :
    Serves i s h op.code .ok s.blk.time.count [] [.loops] [] (fun t => t.eng.loop = f s.blk.eng.loop) :=
  serves_of_dispatch hr hd v ht
    (((modLoops_keeps _ f).mono (by simp)).trans ((replyNow_keeps _ _ _ _ _ _).mono (by simp [requestParts])))
    (KeepsWords.of_regs (by simp)) (by simp) (by simp)

/-- A request whose dispatch counts in a field of NAME[0], no word of the queues, and answers. -/
theorem serves_of_count {r : Reg} {m l : Nat} {st : Status} {payload : Bytes} (hm : m < 32)
    (hpage : addr r 0 / 0x10000 ≠ 3)
    (ht : d k s.blk.link.arrivals (s.blk.now h.at_) (s.blk.taken k h)
      = ((s.blk.taken k h).count r 0 m l).replyNow (some k) h op.code st payload) :
    Serves i s h op.code st s.blk.time.count payload [] [addr r] (fun t =>
      t.fld r 0 m l = min (s.blk.fld r 0 m l + 1) (2 ^ (m + 1 - l) - 1)) := by
  refine serves_of_dispatch hr hd v ht
    (((count_keeps _ _ _ _ _ _).mono (by simp)).trans ((replyNow_keeps _ _ _ _ _ _).mono (by simp [requestParts])))
    ((count_words _ r 0 m l 1).trans (KeepsWords.of_regs (by simp))) ?_ ?_
  · simp [Block.count, Block.setFld, Block.setWord]
  · rw [fld_congr m l (word_of_regs ((fences_regs _).trans (replyNow_regs ..)) _ _ _), fld_count_same _ _ _ _ hm,
      taken_fld _ _ _ _ _ hpage]

end Served

/-! ### TRACE_ARM (R290 to R292) -/

section TraceArm

variable {i : Instr} {s : State} {h : Hdr} {k : Sess} {d : Dispatch} {seq arrived : Nat} {b : Block}
  {arm : Sys2Proof.TraceArm}

@[simp] theorem taken_traceRival (b : Block) (k k' : Sess) (h : Hdr) :
    (b.taken k h).traceRival k' = b.traceRival k' := rfl

/-- A request leaves the identity of each session as it was. -/
@[simp] theorem taken_id (b : Block) (k k' : Sess) (h : Hdr) :
    ((b.taken k h).link.sess k').id = (b.link.sess k').id := by
  cases k <;> cases k' <;> rfl

theorem dispatchTrace_free (hfree : b.traceRival k = none) :
    dispatchTrace h d k seq arrived (b.taken k h) = d k seq arrived (b.taken k h) := by
  simp only [dispatchTrace, taken_traceRival, hfree]

theorem dispatchTrace_owned {id : BitVec 16} (howned : b.traceRival k = some id) :
    dispatchTrace h d k seq arrived (b.taken k h)
      = ((b.taken k h).count .RES_CNT 0 15 0).replyNow (some k) h traceArmRow.code .resourceOwned
        (leBytes 4 (sessionOwner id).toNat) := by
  simp only [dispatchTrace, taken_traceRival, howned]

/-- While another session owns the trace a request to it is refused, and RES_CNT counts (R290, R399). -/
theorem serves_trace_owned {id : BitVec 16} (hr : rowOf i = some (h, traceArmRow))
    (hd : dispatchOf i = some (dispatchTrace h d)) (v : Served s.blk h k traceArmRow)
    (howned : s.blk.traceRival k = some id) :
    Serves i s h 0x0048 .resourceOwned s.blk.time.count (leBytes 4 (sessionOwner id).toNat) [] [addr .RES_CNT]
      (fun t => t.fld .RES_CNT 0 15 0 = min (s.blk.fld .RES_CNT 0 15 0 + 1) 65535) :=
  serves_of_count (op := traceArmRow) hr hd v (by decide) (by decide) (dispatchTrace_owned howned)

section Free

variable (v : Served s.blk h k traceArmRow) (hfree : s.blk.traceRival k = none)
include v hfree

theorem serves_traceArmRelease :
    Serves (.traceArmRelease h arm) s h 0x0048 .ok s.blk.time.count [] [.loops] []
      (fun t => t.eng.loop = { s.blk.eng.loop with trace := {} }) :=
  serves_of_modLoops (op := traceArmRow) (f := fun l => { l with trace := {} }) rfl rfl v (dispatchTrace_free hfree)

/-- What an ARM makes of the trace. -/
def Block.armedTrace (b : Block) (k : Sess) (arm : Sys2Proof.TraceArm) : Trace :=
  { state := .armed, owner := some (k, (b.link.sess k).id), cfg := arm, armedAt := b.time.count
    seen := b.word .EVT_CNT arm.source.toNat }

omit v hfree in
theorem taken_armedTrace : (s.blk.taken k h).armedTrace k arm = s.blk.armedTrace k arm := by
  have hsource := arm.source.isLt
  simp only [Block.armedTrace, taken_id]
  rw [taken_word _ _ _ (by simp [addr, desc]; omega)]
  rfl

theorem serves_traceArmArm (hrange : armBad arm = false) :
    Serves (.traceArmArm h arm) s h 0x0048 .ok s.blk.time.count [] [.loops] []
      (fun t => t.eng.loop = { s.blk.eng.loop with trace := s.blk.armedTrace k arm }) := by
  refine serves_of_modLoops (op := traceArmRow) (f := fun l => { l with trace := s.blk.armedTrace k arm }) rfl rfl v ?_
  rw [← taken_armedTrace (h := h)]
  exact (dispatchTrace_free hfree).trans (if_neg (ne_true_of_eq_false hrange))

theorem serves_traceArmForce_armed (harmed : s.blk.eng.loop.trace.state = .armed) :
    Serves (.traceArmForce h arm) s h 0x0048 .ok s.blk.time.count [] [.loops] []
      (fun t => t.eng.loop = { s.blk.eng.loop with trace := { s.blk.eng.loop.trace with forced := true } }) :=
  serves_of_modLoops (op := traceArmRow) (f := fun l => { l with trace := { l.trace with forced := true } }) rfl rfl v
    ((dispatchTrace_free hfree).trans (if_pos harmed))

theorem serves_traceArmForce_busy (hidle : s.blk.eng.loop.trace.state ≠ .armed) :
    Serves (.traceArmForce h arm) s h 0x0048 .busy s.blk.time.count [] [] [] (fun _ => True) :=
  serves_of_replyNow (op := traceArmRow) rfl rfl v ((dispatchTrace_free hfree).trans (if_neg hidle))

end Free

end TraceArm

/-! ### TRACE_READ (R293) -/

section TraceRead

variable {s : State} {h : Hdr} {k : Sess} {first : BitVec 16} {count : Byte} (v : Served s.blk h k traceReadRow)
include v

theorem serves_traceRead_done (hdone : s.blk.eng.loop.trace.state = .done) (hlow : 1 ≤ count.toNat)
    (hhigh : count.toNat ≤ 21) (hkept : first.toNat + count.toNat ≤ s.blk.eng.loop.trace.samples.length) :
    Serves (.traceRead h first count) s h 0x0049 .ok s.blk.time.count
      (s.blk.eng.loop.trace.data first.toNat count.toNat) [] [] (fun _ => True) := by
  have hrange : ¬ (count.toNat < 1 ∨ 21 < count.toNat
      ∨ s.blk.eng.loop.trace.samples.length < first.toNat + count.toNat) := by omega
  exact serves_of_replyNow (op := traceReadRow) rfl rfl v ((if_neg (not_not_intro hdone)).trans (if_neg hrange))

theorem serves_traceRead_busy (hbusy : s.blk.eng.loop.trace.state ≠ .done) :
    Serves (.traceRead h first count) s h 0x0049 .busy s.blk.time.count [] [] [] (fun _ => True) :=
  serves_of_replyNow (op := traceReadRow) rfl rfl v (if_pos hbusy)

end TraceRead

/-- Settles O34: each request, by who owns the trace and by its state, is served as its own lemma says. -/
theorem traceRequests : Obligations.TraceRequests := by
  intro s h k arm b now
  refine ⟨fun v => ⟨fun hfree => ?_, fun id howned => ?_⟩, fun v first count => ?_⟩
  · exact ⟨serves_traceArmRelease v hfree, serves_traceArmArm v hfree, serves_traceArmForce_armed v hfree,
      serves_traceArmForce_busy v hfree⟩
  · simp only [List.forall_mem_cons, List.not_mem_nil, false_imp_iff, implies_true, and_true]
    exact ⟨serves_trace_owned rfl rfl v howned, serves_trace_owned rfl rfl v howned,
      serves_trace_owned rfl rfl v howned⟩
  · exact ⟨serves_traceRead_done v, serves_traceRead_busy v⟩

end Sys2Proof.Machine

/-! PROOFS. The loop engine (09): what becomes of a slot between two of its runs. -/

namespace Sys2Proof.Machine

open Sys2Proof (Word Byte Bytes Sess Hdr Instr)

/-! ### Loop slots -/

section Slots

variable {b t : Block} {q : Nat}

theorem modSlot_keeps (b : Block) (q : Nat) (f : LoopSlot → LoopSlot) : Keeps [.loops] b (b.modSlot q f) :=
  modLoops_keeps _ _

theorem Block.Sound.slots_length {b : Block} (h : b.Sound) : b.eng.loop.slots.length = 32 := by
  have hs := h.sizes
  simp only [Engines.sizes, List.cons.injEq] at hs
  obtain ⟨-, -, -, -, -, -, -, -, -, -, -, -, -, -, -, -, -, -, hslots, -⟩ := hs
  exact hslots

theorem Block.Sound.slot_lt {b : Block} (h : b.Sound) (q : Fin 32) : (q : Nat) < b.eng.loop.slots.length :=
  h.slots_length.symm ▸ q.isLt

theorem slot_modSlot_same (f : LoopSlot → LoopSlot) (hq : q < b.eng.loop.slots.length) :
    (b.modSlot q f).slot q = f (b.slot q) := nth_modNth_same f hq

theorem slot_congr (h : t.eng.loop = b.eng.loop) (q : Nat) : t.slot q = b.slot q := by
  unfold Block.slot; rw [h]

end Slots

/-! ### The words of the loop engine and the counts of events -/

section Words

variable {a n : Nat}

/-- A word of the loop engine is no count of an event. -/
theorem loopWord_notMem (ha : a / 0x10000 = 14) (hn : n < 128) : a ∉ eventWords [n] := by
  simp only [eventWords, addr, desc, List.map_cons, List.map_nil, List.mem_cons, List.not_mem_nil, or_false]
  omega

theorem loopFlt_page (q : Fin 32) : addr .LOOP_FLT q / 0x10000 = 14 := by
  simp [addr, desc]; omega

theorem loopCnt_page (q : Fin 32) : addr .LOOP_CNT q / 0x10000 = 14 := by
  simp [addr, desc]; omega

/-- The count of one event is none that another event changes. -/
theorem evtCnt_notMem {m n : Nat} (hm : m < 128) (hmn : m ≠ n) : addr .EVT_CNT m ∉ eventWords [n] := by
  simp only [eventWords, addr, desc, List.map_cons, List.map_nil, List.mem_cons, List.not_mem_nil, or_false]
  omega

/-- An event of one slot counts one occurrence. -/
theorem raiseItems_slot_raised (b : Block) (q : Fin 32) (at_ : Nat) (hn : n < 128) :
    Raised n b (b.raiseItems n 1 0 [unitLoop q] at_) := by
  rw [raiseItems_one _ _ _ _ _ _ _ (by unfold unitLoop; omega)]
  exact raise_raised _ n _ _ at_ false hn

end Words

/-! ### A slot's unit asked FAULTED (R287) -/

/-- The block with the unit of slot `q` asked FAULTED, and event 103. -/
def Block.slotAsked (b : Block) (q at_ : Nat) (cause : Cause) : Block :=
  (b.faultUnit (unitLoop q) at_ cause).raiseItems 103 1 0 [unitLoop q] at_

section Asked

variable {b t : Block} {at_ : Nat} {cause : Cause}

theorem slotAsked_keeps (b : Block) (q at_ : Nat) (cause : Cause) :
    Keeps (.unitReqs :: .hand :: eventParts) b (b.slotAsked q at_ cause) :=
  ((faultUnit_keeps _ _ _ _).mono (by simp)).trans ((raiseItems_keeps _ _ _ _ _ _ _).mono (by simp))

theorem slotAsked_words (b : Block) (q at_ : Nat) (cause : Cause) :
    KeepsWords (eventWords [103]) b (b.slotAsked q at_ cause) :=
  (KeepsWords.of_regs (b := b.faultUnit (unitLoop q) at_ cause) rfl).trans (raiseItems_words _ _ _ _ _ _ _)

theorem slotAsked_reqs (b : Block) (q at_ : Nat) (cause : Cause) :
    (b.slotAsked q at_ cause).vig.reqs = (b.faultUnit (unitLoop q) at_ cause).vig.reqs :=
  congrArg Vigil.reqs (raiseItems_vig _ _ _ _ _ _ _)

theorem slotAsked_raised (b : Block) (q : Fin 32) (at_ : Nat) (cause : Cause) :
    Raised 103 b (b.slotAsked q at_ cause) :=
  raised_from (raiseItems_slot_raised _ q at_ (by decide)) rfl

/-- What a unit is asked depends on the instant and on the requests that wait. -/
theorem faultUnit_reqs_congr (hvig : t.vig = b.vig) (htime : t.time = b.time) (u : Nat) :
    (t.faultUnit u at_ cause).vig.reqs = (b.faultUnit u at_ cause).vig.reqs := by
  unfold Block.faultUnit Block.postUnit Block.inTime Block.stagedAt Block.now Block.reaches
  dsimp only
  rw [hvig, htime]

/-- `t` is `b` with the flag `bit` of slot `q` latched, its unit asked FAULTED, and an occurrence of event 103. -/
structure SlotFault (q : Fin 32) (bit at_ : Nat) (cause : Cause) (b t : Block) : Prop where
  keeps : Keeps (.unitReqs :: .hand :: eventParts) b t
  words : KeepsWords (addr .LOOP_FLT q :: eventWords [103]) b t
  flag : t.word .LOOP_FLT q = b.word .LOOP_FLT q ||| BitVec.twoPow 32 bit
  reqs : t.vig.reqs = (b.faultUnit (unitLoop q) at_ cause).vig.reqs
  raised : Raised 103 b t

theorem loopFault_slotFault (b : Block) (q : Fin 32) (bit at_ : Nat) (cause : Cause) :
    SlotFault q bit at_ cause b (b.loopFault q bit at_ cause) where
  keeps := ((latch_keeps b .LOOP_FLT q bit).mono (List.nil_subset _)).trans (slotAsked_keeps _ q at_ cause)
  words := ((latch_words b .LOOP_FLT q bit).mono (by simp)).trans ((slotAsked_words _ q at_ cause).mono (by simp))
  flag := by
    have hlatch := word_latch_same b .LOOP_FLT q bit
    rw [ofNat_two_pow_eq] at hlatch
    exact (slotAsked_words _ q at_ cause _ (loopWord_notMem (loopFlt_page q) (by decide)) _).trans hlatch
  reqs := slotAsked_reqs (b.latch .LOOP_FLT q bit) q at_ cause
  raised := (slotAsked_raised _ q at_ cause).of_word
    (latch_words b _ _ bit _ (evtCnt_of_notMem (loopWord_notMem (loopFlt_page q) (by decide))) _)

end Asked

/-! ### ECC_UNCORRECTABLE of a slot (R21, R287) -/

section Ecc

variable {s : State} {q : Fin 32}

theorem exec_eccUncorrectable_slot (hp : s.blk.powered = true) :
    exec (.eccUncorrectable (.loopState [q])) s = .next { s with blk := s.blk.loopFault q 2 0 .ecc } := by
  show execEccUncorrectable (.loopState [q]) s = _
  simp [execEccUncorrectable, lift, hp, Block.loopEcc]

end Ecc

/-! ### FOLLOW_ERR (R286) -/

/-- The block with FERR of slot `q` latched, and event 104. -/
def Block.followLost (b : Block) (q at_ : Nat) : Block :=
  (b.latch .LOOP_FLT q 0).raiseItems 104 1 0 [unitLoop q] at_

section Follow

variable {s : State} {b : Block} {q : Fin 32} {at_ : Nat}

theorem followLost_keeps (b : Block) (q at_ : Nat) : Keeps eventParts b (b.followLost q at_) :=
  ((latch_keeps _ _ _ _).mono (List.nil_subset _)).trans (raiseItems_keeps _ _ _ _ _ _ _)

theorem followLost_words (b : Block) (q at_ : Nat) :
    KeepsWords (addr .LOOP_FLT q :: eventWords [104]) b (b.followLost q at_) :=
  ((latch_words _ _ _ _).mono (by simp)).trans ((raiseItems_words _ _ _ _ _ _ _).mono (by simp))

theorem followLost_flag (b : Block) (q : Fin 32) (at_ : Nat) :
    (b.followLost q at_).word .LOOP_FLT q = b.word .LOOP_FLT q ||| 1#32 :=
  (raiseItems_word _ _ _ _ _ _ _ _ _ _ (loopWord_notMem (loopFlt_page q) (by decide))).trans
    (word_latch_same b .LOOP_FLT q 0)

theorem followLost_raised (b : Block) (q : Fin 32) (at_ : Nat) : Raised 104 b (b.followLost q at_) :=
  (raiseItems_slot_raised _ q at_ (by decide)).of_word
    (latch_words b _ _ 0 _ (evtCnt_of_notMem (loopWord_notMem (loopFlt_page q) (by decide))) _)

section

variable (hon : s.blk.flag .LOOP_FERR_CFG q 0 = true) (hruns : s.blk.slotRuns q = true)
  (hflag : s.blk.flag .LOOP_FLT q 0 = false) (hdue : s.blk.fld .LOOP_FERR_CFG q 12 2 * 10 ≤ (s.blk.slot q).ferr)
include hon hruns hflag hdue

theorem exec_followErr :
    exec (.followErr q at_) s = .next { s with
      blk := if s.blk.flag .LOOP_FERR_CFG q 1 then (s.blk.followLost q at_).slotAsked q at_ .latchedFault
        else s.blk.followLost q at_ } := by
  show execFollowErr q at_ s = _
  exact next_if_pos ⟨hon, hruns, by rw [hflag]; rfl, hdue⟩

/-- FOLLOW_ERR without its action. -/
theorem does_followErr (hact : s.blk.flag .LOOP_FERR_CFG q 1 = false) :
    Does (.followErr q at_) s eventParts (addr .LOOP_FLT q :: eventWords [104]) (fun t =>
      t.word .LOOP_FLT q = s.blk.word .LOOP_FLT q ||| 1#32 ∧ Raised 104 s.blk t) := by
  have hexec := exec_followErr (at_ := at_) hon hruns hflag hdue
  rw [hact] at hexec
  exact ⟨_, hexec, followLost_keeps _ _ _, followLost_words _ _ _, followLost_flag _ _ _, followLost_raised _ _ _⟩

/-- FOLLOW_ERR with its action: the unit is asked FAULTED besides. -/
theorem does_followErr_faults (hact : s.blk.flag .LOOP_FERR_CFG q 1 = true) :
    Does (.followErr q at_) s (.unitReqs :: .hand :: eventParts) (addr .LOOP_FLT q :: eventWords [103, 104]) (fun t =>
      t.word .LOOP_FLT q = s.blk.word .LOOP_FLT q ||| 1#32 ∧ Raised 104 s.blk t ∧ Raised 103 s.blk t
        ∧ t.vig.reqs = (s.blk.faultUnit (unitLoop q) at_).vig.reqs) := by
  have hexec := exec_followErr (at_ := at_) hon hruns hflag hdue
  rw [hact] at hexec
  have hlost := followLost_words s.blk q at_
  have hasked := slotAsked_words (s.blk.followLost q at_) q at_ .latchedFault
  have h103 : addr .EVT_CNT 103 ∉ addr .LOOP_FLT q :: eventWords [104] := by
    simp [eventWords, addr, desc]; omega
  refine ⟨_, hexec, ?_, ?_, ?_, ?_, ?_, ?_⟩
  · exact ((followLost_keeps _ _ _).mono (by simp)).trans (slotAsked_keeps _ _ _ _)
  · exact (hlost.mono (by simp [eventWords])).trans (hasked.mono (by simp [eventWords]))
  · exact (hasked _ (loopWord_notMem (loopFlt_page q) (by decide)) _).trans (followLost_flag _ _ _)
  · exact (hasked _ (evtCnt_notMem (by decide) (by decide)) _).trans (followLost_raised _ _ _)
  · exact (slotAsked_raised _ q _ _).of_word (hlost _ h103 _)
  · exact (slotAsked_reqs _ _ _ _).trans
      (faultUnit_reqs_congr (raiseItems_vig _ _ _ _ _ _ _) (raiseItems_time _ _ _ _ _ _ _) _)

end

end Follow

/-! ### OBSERVER_TIMEOUT (R285) -/

/-- What going into LOST leaves of a slot. -/
def LoopSlot.losing (x : LoopSlot) (now : Nat) : LoopSlot :=
  { x with fb := .lost, resRuns := 0, backRuns := 0, obsSince := now }

/-- The block with slot `q` gone into LOST, OBSMAX latched and the change of mode counted. -/
def Block.slotLosing (b : Block) (q at_ : Nat) : Block :=
  ((b.latch .LOOP_FLT q 3).modSlot q (fun x => x.losing (b.now at_))).count .LOOP_CNT q 31 24

/-- The block with slot `q` gone into LOST, and event 105, not yet what LOSS_ACT asks. -/
def Block.slotLost (b : Block) (q at_ : Nat) : Block := (b.slotLosing q at_).raiseItems 105 1 0 [unitLoop q] at_

/-- In `t` slot `q` of `b` has gone into LOST at the instant `at_`, whatever LOSS_ACT asks besides. -/
def SlotLost (q : Fin 32) (at_ : Nat) (b t : Block) : Prop :=
  (t.slot q).fb = .lost ∧ (t.slot q).obsSince = b.now at_ ∧ t.flag .LOOP_FLT q 3 = true ∧ Raised 105 b t
    ∧ t.fld .LOOP_CNT q 31 24 = min (b.fld .LOOP_CNT q 31 24 + 1) 255
    ∧ KeepsRows q.val b.eng.loop.slots t.eng.loop.slots

/-- A slot with its output set to 0. -/
def LoopSlot.cleared (x : LoopSlot) : LoopSlot := { x with uPrev := x.u, u := 0 }

/-- The block with the output of slot `q` set to 0, and written. -/
def Block.slotCleared (b : Block) (q at_ : Nat) : Block := (b.modSlot q LoopSlot.cleared).loopWrite q 0 at_

/-- The words that a duty written to the PWM units changes. -/
def loopDutyWords : List Nat :=
  (List.range 16).map (fun u => addr .MDRV_CNT0 u) ++ (List.range 16).map (fun u => addr .MDRV_CNT1 u)
    ++ (List.range 16).map (fun u => addr .MDRV_COMM_CNT u)

section Outputs

variable {a : Nat}

/-- The words of the PWM units are on a page of their own. -/
theorem loopDutyWords_page (ha : a ∈ loopDutyWords) : a / 0x10000 = 13 := by
  simp only [loopDutyWords, List.mem_append, List.mem_map, List.mem_range, addr, desc] at ha
  obtain (⟨u, hu, rfl⟩ | ⟨u, hu, rfl⟩) | ⟨u, hu, rfl⟩ := ha <;> omega

theorem motorCounts_subset {u : Nat} (hu : u < 16) : motorCounts u ⊆ loopDutyWords ++ eventWords [99] := by
  have hmem (r : Reg) : addr r u ∈ (List.range 16).map (fun v => addr r v) :=
    List.mem_map_of_mem (List.mem_range.mpr hu)
  intro a ha
  simp only [motorCounts, loopDutyWords, List.mem_append, List.mem_cons, List.not_mem_nil, or_false] at ha ⊢
  rcases ha with (rfl | rfl | rfl) | ha
  · exact .inl (.inl (.inl (hmem _)))
  · exact .inl (.inl (.inr (hmem _)))
  · exact .inl (.inr (hmem _))
  · exact .inr ha

theorem motorLoop_keeps (b : Block) (q : Nat) (d : Int) (at_ : Nat) :
    Keeps (.motors :: eventParts) b (b.motorLoop q d at_) := by
  refine keeps_foldl _ _ _ _ fun b u => ?_
  split
  · exact (loopDuty_step b u d _).keeps
  · exact Keeps.refl _ _

theorem motorLoop_words (b : Block) (q : Nat) (d : Int) (at_ : Nat) :
    KeepsWords (loopDutyWords ++ eventWords [99]) b (b.motorLoop q d at_) := by
  intro a ha v
  refine foldl_leaves (fun t => fileGet t.regs a v) _ _ _ fun b u hu => ?_
  split
  · exact (loopDuty_step b u d _).words _ (fun hm => ha (motorCounts_subset (List.mem_range.mp hu) hm)) _
  · rfl

/-- A channel that follows its source changes the valve drive alone. -/
theorem propFollow_modValve (b : Block) (k at_ : Nat) : ∃ g, b.propFollow k at_ = b.modValve g := by
  have hsame : ∃ g, b = b.modValve g := ⟨id, rfl⟩
  have hprop (f : Prop_ → Prop_) : ∃ g, b.modProp k f = b.modValve g := ⟨_, rfl⟩
  have hite {c : Prop} [Decidable c] {x y : Block} (hx : ∃ g, x = b.modValve g) (hy : ∃ g, y = b.modValve g) :
      ∃ g, (if c then x else y) = b.modValve g := by
    split <;> assumption
  unfold Block.propFollow
  dsimp only
  split
  · exact hite (hprop _) (hite (hprop _) (hprop _))
  · exact hite (hprop _) (hprop _)
  · exact hite (hprop _) (hite hsame (hprop _))
  · exact hite (hprop _) (hite hsame (hprop _))
  · exact hprop _

theorem propLoop_keeps (b : Block) (q v at_ : Nat) : Keeps [.valve] b (b.propLoop q v at_) := by
  refine keeps_foldl _ _ _ _ fun b k => ?_
  split
  · obtain ⟨g, hg⟩ := propFollow_modValve (b.modProp k (fun x => { x with loop := v })) k at_
    rw [hg]
    exact (modValve_keeps b _).trans (modValve_keeps _ g)
  · exact Keeps.refl _ _

theorem propLoop_regs (b : Block) (q v at_ : Nat) : (b.propLoop q v at_).regs = b.regs := by
  refine foldl_regs _ _ _ fun b k => ?_
  split
  · obtain ⟨g, hg⟩ := propFollow_modValve (b.modProp k (fun x => { x with loop := v })) k at_
    rw [hg]
    rfl
  · rfl

theorem loopWrite_keeps (b : Block) (q : Nat) (u : Word) (at_ : Nat) :
    Keeps (.motors :: .valve :: eventParts) b (b.loopWrite q u at_) :=
  ((motorLoop_keeps _ _ _ _).mono (by simp)).trans ((propLoop_keeps _ _ _ _).mono (by simp))

theorem loopWrite_words (b : Block) (q : Nat) (u : Word) (at_ : Nat) :
    KeepsWords (loopDutyWords ++ eventWords [99]) b (b.loopWrite q u at_) :=
  (motorLoop_words _ _ _ _).trans (KeepsWords.of_regs (propLoop_regs _ _ _ _))

theorem loopWrite_loop (b : Block) (q : Nat) (u : Word) (at_ : Nat) : (b.loopWrite q u at_).eng.loop = b.eng.loop :=
  loopWrite_keeps b q u at_ .loops (by simp [eventParts])

end Outputs

section Timeout

variable {s : State} {b t t' : Block} {q : Fin 32} {at_ : Nat}

theorem exec_observerTimeout (hfb : (s.blk.slot q).fb = .observer) (hruns : s.blk.slotRuns q = true)
    (hdue : (s.blk.slot q).obsSince + s.blk.fld .LOOP_OBS_USE q 31 24 * 100000000 ≤ s.blk.now at_) :
    exec (.observerTimeout q at_) s = .next { s with blk := (s.blk.slotLost q at_).lossAct q at_ } := by
  show execObserverTimeout q at_ s = _
  exact next_if_pos ⟨hfb, hruns, hdue⟩

/-! What LOSS_ACT asks -/

theorem lossAct_hold (hact : b.fld .LOOP_CFG q 6 5 = 0 ∨ b.fld .LOOP_CFG q 6 5 = 3) : b.lossAct q at_ = b := by
  unfold Block.lossAct
  rcases hact with hact | hact <;> rw [hact] <;> rfl

theorem lossAct_clear (hact : b.fld .LOOP_CFG q 6 5 = 1) :
    b.lossAct q at_ = if (b.slot q).u = 0 then b
      else b.slotCleared q at_ := by
  unfold Block.lossAct
  rw [hact]
  rfl

theorem lossAct_fault (hact : b.fld .LOOP_CFG q 6 5 = 2) (hflag : b.flag .LOOP_FLT q 1 = false) :
    b.lossAct q at_ = b.loopFault q 1 at_ := by
  unfold Block.lossAct
  rw [hact]
  exact if_neg (ne_true_of_eq_false hflag)

/-! The slot in LOST -/

theorem slotLosing_keeps (b : Block) (q at_ : Nat) : Keeps [.loops] b (b.slotLosing q at_) :=
  ((latch_keeps b _ _ _).mono (List.nil_subset _)).trans ((modSlot_keeps (b.latch .LOOP_FLT q 3) q _).trans
    ((count_keeps _ _ _ _ _ _).mono (List.nil_subset _)))

theorem slotLosing_words (b : Block) (q at_ : Nat) :
    KeepsWords [addr .LOOP_FLT q, addr .LOOP_CNT q] b (b.slotLosing q at_) := by
  have hslot : KeepsWords [addr .LOOP_FLT q] b
      ((b.latch .LOOP_FLT q 3).modSlot q (fun x => x.losing (b.now at_))) :=
    (latch_words b .LOOP_FLT q 3).trans (KeepsWords.of_regs rfl)
  exact (hslot.mono (by simp)).trans ((count_words _ .LOOP_CNT q 31 24 1).mono (by simp))

theorem slotLost_keeps (b : Block) (q at_ : Nat) : Keeps (.loops :: eventParts) b (b.slotLost q at_) :=
  ((slotLosing_keeps _ _ _).mono (by simp)).trans ((raiseItems_keeps _ _ _ _ _ _ _).mono (by simp))

theorem slotLost_words (b : Block) (q at_ : Nat) :
    KeepsWords ([addr .LOOP_FLT q, addr .LOOP_CNT q] ++ eventWords [105]) b (b.slotLost q at_) :=
  ((slotLosing_words _ _ _).mono (List.subset_append_left _ _)).trans
    ((raiseItems_words _ _ _ _ _ _ _).mono (List.subset_append_right _ _))

theorem slotLost_loop (b : Block) (q at_ : Nat) : (b.slotLost q at_).eng.loop
    = { b.eng.loop with slots := modNth b.eng.loop.slots q (fun x => x.losing (b.now at_)) } :=
  congrArg Engines.loop (raiseItems_eng (b.slotLosing q at_) _ _ _ _ _ _)

theorem slot_slotLost (b : Block) (at_ : Nat) (hq : q < b.eng.loop.slots.length) :
    (b.slotLost q at_).slot q = (b.slot q).losing (b.now at_) := by
  rw [slot_congr (b := b.modSlot q (fun x => x.losing (b.now at_))) (slotLost_loop b q at_), slot_modSlot_same _ hq]

/-- Going into LOST leaves the settings of the slot, LOSS_ACT among them. -/
theorem slotLost_cfg (b : Block) (q : Fin 32) (at_ m l : Nat) :
    (b.slotLost q at_).fld .LOOP_CFG q m l = b.fld .LOOP_CFG q m l := by
  refine fld_congr m l (slotLost_words b q at_ _ ?_ _)
  simp [eventWords, addr, desc]; omega

theorem slotLost_flt (b : Block) (q : Fin 32) (at_ : Nat) :
    (b.slotLost q at_).word .LOOP_FLT q = b.word .LOOP_FLT q ||| BitVec.twoPow 32 3 := by
  have hcnt : addr .LOOP_FLT q ≠ addr .LOOP_CNT q := by simp [addr, desc]
  rw [Block.slotLost, raiseItems_word _ _ _ _ _ _ _ _ _ _ (loopWord_notMem (loopFlt_page q) (by decide)),
    Block.slotLosing, Block.count, Block.setFld, word_setWord_ne _ _ _ _ _ _ _ _ hcnt, modSlot_word, word_latch_same,
    ofNat_two_pow_eq]

theorem slotLost_flag (b : Block) (q : Fin 32) (at_ n : Nat) :
    (b.slotLost q at_).flag .LOOP_FLT q n = (b.flag .LOOP_FLT q n || (BitVec.twoPow 32 3).getLsbD n) := by
  rw [Block.flag, slotLost_flt, BitVec.getLsbD_or]
  rfl

theorem slotLost_counted (b : Block) (q : Fin 32) (at_ : Nat) :
    (b.slotLost q at_).fld .LOOP_CNT q 31 24 = min (b.fld .LOOP_CNT q 31 24 + 1) 255 := by
  have hlatch : (b.latch .LOOP_FLT q 3).word .LOOP_CNT q = b.word .LOOP_CNT q :=
    word_setWord_ne _ _ _ _ _ _ _ _ (by simp [addr, desc])
  have hcnt := loopWord_notMem (n := 105) (loopCnt_page q) (by decide)
  have hraised : (b.slotLost q at_).fld .LOOP_CNT q 31 24 = (b.slotLosing q at_).fld .LOOP_CNT q 31 24 :=
    fld_congr 31 24 (raiseItems_word _ _ _ _ _ _ _ _ _ _ hcnt)
  have hcounted : (b.slotLosing q at_).fld .LOOP_CNT q 31 24
      = min ((b.latch .LOOP_FLT q 3).fld .LOOP_CNT q 31 24 + 1) 255 :=
    fld_count_same _ _ _ 1 (by decide)
  rw [hraised, hcounted, fld_congr 31 24 hlatch]

theorem slotLost_raised (b : Block) (q : Fin 32) (at_ : Nat) : Raised 105 b (b.slotLost q at_) := by
  refine (raiseItems_slot_raised _ q at_ (by decide)).of_word (slotLosing_words b q at_ _ ?_ _)
  simp [addr, desc]; omega

theorem slotLost_slotLost (at_ : Nat) (hq : q < b.eng.loop.slots.length) : SlotLost q at_ b (b.slotLost q at_) := by
  refine ⟨?_, ?_, ?_, slotLost_raised b q at_, slotLost_counted b q at_, ?_⟩
  · rw [slot_slotLost b at_ hq]; rfl
  · rw [slot_slotLost b at_ hq]; rfl
  · rw [slotLost_flag]; simp
  · rw [slotLost_loop]; exact keepsRows_modNth _ _ _

/-- What comes after keeps a slot in LOST. -/
theorem SlotLost.later (h : SlotLost q at_ b t) (hfb : (t'.slot q).fb = (t.slot q).fb)
    (hsince : (t'.slot q).obsSince = (t.slot q).obsSince)
    (hflag : t.flag .LOOP_FLT q 3 = true → t'.flag .LOOP_FLT q 3 = true)
    (hevent : t'.word .EVT_CNT 105 = t.word .EVT_CNT 105) (hcount : t'.word .LOOP_CNT q = t.word .LOOP_CNT q)
    (hothers : KeepsRows q.val t.eng.loop.slots t'.eng.loop.slots) : SlotLost q at_ b t' := by
  obtain ⟨fb, since, flag, raised, counted, others⟩ := h
  exact ⟨hfb.trans fb, hsince.trans since, hflag flag, hevent.trans raised, (fld_congr _ _ hcount).trans counted,
    fun j hj => (hothers j hj).trans (others j hj)⟩

/-! LOSS_ACT 1: the output is set to 0 -/

theorem slotCleared_keeps (b : Block) (q at_ : Nat) :
    Keeps ([.loops, .motors, .valve] ++ eventParts) b (b.slotCleared q at_) :=
  ((modSlot_keeps _ _ _).mono (by simp)).trans ((loopWrite_keeps _ _ _ _).mono (by simp))

theorem slotCleared_words (b : Block) (q at_ : Nat) :
    KeepsWords (loopDutyWords ++ eventWords [99]) b (b.slotCleared q at_) :=
  (KeepsWords.of_regs (modSlot_regs ..)).trans (loopWrite_words _ _ _ _)

theorem slotCleared_loop (b : Block) (q at_ : Nat) : (b.slotCleared q at_).eng.loop
    = { b.eng.loop with slots := modNth b.eng.loop.slots q LoopSlot.cleared } :=
  loopWrite_loop _ _ _ _

theorem slot_slotCleared (at_ : Nat) (hq : q < b.eng.loop.slots.length) :
    (b.slotCleared q at_).slot q = (b.slot q).cleared := by
  rw [slot_congr (b := b.modSlot q LoopSlot.cleared) (slotCleared_loop b q at_), slot_modSlot_same _ hq]

theorem SlotLost.cleared (h : SlotLost q at_ b t) (hq : q < t.eng.loop.slots.length) :
    SlotLost q at_ b (t.slotCleared q at_) := by
  have hwords := slotCleared_words t q at_
  have hslot := slot_slotCleared (b := t) at_ hq
  have hmem {a : Nat} (hpage : a / 0x10000 ≠ 13) (hevent : a ∉ eventWords [99]) :
      a ∉ loopDutyWords ++ eventWords [99] := by
    rw [List.mem_append, not_or]
    exact ⟨fun ha => hpage (loopDutyWords_page ha), hevent⟩
  have hflt : (t.slotCleared q at_).word .LOOP_FLT q = t.word .LOOP_FLT q :=
    hwords _ (hmem (by rw [loopFlt_page]; decide) (loopWord_notMem (loopFlt_page q) (by decide))) _
  refine h.later (by rw [hslot]; rfl) (by rw [hslot]; rfl) (fun hflag => ?_) ?_ ?_ ?_
  · rwa [Block.flag, hflt]
  · exact hwords _ (hmem (by decide) (evtCnt_notMem (by decide) (by decide))) _
  · exact hwords _ (hmem (by rw [loopCnt_page]; decide) (loopWord_notMem (loopCnt_page q) (by decide))) _
  · rw [slotCleared_loop]; exact keepsRows_modNth _ _ _

/-! LOSS_ACT 2: the unit is asked FAULTED -/

theorem SlotLost.faulted {bit : Nat} {cause : Cause} (h : SlotLost q at_ b t)
    (hfault : SlotFault q bit at_ cause t t') : SlotLost q at_ b t' := by
  have hloop : t'.eng.loop = t.eng.loop := hfault.keeps .loops (by simp [eventParts])
  have hslot := slot_congr hloop q
  refine h.later (by rw [hslot]) (by rw [hslot]) (fun hflag => ?_) ?_ ?_ ?_
  · rw [Block.flag, hfault.flag, BitVec.getLsbD_or, Bool.or_eq_true]
    exact .inl hflag
  · refine hfault.words _ ?_ _
    simp [eventWords, addr, desc]; omega
  · refine hfault.words _ ?_ _
    simp [eventWords, addr, desc]; omega
  · rw [hloop]; exact fun _ _ => rfl

/-! OBSERVER_TIMEOUT by what LOSS_ACT asks -/

section

variable (hs : s.Sound) (hfb : (s.blk.slot q).fb = .observer) (hruns : s.blk.slotRuns q = true)
  (hdue : (s.blk.slot q).obsSince + s.blk.fld .LOOP_OBS_USE q 31 24 * 100000000 ≤ s.blk.now at_)
include hs hfb hruns hdue

theorem does_observerTimeout_hold (hact : s.blk.fld .LOOP_CFG q 6 5 = 0 ∨ s.blk.fld .LOOP_CFG q 6 5 = 3) :
    Does (.observerTimeout q at_) s (.loops :: eventParts) ([addr .LOOP_FLT q, addr .LOOP_CNT q] ++ eventWords [105])
      (fun t => SlotLost q at_ s.blk t ∧ (t.slot q).u = (s.blk.slot q).u) := by
  have hq := Block.Sound.slot_lt hs q
  rw [← slotLost_cfg s.blk q at_] at hact
  refine ⟨_, (exec_observerTimeout hfb hruns hdue).trans (by rw [lossAct_hold hact]), slotLost_keeps _ _ _,
    slotLost_words _ _ _, slotLost_slotLost at_ hq, ?_⟩
  rw [slot_slotLost _ _ hq]
  rfl

theorem does_observerTimeout_clear (hact : s.blk.fld .LOOP_CFG q 6 5 = 1) :
    Does (.observerTimeout q at_) s ([BlockPart.loops, BlockPart.motors, BlockPart.valve] ++ eventParts)
      ([addr .LOOP_FLT q, addr .LOOP_CNT q] ++ loopDutyWords ++ eventWords [99, 105])
      (fun t => SlotLost q at_ s.blk t ∧ (t.slot q).u = 0
        ∧ ((s.blk.slot q).u ≠ 0 → (t.slot q).uPrev = (s.blk.slot q).u)) := by
  have hq := Block.Sound.slot_lt hs q
  rw [← slotLost_cfg s.blk q at_] at hact
  have hexec := exec_observerTimeout hfb hruns hdue
  rw [lossAct_clear hact] at hexec
  have hkeeps : Keeps ([.loops, .motors, .valve] ++ eventParts) s.blk (s.blk.slotLost q at_) :=
    (slotLost_keeps s.blk q at_).mono (by simp [eventParts])
  have hwords : KeepsWords ([addr .LOOP_FLT q, addr .LOOP_CNT q] ++ loopDutyWords ++ eventWords [99, 105]) s.blk
      (s.blk.slotLost q at_) := (slotLost_words s.blk q at_).mono (by simp [eventWords])
  have hlost := slotLost_slotLost (b := s.blk) at_ hq
  have hslot : (s.blk.slotLost q at_).slot q = (s.blk.slot q).losing (s.blk.now at_) := slot_slotLost _ _ hq
  by_cases hu : (s.blk.slot q).u = 0
  · rw [if_pos (by rw [hslot]; exact hu)] at hexec
    exact ⟨_, hexec, hkeeps, hwords, hlost, by rw [hslot]; exact hu, fun hne => absurd hu hne⟩
  · rw [if_neg (by rw [hslot]; exact hu)] at hexec
    have hq' : (q : Nat) < (s.blk.slotLost q at_).eng.loop.slots.length := by simpa [slotLost_loop] using hq
    have hcleared := slot_slotCleared at_ hq'
    rw [hslot] at hcleared
    refine ⟨_, hexec, hkeeps.trans (slotCleared_keeps _ _ _), hwords.trans ((slotCleared_words _ _ _).mono ?_),
      hlost.cleared hq', by rw [hcleared]; rfl, fun _ => by rw [hcleared]; rfl⟩
    refine List.append_subset.mpr ⟨fun a ha => ?_, by simp [eventWords]⟩
    exact List.mem_append_left _ (List.mem_append_right _ ha)

theorem does_observerTimeout_fault (hact : s.blk.fld .LOOP_CFG q 6 5 = 2) (hflag : s.blk.flag .LOOP_FLT q 1 = false) :
    Does (.observerTimeout q at_) s ([BlockPart.loops, BlockPart.unitReqs, BlockPart.hand] ++ eventParts)
      ([addr .LOOP_FLT q, addr .LOOP_CNT q] ++ eventWords [103, 105])
      (fun t => SlotLost q at_ s.blk t ∧ t.vig.reqs = (s.blk.faultUnit (unitLoop q) at_).vig.reqs
        ∧ Raised 103 s.blk t) := by
  have hq := Block.Sound.slot_lt hs q
  rw [← slotLost_cfg s.blk q at_] at hact
  have hnot : (s.blk.slotLost q at_).flag .LOOP_FLT q 1 = false := by
    rw [slotLost_flag, hflag]; rfl
  have hexec := exec_observerTimeout hfb hruns hdue
  rw [lossAct_fault hact hnot] at hexec
  have hfault := loopFault_slotFault (s.blk.slotLost q at_) q 1 at_ .latchedFault
  have hwords := slotLost_words s.blk q at_
  refine ⟨_, hexec, ?_, ?_, (slotLost_slotLost at_ hq).faulted hfault, ?_, ?_⟩
  · exact ((slotLost_keeps s.blk q at_).mono (by simp [eventParts])).trans (hfault.keeps.mono (by simp))
  · exact (hwords.mono (by simp [eventWords])).trans (hfault.words.mono (by simp [eventWords]))
  · exact hfault.reqs.trans
      (faultUnit_reqs_congr (raiseItems_vig _ _ _ _ _ _ _) (raiseItems_time _ _ _ _ _ _ _) _)
  · refine hfault.raised.of_word (hwords _ ?_ _)
    simp [eventWords, addr, desc]; omega

end

end Timeout

/-! ### OBSERVER_PREDICT (R284) and LOOP_OVERRUN (R276) -/

section PredictAndOverrun

variable {s : State} {q : Fin 32} {at_ : Nat}

/-- A change of the loop engine by a command. -/
theorem does_modLoops {i : Instr} {f : Loops → Loops} (hexec : exec i s = .next { s with blk := s.blk.modLoops f }) :
    Does i s [.loops] [] (fun t => t.eng.loop = f s.blk.eng.loop) :=
  ⟨_, hexec, modLoops_keeps _ _, KeepsWords.of_regs rfl, rfl⟩

/-- The state of an observer after its prediction: A x + B [u1, u2], the unused part 0. -/
def Block.predicted (b : Block) (q : Nat) : List Word :=
  let n := b.fld .LOOP_OBS_MODEL q 2 0
  let u1 := (b.slot (b.fld .LOOP_OBS_MODEL q 7 3)).u
  let u2 := if b.fld .LOOP_OBS_MODEL q 9 8 = 1 then fofRat b.vpwrMv 1000 else 0
  (List.range n).map (fun row =>
    fadd (fdot (b.coefRow q (6 * row) n) ((b.slot q).x.take n))
      (fadd (fmul (b.word .LOOP_COEF q (36 + 2 * row)) u1) (fmul (b.word .LOOP_COEF q (37 + 2 * row)) u2)))
    ++ List.replicate (6 - n) 0

theorem exec_observerPredict (hdue : (s.blk.slot q).predictDue = true) :
    exec (.observerPredict q) s = .next { s with
      blk := s.blk.modSlot q (fun x => { x with x := s.blk.predicted q, predictDue := false }) } := by
  show execObserverPredict q s = _
  simp only [execObserverPredict, lift, hdue, Bool.not_true, Bool.false_eq_true, if_false]
  rfl

/-- The block with the overrun of a cut phase counted, before its event. -/
def Block.overrunCounted (b : Block) : Block := (b.modLoops (fun l => { l with cut := false })).count .LOOP_OVR 0 15 0

theorem exec_loopOverrun (hcut : s.blk.eng.loop.cut = true) :
    exec (.loopOverrun at_) s = .next { s with
      blk := s.blk.overrunCounted.raiseLimited 102 1 (payB 0 96 (s.blk.eng.loop.cutSlots.map unitLoop)) at_ } := by
  show execLoopOverrun at_ s = _
  exact next_if_pos hcut

theorem overrunCounted_keeps (b : Block) : Keeps [.loops] b b.overrunCounted :=
  (modLoops_keeps b _).trans ((count_keeps _ .LOOP_OVR 0 15 0 1).mono (List.nil_subset _))

theorem overrunCounted_words (b : Block) : KeepsWords [addr .LOOP_OVR] b b.overrunCounted :=
  (KeepsWords.of_regs (modLoops_regs ..)).trans (count_words _ .LOOP_OVR 0 15 0 1)

theorem does_loopOverrun (hcut : s.blk.eng.loop.cut = true) :
    Does (.loopOverrun at_) s (.loops :: eventParts) (addr .LOOP_OVR :: eventWords [102]) (fun t =>
      t.eng.loop = { s.blk.eng.loop with cut := false }
        ∧ t.fld .LOOP_OVR 0 15 0 = min (s.blk.fld .LOOP_OVR 0 15 0 + 1) 65535
        ∧ (s.blk.evt.quiet 102 (s.blk.now at_) = false → Raised 102 s.blk t)) := by
  have hovr : addr .LOOP_OVR ∉ eventWords [102] := loopWord_notMem (by decide) (by decide)
  have hwords := overrunCounted_words s.blk
  refine ⟨_, exec_loopOverrun hcut, ?_, ?_, ?_, ?_, fun hquiet => ?_⟩
  · exact ((overrunCounted_keeps s.blk).mono (by simp)).trans ((raiseLimited_keeps _ _ _ _ _).mono (by simp))
  · exact (hwords.mono (by simp)).trans ((raiseLimited_words _ _ _ _ _).mono (by simp))
  · exact congrArg Engines.loop (raiseLimited_eng ..)
  · exact (fld_congr 15 0 (raiseLimited_word _ _ _ _ _ _ _ _ hovr)).trans (fld_count_same _ _ _ _ (by decide))
  · exact (raiseLimited_raised (b := s.blk.overrunCounted) _ _ (by decide) hquiet).of_word
      (hwords _ (evtCnt_of_notMem hovr) _)

end PredictAndOverrun

/-- Settles O33: each command, where its condition holds, does to the slot what its own lemma says. -/
theorem loopSlotsBetweenRuns : Obligations.LoopSlotsBetweenRuns := by
  intro s q at_ hs b x others
  refine ⟨fun hdue => does_modLoops (exec_observerPredict hdue), fun hfb hruns hdue => ?_,
    fun hon hruns hflag hdue => ?_, fun hpowered => ?_, fun hcut => does_loopOverrun hcut⟩
  · exact ⟨does_observerTimeout_hold hs hfb hruns hdue, does_observerTimeout_clear hs hfb hruns hdue,
      does_observerTimeout_fault hs hfb hruns hdue⟩
  · exact ⟨does_followErr hon hruns hflag hdue, does_followErr_faults hon hruns hflag hdue⟩
  · have e := loopFault_slotFault s.blk q 2 0 .ecc
    exact ⟨_, exec_eccUncorrectable_slot hpowered, e.keeps, e.words, e.flag, e.raised, e.reqs⟩

end Sys2Proof.Machine

/-! PROOFS. The power arbiter (10) and the load switches (11): starts admitted, waiting, abandoned, and what was shed
    restored. -/

namespace Sys2Proof.Machine

open Sys2Proof (Word Byte Bytes Sess Hdr Instr)

/-! ### Fields of one word -/

/-- A field that is set leaves the fields beside it as they were. -/
theorem bits_setBits_disjoint (w : Word) {m l m' l' : Nat} (v : Nat) (h : m < l' ∨ m' < l) :
    bits (setBits w m l v) m' l' = bits w m' l' := by
  refine Nat.eq_of_testBit_eq fun i => ?_
  simp only [bits, bitsOf, setBits, Nat.testBit_mod_two_pow, Nat.testBit_div_two_pow, BitVec.testBit_toNat,
    BitVec.getLsbD_or, BitVec.getLsbD_and, BitVec.getLsbD_not, BitVec.getLsbD_shiftLeft, BitVec.getLsbD_ofNat,
    Nat.testBit_two_pow_sub_one]
  by_cases hi : i < m' + 1 - l'
  · by_cases h32 : i + l' < 32
    · have hout : ¬ i + l' < l → ¬ i + l' - l < m + 1 - l := by omega
      by_cases hl : i + l' < l
      · simp [hl, h32]
      · simp [hl, h32, hout hl]
    · simp [BitVec.getLsbD_of_ge _ _ (Nat.le_of_not_lt h32), h32]
  · simp [hi]

/-- A counter leaves the fields beside it as they were. -/
theorem fld_count_disjoint (b : Block) (r : Reg) (i n : Nat) {m l m' l' : Nat} (h : m < l' ∨ m' < l) :
    (b.count r i m l n).fld r i m' l' = b.fld r i m' l' := by
  unfold Block.count Block.setFld
  rw [Block.fld, word_setWord_same, bits_setBits_disjoint _ _ h]
  rfl

/-- An event of one unit counts one occurrence. -/
theorem raiseItems_unit_raised (b : Block) {n u : Nat} (c : Byte) (k at_ : Nat) (hn : n < 128) (hu : u < 288) :
    Raised n b (b.raiseItems n c k [u] at_) := by
  rw [raiseItems_one _ _ _ _ _ _ _ hu]
  exact raise_raised _ n _ _ at_ false hn

/-! ### Changes of the arbiter and of one load switch -/

section Changes

variable {b : Block} {k : Nat}

theorem modPwr_keeps (b : Block) (f : Power → Power) : Keeps [.power] b (b.modPwr f) := by
  intro q hq
  cases q <;> simp_all [BlockPart.same, sessSame, Block.modPwr]

theorem modSw_keeps (b : Block) (k : Nat) (f : Lsw → Lsw) : Keeps [.lsw] b (b.modSw k f) := by
  intro q hq
  cases q <;> simp_all [BlockPart.same, sessSame, Block.modSw]

theorem Block.Sound.lsw_length (h : b.Sound) : b.eng.lsw.length = 16 := by
  have hs := h.sizes
  simp only [Engines.sizes, List.cons.injEq] at hs
  exact hs.1

/-- A command that changes the arbiter alone. -/
theorem does_modPwr {i : Instr} {s : State} {f : Power → Power} {q : Power}
    (hexec : exec i s = .next { s with blk := s.blk.modPwr f }) (hq : f s.blk.eng.pwr = q) :
    Does i s [.power] [] (fun t => t.eng.pwr = q) :=
  ⟨_, hexec, modPwr_keeps _ _, KeepsWords.of_regs rfl, hq⟩

theorem lswCnt_notMem (hk : k < 16) (n : Nat) (hn : n < 128) : addr .LSW_CNT k ∉ eventWords [n] := by
  simp only [eventWords, addr, desc, List.map_cons, List.map_nil, List.mem_cons, List.not_mem_nil, or_false]
  omega

theorem pwrbDenied_notMem (n : Nat) (hn : n < 128) : addr .PWRB_DENIED ∉ eventWords [n] := by
  simp only [eventWords, addr, desc, List.map_cons, List.map_nil, List.mem_cons, List.not_mem_nil, or_false]
  omega

end Changes

/-! ### A start that the arbiter has admitted (R321, R324, R326) -/

/-- The inrush window is configured, and the pair sensor cuts it at the start (R326). -/
def Block.cutsWindow (b : Block) (k : Nat) : Bool := b.fld .LSW_LIMIT k 22 14 != 0 && b.pairHot k

/-- The switch as a start leaves it (R321, R324). -/
def Block.startSw (b : Block) (k at_ : Nat) (x : Lsw) : Lsw :=
  let duty := { x with set := b.lswWords k }.dutyNow b.eng.pwr.latch.vpwr
  { x with
    seq := if b.hasWindow k then .inrush else .on
    limitMa := if b.hasWindow k then b.lswIrLim k else b.lswIlim k
    set := b.lswWords k, period := (b.lswWords k).period (b.devNow at_), d := duty, dPrev := duty
    cut := b.cutsWindow k, queued := false, want := false, retry := false, since := b.now at_ }

/-- The block with the switch started and the start counted, before a cut of its window is (R326). -/
def Block.startCounted (b : Block) (k at_ : Nat) : Block :=
  let b1 := (b.modSw k (b.startSw k at_)).count .LSW_CNT k 15 0
  if (b.sw k).retry then b1.count .LSW_CNT k 23 16 else b1

/-- `t` shows switch `k` of `b` started at `at_`, and the other switches as they were. -/
structure StartsSw (k at_ : Nat) (b t : Block) : Prop where
  others : KeepsRows k b.eng.lsw t.eng.lsw
  sw : t.sw k = b.startSw k at_ (b.sw k)
  counted : t.fld .LSW_CNT k 15 0 = min (b.fld .LSW_CNT k 15 0 + 1) 65535
  cut : b.cutsWindow k = true →
    t.fld .LSW_CNT k 31 24 = min (b.fld .LSW_CNT k 31 24 + 1) 255 ∧ Raised 83 b t

section Starts

variable {b t : Block} {k at_ : Nat}

theorem lswStart_eq (b : Block) (k at_ : Nat) :
    b.lswStart k at_ = if b.cutsWindow k then
      ((b.startCounted k at_).count .LSW_CNT k 31 24).raiseItems 83 1 0 [unitLsw k] at_
    else b.startCounted k at_ := rfl

theorem startCounted_eng (b : Block) (k at_ : Nat) :
    (b.startCounted k at_).eng = (b.modSw k (b.startSw k at_)).eng := by
  unfold Block.startCounted
  dsimp only
  split <;> rfl

theorem startCounted_keeps (b : Block) (k at_ : Nat) : Keeps [.lsw] b (b.startCounted k at_) := by
  have hstart := (modSw_keeps b k (b.startSw k at_)).trans
    ((count_keeps _ .LSW_CNT k 15 0 1).mono (List.nil_subset _))
  unfold Block.startCounted
  dsimp only
  split
  · exact hstart.trans ((count_keeps _ _ _ _ _ _).mono (List.nil_subset _))
  · exact hstart

theorem startCounted_words (b : Block) (k at_ : Nat) : KeepsWords [addr .LSW_CNT k] b (b.startCounted k at_) := by
  have hstart : KeepsWords [addr .LSW_CNT k] b ((b.modSw k (b.startSw k at_)).count .LSW_CNT k 15 0) :=
    (KeepsWords.of_regs rfl).trans (count_words (b.modSw k (b.startSw k at_)) .LSW_CNT k 15 0 1)
  unfold Block.startCounted
  dsimp only
  split
  · exact hstart.trans (count_words _ _ _ _ _ _)
  · exact hstart

theorem startCounted_counted (b : Block) (k at_ : Nat) :
    (b.startCounted k at_).fld .LSW_CNT k 15 0 = min (b.fld .LSW_CNT k 15 0 + 1) 65535 := by
  have hstart : ((b.modSw k (b.startSw k at_)).count .LSW_CNT k 15 0).fld .LSW_CNT k 15 0
      = min (b.fld .LSW_CNT k 15 0 + 1) 65535 := fld_count_same _ _ _ _ (by decide)
  unfold Block.startCounted
  dsimp only
  split
  · rw [fld_count_disjoint _ _ _ _ (by decide), hstart]
  · exact hstart

/-- The count of cut windows is not yet changed. -/
theorem startCounted_cuts (b : Block) (k at_ : Nat) :
    (b.startCounted k at_).fld .LSW_CNT k 31 24 = b.fld .LSW_CNT k 31 24 := by
  have hstart : ((b.modSw k (b.startSw k at_)).count .LSW_CNT k 15 0).fld .LSW_CNT k 31 24
      = b.fld .LSW_CNT k 31 24 := fld_count_disjoint _ _ _ _ (by decide)
  unfold Block.startCounted
  dsimp only
  split
  · rw [fld_count_disjoint _ _ _ _ (by decide), hstart]
  · exact hstart

theorem lswStart_eng (b : Block) (k at_ : Nat) :
    (b.lswStart k at_).eng = (b.modSw k (b.startSw k at_)).eng := by
  rw [lswStart_eq]
  split
  · rw [raiseItems_eng, count_eng, startCounted_eng]
  · exact startCounted_eng b k at_

theorem lswStart_keeps (b : Block) (k at_ : Nat) : Keeps (.lsw :: eventParts) b (b.lswStart k at_) := by
  rw [lswStart_eq]
  have hstart := (startCounted_keeps b k at_).mono (m := .lsw :: eventParts) (by simp)
  split
  · exact hstart.trans (((count_keeps _ _ _ _ _ _).mono (List.nil_subset _)).trans
      ((raiseItems_keeps _ _ _ _ _ _ _).mono (by simp)))
  · exact hstart

theorem lswStart_words (b : Block) (k at_ : Nat) :
    KeepsWords (addr .LSW_CNT k :: eventWords [83]) b (b.lswStart k at_) := by
  rw [lswStart_eq]
  have hstart := (startCounted_words b k at_).mono (m := addr .LSW_CNT k :: eventWords [83]) (by simp)
  split
  · exact hstart.trans (((count_words _ _ _ _ _ _).mono (by simp)).trans
      ((raiseItems_words _ _ _ _ _ _ _).mono (by simp)))
  · exact hstart

theorem lswStart_startsSw (hk : k < 16) (hlen : b.eng.lsw.length = 16) : StartsSw k at_ b (b.lswStart k at_) := by
  have hcnt : addr .LSW_CNT k ∉ eventWords [83] := lswCnt_notMem hk 83 (by decide)
  have hraise (x : Block) (m l : Nat) : (x.raiseItems 83 1 0 [unitLsw k] at_).fld .LSW_CNT k m l
      = x.fld .LSW_CNT k m l := fld_congr m l (raiseItems_word _ _ _ _ _ _ _ _ _ _ hcnt)
  refine ⟨?_, ?_, ?_, fun hcut => ?_⟩
  · rw [lswStart_eng]
    exact keepsRows_modNth _ _ _
  · rw [Block.sw, lswStart_eng]
    exact nth_modNth_same _ (hlen ▸ hk)
  · rw [lswStart_eq]
    split
    · rw [hraise, fld_count_disjoint _ _ _ _ (by decide), startCounted_counted]
    · exact startCounted_counted b k at_
  · rw [lswStart_eq, if_pos hcut, hraise, fld_count_same _ _ _ _ (by decide), startCounted_cuts]
    refine ⟨rfl, (raiseItems_unit_raised _ 1 0 at_ (by decide) (by unfold unitLsw; omega)).of_word ?_⟩
    exact ((startCounted_words b k at_).trans (count_words _ _ _ _ _ _)) _ (evtCnt_of_notMem hcnt) _

/-- What the arbiter does besides leaves the switch started. -/
theorem StartsSw.modPwr (h : StartsSw k at_ b t) (f : Power → Power) : StartsSw k at_ b (t.modPwr f) :=
  ⟨h.others, h.sw, h.counted, h.cut⟩

theorem startSw_window (hw : b.hasWindow k = true) (x : Lsw) :
    b.startSw k at_ x = { x with
      seq := .inrush, limitMa := b.lswIrLim k, cut := false, queued := false, want := false, retry := false
      set := b.lswWords k, period := (b.lswWords k).period (b.devNow at_)
      d := { x with set := b.lswWords k }.dutyNow b.eng.pwr.latch.vpwr
      dPrev := { x with set := b.lswWords k }.dutyNow b.eng.pwr.latch.vpwr, since := b.now at_ } := by
  have hcold : b.pairHot k = false := by simpa using (Bool.and_eq_true_iff.mp hw).2
  simp [Block.startSw, hw, Block.cutsWindow, hcold]

theorem cutsWindow_of_noWindow (hw : b.hasWindow k = false) :
    b.cutsWindow k = decide (b.fld .LSW_LIMIT k 22 14 ≠ 0) := by
  unfold Block.hasWindow at hw
  unfold Block.cutsWindow
  by_cases h0 : b.fld .LSW_LIMIT k 22 14 = 0
  · simp [h0]
  · simpa [h0] using hw

theorem startSw_noWindow (hw : b.hasWindow k = false) (x : Lsw) :
    b.startSw k at_ x = { x with
      seq := .on, limitMa := b.lswIlim k, cut := decide (b.fld .LSW_LIMIT k 22 14 ≠ 0), queued := false
      want := false, retry := false, set := b.lswWords k, period := (b.lswWords k).period (b.devNow at_)
      d := { x with set := b.lswWords k }.dutyNow b.eng.pwr.latch.vpwr
      dPrev := { x with set := b.lswWords k }.dutyNow b.eng.pwr.latch.vpwr, since := b.now at_ } := by
  simp [Block.startSw, hw, cutsWindow_of_noWindow hw]

end Starts

/-! ### A start that is abandoned (R302) -/

section Abandons

variable {b : Block} {k at_ : Nat}

/-- The block with the wait for the start ended and its bit in PWRB_DENIED set, before the event. -/
def Block.startDenied (b : Block) (k : Nat) : Block :=
  ((b.modSw k (fun x => { x with want := false, retry := false })).modPwr (fun p => { p with
    waits := p.waits.filter (fun w => w.sw != k) })).latch .PWRB_DENIED 0 k

theorem lswAbandon_eq (b : Block) (k at_ : Nat) :
    b.lswAbandon k at_ = (b.startDenied k).raiseItems 2 1 0 [unitLsw k] at_ := rfl

theorem startDenied_keeps (b : Block) (k : Nat) : Keeps [.lsw, .power] b (b.startDenied k) :=
  ((modSw_keeps _ _ _).mono (by simp)).trans (((modPwr_keeps _ _).mono (by simp)).trans
    ((latch_keeps _ _ _ _).mono (List.nil_subset _)))

theorem startDenied_words (b : Block) (k : Nat) : KeepsWords [addr .PWRB_DENIED] b (b.startDenied k) :=
  KeepsWords.trans (KeepsWords.of_regs rfl) (latch_words _ _ _ _)

theorem startDenied_flag (b : Block) (hk : k < 32) : (b.startDenied k).flag .PWRB_DENIED 0 k = true := by
  unfold Block.flag Block.startDenied
  rw [word_latch_same, ofNat_two_pow_eq]
  simp [hk]

/-- A command that abandons the start of a switch. -/
theorem does_lswAbandon {i : Instr} {s : State} (hk : k < 16)
    (hexec : exec i s = .next { s with blk := s.blk.lswAbandon k at_ }) :
    Does i s (.lsw :: .power :: eventParts) (addr .PWRB_DENIED :: eventWords [2]) (fun t =>
      t.eng.lsw = modNth s.blk.eng.lsw k (fun x => { x with want := false, retry := false })
        ∧ t.eng.pwr = { s.blk.eng.pwr with waits := s.blk.eng.pwr.waits.filter (fun w => w.sw != k) }
        ∧ t.flag .PWRB_DENIED 0 k = true ∧ Raised 2 s.blk t) := by
  have hdenied := pwrbDenied_notMem 2 (by decide)
  refine ⟨_, hexec, ?_, ?_, ?_, ?_, ?_, ?_⟩
  · exact ((startDenied_keeps _ _).mono (by simp)).trans ((raiseItems_keeps _ _ _ _ _ _ _).mono (by simp))
  · exact ((startDenied_words _ _).mono (by simp)).trans ((raiseItems_words _ _ _ _ _ _ _).mono (by simp))
  · exact congrArg Engines.lsw (raiseItems_eng (s.blk.startDenied k) ..)
  · exact congrArg Engines.pwr (raiseItems_eng (s.blk.startDenied k) ..)
  · rw [lswAbandon_eq, Block.flag, raiseItems_word _ _ _ _ _ _ _ _ _ _ hdenied]
    exact startDenied_flag s.blk (by omega)
  · rw [lswAbandon_eq]
    exact (raiseItems_unit_raised _ 1 0 at_ (by decide) (by unfold unitLsw; omega)).of_word
      (startDenied_words s.blk k _ (evtCnt_of_notMem hdenied) _)

end Abandons

/-! ### LOAD_START_REQUEST and GRANT_WAIT_TIMEOUT (R301, R302) -/

section Requests

variable {b : Block} {k at_ : Nat} (hready : b.lswReady k = true)
  (hidle : b.eng.pwr.waits.any (fun w => w.sw == k) = false)
include hready hidle

/-- A switch that is ready and does not wait yet starts where its charge fits, else is abandoned or waits by WAIT. -/
theorem lswAdmit_of_ready :
    b.lswAdmit k at_ = if ((b.startCharge k * 1000 : Nat) : Int) ≤ b.eng.pwr.allowance then
        (b.lswStart k at_).modPwr (fun p => { p with allowance := p.allowance - (b.startCharge k * 1000 : Nat) })
      else if b.fld .PWRB_GRANT 0 31 16 = 0 then b.lswAbandon k at_
      else b.modPwr (fun p => { p with waits := p.waits ++ [{ sw := k, since := b.now at_ }] }) := by
  unfold Block.lswAdmit
  rw [if_neg (by simp [hready, hidle])]

end Requests

theorem exec_loadStartRequest (s : State) (k : Fin 16) (at_ : Nat) :
    exec (.loadStartRequest k at_) s = .next { s with blk := s.blk.lswAdmit k at_ } := rfl

theorem exec_grantWaitTimeout {s : State} {k : Fin 16} {at_ : Nat} {w : LoadWait} (hw : w ∈ s.blk.eng.pwr.waits) (hsw : w.sw = k.val)
    (hlong : s.blk.fld .PWRB_GRANT 0 31 16 * 1000000 < s.blk.now at_ - w.since) :
    exec (.grantWaitTimeout k at_) s = .next { s with blk := s.blk.lswAbandon k at_ } := by
  show execGrantWaitTimeout k at_ s = _
  refine next_if_pos (List.any_eq_true.mpr ⟨w, hw, ?_⟩)
  simp [hsw, hlong]

/-! ### Restores in step 4 of a COMMIT (R301, R304) -/

section Restores

variable {b : Block} {limit : Int} {a : Arb}

/-- The arbiter's state once the start or the restore of a switch has been served. -/
def Power.served (p : Power) (k : Nat) : Power :=
  { p with waits := p.waits.filter (fun w => w.sw != k), shed := p.shed.filter (fun x => x.sw != k) }

/-- A due restore of a shed switch that is ready is a start, where the headroom is there. -/
theorem serve_restore {k at_ : Nat} (hdue : ∃ y ∈ b.eng.pwr.shed, y.sw = k ∧ y.due = true)
    (hquiet : (b.sw k).seq = .quiet) (hon : (b.sw k).asksOn = true) (hruns : b.runs (unitLsw k) = true)
    (hvpwr : b.vpwrPresent = true)
    (hfits : a.total + (b.startCharge k * 1000 : Nat) + b.hyst ≤ limit) :
    Block.serve limit at_ (a, b) k
      = Block.admitStart k at_ { a with restored := a.restored ++ [unitLsw k] } b := by
  obtain ⟨y, hy, hsw, hydue⟩ := hdue
  have hshed : b.isShed k = true := List.any_eq_true.mpr ⟨y, hy, by simp [hsw]⟩
  have hasks : b.eng.pwr.shed.any (fun x => x.sw == k && x.due) = true :=
    List.any_eq_true.mpr ⟨y, hy, by simp [hsw, hydue]⟩
  simp only [Block.serve, hshed, if_true, Block.serveRestore, hasks, hquiet, hon, hruns, hvpwr, beq_self_eq_true,
    Bool.and_self, decide_eq_true hfits]

theorem serveCap_of_due (hcap : b.eng.pwr.cap = true) (hdue : b.eng.pwr.capDue = true)
    (hfits : b.bareTotal a.total + b.hyst ≤ limit) :
    Block.serveCap limit (a, b) = ({ a with total := b.bareTotal a.total, restored := a.restored ++ b.bridgeUnits },
      b.modPwr (fun p => { p with cap := false, capSince := none, capDue := false })) := by
  simp [Block.serveCap, hcap, hdue, hfits]

end Restores

/-- Settles O35: a request by the allowance and by WAIT, a restore by its headroom; each start is the start that
    `lswStart_startsSw` shows. -/
theorem loadStartsAndRestores : Obligations.LoadStartsAndRestores := by
  intro s k at_ hs b x p now c others set duty elapsed started abandons
  have hk := k.isLt
  have hstarted {t : Block} (h : StartsSw k at_ b t) : started t := by
    refine ⟨h.others, h.counted, fun hw => ?_, fun hw => ⟨?_, fun hcut => ?_⟩⟩
    · exact h.sw.trans (startSw_window hw x)
    · exact h.sw.trans (startSw_noWindow hw x)
    · exact h.cut ((cutsWindow_of_noWindow hw).trans hcut)
  have hstart : StartsSw k at_ b (b.lswStart k at_) := lswStart_startsSw hk hs.lsw_length
  have hpwr : (b.lswStart k at_).eng.pwr = p :=
    (congrArg Engines.pwr (lswStart_eng b k at_)).trans rfl
  refine ⟨fun hready hidle => ⟨fun hfits => ?_, fun hmore hwait => ?_, fun hmore hwait => ?_⟩,
    fun w hw hsw hlong => does_lswAbandon hk (exec_grantWaitTimeout hw hsw hlong), does_modPwr rfl rfl,
    does_modPwr rfl rfl, fun limit a hdue hquiet hon hruns hvpwr hfits => ?_, fun limit a hcap hdue hfits => ?_⟩
  · refine ⟨_, (exec_loadStartRequest s k at_).trans (by rw [lswAdmit_of_ready hready hidle, if_pos hfits]), ?_, ?_,
      hstarted (hstart.modPwr _), ?_⟩
    · exact ((lswStart_keeps b k at_).mono (by simp)).trans ((modPwr_keeps _ _).mono (by simp))
    · exact (lswStart_words b k at_).trans (KeepsWords.of_regs rfl)
    · exact congrArg (fun q : Power => { q with allowance := q.allowance - c }) hpwr
  · exact does_lswAbandon hk ((exec_loadStartRequest s k at_).trans
      (by rw [lswAdmit_of_ready hready hidle, if_neg (Int.not_le.mpr hmore), if_pos hwait]))
  · exact does_modPwr ((exec_loadStartRequest s k at_).trans
      (by rw [lswAdmit_of_ready hready hidle, if_neg (Int.not_le.mpr hmore), if_neg hwait])) rfl
  · rw [serve_restore hdue hquiet hon hruns hvpwr hfits]
    exact ⟨hstarted (hstart.modPwr (·.served k)), rfl, rfl, congrArg (·.served k) hpwr⟩
  · rw [serveCap_of_due hcap hdue hfits]
    exact ⟨rfl, rfl, rfl⟩

end Sys2Proof.Machine

/-! PROOFS. Statements about power states (10) and registers (13) that the model refutes: an orderly entry to HOLD with
    a fill under way, a start from DORMANT whose migration fails, a register write with a fence of the other session
    due. -/

namespace Sys2Proof.Machine

open Sys2Proof (Word Byte Bytes Sess Hdr Instr)

/-! ### The event of a fill that an orderly entry ends comes after the Diary is written (R160, R314) -/

/-- A V96-F in DOZE whose target is HOLD, with a fill under way in frame 0, in which events of source 56 are recorded in
    the Diary. -/
def fillingInDoze : Block :=
  { regs := [(addr .EVT_CFG 56, 0x21)]
    vig := { units := resetUnits .f, starting := false }
    eng := { pwr := { state := .doze, target := .hold, holdSince := some 0 }
             map := { frames := { state := .filling } :: List.replicate 127 {} } } }

/-- An instant at which the dwell of HOLD has elapsed in `fillingInDoze`. -/
def holdDwelt : Nat := 255 * 100000000

theorem fillingInDoze_sound : State.Sound { blk := fillingInDoze } := by
  unfold State.Sound Block.Sound
  decide +kernel

/-- The dwell has elapsed, and nothing keeps the Diary from writing what waits. -/
theorem fillingInDoze_dwelt :
    0 + fillingInDoze.fld .DEV_PCTRL 0 23 16 * 100000000 ≤ fillingInDoze.now holdDwelt
    ∧ fillingInDoze.flag .DIARY_CFG 0 0 = false ∧ fillingInDoze.diary.failed = false
    ∧ fillingInDoze.diary.fifo.length ≤ 4096 ∧ fillingInDoze.diary.staging.length < stagingSlots := by
  decide +kernel

/-- The entry to HOLD ends the fill after the Diary's records are written, and the record of its event 56 waits. -/
theorem fillingInDoze_powerDown_waits : (fillingInDoze.powerDown .hold holdDwelt).diary.fifo.length = 1 := by
  decide +kernel

/-- A command answers one next state. -/
theorem blk_eq_of_exec {i : Instr} {s : State} {x t : Block} (hx : exec i s = .next { s with blk := x })
    (ht : exec i s = .next { s with blk := t }) : x = t := by
  rw [hx] at ht
  injection ht with ht
  injection ht

theorem exec_holdDwellExpiry {b : Block} {at_ t0 : Nat} (hshallow : b.eng.pwr.state.code ≤ 2)
    (htarget : 3 ≤ b.eng.pwr.target.code) (hsince : b.eng.pwr.holdSince = some t0)
    (hdue : t0 + b.fld .DEV_PCTRL 0 23 16 * 100000000 ≤ b.now at_) :
    exec (.holdDwellExpiry at_) { blk := b } = .next { blk := b.powerDown .hold at_ } := by
  show execHoldDwellExpiry at_ { blk := b } = _
  exact next_if_pos ⟨hshallow, htarget, by simp [Block.dwelt, hsince, hdue]⟩

theorem fillingInDoze_enters : ∃ t : Block,
    exec (.holdDwellExpiry holdDwelt) { blk := fillingInDoze } = .next { blk := t } ∧ t.diary.fifo.length = 1 :=
  ⟨fillingInDoze.powerDown .hold holdDwelt,
    exec_holdDwellExpiry (by decide) (by decide) rfl fillingInDoze_dwelt.1, fillingInDoze_powerDown_waits⟩

/-- Refutes O36: not every waiting record of the Diary is written. In the state `fillingInDoze` HOLD_DWELL_EXPIRY
    writes the Diary first and ends the fill then, so that the record of event 56 still waits in the intake. -/
theorem not_powerStatesGoDownAndUp : ¬ Obligations.PowerStatesGoDownAndUp := by
  intro h
  obtain ⟨hdue, hwritable⟩ := fillingInDoze_dwelt
  obtain ⟨-, hhold, -⟩ := h { blk := fillingInDoze } holdDwelt fillingInDoze_sound
  obtain ⟨t, ht, -, -, -, -, hwritten, -⟩ := hhold 0 rfl hdue (by decide) (by decide)
  obtain ⟨x, hx, hwaits⟩ := fillingInDoze_enters
  rw [blk_eq_of_exec hx ht, hwritten hwritable] at hwaits
  exact absurd hwaits (by decide)

/-! ### A migration that fails names its cause in every unit (R471) -/

/-- A V96-F in DORMANT with its real-time clock running. The winning boot record is a trial of slot A, whose previous
    settings store B holds no valid copy: there is nothing to migrate. -/
def trialInDormant : Block :=
  { vig := { units := resetUnits .f, starting := false }
    time := { rtc := { running := true } }
    eng := { pwr := { state := .dormant } }
    upd := { rec0 := { valid := true, trial := true, prevSlot := some true, prevStore := some true } } }

theorem trialInDormant_sound : State.Sound { blk := trialInDormant } := by
  unfold State.Sound Block.Sound
  decide +kernel

/-- The block after a start from DORMANT by KEY. -/
def Block.keyStart (b : Block) (offNs : Nat) : Block :=
  (b.modSup (fun s => { s with key := true })).dormantStart 1 offNs

theorem exec_dormantWake_key {s : State} {offNs : Nat} (hdormant : s.blk.powered = false)
    (hpower : s.blk.sup.holdUp = false) :
    exec (.dormantWake .key offNs) s = .next { s with blk := s.blk.keyStart offNs } := by
  show execDormantWake .key offNs s = _
  simp [execDormantWake, lift, hdormant, hpower, Block.keyStart]

/-- After the start the unit at index 0 shows the failed migration as its cause. -/
theorem trialInDormant_start_cause :
    ((trialInDormant.keyStart 0).vig.units.head?.map (·.cause)) = some .migration := by
  decide +kernel

theorem resetUnits_cause : ((resetUnits .f).head?.map (·.cause)) ≠ some .migration := by decide +kernel

/-- Refutes O37: not every start from DORMANT leaves the units with DEVICE_RESET. In the state `trialInDormant` the
    migration of the trial fails for want of a source, and the units show that as their cause (R471). -/
theorem not_wakesFromDormant : ¬ Obligations.WakesFromDormant := by
  intro h
  obtain ⟨hstarts, -⟩ := h { blk := trialInDormant } 0 trialInDormant_sound
  obtain ⟨⟨t, ht, hrestarted, -⟩, -⟩ := hstarts rfl rfl rfl
  have hstate := blk_eq_of_exec (exec_dormantWake_key (by decide) rfl) ht
  have hcause := trialInDormant_start_cause
  rw [hstate, hrestarted.units] at hcause
  exact resetUnits_cause hcause

/-! ### A write of DEV_ALARM_LO completes a fence of the other session (R356) -/

/-- A write of DEV_ALARM_LO by MAIN leaves SERVICE with the reply to its fence. -/
theorem fenceDue_alarmWrite_replies :
    (dispatchWriteOf mainWriteHdr (addr .DEV_ALARM_LO) 0 .main fenceDue.link.arrivals
        (fenceDue.now mainWriteHdr.at_) (fenceDue.taken .main mainWriteHdr)).fences.link.service.replies.length = 1 := by
  decide +kernel

/-- Refutes O52: the other session does not stay as it was. A write of DEV_ALARM_LO by MAIN in the state `fenceDue`
    completes the fence of SERVICE, whose kept replies then hold one more. -/
theorem not_registersThatCommand : ¬ Obligations.RegistersThatCommand := by
  intro h
  obtain ⟨⟨t, ht, -, -, -, -, -, hother⟩, -⟩ := h { blk := fenceDue } mainWriteHdr .main 0 fenceDue_served_write
    (by decide +kernel)
  have hstate := blk_eq_of_exec (exec_served _ _ _ _ _ _ rfl rfl fenceDue_served_write) ht
  have hsame : t.link.service = fenceDue.link.service := hother
  have hafter := fenceDue_alarmWrite_replies
  obtain ⟨hbefore, -⟩ := fenceDue_read_replies
  rw [hstate, hsame, hbefore] at hafter
  exact absurd hafter (by decide)

end Sys2Proof.Machine

/-! PROOFS. The supply inputs (17): present and lost, over 40 A, KEY, their switches and precharge. -/

namespace Sys2Proof.Machine

open Sys2Proof (Word Byte Bytes Sess Hdr Instr VpwrInput)

/-! ### Units that have settled (R252, R489) -/

/-- The newest entry of what drives each PWM unit's outputs is what drives them now. -/
def Settled (b : Block) : Prop :=
  ∀ u < 16, u < b.eng.mot.units.length → (b.mot u).steps.head?.map (·.drive) = some (b.motorDrive u)

/-- `t` shows the PWM units as `b` does, but for how their outputs came to be driven as they are. -/
def LikeMots (b t : Block) : Prop :=
  { t.eng.mot with units := b.eng.mot.units } = b.eng.mot ∧ ∀ u, LikeMot (b.mot u) u t

section Settled

variable {b t x : Block} {at_ : Nat}

theorem motorsSettle_time (b : Block) (at_ : Nat) : (b.motorsSettle at_).time = b.time :=
  foldl_leaves Block.time _ _ _ fun _ _ _ => rfl

theorem motorsSettle_sup (b : Block) (at_ : Nat) : (b.motorsSettle at_).sup = b.sup :=
  foldl_leaves Block.sup _ _ _ fun _ _ _ => rfl

/-- Without a change of VPWR, of the units or of Vigil, what drives a unit is the same. -/
theorem motorDrive_of_stagesOn (hmot : t.eng.mot = b.eng.mot) (hvig : t.vig = b.vig) (hstages : t.stagesOn = b.stagesOn)
    (u : Nat) : t.motorDrive u = b.motorDrive u := by
  unfold Block.motorDrive
  rw [mot_congr hmot, hvig, hstages]

theorem Settled.congr (h : Settled b) (hmot : t.eng.mot = b.eng.mot) (hvig : t.vig = b.vig)
    (hstages : t.stagesOn = b.stagesOn) : Settled t := by
  intro u hu hlen
  rw [mot_congr hmot, motorDrive_of_stagesOn hmot hvig hstages]
  exact h u hu (hmot ▸ hlen)

theorem motorsSettle_settled (b : Block) (at_ : Nat) : Settled (b.motorsSettle at_) := by
  intro u hu hlen
  have hunits : u < b.eng.mot.units.length := by
    rwa [Block.motorsSettle, foldl_leaves (fun x => x.eng.mot.units.length) _ _ _
      fun y v _ => (motorSettle_changesMot y v _).length] at hlen
  exact (foldl_motorSettle_follows (y := b.mot u) (List.range 16) (fun acc => fineOf (acc.now at_)) hunits rfl
    (.inl (List.mem_range.mpr hu))).2

/-- A unit that follows what drives it settles to itself. -/
theorem motorSettle_of_follows {u : Nat} (n : Nat) (h : (b.mot u).steps.head?.map (·.drive) = some (b.motorDrive u)) :
    b.motorSettle u n = b := by
  have hunits (f : Motor → Motor) (hf : f (b.mot u) = b.mot u) : b.modMot u f = b :=
    congrArg (fun l => b.modMots fun m => { m with units := l })
      ((modNth_congr (g := id) hf).trans (List.modify_id u b.eng.mot.units))
  refine hunits _ ?_
  cases hsteps : (b.mot u).steps with
  | nil => simp [hsteps] at h
  | cons d rest =>
    rw [hsteps] at h
    exact if_pos (Option.some.inj h)

theorem Settled.motorsSettle (h : Settled b) (at_ : Nat) : b.motorsSettle at_ = b := by
  have hone (u : Nat) (hu : u < 16) (n : Nat) : b.motorSettle u n = b := by
    by_cases hlen : u < b.eng.mot.units.length
    · exact motorSettle_of_follows n (h u hu hlen)
    · exact congrArg (fun l => b.modMots fun m => { m with units := l })
        (List.modify_eq_self (Nat.le_of_not_lt hlen))
  have hfold (l : List Nat) (hl : ∀ u ∈ l, u < 16) :
      l.foldl (fun acc u => acc.motorSettle u (fineOf (acc.now at_))) b = b := by
    induction l with
    | nil => rfl
    | cons u l ih =>
      rw [List.foldl_cons, hone u (hl u List.mem_cons_self)]
      exact ih fun v hv => hl v (List.mem_cons_of_mem _ hv)
  exact hfold _ fun u hu => List.mem_range.mp hu

theorem LikeMots.of_mot (h : t.eng.mot = b.eng.mot) : LikeMots b t :=
  ⟨by rw [h], fun u => by unfold LikeMot; rw [mot_congr h]⟩

theorem LikeMots.congr (h : LikeMots b x) (hmot : t.eng.mot = x.eng.mot) : LikeMots b t :=
  ⟨by rw [hmot]; exact h.1, fun u => by unfold LikeMot; rw [mot_congr hmot]; exact h.2 u⟩

theorem LikeMot.trans {u : Nat} {y : Motor} (h : LikeMot y u x) (g : LikeMot (x.mot u) u t) : LikeMot y u t := by
  have e : { t.mot u with steps := (x.mot u).steps, edgeLast := (x.mot u).edgeLast } = x.mot u := g
  have e' := congrArg (fun m : Motor => { m with steps := y.steps, edgeLast := y.edgeLast }) e
  exact e'.trans h

theorem LikeMots.trans (h : LikeMots b x) (g : LikeMots x t) : LikeMots b t :=
  ⟨(congrArg (fun m : Motors => { m with units := b.eng.mot.units }) g.1).trans h.1, fun u => (h.2 u).trans (g.2 u)⟩

theorem LikeMots.motorsSettle (h : LikeMots b x) (at_ : Nat) : LikeMots b (x.motorsSettle at_) := by
  refine ⟨?_, fun u => ?_⟩
  · have hshared := congrArg (fun m : Motors => { m with units := b.eng.mot.units }) (motorsSettle_shared x at_)
    exact hshared.trans h.1
  · suffices hfold : ∀ (l : List Nat) (y : Block), LikeMot (b.mot u) u y →
        LikeMot (b.mot u) u (l.foldl (fun acc v => acc.motorSettle v (fineOf (acc.now at_))) y) from hfold _ x (h.2 u)
    intro l
    induction l with
    | nil => exact fun y hy => hy
    | cons v l ih => exact fun y hy => ih _ (hy.motorSettle v _)

end Settled

/-! ### One input of the supplies (R297, R487) -/

/-- The supplies with one input and what waits for the next COMMIT replaced. -/
def Supply.put (s : Supply) (i : VpwrInput) (y : Input) (resume : Bool) : Supply :=
  match i with
  | .a => { s with inA := y, resume := resume }
  | .b => { s with inB := y, resume := resume }

section Inputs

variable {s : Supply} {b : Block} {i j : VpwrInput} {y y' : Input} {r r' : Bool}

@[simp] theorem put_input_same : (s.put i y r).input i = y := by cases i <;> rfl

theorem put_input_ne (h : j ≠ i) : (s.put i y r).input j = s.input j := by
  cases i <;> cases j
  case a.a | b.b => exact absurd rfl h
  all_goals rfl

@[simp] theorem put_resume : (s.put i y r).resume = r := by cases i <;> rfl

@[simp] theorem put_put : (s.put i y r).put i y' r' = s.put i y' r' := by cases i <;> rfl

/-- Nothing else of the supplies changes. -/
theorem put_rest : { s.put i y r with inA := s.inA, inB := s.inB, resume := s.resume } = s := by cases i <;> rfl

theorem modSup_keeps (b : Block) (f : Supply → Supply) : Keeps [.supply] b (b.modSup f) := by
  intro q hq
  cases q <;> simp_all [BlockPart.same, sessSame, Block.modSup]

theorem modInput_eq (b : Block) (i : VpwrInput) (f : Input → Input) :
    b.modInput i f = { b with sup := b.sup.put i (f (b.sup.input i)) b.sup.resume } := by cases i <;> rfl

theorem modInput_sup (b : Block) (i : VpwrInput) (f : Input → Input) :
    (b.modInput i f).sup = b.sup.put i (f (b.sup.input i)) b.sup.resume := by rw [modInput_eq]

theorem modInput_keeps (b : Block) (i : VpwrInput) (f : Input → Input) : Keeps [.supply] b (b.modInput i f) := by
  rw [modInput_eq]
  exact modSup_keeps b fun _ => _

@[simp] theorem modInput_regs (b : Block) (i : VpwrInput) (f : Input → Input) : (b.modInput i f).regs = b.regs := by
  rw [modInput_eq]

@[simp] theorem modInput_eng (b : Block) (i : VpwrInput) (f : Input → Input) : (b.modInput i f).eng = b.eng := by
  rw [modInput_eq]

@[simp] theorem modInput_vig (b : Block) (i : VpwrInput) (f : Input → Input) : (b.modInput i f).vig = b.vig := by
  rw [modInput_eq]

@[simp] theorem modInput_time (b : Block) (i : VpwrInput) (f : Input → Input) : (b.modInput i f).time = b.time := by
  rw [modInput_eq]

/-- VPWR is present as before where the input that changes is. -/
theorem vpwrPresent_of_put {t : Block} (hsup : t.sup = b.sup.put i y r) (hy : y.present = (b.sup.input i).present) :
    t.vpwrPresent = b.vpwrPresent := by
  unfold Block.vpwrPresent
  rw [hsup]
  cases i with
  | a => exact congrArg (· || b.sup.inB.present) hy
  | b => exact congrArg (b.sup.inA.present || ·) hy

/-- A command that changes one input and what waits for the next COMMIT, and nothing else. -/
theorem does_put {c : Instr} {st : State} {P : Block → Prop}
    (hexec : exec c st = .next { st with blk := { st.blk with sup := st.blk.sup.put i y r } })
    (hP : ∀ t : Block, t.sup = st.blk.sup.put i y r → P t) : Does c st [.supply] [] P :=
  ⟨_, hexec, modSup_keeps _ fun _ => _, KeepsWords.of_regs rfl, hP _ rfl⟩

/-- A command that changes one input. -/
theorem does_modInput {c : Instr} {st : State} {f : Input → Input} {P : Block → Prop}
    (hexec : exec c st = .next { st with blk := st.blk.modInput i f })
    (hP : ∀ t : Block, t.sup = st.blk.sup.put i (f (st.blk.sup.input i)) st.blk.sup.resume → P t) :
    Does c st [.supply] [] P :=
  does_put (hexec.trans (by rw [modInput_eq])) hP

end Inputs

/-! ### An input that goes (R298, R487) -/

/-- The block with an input become `y`, the outputs following what drives them then, and INPUT_LOST. -/
def Block.losesInput (b : Block) (i : VpwrInput) (y : Input) (settleAt at_ : Nat) (p : Payload) : Block :=
  ((b.modInput i fun _ => y).motorsSettle settleAt).raise 3 1 p at_

/-- `t` is `b` with input `i` become `y`, the outputs following what drives them, and an occurrence of event 3. -/
structure LosesInput (i : VpwrInput) (y : Input) (b t : Block) : Prop where
  keeps : Keeps (.supply :: .motors :: eventParts) b t
  words : KeepsWords (eventWords [3]) b t
  sup : t.sup = b.sup.put i y b.sup.resume
  time : t.time = b.time
  vig : t.vig = b.vig
  like : LikeMots b t
  settled : Settled t
  raised : Raised 3 b t

/-- The input as a case of R487 that opens its switch leaves it. -/
def Input.openedBy (x : Input) (why : SwitchOpen) (now : Nat) : Input :=
  { x with closed := false, opened := why, openedAt := now, present := false, lost := x.lost || x.present }

/-- `t` is `b` with the switch of input `i` opened: where the input was present, the outputs follow what drives them. -/
structure OpensInput (i : VpwrInput) (why : SwitchOpen) (at_ : Nat) (b t : Block) : Prop where
  keeps : Keeps (.supply :: .draws :: .motors :: eventParts) b t
  words : KeepsWords (eventWords [3]) b t
  sup : t.sup = b.sup.put i ((b.sup.input i).openedBy why (b.now at_)) b.sup.resume
  time : t.time = b.time
  vig : t.vig = b.vig
  like : LikeMots b t
  settled : (b.sup.input i).present = true ∨ Settled b → Settled t
  unchanged : (b.sup.input i).present = false → t.eng.mot = b.eng.mot

section Losses

variable {b t : Block} {i : VpwrInput} {y : Input} {mv at_ : Nat} {why : SwitchOpen}

theorem losesInput_losesInput (b : Block) (i : VpwrInput) (y : Input) (settleAt at_ : Nat) (p : Payload) :
    LosesInput i y b (b.losesInput i y settleAt at_ p) := by
  have hregs : ((b.modInput i fun _ => y).motorsSettle settleAt).regs = b.regs := by
    rw [motorsSettle_regs, modInput_regs]
  have hstages (x : Block) (p : Payload) : (x.raise 3 1 p at_).stagesOn = x.stagesOn := by
    simp [Block.stagesOn, Block.vpwrPresent]
  unfold Block.losesInput
  refine ⟨?_, ?_, ?_, ?_, ?_, ?_, ?_, ?_⟩
  · exact ((modInput_keeps b i _).mono (by simp)).trans (((motorsSettle_keeps _ _).mono (by simp)).trans
      ((raise_keeps _ _ _ _ _ _).mono (by simp)))
  · exact (KeepsWords.of_regs hregs).trans (raise_words _ _ _ _ _ _)
  · rw [raise_sup, motorsSettle_sup, modInput_sup]
  · rw [raise_time, motorsSettle_time, modInput_time]
  · rw [raise_vig, motorsSettle_vig, modInput_vig]
  · exact ((LikeMots.of_mot (congrArg Engines.mot (modInput_eng b i _))).motorsSettle settleAt).congr
      (congrArg Engines.mot (raise_eng ..))
  · exact (motorsSettle_settled _ settleAt).congr (congrArg Engines.mot (raise_eng ..)) (raise_vig ..) (hstages _ p)
  · exact (raise_raised _ 3 1 p at_ false (by decide)).of_word (word_of_regs hregs _ _ _)

theorem inputOpens_absent (hx : (b.sup.input i).present = false) :
    b.inputOpens i why at_ = b.modInput i (fun x => x.openedBy why (b.now at_)) := by
  have hy : { b.sup.input i with closed := false, opened := why, openedAt := b.now at_ }
      = (b.sup.input i).openedBy why (b.now at_) := by simp [Input.openedBy, hx]
  unfold Block.inputOpens
  simp only [hx, Bool.false_eq_true, if_false]
  rw [modInput_eq, modInput_eq, hy]

/-- Its voltage is a free value in the event (log entry 2). -/
theorem inputOpens_present (hx : (b.sup.input i).present = true) :
    ∃ p, b.inputOpens i why at_
      = { b with draws := b.draws + 1 }.losesInput i ((b.sup.input i).openedBy why (b.now at_)) at_ at_ p := by
  have hy : { b.sup.input i with
      closed := false, opened := why, openedAt := b.now at_, present := false, lost := true }
      = (b.sup.input i).openedBy why (b.now at_) := by simp [Input.openedBy, hx]
  unfold Block.inputOpens
  simp only [hx, if_true]
  refine ⟨_, congrArg (fun x : Block => (x.motorsSettle at_).raise 3 1 _ at_) ?_⟩
  rw [← hy]
  cases i <;> rfl

theorem inputOpens_opensInput (b : Block) (i : VpwrInput) (why : SwitchOpen) (at_ : Nat) :
    OpensInput i why at_ b (b.inputOpens i why at_) := by
  cases hx : (b.sup.input i).present with
  | false =>
    rw [inputOpens_absent hx]
    have hmot := congrArg Engines.mot (modInput_eng b i fun x => x.openedBy why (b.now at_))
    have hsup := modInput_sup b i fun x => x.openedBy why (b.now at_)
    refine ⟨(modInput_keeps _ _ _).mono (by simp), KeepsWords.of_regs (modInput_regs _ _ _), hsup,
      modInput_time _ _ _, modInput_vig _ _ _, .of_mot hmot, fun h => ?_, fun _ => hmot⟩
    refine (h.resolve_left (by simp [hx])).congr hmot (modInput_vig _ _ _) ?_
    unfold Block.stagesOn
    rw [vpwrPresent_of_put hsup hx.symm, hsup, put_resume]
  | true =>
    obtain ⟨p, e⟩ := inputOpens_present (why := why) (at_ := at_) hx
    have hdraws : Keeps [.draws] b { b with draws := b.draws + 1 } := by
      intro q hq
      cases q <;> simp_all [BlockPart.same, sessSame]
    rw [e]
    have h := losesInput_losesInput { b with draws := b.draws + 1 } i
      ((b.sup.input i).openedBy why (b.now at_)) at_ at_ p
    exact ⟨(hdraws.mono (by simp)).trans (h.keeps.mono (by simp)), h.words, h.sup, h.time, h.vig, h.like,
      fun _ => h.settled, fun habsent => absurd habsent (by simp [hx])⟩

theorem inputOpens_raised (hx : (b.sup.input i).present = true) : Raised 3 b (b.inputOpens i why at_) := by
  obtain ⟨p, e⟩ := inputOpens_present (why := why) (at_ := at_) hx
  rw [e]
  exact (losesInput_losesInput { b with draws := b.draws + 1 } i _ at_ at_ p).raised

end Losses

/-! ### VPWR_INPUT_LOST, VPWR_INPUT_PRESENT, INPUT_OVER (R297, R298, R489) -/

/-- The block with an input present from now on: where none was, the output stages resume at the next COMMIT. -/
def Block.gainsInput (b : Block) (i : VpwrInput) (mv : Nat) : Block :=
  let present : Input := { b.sup.input i with present := true, lost := false, mv := mv }
  { b with sup := b.sup.put i present (b.sup.resume || !b.vpwrPresent) }

section Presence

variable {s : State} {b : Block} {i : VpwrInput} {mv ma : Nat}

theorem inputLost_present (hx : (b.sup.input i).present = true) :
    b.inputLost i mv = b.losesInput i { b.sup.input i with present := false, lost := true, mv := mv } b.time.hand 0
      (payS (inputNo i + mv * 2 ^ 32)) := by
  unfold Block.inputLost Block.losesInput
  rw [if_pos hx, modInput_eq, modInput_eq]

theorem inputLost_absent (hx : (b.sup.input i).present = false) :
    b.inputLost i mv = b.modInput i (fun x => { x with mv := mv }) := if_neg (by simp [hx])

theorem exec_vpwrInputLost (hlow : mv < 8500) :
    exec (.vpwrInputLost i mv) s = .next { s with blk := s.blk.inputLost i mv } := by
  show execVpwrInputLost i mv s = _
  exact next_if_pos hlow

theorem inputPresent_present (hx : (b.sup.input i).present = true) :
    b.inputPresent i mv = b.modInput i (fun x => { x with mv := mv }) := if_pos hx

/-- An input that comes back after a loss says so (R298, R317). -/
theorem inputPresent_returns (hx : (b.sup.input i).present = false) (hlost : (b.sup.input i).lost = true) :
    b.inputPresent i mv = (b.gainsInput i mv).raise 3 2 (payS (inputNo i + mv * 2 ^ 32)) 0
      ((b.gainsInput i mv).sup.inA.lost || (b.gainsInput i mv).sup.inB.lost) := by
  refine (if_neg (by simp [hx])).trans ((if_pos hlost).trans ?_)
  cases i <;> rfl

theorem inputPresent_first (hx : (b.sup.input i).present = false) (hlost : (b.sup.input i).lost = false) :
    b.inputPresent i mv = b.gainsInput i mv := by
  refine (if_neg (by simp [hx])).trans ((if_neg (by simp [hlost])).trans ?_)
  cases i <;> rfl

theorem exec_vpwrInputPresent {t : Block} (hhigh : 9000 ≤ mv) (hclosed : (s.blk.sup.input i).closed = true)
    (ht : s.blk.inputPresent i mv = t) : exec (.vpwrInputPresent i mv) s = .next { s with blk := t } := by
  subst ht
  show execVpwrInputPresent i mv s = _
  exact next_if_pos ⟨hhigh, hclosed⟩

/-- The block with the mean current of an input noted. -/
def Block.notesOver (b : Block) (i : VpwrInput) (ma : Nat) : Block :=
  b.modInput i (fun x => { x with mean1s := ma, overLatched := Decidable.decide (40000 < ma) })

theorem exec_inputOver_first (hover : 40000 < ma) (hfresh : (s.blk.sup.input i).overLatched = false) :
    exec (.inputOver i ma) s = .next { s with
      blk := (s.blk.notesOver i ma).raise 4 1 (payS (inputNo i + ma * 2 ^ 32)) } := by
  show execInputOver i ma s = _
  exact next_if_pos (by simp [hover, hfresh])

theorem exec_inputOver_quiet (hno : ma ≤ 40000 ∨ (s.blk.sup.input i).overLatched = true) :
    exec (.inputOver i ma) s = .next { s with blk := s.blk.notesOver i ma } := by
  show execInputOver i ma s = _
  refine congrArg (fun b => Host.Outcome.next { s with blk := b }) (if_neg ?_)
  rcases hno with hle | hlatched
  · simp [Nat.not_lt.mpr hle]
  · simp [hlatched]

/-- A command that changes one input and what waits for the next COMMIT, and raises an event. -/
theorem does_put_raise {c : Instr} {st : State} {x : Block} {y : Input} {r : Bool} {n : Nat} {code : Byte} {p : Payload}
    {still : Bool} {P : Block → Prop} (hn : n < 128)
    (hexec : exec c st = .next { st with blk := x.raise n code p 0 still })
    (hx : x = { st.blk with sup := st.blk.sup.put i y r })
    (hP : ∀ t : Block, t.sup = st.blk.sup.put i y r → Raised n st.blk t → P t) :
    Does c st (.supply :: eventParts) (eventWords [n]) P := by
  have hkeeps : Keeps [.supply] st.blk x := by
    rw [hx]
    exact modSup_keeps st.blk fun _ => st.blk.sup.put i y r
  have hsup : x.sup = st.blk.sup.put i y r := by rw [hx]
  have hregs : x.regs = st.blk.regs := by rw [hx]
  refine ⟨_, hexec, ?_, ?_, hP _ ?_ ?_⟩
  · exact (hkeeps.mono (by simp)).trans ((raise_keeps _ _ _ _ _ _).mono (by simp))
  · exact (KeepsWords.of_regs hregs).trans (raise_words _ _ _ _ _ _)
  · rw [raise_sup, hsup]
  · exact (raise_raised x n code p 0 still hn).of_word (word_of_regs hregs _ _ _)

end Presence

/-! ### The switches open and return (R487, R488) -/

section Switches

variable {s : State} {i : VpwrInput} {mv ma ns at_ contact : Nat} {why : SwitchOpen}

/-- A command that opens the switch of an input that was not present, and notes its contact. -/
theorem does_opens_absent {c : Instr} {P : Block → Prop} (hx : (s.blk.sup.input i).present = false)
    (hexec : exec c s = .next { s with
      blk := (s.blk.inputOpens i why at_).modInput i (fun x => { x with contactMv := contact }) })
    (hP : ∀ t : Block, t.sup = s.blk.sup.put i { s.blk.sup.input i with
      closed := false, opened := why, openedAt := s.blk.now at_, contactMv := contact } s.blk.sup.resume → P t) :
    Does c s [.supply] [] P := by
  refine does_put (hexec.trans ?_) hP
  rw [inputOpens_absent hx, modInput_eq, modInput_sup, put_input_same, put_put, modInput_eq]
  simp [Input.openedBy, hx]

/-- A command that opens the switch of an input that was present, and notes its contact. -/
theorem does_opens_present {c : Instr} {P : Block → Prop} (hx : (s.blk.sup.input i).present = true)
    (hexec : exec c s = .next { s with
      blk := (s.blk.inputOpens i why at_).modInput i (fun x => { x with contactMv := contact }) })
    (hP : ∀ t : Block, t.sup = s.blk.sup.put i { s.blk.sup.input i with
      closed := false, opened := why, openedAt := s.blk.now at_, present := false, lost := true
      contactMv := contact } s.blk.sup.resume → LikeMots s.blk t → Settled t → Raised 3 s.blk t → P t) :
    Does c s (.supply :: .draws :: .motors :: eventParts) (eventWords [3]) P := by
  have h := inputOpens_opensInput s.blk i why at_
  have hcontact (x : Block) := modInput_sup x i (fun y => { y with contactMv := contact })
  have hmot (x : Block) := congrArg Engines.mot (modInput_eng x i (fun y => { y with contactMv := contact }))
  refine ⟨_, hexec, h.keeps.trans ((modInput_keeps _ _ _).mono (by simp)),
    h.words.trans (KeepsWords.of_regs (modInput_regs _ _ _)), hP _ ?_ (h.like.congr (hmot _)) ?_
    (raised_of_regs _ (inputOpens_raised hx) (modInput_regs _ _ _))⟩
  · rw [hcontact, h.sup, put_input_same, put_put, put_resume]
    simp [Input.openedBy, hx]
  · refine (h.settled (.inl hx)).congr (hmot _) (modInput_vig _ _ _) ?_
    unfold Block.stagesOn
    rw [vpwrPresent_of_put (hcontact _) rfl, hcontact, put_resume]

theorem exec_inputSwitchOvercurrent (hclosed : (s.blk.sup.input i).closed = true) (hma : 60000 < ma)
    (hns : 100000 ≤ ns) :
    exec (.inputSwitchOvercurrent i ma ns at_) s = .next { s with
      blk := (s.blk.inputOpens i .overCurrent at_).modInput i (fun x => { x with
        contactMv := (s.blk.sup.input i).contactMv }) } := by
  have hcontact : ((s.blk.inputOpens i .overCurrent at_).sup.input i).contactMv = (s.blk.sup.input i).contactMv := by
    rw [(inputOpens_opensInput s.blk i .overCurrent at_).sup, put_input_same]
    rfl
  show execInputSwitchOvercurrent i ma ns at_ s = _
  refine (next_if_pos ⟨hclosed, hma, hns⟩).trans ?_
  rw [modInput_eq, ← hcontact]
  generalize s.blk.inputOpens i .overCurrent at_ = t
  cases i <;> rfl

theorem exec_inputSwitchOvervoltage (hmv : 36000 < mv) :
    exec (.inputSwitchOvervoltage i mv at_) s = .next { s with
      blk := (s.blk.inputOpens i .overVoltage at_).modInput i (fun x => { x with contactMv := mv }) } := by
  show execInputSwitchOvervoltage i mv at_ s = _
  exact next_if_pos hmv

/-- What opened the switch has gone for long enough (R487). -/
theorem exec_inputSwitchReturn {settled : Nat} (hopen : (s.blk.sup.input i).closed = false)
    (hback : ((s.blk.sup.input i).opened = .overCurrent ∧ (s.blk.sup.input i).openedAt + 1000000000 ≤ s.blk.now at_)
      ∨ ((s.blk.sup.input i).opened = .overVoltage ∧ mv < 34000 ∧ 10000000 ≤ settled)
      ∨ ((s.blk.sup.input i).opened = .groundLift ∧ mv ≤ 500 ∧ 10000000 ≤ settled)) :
    exec (.inputSwitchReturn i mv settled at_) s = .next { s with
      blk := s.blk.modInput i (fun x => { x with opened := .neverClosed }) } := by
  show execInputSwitchReturn i mv settled at_ s = _
  obtain ⟨hwhy, hlong⟩ | ⟨hwhy, hlow, hlong⟩ | ⟨hwhy, hlow, hlong⟩ := hback
  · simp [execInputSwitchReturn, lift, hopen, hwhy, hlong]
  · simp [execInputSwitchReturn, lift, hopen, hwhy, hlow, hlong]
  · simp [execInputSwitchReturn, lift, hopen, hwhy, hlow, hlong]

/-! GROUND_LIFT -/

/-- The block with both switches opened by a ground lift, which ends a precharge. -/
def Block.lifted (b : Block) (at_ : Nat) : Block :=
  ((b.inputOpens .a .groundLift at_).inputOpens .b .groundLift at_).modSup (fun s => { s with prechargeSince := none })

theorem exec_groundLift (hmv : 1000 < mv) (hns : 10000 ≤ ns) :
    exec (.groundLift mv ns at_) s = .next { s with blk := s.blk.lifted at_ } := by
  show execGroundLift mv ns at_ s = _
  exact next_if_pos ⟨hmv, hns⟩

variable (b : Block)

theorem lifted_keeps (at_ : Nat) : Keeps (.supply :: .draws :: .motors :: eventParts) b (b.lifted at_) :=
  (inputOpens_opensInput b .a .groundLift at_).keeps.trans
    ((inputOpens_opensInput (b.inputOpens .a .groundLift at_) .b .groundLift at_).keeps.trans
      ((modSup_keeps _ _).mono (by simp)))

theorem lifted_words (at_ : Nat) : KeepsWords (eventWords [3]) b (b.lifted at_) :=
  (inputOpens_opensInput b .a .groundLift at_).words.trans
    ((inputOpens_opensInput (b.inputOpens .a .groundLift at_) .b .groundLift at_).words.trans (KeepsWords.of_regs rfl))

/-- Each input is left as the opening of its own switch leaves it. -/
theorem lifted_input (at_ : Nat) (j : VpwrInput) :
    (b.lifted at_).sup.input j = (b.sup.input j).openedBy .groundLift (b.now at_) := by
  have h1 := inputOpens_opensInput b .a .groundLift at_
  have h2 := inputOpens_opensInput (b.inputOpens .a .groundLift at_) .b .groundLift at_
  have hsup : (b.lifted at_).sup.input j
      = ((b.inputOpens .a .groundLift at_).inputOpens .b .groundLift at_).sup.input j := by cases j <;> rfl
  have hnow : (b.inputOpens .a .groundLift at_).now at_ = b.now at_ := by unfold Block.now; rw [h1.time]
  rw [hsup, h2.sup, hnow]
  cases j with
  | a => rw [put_input_ne (by decide), h1.sup, put_input_same]
  | b => rw [put_input_same, h1.sup, put_input_ne (by decide)]

theorem lifted_like (at_ : Nat) : LikeMots b (b.lifted at_) := by
  have h1 := inputOpens_opensInput b .a .groundLift at_
  have h2 := inputOpens_opensInput (b.inputOpens .a .groundLift at_) .b .groundLift at_
  exact (h1.like.trans h2.like).congr rfl

/-- Where VPWR was present, the outputs follow what drives them in the end. -/
theorem lifted_settled (at_ : Nat) (hvpwr : b.vpwrPresent = true) : Settled (b.lifted at_) := by
  have h1 := inputOpens_opensInput b .a .groundLift at_
  have h2 := inputOpens_opensInput (b.inputOpens .a .groundLift at_) .b .groundLift at_
  refine (h2.settled ?_).congr rfl rfl rfl
  rw [h1.sup, put_input_ne (by decide)]
  rcases Bool.or_eq_true_iff.mp hvpwr with ha | hb
  · exact .inr (h1.settled (.inl ha))
  · exact .inl hb

theorem lifted_unchanged (at_ : Nat) (hvpwr : b.vpwrPresent = false) : (b.lifted at_).eng.mot = b.eng.mot := by
  obtain ⟨ha, hb⟩ := Bool.or_eq_false_iff.mp hvpwr
  have h1 := inputOpens_opensInput b .a .groundLift at_
  have h2 := inputOpens_opensInput (b.inputOpens .a .groundLift at_) .b .groundLift at_
  refine (h2.unchanged ?_).trans (h1.unchanged ha)
  rw [h1.sup, put_input_ne (by decide)]
  exact hb

end Switches

/-! ### Precharge (R492) and KEY (R485) -/

section Precharge

variable {s : State} {mv busMv at_ t0 : Nat}

/-- A command that changes the supplies. -/
theorem does_modSup {c : Instr} {f : Supply → Supply} {P : Block → Prop}
    (hexec : exec c s = .next { s with blk := s.blk.modSup f })
    (hP : ∀ t : Block, t.sup = f s.blk.sup → P t) : Does c s [.supply] [] P :=
  ⟨_, hexec, modSup_keeps _ _, KeepsWords.of_regs rfl, hP _ rfl⟩

theorem exec_keyChange {ns : Nat} (hns : 10000000 ≤ ns) :
    exec (.keyChange mv ns at_) s = .next { s with blk := s.blk.modSup (fun x => { x with
      key := if 6000 < mv then true else if mv < 3000 then false else x.key }) } := by
  show execKeyChange mv ns at_ s = _
  exact congrArg (fun b => Host.Outcome.next { s with blk := b }) (if_neg (Nat.not_lt.mpr hns))

/-- Input A starts precharge; at input B, whose contact shows 0 V, nothing is connected. -/
theorem exec_prechargeStart (hstate : s.blk.eng.pwr.state ≠ .dormant) (hidle : s.blk.sup.prechargeSince = none)
    (hretry : s.blk.sup.retryAt = none) (habove : busMv + 1000 < mv) (heligible : s.blk.sup.inA.eligible = true) :
    exec (.prechargeStart mv 0 busMv at_) s = .next { s with blk := s.blk.modSup (fun x => { x with
      inA := { x.inA with contactMv := mv }, inB := { x.inB with contactMv := 0 }, busMv := busMv, retryAt := none
      prechargeSince := some (s.blk.now at_) }) } := by
  have hjoins : ¬ mv ≤ busMv + 1000 := by omega
  show execPrechargeStart mv 0 busMv at_ s = _
  simp [execPrechargeStart, lift, hstate, hidle, hretry, habove, heligible, hjoins, Supply.input, Block.modInput,
    Block.modSup]

/-- The switch of input A closes once the bus has come within 1.0 V (R487, R492). -/
theorem exec_prechargeComplete (hsince : s.blk.sup.prechargeSince = some t0) (heligible : s.blk.sup.inA.eligible = true)
    (hnear : mv ≤ busMv + 1000) (hnear' : busMv ≤ mv + 1000) (hbus : 2000 < busMv) :
    exec (.prechargeComplete mv 0 busMv) s = .next { s with
      blk := (s.blk.modSup (fun x => { x with prechargeSince := none, busMv := busMv })).inputCloses .a busMv } := by
  have hfar : ¬ busMv ≤ 1000 := by omega
  show execPrechargeComplete mv 0 busMv s = _
  simp [execPrechargeComplete, lift, hsince, heligible, hnear, hnear', hfar, Supply.input]

/-- An input whose switch is closed. -/
def Input.switchedIn (x : Input) : Input := { x with closed := true, opened := .neverClosed }

/-- The block with the switch of an input closed. -/
def Block.switchesIn (b : Block) (i : VpwrInput) : Block :=
  { b with sup := b.sup.put i (b.sup.input i).switchedIn b.sup.resume }

/-- The switch of an input that was not lost closes: the input has the voltage of the bus, and is present from 9.0 V. -/
theorem inputCloses_eq {b : Block} {i : VpwrInput} (busMv : Nat) (hlost : (b.sup.input i).lost = false) :
    ∃ r, b.inputCloses i busMv = { b with sup := b.sup.put i { b.sup.input i with
      closed := true, opened := .neverClosed, mv := busMv
      present := (b.sup.input i).present || decide (9000 ≤ busMv) } r } := by
  have hb : b.modInput i (fun x => { x with closed := true, opened := .neverClosed }) = b.switchesIn i :=
    modInput_eq _ _ _
  have hinput : (b.switchesIn i).sup.input i = (b.sup.input i).switchedIn := put_input_same
  have hput {x : Block} {z y : Input} {r : Bool}
      (hx : x = { b.switchesIn i with sup := (b.switchesIn i).sup.put i z r }) (hz : z = y) :
      ∃ r, x = { b with sup := b.sup.put i y r } :=
    ⟨r, by rw [hx, hz]; exact congrArg (fun z => { b with sup := z }) put_put⟩
  unfold Block.inputCloses
  rw [hb]
  by_cases hbus : 9000 ≤ busMv
  · rw [if_pos hbus]
    cases hx : (b.sup.input i).present with
    | false =>
      refine hput (inputPresent_first (by rw [hinput]; exact hx) (by rw [hinput]; exact hlost)) ?_
      rw [hinput]
      simp [Input.switchedIn, hbus, hlost]
    | true =>
      rw [inputPresent_present (by rw [hinput]; exact hx), modInput_eq]
      refine hput rfl ?_
      rw [hinput]
      simp [Input.switchedIn, hx]
  · rw [if_neg hbus, modInput_eq]
    refine hput rfl ?_
    rw [hinput]
    simp [Input.switchedIn, hbus]

theorem exec_prechargeTimeout (hsince : s.blk.sup.prechargeSince = some t0)
    (hlong : t0 + 30000000 ≤ s.blk.now at_) :
    let fail (y : Input) : Input := if y.eligible then { y with opened := .prechargeFailed } else y
    exec (.prechargeTimeout at_) s = .next { s with blk := s.blk.modSup (fun x => { x with
      prechargeSince := none, retryAt := some (s.blk.now at_ + 1000000000)
      inA := fail x.inA, inB := fail x.inB }) } := by
  show execPrechargeTimeout at_ s = _
  simp only [execPrechargeTimeout, lift, hsince, if_neg (Nat.not_lt.mpr hlong)]

end Precharge

/-- Settles O60: each command, where its condition holds, changes one input or the supplies; where an input that was
    present goes, the outputs follow what drives them. -/
theorem supplyInputs : Obligations.SupplyInputs := by
  intro s i mv at_ b x now ports other settles opens
  have hother {t : Block} {y : Input} {r : Bool} (h : t.sup = b.sup.put i y r) : other t :=
    ⟨fun j _ hj => by rw [h, put_input_ne hj], by rw [h]; exact put_rest⟩
  have hinput {t : Block} {y : Input} {r : Bool} (h : t.sup = b.sup.put i y r) : t.sup.input i = y := by
    rw [h, put_input_same]
  have hresume {t : Block} {y : Input} {r : Bool} (h : t.sup = b.sup.put i y r) : t.sup.resume = r := by
    rw [h, put_resume]
  have hsettles {t : Block} (e : Nat) (hlike : LikeMots b t) (hsettled : Settled t) : settles e t :=
    ⟨hlike.1, fun u _ => hlike.2 u, by rw [hsettled.motorsSettle]⟩
  have hopens {c : Instr} {contact : Nat} {why : SwitchOpen} (hexec : exec c s = .next { s with
      blk := (b.inputOpens i why at_).modInput i (fun y => { y with contactMv := contact }) }) : opens c contact why :=
    ⟨fun hx => does_opens_absent hx hexec fun t h => ⟨hother h, hinput h⟩,
      fun hx => does_opens_present hx hexec fun t h hlike hsettled hraised =>
        ⟨hother h, hraised, hsettles at_ hlike hsettled, hinput h⟩⟩
  refine ⟨fun hlow => ⟨fun hx => ?lost, fun hx => ?stillLost⟩,
    fun hhigh hclosed => ⟨fun hx hlost => ?returns, fun hx hlost => ?first, fun hx => ?stillPresent⟩,
    fun ma => ⟨fun hover hfresh => ?overCurrent, fun hno => ?noEvent⟩,
    fun ns hns => does_modSup (exec_keyChange hns) fun t h => h,
    fun ma ns hclosed hma hns => hopens (exec_inputSwitchOvercurrent hclosed hma hns),
    fun hmv => hopens (exec_inputSwitchOvervoltage hmv), fun ns hmv hns => ?groundLift,
    fun settled hopen hback => ?switchReturn, fun busMv hstate hidle hretry habove heligible => ?prechargeStart,
    fun t0 busMv hsince heligible hnear hnear' hbus hlost => ?prechargeComplete,
    fun t0 hsince hlong => does_modSup (exec_prechargeTimeout hsince hlong) fun t h => h⟩
  case lost =>
    have h := losesInput_losesInput b i { x with present := false, lost := true, mv := mv } b.time.hand 0
      (payS (inputNo i + mv * 2 ^ 32))
    exact ⟨_, (exec_vpwrInputLost hlow).trans (by rw [inputLost_present hx]), h.keeps, h.words, hother h.sup,
      hsettles b.time.hand h.like h.settled, hinput h.sup, h.raised⟩
  case stillLost =>
    exact does_modInput ((exec_vpwrInputLost hlow).trans (by rw [inputLost_absent hx]))
      fun t h => ⟨hother h, hinput h⟩
  case returns =>
    exact does_put_raise (by decide) (exec_vpwrInputPresent hhigh hclosed (inputPresent_returns hx hlost)) rfl
      fun t h hraised => ⟨hother h, hinput h, hraised, hresume h⟩
  case first =>
    refine does_put (exec_vpwrInputPresent hhigh hclosed (inputPresent_first hx hlost)) fun t h =>
      ⟨hother h, (hinput h).trans ?_, hresume h⟩
    exact congrArg (fun l => { x with present := true, lost := l, mv := mv }) hlost.symm
  case stillPresent =>
    exact does_modInput (exec_vpwrInputPresent hhigh hclosed (inputPresent_present hx))
      fun t h => ⟨hother h, hinput h, hresume h⟩
  case overCurrent =>
    refine does_put_raise (by decide) (exec_inputOver_first hover hfresh) (modInput_eq _ _ _)
      fun t h hraised => ⟨hother h, hraised, (hinput h).trans ?_⟩
    rw [decide_eq_true hover]
  case noEvent => exact does_modInput (exec_inputOver_quiet hno) fun t h => ⟨hother h, hinput h⟩
  case groundLift =>
    exact ⟨_, exec_groundLift hmv hns, lifted_keeps b at_, lifted_words b at_,
      fun hvpwr => hsettles at_ (lifted_like b at_) (lifted_settled b at_ hvpwr), lifted_unchanged b at_, rfl,
      fun j _ => lifted_input b at_ j⟩
  case switchReturn =>
    refine does_modInput (exec_inputSwitchReturn hopen hback) fun t h => ⟨hother h, hinput h, ?_⟩
    have hclosed : (s.blk.sup.input i).closed = false := hopen
    rw [hinput h]
    simp [Input.eligible, hclosed]
  case prechargeStart =>
    exact does_modSup (exec_prechargeStart hstate hidle hretry habove heligible) fun t h => by
      rw [h]
      exact ⟨rfl, rfl, rfl⟩
  case prechargeComplete =>
    obtain ⟨r, e⟩ := inputCloses_eq (b := b.modSup (fun y => { y with prechargeSince := none, busMv := busMv }))
      (i := .a) busMv hlost
    refine does_modSup (f := fun y => ({ y with prechargeSince := none, busMv := busMv } : Supply).put .a { y.inA with
      closed := true, opened := .neverClosed, mv := busMv, present := y.inA.present || decide (9000 ≤ busMv) } r)
      ((exec_prechargeComplete hsince heligible hnear hnear' hbus).trans ?_) fun t h => by
        rw [h]; exact ⟨rfl, rfl, rfl, rfl⟩
    exact congrArg (fun y => Host.Outcome.next { s with blk := y }) e

end Sys2Proof.Machine

/-! PROOFS. Commands (00) and requests (12): every command goes on, what a request finds on its arrival. -/

namespace Sys2Proof.Machine

open Sys2Proof (Word Byte Bytes Sess Hdr Instr)

/-! ### Every command goes on -/

/-- The arm of each command changes the block and nothing else. -/
theorem exec_eq_next (c : Instr) (s : State) : ∃ t : Block, exec c s = .next { s with blk := t } := by
  cases c <;> exact ⟨_, rfl⟩

/-- Settles O1: both sides are the arm that the front of the queue chooses. -/
theorem stepRunsTheFrontCommand : Obligations.StepRunsTheFrontCommand :=
  ⟨fun _ _ _ => rfl, fun _ => rfl⟩

/-- Settles O2: each arm of the table answers a next state that keeps the queue. -/
theorem everyCommandGoesOn : Obligations.EveryCommandGoesOn := exec_eq_next

/-! ### Requests that are served (R346, R349, R350, R356) -/

/-- Every request of a session has a dispatch. -/
theorem dispatchOf_of_row {i : Instr} {h : Hdr} {op : OpRow} (hr : rowOf i = some (h, op)) :
    ∃ d, dispatchOf i = some d := by
  by_cases hi : i = .identify h
  · subst hi
    exact ⟨_, rfl⟩
  · obtain ⟨d, hd, -⟩ := exec_of_row i {} h op hr hi
    exact ⟨d, hd⟩

/-- Settles O7: a request has a dispatch, and one that is served reaches it at once. -/
theorem servedRequestIsDispatchedAtOnce : Obligations.ServedRequestIsDispatchedAtOnce := by
  intro i s h op k hr v
  obtain ⟨d, hd⟩ := dispatchOf_of_row hr
  exact ⟨d, hd, exec_served i s h k op d hr hd v⟩

/-! ### Repeats, and requests that wait (R339, R341, R349, R356, R364) -/

section Arrivals

variable {b : Block} {i : Instr} {h : Hdr} {k : Sess} {op : OpRow} {d : Dispatch}

theorem sessionOf_some_session (hs : b.sessionOf h = some k) : h.session ≠ 0 := by
  intro e
  simp [Block.sessionOf, e] at hs

/-- A request of an open session reaches its checks (R338). -/
theorem request_arrives (hreach : b.reachable = true) (hsingle : h.multicast = false)
    (hrun : b.upd.recovery = false) (hs : b.sessionOf h = some k) : b.request i h op d = b.arrive k i h op d := by
  simp [Block.request, hreach, hs, hsingle, hrun]

/-! The keepalive timer is not what the checks look at. -/

theorem keepAlive_keptReply : (b.keepAlive k h).keptReply k h = b.keptReply k h := by cases k <;> rfl

theorem keepAlive_repeats : (b.keepAlive k h).repeats k h = b.repeats k h := by cases k <;> rfl

theorem keepAlive_queue (q : Fin 4) : (b.keepAlive k h).queue q = b.queue q := by cases k <;> rfl

theorem keepAlive_held : (b.keepAlive k h).held h = b.held h := by cases k <;> rfl

theorem keepAlive_roomFor : (b.keepAlive k h).roomFor h = b.roomFor h := by cases k <;> rfl

theorem keepAlive_arrivals : (b.keepAlive k h).link.arrivals = b.link.arrivals := by cases k <;> rfl

theorem keepAlive_progress : (b.keepAlive k h).link.progress = b.link.progress := by cases k <;> rfl

theorem keepAlive_sent : (b.keepAlive k h).link.sent = b.link.sent := by cases k <;> rfl

theorem keepAlive_queues : (b.keepAlive k h).link.queues = b.link.queues := by cases k <;> rfl

theorem keepAlive_words (l : List Nat) : KeepsWords l b (b.keepAlive k h) := KeepsWords.of_regs (keepAlive_regs b k h)

theorem arrive_kept {p : Packet} (hp : b.keptReply k h = some p) : b.arrive k i h op d = (b.keepAlive k h).send p := by
  simp only [Block.arrive, keepAlive_keptReply, hp]

theorem arrive_repeat (hnone : b.keptReply k h = none) (hrep : b.repeats k h = true) :
    b.arrive k i h op d = b.keepAlive k h := by
  simp only [Block.arrive, keepAlive_keptReply, hnone, keepAlive_repeats, hrep, if_true]

/-- A request that the checks let pass takes a slot of its queue. -/
theorem arrive_takesSlot (hnone : b.keptReply k h = none) (hrep : b.repeats k h = false)
    (hpermitted : k = .main → op.serviceOnly = false ∧ h.queue ≠ 3) (hlen : op.lengthOk h.len = true)
    (hslots : (b.queue h.queue).length < queueSlots h.queue) (hhint : hintTooFar b.time.count h.hint = false) :
    b.arrive k i h op d = (b.keepAlive k h).takeSlot k i h op d := by
  have hallowed : ¬ (k = .main ∧ (op.serviceOnly = true ∨ h.queue = 3)) := by
    rintro ⟨hk, hor⟩
    obtain ⟨h1, h2⟩ := hpermitted hk
    simp [h1, h2] at hor
  have hhint' : hintTooFar (b.keepAlive k h).time.count h.hint = false := hhint
  simp only [Block.arrive, keepAlive_keptReply, hnone, keepAlive_repeats, hrep, keepAlive_queue, hlen, hhint',
    if_neg hallowed, if_neg (Nat.not_le.mpr hslots), Bool.not_true, Bool.false_eq_true, if_false]

/-- The request as it waits. -/
def Block.waitingOf (b : Block) (k : Sess) (i : Instr) (h : Hdr) (op : OpRow) : Waiting :=
  { seq := b.link.arrivals, sess := some k, arrived := b.now h.at_, hdr := h, opcode := op.code, req := i }

/-- The block with a request counted as an arrival and left to wait. -/
def Block.waits (b : Block) (k : Sess) (i : Instr) (h : Hdr) (op : OpRow) : Block :=
  (((b.reaches h.at_).arrives h).peak h.queue ((b.queue h.queue).length + 1)).enqueue (b.waitingOf k i h op)

theorem takeSlot_waits (hwait : b.queue h.queue ≠ [] ∨ b.held h = true ∨ b.roomFor h = false) :
    b.takeSlot k i h op d = b.waits k i h op := by
  have hnot : ((b.queue h.queue).isEmpty && !b.held h && b.roomFor h) = false := by
    rcases hwait with hq | hh | hr
    · simp [hq]
    · simp [hh]
    · simp [hr]
  simp only [Block.takeSlot, hnot, Bool.false_eq_true, if_false]
  rfl

theorem enqueue_keeps (b : Block) (w : Waiting) : Keeps [.requests] b (b.enqueue w) := by
  intro q hq
  cases q <;> simp_all [BlockPart.same, sessSame, Block.enqueue]

theorem waits_keeps (b : Block) : Keeps [.requests, .keepalive, .hand] b (b.waits k i h op) :=
  ((reaches_keeps _ _).mono (by simp)).trans (((arrives_keeps _ _).mono (by simp)).trans
    (((setFld_keeps _ _ _ _ _ _).mono (by simp)).trans ((enqueue_keeps _ _).mono (by simp))))

theorem waits_words (b : Block) : KeepsWords [addr .CMDQ_STAT h.queue.val] b (b.waits k i h op) :=
  (KeepsWords.of_regs rfl).trans (setFld_words ((b.reaches h.at_).arrives h) _ _ _ _ _)

theorem waits_progress (b : Block) : (b.waits k i h op).link.progress = b.link.progress := rfl

/-- A request that waits stands at the end of its queue. -/
theorem waits_queue (b : Block) (hlen : b.link.queues.length = 4) :
    (b.waits k i h op).queue h.queue = b.queue h.queue ++ [b.waitingOf k i h op] :=
  nth_modNth_same (l := b.link.queues) _ (by rw [hlen]; exact h.queue.isLt)

end Arrivals

/-- Settles O9: each kind of repeat, and a request that waits, leaves the checks of its arrival at its own place. -/
theorem repeatsAndWaitingRequests : Obligations.RepeatsAndWaitingRequests := by
  intro i s h op k hr hreach hsingle hrun hs
  obtain ⟨d, hd⟩ := dispatchOf_of_row hr
  have hexec : exec i s = .next { s with blk := s.blk.arrive k i h op d } := by
    rw [exec_request i s h op d hr hd (sessionOf_some_session hs) hsingle, request_arrives hreach hsingle hrun hs]
  refine ⟨fun p hp => ?_, fun hnone hrep => ?_, fun hnone hrep hpermitted hlen hslots hhint hwait hsound => ?_⟩
  · rw [arrive_kept hp] at hexec
    refine ⟨_, hexec, ?_, KeepsWords.of_regs (keepAlive_regs s.blk k h), ?_⟩
    · exact ((keepAlive_keeps _ _ _).mono (by simp)).trans ((send_keeps _ _ _).mono (by simp))
    · exact congrArg (· ++ [p]) keepAlive_sent
  · rw [arrive_repeat hnone hrep] at hexec
    exact ⟨_, hexec, keepAlive_keeps _ _ _, keepAlive_words _, trivial⟩
  · rw [arrive_takesSlot hnone hrep hpermitted hlen hslots hhint, takeSlot_waits
      (by rwa [keepAlive_queue, keepAlive_held, keepAlive_roomFor])] at hexec
    refine ⟨_, hexec, ((keepAlive_keeps _ _ _).mono (by simp)).trans (waits_keeps _),
      (keepAlive_words _).trans (waits_words _), ?_, ?_⟩
    · rw [waits_queue _ (by rw [keepAlive_queues]; exact Block.Sound.queues hsound), keepAlive_queue,
        Block.waitingOf, keepAlive_arrivals]
      rfl
    · rw [waits_progress, keepAlive_progress]

end Sys2Proof.Machine

/-! PROOFS. The load switches (11): their trips and diagnoses. -/

namespace Sys2Proof.Machine

open Sys2Proof (Word Byte Bytes Sess Hdr Instr)

/-! ### One load switch brought up to date (R324, R330) -/

section OneSwitch

variable {b : Block} {k at_ : Nat} {y : Lsw}

/-- The block with load switch `k` as it is given. -/
def Block.putSw (b : Block) (k : Nat) (y : Lsw) : Block := b.modSw k (fun _ => y)

@[simp] theorem putSw_regs : (b.putSw k y).regs = b.regs := rfl

theorem putSw_keeps (b : Block) (k : Nat) (y : Lsw) : Keeps [.lsw] b (b.putSw k y) := modSw_keeps _ _ _

/-- A change of a switch puts the image of that switch in its place. -/
theorem modSw_eq_putSw (b : Block) (k : Nat) (f : Lsw → Lsw) : b.modSw k f = b.putSw k (f (b.sw k)) := by
  have hsame : modNth b.eng.lsw k f = modNth b.eng.lsw k (fun _ => f (b.sw k)) := modNth_congr (d := {}) rfl
  unfold Block.putSw Block.modSw
  rw [hsame]

theorem putSw_self (b : Block) (k : Nat) : b.putSw k (b.sw k) = b :=
  congrArg (fun l => { b with eng := { b.eng with lsw := l } }) (modNth_self b.eng.lsw k {})

theorem putSw_modSw (b : Block) (k : Nat) (y : Lsw) (f : Lsw → Lsw) : (b.putSw k y).modSw k f = b.putSw k (f y) :=
  congrArg (fun l => { b with eng := { b.eng with lsw := l } }) (modNth_modNth _ _)

theorem sw_putSw (hk : k < b.eng.lsw.length) (y : Lsw) : (b.putSw k y).sw k = y := nth_modNth_same _ hk

/-- A period start that has passed changes the one switch. -/
theorem lswRoll_eq_putSw (hk : k < b.eng.lsw.length) (at_ : Nat) :
    b.lswRoll k at_ = b.putSw k ((b.lswRoll k at_).sw k) := by
  unfold Block.lswRoll
  dsimp only
  split
  · exact (putSw_self b k).symm
  · rw [modSw_eq_putSw, sw_putSw hk]

/-- A period start leaves what the switch is doing. -/
theorem lswRoll_seq_held (hk : k < b.eng.lsw.length) (at_ : Nat) :
    ((b.lswRoll k at_).sw k).seq = (b.sw k).seq ∧ ((b.lswRoll k at_).sw k).held = (b.sw k).held := by
  unfold Block.lswRoll
  dsimp only
  split
  · exact ⟨rfl, rfl⟩
  · rw [modSw_eq_putSw, sw_putSw hk]
    split <;> exact ⟨rfl, rfl⟩

theorem lswRoll_conducts (hk : k < b.eng.lsw.length) (at_ : Nat) :
    ((b.lswRoll k at_).sw k).conducts = (b.sw k).conducts := by
  obtain ⟨hseq, hheld⟩ := lswRoll_seq_held hk at_
  unfold Lsw.conducts
  rw [hseq, hheld]

end OneSwitch

/-! ### Trips (R325) -/

section Trips

variable {b t : Block} {k flag at_ : Nat} {x y : Lsw} {more : List Nat}

/-- A trip of the switch is retried (R325). -/
def Lsw.Retries (x : Lsw) : Prop := x.set.cfg.getLsbD 1 = true ∧ x.trips < bits x.set.prot 23 20 ∧ x.held = false

theorem lswRetries_iff (b : Block) (k : Nat) : b.lswRetries k = true ↔ (b.sw k).Retries := by
  simp [Block.lswRetries, Lsw.Retries, and_assoc]

theorem lswFlt_notMem (hk : k < 16) (n : Nat) : addr .LSW_FLT k ∉ eventWords [n] := by
  simp only [eventWords, addr, desc, List.map_cons, List.map_nil, List.mem_cons, List.not_mem_nil, or_false]
  omega

/-- A switch after a trip that is not retried. -/
def Lsw.faulted (y : Lsw) (now : Nat) : Lsw :=
  { y with seq := .fault, held := false, queued := false, want := false, since := now }

/-- The arbiter without a switch. -/
def Power.without (p : Power) (k : Nat) : Power :=
  { p with waits := p.waits.filter (fun w => w.sw != k), shed := p.shed.filter (fun x => x.sw != k) }

/-- `t` is `b` with switch `k`, which was `y`, in FAULT, its flag latched, and the events `80 :: more` raised. -/
structure LswFaults (k flag at_ : Nat) (y : Lsw) (more : List Nat) (b t : Block) : Prop where
  keeps : Keeps ([.lsw, .power, .unitReqs, .hand] ++ eventParts) b t
  words : KeepsWords (addr .LSW_FLT k :: eventWords (80 :: more)) b t
  lsw : t.eng.lsw = modNth b.eng.lsw k (fun _ => y.faulted (b.now at_))
  pwr : t.eng.pwr = b.eng.pwr.without k
  flag : t.word .LSW_FLT k = b.word .LSW_FLT k ||| BitVec.ofNat 32 (2 ^ flag)
  reqs : t.vig.reqs = (b.faultUnit (unitLsw k) at_).vig.reqs
  raised : ∀ n ∈ 80 :: more, Raised n b t

/-- The block with the switch in FAULT and its unit asked FAULTED, before the event. -/
def Block.lswFaulted (b : Block) (k flag at_ : Nat) (y : Lsw) : Block :=
  (((b.putSw k (y.faulted (b.now at_))).modPwr (·.without k)).latch .LSW_FLT k flag).faultUnit (unitLsw k) at_

theorem lswFault_putSw (b : Block) (k flag at_ : Nat) (y : Lsw) :
    (b.putSw k y).lswFault k flag at_ = (b.lswFaulted k flag at_ y).raiseItems 80 1 0 [unitLsw k] at_ := by
  unfold Block.lswFault
  rw [putSw_modSw]
  rfl

theorem lswFaulted_keeps (b : Block) (k flag at_ : Nat) (y : Lsw) :
    Keeps [.lsw, .power, .unitReqs, .hand] b (b.lswFaulted k flag at_ y) :=
  ((putSw_keeps _ _ _).mono (by simp)).trans (((modPwr_keeps _ _).mono (by simp)).trans
    (((latch_keeps _ _ _ _).mono (by simp)).trans ((faultUnit_keeps _ _ _ _).mono (by simp))))

theorem lswFaulted_regs (b : Block) (k flag at_ : Nat) (y : Lsw) :
    (b.lswFaulted k flag at_ y).regs = (b.latch .LSW_FLT k flag).regs := rfl

theorem lswFaulted_words (b : Block) (k flag at_ : Nat) (y : Lsw) :
    KeepsWords [addr .LSW_FLT k] b (b.lswFaulted k flag at_ y) :=
  (latch_words b _ _ _).trans (KeepsWords.of_regs (lswFaulted_regs b k flag at_ y))

theorem lswFault_faults (hk : k < 16) (flag at_ : Nat) (b : Block) (y : Lsw) :
    LswFaults k flag at_ y [] b ((b.putSw k y).lswFault k flag at_) := by
  have hflt : addr .LSW_FLT k ∉ eventWords [80] := lswFlt_notMem hk 80
  rw [lswFault_putSw]
  exact {
    keeps := ((lswFaulted_keeps b k flag at_ y).mono (List.subset_append_left _ _)).trans
      ((raiseItems_keeps _ _ _ _ _ _ _).mono (List.subset_append_right _ _))
    words := ((lswFaulted_words b k flag at_ y).mono (by simp)).trans ((raiseItems_words _ _ _ _ _ _ _).mono (by simp))
    lsw := congrArg Engines.lsw (raiseItems_eng (b.lswFaulted k flag at_ y) ..)
    pwr := congrArg Engines.pwr (raiseItems_eng (b.lswFaulted k flag at_ y) ..)
    flag := by
      rw [raiseItems_word _ _ _ _ _ _ _ _ _ _ hflt, word_of_regs (lswFaulted_regs b k flag at_ y), word_latch_same]
    reqs := by
      rw [raiseItems_vig]
      exact faultUnit_reqs_congr rfl rfl _
    raised := by
      simp only [List.mem_singleton, forall_eq]
      exact (raiseItems_unit_raised _ 1 0 at_ (by decide) (by unfold unitLsw; omega)).of_word
        (lswFaulted_words b k flag at_ y _ (evtCnt_of_notMem hflt) _) }

/-- Event 82 after a fault of the switch. -/
theorem LswFaults.diagnosed (h : LswFaults k flag at_ y [] b t) (hk : k < 16) :
    LswFaults k flag at_ y [82] b (t.raiseItems 82 1 0 [unitLsw k] at_) where
  keeps := h.keeps.trans ((raiseItems_keeps _ _ _ _ _ _ _).mono (List.subset_append_right _ _))
  words := (h.words.mono (by simp [eventWords])).trans ((raiseItems_words _ _ _ _ _ _ _).mono (by simp [eventWords]))
  lsw := (congrArg Engines.lsw (raiseItems_eng ..)).trans h.lsw
  pwr := (congrArg Engines.pwr (raiseItems_eng ..)).trans h.pwr
  flag := (raiseItems_word _ _ _ _ _ _ _ _ _ _ (lswFlt_notMem hk 82)).trans h.flag
  reqs := (congrArg Vigil.reqs (raiseItems_vig ..)).trans h.reqs
  raised := by
    have h80 := h.raised 80 (by simp)
    have h82 := raiseItems_unit_raised t (n := 82) 1 0 at_ (by decide) (show unitLsw k < 288 by unfold unitLsw; omega)
    have hcount : addr .EVT_CNT 82 ∉ addr .LSW_FLT k :: eventWords [80] := by
      simp only [eventWords, addr, desc, List.map_cons, List.map_nil, List.mem_cons, List.not_mem_nil, or_false]
      omega
    simp only [List.mem_cons, List.not_mem_nil, or_false, forall_eq_or_imp, forall_eq]
    exact ⟨(raiseItems_word _ _ _ _ _ _ _ _ _ _ (by decide)).trans h80, h82.of_word (h.words _ hcount _)⟩

/-- A switch after a trip that is retried. -/
def Lsw.cooling (y : Lsw) (now : Nat) : Lsw := { y with seq := .cool, trips := y.trips + 1, since := now }

/-- `t` is `b` with switch `k`, which was `y`, in COOL, its flag latched, and event 81 raised unless it was lately. -/
structure LswCools (k flag at_ : Nat) (y : Lsw) (b t : Block) : Prop where
  keeps : Keeps (.lsw :: eventParts) b t
  words : KeepsWords (addr .LSW_FLT k :: eventWords [81]) b t
  lsw : t.eng.lsw = modNth b.eng.lsw k (fun _ => y.cooling (b.now at_))
  flag : t.word .LSW_FLT k = b.word .LSW_FLT k ||| BitVec.ofNat 32 (2 ^ flag)
  raised : b.evt.quiet 81 (b.now at_) = false → Raised 81 b t

/-- The block with the switch in COOL, before the event. -/
def Block.lswCooled (b : Block) (k flag at_ : Nat) (y : Lsw) : Block :=
  (b.putSw k (y.cooling (b.now at_))).latch .LSW_FLT k flag

theorem lswTrip_of_retries (hk : k < b.eng.lsw.length) (hr : y.Retries) :
    (b.putSw k y).lswTrip k flag at_ = (b.lswCooled k flag at_ y).raiseLimited 81 1 (payB 0 96 [unitLsw k]) at_ := by
  unfold Block.lswTrip
  rw [if_pos ((lswRetries_iff _ _).mpr (by rwa [sw_putSw hk])), putSw_modSw]
  rfl

theorem lswTrip_of_not_retries (hk : k < b.eng.lsw.length) (hr : ¬ y.Retries) :
    (b.putSw k y).lswTrip k flag at_ = (b.putSw k y).lswFault k flag at_ := by
  unfold Block.lswTrip
  rw [if_neg (fun h => hr (by rwa [lswRetries_iff, sw_putSw hk] at h))]

theorem lswTrip_cools (hk : k < 16) (hlen : b.eng.lsw.length = 16) (flag at_ : Nat) (hr : y.Retries) :
    LswCools k flag at_ y b ((b.putSw k y).lswTrip k flag at_) := by
  have hflt : addr .LSW_FLT k ∉ eventWords [81] := lswFlt_notMem hk 81
  have hwords : KeepsWords [addr .LSW_FLT k] b (b.lswCooled k flag at_ y) :=
    (KeepsWords.of_regs (putSw_regs (k := k) (y := y.cooling (b.now at_)))).trans (latch_words _ _ _ _)
  have hcount : (b.lswCooled k flag at_ y).word .EVT_CNT 81 = b.word .EVT_CNT 81 :=
    hwords _ (evtCnt_of_notMem hflt) _
  rw [lswTrip_of_retries (hlen ▸ hk) hr]
  exact {
    keeps := ((putSw_keeps _ _ _).mono (by simp)).trans (((latch_keeps _ _ _ _).mono (by simp)).trans
      ((raiseLimited_keeps _ _ _ _ _).mono (by simp)))
    words := (hwords.mono (by simp)).trans ((raiseLimited_words _ _ _ _ _).mono (by simp))
    lsw := congrArg Engines.lsw (raiseLimited_eng (b.lswCooled k flag at_ y) ..)
    flag := (raiseLimited_word _ _ _ _ _ _ _ _ hflt).trans (word_latch_same (b.putSw k _) _ _ _)
    raised := fun hquiet => (raiseLimited_raised (b := b.lswCooled k flag at_ y) 1 _ (by decide) hquiet).of_word hcount }

/-- Overcurrent and over-temperature are acted on (R321). -/
theorem lswTrips_putSw (hk : k < b.eng.lsw.length) (y : Lsw) :
    (b.putSw k y).lswTrips k = true ↔ y.conducts = true ∨ y.seq = .demag ∧ ¬ y.Retries := by
  have hretries : (b.putSw k y).lswRetries k = false ↔ ¬ y.Retries := by
    rw [← Bool.not_eq_true, lswRetries_iff, sw_putSw hk]
  simp [Block.lswTrips, sw_putSw hk, hretries]

end Trips

/-! ### Diagnoses that leave the switch at work (R325) -/

section Notes

variable {b : Block} {k at_ : Nat} {y : Lsw}

/-- `t` is `b` with switch `k` as it is given, `flags` latched, and event 82 raised. -/
structure LswNotes (k : Nat) (flags : Word) (y : Lsw) (b t : Block) : Prop where
  keeps : Keeps (.lsw :: eventParts) b t
  words : KeepsWords (addr .LSW_FLT k :: eventWords [82]) b t
  lsw : t.eng.lsw = modNth b.eng.lsw k (fun _ => y)
  raised : Raised 82 b t
  flag : t.word .LSW_FLT k = b.word .LSW_FLT k ||| flags

/-- Event 82 of a block in which nothing but the switch and its flags have changed. -/
theorem lswNotes_raise {c : Block} {flags : Word} (hk : k < 16) (hkeeps : Keeps [.lsw] b c)
    (hwords : KeepsWords [addr .LSW_FLT k] b c) (hlsw : c.eng.lsw = modNth b.eng.lsw k (fun _ => y))
    (hflag : c.word .LSW_FLT k = b.word .LSW_FLT k ||| flags) :
    LswNotes k flags y b (c.raiseItems 82 1 0 [unitLsw k] at_) where
  keeps := (hkeeps.mono (by simp)).trans ((raiseItems_keeps _ _ _ _ _ _ _).mono (by simp))
  words := (hwords.mono (by simp)).trans ((raiseItems_words _ _ _ _ _ _ _).mono (by simp))
  lsw := (congrArg Engines.lsw (raiseItems_eng ..)).trans hlsw
  raised := (raiseItems_unit_raised _ 1 0 at_ (by decide) (by unfold unitLsw; omega)).of_word
    (hwords _ (evtCnt_of_notMem (lswFlt_notMem hk 82)) _)
  flag := (raiseItems_word _ _ _ _ _ _ _ _ _ _ (lswFlt_notMem hk 82)).trans hflag

/-- One flag latched in a block that has the switch as it is given. -/
theorem lswNotes_latch (hk : k < 16) (flag at_ : Nat) (b : Block) (y : Lsw) :
    LswNotes k (BitVec.ofNat 32 (2 ^ flag)) y b
      (((b.putSw k y).latch .LSW_FLT k flag).raiseItems 82 1 0 [unitLsw k] at_) :=
  lswNotes_raise hk ((putSw_keeps b k y).trans ((latch_keeps _ _ _ _).mono (by simp)))
    ((KeepsWords.of_regs rfl).trans (latch_words (b.putSw k y) _ _ _)) rfl (word_latch_same (b.putSw k y) _ _ _)

/-- Open load and short to battery latched together. -/
theorem lswNotes_latch_both (hk : k < 16) (at_ : Nat) (b : Block) :
    LswNotes k 24 (b.sw k) b
      (((b.latch .LSW_FLT k 3).latch .LSW_FLT k 4).raiseItems 82 1 0 [unitLsw k] at_) := by
  refine lswNotes_raise hk (((latch_keeps b _ _ _).trans (latch_keeps _ _ _ _)).mono (by simp))
    ((latch_words b _ _ _).trans (latch_words _ _ _ _)) (modNth_self b.eng.lsw k {}).symm ?_
  rw [word_latch_same, word_latch_same, BitVec.or_assoc]
  rfl

end Notes

/-! ### What the commands do -/

section Commands

variable {s : State} {k : Fin 16} {ma ns at_ : Nat} {x : Lsw}

theorem does_lswFaults {i : Instr} {flag : Nat} {y : Lsw} {more : List Nat} {t : Block}
    (e : LswFaults k flag at_ y more s.blk t) (hexec : exec i s = .next { s with blk := t }) :
    Does i s ([BlockPart.lsw, BlockPart.power, BlockPart.unitReqs, BlockPart.hand] ++ eventParts)
      (addr .LSW_FLT k :: eventWords (80 :: more)) (fun t =>
        t.eng.lsw = modNth s.blk.eng.lsw k (fun _ =>
            { y with seq := .fault, held := false, queued := false, want := false, since := s.blk.now at_ })
          ∧ t.eng.pwr = { s.blk.eng.pwr with waits := s.blk.eng.pwr.waits.filter (fun w => w.sw != k.val)
                                             shed := s.blk.eng.pwr.shed.filter (fun x => x.sw != k.val) }
          ∧ t.word .LSW_FLT k = s.blk.word .LSW_FLT k ||| BitVec.ofNat 32 (2 ^ flag)
          ∧ t.vig.reqs = (s.blk.faultUnit (unitLsw k) at_).vig.reqs ∧ ∀ n ∈ 80 :: more, Raised n s.blk t) :=
  ⟨t, hexec, e.keeps, e.words, e.lsw, e.pwr, e.flag, e.reqs, e.raised⟩

theorem does_lswCools {i : Instr} {flag : Nat} {y : Lsw} {t : Block}
    (e : LswCools k flag at_ y s.blk t) (hexec : exec i s = .next { s with blk := t }) :
    Does i s (.lsw :: eventParts) (addr .LSW_FLT k :: eventWords [81]) (fun t =>
        t.eng.lsw = modNth s.blk.eng.lsw k (fun _ =>
            { y with seq := .cool, trips := y.trips + 1, since := s.blk.now at_ })
          ∧ t.word .LSW_FLT k = s.blk.word .LSW_FLT k ||| BitVec.ofNat 32 (2 ^ flag)
          ∧ (s.blk.evt.quiet 81 (s.blk.now at_) = false → Raised 81 s.blk t)) :=
  ⟨t, hexec, e.keeps, e.words, e.lsw, e.flag, e.raised⟩

theorem does_lswNotes {i : Instr} {flags : Word} {y : Lsw} {t : Block}
    (e : LswNotes k flags y s.blk t) (hexec : exec i s = .next { s with blk := t }) :
    Does i s (.lsw :: eventParts) (addr .LSW_FLT k :: eventWords [82]) (fun t =>
        t.eng.lsw = modNth s.blk.eng.lsw k (fun _ => y) ∧ Raised 82 s.blk t
          ∧ t.word .LSW_FLT k = s.blk.word .LSW_FLT k ||| flags) :=
  ⟨t, hexec, e.keeps, e.words, e.lsw, e.raised, e.flag⟩

theorem exec_lsOvercurrent (hk : k < s.blk.eng.lsw.length) (hx : s.blk.lswRoll k at_ = s.blk.putSw k x)
    (htrips : x.conducts = true ∨ x.seq = .demag ∧ ¬ x.Retries) (hma : x.limitMa < ma)
    (hns : bits x.set.prot 19 16 * 1000 ≤ ns) :
    exec (.lsOvercurrent k ma ns at_) s = .next { s with blk := (s.blk.putSw k x).lswTrip k 1 at_ } := by
  show execLsOvercurrent k ma ns at_ s = _
  simp only [execLsOvercurrent, lift, hx]
  exact next_if_pos ⟨(lswTrips_putSw hk x).mpr htrips, by rwa [sw_putSw hk], by rwa [sw_putSw hk]⟩

theorem exec_lsThermal (hk : k < s.blk.eng.lsw.length) (hx : s.blk.lswRoll k at_ = s.blk.putSw k x)
    {tj : Int} (htrips : x.conducts = true ∨ x.seq = .demag ∧ ¬ x.Retries) (htj : 1700 < tj) :
    exec (.lsThermal k tj at_) s = .next { s with blk := (s.blk.putSw k { x with tj := tj }).lswTrip k 2 at_ } := by
  show execLsThermal k tj at_ s = _
  simp only [execLsThermal, lift, hx, putSw_modSw]
  exact next_if_pos ⟨(lswTrips_putSw hk { x with tj := tj }).mpr htrips, htj⟩

theorem exec_lsShort (hstate : (s.blk.sw k).conducts = true ∨ (s.blk.sw k).seq = .demag) (hma : 25000 ≤ ma)
    (hns : 2000 ≤ ns) :
    exec (.lsShort k ma ns at_) s
      = .next { s with blk := (s.blk.putSw k (s.blk.sw k)).lswFault k 0 at_ } := by
  rw [putSw_self]
  show execLsShort k ma ns at_ s = _
  exact next_if_pos ⟨hstate.imp_right Or.inl, hma, hns⟩

/-- LS_OPEN_LOAD_ON of a switch for which it holds. -/
theorem exec_lsOpenLoadOn (hk : k < s.blk.eng.lsw.length) (hx : s.blk.lswRoll k at_ = s.blk.putSw k x)
    (hon : x.conducts = true) (hheld : x.held = false) (hd : 100 ≤ x.d) (hma : ma < bits x.set.prot 8 0 * 2)
    (hns : 100000000 ≤ ns) (hvpwr : s.blk.vpwrPresent = true) :
    exec (.lsOpenLoadOn k ma ns at_) s = .next { s with
      blk := (if x.set.cfg.getLsbD 2 then (s.blk.putSw k x).lswFault k 3 at_
        else (s.blk.putSw k x).latch .LSW_FLT k 3).raiseItems 82 1 0 [unitLsw k] at_ } := by
  have hv : (s.blk.putSw k x).vpwrPresent = true := hvpwr
  show execLsOpenLoadOn k ma ns at_ s = _
  simp only [execLsOpenLoadOn, lift, hx, sw_putSw hk, hon, hheld, hd, hma, hns, hv, Bool.not_false, and_self, if_true]
  split <;> rfl

/-- What an off-state test leaves: the flags of what it found, and the event. -/
def Block.lswFound (b : Block) (k at_ : Nat) (openLoad shortBat : Bool) : Block :=
  let b1 := if openLoad then b.latch .LSW_FLT k 3 else b
  let b2 := if shortBat then b1.latch .LSW_FLT k 4 else b1
  if openLoad || shortBat then b2.raiseItems 82 1 0 [unitLsw k] at_ else b2

/-- LS_OFF_STATE_TEST of a switch that is off. -/
theorem exec_lsOffStateTest (hseq : (s.blk.sw k).seq = .quiet) (hheld : (s.blk.sw k).held = false)
    (hvpwr : s.blk.vpwrPresent = true) (pulledMv freeMv : Nat) :
    exec (.lsOffStateTest k pulledMv ns freeMv at_) s = .next { s with
      blk := s.blk.lswFound k at_ (decide (3000 < pulledMv) && decide (10000000 ≤ ns)) (decide (6000 < freeMv)) } := by
  show execLsOffStateTest k pulledMv ns freeMv at_ s = _
  exact next_if_pos ⟨hseq, by rw [hheld]; rfl, hvpwr⟩

end Commands

/-- Settles O38: each command of the section is a trip, a fault or a note of the switch that its period has brought up
    to date. -/
theorem loadSwitchTripsAndDiagnoses : Obligations.LoadSwitchTripsAndDiagnoses := by
  intro s k ma ns at_ hsound
  have hlen : s.blk.eng.lsw.length = 16 := Block.Sound.lsw_length hsound
  have hk : k.val < s.blk.eng.lsw.length := by rw [hlen]; exact k.isLt
  have hroll := lswRoll_eq_putSw hk at_
  obtain ⟨hseq0, -⟩ := lswRoll_seq_held hk at_
  have hconducts0 := lswRoll_conducts hk at_
  have hfault (flag : Nat) (y : Lsw) := lswFault_faults k.isLt flag at_ s.blk y
  intro b x x0 p now cools faults notes retries
  refine ⟨fun hdemag => ⟨fun hretries => ⟨fun hma hns => ?_, fun tj htj => ?_⟩, fun hma hns => ?_⟩,
    fun hon => ⟨fun hma hns => ⟨fun hr => ?_, fun hr => ?_⟩, fun tj htj => ⟨fun hr => ?_, fun hr => ?_⟩,
      fun hma hns => ?_, fun hheld hd hma hns hvpwr => ⟨fun hact => ?_, fun hact => ?_⟩⟩,
    fun hquiet hheld hvpwr pulledMv freeMv => ?_⟩
  · refine does_lswFaults (hfault 1 x) ?_
    rw [exec_lsOvercurrent hk hroll (.inr ⟨hdemag, hretries⟩) hma hns, lswTrip_of_not_retries hk hretries]
  · refine does_lswFaults (hfault 2 { x with tj := tj }) ?_
    rw [exec_lsThermal hk hroll (.inr ⟨hdemag, hretries⟩) htj, lswTrip_of_not_retries (y := { x with tj := tj }) hk hretries]
  · exact does_lswFaults (hfault 0 x0) (exec_lsShort (.inr (hseq0.symm.trans hdemag)) hma hns)
  · exact does_lswCools (lswTrip_cools k.isLt hlen 1 at_ hr) (exec_lsOvercurrent hk hroll (.inl hon) hma hns)
  · refine does_lswFaults (hfault 1 x) ?_
    rw [exec_lsOvercurrent hk hroll (.inl hon) hma hns, lswTrip_of_not_retries hk hr]
  · exact does_lswCools (lswTrip_cools (y := { x with tj := tj }) k.isLt hlen 2 at_ hr) (exec_lsThermal hk hroll (.inl hon) htj)
  · refine does_lswFaults (hfault 2 { x with tj := tj }) ?_
    rw [exec_lsThermal hk hroll (.inl hon) htj, lswTrip_of_not_retries (y := { x with tj := tj }) hk hr]
  · exact does_lswFaults (hfault 0 x0) (exec_lsShort (.inl (hconducts0.symm.trans hon)) hma hns)
  · refine does_lswFaults ((hfault 3 x).diagnosed k.isLt) ?_
    rw [exec_lsOpenLoadOn hk hroll hon hheld hd hma hns hvpwr, if_pos hact]
  · refine does_lswNotes (lswNotes_latch k.isLt 3 at_ b x) ?_
    rw [exec_lsOpenLoadOn hk hroll hon hheld hd hma hns hvpwr, if_neg (by rw [hact]; exact Bool.false_ne_true)]
  · have hexec := exec_lsOffStateTest (ns := ns) (at_ := at_) hquiet hheld hvpwr pulledMv freeMv
    refine ⟨fun hpulled hlong hfree => ?_, fun hpulled hfree => ?_, fun hpulled hlong hfree => ?_, fun hpulled hfree => ?_⟩
    · refine does_lswNotes (lswNotes_latch k.isLt 3 at_ b x0) ?_
      rw [hexec, putSw_self]
      simp [Block.lswFound, hpulled, hlong, Nat.not_lt.mpr hfree, b]
    · refine does_lswNotes (lswNotes_latch k.isLt 4 at_ b x0) ?_
      rw [hexec, putSw_self]
      simp [Block.lswFound, hfree, Nat.not_lt.mpr hpulled, b]
    · refine does_lswNotes (lswNotes_latch_both k.isLt at_ b) ?_
      rw [hexec]
      simp [Block.lswFound, hpulled, hlong, hfree, b]
    · refine does_nothing ?_
      rw [hexec]
      simp [Block.lswFound, Nat.not_lt.mpr hfree, Nat.not_lt.mpr hpulled]

end Sys2Proof.Machine

/-! PROOFS. Requests (12) and the Diary (15): a fence of the other session, a kept ACCEPTED, a merged record. -/

namespace Sys2Proof.Machine

open Sys2Proof (Word Byte Bytes Sess Hdr Instr)

/-! ### A COMPLETION fence completes a fence of the other session (R356) -/

theorem fenceDue_sound : State.Sound { blk := fenceDue } := by
  unfold State.Sound Block.Sound
  decide +kernel

theorem fenceDue_served_fence : Served fenceDue mainHdr .main fenceRow where
  reachable := by decide +kernel
  session := by decide +kernel
  single := rfl
  running := rfl
  fresh := by decide +kernel
  noRepeat := by decide +kernel
  permitted := by decide +kernel
  queueEmpty := by decide +kernel
  length := by decide +kernel
  notHeld := by decide +kernel
  room := by decide +kernel

/-- A COMPLETION fence of MAIN leaves nothing in progress, while the fence of SERVICE was. -/
theorem fenceDue_fence_progress :
    fenceDue.link.progress.length = 1
    ∧ (dispatchFence mainHdr (.earlier false) .main fenceDue.link.arrivals (fenceDue.now mainHdr.at_)
        (fenceDue.taken .main mainHdr)).fences.link.progress = [] := by
  decide +kernel

/-- Refutes O42: a COMPLETION fence does not leave what is in progress as it was. In the state `fenceDue` the fence of
    MAIN brings that of SERVICE, which is due, to its end with it. -/
theorem not_requestsOfTheProtocol : ¬ Obligations.RequestsOfTheProtocol := by
  intro h
  obtain ⟨-, -, -, -, hfence, -⟩ := h { blk := fenceDue } mainHdr .main fenceDue_sound
  obtain ⟨⟨t, ht, -, -, -, hprogress⟩, -⟩ := hfence fenceDue_served_fence rfl (by decide +kernel)
  have hstate := blk_eq_of_exec (exec_served _ _ _ _ _ _ rfl rfl fenceDue_served_fence) ht
  have hsame : t.link.progress = fenceDue.link.progress := hprogress
  obtain ⟨hbefore, hafter⟩ := fenceDue_fence_progress
  rw [hstate, hsame] at hafter
  rw [hafter] at hbefore
  exact absurd hbefore (by decide)

/-! ### The ACCEPTED of a SESSION_CLOSE is kept (R339, R352) -/

/-- A V96-F at work with the session of MAIN open and nothing in progress. -/
def mainOpen : Block :=
  { fenceDue with link := { fenceDue.link with progress := [] } }

/-- A SESSION_CLOSE of MAIN that allows ACCEPTED. -/
def closeHdr : Hdr := { session := 7, addr := 1, port := 9, asyncOk := true }

theorem mainOpen_sound : State.Sound { blk := mainOpen } := by
  unfold State.Sound Block.Sound
  decide +kernel

theorem mainOpen_served_close : Served mainOpen closeHdr .main sessionCloseRow where
  reachable := by decide +kernel
  session := by decide +kernel
  single := rfl
  running := rfl
  fresh := by decide +kernel
  noRepeat := by decide +kernel
  permitted := by decide +kernel
  queueEmpty := by decide +kernel
  length := by decide +kernel
  notHeld := by decide +kernel
  room := by decide +kernel

/-- The block that the SESSION_CLOSE leaves. -/
def mainClosed : Block :=
  (dispatchSessionClose closeHdr .main mainOpen.link.arrivals (mainOpen.now closeHdr.at_)
    (mainOpen.taken .main closeHdr)).fences

/-- The session that has ended keeps the ACCEPTED of its SESSION_CLOSE. -/
theorem mainClosed_replies : mainClosed.link.main.replies.length = 1 := by decide +kernel

/-- Refutes O41: what a SESSION_CLOSE leaves has a kept reply. In the state `mainOpen` the request allows ACCEPTED,
    which is sent at its dispatch and kept after the kept replies of the session are withdrawn. -/
theorem not_sessionsEnd : ¬ Obligations.SessionsEnd := by
  intro h
  obtain ⟨-, hrequests⟩ := h { blk := mainOpen } closeHdr .main mainOpen_sound
  obtain ⟨hclose, -⟩ := hrequests rfl
  obtain ⟨t, ht, -, -, ⟨-, -, -, -, -, hreplies, -⟩, -⟩ := hclose mainOpen_served_close
  have hexec := blk_eq_of_exec (exec_served _ _ _ _ _ _ rfl rfl mainOpen_served_close) ht
  have hstate : t = mainClosed := by rw [← hexec, mainClosed]
  have hnone : t.link.main.replies = [] := hreplies
  have hone := mainClosed_replies
  rw [← hstate, hnone] at hone
  exact absurd hone (by decide)

/-! ### The event of a freeze that ends merges into the record of the one before (R438, R442) -/

/-- A Diary frozen by MAIN for 1 s, whose newest record is event 123 of an earlier freeze that timed out. -/
def frozenAfterThaw : Block :=
  { regs := [(addr .EVT_CFG 123, 0x21), (addr .DIARY_CFG, 0x50000)]
    diary := { ring := [{ seq := 0, occ := { src := 123, code := 1, payload := (payS 1).bytes, keyLen := 16 } }]
               next := 1
               newest := .ring
               freeze := some { by_ := .main, since := 0, timeoutS := 1 } } }

/-- The instant at which the freeze of `frozenAfterThaw` has lasted its second. -/
def secondLater : Nat := 1000000000

theorem exec_freezeTimeout {s : State} {f : Freeze} {at_ : Nat} (hf : s.blk.diary.freeze = some f)
    (hdue : f.since + f.timeoutS * 1000000000 ≤ s.blk.now at_) :
    exec (.freezeTimeout at_) s = .next { s with blk := s.blk.thaw (some 1) at_ } := by
  show execFreezeTimeout at_ s = _
  simp only [execFreezeTimeout, lift, hf, if_pos hdue]

/-- The event counts in the record that the ring already holds. -/
theorem frozenAfterThaw_merges :
    (frozenAfterThaw.thaw (some 1) secondLater).diary.ring.map (·.occ.repeats) = [1]
    ∧ frozenAfterThaw.diary.ring.map (·.occ.repeats) = [0] := by
  decide +kernel

/-- Refutes O57: a freeze that times out does not leave the ring as it was. In the state `frozenAfterThaw` event 123
    repeats the newest record, in the ring, within the merge time: the record counts the repeat. -/
theorem not_diaryRequests : ¬ Obligations.DiaryRequests := by
  intro h
  have hdue : (0 : Nat) + 1 * 1000000000 ≤ frozenAfterThaw.now secondLater := by decide +kernel
  obtain ⟨-, -, htimeout, -⟩ := h { blk := frozenAfterThaw } { at_ := secondLater } .main
  obtain ⟨t, ht, -, -, -, hring, -⟩ := htimeout _ rfl hdue
  have hstate := blk_eq_of_exec (exec_freezeTimeout rfl hdue) ht
  have hsame : t.diary.ring = frozenAfterThaw.diary.ring := hring
  obtain ⟨hafter, hbefore⟩ := frozenAfterThaw_merges
  rw [hstate, hsame, hbefore] at hafter
  exact absurd hafter (by decide)

end Sys2Proof.Machine

/-! PROOFS. The CAN controllers (12): the address of CAN_M. -/

namespace Sys2Proof.Machine

open Sys2Proof (Word Byte Bytes Sess Hdr Instr)

/-! ### Changes of the controllers -/

/-- A change of the controllers that leaves the trouble codes. -/
theorem modCan_keeps {b : Block} {f : Can → Can}
    (hcodes : (f b.can).active = b.can.active ∧ (f b.can).previous = b.can.previous
      ∧ (f b.can).newCode = b.can.newCode) : Keeps [.can] b (b.modCan f) := by
  intro q hq
  cases q <;> simp_all [BlockPart.same, sessSame, Block.modCan]

/-- A command that changes the controllers alone. -/
theorem does_modCan {i : Instr} {s : State} {f : Can → Can} {P : Block → Prop}
    (hexec : exec i s = .next { s with blk := s.blk.modCan f })
    (hcodes : (f s.blk.can).active = s.blk.can.active ∧ (f s.blk.can).previous = s.blk.can.previous
      ∧ (f s.blk.can).newCode = s.blk.can.newCode) (hP : P (s.blk.modCan f)) : Does i s [.can] [] P :=
  ⟨_, hexec, modCan_keeps hcodes, KeepsWords.of_regs rfl, hP⟩

/-! ### The claim of an address (R367) -/

/-- An address claimed message, or a cannot-claim, with the NAME. -/
def claimMsg (name : Nat) (src : Byte) : CanMsg := { pgn := 60928, src := src, dst := 0xFF, data := leBytes 8 name }

/-- The controllers after the claim of an address from `a` on. -/
def Can.claims (c : Can) (name now a : Nat) : Can :=
  match freeAddress c.taken 121 a with
  | some x => { c with claim := .claiming, sa := x, claimedAt := now, sent := c.sent ++ [claimMsg name x] }
  | none => { c with claim := .cannotClaim, sa := 0xFE, sent := c.sent ++ [claimMsg name 254] }

section Claims

variable {b : Block} {c : Can} {name now a : Nat}

theorem claims_some {x : Byte} (hx : freeAddress c.taken 121 a = some x) :
    c.claims name now a
      = { c with claim := .claiming, sa := x, claimedAt := now, sent := c.sent ++ [claimMsg name x] } := by
  simp only [Can.claims, hx]

theorem claims_none (hx : freeAddress c.taken 121 a = none) :
    c.claims name now a = { c with claim := .cannotClaim, sa := 0xFE, sent := c.sent ++ [claimMsg name 254] } := by
  simp only [Can.claims, hx]

/-- A claim leaves the trouble codes. -/
theorem claims_codes (c : Can) (name now a : Nat) : (c.claims name now a).active = c.active
    ∧ (c.claims name now a).previous = c.previous ∧ (c.claims name now a).newCode = c.newCode := by
  unfold Can.claims
  split <;> exact ⟨rfl, rfl, rfl⟩

theorem claimFrom_eq (b : Block) (a : Nat) : b.claimFrom a = b.modCan (fun c => c.claims b.canName b.time.now a) := by
  unfold Block.claimFrom Block.modCan
  cases hx : freeAddress b.can.taken 121 a with
  | some x => simp only [claims_some hx]; rfl
  | none => simp only [claims_none hx]; rfl

theorem sendClaim_eq (b : Block) : b.sendClaim = b.modCan (fun c => { c with
    sent := c.sent ++ [claimMsg b.canName (if b.can.claim = .cannotClaim then 254 else b.can.sa)] }) := rfl

/-- What a claim of an address is said to leave. -/
def Claims (x : Can) (name now from_ : Nat) (t : Block) : Prop :=
  (∀ a, freeAddress x.taken 121 from_ = some a → t.can = { x with
      claim := .claiming, sa := a, claimedAt := now, sent := x.sent ++ [claimMsg name a] })
  ∧ (freeAddress x.taken 121 from_ = none → t.can = { x with
      claim := .cannotClaim, sa := 0xFE, sent := x.sent ++ [claimMsg name 254] })

theorem claims_of_eq {t : Block} (h : t.can = c.claims name now a) : Claims c name now a t :=
  ⟨fun _ hx => h.trans (claims_some hx), fun hx => h.trans (claims_none hx)⟩

/-- The NAME does not depend on the counts of CAN_M. -/
theorem canName_count (b : Block) : (b.count .CANB_CNT 0 7 0).canName = b.canName := by
  have hword : (b.count .CANB_CNT 0 7 0).word .CANB_NAME_HI = b.word .CANB_NAME_HI :=
    count_words b .CANB_CNT 0 7 0 1 (addr .CANB_NAME_HI) (by decide) _
  unfold Block.canName
  rw [hword]
  rfl

end Claims

/-! ### The commands of the address -/

section Address

variable {s : State} {other : Byte} {name : BitVec 64} {at_ : Nat}

theorem exec_canAddressClaim (hon : s.blk.canOn = true) (hclaim : s.blk.can.claim = .claiming)
    (hsa : s.blk.can.sa = 0xFE) :
    exec .canAddressClaim s = .next { s with blk := s.blk.claimFrom (s.blk.fld .CANB_CFG 0 23 16) } := by
  show execCanAddressClaim s = _
  exact next_if_pos ⟨hon, hclaim, hsa⟩

/-- The controllers as they rejoin the bus. -/
def Can.rejoins (c : Can) : Can := { c with claim := .claiming, sa := 0xFE, tec := 0, rec_ := 0 }

theorem exec_busoffRecovery (hclaim : s.blk.can.claim = .busOff) (hcfg : s.blk.flag .CANB_CFG 0 0 = true)
    (hticking : s.blk.ticking = true) (hclock : s.blk.vig.clockFault = false)
    (hrun : s.blk.upd.recovery = false) :
    exec .busoffRecovery s = .next { s with
      blk := (s.blk.modCan (·.rejoins)).claimFrom (s.blk.fld .CANB_CFG 0 23 16) } := by
  have hon : (s.blk.modCan (·.rejoins)).canOn = true := by
    show (s.blk.flag .CANB_CFG 0 0 && true && s.blk.ticking && !s.blk.vig.clockFault && !s.blk.upd.recovery) = true
    simp [hcfg, hticking, hclock, hrun]
  show execBusoffRecovery s = _
  exact (next_if_pos hclaim).trans (next_if_pos hon)

/-- The controllers with an address noted as taken by another node. -/
def Can.notes (c : Can) (other : Byte) : Can := { c with taken := other :: c.taken.filter (fun x => x != other) }

/-- Another node claims an address that the V96 does not hold. -/
theorem exec_addressContention_other (hon : s.blk.canOn = true)
    (hother : ¬ (s.blk.can.claim = .claiming ∨ s.blk.can.claim = .claimed) ∨ other ≠ s.blk.can.sa) :
    exec (.addressContention other name) s = .next { s with blk := s.blk.modCan (·.notes other) } := by
  have hmine : ¬ ((s.blk.can.claim = .claiming ∨ s.blk.can.claim = .claimed) ∧ other = s.blk.can.sa) := by
    rwa [not_and_or]
  show execAddressContention other name s = _
  simp only [execAddressContention, lift, hon, hmine, false_and, Bool.not_true, Bool.false_eq_true, if_false]
  rfl

/-- Another node with a higher NAME claims the address of the V96. -/
theorem exec_addressContention_keeps (hon : s.blk.canOn = true)
    (hclaim : s.blk.can.claim = .claiming ∨ s.blk.can.claim = .claimed) (hsa : other = s.blk.can.sa)
    (hname : s.blk.canName < name.toNat) :
    exec (.addressContention other name) s = .next { s with blk := s.blk.sendClaim } := by
  show execAddressContention other name s = _
  simp only [execAddressContention, lift, hon, Bool.not_true, Bool.false_eq_true, if_false]
  exact next_if_pos ⟨⟨hclaim, hsa⟩, hname⟩

/-- Another node with a NAME as low or lower claims the address of the V96, which claims the next. -/
theorem exec_addressContention_yields (hon : s.blk.canOn = true)
    (hclaim : s.blk.can.claim = .claiming ∨ s.blk.can.claim = .claimed) (hsa : other = s.blk.can.sa)
    (hname : name.toNat ≤ s.blk.canName) :
    exec (.addressContention other name) s = .next { s with
      blk := ((s.blk.modCan (·.notes other)).count .CANB_CNT 0 7 0).claimFrom (other.toNat + 1) } := by
  have hmine : (s.blk.can.claim = .claiming ∨ s.blk.can.claim = .claimed) ∧ other = s.blk.can.sa := ⟨hclaim, hsa⟩
  show execAddressContention other name s = _
  simp only [execAddressContention, lift, hon, hmine, Nat.not_lt.mpr hname, and_false, and_self, Bool.not_true,
    Bool.false_eq_true, if_false, if_true]
  rfl

/-- The V96 repeats its claim, with the address in use. -/
theorem does_sendClaim {i : Instr} {src : Byte} (hexec : exec i s = .next { s with blk := s.blk.sendClaim })
    (hsrc : (if s.blk.can.claim = .cannotClaim then 254 else s.blk.can.sa) = src) :
    Does i s [.can] [] (fun t => t.can = { s.blk.can with sent := s.blk.can.sent ++ [claimMsg s.blk.canName src] }) := by
  subst hsrc
  rw [sendClaim_eq] at hexec
  exact does_modCan hexec ⟨rfl, rfl, rfl⟩ rfl

/-- The V96 claims an address, the controllers changed before. -/
theorem does_claimFrom {i : Instr} {f : Can → Can} {a : Nat}
    (hexec : exec i s = .next { s with blk := (s.blk.modCan f).claimFrom a })
    (hcodes : (f s.blk.can).active = s.blk.can.active ∧ (f s.blk.can).previous = s.blk.can.previous
      ∧ (f s.blk.can).newCode = s.blk.can.newCode) :
    Does i s [.can] [] (Claims (f s.blk.can) s.blk.canName s.blk.time.now a) := by
  rw [claimFrom_eq] at hexec
  obtain ⟨hactive, hprevious, hnew⟩ := claims_codes (f s.blk.can) s.blk.canName s.blk.time.now a
  exact does_modCan (f := fun c => (f c).claims s.blk.canName s.blk.time.now a) hexec
    ⟨hactive.trans hcodes.1, hprevious.trans hcodes.2.1, hnew.trans hcodes.2.2⟩ (claims_of_eq rfl)

/-- The V96 yields its address: counted, and the next one claimed. -/
theorem does_yields {i : Instr} {a : Nat}
    (hexec : exec i s = .next { s with blk := ((s.blk.modCan (·.notes other)).count .CANB_CNT 0 7 0).claimFrom a }) :
    Does i s [.can] [addr .CANB_CNT] (fun t => Claims (s.blk.can.notes other) s.blk.canName s.blk.time.now a t
      ∧ t.fld .CANB_CNT 0 7 0 = min (s.blk.fld .CANB_CNT 0 7 0 + 1) 255) := by
  rw [claimFrom_eq, canName_count] at hexec
  refine ⟨_, hexec, ?_, ?_, claims_of_eq rfl, ?_⟩
  · exact ((modCan_keeps (f := (·.notes other)) ⟨rfl, rfl, rfl⟩).trans ((count_keeps _ _ _ _ _ _).mono (by simp))).trans
      (modCan_keeps (claims_codes _ _ _ _))
  · exact (KeepsWords.of_regs (modCan_regs _ _)).trans ((count_words _ _ _ _ _ _).trans (KeepsWords.of_regs rfl))
  · exact fld_count_same (s.blk.modCan (·.notes other)) .CANB_CNT 0 1 (by decide)

theorem exec_addressClaimRequest (hon : s.blk.canOn = true)
    (hsa : s.blk.can.sa ≠ 0xFE ∨ s.blk.can.claim = .cannotClaim) :
    exec (.addressClaimRequest other) s = .next { s with blk := s.blk.sendClaim } := by
  show execAddressClaimRequest other s = _
  exact next_if_pos ⟨hon, hsa⟩

theorem exec_addressClaimed (hon : s.blk.canOn = true) (hclaim : s.blk.can.claim = .claiming)
    (hsa : s.blk.can.sa ≠ 0xFE) (hdue : s.blk.can.claimedAt + 250000000 ≤ s.blk.now at_) :
    exec (.addressClaimed at_) s = .next { s with blk := s.blk.modCan (fun c => { c with claim := .claimed }) } := by
  show execAddressClaimed at_ s = _
  exact next_if_pos ⟨hon, hclaim, hsa, hdue⟩

/-- The block that a bus-off leaves, before its event. -/
def Block.offBus (b : Block) : Block :=
  (b.modCan (fun c => { c with claim := .busOff, sa := 0xFE, transfers := [], outgoing := [], tec := 255 })).count
    .CANB_CNT 0 15 8

theorem exec_canBusoff (hon : s.blk.canOn = true) :
    exec .canBusoff s = .next { s with blk := s.blk.offBus.raise 10 1 payZ } := by
  show execCanBusoff s = _
  simp only [execCanBusoff, lift, hon, Bool.not_true, Bool.false_eq_true, if_false]
  rfl

theorem does_canBusoff (hon : s.blk.canOn = true) :
    Does .canBusoff s (.can :: eventParts) (addr .CANB_CNT :: eventWords [10]) (fun t =>
      t.can.claim = .busOff ∧ t.can.sa = 0xFE ∧ t.can.transfers = [] ∧ t.can.outgoing = [] ∧ t.can.tec = 255
        ∧ t.can.sent = s.blk.can.sent
        ∧ t.fld .CANB_CNT 0 15 8 = min (s.blk.fld .CANB_CNT 0 15 8 + 1) 255 ∧ Raised 10 s.blk t) := by
  have hwords : KeepsWords [addr .CANB_CNT] s.blk s.blk.offBus :=
    (KeepsWords.of_regs (modCan_regs _ _)).trans (count_words _ _ _ _ _ _)
  have hcount : s.blk.offBus.word .EVT_CNT 10 = s.blk.word .EVT_CNT 10 := hwords (addr .EVT_CNT 10) (by decide) _
  have hoff : s.blk.offBus.fld .CANB_CNT 0 15 8 = min (s.blk.fld .CANB_CNT 0 15 8 + 1) 255 :=
    fld_count_same _ .CANB_CNT 0 1 (by decide)
  refine ⟨_, exec_canBusoff hon, ?_, ?_, ?_⟩
  · exact ((modCan_keeps (b := s.blk) ⟨rfl, rfl, rfl⟩).mono (by simp)).trans
      (((count_keeps _ _ _ _ _ _).mono (by simp)).trans ((raise_keeps _ _ _ _ _ _).mono (by simp)))
  · exact (hwords.mono (by simp)).trans ((raise_words _ _ _ _ _ _).mono (by simp))
  · refine ⟨raise_can_claim .., raise_can_sa .., raise_can_transfers .., raise_can_outgoing .., raise_can_tec ..,
      raise_can_sent .., ?_, (raise_raised s.blk.offBus 10 1 payZ 0 false (by decide)).of_word hcount⟩
    rw [fld_congr 15 8 (raise_words s.blk.offBus 10 1 payZ 0 false (addr .CANB_CNT) (by decide) _), hoff]

end Address

/-- Settles O44: each command of the address changes CAN_M as its own lemma says. -/
theorem addressOnTheManagementBus : Obligations.AddressOnTheManagementBus := by
  intro s at_ b c pref sends claims inUse
  refine ⟨fun hon hclaim hsa => ?_, fun hclaim hcfg hticking hclock hrun => ?_,
    fun hon other name => ⟨fun hother => ?_, fun hclaim hsa => ⟨fun hname => ?_, fun hname => ?_⟩, fun hsa => ?_⟩,
    fun hon hclaim hsa hdue => ?_, does_canBusoff⟩
  · exact does_claimFrom (f := id) (exec_canAddressClaim hon hclaim hsa) ⟨rfl, rfl, rfl⟩
  · exact does_claimFrom (exec_busoffRecovery hclaim hcfg hticking hclock hrun) ⟨rfl, rfl, rfl⟩
  · exact does_modCan (exec_addressContention_other hon hother) ⟨rfl, rfl, rfl⟩ rfl
  · refine does_sendClaim (exec_addressContention_keeps hon hclaim hsa hname) (if_neg fun hcannot => ?_)
    rcases hclaim with h | h <;> exact absurd (h.symm.trans hcannot) (by decide)
  · exact does_yields (exec_addressContention_yields hon hclaim hsa hname)
  · exact does_sendClaim (exec_addressClaimRequest hon hsa) rfl
  · exact does_modCan (exec_addressClaimed hon hclaim hsa hdue) ⟨rfl, rfl, rfl⟩ rfl

end Sys2Proof.Machine

/-! PROOFS. The CAN controllers (12): frames of the transport protocol, and the frames of CAN_S. -/

namespace Sys2Proof.Machine

open Sys2Proof (Word Byte Bytes Sess Hdr Instr)

/-! ### Messages of one frame (R366) -/

theorem leBytes_length (n v : Nat) : (leBytes n v).length = n := by
  induction n generalizing v with
  | zero => rfl
  | succ n ih => simp [leBytes, ih]

/-- A frame sent from an address. -/
def frameFrom (src : Byte) (pgn : Nat) (dst : Byte) (data : Bytes) : CanMsg :=
  { pgn := pgn, src := src, dst := dst, data := data }

/-- The controllers with messages put on CAN_M. -/
def Can.sends (c : Can) (ms : List CanMsg) : Can := { c with sent := c.sent ++ ms }

theorem sends_unless (c : Can) (p : Bool) (ms : List CanMsg) :
    c.sends (if p then [] else ms) = { c with sent := if p then c.sent else c.sent ++ ms } := by
  cases p
  · rfl
  · exact congrArg (fun l => { c with sent := l }) (List.append_nil _)

section Messages

variable {b : Block} {source dest : Byte} {pgn : Nat}

/-- Up to 8 bytes go in one frame. -/
theorem canSend_frame (hon : b.canOn = true) (hclaim : b.can.claim = .claimed) {data : Bytes} (hlen : data.length ≤ 8) :
    b.canSend pgn dest data = b.modCan (·.sends [frameFrom b.can.sa pgn dest data]) := by
  have hmessage : b.can.message pgn dest data = b.can.sends [frameFrom b.can.sa pgn dest data] := if_pos hlen
  unfold Block.canSend
  rw [if_pos (by rw [hon, hclaim]; rfl)]
  exact congrArg (fun c => { b with can := c }) hmessage

theorem canSend_frames (l : List Bytes) (hl : ∀ d ∈ l, d.length ≤ 8) (b : Block) (hon : b.canOn = true)
    (hclaim : b.can.claim = .claimed) :
    l.foldl (fun acc d => acc.canSend pgn dest d) b = b.modCan (·.sends (l.map (frameFrom b.can.sa pgn dest))) := by
  induction l generalizing b with
  | nil => simp [Block.modCan, Can.sends]
  | cons d l ih =>
    obtain ⟨hd, hrest⟩ := List.forall_mem_cons.mp hl
    rw [List.foldl_cons, canSend_frame hon hclaim hd, ih hrest (b.modCan (·.sends [frameFrom b.can.sa pgn dest d])) hon hclaim]
    simp [Block.modCan, Can.sends]

/-- Each packet of a message is a frame of 8 bytes. -/
theorem tpPackets_length {data d : Bytes} {from_ n : Nat} (hd : d ∈ tpPackets data from_ n) : d.length ≤ 8 := by
  obtain ⟨i, -, hi⟩ := List.mem_filterMap.mp hd
  have hpart : ((data.drop (7 * (i - 1))).take 7).length ≤ 7 := List.length_take_le _ _
  dsimp only at hi
  split at hi
  · exact absurd hi nofun
  · cases hi
    simp only [List.length_append, leBytes_length, List.length_replicate]
    omega

/-- A connection management frame, its head filled up to 5 bytes. -/
def cmMsg (src dst : Byte) (head : Bytes) (pgn : Nat) : CanMsg :=
  frameFrom src 60416 dst (head ++ List.replicate (5 - head.length) 0xFF ++ leBytes 3 pgn)

theorem sendCm_frame (hon : b.canOn = true) (hclaim : b.can.claim = .claimed) {head : Bytes} (hhead : head.length ≤ 5) :
    b.sendCm false dest head pgn = b.modCan (·.sends [cmMsg b.can.sa dest head pgn]) := by
  refine canSend_frame hon hclaim ?_
  simp only [List.length_append, leBytes_length, List.length_replicate]
  omega

end Messages

/-! ### TRANSPORT_PROTOCOL_FRAME (R366) -/

section Transport

variable {s : State} {source dest : Byte} {data : BitVec 64} (hon : s.blk.canOn = true)
  (hclaim : s.blk.can.claim = .claimed)

theorem exec_transportProtocolFrame (connection : Bool) (hon : s.blk.canOn = true) (hclaim : s.blk.can.claim = .claimed)
    (hdest : dest = s.blk.can.sa ∨ dest = 0xFF) :
    exec (.transportProtocolFrame source dest false connection data) s = .next { s with
      blk := if connection then s.blk.cmFrame source dest false data else s.blk.dtFrame source dest false data } := by
  have hto : ¬ (dest ≠ s.blk.can.sa ∧ dest ≠ 0xFF) := by
    rw [not_and_or, not_not, not_not]
    exact hdest
  show execTransportProtocolFrame source dest false connection data s = _
  simp only [execTransportProtocolFrame, lift, hon, hclaim, hto, ne_eq, not_true_eq_false, Bool.not_true, Bool.false_eq_true,
    or_self, if_false]

/-- A transfer that a request to send opens. -/
def openedTransfer (source dest : Byte) (data : BitVec 64) : Transfer :=
  { src := source, dst := dest, pgn := frameNum data 5 3, size := frameNum data 1 2, extended := false
    broadcast := false, data := [], nextSeq := 1 }

/-- The controllers with a transfer in the place of the one from the same node. -/
def Can.keeps (c : Can) (source dest : Byte) (x : Transfer) : Can :=
  { c with transfers := otherTransfers c.transfers source dest false ++ [x] }

/-- The head of the frame that clears the first packets of a message. -/
def ctsHead (size : Nat) : Bytes := [17] ++ leBytes 1 (min ((size + 6) / 7) 255) ++ leBytes 1 1

include hon hclaim in
theorem cmFrame_requestToSend (hkind : frameByte data 0 = 16) (hsize : frameNum data 1 2 ≤ 1785) :
    s.blk.cmFrame source dest false data = s.blk.modCan (fun c =>
      (c.keeps source dest (openedTransfer source dest data)).sends
        [cmMsg s.blk.can.sa source (ctsHead (frameNum data 1 2)) (frameNum data 5 3)]) := by
  have hkeep : s.blk.cmFrame source dest false data
      = (s.blk.modCan (·.keeps source dest (openedTransfer source dest data))).sendCts (openedTransfer source dest data) := by
    unfold Block.cmFrame
    simp only [hkind]
    exact if_neg (Nat.not_lt.mpr hsize)
  have hcts : ∀ b : Block, b.sendCts (openedTransfer source dest data)
      = b.sendCm false source (ctsHead (frameNum data 1 2)) (frameNum data 5 3) := fun b => rfl
  rw [hkeep, hcts, sendCm_frame (b := s.blk.modCan (·.keeps source dest (openedTransfer source dest data))) hon hclaim (by simp [ctsHead, leBytes_length])]
  rfl

include hon hclaim in
theorem cmFrame_refuses (hkind : frameByte data 0 = 16) (hsize : 1785 < frameNum data 1 2) :
    s.blk.cmFrame source dest false data
      = s.blk.modCan (·.sends [cmMsg s.blk.can.sa source [255] (frameNum data 5 3)]) := by
  rw [← sendCm_frame hon hclaim (by decide)]
  unfold Block.cmFrame
  simp only [hkind]
  exact if_pos hsize

include hon hclaim in
/-- A clear to send brings the packets that it clears. -/
theorem cmFrame_clears (hkind : frameByte data 0 = 17) {o : Outgoing}
    (ho : s.blk.can.outgoing.find? (fun o => o.dst == source && o.pgn == frameNum data 5 3) = some o) :
    s.blk.cmFrame source dest false data = s.blk.modCan (·.sends
      ((tpPackets o.data (frameByte data 2) (frameByte data 1)).map (frameFrom s.blk.can.sa 60160 source))) := by
  rw [← canSend_frames _ (fun _ => tpPackets_length) _ hon hclaim]
  unfold Block.cmFrame Block.tpCleared
  simp only [hkind, ho]

theorem cmFrame_ends (hkind : frameByte data 0 = 19) : s.blk.cmFrame source dest false data = s.blk.tpEnds source := by
  unfold Block.cmFrame
  simp only [hkind]

section Data

variable {x : Transfer}
  (hx : s.blk.can.transfers.find? (fun t => t.src == source && t.dst == dest && t.extended == false) = some x)
  (hseq : frameByte data 0 + x.offset = x.nextSeq)
include hx hseq

/-- What the V96 holds of the message after a data frame. -/
def Transfer.taking (x : Transfer) (data : BitVec 64) : Bytes := (x.data ++ leBytes 7 (frameNum data 1 7)).take x.size

theorem dtFrame_adds (hmore : (x.taking data).length < x.size) :
    s.blk.dtFrame source dest false data = s.blk.modCan (fun c => c.keeps source dest
      { x with data := x.taking data, nextSeq := x.nextSeq + 1 }) := by
  unfold Block.dtFrame
  simp only [hx, hseq, ne_eq, not_true_eq_false, if_false]
  exact if_pos hmore

/-- The controllers with a message received, its transfer ended. -/
def Can.receives (c : Can) (source dest : Byte) (x : Transfer) (all : Bytes) : Can :=
  { c with transfers := otherTransfers c.transfers source dest false
           received := c.received ++ [{ pgn := x.pgn, src := source, dst := dest, data := all }] }

/-- The head of the frame that acknowledges a message. -/
def ackHead (x : Transfer) : Bytes := [19] ++ leBytes 2 x.size ++ leBytes 1 ((x.size + 6) / 7)

include hon hclaim in
theorem dtFrame_completes (hall : x.size ≤ (x.taking data).length) :
    s.blk.dtFrame source dest false data = s.blk.modCan (fun c =>
      (c.receives source dest x (x.taking data)).sends
        (if x.broadcast then [] else [cmMsg s.blk.can.sa source (ackHead x) x.pgn])) := by
  have hlast : s.blk.dtFrame source dest false data
      = if x.broadcast then s.blk.modCan (·.receives source dest x (x.taking data))
        else (s.blk.modCan (·.receives source dest x (x.taking data))).sendCm false source (ackHead x) x.pgn := by
    unfold Block.dtFrame
    simp only [hx, hseq, ne_eq, not_true_eq_false, if_false]
    exact if_neg (Nat.not_lt.mpr hall)
  rw [hlast]
  by_cases hb : x.broadcast = true
  · simp [hb, Can.sends]
  · rw [if_neg hb, if_neg hb, sendCm_frame (b := s.blk.modCan (·.receives source dest x (x.taking data))) hon hclaim (by simp [ackHead, leBytes_length])]
    rfl

end Data

/-- A frame of the transport protocol to the V96, or to all, that changes the controllers alone. -/
theorem does_transport {connection : Bool} {f : Can → Can} {P : Block → Prop} (hon : s.blk.canOn = true)
    (hclaim : s.blk.can.claim = .claimed) (hdest : dest = s.blk.can.sa ∨ dest = 0xFF)
    (hframe : (if connection then s.blk.cmFrame source dest false data else s.blk.dtFrame source dest false data)
      = s.blk.modCan f)
    (hcodes : (f s.blk.can).active = s.blk.can.active ∧ (f s.blk.can).previous = s.blk.can.previous
      ∧ (f s.blk.can).newCode = s.blk.can.newCode) (hP : P (s.blk.modCan f)) :
    Does (.transportProtocolFrame source dest false connection data) s [.can] [] P :=
  does_modCan ((exec_transportProtocolFrame connection hon hclaim hdest).trans (by rw [hframe])) hcodes hP

end Transport

/-! ### The frames of CAN_S (R372) -/

section CanS

variable {s : State} {ident : Word} {dlc : Fin 16} {data : Bytes} {f : Nat}

theorem exec_canSFrameReceived (hen : s.blk.flag .CANS_CFG 0 0 = true)
    (hfd : ident.getLsbD 30 = true → s.blk.flag .CANS_CFG 0 1 = true) (hticking : s.blk.ticking = true)
    (hf : (List.range 8).find? (fun f => s.blk.filterPasses f ident) = some f) :
    exec (.canSFrameReceived ident dlc data) s = .next { s with
      blk := if 64 ≤ s.blk.can.fifoS.length then s.blk.count .CANS_RX_STAT 0 31 16
        else s.blk.modCan (fun c => { c with fifoS := c.fifoS ++ [{
          ident := ident
          control := fieldAt 16 (s.blk.time.count.toNat % 65536) ||| fieldAt 4 f ||| fieldAt 0 dlc.val
          data := data.take (dlcLength (ident.getLsbD 30) dlc.val) }] }) } := by
  have hpass : ¬ (ident.getLsbD 30 = true ∧ (!s.blk.flag .CANS_CFG 0 1) = true) := by
    rintro ⟨h30, hno⟩
    simp [hfd h30] at hno
  show execCanSFrameReceived ident dlc data s = _
  simp only [execCanSFrameReceived, lift, hen, hpass, hticking, hf, Bool.not_true, Bool.false_eq_true, or_self, if_false]

/-- What a transmission that ends leaves. -/
theorem does_canSTransmitComplete {m : CanSFrame} (errors : Nat) (hm : s.blk.can.sendingS = some m) :
    Does (.canSTransmitComplete errors) s [.can] [addr .CANS_TX_STAT] (fun t =>
      t.can = { s.blk.can with sendingS := none, sentS := s.blk.can.sentS ++ [m] }
        ∧ t.fld .CANS_TX_STAT 0 15 8 = min (s.blk.fld .CANS_TX_STAT 0 15 8 + errors) 255) := by
  have hexec : exec (.canSTransmitComplete errors) s = .next { s with
      blk := (s.blk.modCan (fun c => { c with sendingS := none, sentS := c.sentS ++ [m] })).count .CANS_TX_STAT 0 15 8
        errors } := by
    show execCanSTransmitComplete errors s = _
    simp only [execCanSTransmitComplete, lift, hm]
  refine ⟨_, hexec, ?_, ?_, rfl, ?_⟩
  · exact (modCan_keeps (b := s.blk) ⟨rfl, rfl, rfl⟩).trans ((count_keeps _ _ _ _ _ _).mono (by simp))
  · exact (KeepsWords.of_regs (modCan_regs _ _)).trans (count_words _ _ _ _ _ _)
  · exact fld_count_same (s.blk.modCan _) .CANS_TX_STAT 0 errors (by decide)

end CanS

/-! ### CANS_RX_POP and CANS_TX_GO (R372, R375) -/

theorem can_of_keeps {l : List BlockPart} {b t : Block} (h : Keeps l b t) (hcan : .can ∉ l) (hcodes : .codes ∉ l) :
    t.can = b.can := by
  have hrest : { t.can with active := [], previous := [], newCode := false }
      = { b.can with active := [], previous := [], newCode := false } := h .can hcan
  obtain ⟨hactive, hprevious, hnew⟩ := h .codes hcodes
  cases hb : b.can
  cases ht : t.can
  simp_all

/-- The registers of CAN_S that a write of 1 acts on. -/
def canSRegs : List Reg := [.CANS_RX_POP, .CANS_TX_GO]

theorem canSRegs_at {r : Reg} (hr : r ∈ canSRegs) :
    regAt (addr r) = some (r, 0, 0) ∧ addr r < 2 ^ 32 ∧ actsAtCommit r 1 = false := by
  have hall : ∀ r ∈ canSRegs, regAt (addr r) = some (r, 0, 0) ∧ addr r < 2 ^ 32 ∧ actsAtCommit r 1 = false := by
    decide +kernel
  exact hall r hr

section CanSWrites

variable {b : Block} {h : Hdr} {k : Sess} {r : Reg}

theorem writeCheck_rxPop : b.writeCheck k false (addr .CANS_RX_POP) 1 = none := by
  have ha : regAt (addr .CANS_RX_POP) = some (.CANS_RX_POP, 0, 0) := (canSRegs_at (by decide)).1
  simp only [Block.writeCheck, ha]
  rfl

/-- What a write of CANS_TX_GO is refused for. -/
theorem writeCheck_txGo : b.writeCheck k false (addr .CANS_TX_GO) 1
    = if b.can.sendingS.isSome then some { status := .busy, payload := [] }
      else if (b.txFrame k).bad then some (refuseAt .range (addr .CANS_TX_GO)) else none := by
  have ha : regAt (addr .CANS_TX_GO) = some (.CANS_TX_GO, 0, 0) := (canSRegs_at (by decide)).1
  simp only [Block.writeCheck, ha]
  rfl

/-- A write of 1 that no check refuses acts and is answered OK now. -/
theorem writeNow_canS (hr : r ∈ canSRegs) {x : Block} (hx : ∀ at_, b.applyDirect k r 0 0 1 at_ = x)
    (seq arrived : Nat) :
    b.writeNow h regWriteRow.code k seq arrived [(addr r, 1)] [] = x.replyNow (some k) h regWriteRow.code .ok [] := by
  obtain ⟨ha, -, hnow⟩ := canSRegs_at hr
  have hunit : r ≠ .VIG_UNIT := by rintro rfl; revert hr; decide
  have hswitch : r ≠ .LSW_CTRL := by rintro rfl; revert hr; decide
  have hstatus : b.writeStatus [(addr r, 1)] = .ok := by
    simp only [Block.writeStatus, List.any_cons, List.any_nil, ha]
    split
    · next h => cases h; exact absurd rfl hunit
    · next h => cases h; exact absurd rfl hswitch
    · rfl
  simp only [Block.writeNow, hstatus, Block.applyWrite, List.foldl_cons, List.foldl_nil, List.any_cons, List.any_nil, ha,
    hnow, hunit, hx, Bool.or_false, Bool.false_eq_true, if_false]

variable {i : Instr} {s : State}

/-- A write of 1 that changes the controllers and leaves the trouble codes is answered OK. -/
theorem serves_canSWrite {f : Can → Can} (hr : r ∈ canSRegs) (hrow : rowOf i = some (h, regWriteRow))
    (hd : dispatchOf i = some (dispatchWriteOf h (addr r) 1)) (v : Served s.blk h k regWriteRow)
    (htxn : (s.blk.link.sess k).txn.state = .none) (hcheck : (s.blk.taken k h).writeCheck k false (addr r) 1 = none)
    (hx : ∀ at_, (s.blk.taken k h).applyDirect k r 0 0 1 at_ = (s.blk.taken k h).modCan f)
    (hcodes : (f s.blk.can).active = s.blk.can.active ∧ (f s.blk.can).previous = s.blk.can.previous
      ∧ (f s.blk.can).newCode = s.blk.can.newCode) :
    Serves i s h 0x0011 .ok s.blk.time.count [] [.can] [] (fun t => t.can = f s.blk.can) := by
  obtain ⟨-, hsmall, -⟩ := canSRegs_at hr
  have hanswer := replyNow_keeps ((s.blk.taken k h).modCan f) (some k) h regWriteRow.code .ok []
  refine serves_of_dispatch (op := regWriteRow) hrow hd v
    ((dispatchWriteOf_now hsmall ((congrArg Txn.state (taken_txn _ _ _ _)).trans htxn) hcheck).trans
      (writeNow_canS hr hx _ _))
    (((modCan_keeps (b := s.blk.taken k h) hcodes).mono (by simp)).trans (hanswer.mono (by simp [requestParts])))
    (KeepsWords.of_regs (by simp)) (by simp) ?_
  rw [can_of_keeps (fences_keeps _) (by simp) (by simp), can_of_keeps hanswer (by simp) (by simp)]
  rfl

theorem taken_txFrame (b : Block) (k : Sess) (h : Hdr) : (b.taken k h).txFrame k = b.txFrame k := by
  simp only [Block.txFrame, taken_sessWord]

end CanSWrites

/-- Settles O46: each frame changes CAN_M or CAN_S as its own lemma says, and the two writes with it. -/
theorem canFrames : Obligations.CanFrames := by
  intro s b c
  refine ⟨fun source dest data hon hclaim hdest => ⟨fun hkind o ho => ?_, fun hkind => ?_, ?_⟩,
    fun ident dlc data f hen hfd hticking hf => ⟨fun hroom => ?_, fun hfull => ?_⟩,
    fun m errors hm => does_canSTransmitComplete errors hm, fun h k v htxn hrun => ⟨?_, fun hidle hgood => ?_, fun hbusy => ?_⟩⟩
  · exact does_transport hon hclaim hdest (cmFrame_clears hon hclaim hkind ho) ⟨rfl, rfl, rfl⟩ rfl
  · exact does_transport hon hclaim hdest (cmFrame_ends hkind) ⟨rfl, rfl, rfl⟩ rfl
  · intro reply pgn size rest
    refine ⟨fun hkind => ⟨fun hsize => ?_, fun hsize => ?_⟩, fun x hx hseq => ?_⟩
    · exact does_transport hon hclaim hdest (cmFrame_requestToSend hon hclaim hkind hsize) ⟨rfl, rfl, rfl⟩ rfl
    · exact does_transport hon hclaim hdest (cmFrame_refuses hon hclaim hkind hsize) ⟨rfl, rfl, rfl⟩ rfl
    · refine ⟨fun hmore => ?_, fun hall => ?_⟩
      · exact does_transport hon hclaim hdest (dtFrame_adds hx hseq hmore) ⟨rfl, rfl, rfl⟩ rfl
      · refine does_transport hon hclaim hdest (dtFrame_completes hon hclaim hx hseq hall) ⟨rfl, rfl, rfl⟩ ?_
        exact sends_unless (s.blk.can.receives source dest x (x.taking data)) x.broadcast _
  · have hexec := exec_canSFrameReceived (dlc := dlc) (data := data) hen hfd hticking hf
    rw [if_neg (Nat.not_le.mpr hroom)] at hexec
    exact does_modCan hexec ⟨rfl, rfl, rfl⟩ rfl
  · refine ⟨_, exec_canSFrameReceived hen hfd hticking hf, ?_⟩
    rw [if_pos hfull]
    exact ⟨count_keeps _ _ _ _ _ _, count_words _ _ _ _ _ _, fld_count_same s.blk .CANS_RX_STAT 0 1 (by decide)⟩
  · exact serves_canSWrite (f := fun c => { c with fifoS := c.fifoS.drop 1 }) (r := .CANS_RX_POP) (by decide) rfl rfl v htxn
      writeCheck_rxPop (fun _ => rfl) ⟨rfl, rfl, rfl⟩
  · refine serves_canSWrite (f := fun c => { c with sendingS := some (s.blk.txFrame k) }) (r := .CANS_TX_GO) (by decide) rfl rfl v
      htxn ?_ (fun _ => ?_) ⟨rfl, rfl, rfl⟩
    · have hfree : (s.blk.taken k h).can.sendingS = none := hidle
      rw [writeCheck_txGo, hfree, taken_txFrame, hgood]
      rfl
    · rw [← taken_txFrame s.blk k h]
      rfl
  · have hsending : (s.blk.taken k h).can.sendingS.isSome = true := Option.isSome_iff_ne_none.mpr hbusy
    obtain ⟨-, hsmall, -⟩ := canSRegs_at (r := .CANS_TX_GO) (by decide)
    exact serves_of_replyNow (op := regWriteRow) rfl rfl v
      (dispatchWriteOf_refused hsmall ((congrArg Txn.state (taken_txn _ _ _ _)).trans htxn)
        (writeCheck_txGo.trans (if_pos hsending)))

end Sys2Proof.Machine

/-! PROOFS. Firmware update (16): downloads, their verification, activations and trials. -/

namespace Sys2Proof.Machine

open Sys2Proof (Word Byte Bytes Sess Hdr Instr)

/-! ### Requests that change a part of the block and are answered now -/

section Changes

variable {i : Instr} {s : State} {h : Hdr} {k : Sess} {op : OpRow} {d : Dispatch} {x t : Block}

theorem sessionOf_opened {b : Block} (hs : b.sessionOf h = some k) :
    (b.link.sess k).state = .opened ∧ (b.link.sess k).id = h.session := by
  unfold Block.sessionOf at hs
  dsimp only at hs
  split at hs
  · next hfits =>
    cases hs
    simp only [Bool.and_eq_true, beq_iff_eq] at hfits
    exact ⟨hfits.1.1.1.1, hfits.1.1.1.2⟩
  · split at hs
    · next hfits =>
      cases hs
      simp only [Bool.and_eq_true, beq_iff_eq] at hfits
      exact ⟨hfits.1.1.1.1, hfits.1.1.1.2⟩
    · exact absurd hs nofun

theorem session_of_keeps {l : List BlockPart} {b : Block} (hkeeps : Keeps l b t) (hl : .sessions ∉ l) (k : Sess) :
    (t.link.sess k).state = (b.link.sess k).state ∧ (t.link.sess k).id = (b.link.sess k).id := by
  obtain ⟨hmain, hservice⟩ := hkeeps .sessions hl
  cases k
  · exact ⟨congrArg (fun x => x.1) hmain, congrArg (fun x => x.2.1) hmain⟩
  · exact ⟨congrArg (fun x => x.1) hservice, congrArg (fun x => x.2.1) hservice⟩

/-- With nothing in progress no fence is brought up to date. -/
theorem fences_of_idle {b : Block} (hidle : b.link.progress = []) : b.fences = b := by
  unfold Block.fences
  rw [hidle]
  rfl

/-- The block that a change leaves, answered: what a statement about it may look at. -/
structure Answers (x t : Block) : Prop where
  upd : t.upd = x.upd
  regs : t.regs = x.regs
  idle : x.link.progress = [] → t.link.progress = []

theorem answers_replyNow (x : Block) (k : Option Sess) (h : Hdr) (op : BitVec 16) (st : Status) (payload : Bytes) :
    Answers x (x.replyNow k h op st payload).fences where
  upd := (fences_keeps _ .update (by simp)).trans (replyNow_keeps x k h op st payload .update (by simp))
  regs := (fences_regs _).trans (replyNow_regs ..)
  idle hidle := by
    have hsame : (x.replyNow k h op st payload).link.progress = x.link.progress :=
      (replyNow_keeps x k h op st payload .requests (by simp)).2.1
    rw [fences_of_idle (hsame.trans hidle), hsame, hidle]

/-- A request whose dispatch makes the change `x` and answers. -/
theorem serves_of_change {st : Status} {payload : Bytes} {parts : List BlockPart} {words : List Nat} {P : Block → Prop}
    (hr : rowOf i = some (h, op)) (hd : dispatchOf i = some d) (v : Served s.blk h k op)
    (ht : d k s.blk.link.arrivals (s.blk.now h.at_) (s.blk.taken k h) = x.replyNow (some k) h op.code st payload)
    (hkeeps : Keeps parts (s.blk.taken k h) x) (hwords : KeepsWords words (s.blk.taken k h) x)
    (hparts : .sent ∉ parts ∧ .clock ∉ parts ∧ .requests ∉ parts)
    (hP : ∀ t, Answers x t → x.link.progress = s.blk.link.progress → P t) :
    Serves i s h op.code st s.blk.time.count payload parts words P := by
  obtain ⟨hsentFree, hclockFree, hrequestsFree⟩ := hparts
  have hsent : x.link.sent = (s.blk.taken k h).link.sent := (hkeeps .sent hsentFree).1
  have hclock : { x.time with hand := 0 } = { (s.blk.taken k h).time with hand := 0 } := hkeeps .clock hclockFree
  have hcount : x.time.count = s.blk.time.count := by simpa using congrArg Time.count hclock
  have hprogress : x.link.progress = s.blk.link.progress :=
    (hkeeps .requests hrequestsFree).2.1.trans (taken_progress _ _ _)
  exact serves_of_dispatch hr hd v ht
    ((hkeeps.mono (List.subset_append_right _ _)).trans ((replyNow_keeps _ _ _ _ _ _).mono (by simp [requestParts])))
    (hwords.trans (KeepsWords.of_regs (by simp))) (by simp [hsent, hcount]) (hP _ (answers_replyNow _ _ _ _ _ _) hprogress)

end Changes

/-! ### Slots and states (R459) -/

section Updates

variable {b : Block} {u : Update} {old new : UpdState}

theorem modUpd_keeps (b : Block) (f : Update → Update) : Keeps [.update] b (b.modUpd f) := by
  intro q hq
  cases q <;> simp_all [BlockPart.same, sessSame, Block.modUpd]

@[simp] theorem Update.slot_modSlot_same (u : Update) (k : Bool) (f : Slot → Slot) : (u.modSlot k f).slot k = f (u.slot k) := by
  cases k <;> rfl

@[simp] theorem Update.slot_modSlot_other (u : Update) (k : Bool) (f : Slot → Slot) : (u.modSlot k f).slot (!k) = u.slot (!k) := by
  cases k <;> rfl

@[simp] theorem Update.target_modSlot (u : Update) (k : Bool) (f : Slot → Slot) : (u.modSlot k f).target = u.target := by
  cases k <;> rfl

@[simp] theorem Update.state_modSlot (u : Update) (k : Bool) (f : Slot → Slot) : (u.modSlot k f).state = u.state := by
  cases k <;> rfl

@[simp] theorem Update.recovery_modSlot (u : Update) (k : Bool) (f : Slot → Slot) : (u.modSlot k f).recovery = u.recovery := by
  cases k <;> rfl

theorem Update.modSlot_modSlot (u : Update) (k : Bool) (f g : Slot → Slot) :
    (u.modSlot k f).modSlot k g = u.modSlot k (fun x => g (f x)) := by
  cases k <;> rfl

/-- The target slot changed, then set to a state. -/
theorem slotTo_modSlot (b : Block) (f : Slot → Slot) (st : SlotState) :
    (b.modUpd (fun u => u.modSlot u.target f)).slotTo b.upd.target st
      = b.modUpd (fun u => u.modSlot u.target (fun x => { f x with state := st })) :=
  congrArg (fun v => { b with upd := v }) (b.upd.modSlot_modSlot b.upd.target f _)

/-- What a change of the target slot leaves. -/
def Update.Aside (u v : Update) : Prop :=
  v.slot (!u.target) = u.slot (!u.target) ∧ v.rec0 = u.rec0 ∧ v.rec1 = u.rec1
    ∧ v.storeA = u.storeA ∧ v.storeB = u.storeB ∧ v.running = u.running

theorem Update.modSlot_aside (u : Update) (f : Slot → Slot) : u.Aside (u.modSlot u.target f) := by
  refine ⟨Update.slot_modSlot_other _ _ _, ?_⟩
  cases u.target <;> exact ⟨rfl, rfl, rfl, rfl, rfl⟩

theorem Update.Aside.of_eq {u v : Update} {t : Block} (ha : u.Aside v) (e : t.upd = v) : u.Aside t.upd := e ▸ ha

theorem code_injective : Function.Injective UpdState.code := by
  intro a b
  cases a <;> cases b <;> decide

/-- The update in a state. -/
def Update.inState (u : Update) (new : UpdState) : Update := { u with state := new }

theorem inState_aside (u : Update) (new : UpdState) : u.Aside (u.inState new) := ⟨rfl, rfl, rfl, rfl, rfl, rfl⟩

theorem Update.Aside.inState {u v : Update} (ha : u.Aside v) (new : UpdState) : u.Aside (v.inState new) := ha

/-- Outside recovery mode a change of state is a change of the state shown. -/
theorem shown_ne (hrun : u.recovery = false) (hne : u.state ≠ new) : (u.inState new).shown ≠ u.shown := by
  have hshown (v : Update) (hv : v.recovery = false) : v.shown = v.state.code := by simp [Update.shown, hv]
  rw [hshown u hrun, hshown (u.inState new) hrun]
  exact fun e => hne (code_injective e).symm

theorem updTo_eq (b : Block) (new : UpdState) (at_ : Nat) :
    b.updTo new at_ = if (b.upd.inState new).shown = b.upd.shown then b.modUpd (·.inState new)
      else (b.modUpd (·.inState new)).raise 18 (BitVec.ofNat 8 (b.upd.inState new).shown)
        (payS (b.upd.shown + b.upd.acked * 2 ^ 32)) at_ := rfl

theorem updTo_upd (b : Block) (new : UpdState) : (b.updTo new).upd = b.upd.inState new := by
  rw [updTo_eq]
  split
  · rfl
  · exact raise_upd ..

theorem updTo_keeps (b : Block) (new : UpdState) : Keeps (.update :: eventParts) b (b.updTo new) := by
  have hstate : Keeps (.update :: eventParts) b (b.modUpd (·.inState new)) := (modUpd_keeps _ _).mono (by simp)
  rw [updTo_eq]
  split
  · exact hstate
  · exact hstate.trans ((raise_keeps _ _ _ _ _ _).mono (by simp))

theorem updTo_words (b : Block) (new : UpdState) : KeepsWords (eventWords [18]) b (b.updTo new) := by
  have hstate : KeepsWords (eventWords [18]) b (b.modUpd (·.inState new)) := KeepsWords.of_regs rfl
  rw [updTo_eq]
  split
  · exact hstate
  · exact hstate.trans (raise_words _ _ _ _ _ _)

/-- A change of the state is event 18 (R474). -/
theorem updTo_raised (hrun : b.upd.recovery = false) (hne : b.upd.state ≠ new) : Raised 18 b (b.updTo new) := by
  rw [updTo_eq, if_neg (shown_ne hrun hne)]
  exact (raise_raised (b.modUpd (·.inState new)) 18 _ _ 0 false (by decide)).of_word (word_of_regs rfl _ _ _)

end Updates

/-! ### A request that changes the target slot and the state (R460, R461, R463) -/

section Requests

variable {i : Instr} {s : State} {h : Hdr} {k : Sess} {op : OpRow} {d : Dispatch} {payload : Bytes}
  (hr : rowOf i = some (h, op)) (hd : dispatchOf i = some d) (v : Served s.blk h k op)

/-- The block with the update changed, then its state. -/
def Block.updThen (b : Block) (g : Update → Update) (new : UpdState) : Block := (b.modUpd g).updTo new

section UpdThen

variable {b : Block} {g : Update → Update} {new : UpdState}

theorem updThen_upd (b : Block) (g : Update → Update) (new : UpdState) :
    (b.updThen g new).upd = (g b.upd).inState new := updTo_upd _ _

theorem updThen_keeps (b : Block) (g : Update → Update) (new : UpdState) :
    Keeps (.update :: eventParts) b (b.updThen g new) :=
  ((modUpd_keeps _ _).mono (by simp)).trans (updTo_keeps _ _)

theorem updThen_words (b : Block) (g : Update → Update) (new : UpdState) :
    KeepsWords (eventWords [18]) b (b.updThen g new) :=
  KeepsWords.trans (b := b.modUpd g) (KeepsWords.of_regs rfl) (updTo_words _ _)

theorem updThen_raised (hrun : (g b.upd).recovery = false) (hne : (g b.upd).state ≠ new) :
    Raised 18 b (b.updThen g new) :=
  (updTo_raised (b := b.modUpd g) hrun hne).of_word (word_of_regs rfl _ _ _)

theorem updThen_progress (b : Block) (g : Update → Update) (new : UpdState) :
    (b.updThen g new).link.progress = b.link.progress := (updThen_keeps b g new .requests (by simp [eventParts])).2.1

end UpdThen

/-- The block with the target slot changed, then the state. -/
abbrev Block.slotThen (b : Block) (f : Slot → Slot) (new : UpdState) : Block :=
  b.updThen (fun u => u.modSlot u.target f) new

theorem slotThen_target (b : Block) (f : Slot → Slot) (new : UpdState) :
    (b.slotThen f new).upd.target = b.upd.target := by
  rw [updThen_upd]
  exact Update.target_modSlot _ _ _

theorem slotThen_acked (b : Block) (f : Slot → Slot) (new : UpdState) :
    (b.slotThen f new).upd.acked = (f (b.upd.slot b.upd.target)).offset := by
  have hslot : (b.slotThen f new).upd.slot b.upd.target = f (b.upd.slot b.upd.target) := by
    rw [updThen_upd]
    exact Update.slot_modSlot_same _ _ _
  rw [Update.acked, slotThen_target, hslot]

include hr hd v in
/-- A request that changes the update, then its state. -/
theorem serves_of_updThen {g : Update → Update} {new : UpdState}
    (ht : d k s.blk.link.arrivals (s.blk.now h.at_) (s.blk.taken k h)
      = ((s.blk.taken k h).updThen g new).replyNow (some k) h op.code .ok payload)
    (hrun : (g s.blk.upd).recovery = s.blk.upd.recovery) (hold : (g s.blk.upd).state = s.blk.upd.state) :
    Serves i s h op.code .ok s.blk.time.count payload (.update :: eventParts) (eventWords [18]) (fun t =>
      t.upd = (g s.blk.upd).inState new ∧ (s.blk.upd.state ≠ new → Raised 18 s.blk t)
        ∧ (s.blk.link.progress = [] → t.link.progress = [])) := by
  refine serves_of_change hr hd v ht (updThen_keeps _ _ _) (updThen_words _ _ _) (by simp [eventParts]) ?_
  intro t hanswer hprogress
  refine ⟨hanswer.upd.trans (updThen_upd _ _ _), fun hne => ?_, fun hidle => hanswer.idle (hprogress.trans hidle)⟩
  have hraised : Raised 18 (s.blk.taken k h) ((s.blk.taken k h).updThen g new) :=
    updThen_raised (hrun.trans v.running) (by rw [← hold] at hne; exact hne)
  exact raised_of_regs _ (hraised.of_word (taken_word _ _ _ (by decide))) hanswer.regs

/-- The same request, what it is known to serve put to use. -/
theorem Serves.imp {st : Status} {tick : Word} {parts : List BlockPart} {words : List Nat} {P Q : Block → Prop}
    {code : BitVec 16} (hs : Serves i s h code st tick payload parts words P) (hPQ : ∀ t, P t → Q t) :
    Serves i s h code st tick payload parts words Q := by
  obtain ⟨t, ht, hkeeps, hwords, hanswered, hP⟩ := hs
  exact ⟨t, ht, hkeeps, hwords, hanswered, hPQ t hP⟩

end Requests

/-! ### UPD_BEGIN (R460) -/

section Begin

variable {b : Block} {h : Hdr} {k : Sess} {identity : BitVec 256} {length : Word} {seq arrived : Nat}

/-- The target slot as a new download leaves it. -/
def Slot.begun (x : Slot) (identity : Bytes) (length : Nat) : Slot :=
  { x with state := .partialImage, identity := identity, length := length, offset := 0, image := some [] }

/-- A length that an image may have (R451). -/
structure ImageLength (n : Nat) : Prop where
  pos : n ≠ 0
  words : n % 4 = 0
  fits : n ≤ imageMax

theorem dispatchUpdBegin_idle (hstate : b.upd.state = .idle) (hslot : (b.upd.slot b.upd.target).state ≠ .installed)
    (hlen : ImageLength length.toNat) :
    dispatchUpdBegin h identity length 0 k seq arrived b
      = (b.slotThen (·.begun (leBytes 32 identity.toNat) length.toNat) .receiving).replyNow (some k) h updBeginRow.code
          .ok (leBytes 4 0 ++ leBytes 1 b.upd.target.toNat ++ leBytes 3 0) := by
  have hdownload : dispatchUpdBegin h identity length 0 k seq arrived b
      = (b.slotThen (·.begun (leBytes 32 identity.toNat) length.toNat) .receiving).beginReply k h := by
    obtain ⟨h0, h4, hmax⟩ := hlen
    simp only [dispatchUpdBegin, hstate, hslot, h0, h4, Nat.not_lt.mpr hmax, false_and, ne_eq, not_true_eq_false, or_self,
      if_false, if_true, Bool.not_true, Bool.false_eq_true]
    rfl
  rw [hdownload, Block.beginReply, slotThen_acked, slotThen_target]
  rfl

variable (hopen : b.upd.state = .receiving ∨ b.upd.state = .complete)

include hopen in
theorem dispatchUpdBegin_again (hlen : ImageLength length.toNat)
    (hsame : (b.upd.slot b.upd.target).identity = leBytes 32 identity.toNat
      ∧ (b.upd.slot b.upd.target).length = length.toNat) :
    dispatchUpdBegin h identity length 0 k seq arrived b = b.beginReply k h := by
  obtain ⟨h0, h4, hmax⟩ := hlen
  rcases hopen with hstate | hstate <;>
    simp [dispatchUpdBegin, hstate, h0, h4, Nat.not_lt.mpr hmax, hsame]

include hopen in
theorem dispatchUpdBegin_other (hlen : ImageLength length.toNat)
    (hother : ¬ ((b.upd.slot b.upd.target).identity = leBytes 32 identity.toNat
      ∧ (b.upd.slot b.upd.target).length = length.toNat)) :
    dispatchUpdBegin h identity length 0 k seq arrived b
      = b.replyNow (some k) h updBeginRow.code .updSequence := by
  obtain ⟨h0, h4, hmax⟩ := hlen
  rcases hopen with hstate | hstate <;>
    simp [dispatchUpdBegin, hstate, h0, h4, Nat.not_lt.mpr hmax, hother]

theorem dispatchUpdBegin_range
    (hopen : b.upd.state = .idle ∨ b.upd.state = .receiving ∨ b.upd.state = .complete)
    (hlen : length.toNat = 0 ∨ length.toNat % 4 ≠ 0) :
    dispatchUpdBegin h identity length 0 k seq arrived b = b.replyNow (some k) h updBeginRow.code .range := by
  rcases hopen with hstate | hstate | hstate <;>
    simp only [dispatchUpdBegin, hstate, hlen, if_true, if_false, Bool.not_true, Bool.false_eq_true]

theorem dispatchUpdBegin_space
    (hopen : b.upd.state = .idle ∨ b.upd.state = .receiving ∨ b.upd.state = .complete)
    (h4 : length.toNat % 4 = 0) (hmax : imageMax < length.toNat) :
    dispatchUpdBegin h identity length 0 k seq arrived b = b.replyNow (some k) h updBeginRow.code .updSpace := by
  have hlen : ¬ (length.toNat = 0 ∨ length.toNat % 4 ≠ 0) := by
    unfold imageMax at hmax
    omega
  rcases hopen with hstate | hstate | hstate <;>
    simp only [dispatchUpdBegin, hstate, hlen, hmax, if_true, if_false, Bool.not_true, Bool.false_eq_true]

theorem dispatchUpdBegin_closed (hclosed : b.upd.state = .verifying ∨ b.upd.state = .trial) :
    dispatchUpdBegin h identity length 0 k seq arrived b
      = b.replyNow (some k) h updBeginRow.code .updSequence := by
  rcases hclosed with hstate | hstate <;>
    simp only [dispatchUpdBegin, hstate, if_true, Bool.not_false]

end Begin

/-! ### UPD_CHUNK (R461) -/

section Chunk

variable {b : Block} {h : Hdr} {k : Sess} {offset : Word} {data : Bytes} {seq arrived : Nat}

/-- The target slot with the bytes of a chunk that it does not hold yet. -/
def Update.grown (u : Update) (o : Nat) (data : Bytes) (x : Slot) : Slot :=
  { x with offset := o + data.length, image := some (x.image.getD [] ++ data.drop ((u.slot u.target).offset - o)) }

/-- The answer to a chunk: the offset held. -/
def Block.chunkReply (b : Block) (k : Sess) (h : Hdr) : Block :=
  b.replyNow (some k) h updChunkRow.code .ok (leBytes 4 b.upd.acked ++ leBytes 4 0)

variable (hstate : b.upd.state = .receiving) (h4 : offset.toNat % 4 = 0)
  (hin : offset.toNat + data.length ≤ (b.upd.slot b.upd.target).length)
include hstate h4 hin

theorem dispatchUpdChunk_adds (hno : offset.toNat ≤ (b.upd.slot b.upd.target).offset)
    (hnew : (b.upd.slot b.upd.target).offset < offset.toNat + data.length)
    (hmore : offset.toNat + data.length < (b.upd.slot b.upd.target).length) :
    dispatchUpdChunk h offset data k seq arrived b
      = (b.modUpd (fun u => u.modSlot u.target (b.upd.grown offset.toNat data))).chunkReply k h := by
  simp only [dispatchUpdChunk, hstate, h4, Nat.not_lt.mpr hin, Nat.not_lt.mpr hno, Nat.not_le.mpr hnew, hmore.ne, ne_eq,
    not_true_eq_false, or_self, if_false]
  rfl

theorem dispatchUpdChunk_completes (hno : offset.toNat ≤ (b.upd.slot b.upd.target).offset)
    (hnew : (b.upd.slot b.upd.target).offset < offset.toNat + data.length)
    (hlast : offset.toNat + data.length = (b.upd.slot b.upd.target).length) :
    dispatchUpdChunk h offset data k seq arrived b
      = (b.slotThen (fun x => { b.upd.grown offset.toNat data x with state := .complete }) .complete).chunkReply k h := by
  unfold Block.slotThen Block.updThen
  rw [← slotTo_modSlot]
  simp only [dispatchUpdChunk, hstate, h4, Nat.not_lt.mpr hin, Nat.not_lt.mpr hno, Nat.not_le.mpr hnew, if_pos hlast, ne_eq,
    not_true_eq_false, or_self, if_false]
  rfl

theorem dispatchUpdChunk_held (hheld : offset.toNat + data.length ≤ (b.upd.slot b.upd.target).offset) :
    dispatchUpdChunk h offset data k seq arrived b = b.chunkReply k h := by
  have hno : ¬ (b.upd.slot b.upd.target).offset < offset.toNat := by omega
  simp only [dispatchUpdChunk, hstate, h4, Nat.not_lt.mpr hin, hno, hheld, ne_eq, not_true_eq_false, or_self, if_false, if_true]
  rfl

theorem dispatchUpdChunk_gap (hgap : (b.upd.slot b.upd.target).offset < offset.toNat) :
    dispatchUpdChunk h offset data k seq arrived b = b.replyNow (some k) h updChunkRow.code .updSequence := by
  simp only [dispatchUpdChunk, hstate, h4, Nat.not_lt.mpr hin, hgap, ne_eq, not_true_eq_false, or_self, if_false, if_true]

end Chunk

theorem dispatchUpdChunk_range {b : Block} {h : Hdr} {k : Sess} {offset : Word} {data : Bytes} {seq arrived : Nat}
    (hstate : b.upd.state = .receiving)
    (hout : offset.toNat % 4 ≠ 0 ∨ (b.upd.slot b.upd.target).length < offset.toNat + data.length) :
    dispatchUpdChunk h offset data k seq arrived b = b.replyNow (some k) h updChunkRow.code .range := by
  simp only [dispatchUpdChunk, hstate, hout, ne_eq, not_true_eq_false, if_false, if_true]

theorem dispatchUpdChunk_closed {b : Block} {h : Hdr} {k : Sess} {offset : Word} {data : Bytes} {seq arrived : Nat}
    (hstate : b.upd.state ≠ .receiving) :
    dispatchUpdChunk h offset data k seq arrived b = b.replyNow (some k) h updChunkRow.code .updSequence := by
  simp only [dispatchUpdChunk, hstate, ne_eq, not_false_eq_true, if_true]

section ChunkServed

variable {s : State} {h : Hdr} {k : Sess} {offset : Word} {data : Bytes} (v : Served s.blk h k updChunkRow)
  (hstate : s.blk.upd.state = .receiving) (h4 : offset.toNat % 4 = 0)
  (hin : offset.toNat + data.length ≤ (s.blk.upd.slot s.blk.upd.target).length)
  (hno : offset.toNat ≤ (s.blk.upd.slot s.blk.upd.target).offset)
  (hnew : (s.blk.upd.slot s.blk.upd.target).offset < offset.toNat + data.length)
include v hstate h4 hin hno hnew

/-- A chunk with new bytes, others still to come. -/
theorem serves_updChunk_adds (hmore : offset.toNat + data.length < (s.blk.upd.slot s.blk.upd.target).length) :
    Serves (.updChunk h offset data) s h 0x0051 .ok s.blk.time.count
      (leBytes 4 (offset.toNat + data.length) ++ leBytes 4 0) (.update :: eventParts) (eventWords [18]) (fun t =>
        t.upd = s.blk.upd.modSlot s.blk.upd.target (s.blk.upd.grown offset.toNat data)) := by
  have hacked : (s.blk.upd.modSlot s.blk.upd.target (s.blk.upd.grown offset.toNat data)).acked
      = offset.toNat + data.length := by
    rw [Update.acked, Update.target_modSlot, Update.slot_modSlot_same]
    rfl
  refine serves_of_change (op := updChunkRow)
    (x := (s.blk.taken k h).modUpd (fun u => u.modSlot u.target (s.blk.upd.grown offset.toNat data))) rfl rfl v ?_
    ((modUpd_keeps _ _).mono (by simp)) (KeepsWords.of_regs rfl) (by simp [eventParts]) fun t hanswer _ => hanswer.upd
  rw [← hacked]
  exact dispatchUpdChunk_adds (b := s.blk.taken k h) hstate h4 hin hno hnew hmore

/-- The last chunk of an image. -/
theorem serves_updChunk_completes (hlast : offset.toNat + data.length = (s.blk.upd.slot s.blk.upd.target).length) :
    Serves (.updChunk h offset data) s h 0x0051 .ok s.blk.time.count
      (leBytes 4 (offset.toNat + data.length) ++ leBytes 4 0) (.update :: eventParts) (eventWords [18]) (fun t =>
        t.upd = (s.blk.upd.modSlot s.blk.upd.target
            (fun x => { s.blk.upd.grown offset.toNat data x with state := .complete })).inState .complete
          ∧ (s.blk.upd.state ≠ .complete → Raised 18 s.blk t)
          ∧ (s.blk.link.progress = [] → t.link.progress = [])) := by
  refine serves_of_updThen (op := updChunkRow)
    (g := fun u => u.modSlot u.target (fun x => { s.blk.upd.grown offset.toNat data x with state := .complete }))
    (new := .complete) rfl rfl v ?_ (s.blk.upd.recovery_modSlot _ _) (s.blk.upd.state_modSlot _ _)
  refine (dispatchUpdChunk_completes (b := s.blk.taken k h) hstate h4 hin hno hnew hlast).trans ?_
  rw [Block.chunkReply, slotThen_acked]
  rfl

end ChunkServed

/-! ### UPD_VERIFY and its end (R462, R465) -/

section Verify

variable {b : Block} {h : Hdr} {k : Sess} {s : State}

theorem fences_of_final {p : InProgress} (hp : b.link.progress = [p]) (hends : p.ends = .final) : b.fences = b := by
  unfold Block.fences
  rw [hp]
  simp only [List.foldl_cons, List.foldl_nil, Block.fenceStep, hends]

theorem finishAll_of_idle (hidle : b.link.progress = []) (op : BitVec 16) (st : Status) (payload : Bytes) :
    b.finishAll op st payload = b := by
  simp only [Block.finishAll, Block.finalsOf, hidle, List.filter_nil, List.foldl_nil]

theorem updTo_time (b : Block) (new : UpdState) : (b.updTo new).time = b.time := by
  rw [updTo_eq]
  split
  · rfl
  · exact raise_time ..

/-- A request that is answered at its end, as it is in progress. -/
def Block.awaiting (b : Block) (k : Sess) (h : Hdr) (op : BitVec 16) : InProgress :=
  { seq := b.link.arrivals, sess := k, hdr := h, opcode := op, ends := .final
    since := (b.reaches h.at_).stagedAt, holds := h.fenceAfter }

/-- What UPD_VERIFY of a COMPLETE image leaves. -/
theorem does_updVerify (v : Served s.blk h k updVerifyRow) (hstate : s.blk.upd.state = .complete)
    (hasync : h.asyncOk = false) (hidle : s.blk.link.progress = []) :
    Does (.updVerify h) s (requestParts ++ .update :: eventParts) (requestWords h ++ eventWords [18]) (fun t =>
      t.upd = s.blk.upd.inState .verifying ∧ Raised 18 s.blk t ∧ t.link.sent = s.blk.link.sent
        ∧ t.link.progress = [s.blk.awaiting k h 0x0052]) := by
  have hkeeps := updTo_keeps (s.blk.taken k h) .verifying
  have hstaged : ((s.blk.taken k h).updTo .verifying).stagedAt = (s.blk.reaches h.at_).stagedAt := by
    unfold Block.stagedAt Block.now
    rw [updTo_time]
    rfl
  have hbegins : dispatchUpdVerify h k s.blk.link.arrivals (s.blk.now h.at_) (s.blk.taken k h)
      = ((s.blk.taken k h).updTo .verifying).begins s.blk.link.arrivals k h 0x0052 .final := by
    have hcomplete : (s.blk.taken k h).upd.state = .complete := hstate
    simp only [dispatchUpdVerify, Block.awaits, hcomplete, hasync, ne_eq, not_true_eq_false, Bool.false_eq_true, if_false]
    rfl
  have hprogress : (((s.blk.taken k h).updTo .verifying).begins s.blk.link.arrivals k h 0x0052 .final).link.progress
      = [s.blk.awaiting k h 0x0052] := by
    have hnone : ((s.blk.taken k h).updTo .verifying).link.progress = [] :=
      (hkeeps .requests (by simp [eventParts])).2.1.trans ((taken_progress _ _ _).trans hidle)
    unfold Block.begins
    rw [hnone, hstaged]
    rfl
  have hexec := exec_served (.updVerify h) s h k updVerifyRow _ rfl rfl v
  rw [hbegins, fences_of_final hprogress rfl] at hexec
  refine ⟨_, hexec, ?_, ?_, updTo_upd _ _, ?_, ?_, hprogress⟩
  · exact ((taken_keeps _ _ _).mono (by simp [requestParts])).trans ((hkeeps.mono (by simp)).trans
      ((begins_keeps _ _ _ _ _ _ _).mono (by simp [requestParts])))
  · exact ((taken_words _ _ _).mono (by simp)).trans (((updTo_words _ _).mono (by simp)).trans (KeepsWords.of_regs rfl))
  · have hraised : Raised 18 (s.blk.taken k h) ((s.blk.taken k h).updTo .verifying) :=
      updTo_raised v.running (by rw [show (s.blk.taken k h).upd.state = .complete from hstate]; decide)
    exact raised_of_regs _ (hraised.of_word (taken_word _ _ _ (by decide))) rfl
  · exact (hkeeps .sent (by simp [eventParts])).1.trans (taken_sent _ _ _)

/-- The update with a result of verification: kept, the target slot in a state, the failures counted. -/
def Update.verifiedAs (u : Update) (result : Nat × Nat) (st : SlotState) (failed : Nat) : Update :=
  { u.modSlot u.target (fun x => { x with state := st }) with
    vres := result.1, vpart := result.2, vfail := u.vfail + failed }

theorem verifiedAs_aside (u : Update) (result : Nat × Nat) (st : SlotState) (failed : Nat) :
    u.Aside (u.verifiedAs result st failed) := u.modSlot_aside _

/-- The block after the result 0. -/
def Block.passes (b : Block) : Block := b.updThen (·.verifiedAs b.verify .verified 0) .verified

/-- The block after another result, before event 19. -/
def Block.fails (b : Block) : Block := b.updThen (·.verifiedAs b.verify .empty 1) .idle

/-- A result kept, then a slot set to a state. -/
theorem verifiedAs_eq (u : Update) (k : Bool) (result : Nat × Nat) (st : SlotState) :
    { u.modSlot k (fun x => { x with state := st }) with vres := result.1, vpart := result.2, vfail := u.vfail + 0 }
      = { u with vres := result.1, vpart := result.2 }.modSlot k (fun x => { x with state := st }) := by
  cases k <;> rfl

/-- The result kept, then the target slot set to a state. -/
theorem slotTo_verify (b : Block) (st : SlotState) :
    (b.modUpd (fun u => { u with vres := b.verify.1, vpart := b.verify.2 })).slotTo b.upd.target st
      = b.modUpd (·.verifiedAs b.verify st 0) :=
  congrArg (fun v => { b with upd := v }) (verifiedAs_eq b.upd b.upd.target b.verify st).symm

theorem fails_eq (b : Block) :
    (((b.modUpd (fun u => { u with vres := b.verify.1, vpart := b.verify.2 })).slotTo b.upd.target .empty).modUpd
      (fun u => { u with vfail := u.vfail + 1 })).updTo .idle = b.fails := by
  rw [slotTo_verify]
  rfl

theorem verifiedAs_stay (u : Update) (result : Nat × Nat) (st : SlotState) (failed : Nat) :
    (u.verifiedAs result st failed).recovery = u.recovery ∧ (u.verifiedAs result st failed).state = u.state :=
  ⟨u.recovery_modSlot _ _, u.state_modSlot _ _⟩

theorem verifiedAs_slot (u : Update) (result : Nat × Nat) (st : SlotState) (failed : Nat) :
    (u.verifiedAs result st failed).slot u.target = { u.slot u.target with state := st } := u.slot_modSlot_same _ _

/-- A change of state by the end of the verification. -/
theorem verifiedAs_raised {b : Block} {result : Nat × Nat} {st : SlotState} {failed : Nat} {new : UpdState}
    (hrun : b.upd.recovery = false) (hne : b.upd.state ≠ new) :
    Raised 18 b (b.updThen (·.verifiedAs result st failed) new) :=
  updThen_raised ((verifiedAs_stay _ _ _ _).1.trans hrun) (by rwa [(verifiedAs_stay _ _ _ _).2])

section End

/-- The block after a result other than 0. -/
def Block.failsRaised (b : Block) : Block :=
  b.fails.raise 19 (BitVec.ofNat 8 b.verify.1)
    (payS (b.verify.2 + leAt 12 2 ((b.upd.slot b.upd.target).image.getD []) * 2 ^ 32))

variable (hstate : s.blk.upd.state = .verifying) (hruns : s.blk.coresRun = true) (hidle : s.blk.link.progress = [])
include hstate hruns hidle

theorem exec_verifyComplete_passes (hresult : s.blk.verify.1 = 0) :
    exec .verifyComplete s = .next { s with blk := s.blk.passes } := by
  have hgo : ¬ (s.blk.upd.state ≠ .verifying ∨ (!(s.blk.coresRun || s.blk.upd.recovery)) = true) := by
    simp [hstate, hruns]
  have hdone : s.blk.passes.link.progress = [] := (updThen_progress _ _ _).trans hidle
  show execVerifyComplete s = _
  simp only [execVerifyComplete, lift, if_neg hgo]
  rw [if_pos hresult, slotTo_verify]
  show Host.Outcome.next { s with blk := (s.blk.passes.finishAll _ _ _).fences } = _
  rw [finishAll_of_idle hdone, fences_of_idle hdone]

theorem exec_verifyComplete_fails (hresult : s.blk.verify.1 ≠ 0) :
    exec .verifyComplete s = .next { s with blk := s.blk.failsRaised } := by
  have hgo : ¬ (s.blk.upd.state ≠ .verifying ∨ (!(s.blk.coresRun || s.blk.upd.recovery)) = true) := by
    simp [hstate, hruns]
  have hdone (c : Byte) (p : Payload) : (s.blk.fails.raise 19 c p).link.progress = [] :=
    (raise_link_progress ..).trans ((updThen_progress _ _ _).trans hidle)
  show execVerifyComplete s = _
  simp only [execVerifyComplete, lift, if_neg hgo]
  rw [if_neg hresult, fails_eq, finishAll_of_idle (hdone _ _), fences_of_idle (hdone _ _)]
  rfl

end End

end Verify

/-- Settles O58: each request of a download, and the end of its verification, changes the target slot and the state as
    its own lemma says. -/
theorem imagesAreDownloadedAndVerified : Obligations.ImagesAreDownloadedAndVerified := by
  intro s h b u k x tick tells others moves
  refine ⟨fun v identity length => ?_, fun v offset data => ?_, fun v => ⟨fun hstate => ?_, fun hstate hasync hidle => ?_⟩,
    fun hstate hruns hidle => ⟨fun hresult => ?_, fun hresult => ?_⟩⟩
  · intro id n i same
    refine ⟨fun hstate hslot h0 h4 hmax => ?_, fun hopen h0 h4 hmax => ⟨fun hsame => ?_, fun hother => ?_⟩,
      fun hopen => ⟨fun hlen => ?_, fun h4 hmax => ?_⟩, fun hclosed => ?_⟩
    · refine (serves_of_updThen (op := updBeginRow) rfl rfl v (dispatchUpdBegin_idle hstate hslot ⟨h0, h4, hmax⟩)
        (u.recovery_modSlot _ _) (u.state_modSlot _ _)).imp fun t ⟨hupd, hraised, _⟩ => ?_
      exact ⟨((u.modSlot_aside _).inState _).of_eq hupd, ⟨hupd ▸ rfl, fun _ _ => hraised (by rw [hstate]; decide)⟩,
        hupd ▸ u.slot_modSlot_same _ _⟩
    · exact serves_of_replyNow (op := updBeginRow) rfl rfl v (dispatchUpdBegin_again hopen ⟨h0, h4, hmax⟩ hsame)
    · exact serves_of_replyNow (op := updBeginRow) rfl rfl v (dispatchUpdBegin_other hopen ⟨h0, h4, hmax⟩ hother)
    · exact serves_of_replyNow (op := updBeginRow) rfl rfl v (dispatchUpdBegin_range hopen hlen)
    · exact serves_of_replyNow (op := updBeginRow) rfl rfl v (dispatchUpdBegin_space hopen h4 hmax)
    · exact serves_of_replyNow (op := updBeginRow) rfl rfl v (dispatchUpdBegin_closed hclosed)
  · intro o i
    refine ⟨fun hstate h4 hin => ⟨fun hno hnew => ?_, fun hheld => ?_, fun hgap => ?_⟩, fun hstate hout => ?_,
      fun hstate => ?_⟩
    · rcases Nat.lt_or_eq_of_le hin with hmore | hlast
      · refine (serves_updChunk_adds v hstate h4 hin hno hnew hmore).imp fun t hupd => ?_
        have hslot : t.upd.slot u.target = u.grown o data x := hupd ▸ u.slot_modSlot_same _ _
        exact ⟨(u.modSlot_aside _).of_eq hupd, hslot ▸ rfl, hslot ▸ rfl,
          fun _ => ⟨hupd ▸ (u.state_modSlot _ _).trans hstate, hslot ▸ rfl⟩, fun hlast => absurd hlast hmore.ne⟩
      · refine (serves_updChunk_completes v hstate h4 hin hno hnew hlast).imp fun t ⟨hupd, hraised, _⟩ => ?_
        have hslot : t.upd.slot u.target = { u.grown o data x with state := .complete } := hupd ▸ u.slot_modSlot_same _ _
        exact ⟨((u.modSlot_aside _).inState _).of_eq hupd, hslot ▸ rfl, hslot ▸ rfl, fun hmore => absurd hlast hmore.ne,
          fun _ => ⟨⟨hupd ▸ rfl, fun _ _ => hraised (by rw [hstate]; decide)⟩, hslot ▸ rfl⟩⟩
    · exact serves_of_replyNow (op := updChunkRow) rfl rfl v (dispatchUpdChunk_held hstate h4 hin hheld)
    · exact serves_of_replyNow (op := updChunkRow) rfl rfl v (dispatchUpdChunk_gap hstate h4 hin hgap)
    · exact serves_of_replyNow (op := updChunkRow) rfl rfl v (dispatchUpdChunk_range hstate hout)
    · exact serves_of_replyNow (op := updChunkRow) rfl rfl v (dispatchUpdChunk_closed hstate)
  · refine serves_of_replyNow (op := updVerifyRow) rfl rfl v ?_
    exact if_pos hstate
  · obtain ⟨t, ht, hkeeps, hwords, hupd, hraised, hsent, hprogress⟩ := does_updVerify v hstate hasync hidle
    exact ⟨t, ht, hkeeps, hwords, (inState_aside u _).of_eq hupd, ⟨hupd ▸ rfl, fun _ _ => hraised⟩, hsent, hprogress⟩
  · have hupd : s.blk.passes.upd = (u.verifiedAs b.verify .verified 0).inState .verified := updThen_upd _ _ _
    refine ⟨_, exec_verifyComplete_passes hstate hruns hidle hresult, updThen_keeps _ _ _, updThen_words _ _ _, ?_⟩
    exact ⟨((verifiedAs_aside u _ _ _).inState _).of_eq hupd, ⟨hupd ▸ rfl, fun hrun _ => verifiedAs_raised hrun (by rw [hstate]; decide)⟩,
      hupd ▸ verifiedAs_slot u b.verify .verified 0, hupd ▸ hresult, hupd ▸ rfl⟩
  · have hupd : s.blk.failsRaised.upd = (u.verifiedAs b.verify .empty 1).inState .idle :=
      (raise_upd ..).trans (updThen_upd _ _ _)
    have hwords := updThen_words s.blk (·.verifiedAs s.blk.verify .empty 1) .idle
    refine ⟨_, exec_verifyComplete_fails hstate hruns hidle hresult, ?_, ?_, ?_⟩
    · exact (updThen_keeps _ _ _).trans ((raise_keeps _ _ _ _ _ _).mono (by simp))
    · exact (hwords.mono (by simp [eventWords])).trans ((raise_words _ _ _ _ _ _).mono (by simp [eventWords]))
    · refine ⟨((verifiedAs_aside u _ _ _).inState _).of_eq hupd, ⟨hupd ▸ rfl, fun hrun _ => ?_⟩, hupd ▸ verifiedAs_slot u b.verify .empty 1,
        hupd ▸ rfl, hupd ▸ rfl, hupd ▸ rfl, ?_⟩
      · have hraised : Raised 18 s.blk s.blk.fails := verifiedAs_raised hrun (by rw [hstate]; decide)
        exact (raise_words s.blk.fails 19 _ _ 0 false (addr .EVT_CNT 18) (by decide) _).trans hraised
      · exact (raise_raised s.blk.fails 19 _ _ 0 false (by decide)).of_word
          (hwords (addr .EVT_CNT 19) (by decide) _)

end Sys2Proof.Machine

/-! PROOFS. Firmware update (16): boot records, activations, confirmations and aborts; the end of a save's hold. -/

namespace Sys2Proof.Machine

open Sys2Proof (Word Byte Bytes Sess Hdr Instr)

/-! ### Boot records (R452, R453) -/

section Records

variable {u : Update} {r w : BootRecord}

/-- A boot record as it is written behind the winner. -/
def Update.recordOf (u : Update) (r w : BootRecord) : BootRecord :=
  { r with valid := true, seq := w.seq + 1, identity := (u.slot r.slot).identity }

/-- The update with a boot record written into the region that does not hold the winner. -/
def Update.written (u : Update) (r w : BootRecord) : Update :=
  if u.rec0.valid && w == u.rec0 then { u with rec1 := u.recordOf r w } else { u with rec0 := u.recordOf r w }

theorem bootRecord_eq {b : Block} (hw : b.upd.winner = some w) (r : BootRecord) :
    b.bootRecord r = b.modUpd (·.written r w) := by
  by_cases hin : (b.upd.rec0.valid && w == b.upd.rec0) = true
  · have hwritten : b.upd.written r w = { b.upd with rec1 := b.upd.recordOf r w } := if_pos hin
    simp only [Block.bootRecord, hw, hin, if_true]
    exact (congrArg (fun v => { b with upd := v }) hwritten).symm
  · have hwritten : b.upd.written r w = { b.upd with rec0 := b.upd.recordOf r w } := if_neg hin
    simp only [Block.bootRecord, hw, hin, Bool.false_eq_true, if_false]
    exact (congrArg (fun v => { b with upd := v }) hwritten).symm

theorem seqNewer_succ (a : Word) : seqNewer (a + 1) a = true := by
  simp [seqNewer]

theorem not_seqNewer_succ (a : Word) : seqNewer a (a + 1) = false := by
  simp [seqNewer]

/-- The winner is a valid record of one of the two regions. -/
theorem winner_mem (hw : u.winner = some w) : w.valid = true ∧ (w = u.rec0 ∨ w = u.rec1) := by
  unfold Update.winner at hw
  split at hw
  · next h0 h1 =>
    split at hw
    · cases hw; exact ⟨h1, .inr rfl⟩
    · cases hw; exact ⟨h0, .inl rfl⟩
  · next h0 _ => cases hw; exact ⟨h0, .inl rfl⟩
  · next _ h1 => cases hw; exact ⟨h1, .inr rfl⟩
  · exact absurd hw nofun

/-- A record written wins, and the one that won before stays in its region. -/
theorem written_winner (hw : u.winner = some w) (r : BootRecord) :
    (u.written r w).winner = some (u.recordOf r w) ∧ ((u.written r w).rec0 = w ∨ (u.written r w).rec1 = w) := by
  obtain ⟨hvalid, hregion⟩ := winner_mem hw
  have hnew : (u.recordOf r w).valid = true := rfl
  have hseq : (u.recordOf r w).seq = w.seq + 1 := rfl
  unfold Update.written
  by_cases h0 : w = u.rec0
  · have hin : (u.rec0.valid && w == u.rec0) = true := by rw [← h0, hvalid]; simp
    rw [if_pos hin]
    refine ⟨?_, .inl h0.symm⟩
    have hold : u.rec0.valid = true := h0 ▸ hvalid
    simp only [Update.winner, hold, hnew]
    rw [if_pos (by rw [hseq, ← h0]; exact seqNewer_succ _)]
  · have h1 : w = u.rec1 := hregion.resolve_left h0
    have hin : ¬ (u.rec0.valid && w == u.rec0) = true := by simp [h0]
    rw [if_neg hin]
    refine ⟨?_, .inr h1.symm⟩
    have hold : u.rec1.valid = true := h1 ▸ hvalid
    simp only [Update.winner, hold, hnew]
    rw [if_neg (by rw [hseq, ← h1, not_seqNewer_succ]; exact Bool.false_ne_true)]

/-- What writing a boot record leaves. -/
structure Update.Recorded (u v : Update) : Prop where
  slotA : v.slotA = u.slotA
  slotB : v.slotB = u.slotB
  stores : v.storeA = u.storeA ∧ v.storeB = u.storeB
  running : v.running = u.running
  state : v.state = u.state
  recovery : v.recovery = u.recovery
  activations : v.activations = u.activations
  reverts : v.reverts = u.reverts

theorem written_recorded (u : Update) (r w : BootRecord) : u.Recorded (u.written r w) := by
  unfold Update.written
  split <;> exact ⟨rfl, rfl, ⟨rfl, rfl⟩, rfl, rfl, rfl, rfl, rfl⟩

theorem Update.Recorded.slot {v : Update} (h : u.Recorded v) (k : Bool) : v.slot k = u.slot k := by
  unfold Update.slot
  rw [h.slotA, h.slotB]

/-- The record `r` wins, one number above the record `w`, which stays. -/
def Records (r w : BootRecord) (v : Update) : Prop :=
  v.winner = some { r with valid := true, seq := w.seq + 1, identity := (v.slot r.slot).identity }
    ∧ (v.rec0 = w ∨ v.rec1 = w)

/-- The records are the two regions and the identities of the slots. -/
theorem Records.congr {v v' : Update} (hr : Records r w v) (h0 : v'.rec0 = v.rec0) (h1 : v'.rec1 = v.rec1)
    (hslot : ∀ k, v'.slot k = v.slot k) : Records r w v' := by
  have hwinner : v'.winner = v.winner := by unfold Update.winner; rw [h0, h1]
  unfold Records
  rw [hwinner, h0, h1, hslot]
  exact hr

theorem written_records (hw : u.winner = some w) (r : BootRecord) : Records r w (u.written r w) := by
  obtain ⟨hwinner, hregion⟩ := written_winner hw r
  refine ⟨hwinner.trans ?_, hregion⟩
  rw [(written_recorded u r w).slot]
  rfl

/-- What a change of a slot leaves besides the slots. -/
theorem modSlot_rest (u : Update) (k : Bool) (f : Slot → Slot) :
    (u.modSlot k f).storeA = u.storeA ∧ (u.modSlot k f).storeB = u.storeB ∧ (u.modSlot k f).running = u.running
      ∧ (u.modSlot k f).activations = u.activations ∧ (u.modSlot k f).reverts = u.reverts := by
  cases k <;> exact ⟨rfl, rfl, rfl, rfl, rfl⟩

/-- A change of a slot that leaves its identity leaves the records. -/
theorem Records.modSlot {v : Update} (hr : Records r w v) (k : Bool) {f : Slot → Slot}
    (hf : ∀ x, (f x).identity = x.identity) : Records r w (v.modSlot k f) := by
  have hidentity (j : Bool) : ((v.modSlot k f).slot j).identity = (v.slot j).identity :=
    match k, j with
    | false, false => hf _
    | false, true => rfl
    | true, false => rfl
    | true, true => hf _
  obtain ⟨hwinner, hregion⟩ := hr
  rw [← hidentity] at hwinner
  cases k <;> exact ⟨hwinner, hregion⟩

theorem winner_modSlot (u : Update) (k : Bool) (f : Slot → Slot) : (u.modSlot k f).winner = u.winner := by
  cases k <;> rfl

end Records

/-! ### A final reply that follows at once (R463, R466, R469) -/

section Answered

variable {s : State} {x : Block} {h : Hdr} {k : Sess} {op : OpRow}

/-- A block with other requests in progress. -/
def Block.inProgress (b : Block) (l : List InProgress) : Block := { b with link := { b.link with progress := l } }

theorem inProgress_self (b : Block) : b.inProgress b.link.progress = b := rfl

theorem reply_inProgress (b : Block) (l : List InProgress) (k : Option Sess) (h : Hdr) (op : BitVec 16) (st : Status)
    (tick : Word) (payload : Bytes) :
    (b.inProgress l).reply k h op st tick payload = (b.reply k h op st tick payload).inProgress l := by
  unfold Block.reply
  split
  · rfl
  · rcases k with _ | _ | _ <;> rfl

/-- A request answered at once, with nothing else in progress, is answered as if it had not been in progress. -/
theorem answers_eq {l : List BlockPart} (v : Served s.blk h k op) (hkeeps : Keeps l (s.blk.taken k h) x)
    (hl : .sessions ∉ l ∧ .requests ∉ l) (hidle : s.blk.link.progress = []) (hasync : h.asyncOk = false)
    {code : BitVec 16} (hcode : code ≠ 0x0004) (seq : Nat) (st : Status) :
    x.answers seq k h code st = x.replyNow (some k) h code st [] := by
  obtain ⟨hopened, hid⟩ := sessionOf_opened v.session
  obtain ⟨hstate, hsame⟩ := session_of_keeps
    (((taken_keeps s.blk k h).mono (m := requestParts ++ l) (by simp [requestParts])).trans
      (hkeeps.mono (List.subset_append_right requestParts l))) (by simp [requestParts, hl.1]) k
  have hnone : x.link.progress = [] := (hkeeps .requests hl.2).2.1.trans ((taken_progress _ _ _).trans hidle)
  let p : InProgress := { seq := seq, sess := k, hdr := h, opcode := code, ends := .final, since := x.stagedAt
                          holds := h.fenceAfter }
  have hbegins : x.awaits seq k h code = x.inProgress [p] := by
    unfold Block.awaits Block.begins
    rw [hasync, hnone]
    rfl
  have hfinals : (x.inProgress [p]).finalsOf code = [p] := by simp [Block.finalsOf, Block.inProgress, p]
  have hfinish : (x.inProgress [p]).finishes p st [] = ((x.inProgress [p]).reply (some k) h code st x.time.count []).completes seq := by
    have hsess : (x.inProgress [p]).link.sess k = x.link.sess k := by cases k <;> rfl
    unfold Block.finishes
    dsimp only [p]
    rw [if_neg hcode, hsess, if_pos ⟨hstate.trans hopened, hsame.trans hid⟩]
    rfl
  have hreply : (x.reply (some k) h code st x.time.count []).link.progress = [] :=
    (replyNow_keeps x (some k) h code st [] .requests (by simp)).2.1.trans hnone
  unfold Block.answers Block.finishAll
  rw [hbegins, hfinals, List.foldl_cons, List.foldl_nil, hfinish, reply_inProgress]
  calc ((x.reply (some k) h code st x.time.count []).inProgress [p]).completes seq
      = (x.reply (some k) h code st x.time.count []).inProgress [] := by simp [Block.completes, Block.inProgress, p]
    _ = x.replyNow (some k) h code st [] := by rw [← hreply, inProgress_self]; rfl

theorem resetFollows_replyNow (x : Block) (k : Option Sess) (h : Hdr) (op : BitVec 16) (st : Status) (payload : Bytes) :
    (x.replyNow k h op st payload).resetFollows = x.resetFollows.replyNow k h op st payload := by
  unfold Block.replyNow Block.reply
  split
  · rfl
  · rcases k with _ | _ | _ <;> rfl

end Answered

section Requests

variable {i : Instr} {s : State} {h : Hdr} {k : Sess} {op : OpRow} {d : Dispatch} {g : Update → Update}
  (hr : rowOf i = some (h, op)) (hd : dispatchOf i = some d) (v : Served s.blk h k op)
  (hidle : s.blk.link.progress = []) (hasync : h.asyncOk = false) (hcode : op.code ≠ 0x0004)
include hr hd v hidle hasync hcode

/-- A request that changes the update, is answered, and that a cold reset follows. -/
theorem serves_of_resetFollows
    (ht : d k s.blk.link.arrivals (s.blk.now h.at_) (s.blk.taken k h)
      = (((s.blk.taken k h).modUpd g).answers s.blk.link.arrivals k h op.code .ok).resetFollows) :
    Serves i s h op.code .ok s.blk.time.count [] [.update] [] (fun t =>
      t.upd = { g s.blk.upd with resetDue := true } ∧ t.link.progress = []) := by
  rw [answers_eq v (modUpd_keeps _ g) (by simp) hidle hasync hcode, resetFollows_replyNow] at ht
  refine serves_of_change (x := ((s.blk.taken k h).modUpd g).resetFollows) hr hd v ht
    ((modUpd_keeps _ g).trans (modUpd_keeps _ _)) (KeepsWords.of_regs rfl) (by simp) fun t hanswer hprogress => ?_
  exact ⟨hanswer.upd, hanswer.idle (hprogress.trans hidle)⟩

/-- A request that changes the update, then its state, and is answered when it has. -/
theorem serves_of_updThen_answers {new : UpdState}
    (ht : d k s.blk.link.arrivals (s.blk.now h.at_) (s.blk.taken k h)
      = ((s.blk.taken k h).updThen g new).answers s.blk.link.arrivals k h op.code .ok)
    (hrun : (g s.blk.upd).recovery = s.blk.upd.recovery) (hold : (g s.blk.upd).state = s.blk.upd.state) :
    Serves i s h op.code .ok s.blk.time.count [] (.update :: eventParts) (eventWords [18]) (fun t =>
      t.upd = (g s.blk.upd).inState new ∧ (s.blk.upd.state ≠ new → Raised 18 s.blk t)
        ∧ (s.blk.link.progress = [] → t.link.progress = [])) := by
  rw [answers_eq v (updThen_keeps _ g new) (by simp [eventParts]) hidle hasync hcode] at ht
  exact serves_of_updThen hr hd v ht hrun hold

end Requests

/-! ### UPD_ACTIVATE (R466) -/

section Activate

variable {s : State} {h : Hdr} {k : Sess} {w : BootRecord}

/-- The target slot INSTALLED, with the next number of an installation. -/
def Update.installed (u : Update) : Update :=
  u.modSlot u.target (fun x => { x with
    state := .installed, installedNo := max u.slotA.installedNo u.slotB.installedNo + 1 })

/-- The update as an activation leaves it, its record written behind `w`. -/
def Update.activated (u : Update) (w : BootRecord) : Update :=
  { u.installed.written u.activation w with activations := (u.installed.written u.activation w).activations + 1 }

theorem serves_updActivate (v : Served s.blk h k updActivateRow) (hw : s.blk.upd.winner = some w)
    (hstate : s.blk.upd.state = .verified) (hoff : s.blk.outputUnit = false) (hidle : s.blk.link.progress = [])
    (hasync : h.asyncOk = false) :
    Serves (.updActivate h) s h 0x0053 .ok s.blk.time.count [] [.update] [] (fun t =>
      t.upd = { s.blk.upd.activated w with resetDue := true } ∧ t.link.progress = []) := by
  refine serves_of_resetFollows (op := updActivateRow) (g := (·.activated w)) rfl rfl v hidle hasync (by decide) ?_
  have hverified : (s.blk.taken k h).upd.state = .verified := hstate
  have hquiet : (s.blk.taken k h).outputUnit = false := hoff
  have hwinner : ((s.blk.taken k h).modUpd (·.installed)).upd.winner = some w := (winner_modSlot _ _ _).trans hw
  have hrecord := bootRecord_eq hwinner s.blk.upd.activation
  simp only [dispatchUpdActivate, hverified, hquiet, ne_eq, not_true_eq_false, Bool.false_eq_true, if_false]
  have hdone := congrArg (fun x : Block => ((x.modUpd (fun u => { u with activations := u.activations + 1 })).answers
    s.blk.link.arrivals k h updActivateRow.code .ok).resetFollows) hrecord
  exact hdone

/-- What an activation leaves. -/
structure Activated (u : Update) (w : BootRecord) (v : Update) : Prop where
  stores : v.storeA = u.storeA ∧ v.storeB = u.storeB
  running : v.running = u.running
  due : v.resetDue = true
  target : (v.slot u.target).state = .installed
  other : v.slot (!u.target) = u.slot (!u.target)
  activations : v.activations = u.activations + 1
  records : Records { w with
    slot := u.target, store := !w.store, trial := true, starts := 0, prevSlot := some u.running, prevStore := some w.store } w v

theorem activated_spec {u : Update} (hw : u.winner = some w) (hrun : u.recovery = false) :
    Activated u w { u.activated w with resetDue := true } := by
  have hactivation : u.activation = { w with
      slot := u.target, store := !w.store, trial := true, starts := 0, prevSlot := some u.running
      prevStore := some w.store } := by
    simp only [Update.activation, hw, hrun, Option.getD_some, Bool.false_eq_true, if_false]
  have hrecorded := written_recorded u.installed u.activation w
  obtain ⟨hstoreA, hstoreB, hrunning, hactivations, -⟩ := modSlot_rest u u.target (fun x => { x with
    state := .installed, installedNo := max u.slotA.installedNo u.slotB.installedNo + 1 })
  exact {
    stores := ⟨hrecorded.stores.1.trans hstoreA, hrecorded.stores.2.trans hstoreB⟩
    running := hrecorded.running.trans hrunning
    due := rfl
    target := congrArg Slot.state ((hrecorded.slot u.target).trans (u.slot_modSlot_same _ _))
    other := (hrecorded.slot (!u.target)).trans (u.slot_modSlot_other _ _)
    activations := congrArg (· + 1) (hrecorded.activations.trans hactivations)
    records := hactivation ▸ (written_records ((winner_modSlot _ _ _).trans hw) u.activation).congr rfl rfl (fun _ => rfl) }

end Activate

/-! ### UPD_CONFIRM (R469) -/

section Confirm

variable {s : State} {h : Hdr} {k : Sess} {w : BootRecord}

/-- The record of a confirmation. -/
def BootRecord.confirmed (w : BootRecord) (svn : Nat) : BootRecord :=
  { w with trial := false, starts := 0, prevSlot := none, prevStore := none, minSvn := max w.minSvn svn }

theorem serves_updConfirm (v : Served s.blk h k updConfirmRow) (hw : s.blk.upd.winner = some w)
    (hstate : s.blk.upd.state = .trial) (hidle : s.blk.link.progress = []) (hasync : h.asyncOk = false) :
    Serves (.updConfirm h) s h 0x0054 .ok s.blk.time.count [] (.update :: eventParts) (eventWords [18]) (fun t =>
      t.upd = (s.blk.upd.written (w.confirmed s.blk.runInfo.svn) w).inState .idle
        ∧ (s.blk.upd.state ≠ .idle → Raised 18 s.blk t)
        ∧ (s.blk.link.progress = [] → t.link.progress = [])) := by
  have hrecorded := written_recorded s.blk.upd (w.confirmed s.blk.runInfo.svn) w
  refine serves_of_updThen_answers (op := updConfirmRow) (g := (·.written (w.confirmed s.blk.runInfo.svn) w)) rfl rfl v hidle hasync
    (by decide) ?_ hrecorded.recovery hrecorded.state
  have htrial : (s.blk.taken k h).upd.state = .trial := hstate
  have hwinner : (s.blk.taken k h).upd.winner = some w := hw
  have hrecord := bootRecord_eq hwinner (w.confirmed s.blk.runInfo.svn)
  simp only [dispatchUpdConfirm, htrial, hwinner]
  have hdone := congrArg (fun x : Block => (x.updTo .idle).answers s.blk.link.arrivals k h updConfirmRow.code .ok) hrecord
  exact hdone

end Confirm

/-! ### UPD_ABORT (R463, R468) -/

section Abort

variable {s : State} {h : Hdr} {k : Sess} {w : BootRecord} {p : Bool}

/-- The record of a revert by UPD_ABORT to the slot `p`. -/
def BootRecord.aborted (w : BootRecord) (p : Bool) : BootRecord :=
  { w with slot := p, store := w.prevStore.getD w.store, trial := false, starts := 0
           prevSlot := none, prevStore := none, revert := 4 }

/-- The update as an UPD_ABORT of a trial leaves it. -/
def Update.aborted (u : Update) (w : BootRecord) (p : Bool) : Update :=
  let v := (u.written (w.aborted p) w).modSlot w.slot (fun x => { x with state := .empty })
  { v with reverts := v.reverts + 1, revertEvent := some (4, 8) }

theorem serves_updAbort_trial (v : Served s.blk h k updAbortRow) (hw : s.blk.upd.winner = some w)
    (hstate : s.blk.upd.state = .trial) (hp : w.prevSlot = some p) (hidle : s.blk.link.progress = [])
    (hasync : h.asyncOk = false) :
    Serves (.updAbort h) s h 0x0055 .ok s.blk.time.count [] [.update] [] (fun t =>
      t.upd = { s.blk.upd.aborted w p with resetDue := true } ∧ t.link.progress = []) := by
  refine serves_of_resetFollows (op := updAbortRow) (g := (·.aborted w p)) rfl rfl v hidle hasync (by decide) ?_
  have htrial : (s.blk.taken k h).upd.state = .trial := hstate
  have hwinner : (s.blk.taken k h).upd.winner = some w := hw
  have hrevert : (s.blk.taken k h).revert 4 8 = (s.blk.taken k h).modUpd (·.aborted w p) := by
    have hrecord := bootRecord_eq hwinner (w.aborted p)
    simp only [Block.revert, hwinner, hp]
    have hdone := congrArg (fun x : Block => (x.slotTo w.slot .empty).modUpd (fun u => { u with
      reverts := u.reverts + 1, revertEvent := some (4, 8) })) hrecord
    exact hdone
  simp only [dispatchUpdAbort, htrial, hrevert]

/-- What an UPD_ABORT of a trial leaves. -/
structure Aborted (u : Update) (w : BootRecord) (p : Bool) (v : Update) : Prop where
  stores : v.storeA = u.storeA ∧ v.storeB = u.storeB
  running : v.running = u.running
  due : v.resetDue = true
  trialSlot : (v.slot w.slot).state = .empty
  reverts : v.reverts = u.reverts + 1
  records : Records (w.aborted p) w v

theorem aborted_spec {u : Update} (hw : u.winner = some w) (p : Bool) :
    Aborted u w p { u.aborted w p with resetDue := true } := by
  have hrecorded := written_recorded u (w.aborted p) w
  obtain ⟨hstoreA, hstoreB, hrunning, -, hreverts⟩ := modSlot_rest (u.written (w.aborted p) w) w.slot
    (fun x => { x with state := .empty })
  exact {
    stores := ⟨hstoreA.trans hrecorded.stores.1, hstoreB.trans hrecorded.stores.2⟩
    running := hrunning.trans hrecorded.running
    due := rfl
    trialSlot := congrArg Slot.state (Update.slot_modSlot_same _ _ _)
    reverts := congrArg (· + 1) (hreverts.trans hrecorded.reverts)
    records := (written_records hw _).modSlot w.slot (fun _ => rfl) }

theorem serves_updAbort_download (v : Served s.blk h k updAbortRow)
    (hstate : s.blk.upd.state = .receiving ∨ s.blk.upd.state = .complete ∨ s.blk.upd.state = .verified) :
    Serves (.updAbort h) s h 0x0055 .ok s.blk.time.count [] (.update :: eventParts) (eventWords [18]) (fun t =>
      t.upd = (s.blk.upd.modSlot s.blk.upd.target (fun x => { x with state := .empty })).inState .idle
        ∧ (s.blk.upd.state ≠ .idle → Raised 18 s.blk t)
        ∧ (s.blk.link.progress = [] → t.link.progress = [])) := by
  refine serves_of_updThen (op := updAbortRow) (g := fun u => u.modSlot u.target (fun x => { x with state := .empty })) rfl rfl v ?_
    (Update.recovery_modSlot _ _ _) (Update.state_modSlot _ _ _)
  have hsame : (s.blk.taken k h).upd.state = s.blk.upd.state := rfl
  rcases hstate with hs | hs | hs <;>
  · simp only [dispatchUpdAbort, hsame, hs]
    rfl

end Abort

/-! ### SAVE_HOLD_END (R392) -/

theorem does_saveHoldEnd {s : State} {t0 at_ : Nat} (hbusy : s.blk.link.saveBusySince = some t0)
    (hdue : t0 + 200000000 ≤ s.blk.now at_) :
    Does (.saveHoldEnd at_) s [.linkOther] [] (fun t => t.link = { s.blk.link with saveBusySince := none }) := by
  have hexec : exec (.saveHoldEnd at_) s
      = .next { s with blk := s.blk.modLink (fun l => { l with saveBusySince := none }) } := by
    show execSaveHoldEnd at_ s = _
    simp only [execSaveHoldEnd, lift, hbusy, hdue, if_true]
  refine ⟨_, hexec, ?_, KeepsWords.of_regs rfl, rfl⟩
  intro q hq
  cases q <;> simp_all [BlockPart.same, sessSame, Block.modLink]

/-- Settles O59: each request changes the records, the slots and the state as its own lemma says. -/
theorem imagesAreActivatedAndConfirmed : Obligations.ImagesAreActivatedAndConfirmed := by
  intro s h w hw hrun hidle hasync b u k tick tells others records
  refine ⟨fun v => ⟨fun hstate hoff => ?_, fun hstate hon => ?_, fun hstate => ?_⟩,
    fun v => ⟨fun hstate => ?_, fun hstate => ?_, fun hstate => ?_⟩,
    fun v => ⟨fun hstate => ?_, fun p hstate hp => ?_, fun hstate => ?_, fun hstate => ?_⟩, fun v => ?_,
    fun t0 hbusy hdue => does_saveHoldEnd hbusy hdue⟩
  · refine (serves_updActivate v hw hstate hoff hidle hasync).imp fun t ⟨hupd, hprogress⟩ => ?_
    have e : Activated u w t.upd := hupd ▸ activated_spec hw hrun
    exact ⟨⟨e.stores.1, e.stores.2, e.running, hprogress⟩, e.due, e.target, e.other, e.activations, e.records⟩
  · refine serves_of_replyNow (op := updActivateRow) rfl rfl v ?_
    have hverified : (s.blk.taken k h).upd.state = .verified := hstate
    have hlive : (s.blk.taken k h).outputUnit = true := hon
    simp only [dispatchUpdActivate, hverified, hlive, ne_eq, not_true_eq_false, if_false, if_true]
  · exact serves_of_replyNow (op := updActivateRow) rfl rfl v (if_pos hstate)
  · refine (serves_updConfirm v hw hstate hidle hasync).imp fun t ⟨hupd, hraised, hprogress⟩ => ?_
    have hrecorded := written_recorded u (w.confirmed b.runInfo.svn) w
    have hrecords : Records (w.confirmed b.runInfo.svn) w t.upd := hupd ▸ written_records hw _
    exact ⟨⟨hupd ▸ hrecorded.stores.1, hupd ▸ hrecorded.stores.2, hupd ▸ hrecorded.running, hprogress hidle⟩, hupd ▸ rfl,
      hraised (by rw [hstate]; decide), hupd ▸ hrecorded.slotA, hupd ▸ hrecorded.slotB, hrecords⟩
  · refine serves_of_replyNow (op := updConfirmRow) rfl rfl v ?_
    have hsame : (s.blk.taken k h).upd.state = .idle := hstate
    simp only [dispatchUpdConfirm, hsame]
  · refine serves_of_replyNow (op := updConfirmRow) rfl rfl v ?_
    have hsame : (s.blk.taken k h).upd.state = .migrationFailed := hstate
    simp only [dispatchUpdConfirm, hsame]
  · refine (serves_updAbort_download v hstate).imp fun t ⟨hupd, hraised, hprogress⟩ => ?_
    obtain ⟨hother, hrec0, hrec1, hstoreA, hstoreB, hrunning⟩ := ((u.modSlot_aside _).inState _).of_eq hupd
    have hmoved : u.state ≠ .idle := by rcases hstate with hs | hs | hs <;> rw [hs] <;> decide
    exact ⟨⟨hstoreA, hstoreB, hrunning, hprogress hidle⟩, hupd ▸ rfl, hraised hmoved, hupd ▸ u.slot_modSlot_same _ _,
      hother, hrec0, hrec1⟩
  · refine (serves_updAbort_trial v hw hstate hp hidle hasync).imp fun t ⟨hupd, hprogress⟩ => ?_
    have e : Aborted u w p t.upd := hupd ▸ aborted_spec hw p
    exact ⟨⟨e.stores.1, e.stores.2, e.running, hprogress⟩, e.due, e.trialSlot, e.reverts, e.records⟩
  · refine serves_of_replyNow (op := updAbortRow) rfl rfl v ?_
    have hsame : (s.blk.taken k h).upd.state = .idle := hstate
    simp only [dispatchUpdAbort, hsame]
  · refine serves_of_replyNow (op := updAbortRow) rfl rfl v ?_
    have hsame : (s.blk.taken k h).upd.state = .verifying := hstate
    simp only [dispatchUpdAbort, hsame]
  · exact serves_of_replyNow (op := updStatusRow) rfl rfl v rfl

end Sys2Proof.Machine

/-! PROOFS. The Ethernet ports (12): link up and down, delay exchanges, EVENT packets, the order on the wire. -/

namespace Sys2Proof.Machine

open Sys2Proof (Word Byte Bytes Sess Hdr Instr EthPort)

/-! ### What the end of a session may change (R347) -/

/-- The parts that the end of a session may change. -/
def endParts : List BlockPart :=
  [.requests, .posted, .unitReqs, .units, .txns, .replies, .diary, .sessions, .sessRegs, .vigil, .clock, .motors, .hand]
    ++ eventParts

/-- `t` is `b` with sessions ended, or a part of what ends with one, that changes no part but those named. -/
structure Ends (l : List BlockPart) (b t : Block) : Prop where
  keeps : Keeps l b t
  words : KeepsWords (eventWords [6, 118, 123]) b t
  time : { t.time with hand := b.time.hand, run := b.time.run } = b.time
  halt : b.vig.dbg ≠ .halted → t.vig.dbg ≠ .halted ∧ t.eng.mot = b.eng.mot ∧ t.time.run = b.time.run

section Ends

variable {b t x : Block} {k : Sess} {at_ : Nat} {l : List BlockPart}

theorem Ends.refl (l : List BlockPart) (b : Block) : Ends l b b :=
  ⟨Keeps.refl _ _, KeepsWords.refl _ _, rfl, fun h => ⟨h, rfl, rfl⟩⟩

theorem Ends.trans (h : Ends l b x) (g : Ends l x t) : Ends l b t where
  keeps := h.keeps.trans g.keeps
  words := h.words.trans g.words
  time := by
    have hx := h.time
    have ht := g.time
    rw [← ht] at hx
    exact hx
  halt hfree := by
    obtain ⟨hx, hmot, hrun⟩ := h.halt hfree
    obtain ⟨ht, hmot', hrun'⟩ := g.halt hx
    exact ⟨ht, hmot'.trans hmot, hrun'.trans hrun⟩

theorem Ends.mono {m : List BlockPart} (h : Ends l b t) (hparts : l ⊆ m) : Ends m b t :=
  ⟨h.keeps.mono hparts, h.words, h.time, h.halt⟩

/-- What leaves the time base, the debug port and the PWM units alone. -/
theorem Ends.of_keeps (hkeeps : Keeps l b t)
    (hfree : .clock ∉ l ∧ .vigil ∉ l ∧ .motors ∉ l) (hwords : KeepsWords (eventWords [6, 118, 123]) b t) : Ends l b t := by
  obtain ⟨hclockFree, hvigilFree, hmotorsFree⟩ := hfree
  have hclock : { t.time with hand := 0 } = { b.time with hand := 0 } := hkeeps .clock hclockFree
  have hvigil : { t.vig with units := [], reqs := [] } = { b.vig with units := [], reqs := [] } := hkeeps .vigil hvigilFree
  have hrun : t.time.run = b.time.run := by simpa using congrArg Time.run hclock
  have hdbg : t.vig.dbg = b.vig.dbg := by simpa using congrArg Vigil.dbg hvigil
  refine ⟨hkeeps, hwords, ?_, fun h => ⟨by rwa [hdbg], hkeeps .motors hmotorsFree, hrun⟩⟩
  exact congrArg (fun x => { x with hand := b.time.hand, run := b.time.run }) hclock

theorem Ends.of_regs (hkeeps : Keeps l b t)
    (hfree : .clock ∉ l ∧ .vigil ∉ l ∧ .motors ∉ l) (hregs : t.regs = b.regs) : Ends l b t :=
  .of_keeps hkeeps hfree (KeepsWords.of_regs hregs)

theorem ends_raise (b : Block) {n : Nat} (c : Byte) (p : Payload) (at_ : Nat) (hn : n ∈ [6, 118, 123]) :
    Ends eventParts b (b.raise n c p at_) := by
  refine .of_keeps (raise_keeps b n c p at_ false) (by simp [eventParts]) ((raise_words b n c p at_ false).mono ?_)
  intro a ha
  simp only [eventWords, List.map_cons, List.map_nil, List.mem_cons, List.not_mem_nil, or_false] at ha hn ⊢
  rcases hn with rfl | rfl | rfl <;> tauto

/-! What ends with a session -/

theorem withdraw_keeps (b : Block) (k : Sess) (ended : Bool) :
    Keeps [.requests, .posted, .unitReqs, .units, .replies, .txns] b (b.withdraw k ended) := by
  intro q hq
  cases k <;> cases q <;>
    simp_all [BlockPart.same, sessSame, Block.withdraw, Block.modLink, Block.modSess, Link.modSess]

theorem withdraw_regs (b : Block) (k : Sess) (ended : Bool) : (b.withdraw k ended).regs = b.regs := by
  cases k <;> rfl

/-- The end of a session posted, before the session-loss states. -/
def Block.lossPosted (b : Block) (k : Sess) (ended : Bool) (at_ : Nat) : Block :=
  { (b.reaches at_).modLink (fun l => { l with arrivals := b.link.arrivals + 1 }) with
    posted := b.posted ++ [{ seq := b.link.arrivals, sess := some k, arrived := b.now at_, since := (b.reaches at_).stagedAt
                             act := .loss k ended }] }

/-- The session-loss state of a unit asked for. -/
def Block.losesUnit (b : Block) (k : Sess) (u : Nat) : Block :=
  if b.governor u = some k then
    match b.lossState k u with
    | some t => b.postUnit { unit := u, source := .vigil, target := t, cause := .sessionLoss }
    | none => b
  else b

theorem postLoss_eq (b : Block) (k : Sess) (ended : Bool) (at_ : Nat) :
    b.postLoss k ended at_ = (List.range 203).foldl (fun acc u => acc.losesUnit k u) (b.lossPosted k ended at_) := rfl

theorem losesUnit_keeps (b : Block) (k : Sess) (u : Nat) : Keeps [.unitReqs] b (b.losesUnit k u) := by
  unfold Block.losesUnit
  split
  · split
    · exact postUnit_keeps _ _
    · exact Keeps.refl _ _
  · exact Keeps.refl _ _

theorem losesUnit_regs (b : Block) (k : Sess) (u : Nat) : (b.losesUnit k u).regs = b.regs := by
  unfold Block.losesUnit
  split
  · split <;> rfl
  · rfl

theorem lossPosted_keeps (b : Block) (k : Sess) (ended : Bool) (at_ : Nat) :
    Keeps [.hand, .requests, .posted] b (b.lossPosted k ended at_) := by
  intro q hq
  cases q <;> simp_all [BlockPart.same, sessSame, Block.lossPosted, Block.modLink, Block.reaches]

theorem postLoss_keeps (b : Block) (k : Sess) (ended : Bool) (at_ : Nat) :
    Keeps [.hand, .requests, .posted, .unitReqs] b (b.postLoss k ended at_) := by
  rw [postLoss_eq]
  exact ((lossPosted_keeps b k ended at_).mono (by simp)).trans
    ((keeps_foldl _ _ _ _ (fun b u => losesUnit_keeps b k u)).mono (by simp))

theorem postLoss_regs (b : Block) (k : Sess) (ended : Bool) (at_ : Nat) : (b.postLoss k ended at_).regs = b.regs := by
  rw [postLoss_eq]
  exact foldl_regs _ _ _ (fun b u => losesUnit_regs b k u)

/-- The session closed, with what it held. -/
def Block.closeSess (b : Block) (k : Sess) (cause : SessEnd) : Block :=
  b.modSess k (fun s => { s with
    state := .closed, id := 0, addr := 0, port := 0, hostNonce := [], devNonce := [], endCause := cause
    events := [], evDiscarded := 0, latches := {} })

theorem closeSess_keeps (b : Block) (k : Sess) (cause : SessEnd) :
    Keeps [.sessions, .sessRegs, .evQueues] b (b.closeSess k cause) := by
  intro q hq
  cases k <;> cases q <;> simp_all [BlockPart.same, sessSame, Block.closeSess, Block.modSess, Link.modSess]

theorem closeSess_regs (b : Block) (k : Sess) (cause : SessEnd) : (b.closeSess k cause).regs = b.regs := rfl

theorem ends_sessionThaw (b : Block) (k : Sess) (at_ : Nat) : Ends eventParts b (b.sessionThaw k at_) := by
  have hthaw (f : Freeze) (hf : b.diary.freeze = some f) : Ends eventParts b (b.thaw (some 3) at_) := by
    have hend : Ends [.diary] b { b with diary := { b.diary with freeze := none } } := by
      refine .of_regs ?_ (by simp) rfl
      intro q hq
      cases q <;> simp_all [BlockPart.same, sessSame]
    unfold Block.thaw
    simp only [hf]
    exact (hend.mono (by simp [eventParts])).trans (ends_raise _ _ _ _ (by simp))
  unfold Block.sessionThaw
  split
  · next f hf =>
    split
    · exact hthaw f hf
    · exact Ends.refl _ b
  · exact Ends.refl _ b

/-! The debug port with the SERVICE session (R419, R420) -/

/-- The parts that locking the debug port may change. -/
def lockParts : List BlockPart := [.vigil, .clock, .motors] ++ eventParts

theorem raise_lockParts (b : Block) {n : Nat} (c : Byte) (p : Payload) (at_ : Nat) (hn : n ∈ [6, 118, 123]) :
    Ends lockParts b (b.raise n c p at_) :=
  (ends_raise b c p at_ hn).mono (List.subset_append_right _ _)

theorem ends_dbgResume (b : Block) (at_ : Nat) : Ends lockParts b (b.dbgResume at_) := by
  unfold Block.dbgResume
  split
  · next hhalted =>
    have hresumed : Ends lockParts b b.resumed :=
      ⟨resumed_keeps b, KeepsWords.of_regs rfl, rfl, fun h => absurd hhalted h⟩
    exact hresumed.trans (raise_lockParts _ _ _ _ (by simp))
  · exact Ends.refl _ b

theorem ends_lock (b : Block) : Ends lockParts b (b.modVig (fun g => { g with dbg := .locked })) where
  keeps := (modVig_keeps _ _ rfl rfl).mono (by simp [lockParts])
  words := KeepsWords.of_regs rfl
  time := rfl
  halt _ := ⟨by simp [Block.modVig], rfl, rfl⟩

theorem ends_dbgLock (b : Block) (at_ : Nat) : Ends lockParts b (b.dbgLock at_) := by
  unfold Block.dbgLock
  dsimp only
  split
  · exact ends_dbgResume b at_
  · exact (ends_dbgResume b at_).trans ((ends_lock _).trans (raise_lockParts _ _ _ _ (by simp)))

/-! The end of a session -/

/-- A session closed, with what ends at once, before its freeze, its debug unlock and its event. -/
def Block.endsAtOnce (b : Block) (k : Sess) (cause : SessEnd) (at_ : Nat) : Block :=
  (if b.isOpen k then (b.withdraw k true).postLoss k true at_ else b).closeSess k cause

theorem endSession_eq (b : Block) (k : Sess) (cause : SessEnd) (at_ : Nat) :
    b.endSession k cause at_ =
      let b3 := (b.endsAtOnce k cause at_).sessionThaw k at_
      let b4 := if b.isOpen k && k == .service then b3.dbgLock at_ else b3
      if b.isOpen k && cause != .close then b4.raise 6 1 (payS (sessIndex k + cause.code * 256)) at_ else b4 := rfl

/-- The parts that change as a session is closed. -/
def closeParts : List BlockPart :=
  [.requests, .posted, .unitReqs, .units, .replies, .txns, .hand, .sessions, .sessRegs, .evQueues]

/-- What a session held is withdrawn and its loss posted, where it was open. -/
theorem withdrawn_keeps (b : Block) (k : Sess) (at_ : Nat) :
    Keeps [.requests, .posted, .unitReqs, .units, .replies, .txns, .hand] b
      (if b.isOpen k then (b.withdraw k true).postLoss k true at_ else b) := by
  split
  · exact ((withdraw_keeps b k true).mono (by simp)).trans ((postLoss_keeps _ k true at_).mono (by simp))
  · exact Keeps.refl _ _

theorem ends_endsAtOnce (b : Block) (k : Sess) (cause : SessEnd) (at_ : Nat) :
    Ends closeParts b (b.endsAtOnce k cause at_) := by
  refine .of_regs (((withdrawn_keeps b k at_).mono (by simp [closeParts])).trans
    ((closeSess_keeps _ k cause).mono (by simp [closeParts]))) (by simp [closeParts]) ?_
  unfold Block.endsAtOnce
  split
  · exact (closeSess_regs _ _ _).trans ((postLoss_regs _ _ _ _).trans (withdraw_regs _ _ _))
  · exact closeSess_regs _ _ _

/-- The freeze, the debug unlock and the event of a session that ends. -/
theorem ends_after (b : Block) (k : Sess) (cause : SessEnd) (at_ : Nat) :
    Ends lockParts (b.endsAtOnce k cause at_) (b.endSession k cause at_) := by
  have hthaw : Ends lockParts (b.endsAtOnce k cause at_) ((b.endsAtOnce k cause at_).sessionThaw k at_) :=
    (ends_sessionThaw _ k at_).mono (List.subset_append_right _ _)
  have hlock (c : Bool) : Ends lockParts (b.endsAtOnce k cause at_)
      (if c then ((b.endsAtOnce k cause at_).sessionThaw k at_).dbgLock at_
        else (b.endsAtOnce k cause at_).sessionThaw k at_) := by
    cases c
    · exact hthaw
    · exact hthaw.trans (ends_dbgLock _ at_)
  rw [endSession_eq]
  dsimp only
  split
  · exact (hlock _).trans (raise_lockParts _ _ _ _ (by simp))
  · exact hlock _

theorem ends_endSession (b : Block) (k : Sess) (cause : SessEnd) (at_ : Nat) :
    Ends endParts b (b.endSession k cause at_) :=
  ((ends_endsAtOnce b k cause at_).mono (by simp [closeParts, endParts, eventParts])).trans
    ((ends_after b k cause at_).mono (by simp [lockParts, endParts, eventParts]))

/-- The state of a session, and the cause for which it last ended. -/
def Link.ending (l : Link) (k : Sess) : SessState × SessEnd := ((l.sess k).state, (l.sess k).endCause)

theorem ending_of_keeps (hkeeps : Keeps l b t) (hl : .sessions ∉ l) (k : Sess) : t.link.ending k = b.link.ending k := by
  obtain ⟨hmain, hservice⟩ := hkeeps .sessions hl
  cases k
  · exact congrArg (fun x => (x.1, x.2.2.2.2.2.2)) hmain
  · exact congrArg (fun x => (x.1, x.2.2.2.2.2.2)) hservice

theorem closeSess_ending (b : Block) (k j : Sess) (cause : SessEnd) :
    (b.closeSess k cause).link.ending j = if j = k then (.closed, cause) else b.link.ending j := by
  cases k <;> cases j <;> rfl

/-- The session is closed with its cause, the other as it was. -/
theorem endSession_ending (b : Block) (k j : Sess) (cause : SessEnd) (at_ : Nat) :
    (b.endSession k cause at_).link.ending j = if j = k then (.closed, cause) else b.link.ending j := by
  rw [ending_of_keeps (ends_after b k cause at_).keeps (by simp [lockParts, eventParts]), Block.endsAtOnce, closeSess_ending]
  split
  · rfl
  · exact ending_of_keeps (withdrawn_keeps b k at_) (by simp) j

/-- A session that is not closed ends for the loss of the link (R347). -/
def Block.closes (b : Block) (k : Sess) (at_ : Nat) : Block :=
  if (b.link.sess k).state = .closed then b else b.endSession k .linkLost at_

theorem ends_closes (b : Block) (k : Sess) (at_ : Nat) : Ends endParts b (b.closes k at_) := by
  unfold Block.closes
  split
  · exact Ends.refl _ b
  · exact ends_endSession b k .linkLost at_

theorem closes_ending (b : Block) (k j : Sess) (at_ : Nat) :
    (b.closes k at_).link.ending j
      = if j = k ∧ (b.link.ending k).1 ≠ .closed then (.closed, .linkLost) else b.link.ending j := by
  unfold Block.closes
  split
  · next hclosed => rw [if_neg (fun h => h.2 hclosed)]
  · next hopen =>
    rw [endSession_ending]
    exact if_congr (by simp [Link.ending, hopen]) rfl rfl

/-- What the loss of a port's link ends: through ETH_A every session (R347). -/
def Block.endsSessions (b : Block) (p : EthPort) (at_ : Nat) : Block :=
  match p with
  | .a => (b.closes .main at_).closes .service at_
  | .b => b

theorem ends_endsSessions (b : Block) (p : EthPort) (at_ : Nat) : Ends endParts b (b.endsSessions p at_) := by
  cases p
  · exact (ends_closes b .main at_).trans (ends_closes _ .service at_)
  · exact Ends.refl _ b

theorem endsSessions_ending (b : Block) (k : Sess) (at_ : Nat) :
    (b.endsSessions .a at_).link.ending k
      = if (b.link.ending k).1 ≠ .closed then (.closed, .linkLost) else b.link.ending k := by
  show ((b.closes .main at_).closes .service at_).link.ending k = _
  rw [closes_ending, closes_ending, closes_ending]
  cases k <;> simp

end Ends

/-! ### The ports (R490, R491, R495) -/

section Ports

variable {b t : Block} {p : EthPort} {s : State} {at_ : Nat}

/-- The other port. -/
def otherEth : EthPort → EthPort
  | .a => .b
  | .b => .a

theorem port_modEth_same (b : Block) (p : EthPort) (f : Port → Port) :
    (b.modPort_ p f).link.port p = f (b.link.port p) := by cases p <;> rfl

theorem port_modEth_other (b : Block) (p : EthPort) (f : Port → Port) :
    (b.modPort_ p f).link.port (otherEth p) = b.link.port (otherEth p) := by cases p <;> rfl

theorem modEth_keeps (b : Block) (p : EthPort) (f : Port → Port) : Keeps [.ports] b (b.modPort_ p f) := by
  intro q hq
  cases p <;> cases q <;> simp_all [BlockPart.same, sessSame, Block.modPort_, Block.modLink]

theorem modEth_regs (b : Block) (p : EthPort) (f : Port → Port) : (b.modPort_ p f).regs = b.regs := by cases p <;> rfl

theorem port_of_keeps {l : List BlockPart} (hkeeps : Keeps l b t) (hl : .ports ∉ l) (p : EthPort) :
    t.link.port p = b.link.port p := by
  obtain ⟨ha, hb⟩ := hkeeps .ports hl
  cases p
  · exact ha
  · exact hb

theorem word_of_words {l : List Nat} (hwords : KeepsWords l b t) {r : Reg} {i j : Nat} (hl : addr r i j ∉ l) :
    t.word r i j = b.word r i j := hwords _ hl _

/-- A port that has lost its link. -/
def Port.lost (x : Port) : Port := { x with up := false, goodExchanges := 0, sqi := 0 }

/-- The port down, and counted. -/
def Block.ethLost (b : Block) (p : EthPort) : Block := (b.count .LINK_PHY_CNT (portNo p) 7 0).modPort_ p Port.lost

theorem linkDown_eq (hup : (b.link.port p).up = true) (at_ : Nat) :
    b.linkDown p at_ = ((b.ethLost p).raise (8 + portNo p) 1 payZ at_).endsSessions p at_ := by
  unfold Block.linkDown
  rw [hup]
  cases p <;> rfl

theorem ethLost_keeps (b : Block) (p : EthPort) : Keeps [.ports] b (b.ethLost p) :=
  ((count_keeps _ _ _ _ _ _).mono (by simp)).trans (modEth_keeps _ p _)

theorem ethLost_words (b : Block) (p : EthPort) : KeepsWords [addr .LINK_PHY_CNT (portNo p)] b (b.ethLost p) :=
  (count_words _ _ _ _ _ _).trans (KeepsWords.of_regs (modEth_regs _ _ _))

theorem ethLost_port (b : Block) (p : EthPort) : (b.ethLost p).link.port p = (b.link.port p).lost :=
  port_modEth_same _ p _

theorem ethLost_other (b : Block) (p : EthPort) : (b.ethLost p).link.port (otherEth p) = b.link.port (otherEth p) :=
  port_modEth_other _ p _

theorem ethLost_rest (b : Block) (p : EthPort) :
    (b.ethLost p).time = b.time ∧ (b.ethLost p).vig = b.vig ∧ (b.ethLost p).eng = b.eng := by
  cases p <;> exact ⟨rfl, rfl, rfl⟩

theorem ethLost_count (b : Block) (p : EthPort) :
    (b.ethLost p).fld .LINK_PHY_CNT (portNo p) 7 0 = min (b.fld .LINK_PHY_CNT (portNo p) 7 0 + 1) 255 :=
  (fld_congr 7 0 (word_of_regs (modEth_regs _ _ _) _ _ _)).trans (fld_count_same b .LINK_PHY_CNT (portNo p) 1 (by decide))

/-- The parts that a link lost may change. -/
def lostParts : List BlockPart :=
  [.requests, .posted, .unitReqs, .units, .txns, .replies, .diary, .sessions, .sessRegs, .vigil, .clock, .motors, .hand,
    .ports] ++ eventParts

/-- The words that it may change. -/
def lostWords (p : EthPort) : List Nat := addr .LINK_PHY_CNT (portNo p) :: eventWords [6, 8 + portNo p, 118, 123]

/-- What the loss of the link of port `p` leaves, but for the port itself. -/
structure LinkLost (p : EthPort) (b t : Block) : Prop where
  keeps : Keeps lostParts b t
  words : KeepsWords (lostWords p) b t
  other : t.link.port (otherEth p) = b.link.port (otherEth p)
  raised : Raised (8 + portNo p) b t
  count : t.fld .LINK_PHY_CNT (portNo p) 7 0 = min (b.fld .LINK_PHY_CNT (portNo p) 7 0 + 1) 255
  ended : p = .a → ∀ k, t.link.ending k = if (b.link.ending k).1 ≠ .closed then (.closed, .linkLost) else b.link.ending k
  time : { t.time with hand := b.time.hand, run := b.time.run } = b.time
  halt : b.vig.dbg ≠ .halted → t.eng.mot = b.eng.mot ∧ t.time.run = b.time.run
  lasting : p = .b → ∀ k, t.link.ending k = b.link.ending k

/-- The port down, counted and its event raised. -/
theorem raisesLoss_words (b : Block) (p : EthPort) (at_ : Nat) :
    KeepsWords (lostWords p) b ((b.ethLost p).raise (8 + portNo p) 1 payZ at_) :=
  ((ethLost_words b p).mono (by simp [lostWords])).trans
    ((raise_words _ _ _ _ _ _).mono (by simp [lostWords, eventWords]))

theorem raisesLoss_raised (b : Block) (p : EthPort) (at_ : Nat) :
    Raised (8 + portNo p) b ((b.ethLost p).raise (8 + portNo p) 1 payZ at_) :=
  raised_from (raise_raised _ _ _ _ _ _ (by cases p <;> simp [portNo]))
    (word_of_words (ethLost_words b p) (by cases p <;> decide))

theorem raisesLoss_count (b : Block) (p : EthPort) (at_ : Nat) :
    ((b.ethLost p).raise (8 + portNo p) 1 payZ at_).fld .LINK_PHY_CNT (portNo p) 7 0
      = min (b.fld .LINK_PHY_CNT (portNo p) 7 0 + 1) 255 :=
  (fld_congr 7 0 (word_of_words (raise_words _ _ _ _ _ _) (by cases p <;> decide))).trans (ethLost_count b p)

/-- The sessions that end with a link lost leave its port, its counts and its event. -/
theorem linkLost_linkDown (hup : (b.link.port p).up = true) (at_ : Nat) : LinkLost p b (b.linkDown p at_) := by
  rw [linkDown_eq hup]
  have hends := ends_endsSessions ((b.ethLost p).raise (8 + portNo p) 1 payZ at_) p at_
  have hraise := raise_keeps (b.ethLost p) (8 + portNo p) 1 payZ at_ false
  have hstart (k : Sess) : ((b.ethLost p).raise (8 + portNo p) 1 payZ at_).link.ending k = b.link.ending k :=
    (ending_of_keeps hraise (by simp [eventParts]) k).trans (ending_of_keeps (ethLost_keeps b p) (by simp) k)
  have hport (q : EthPort) :
      (((b.ethLost p).raise (8 + portNo p) 1 payZ at_).endsSessions p at_).link.port q = (b.ethLost p).link.port q :=
    (port_of_keeps hends.keeps (by simp [endParts, eventParts]) q).trans (port_of_keeps hraise (by simp [eventParts]) q)
  obtain ⟨htimeLost, hvigLost, hengLost⟩ := ethLost_rest b p
  exact {
    keeps := ((ethLost_keeps b p).mono (by simp [lostParts])).trans
      ((hraise.mono (List.subset_append_right _ _)).trans (hends.keeps.mono (by simp [endParts, eventParts])))
    words := (raisesLoss_words b p at_).trans (hends.words.mono (by simp [lostWords, eventWords]))
    other := (hport _).trans (ethLost_other b p)
    raised := (word_of_words hends.words (by cases p <;> decide)).trans (raisesLoss_raised b p at_)
    count := (fld_congr 7 0 (word_of_words hends.words (by cases p <;> decide))).trans (raisesLoss_count b p at_)
    ended hp k := by
      subst hp
      rw [endsSessions_ending, hstart]
    time := by
      have htime := hends.time
      rw [raise_time, htimeLost] at htime
      exact htime
    halt hfree := by
      obtain ⟨-, hmot, hrun⟩ := hends.halt (by rwa [raise_vig, hvigLost])
      exact ⟨hmot.trans (by rw [raise_eng, hengLost]), hrun.trans (by rw [raise_time, htimeLost])⟩
    lasting hp k := by
      subst hp
      exact hstart k }

/-- What is set of the port afterwards changes nothing else of it. -/
theorem LinkLost.modEth (h : LinkLost p b t) (f : Port → Port) : LinkLost p b (t.modPort_ p f) where
  keeps := h.keeps.trans ((modEth_keeps t p f).mono (by simp [lostParts]))
  words := h.words.trans (KeepsWords.of_regs (modEth_regs t p f))
  other := (port_modEth_other t p f).trans h.other
  raised := raised_of_regs _ h.raised (modEth_regs t p f)
  count := (fld_congr 7 0 (word_of_regs (modEth_regs t p f) _ _ _)).trans h.count
  ended hp k := (ending_of_keeps (modEth_keeps t p f) (by simp) k).trans (h.ended hp k)
  time := by cases p <;> exact h.time
  halt := by cases p <;> exact h.halt
  lasting hp k := (ending_of_keeps (modEth_keeps t p f) (by simp) k).trans (h.lasting hp k)

theorem linkDown_port (hup : (b.link.port p).up = true) (at_ : Nat) :
    (b.linkDown p at_).link.port p = (b.link.port p).lost := by
  rw [linkDown_eq hup]
  exact (port_of_keeps (ends_endsSessions _ p at_).keeps (by simp [endParts, eventParts]) p).trans
    ((port_of_keeps (raise_keeps _ _ _ _ _ _) (by simp [eventParts]) p).trans (ethLost_port b p))

/-- What the obligation says of a link lost. -/
def Dropped (p : EthPort) (b t : Block) : Prop :=
  t.link.port (otherEth p) = b.link.port (otherEth p) ∧ Raised (8 + portNo p) b t
    ∧ t.fld .LINK_PHY_CNT (portNo p) 7 0 = min (b.fld .LINK_PHY_CNT (portNo p) 7 0 + 1) 255
    ∧ (p = .a → ∀ k ∈ [Sess.main, .service], (t.link.sess k).state = .closed
        ∧ ((b.link.sess k).state ≠ .closed → (t.link.sess k).endCause = .linkLost))
    ∧ { t.time with hand := b.time.hand, run := b.time.run } = b.time
    ∧ (b.vig.dbg ≠ .halted → t.eng.mot = b.eng.mot ∧ t.time.run = b.time.run)
    ∧ (p = .b → ∀ k ∈ [Sess.main, .service], (t.link.sess k).state = (b.link.sess k).state)

theorem LinkLost.dropped (h : LinkLost p b t) : Dropped p b t := by
  refine ⟨h.other, h.raised, h.count, fun hp k _ => ?_, h.time, h.halt, fun hp k _ => congrArg Prod.fst (h.lasting hp k)⟩
  have hended := h.ended hp k
  by_cases hclosed : (b.link.ending k).1 = .closed
  · rw [if_neg (not_not_intro hclosed)] at hended
    exact ⟨(congrArg Prod.fst hended).trans hclosed, fun hopen => absurd hclosed hopen⟩
  · rw [if_pos hclosed] at hended
    exact ⟨congrArg Prod.fst hended, fun _ => congrArg Prod.snd hended⟩

theorem does_ethLinkDown (hup : (s.blk.link.port p).up = true) (at_ : Nat) :
    Does (.ethLinkDown p at_) s lostParts (lostWords p) (fun t => Dropped p s.blk t
      ∧ t.link.port p = (s.blk.link.port p).lost) := by
  have hlost := linkLost_linkDown hup at_
  exact ⟨s.blk.linkDown p at_, rfl, hlost.keeps, hlost.words, hlost.dropped, linkDown_port hup at_⟩

theorem exec_phyRoleChange {t0 : Nat} (hrole : (s.blk.link.port p).roleAt = some t0) (hdue : t0 ≤ s.blk.now at_) :
    exec (.phyRoleChange p at_) s = .next { s with
      blk := (s.blk.linkDown p at_).modPort_ p (fun x => { x with
        roleAt := none, leader := s.blk.flag .LINK_PHY_ROLE 0 (portNo p) }) } := by
  show execPhyRoleChange p at_ s = _
  simp only [execPhyRoleChange, lift, hrole]
  rw [if_pos hdue]
  cases p <;> rfl

theorem does_phyRoleChange (hup : (s.blk.link.port p).up = true) {t0 : Nat}
    (hrole : (s.blk.link.port p).roleAt = some t0) (hdue : t0 ≤ s.blk.now at_) :
    Does (.phyRoleChange p at_) s lostParts (lostWords p) (fun t => Dropped p s.blk t
      ∧ t.link.port p = { (s.blk.link.port p).lost with
          roleAt := none, leader := s.blk.flag .LINK_PHY_ROLE 0 (portNo p) }) := by
  have hlost := (linkLost_linkDown hup at_).modEth
    (fun x => { x with roleAt := none, leader := s.blk.flag .LINK_PHY_ROLE 0 (portNo p) })
  refine ⟨_, exec_phyRoleChange hrole hdue, hlost.keeps, hlost.words, hlost.dropped, ?_⟩
  rw [port_modEth_same, linkDown_port hup]

/-! Links that come up, and delay exchanges (R331, R335, R491) -/

/-- The port trained, before its event. -/
def Block.trained (b : Block) (p : EthPort) (trainMs : Nat) (sqi : Fin 8) : Block :=
  (b.modPort_ p (fun x => { x with up := true, trainMs := min trainMs 65535, sqi := sqi.val })).modLink
    (fun l => { l with dadDone := true })

theorem exec_ethLinkUp (hdown : (s.blk.link.port p).up = false) (hawake : s.blk.eng.pwr.state ≠ .dormant) (trainMs : Nat)
    (sqi : Fin 8) :
    exec (.ethLinkUp p trainMs sqi) s = .next { s with
      blk := if (s.blk.trained p trainMs sqi).evt.cond.getLsbD (8 + portNo p) then
          (s.blk.trained p trainMs sqi).raise (8 + portNo p) 2 payZ
        else s.blk.trained p trainMs sqi } := by
  show execEthLinkUp p trainMs sqi s = _
  have hcond : ¬ ((s.blk.link.port p).up = true ∨ s.blk.eng.pwr.state = .dormant) := by simp [hdown, hawake]
  simp only [execEthLinkUp, lift]
  rw [if_neg hcond]
  rfl

theorem dadDone_keeps (b : Block) : Keeps [.linkOther] b (b.modLink (fun l => { l with dadDone := true })) := by
  intro q hq
  cases q <;> simp_all [BlockPart.same, sessSame, Block.modLink]

theorem trained_keeps (b : Block) (p : EthPort) (trainMs : Nat) (sqi : Fin 8) :
    Keeps [.ports, .linkOther] b (b.trained p trainMs sqi) :=
  ((modEth_keeps b p _).mono (by simp)).trans ((dadDone_keeps _).mono (by simp))

theorem trained_regs (b : Block) (p : EthPort) (trainMs : Nat) (sqi : Fin 8) : (b.trained p trainMs sqi).regs = b.regs :=
  modEth_regs b p _

theorem trained_port (b : Block) (p : EthPort) (trainMs : Nat) (sqi : Fin 8) :
    (b.trained p trainMs sqi).link.port p
      = { b.link.port p with up := true, trainMs := min trainMs 65535, sqi := sqi.val } := by cases p <;> rfl

theorem trained_other (b : Block) (p : EthPort) (trainMs : Nat) (sqi : Fin 8) :
    (b.trained p trainMs sqi).link.port (otherEth p) = b.link.port (otherEth p) := by cases p <;> rfl

/-- The second code of a condition ends it, where its source is enabled (R431). -/
theorem assert_endsCond (b : Block) {n : Nat} (now : Nat) (hcondition : isCondition n = true) (hn : n < 126) :
    (b.assert n 2 now).evt.cond.getLsbD n = false := by
  have hlevel : n ≠ 126 := by omega
  have hbit : (BitVec.ofNat 128 (2 ^ n)).getLsbD n = true := by
    rw [BitVec.getLsbD_ofNat, Nat.testBit_two_pow_self]
    simpa using Nat.lt_of_lt_of_le hn (by decide)
  have hcond : (b.assert n 2 now).evt.cond = b.evt.cond &&& ~~~BitVec.ofNat 128 (2 ^ n) := by
    simp only [Block.assert, hcondition]
    simp [hlevel]
  rw [hcond, BitVec.getLsbD_and, BitVec.getLsbD_not, hbit]
  simp

theorem raise_endsCond (b : Block) {n : Nat} (x : Payload) (at_ : Nat) (hcondition : isCondition n = true) (hn : n < 126)
    (hcfg : addr .EVT_CFG n ∉ [addr .EVT_CNT n]) (henabled : b.evtEnabled n = true) :
    (b.raise n 2 x at_).evt.cond.getLsbD n = false := by
  have hsame : (b.countWrap .EVT_CNT n 31 0).evtEnabled n = b.evtEnabled n := by
    unfold Block.evtEnabled Block.flag
    rw [word_of_words (countWrap_words b .EVT_CNT n 31 0 1) hcfg]
  have hrouted (t : Block) (o : Occurrence) : (((t.toQueues o x).toDiary o x).dtcUpdate n).evt = t.evt :=
    (dtcUpdate_keeps _ n .events (by simp)).trans
      ((toDiary_keeps _ o x .events (by simp)).trans (toQueues_keeps t o x .events (by simp)))
  unfold Block.raise
  dsimp only
  rw [if_pos (hsame.trans henabled), hrouted]
  exact assert_endsCond _ _ hcondition hn

theorem does_ethLinkUp (hdown : (s.blk.link.port p).up = false) (hawake : s.blk.eng.pwr.state ≠ .dormant) (trainMs : Nat)
    (sqi : Fin 8) :
    Does (.ethLinkUp p trainMs sqi) s (.ports :: .linkOther :: eventParts) (eventWords [8 + portNo p]) (fun t =>
      t.link.port (otherEth p) = s.blk.link.port (otherEth p)
        ∧ t.link.port p = { s.blk.link.port p with up := true, trainMs := min trainMs 65535, sqi := sqi.val }
        ∧ (s.blk.evtEnabled (8 + portNo p) = true → t.evt.cond.getLsbD (8 + portNo p) = false)) := by
  have hkeeps := trained_keeps s.blk p trainMs sqi
  have hregs := trained_regs s.blk p trainMs sqi
  have hother := trained_other s.blk p trainMs sqi
  have hport := trained_port s.blk p trainMs sqi
  refine ⟨_, exec_ethLinkUp hdown hawake trainMs sqi, ?_⟩
  split
  · have hraise := raise_keeps (s.blk.trained p trainMs sqi) (8 + portNo p) 2 payZ 0 false
    refine ⟨(hkeeps.mono (by simp)).trans (hraise.mono (by simp)), (KeepsWords.of_regs hregs).trans (raise_words _ _ _ _ _ _),
      (port_of_keeps hraise (by simp [eventParts]) _).trans hother,
      (port_of_keeps hraise (by simp [eventParts]) _).trans hport, fun henabled => ?_⟩
    refine raise_endsCond _ _ _ (by cases p <;> decide) (by cases p <;> decide) (by cases p <;> decide) ?_
    unfold Block.evtEnabled Block.flag at henabled ⊢
    rwa [word_of_regs hregs]
  · next hcond => exact ⟨hkeeps.mono (by simp), .of_regs hregs, hother, hport, fun _ => Bool.eq_false_iff.mpr hcond⟩

theorem exec_pdelayExchange (hup : (s.blk.link.port p).up = true) (delay : Option Nat) :
    exec (.pdelayExchange p delay) s = .next { s with
      blk := s.blk.modPort_ p (fun x => match delay with
        | some d => { x with linkDelay := min d 65535, goodExchanges := x.goodExchanges + 1, lastExchange := s.blk.time.now }
        | none => { x with goodExchanges := 0 }) } := by
  show execPdelayExchange p delay s = _
  simp only [execPdelayExchange, lift, hup]
  rfl

/-- A change of a port, and what is read of it. -/
theorem does_modEth {i : Instr} {f : Port → Port} {y : Port} {Q : Block → Prop}
    (hexec : exec i s = .next { s with blk := s.blk.modPort_ p f }) (hy : f (s.blk.link.port p) = y)
    (hQ : ∀ t, t.regs = s.blk.regs → t.link.port p = y → Q t) :
    Does i s [.ports] [] (fun t => t.link.port (otherEth p) = s.blk.link.port (otherEth p) ∧ t.link.port p = y ∧ Q t) := by
  have hport := (port_modEth_same s.blk p f).trans hy
  exact ⟨_, hexec, modEth_keeps _ _ _, .of_regs (modEth_regs _ _ _), port_modEth_other _ _ _, hport,
    hQ _ (modEth_regs _ _ _) hport⟩

theorem does_pdelayExchange (hup : (s.blk.link.port p).up = true) (d : Nat) :
    Does (.pdelayExchange p (some d)) s [.ports] [] (fun t => t.link.port (otherEth p) = s.blk.link.port (otherEth p)
      ∧ t.link.port p = { s.blk.link.port p with
          linkDelay := min d 65535, goodExchanges := (s.blk.link.port p).goodExchanges + 1, lastExchange := s.blk.time.now }
      ∧ (t.asCapable (t.link.port p) = true ↔
          2 ≤ (s.blk.link.port p).goodExchanges ∧ min d 65535 ≤ s.blk.fld .LINK_PTP_CFG 0 15 0)) := by
  refine does_modEth (exec_pdelayExchange hup (some d)) rfl fun t hregs hport => ?_
  have hthreshold : t.fld .LINK_PTP_CFG 0 15 0 = s.blk.fld .LINK_PTP_CFG 0 15 0 := fld_congr _ _ (word_of_regs hregs _ _ _)
  rw [hport]
  simp [Block.asCapable, hthreshold]

theorem does_pdelayFails (hup : (s.blk.link.port p).up = true) :
    Does (.pdelayExchange p none) s [.ports] [] (fun t => t.link.port (otherEth p) = s.blk.link.port (otherEth p)
      ∧ t.link.port p = { s.blk.link.port p with goodExchanges := 0 } ∧ t.asCapable (t.link.port p) = false) := by
  refine does_modEth (exec_pdelayExchange hup none) rfl fun t _ hport => ?_
  rw [hport]
  rfl

theorem does_neighbourSolicitation (hlinked : s.blk.linked = true) (source : BitVec 128) :
    Does (.neighbourSolicitation .a s.blk.linkLocal source) s [.linkOther] [] (fun t =>
      t.link = { s.blk.link with advertisements := s.blk.link.advertisements ++ [source] }) := by
  refine ⟨s.blk.modLink (fun l => { l with advertisements := l.advertisements ++ [source] }), ?_, ?_, .of_regs rfl, rfl⟩
  · show execNeighbourSolicitation .a s.blk.linkLocal source s = _
    simp [execNeighbourSolicitation, lift, hlinked]
  · intro q hq
    cases q <;> simp_all [BlockPart.same, sessSame, Block.modLink]

end Ports

/-! ### EVENT packets (R434) -/

section EventPackets

variable {s : State} {k : Sess} {o : Occurrence} {rest : List Occurrence} {at_ : Nat}

/-- The payload of an EVENT packet: up to 43 entries, and how many were lost. -/
def Session.eventPayload (x : Session) : Bytes :=
  leBytes 1 (min 43 x.events.length) ++ [0] ++ leBytes 2 x.evDiscarded
    ++ ((x.events.take 43).map Occurrence.eventBytes).flatten

/-- The queue without the entries sent. -/
def Session.eventsSent (x : Session) : Session := { x with events := x.events.drop 43, evDiscarded := 0 }

theorem exec_eventPacketSend (hevents : (s.blk.link.sess k).events = o :: rest)
    (hopened : (s.blk.link.sess k).state = .opened)
    (hdue : 43 ≤ (s.blk.link.sess k).events.length ∨ o.first + s.blk.fld .EVT_CTRL 0 7 0 * 1000000 ≤ s.blk.now at_) :
    exec (.eventPacketSend k at_) s = .next { s with
      blk := (s.blk.sendOwn k 0x0080 0 (s.blk.link.sess k).eventPayload at_).modSess k Session.eventsSent } := by
  have hpayload : leBytes 1 ((s.blk.link.sess k).events.take 43).length ++ leBytes 1 0
      ++ leBytes 2 (s.blk.link.sess k).evDiscarded ++ (((s.blk.link.sess k).events.take 43).map Occurrence.eventBytes).flatten
      = (s.blk.link.sess k).eventPayload := by
    rw [List.length_take]
    rfl
  show execEventPacketSend k at_ s = _
  rw [← hpayload]
  simp only [execEventPacketSend, lift]
  split
  · next hnone => exact absurd (hevents.symm.trans hnone) nofun
  · next hsome =>
    cases hevents.symm.trans hsome
    rw [if_pos ⟨hopened, hdue⟩]
    rfl

theorem modSess_eventsSent_keeps (b : Block) (k : Sess) : Keeps [.evQueues] b (b.modSess k Session.eventsSent) := by
  intro q hq
  cases k <;> cases q <;> simp_all [BlockPart.same, sessSame, Block.modSess, Link.modSess, Session.eventsSent]

theorem sess_modSess_same (b : Block) (k : Sess) (f : Session → Session) : (b.modSess k f).link.sess k = f (b.link.sess k) := by
  cases k <;> rfl

theorem sess_modSess_other (b : Block) (k : Sess) (f : Session → Session) :
    (b.modSess k f).link.sess (otherSess k) = b.link.sess (otherSess k) := by cases k <;> rfl

theorem sendOwn_other (b : Block) (k : Sess) (op : BitVec 16) (q : Fin 4) (payload : Bytes) (at_ : Nat) :
    (b.sendOwn k op q payload at_).link.sess (otherSess k) = b.link.sess (otherSess k) := by
  unfold Block.sendOwn
  dsimp only
  split
  · cases k <;> rfl
  · rfl

theorem sendOwn_events (b : Block) (k : Sess) (op : BitVec 16) (q : Fin 4) (payload : Bytes) (at_ : Nat) :
    ((b.sendOwn k op q payload at_).link.sess k).events = (b.link.sess k).events := by
  obtain ⟨hmain, hservice⟩ := sendOwn_keeps b k op q payload at_ .evQueues (by simp)
  cases k
  · exact congrArg Prod.fst hmain
  · exact congrArg Prod.fst hservice

theorem does_eventPacketSend (hevents : (s.blk.link.sess k).events = o :: rest)
    (hopened : (s.blk.link.sess k).state = .opened)
    (hdue : 43 ≤ (s.blk.link.sess k).events.length ∨ o.first + s.blk.fld .EVT_CTRL 0 7 0 * 1000000 ≤ s.blk.now at_) :
    Does (.eventPacketSend k at_) s [.sent, .evQueues] [] (fun t =>
      t.link.sent = s.blk.link.sent ++ ownPackets s.blk k 0x0080 0 [(s.blk.link.sess k).eventPayload]
        ∧ (t.link.sess k).events = (s.blk.link.sess k).events.drop 43 ∧ (t.link.sess k).evDiscarded = 0
        ∧ t.link.sess (otherSess k) = s.blk.link.sess (otherSess k)) := by
  have hsends := modSess_eventsSent_keeps (s.blk.sendOwn k 0x0080 0 (s.blk.link.sess k).eventPayload at_) k
  have hqueue := sess_modSess_same (s.blk.sendOwn k 0x0080 0 (s.blk.link.sess k).eventPayload at_) k Session.eventsSent
  refine ⟨_, exec_eventPacketSend hevents hopened hdue,
    ((sendOwn_keeps _ _ _ _ _ _).mono (by simp)).trans (hsends.mono (by simp)), .of_regs (sendOwn_regs ..), ?_, ?_, ?_,
    (sess_modSess_other _ _ _).trans (sendOwn_other ..)⟩
  · exact (hsends .sent (by simp)).1.trans (sendOwn_sent k 0x0080 0 _ at_)
  · rw [hqueue]
    exact congrArg (List.drop 43) (sendOwn_events ..)
  · rw [hqueue]
    rfl

end EventPackets

/-! ### The order on the wire (R364) -/

section Wire

variable {x : Transmit} {p q : Packet} {c : Nat}

theorem priority_le (p : Packet) : p.priority ≤ 3 := by
  unfold Packet.priority
  repeat' split
  all_goals omega

/-- What is found first stays so where the test is narrowed. -/
theorem find?_of_narrowed {α : Type} {l : List α} {f g : α → Bool} {a : α} (hfind : l.find? f = some a) (ha : g a = true)
    (hnarrow : ∀ r ∈ l, g r = true → f r = true) : l.find? g = some a := by
  obtain ⟨-, before, after, rfl, hbefore⟩ := List.find?_eq_some_iff_append.mp hfind
  refine List.find?_eq_some_iff_append.mpr ⟨ha, before, after, rfl, fun r hr => ?_⟩
  have hf : f r = false := by simpa using hbefore r hr
  have hmem : r ∈ before ++ a :: after := List.mem_append_left _ hr
  by_cases hg : g r = true
  · exact absurd (hnarrow r hmem hg) (by simp [hf])
  · simpa using hg

/-- The test by which a packet is the oldest of its class and turn. -/
def sameTurn (p r : Packet) : Bool := r.priority == p.priority && (r.opcode == 0x0083) == (p.opcode == 0x0083)

/-- `p` is the oldest waiting packet of its class and turn, of no lower class than `q`, and it is its turn before `q`. -/
def GoesBefore (x : Transmit) (q p : Packet) : Prop :=
  p ∈ x.waiting ∧ p.priority ≤ q.priority ∧ x.waiting.find? (sameTurn p) = some p
    ∧ (p.priority = 3 → (q.opcode == 0x0083) ≠ (p.opcode == 0x0083) → (p.opcode == 0x0083) = !x.traceLast)

/-- The oldest packet of a class goes before what is of no higher class. -/
theorem goesBefore_of_class (hfind : x.waiting.find? (fun r => r.priority == c) = some p) (hc : c ≤ q.priority)
    (hfirst : c < 3) : GoesBefore x q p := by
  have hp : p.priority = c := by simpa using List.find?_some hfind
  refine ⟨List.mem_of_find?_eq_some hfind, hp.trans_le hc, find?_of_narrowed hfind (by simp [sameTurn]) fun r _ hr => ?_,
    fun hlast => absurd (hp.symm.trans hlast) hfirst.ne⟩
  rw [sameTurn, Bool.and_eq_true, hp] at hr
  exact hr.1

/-- With the last class alone waiting, the oldest of the turn that is due goes first. -/
theorem goesBefore_of_turn (hlast : ∀ r ∈ x.waiting, r.priority = 3)
    (hfind : x.waiting.find? (fun r => (r.opcode == 0x0083) != x.traceLast) = some p) (hq : q ∈ x.waiting) :
    GoesBefore x q p := by
  have hmem := List.mem_of_find?_eq_some hfind
  have hp := List.find?_some hfind
  refine ⟨hmem, by rw [hlast p hmem, hlast q hq], find?_of_narrowed hfind (by simp [sameTurn]) fun r _ hr => ?_,
    fun _ _ => Bool.eq_not_of_ne (bne_iff_ne.mp hp)⟩
  rw [sameTurn, Bool.and_eq_true, beq_iff_eq (a := (r.opcode == 0x0083))] at hr
  rw [hr.2]
  exact hp

/-- With no packet of the turn that is due, the oldest of the last class goes first. -/
theorem goesBefore_of_head {l : List Packet} (hlast : ∀ r ∈ x.waiting, r.priority = 3)
    (hnone : x.waiting.find? (fun r => (r.opcode == 0x0083) != x.traceLast) = none) (hwaiting : x.waiting = p :: l)
    (hq : q ∈ x.waiting) : GoesBefore x q p := by
  have hmem : p ∈ x.waiting := by simp [hwaiting]
  have hturn (r : Packet) (hr : r ∈ x.waiting) : (r.opcode == 0x0083) = x.traceLast := by
    simpa using List.find?_eq_none.mp hnone r hr
  refine ⟨hmem, by rw [hlast p hmem, hlast q hq], ?_, fun _ hne => absurd ((hturn q hq).trans (hturn p hmem).symm) hne⟩
  rw [hwaiting]
  exact List.find?_cons_of_pos (by simp [sameTurn])

theorem priority_ne_of_none (hnone : x.waiting.find? (fun r => r.priority == c) = none) (hq : q ∈ x.waiting) :
    q.priority ≠ c := by simpa using List.find?_eq_none.mp hnone q hq

theorem next_goesBefore (hq : q ∈ x.waiting) : ∃ p, x.next = some p ∧ GoesBefore x q p := by
  unfold Transmit.next
  cases h0 : x.waiting.find? (fun r => r.priority == 0) with
  | some p => exact ⟨p, by simp [List.findSome?, h0], goesBefore_of_class h0 (Nat.zero_le _) (by decide)⟩
  | none =>
  have hne0 {r : Packet} (hr : r ∈ x.waiting) := priority_ne_of_none h0 hr
  cases h1 : x.waiting.find? (fun r => r.priority == 1) with
  | some p => exact ⟨p, by simp [List.findSome?, h0, h1], goesBefore_of_class h1 (Nat.pos_of_ne_zero (hne0 hq)) (by decide)⟩
  | none =>
  have hne1 {r : Packet} (hr : r ∈ x.waiting) := priority_ne_of_none h1 hr
  cases h2 : x.waiting.find? (fun r => r.priority == 2) with
  | some p =>
    refine ⟨p, by simp [List.findSome?, h0, h1, h2], goesBefore_of_class h2 ?_ (by decide)⟩
    have := hne0 hq
    have := hne1 hq
    omega
  | none =>
  have hlast (r : Packet) (hr : r ∈ x.waiting) : r.priority = 3 := by
    have := priority_le r
    have := hne0 hr
    have := hne1 hr
    have := priority_ne_of_none h2 hr
    omega
  cases hturn : x.waiting.find? (fun r => (r.opcode == 0x0083) != x.traceLast) with
  | some p => exact ⟨p, by simp [List.findSome?, h0, h1, h2], goesBefore_of_turn hlast hturn hq⟩
  | none =>
    cases hwaiting : x.waiting with
    | nil => exact absurd hq (by simp [hwaiting])
    | cons p l =>
      refine ⟨p, ?_, goesBefore_of_head hlast hturn hwaiting hq⟩
      rw [hwaiting] at h0 h1 h2
      simp [List.findSome?, h0, h1, h2]

end Wire

/-- Settles O43: the loss of a link by the sessions that end with it, the order on the wire by its classes and turns. -/
theorem portsAndEventPackets : Obligations.PortsAndEventPackets := by
  intro s p at_
  cases p <;> exact ⟨
    fun hup => ⟨does_ethLinkDown hup at_, fun _ hrole hdue => does_phyRoleChange hup hrole hdue⟩,
    fun hdown hawake trainMs sqi => does_ethLinkUp hdown hawake trainMs sqi,
    fun hup => ⟨does_pdelayExchange hup, does_pdelayFails hup⟩,
    does_neighbourSolicitation,
    fun _ _ _ hevents hopened hdue => does_eventPacketSend hevents hopened hdue,
    fun _ _ hq => next_goesBefore hq⟩

end Sys2Proof.Machine

/-! PROOFS. Feedback (03): changes of the axes, of the serial ports, and of what both count. -/

namespace Sys2Proof.Machine

open Sys2Proof (Word Byte Bytes Sess Hdr Instr)

/-- A command that does what it does leaves what follows from it. -/
theorem Does.imp {i : Instr} {s : State} {parts : List BlockPart} {words : List Nat} {P Q : Block → Prop}
    (h : Does i s parts words P) (hPQ : ∀ t, P t → Q t) : Does i s parts words Q := by
  obtain ⟨t, hexec, hkeeps, hwords, hP⟩ := h
  exact ⟨t, hexec, hkeeps, hwords, hPQ t hP⟩

/-! ### The tables of the feedback group -/

section FeedbackTables

variable {b t : Block} {a p : Nat}

theorem modFb_keeps (b : Block) (f : Feedback → Feedback) : Keeps [.feedback] b (b.modFb f) := by
  intro q hq
  cases q <;> simp_all [BlockPart.same, sessSame, Block.modFb]

theorem axis_congr (h : t.eng.fb.axes[a]? = b.eng.fb.axes[a]?) : t.axis a = b.axis a := by
  simp only [Block.axis, nth, List.getD_eq_getElem?_getD, h]

theorem raiseItems_axis (b : Block) (n : Nat) (c : Byte) (k : Nat) (units : List Nat) (at_ : Nat) (w : Bool) (a : Nat) :
    (b.raiseItems n c k units at_ w).axis a = b.axis a := axis_congr (by rw [raiseItems_eng])

theorem axis_modAxis_same (f : Axis → Axis) (ha : a < b.eng.fb.axes.length) : (b.modAxis a f).axis a = f (b.axis a) :=
  nth_modNth_same f ha

theorem port_modPort_same (f : SPort → SPort) (hp : p < b.eng.fb.ports.length) :
    (b.modPort p f).port p = f (b.port p) :=
  nth_modNth_same f hp

theorem modPort_modPort (b : Block) (p : Nat) (f g : SPort → SPort) :
    (b.modPort p f).modPort p g = b.modPort p (fun x => g (f x)) :=
  congrArg (fun l => b.modFb fun x => { x with ports := l }) (modNth_modNth f g)

theorem Block.Sound.axes_length (h : b.Sound) : b.eng.fb.axes.length = 32 := by
  have hs := h.sizes
  simp only [Engines.sizes, List.cons.injEq] at hs
  obtain ⟨-, haxes, -⟩ := hs
  exact haxes

theorem Block.Sound.axis_lt (h : b.Sound) (ha : a < 32) : a < b.eng.fb.axes.length := h.axes_length.symm ▸ ha

theorem Block.Sound.ports_length (h : b.Sound) : b.eng.fb.ports.length = 4 := by
  have hs := h.sizes
  simp only [Engines.sizes, List.cons.injEq] at hs
  obtain ⟨-, -, hports, -⟩ := hs
  exact hports

theorem Block.Sound.port_lt (h : b.Sound) (p : Fin 4) : (p : Nat) < b.eng.fb.ports.length :=
  h.ports_length.symm ▸ p.isLt

end FeedbackTables

/-! ### The words of the feedback group -/

section FeedbackWords

variable {w n a : Nat}

/-- The words that changes of axes count in: the error counters of the axes, and the counts of events. -/
def axisCounts (sources axes : List Nat) : List Nat := axes.map (fun a => addr .AXIS_ERR_CNT a) ++ eventWords sources

/-- A word of the feedback group is no count of an event. -/
theorem feedbackWord_notMem {sources : List Nat} (hw : w / 0x10000 = 6) (hs : ∀ n ∈ sources, n < 128) :
    w ∉ eventWords sources := by
  simp only [eventWords, List.mem_cons, List.mem_map, addr, desc, not_or, not_exists, not_and]
  refine ⟨by omega, by omega, fun n hn => ?_⟩
  have := hs n hn
  omega

/-- The settings of an axis that its counts are made by. -/
def axisSettings : List Reg := [.AXIS_CFG, .AXIS_BIND, .AXIS_LIM_LO, .AXIS_LIM_HI]

theorem axisSettings_notMem {r : Reg} {sources axes : List Nat} (hr : r ∈ axisSettings) (ha : a < 32)
    (hs : ∀ n ∈ sources, n < 128) : addr r a ∉ axisCounts sources axes := by
  have hplace : addr r a / 0x10000 = 6 ∧ addr r a % 128 < 92 := by
    simp only [axisSettings, List.mem_cons, List.not_mem_nil, or_false] at hr
    rcases hr with rfl | rfl | rfl | rfl <;> simp only [addr, desc] <;> omega
  rw [axisCounts, List.mem_append, not_or]
  refine ⟨?_, feedbackWord_notMem hplace.1 hs⟩
  simp only [List.mem_map, addr, desc, not_exists, not_and]
  simp only [addr, desc] at hplace
  omega

theorem axisErrors_notMem {sources axes : List Nat} (ha : a < 32) (haxes : a ∉ axes)
    (hs : ∀ n ∈ sources, n < 128) : addr .AXIS_ERR_CNT a ∉ axisCounts sources axes := by
  rw [axisCounts, List.mem_append, not_or]
  refine ⟨?_, feedbackWord_notMem (by simp only [addr, desc]; omega) hs⟩
  simp only [List.mem_map, addr, desc, not_exists, not_and]
  intro x hx h
  have : x = a := by omega
  exact haxes (this ▸ hx)

end FeedbackWords

/-! ### Changes of some axes -/

/-- `t` is `b` with nothing changed but the axes listed, the pass-through outputs, the counts of both and of the event
    sources, and the parts named. -/
structure AxesChange (parts : List BlockPart) (sources axes : List Nat) (b t : Block) : Prop where
  keeps : Keeps (.feedback :: parts) b t
  words : KeepsWords (axisCounts sources axes) b t
  others : ∀ a ∉ axes, t.eng.fb.axes[a]? = b.eng.fb.axes[a]?
  length : t.eng.fb.axes.length = b.eng.fb.axes.length
  rest : { t.eng.fb with axes := [], pts := [] } = { b.eng.fb with axes := [], pts := [] }

/-- `x` shows axis `a` as `b` does: itself, what its counts are made by, its error counters, the time. -/
structure SameAxis (a : Nat) (b x : Block) : Prop where
  axis : x.axis a = b.axis a
  settings : ∀ r ∈ axisSettings, x.word r a = b.word r a
  errors : x.word .AXIS_ERR_CNT a = b.word .AXIS_ERR_CNT a
  now : ∀ at_, x.now at_ = b.now at_
  length : x.eng.fb.axes.length = b.eng.fb.axes.length

section ChangesOfAxes

variable {P : List BlockPart} {S l m : List Nat} {b t u : Block} {a n : Nat}

theorem axisCounts_mono (h : l ⊆ m) : axisCounts S l ⊆ axisCounts S m := by
  unfold axisCounts
  exact List.append_subset.mpr ⟨List.Subset.trans (List.map_subset _ h) (List.subset_append_left _ _),
    List.subset_append_right _ _⟩

theorem AxesChange.refl (P : List BlockPart) (S l : List Nat) (b : Block) : AxesChange P S l b b :=
  ⟨Keeps.refl _ _, KeepsWords.refl _ _, fun _ _ => rfl, rfl, rfl⟩

theorem AxesChange.trans (h : AxesChange P S l b t) (g : AxesChange P S l t u) : AxesChange P S l b u where
  keeps := h.keeps.trans g.keeps
  words := h.words.trans g.words
  others a ha := (g.others a ha).trans (h.others a ha)
  length := g.length.trans h.length
  rest := g.rest.trans h.rest

theorem AxesChange.mono (h : AxesChange P S l b t) (hl : l ⊆ m) : AxesChange P S m b t where
  keeps := h.keeps
  words := h.words.mono (axisCounts_mono hl)
  others a ha := h.others a (fun hmem => ha (hl hmem))
  length := h.length
  rest := h.rest

theorem AxesChange.ite {c : Prop} [Decidable c] (h : AxesChange P S l b t) (g : AxesChange P S l b u) :
    AxesChange P S l b (if c then t else u) := by
  split <;> assumption

/-- What leaves the feedback group as it was changes no axis. -/
theorem AxesChange.of_keeps (hkeeps : Keeps P b t) (hP : .feedback ∉ P) (hwords : KeepsWords (axisCounts S l) b t) :
    AxesChange P S l b t := by
  have hfb : t.eng.fb = b.eng.fb := hkeeps .feedback hP
  exact ⟨hkeeps.mono (List.subset_cons_self _ _), hwords, fun _ _ => by rw [hfb], by rw [hfb], by rw [hfb]⟩

/-- A change of the axes listed, made with the feedback group alone. -/
theorem AxesChange.of_modFb {f : Feedback → Feedback}
    (hothers : ∀ a ∉ l, (f b.eng.fb).axes[a]? = b.eng.fb.axes[a]?)
    (hlength : (f b.eng.fb).axes.length = b.eng.fb.axes.length)
    (hrest : { f b.eng.fb with axes := [], pts := [] } = { b.eng.fb with axes := [], pts := [] }) :
    AxesChange P S l b (b.modFb f) where
  keeps := (modFb_keeps b f).mono (by simp)
  words := KeepsWords.of_regs rfl
  others := hothers
  length := hlength
  rest := hrest

theorem modAxis_change (b : Block) (a : Nat) (f : Axis → Axis) : AxesChange P S [a] b (b.modAxis a f) :=
  .of_modFb (fun _ he => keepsRows_modNth a _ f _ (by simpa using he)) (modNth_length _ _ _) rfl

theorem divideCount_change (b : Block) (a n at_ : Nat) : AxesChange P S l b (b.divideCount a n at_) :=
  .of_modFb (fun _ _ => rfl) rfl rfl

theorem divideCount_axis (b : Block) (e a n at_ : Nat) : (b.divideCount e n at_).axis a = b.axis a := rfl

theorem countErrors_change (hP : .feedback ∉ P) (b : Block) (a m l n : Nat) :
    AxesChange P S [a] b (b.count .AXIS_ERR_CNT a m l n) :=
  .of_keeps ((count_keeps _ _ _ _ _ _).mono (List.nil_subset _)) hP
    ((count_words _ _ _ _ _ _).mono (by simp [axisCounts]))

theorem eventWords_mono (hn : n ∈ S) : eventWords [n] ⊆ eventWords S := by
  intro w hw
  simp only [eventWords, List.map_cons, List.map_nil, List.mem_cons, List.not_mem_nil, or_false] at hw ⊢
  exact hw.imp_right (Or.imp_right fun h => List.mem_map.mpr ⟨n, hn, h.symm⟩)

theorem raiseItems_change (hP : .feedback ∉ P) (hevents : eventParts ⊆ P) (hn : n ∈ S) (b : Block) (c : Byte)
    (k : Nat) (units : List Nat) (at_ : Nat) (w : Bool) : AxesChange P S l b (b.raiseItems n c k units at_ w) :=
  .of_keeps ((raiseItems_keeps _ _ _ _ _ _ _).mono hevents) hP
    ((raiseItems_words _ _ _ _ _ _ _).mono (List.Subset.trans (eventWords_mono hn) (List.subset_append_right _ _)))

/-- Axes changed one after the other. -/
theorem AxesChange.foldl {g : Block → Nat → Block} (hg : ∀ x a, AxesChange P S [a] x (g x a))
    (l : List Nat) (b : Block) :
    AxesChange P S l b (l.foldl g b) := by
  induction l generalizing b with
  | nil => exact .refl _ _ _ _
  | cons a l ih => exact ((hg b a).mono (by simp)).trans ((ih _).mono (List.subset_cons_self _ _))

/-- Of axes changed one after the other, each is changed once, with the others changed before and after it. -/
theorem AxesChange.foldl_at {g : Block → Nat → Block} (hg : ∀ x a, AxesChange P S [a] x (g x a)) (hl : l.Nodup)
    (ha : a ∈ l) (b : Block) :
    ∃ before after x, a ∉ before ∧ a ∉ after ∧ AxesChange P S before b x ∧
      AxesChange P S after (g x a) (l.foldl g b) := by
  obtain ⟨before, after, rfl⟩ := List.append_of_mem ha
  rw [List.nodup_middle, List.nodup_cons, List.mem_append, not_or] at hl
  refine ⟨before, after, before.foldl g b, hl.1.1, hl.1.2, .foldl hg _ _, ?_⟩
  rw [List.foldl_append, List.foldl_cons]
  exact .foldl hg _ _

theorem AxesChange.axis (h : AxesChange P S l b t) (ha : a ∉ l) : t.axis a = b.axis a := axis_congr (h.others a ha)

theorem AxesChange.errors (h : AxesChange P S l b t) (hS : ∀ n ∈ S, n < 128) (ha : a < 32) (hal : a ∉ l) :
    t.word .AXIS_ERR_CNT a = b.word .AXIS_ERR_CNT a := h.words _ (axisErrors_notMem ha hal hS) _

theorem AxesChange.settings (h : AxesChange P S l b t) (hS : ∀ n ∈ S, n < 128) (ha : a < 32) {r : Reg}
    (hr : r ∈ axisSettings) : t.word r a = b.word r a := h.words _ (axisSettings_notMem hr ha hS) _

theorem AxesChange.now (h : AxesChange P S l b t) (hP : .clock ∉ P) (at_ : Nat) : t.now at_ = b.now at_ := by
  have hclock : { t.time with hand := 0 } = { b.time with hand := 0 } := h.keeps .clock (by simpa using hP)
  have hnow := congrArg Time.now hclock
  exact congrArg (· + at_) hnow

/-- Changes of other axes leave an axis as it was. -/
theorem AxesChange.sameAxis (h : AxesChange P S l b t) (hP : .clock ∉ P) (hS : ∀ n ∈ S, n < 128) (ha : a < 32)
    (hal : a ∉ l) : SameAxis a b t where
  axis := h.axis hal
  settings _ hr := h.settings hS ha hr
  errors := h.errors hS ha hal
  now := h.now hP
  length := h.length

end ChangesOfAxes

end Sys2Proof.Machine

/-! PROOFS. Feedback (03): what a sample of the inputs counts. -/

namespace Sys2Proof.Machine

open Sys2Proof (Word Byte Bytes Sess Hdr Instr)

/-! ### What a sample changes (R72 to R91) -/

/-- A count may raise the events of illegal transitions, limits and the index, and ask its axis FAULTED. -/
abbrev CountsChange : List Nat → Block → Block → Prop :=
  AxesChange ([.unitReqs, .hand] ++ eventParts) [32, 33, 35, 36, 38]

section Counts

theorem raiseItems_countsChange {n : Nat} (hn : n ∈ [32, 33, 35, 36, 38]) (l : List Nat) (b : Block) (c : Byte)
    (k : Nat) (units : List Nat) (at_ : Nat) (w : Bool) : CountsChange l b (b.raiseItems n c k units at_ w) :=
  raiseItems_change (by decide) (by decide) hn b c k units at_ w

theorem errors_countsChange (b : Block) (a m l k n : Nat) (hn : n ∈ [32, 33, 35, 36, 38])
    (units : List Nat) (at_ : Nat) :
    CountsChange [a] b ((b.count .AXIS_ERR_CNT a m l).raiseItems n 1 k units at_) :=
  (countErrors_change (by decide) _ _ _ _ _).trans (raiseItems_countsChange hn _ _ _ _ _ _ _)

theorem faultUnit_countsChange (l : List Nat) (b : Block) (u at_ : Nat) : CountsChange l b (b.faultUnit u at_) :=
  .of_keeps ((faultUnit_keeps _ _ _ _).mono (by decide)) (by decide) (KeepsWords.of_regs rfl)

theorem moveAxis_change (b : Block) (a : Nat) (forward : Bool) (at_ : Nat) :
    CountsChange [a] b (b.moveAxis a forward at_) := by
  have hmoved (f : Axis → Axis) : CountsChange [a] b ((b.modAxis a f).divideCount a 1 at_) :=
    (modAxis_change _ _ _).trans (divideCount_change _ _ _ _)
  have hlimit (f : Axis → Axis) (c : Prop) [Decidable c] :=
    AxesChange.ite (c := c)
      ((hmoved f).trans (errors_countsChange _ a 31 24 0 33 (by decide) [unitAxis a] at_)) (hmoved f)
  have hlost {x : Block} (hx : CountsChange [a] b x) :=
    (hx.trans (modAxis_change x a fun x => { x with indexLost := true })).trans
      (raiseItems_countsChange (n := 36) (by decide) _ _ 1 0 [unitAxis a] at_ false)
  unfold Block.moveAxis
  exact .ite (.ite ((hlost (hlimit _ _)).trans (faultUnit_countsChange _ _ _ _)) (hlost (hlimit _ _))) (hlimit _ _)

theorem countAxis_change (b : Block) (a : Nat) (fwd hyst : Bool) (at_ : Nat) :
    CountsChange [a] b (b.countAxis a fwd hyst at_) := by
  have hmove (x : Block) (f : Axis → Axis) (forward : Bool) :=
    (modAxis_change x a f).trans (moveAxis_change (x.modAxis a f) a forward at_)
  unfold Block.countAxis
  dsimp only
  split
  · exact .ite ((hmove _ _ _).trans (moveAxis_change _ _ _ _)) (modAxis_change _ _ _)
  · exact .ite (hmove _ _ _) (.ite (modAxis_change _ _ _) (hmove _ _ _))

theorem countError_change (b : Block) (a at_ : Nat) : CountsChange [a] b (b.countError a at_) :=
  errors_countsChange _ _ _ _ _ _ (by decide) _ _

theorem hallStep_change (b : Block) (a before code at_ : Nat) : CountsChange [a] b (b.hallStep a before code at_) := by
  have hcount (fwd : Bool) (x : Block) := countAxis_change x a fwd true at_
  have hcode := modAxis_change (P := [.unitReqs, .hand] ++ eventParts) (S := [32, 33, 35, 36, 38]) b a
    (fun x => { x with hall := code })
  unfold Block.hallStep
  dsimp only
  split
  · exact (modAxis_change _ _ _).trans (errors_countsChange _ _ _ _ _ _ (by decide) _ _)
  · exact hcode
  · split
    · exact hcode
    · exact hcode.trans (hcount true _)
    · exact hcode.trans (hcount false _)
    · exact ((hcode.trans (hcount true _)).trans (hcount true _)).trans (countError_change _ _ _)
    · exact ((hcode.trans (hcount false _)).trans (hcount false _)).trans (countError_change _ _ _)
    · exact (hcode.trans (modAxis_change _ _ _)).trans (countError_change _ _ _)

theorem indexEdge_change (b : Block) (a at_ : Nat) : CountsChange [a] b (b.indexEdge a at_) := by
  have hseen (f : Axis → Axis) := (modAxis_change b a f).trans
    (errors_countsChange (b.modAxis a f) a 23 16 0 38 (by decide) [unitAxis a] at_)
  unfold Block.indexEdge
  dsimp only
  refine .ite (modAxis_change _ _ _) (.ite ?_ (modAxis_change _ _ _))
  split
  · exact (hseen _).trans (modAxis_change _ _ _)
  · exact (hseen _).trans (faultUnit_countsChange _ _ _ _)
  · exact hseen _

/-- A sample of the inputs changes of an axis what its count and its index change. -/
theorem sampleAxis_change (old new : BitVec 49) (b : Block) (a at_ : Nat) :
    CountsChange [a] b (b.sampleAxis old new a at_) := by
  have hindexed {x : Block} (c : Prop) [Decidable c] (hx : CountsChange [a] b x) :
      CountsChange [a] b (if c then x.indexEdge a at_ else x) := .ite (hx.trans (indexEdge_change _ _ _)) hx
  have hcount (fwd hyst : Bool) := countAxis_change b a fwd hyst at_
  unfold Block.sampleAxis
  refine hindexed _ ?_
  split
  · refine .ite (countError_change _ _ _) (.ite (.refl _ _ _ _) ?_)
    dsimp only
    split
    · exact hcount _ _
    · exact .ite (hcount _ _) (.refl _ _ _ _)
    · exact .ite (hcount _ _) (.refl _ _ _ _)
  · exact .ite (.refl _ _ _ _) (hallStep_change _ _ _ _ _)
  · exact .ite (hcount _ _) (.refl _ _ _ _)
  · exact .ite (hcount _ _) (.refl _ _ _ _)
  · exact .refl _ _ _ _

end Counts

/-! ### The accepted levels (R72, R73) -/

section Levels

variable {b : Block} {i : Nat}

theorem getLsbD_foldl_or (p : Nat → Bool) (l : List Nat) (w : BitVec 49) (hi : i < 49) :
    (l.foldl (fun acc j => if p j then acc ||| BitVec.ofNat 49 (2 ^ j) else acc) w).getLsbD i
      = (w.getLsbD i || (decide (i ∈ l) && p i)) := by
  induction l generalizing w with
  | nil => simp
  | cons j l ih =>
    have hbit : (BitVec.ofNat 49 (2 ^ j)).getLsbD i = decide (j = i) := by
      rw [BitVec.getLsbD_ofNat, Nat.testBit_two_pow, decide_eq_true hi, Bool.true_and]
    rw [List.foldl_cons, ih, apply_ite (BitVec.getLsbD · i), BitVec.getLsbD_or, hbit]
    by_cases hj : j = i
    · subst hj
      cases p j <;> simp
    · cases p j <;> simp [hj, Ne.symm hj]

theorem levelOf_accepted (old levels : BitVec 49) (held : Nat) (counts : List Nat) (hi : i < 49) :
    levelOf (b.accepted old levels held counts) i = b.acceptedLevel old levels held counts i := by
  unfold levelOf Block.accepted
  rw [getLsbD_foldl_or _ _ _ hi]
  simp [hi]

end Levels

/-! ### The units follow their halls (R251, R252) -/

/-- The block with each PWM unit following its halls. -/
def Block.hallsFollowed (b : Block) (at_ : Nat) : Block :=
  (List.range 16).foldl (fun acc u => acc.followHall u (fineOf (acc.now at_)) maskLag) b

/-- The words in which the units count what their halls do. -/
def hallWords : List Nat :=
  (List.range 16).map (fun u => addr .MDRV_CNT1 u) ++ (List.range 16).map (fun u => addr .MDRV_COMM_CNT u)

section Halls

variable {b : Block} {at_ : Nat}

theorem motorSettle_keeps (b : Block) (u n : Nat) : Keeps [.motors] b (b.motorSettle u n) :=
  (motorSettle_changesMot b u n).keeps

theorem modMot_keeps (b : Block) (u : Nat) (f : Motor → Motor) : Keeps [.motors] b (b.modMot u f) := modMots_keeps _ _

theorem followHall_keeps (b : Block) (u n lag : Nat) : Keeps [.motors] b (b.followHall u n lag) := by
  unfold Block.followHall
  dsimp only
  split
  · exact Keeps.refl _ _
  · split
    · refine Keeps.trans ?_ (motorSettle_keeps _ _ _)
      split
      · exact modMot_keeps _ _ _
      · exact (modMot_keeps _ _ _).trans ((countWrap_keeps _ _ _ _ _ _).mono (by simp))
    · refine Keeps.trans ?_ (motorSettle_keeps _ _ _)
      split
      · exact Keeps.refl _ _
      · exact (modMot_keeps _ _ _).trans ((count_keeps _ _ _ _ _ _).mono (by simp))

theorem followHall_words (b : Block) {u : Nat} (hu : u < 16) (n lag : Nat) :
    KeepsWords hallWords b (b.followHall u n lag) := by
  have hcnt : addr .MDRV_CNT1 u ∈ hallWords :=
    List.mem_append_left _ (List.mem_map.mpr ⟨u, List.mem_range.mpr hu, rfl⟩)
  have hcomm : addr .MDRV_COMM_CNT u ∈ hallWords :=
    List.mem_append_right _ (List.mem_map.mpr ⟨u, List.mem_range.mpr hu, rfl⟩)
  have hsettle (x : Block) (k : Nat) : KeepsWords hallWords x (x.motorSettle u k) := KeepsWords.of_regs rfl
  unfold Block.followHall
  dsimp only
  split
  · exact KeepsWords.refl _ _
  · split
    · refine KeepsWords.trans ?_ (hsettle _ _)
      split
      · exact KeepsWords.of_regs rfl
      · exact KeepsWords.trans (KeepsWords.of_regs rfl) ((countWrap_words _ _ _ _ _ _).mono (by simpa using hcomm))
    · refine KeepsWords.trans ?_ (hsettle _ _)
      split
      · exact KeepsWords.refl _ _
      · exact KeepsWords.trans (KeepsWords.of_regs rfl) ((count_words _ _ _ _ _ _).mono (by simpa using hcnt))

theorem hallsFollowed_keeps (b : Block) (at_ : Nat) : Keeps [.motors] b (b.hallsFollowed at_) :=
  keeps_foldl _ _ _ _ fun x u => followHall_keeps x u _ _

theorem hallsFollowed_words (b : Block) (at_ : Nat) : KeepsWords hallWords b (b.hallsFollowed at_) := fun w hw d =>
  foldl_leaves (fun x => fileGet x.regs w d) _ _ b fun x _ hu => followHall_words x (List.mem_range.mp hu) _ _ w hw d

theorem hallsFollowed_fb (b : Block) (at_ : Nat) : (b.hallsFollowed at_).eng.fb = b.eng.fb :=
  hallsFollowed_keeps b at_ .feedback (by simp)

theorem axisErrors_notMem_hallWords {a : Nat} (ha : a < 32) : addr .AXIS_ERR_CNT a ∉ hallWords := by
  simp only [hallWords, List.mem_append, List.mem_map, List.mem_range, addr, desc, not_or, not_exists, not_and]
  exact ⟨fun u hu => by omega, fun u hu => by omega⟩

end Halls

/-! ### FB_EDGE_ACCEPTED (R72 to R91) -/

/-- The axes once they have taken a sample, one after the other. -/
def Block.axesSampled (b : Block) (old new : BitVec 49) (at_ : Nat) : Block :=
  (List.range 32).foldl (fun acc a => acc.sampleAxis old new a at_) b

/-- What an accepted edge leaves of a block. -/
def Block.edgeTaken (b : Block) (seen : Sys2Proof.FbSample) (at_ : Nat) : Block :=
  (b.fbEdges seen.levels seen.held seen.cycles at_).hallsFollowed at_

section Edges

variable {s : State} {b : Block} {seen : Sys2Proof.FbSample} {a at_ : Nat}

theorem axesSampled_change (old new : BitVec 49) (b : Block) (at_ : Nat) :
    CountsChange (List.range 32) b (b.axesSampled old new at_) :=
  .foldl (fun x a => sampleAxis_change old new x a at_) _ b

theorem exec_fbEdgeAccepted (hticking : s.blk.ticking = true) :
    exec (.fbEdgeAccepted seen at_) s = .next { s with blk := s.blk.edgeTaken seen at_ } := by
  show execFbEdgeAccepted seen at_ s = _
  exact next_if_pos hticking

theorem fbEdges_keeps (b : Block) (levels : BitVec 49) (held : Nat) (cycles : List (Fin 8 × Nat)) (at_ : Nat) :
    Keeps (.feedback :: ([.unitReqs, .hand] ++ eventParts)) b (b.fbEdges levels held cycles at_) :=
  (axesSampled_change _ _ b at_).keeps.trans ((modFb_keeps _ _).mono (by simp))

theorem fbEdges_words (b : Block) (levels : BitVec 49) (held : Nat) (cycles : List (Fin 8 × Nat)) (at_ : Nat) :
    KeepsWords (axisCounts [32, 33, 35, 36, 38] (List.range 32)) b (b.fbEdges levels held cycles at_) :=
  (axesSampled_change _ _ b at_).words.trans (KeepsWords.of_regs rfl)

theorem does_fbEdgeAccepted {P : Block → Prop} (hticking : s.blk.ticking = true) (hP : P (s.blk.edgeTaken seen at_)) :
    Does (.fbEdgeAccepted seen at_) s
      ([BlockPart.feedback, BlockPart.motors, BlockPart.unitReqs, BlockPart.hand] ++ eventParts)
      (eventWords [32, 33, 35, 36, 38] ++ (List.range 32).map (fun a => addr .AXIS_ERR_CNT a)
        ++ (List.range 16).map (fun u => addr .MDRV_CNT1 u)
        ++ (List.range 16).map (fun u => addr .MDRV_COMM_CNT u)) P := by
  refine ⟨_, exec_fbEdgeAccepted hticking,
    ((fbEdges_keeps _ _ _ _ _).mono (by decide)).trans ((hallsFollowed_keeps _ _).mono (by decide)),
    ((fbEdges_words _ _ _ _ _).mono ?_).trans ((hallsFollowed_words _ _).mono ?_), hP⟩
  · intro w hw
    simp only [axisCounts, List.mem_append] at hw ⊢
    tauto
  · intro w hw
    simp only [hallWords, List.mem_append] at hw ⊢
    tauto

theorem edgeTaken_level (b : Block) (seen : Sys2Proof.FbSample) (at_ : Nat) {i : Nat} (hi : i < 49) :
    levelOf (b.edgeTaken seen at_).eng.fb.levels i
      = b.acceptedLevel b.eng.fb.levels seen.levels seen.held [] i := by
  unfold Block.edgeTaken
  rw [hallsFollowed_fb]
  exact levelOf_accepted _ _ _ _ hi

/-- The levels that an accepted edge is judged by. -/
def Block.newLevels (b : Block) (seen : Sys2Proof.FbSample) : BitVec 49 :=
  b.accepted b.eng.fb.levels seen.levels seen.held (b.vrCounts seen.cycles)

/-- An accepted edge leaves an axis and its error counters as its own sample does, taken from where the axis stood. -/
theorem edgeTaken_axis (b : Block) (seen : Sys2Proof.FbSample) (at_ : Nat) (ha : a < 32) :
    ∃ x, SameAxis a b x
      ∧ (b.edgeTaken seen at_).axis a = (x.sampleAxis b.eng.fb.levels (b.newLevels seen) a at_).axis a
      ∧ (b.edgeTaken seen at_).word .AXIS_ERR_CNT a
        = (x.sampleAxis b.eng.fb.levels (b.newLevels seen) a at_).word .AXIS_ERR_CNT a := by
  obtain ⟨before, after, x, hbefore, hafter, hx, ht⟩ := AxesChange.foldl_at
    (fun x a => sampleAxis_change b.eng.fb.levels (b.newLevels seen) x a at_) List.nodup_range (List.mem_range.mpr ha) b
  have hsame := ht.sameAxis (by decide) (by decide) ha hafter
  refine ⟨x, hx.sameAxis (by decide) (by decide) ha hbefore, Eq.trans ?_ hsame.axis, Eq.trans ?_ hsame.errors⟩
  · have haxes := congrArg (fun f : Feedback => f.axes[a]?)
      (hallsFollowed_fb (b.fbEdges seen.levels seen.held seen.cycles at_) at_)
    exact axis_congr haxes
  · exact hallsFollowed_words _ _ _ (axisErrors_notMem_hallWords ha) _

end Edges

/-! ### A count forward of a linear axis (R80 to R82, R91) -/

/-- A sample brings a rising edge to a linear PULSE axis that counts forward and is not about to reverse. -/
structure RisesForward (old new : BitVec 49) (a : Nat) (b : Block) : Prop where
  type : b.axisType a = 3
  fixed : b.fld .AXIS_CFG a 10 9 = 0
  upright : b.flag .AXIS_CFG a 8 = false
  linear : b.rotary a = false
  pending : (b.axis a).pending = none
  dir : (b.axis a).dir ≠ some false
  low : levelOf old (b.inA a) = false
  high : levelOf new (b.inA a) = true

/-- The axis a count forward leaves, short of its upper limit. -/
def Axis.forward (x : Axis) : Axis := { x with pos := x.pos + 1, atLo := false, atHi := false, travel := x.travel + 1 }

/-- The axis a count forward leaves at its upper limit. -/
def Axis.blocked (x : Axis) : Axis := { x with atHi := true, travel := x.travel + 1 }

/-- The axis a count forward has stamped. -/
def Axis.stampedForward (x : Axis) (now : Nat) : Axis := { x.stampCount now with dir := some true }

section CountsForward

variable {old new : BitVec 49} {b t : Block} {a at_ : Nat} {x : Axis}

theorem RisesForward.of_same (h : RisesForward old new a b) (hsame : SameAxis a b t) : RisesForward old new a t := by
  have hcfg := hsame.settings .AXIS_CFG (by simp [axisSettings])
  have hbind := hsame.settings .AXIS_BIND (by simp [axisSettings])
  obtain ⟨htype, hfixed, hupright, hlinear, hpending, hdir, hlow, hhigh⟩ := h
  constructor <;> simpa only [Block.axisType, Block.rotary, Block.inA, Block.fld, Block.flag, hcfg, hbind, hsame.axis]

theorem SameAxis.limHi (h : SameAxis a b t) : t.sfld .AXIS_LIM_HI a 31 0 = b.sfld .AXIS_LIM_HI a 31 0 := by
  unfold Block.sfld
  rw [h.settings .AXIS_LIM_HI (by simp [axisSettings])]

theorem stepped_eq (x : Axis) (from_ d : Int) (now : Nat) :
    ∃ steps n, x.stepped from_ d now = { x with steps := steps, stepNo := n } := by
  unfold Axis.stepped
  split
  · exact ⟨_, _, rfl⟩
  · exact ⟨_, _, rfl⟩

/-- A stamp moves no position, ends STOP, and is the latest count. -/
theorem stampCount_shown (x : Axis) (now : Nat) :
    (x.stampCount now).pos = x.pos ∧ (x.stampCount now).stop = false ∧ (x.stampCount now).lastCount = now := by
  unfold Axis.stampCount
  split
  · exact ⟨rfl, rfl, rfl⟩
  · next h => exact ⟨rfl, by simp_all, rfl⟩

/-- A rising edge is one count forward, and no index edge. -/
theorem sampleAxis_of_rises (h : RisesForward old new a b) :
    b.sampleAxis old new a at_ = (b.modAxis a (·.stampedForward (b.now at_))).moveAxis a true at_ := by
  have hcount : b.countAxis a true false at_ = (b.modAxis a (·.stampedForward (b.now at_))).moveAxis a true at_ := by
    have hdir : (b.axis a).dir = none ∨ (b.axis a).dir = some true := by
      have := h.dir
      cases hd : (b.axis a).dir with
      | none => exact .inl rfl
      | some d => cases d <;> simp_all
    unfold Block.countAxis
    simp only [h.pending, h.upright, Bool.bne_false, hdir, if_true]
    rfl
  rw [← hcount]
  unfold Block.sampleAxis
  simp [h.type, h.linear, h.low, h.high, h.fixed, Block.pulseForward]

/-- A count forward on a linear axis short of its upper limit moves it by one. -/
theorem moveAxis_forward (hlinear : b.rotary a = false) (ha : a < b.eng.fb.axes.length)
    (hbelow : (b.axis a).pos < b.sfld .AXIS_LIM_HI a 31 0) :
    ∃ steps n, (b.moveAxis a true at_).axis a = { (b.axis a).forward with steps := steps, stepNo := n } := by
  have hmove (cpr : Nat) (lo : Int) : axisMove false cpr lo (b.sfld .AXIS_LIM_HI a 31 0) (b.axis a) 1
      = ({ b.axis a with pos := (b.axis a).pos + 1, atLo := false, atHi := false }, false) := by
    have h : ¬ b.sfld .AXIS_LIM_HI a 31 0 < (b.axis a).pos + 1 := by omega
    simp [axisMove, h]
  unfold Block.moveAxis
  simp only [hlinear, if_true, hmove, Bool.false_and, Bool.false_eq_true, if_false]
  rw [divideCount_axis, axis_modAxis_same _ ha]
  exact stepped_eq _ _ _ _

/-- At its upper limit or beyond, a linear axis discards a count forward (R82). -/
theorem moveAxis_blocked (hlinear : b.rotary a = false) (ha : a < b.eng.fb.axes.length) (ha32 : a < 32)
    (hlimit : b.sfld .AXIS_LIM_HI a 31 0 ≤ (b.axis a).pos) :
    (b.moveAxis a true at_).axis a = (b.axis a).blocked
      ∧ (b.moveAxis a true at_).fld .AXIS_ERR_CNT a 31 24 = min (b.fld .AXIS_ERR_CNT a 31 24 + 1) 255 := by
  have hmove (cpr : Nat) (lo : Int) : axisMove false cpr lo (b.sfld .AXIS_LIM_HI a 31 0) (b.axis a) 1
      = ({ b.axis a with atHi := true }, true) := by
    have h : b.sfld .AXIS_LIM_HI a 31 0 < (b.axis a).pos + 1 := by omega
    simp [axisMove, h]
  have hword : addr .AXIS_ERR_CNT a ∉ eventWords [33] :=
    feedbackWord_notMem (by simp only [addr, desc]; omega) (by decide)
  unfold Block.moveAxis
  simp only [hlinear, if_true, hmove, Bool.false_and, Bool.false_eq_true, if_false]
  constructor
  · rw [raiseItems_axis]
    exact axis_modAxis_same _ ha
  · rw [fld_congr 31 24 (raiseItems_word _ _ _ _ _ _ _ _ _ _ hword), fld_count_same _ _ _ 1 (by decide)]
    rfl

/-- A rising edge short of the upper limit moves the axis by one. -/
theorem sampleAxis_forward (h : RisesForward old new a b) (ha : a < b.eng.fb.axes.length)
    (hbelow : (b.axis a).pos < b.sfld .AXIS_LIM_HI a 31 0) :
    ∃ steps n, (b.sampleAxis old new a at_).axis a
      = { ((b.axis a).stampedForward (b.now at_)).forward with steps := steps, stepNo := n } := by
  have hstamped := axis_modAxis_same (b := b) (·.stampedForward (b.now at_)) ha
  obtain ⟨hpos, -, -⟩ := stampCount_shown (b.axis a) (b.now at_)
  rw [sampleAxis_of_rises h, ← hstamped]
  refine moveAxis_forward h.linear ((modNth_length _ _ _).symm ▸ ha) ?_
  rw [hstamped]
  exact hpos.trans_lt hbelow

/-- A rising edge at the upper limit is stamped and discarded. -/
theorem sampleAxis_blocked (h : RisesForward old new a b) (ha : a < b.eng.fb.axes.length) (ha32 : a < 32)
    (hlimit : b.sfld .AXIS_LIM_HI a 31 0 ≤ (b.axis a).pos) :
    (b.sampleAxis old new a at_).axis a = ((b.axis a).stampedForward (b.now at_)).blocked
      ∧ (b.sampleAxis old new a at_).fld .AXIS_ERR_CNT a 31 24 = min (b.fld .AXIS_ERR_CNT a 31 24 + 1) 255 := by
  have hstamped := axis_modAxis_same (b := b) (·.stampedForward (b.now at_)) ha
  obtain ⟨hpos, -, -⟩ := stampCount_shown (b.axis a) (b.now at_)
  rw [sampleAxis_of_rises h, ← hstamped]
  refine moveAxis_blocked h.linear ((modNth_length _ _ _).symm ▸ ha) ha32 ?_
  rw [hstamped]
  exact hlimit.trans_eq hpos.symm

end CountsForward

/-! ### AXIS_STOP_TIMEOUT (R91) -/

theorem does_axisStopTimeout {s : State} {a : Fin 32} {at_ : Nat} (hs : s.Sound)
    (hdue : s.blk.fld .AXIS_SPD_CFG a 10 0 * 1000000 ≤ s.blk.now at_ - (s.blk.axis a).lastCount) :
    Does (.axisStopTimeout a at_) s [.feedback] [] (fun t =>
      t.axis a = { s.blk.axis a with hist := [], histPos := [], stop := true, starting := false }
        ∧ KeepsRows a.val s.blk.eng.fb.axes t.eng.fb.axes
        ∧ { t.eng.fb with axes := s.blk.eng.fb.axes } = s.blk.eng.fb) := by
  refine ⟨s.blk.modAxis a (fun x => { x with hist := [], histPos := [], stop := true, starting := false }), ?_,
    modFb_keeps _ _, KeepsWords.of_regs rfl, axis_modAxis_same _ (hs.axis_lt a.isLt), keepsRows_modNth _ _ _, rfl⟩
  show execAxisStopTimeout a at_ s = _
  exact next_if_pos hdue

/-- Settles O15: an axis takes its sample once, from where it stood, and no other axis, no unit and no event changes
    what it shows then. -/
theorem pulseAxisCountsAndStops : Obligations.PulseAxisCountsAndStops := by
  intro s a levels held cycles at_ hs b old edge parts words
  have ha : (a : Nat) < b.eng.fb.axes.length := hs.axis_lt a.isLt
  refine ⟨fun hticking => does_fbEdgeAccepted hticking fun i hi => ?_,
    fun hticking htype hfixed hupright hlinear hpending hdir hlow hhigh => ?_, does_axisStopTimeout hs⟩
  · exact edgeTaken_level b ⟨levels, held, cycles⟩ at_ hi
  · obtain ⟨x, hx, haxis, herrors⟩ := edgeTaken_axis b ⟨levels, held, cycles⟩ at_ a.isLt
    have hrises : RisesForward old (b.newLevels ⟨levels, held, cycles⟩) a b :=
      ⟨htype, hfixed, hupright, hlinear, hpending, hdir, hlow, hhigh⟩
    have hxa : (a : Nat) < x.eng.fb.axes.length := hx.length ▸ ha
    obtain ⟨hpos, hstop, hlast⟩ := stampCount_shown (b.axis a) (b.now at_)
    constructor
    · intro hbelow
      obtain ⟨steps, n, hforward⟩ := sampleAxis_forward (at_ := at_) (hrises.of_same hx) hxa
        (by rw [hx.axis, hx.limHi]; exact hbelow)
      rw [hx.axis, hx.now] at hforward
      refine does_fbEdgeAccepted hticking ?_
      rw [haxis, hforward]
      exact ⟨congrArg (· + 1) hpos, rfl, hstop, hlast⟩
    · intro hlimit
      obtain ⟨hblocked, hcount⟩ := sampleAxis_blocked (at_ := at_) (hrises.of_same hx) hxa a.isLt
        (by rw [hx.axis, hx.limHi]; exact hlimit)
      rw [hx.axis, hx.now] at hblocked
      refine does_fbEdgeAccepted hticking ?_
      rw [haxis, hblocked]
      exact ⟨hpos, rfl, hlast, (fld_congr 31 24 herrors).trans (hcount.trans (by rw [fld_congr 31 24 hx.errors]))⟩

end Sys2Proof.Machine

/-! PROOFS. Feedback (03): samples that axes take, and the serial sensor ports. -/

namespace Sys2Proof.Machine

open Sys2Proof (Word Byte Bytes Sess Hdr Instr)

/-! ### Samples taken by axes (R98, R103) -/

/-- A sample may discard counts at a limit, with event 33, and end a loss of sensor, with event 34. -/
abbrev SamplesChange : List Nat → Block → Block → Prop := AxesChange eventParts [33, 34]

section Samples

variable {b : Block} {a at_ : Nat} {d : Int}

theorem raiseItems_samplesChange {n : Nat} (hn : n ∈ [33, 34]) (l : List Nat) (b : Block) (c : Byte) (k : Nat)
    (units : List Nat) (at_ : Nat) (w : Bool) : SamplesChange l b (b.raiseItems n c k units at_ w) :=
  raiseItems_change (by decide) (List.Subset.refl _) hn b c k units at_ w

theorem jumpAxis_change (b : Block) (a : Nat) (d : Int) (at_ : Nat) : SamplesChange [a] b (b.jumpAxis a d at_) := by
  unfold Block.jumpAxis
  dsimp only
  refine .ite (modAxis_change _ _ _) (.ite (.refl _ _ _ _) ?_)
  exact .ite (modAxis_change _ _ _) (((modAxis_change _ _ _).trans (countErrors_change (by decide) _ _ _ _ _)).trans
    (raiseItems_samplesChange (by decide) _ _ _ _ _ _ _))

/-- A jump forward on a linear axis that stays within the upper limit is made whole. -/
theorem jumpAxis_pos_within (hlinear : b.rotary a = false) (ha : a < b.eng.fb.axes.length) (hd : 0 ≤ d)
    (hwithin : (b.axis a).pos + d ≤ b.sfld .AXIS_LIM_HI a 31 0) :
    ((b.jumpAxis a d at_).axis a).pos = (b.axis a).pos + d := by
  have hstepped (x : Axis) (from_ d : Int) (now : Nat) : (x.stepped from_ d now).pos = x.pos := by
    unfold Axis.stepped
    split <;> rfl
  unfold Block.jumpAxis
  simp only [hlinear, Bool.false_eq_true, if_false]
  split
  · next h => rw [h, Int.add_zero]
  · have hforward : ¬ d < 0 := by omega
    have hwhole : min ((b.axis a).pos + d) (max (b.axis a).pos (b.sfld .AXIS_LIM_HI a 31 0)) = (b.axis a).pos + d := by
      omega
    simp only [hforward, if_false, hwhole, sub_self, Int.natAbs_zero, if_true]
    rw [axis_modAxis_same _ ha, hstepped]

theorem serialSample_change (b : Block) (a p : Nat) (field : Int) (stamp at_ : Nat) :
    SamplesChange [a] b (b.serialSample a p field stamp at_) := by
  unfold Block.serialSample
  exact .ite (modAxis_change _ _ _)
    (((jumpAxis_change _ _ _ _).trans (divideCount_change _ _ _ _)).trans (modAxis_change _ _ _))

/-- What axes of the table count in is among the counts of all axes. -/
theorem axisCounts_subset {S l : List Nat} (hl : ∀ a ∈ l, a < 32) :
    axisCounts S l ⊆ eventWords S ++ (List.range 32).map (fun a => addr .AXIS_ERR_CNT a) :=
  List.append_subset.mpr ⟨List.Subset.trans (List.map_subset _ fun a ha => List.mem_range.mpr (hl a ha))
    (List.subset_append_right _ _), List.subset_append_left _ _⟩

/-- The same change made to each axis of a list. -/
theorem foldl_modAxis_axis (f : Axis → Axis) {l : List Nat} (hl : l.Nodup) (ha : a ∈ l)
    (hlen : a < b.eng.fb.axes.length) :
    (l.foldl (fun acc e => acc.modAxis e f) b).axis a = f (b.axis a) := by
  obtain ⟨before, after, x, hbefore, hafter, hx, ht⟩ :=
    AxesChange.foldl_at (P := []) (S := []) (fun x e => modAxis_change x e f) hl ha b
  rw [ht.axis hafter, axis_modAxis_same f (hx.length ▸ hlen), hx.axis hbefore]

theorem foldl_modAxis_change (f : Axis → Axis) (l : List Nat) (b : Block) :
    SamplesChange l b (l.foldl (fun acc e => acc.modAxis e f) b) :=
  .foldl (fun x e => modAxis_change x e f) l b

end Samples

/-! ### The serial sensor ports (R96, R97, R99) -/

/-- A port with the word of a good frame. -/
def SPort.taken (x : SPort) (word stamp : Nat) : SPort :=
  { x with word := BitVec.ofNat 32 word, good := true, lost := false, badRun := 0, stamp := stamp }

/-- A port with the sync length and the status nibble of a SENT frame, and the slow message they complete. -/
def SPort.withStatus (x : SPort) (sync status : Nat) (slowChannel : Bool) : SPort :=
  let slow := if slowChannel then (status :: x.slow).take 18 else []
  let y := { x with lastSync := some sync, status := status, slow := slow }
  match slowMessage slow with
  | some (kind, id, data) => { y with slowKind := kind, slowId := id, slowData := data }
  | none => y

theorem withStatus_status (x : SPort) (sync status : Nat) (slowChannel : Bool) :
    (x.withStatus sync status slowChannel).status = status := by
  unfold SPort.withStatus
  dsimp only
  split <;> rfl

section SerialPorts

variable {s : State} {b t : Block} {p : Fin 4} {at_ : Nat} {i : Instr} {f : SPort → SPort}

theorem portAxes_lt {p a : Nat} (ha : a ∈ b.portAxes p) : a < 32 := List.mem_range.mp (List.mem_of_mem_filter ha)

theorem portAxes_nodup (b : Block) (p : Nat) : (b.portAxes p).Nodup := List.nodup_range.filter _

theorem modPort_id (b : Block) (p : Nat) : b.modPort p id = b :=
  congrArg (fun l => b.modFb fun x => { x with ports := l }) (List.modify_id p b.eng.fb.ports)

theorem modPort_keeps (b : Block) (p : Nat) (f : SPort → SPort) : Keeps [.feedback] b (b.modPort p f) := modFb_keeps _ _

/-- Samples of axes leave the ports as they were. -/
theorem AxesChange.ports {P : List BlockPart} {S l : List Nat} (h : AxesChange P S l b t) :
    t.eng.fb.ports = b.eng.fb.ports := by
  have hports := congrArg Feedback.ports h.rest
  exact hports

/-- The frame of a port that has changed, with samples of axes after it. -/
theorem SamplesChange.port {l : List Nat} (hp : p < b.eng.fb.ports.length) (h : SamplesChange l (b.modPort p f) t) :
    t.port p = f (b.port p) ∧ KeepsRows p b.eng.fb.ports t.eng.fb.ports := by
  constructor
  · rw [← port_modPort_same f hp]
    unfold Block.port
    rw [h.ports]
  · rw [h.ports]
    exact keepsRows_modNth _ _ _

theorem goodFrame_change (b : Block) (p word stamp at_ : Nat) :
    SamplesChange (b.portAxes p) (b.modPort p (·.taken word stamp)) (b.goodFrame p word stamp at_) := by
  have hsamples (x : Block) (a : Nat) := serialSample_change x a p (x.portField p word) stamp at_
  have hfold := AxesChange.foldl hsamples (b.portAxes p) (b.modPort p (·.taken word stamp))
  unfold Block.goodFrame
  exact .ite (hfold.trans (raiseItems_samplesChange (by decide) _ _ _ _ _ _ _)) hfold

/-- A good frame gives its port the word, and changes no other port. -/
theorem does_goodFrame {word stamp : Nat} (hs : s.Sound)
    (hexec : exec i s = .next { s with blk := (s.blk.modPort p f).goodFrame p word stamp at_ }) :
    Does i s (.feedback :: eventParts) (eventWords [33, 34] ++ (List.range 32).map (fun a => addr .AXIS_ERR_CNT a))
      (fun t => t.port p = (f (s.blk.port p)).taken word stamp ∧ KeepsRows p s.blk.eng.fb.ports t.eng.fb.ports) := by
  have hchange := goodFrame_change (s.blk.modPort p f) p word stamp at_
  rw [modPort_modPort] at hchange
  exact ⟨_, hexec, ((modPort_keeps _ _ _).mono (by simp)).trans hchange.keeps,
    KeepsWords.trans (KeepsWords.of_regs rfl) (hchange.words.mono (axisCounts_subset fun _ => portAxes_lt)),
    SamplesChange.port (hs.port_lt p) hchange⟩

/-! SENT frames -/

/-- A nibble of a frame at its nominal length is measured as its value and 12 ticks. -/
theorem measured_nibble {tick : Nat} (htick : 0 < tick) (v : Nat) :
    ((v + 12) * tick * 112 + 56 * tick) / (2 * (56 * tick)) = v + 12 := by
  rw [show (v + 12) * tick * 112 + 56 * tick = 56 * tick + (v + 12) * (2 * (56 * tick)) by ring,
    Nat.add_mul_div_right _ _ (by omega), Nat.div_eq_of_lt (by omega), Nat.zero_add]

theorem measured_nibbles {tick : Nat} (htick : 0 < tick) (vals : List Nat) :
    (vals.map (fun v => (v + 12) * tick)).map (fun n => (n * 112 + 56 * tick) / (2 * (56 * tick)))
      = vals.map (fun v => v + 12) := by
  simp only [List.map_map, Function.comp_def, measured_nibble htick]

/-- Nibbles of four bits are within the lengths that a frame allows. -/
theorem measured_allowed {vals : List Nat} {n sync : Nat} (hlength : vals.length = n + 2) (hvals : ∀ v ∈ vals, v < 16)
    (hsync : 0 < sync) :
    ((vals.map (fun v => v + 12)).length == n + 2
      && (vals.map (fun v => v + 12)).all (fun t => 12 ≤ t && t ≤ 27) && sync != 0) = true := by
  have hrange : ∀ v ∈ vals, 12 ≤ v + 12 ∧ v + 12 ≤ 27 := fun v hv => by
    have := hvals v hv
    omega
  simpa [hlength, Nat.ne_of_gt hsync] using hrange

/-- A frame of nominal lengths with the right CRC gives its port the data nibbles and the status (R96). -/
theorem exec_sentFrame {tick status crc : Nat} {data : List Nat} (hmode : s.blk.fld .SP_CFG p 1 0 = 1)
    (htick : s.blk.fld .SP_CFG p 31 24 * 500 = tick) (hpos : 0 < tick)
    (hlength : data.length = s.blk.fld .SP_CFG p 10 8)
    (hnibbles : ∀ v ∈ status :: crc :: data, v < 16) (hcrc : crc = sentCrc (s.blk.flag .SP_CFG p 5) data)
    (hsync : (s.blk.port p).lastSync = none ∨ (s.blk.port p).lastSync = some (56 * tick)) :
    exec (.sentFrame p (56 * tick) ((status :: data ++ [crc]).map (fun v => (v + 12) * tick)) at_) s = .next { s with
      blk := (s.blk.modPort p (·.withStatus (56 * tick) status (s.blk.flag .SP_CFG p 6))).goodFrame p
        (data.foldl (fun acc d => acc * 16 + d) 0)
        (s.blk.now at_ - (56 * tick + ((status :: data ++ [crc]).map (fun v => (v + 12) * tick)).sum)) at_ } := by
  have hnominal : 56 * s.blk.fld .SP_CFG p 31 24 * 500 = 56 * tick := htick ▸ Nat.mul_assoc _ _ _
  have hlong : 4 * (56 * tick) ≤ 5 * (56 * tick) := by omega
  have hshort : 3 * (56 * tick) ≤ 4 * (56 * tick) := by omega
  have hsame : 64 * (max (56 * tick) (56 * tick) - min (56 * tick) (56 * tick)) ≤ 56 * tick := by omega
  have hallowed := measured_allowed (vals := status :: data ++ [crc]) (sync := 56 * tick) (by simpa using hlength)
    (fun v hv => hnibbles v (by
      simp only [List.cons_append, List.mem_cons, List.mem_append, List.not_mem_nil, or_false] at hv ⊢
      tauto)) (by omega)
  have hvals : ((status :: data ++ [crc]).map (fun v => v + 12)).map (fun t => t - 12) = status :: data ++ [crc] := by
    simp [Function.comp_def]
  have hdata : ((status :: data ++ [crc]).drop 1).take (s.blk.fld .SP_CFG p 10 8) = data := by
    rw [← hlength]
    simp
  show execSentFrame p (56 * tick) _ at_ s = _
  unfold execSentFrame lift
  rcases hsync with hlast | hlast
  all_goals
    simp only [hmode, ne_eq, not_true_eq_false, if_false, hnominal, measured_nibbles hpos, hlast, hlong, hshort, hsame,
      decide_true, Bool.and_true, hallowed, Bool.not_true, Bool.or_false, Bool.false_eq_true, hvals, hdata,
      List.getLastD_concat, ← hcrc]
    rw [modPort_modPort]
    rfl

/-! SSI frames -/

/-- An SSI frame without parity, the line high before its clock, gives its port the bits read (R97). -/
theorem exec_ssiFrame_good {raw : Word} (hmode : s.blk.fld .SP_CFG p 1 0 = 2) (hparity : s.blk.fld .SP_CFG p 4 3 = 0) :
    exec (.ssiFrame p true raw) s = .next { s with
      blk := (s.blk.modPort p id).goodFrame p
        (if s.blk.flag .SP_CFG p 2 then grayToBinary 32 (raw.toNat % 2 ^ s.blk.fld .SP_CFG p 21 16)
          else raw.toNat % 2 ^ s.blk.fld .SP_CFG p 21 16)
        (s.blk.now 99000 - s.blk.fld .SP_CFG p 21 16 * 20 * s.blk.fld .SP_CFG p 31 24) 99000 } := by
  show execSsiFrame p true raw s = _
  simp [execSsiFrame, lift, hmode, hparity, modPort_id]

/-- An SSI frame with the line low before its clock is bad, and short of BAD_MAX only counted (R97, R99). -/
theorem exec_ssiFrame_bad {raw : Word} (hmode : s.blk.fld .SP_CFG p 1 0 = 2)
    (hfew : (s.blk.port p).badRun + 1 < s.blk.fld .SP_FIELD p 23 16) (hp : p < s.blk.eng.fb.ports.length) :
    exec (.ssiFrame p false raw) s = .next { s with
      blk := (s.blk.count .SP_ERR p 23 16).modPort p (fun x => { x with badRun := x.badRun + 1 }) } := by
  have hrun := port_modPort_same (b := s.blk.count .SP_ERR p 23 16) (fun x => { x with badRun := x.badRun + 1 }) hp
  have hstays : ¬ s.blk.fld .SP_FIELD p 23 16
      ≤ (((s.blk.count .SP_ERR p 23 16).modPort p (fun x => { x with badRun := x.badRun + 1 })).port p).badRun := by
    rw [hrun]
    exact Nat.not_le.mpr hfew
  show execSsiFrame p false raw s = _
  simp only [execSsiFrame, lift, hmode, ne_eq, not_true_eq_false, if_false, Bool.not_false, Bool.true_or, if_true,
    Block.badFrame, Bool.false_eq_true, hstays]

theorem does_ssiFrame_bad {raw : Word} (hs : s.Sound) (hmode : s.blk.fld .SP_CFG p 1 0 = 2)
    (hfew : (s.blk.port p).badRun + 1 < s.blk.fld .SP_FIELD p 23 16) :
    Does (.ssiFrame p false raw) s [.feedback] [addr .SP_ERR p] (fun t =>
      t.port p = { s.blk.port p with badRun := (s.blk.port p).badRun + 1 }
        ∧ t.fld .SP_ERR p 23 16 = min (s.blk.fld .SP_ERR p 23 16 + 1) 255) :=
  ⟨_, exec_ssiFrame_bad hmode hfew (hs.port_lt p),
    ((count_keeps _ _ _ _ _ _).mono (List.nil_subset _)).trans (modPort_keeps _ _ _),
    (count_words _ _ _ _ _ _).trans (KeepsWords.of_regs rfl), port_modPort_same _ (hs.port_lt p),
    fld_count_same s.blk .SP_ERR p 1 (by decide)⟩

/-! A port without good frames -/

/-- The count of losses of a port is no setting of an axis. -/
theorem portAxes_countLosses (b : Block) (p : Fin 4) : (b.count .SP_ERR p 31 24).portAxes p = b.portAxes p := by
  have hword {r : Reg} {a : Nat} (hr : addr r a % 64 < 20) : (b.count .SP_ERR p 31 24).word r a = b.word r a :=
    word_setWord_ne _ _ _ _ _ _ _ _ fun h => by
      have hplace : addr .SP_ERR p % 64 = 20 := by simp only [addr, desc]; omega
      omega
  refine List.filter_congr fun a _ => ?_
  simp only [Block.axisType, Block.inA, Block.fld, hword (r := .AXIS_CFG) (a := a) (by simp only [addr, desc]; omega),
    hword (r := .AXIS_BIND) (a := a) (by simp only [addr, desc]; omega)]

/-- The port and its axes are lost (R99). -/
theorem portLost_change (b : Block) (hlost : (b.port p).lost = false) :
    SamplesChange (b.portAxes p) (b.modPort p (fun x => { x with lost := true })) (b.portLost p at_)
      ∧ ∀ a ∈ b.portAxes p, a < b.eng.fb.axes.length →
        (b.portLost p at_).axis a = { b.axis a with sensorLost := true } := by
  unfold Block.portLost
  simp only [hlost, Bool.false_eq_true, if_false]
  refine ⟨(foldl_modAxis_change _ _ _).trans (raiseItems_samplesChange (by decide) _ _ _ _ _ _ _), fun a ha hlen => ?_⟩
  rw [raiseItems_axis]
  exact foldl_modAxis_axis _ (portAxes_nodup b p) ha hlen

theorem does_sportLossTimeout (hs : s.Sound) (hmode : s.blk.fld .SP_CFG p 1 0 ≠ 0) (hlost : (s.blk.port p).lost = false)
    (hdue : s.blk.fld .SP_FIELD p 31 24 * 1000000 ≤ s.blk.now at_ - (s.blk.port p).stamp) :
    Does (.sportLossTimeout p at_) s (.feedback :: eventParts)
      (eventWords [33, 34] ++ (List.range 32).map (fun a => addr .AXIS_ERR_CNT a) ++ [addr .SP_ERR p]) (fun t =>
        t.port p = { s.blk.port p with lost := true } ∧ (∀ a ∈ s.blk.portAxes p, (t.axis a).sensorLost = true)
          ∧ (∀ a < 32, a ∉ s.blk.portAxes p → t.axis a = s.blk.axis a)) := by
  have haxes := portAxes_countLosses s.blk p
  obtain ⟨hchange, hvalue⟩ := portLost_change (at_ := at_) (s.blk.count .SP_ERR p 31 24) hlost
  rw [haxes] at hchange hvalue
  refine ⟨(s.blk.count .SP_ERR p 31 24).portLost p at_, ?_, ?_, ?_, ?_, fun a ha => ?_,
    fun a _ ha => hchange.axis ha⟩
  · show execSportLossTimeout p at_ s = _
    exact next_if_pos ⟨hmode, by rw [hlost]; rfl, hdue⟩
  · exact (((count_keeps _ _ _ _ _ _).mono (List.nil_subset _)).trans ((modPort_keeps _ _ _).mono (by simp))).trans
      hchange.keeps
  · exact ((count_words _ _ _ _ _ _).mono (List.subset_append_right _ _)).trans (KeepsWords.trans
      (KeepsWords.of_regs rfl) (hchange.words.mono (List.Subset.trans (axisCounts_subset fun _ => portAxes_lt)
        (List.subset_append_left _ _))))
  · exact (SamplesChange.port (b := s.blk.count .SP_ERR p 31 24) (hs.port_lt p) hchange).1
  · rw [hvalue a ha (hs.axis_lt (portAxes_lt ha))]

end SerialPorts

/-- Settles O16: a good frame changes its port first, and the samples that its axes take leave the port so. -/
theorem serialPortFrames : Obligations.SerialPortFrames := by
  intro s p at_ hs b parts words good
  refine ⟨fun status crc data hmode hpos hlength hnibbles hcrc hsync => ?_,
    fun raw hmode hparity => ⟨?_, does_ssiFrame_bad hs hmode⟩, does_sportLossTimeout hs⟩
  · refine (does_goodFrame hs (exec_sentFrame hmode rfl hpos hlength hnibbles hcrc hsync)).imp fun t ht => ?_
    obtain ⟨hport, hothers⟩ := ht
    simp only [good, hport]
    exact ⟨⟨rfl, rfl, rfl, rfl, rfl, hothers⟩, withStatus_status _ _ _ _⟩
  · refine (does_goodFrame hs (exec_ssiFrame_good hmode hparity)).imp fun t ht => ?_
    obtain ⟨hport, hothers⟩ := ht
    simp only [good, hport]
    exact ⟨rfl, rfl, rfl, rfl, rfl, hothers⟩

end Sys2Proof.Machine

/-! PROOFS. Feedback (03): tractor speed messages. -/

namespace Sys2Proof.Machine

open Sys2Proof (Word Byte Bytes Sess Hdr Instr)

/-! ### A message taken by one axis (R103) -/

section SpeedSamples

variable {b t : Block} {a speed distance at_ : Nat} {ground forward : Bool}

theorem msgAxes_lt (ha : a ∈ b.msgAxes ground) : a < 32 := List.mem_range.mp (List.mem_of_mem_filter ha)

theorem msgAxes_nodup (b : Block) (ground : Bool) : (b.msgAxes ground).Nodup := List.nodup_range.filter _

theorem msgSample_change (b : Block) (a speed distance : Nat) (direction : BitVec 2) (at_ : Nat) :
    SamplesChange [a] b (b.msgSample a speed distance direction at_) :=
  ((jumpAxis_change _ _ _ _).trans (divideCount_change _ _ _ _)).trans (modAxis_change _ _ _)

/-- The direction of a message that is forward or reverse. -/
def msgDirection (forward : Bool) : BitVec 2 := if forward then 1 else 0

/-- The increase of the distance of a message over the last one that an axis has taken. -/
def msgIncrease (x : Axis) (distance : Nat) : Int := ((distance : Int) - x.prevField) % distanceRange

/-- Axis `y` shows a message of a known direction, taken at the instant `now`. -/
structure ShowsMessage (y : Axis) (speed distance : Nat) (forward : Bool) (now : Nat) : Prop where
  msgSpeed : y.msgSpeed = (if forward then 1 else -1) * (speed * 1000)
  dir : y.dir = some forward
  lastMsg : y.lastMsg = now
  sensorLost : y.sensorLost = false
  dirUnknown : y.dirUnknown = false
  prevField : y.prevField = distance

/-- An axis that is not inverted takes a message of a known direction. -/
theorem msgSample_shows (hupright : b.flag .AXIS_CFG a 8 = false) (ha : a < b.eng.fb.axes.length) :
    ShowsMessage ((b.msgSample a speed distance (msgDirection forward) at_).axis a)
      speed distance forward (b.now at_) := by
  have hjumped (d : Int) (n : Nat) : a < ((b.jumpAxis a d at_).divideCount a n at_).eng.fb.axes.length :=
    ((jumpAxis_change b a d at_).trans (divideCount_change _ _ _ _)).length.symm ▸ ha
  have hreverse : (msgDirection forward == 0) = !forward := by cases forward <;> decide
  have hforward : (msgDirection forward == 1) = forward := by cases forward <;> decide
  unfold Block.msgSample
  simp only [hupright, hreverse, hforward, Bool.not_or_self, if_true, Bool.bne_false]
  rw [axis_modAxis_same _ (hjumped _ _)]
  constructor <;> rfl

/-- On a linear axis sampled before, the increase of the distance moves the position up to the upper limit. -/
theorem msgSample_pos {direction : BitVec 2} (hupright : b.flag .AXIS_CFG a 8 = false) (ha : a < b.eng.fb.axes.length)
    (hsampled : (b.axis a).sampled = true) (hlinear : b.rotary a = false)
    (hwithin : (b.axis a).pos + msgIncrease (b.axis a) distance ≤ b.sfld .AXIS_LIM_HI a 31 0) :
    ((b.msgSample a speed distance direction at_).axis a).pos = (b.axis a).pos + msgIncrease (b.axis a) distance := by
  have hjumped (d : Int) (n : Nat) : a < ((b.jumpAxis a d at_).divideCount a n at_).eng.fb.axes.length :=
    ((jumpAxis_change b a d at_).trans (divideCount_change _ _ _ _)).length.symm ▸ ha
  have hpositive : 0 ≤ msgIncrease (b.axis a) distance := Int.emod_nonneg _ (by decide)
  unfold Block.msgSample
  simp only [hupright, hsampled, if_true, Bool.false_eq_true, if_false]
  rw [axis_modAxis_same _ (hjumped _ _)]
  exact jumpAxis_pos_within hlinear ha hpositive hwithin

end SpeedSamples

/-! ### TRACTOR_SPEED_MSG and MSG_TIMEOUT (R103) -/

/-- The block with a message taken by its axes, and its machine direction. -/
def Block.speedTaken (b : Block) (ground : Bool) (speed distance : Nat) (forward : Bool) (at_ : Nat) : Block :=
  ((b.msgAxes ground).foldl (fun acc a => acc.msgSample a speed distance (msgDirection forward) at_) b).modFb
    (fun x => { x with msgForward := some forward })

section SpeedMessages

variable {s : State} {b : Block} {ground forward : Bool} {source : Byte}
  {speed : BitVec 16} {distance : Word} {at_ : Nat}

theorem exec_tractorSpeedMsg (hon : s.blk.flag .CANB_CFG 0 0 = true)
    (hsource : s.blk.fld .MSG_CFG 0 23 16 = 255 ∨ s.blk.fld .MSG_CFG 0 23 16 = source.toNat)
    (hspeed : speed.toNat < 0xFE00) :
    exec (.tractorSpeedMsg ground source speed distance (msgDirection forward) at_) s = .next { s with
      blk := (s.blk.speedTaken ground speed.toNat distance.toNat forward at_).raiseItems 34 2 0
        (((s.blk.msgAxes ground).filter (fun a => (s.blk.axis a).sensorLost)).map unitAxis) at_
        (s.blk.speedTaken ground speed.toNat distance.toNat forward at_).sensorsLost } := by
  have htaken : ¬ ((!s.blk.flag .CANB_CFG 0 0) = true
      ∨ (s.blk.fld .MSG_CFG 0 23 16 ≠ 255 ∧ s.blk.fld .MSG_CFG 0 23 16 ≠ source.toNat) ∨ 0xFE00 ≤ speed.toNat) := by
    rw [hon]
    rcases hsource with h | h <;> simp [h, hspeed]
  show execTractorSpeedMsg ground source speed distance (msgDirection forward) at_ s = _
  unfold execTractorSpeedMsg lift
  simp only [htaken, if_false]
  cases forward <;> rfl

theorem exec_tractorSpeedMsg_off {direction : BitVec 2} (hoff : s.blk.flag .CANB_CFG 0 0 = false) :
    exec (.tractorSpeedMsg ground source speed distance direction at_) s = .next s := by
  show execTractorSpeedMsg ground source speed distance direction at_ s = _
  simp [execTractorSpeedMsg, lift, hoff]

/-- An axis bound to a message takes it once, from where it stood. -/
theorem speedTaken_axis {a n m : Nat} (ha : a ∈ b.msgAxes ground) :
    ∃ x, SameAxis a b x
      ∧ (b.speedTaken ground n m forward at_).axis a = (x.msgSample a n m (msgDirection forward) at_).axis a := by
  obtain ⟨before, after, x, hbefore, hafter, hx, ht⟩ := AxesChange.foldl_at
    (fun x a => msgSample_change x a n m (msgDirection forward) at_) (msgAxes_nodup b ground) ha b
  exact ⟨x, hx.sameAxis (by decide) (by decide) (msgAxes_lt ha) hbefore, ht.axis hafter⟩

theorem speedTaken_change (b : Block) (ground : Bool) (n m : Nat) (forward : Bool) (at_ : Nat) :
    SamplesChange (b.msgAxes ground) b
      ((b.msgAxes ground).foldl (fun acc a => acc.msgSample a n m (msgDirection forward) at_) b) :=
  .foldl (fun x a => msgSample_change x a n m (msgDirection forward) at_) _ b

theorem speedTaken_keeps (b : Block) (ground : Bool) (n m : Nat) (forward : Bool) (at_ : Nat) :
    Keeps (.feedback :: eventParts) b (b.speedTaken ground n m forward at_) :=
  (speedTaken_change b ground n m forward at_).keeps.trans ((modFb_keeps _ _).mono (by simp))

theorem speedTaken_words (b : Block) (ground : Bool) (n m : Nat) (forward : Bool) (at_ : Nat) :
    KeepsWords (eventWords [33, 34] ++ (List.range 32).map (fun a => addr .AXIS_ERR_CNT a)) b
      (b.speedTaken ground n m forward at_) :=
  ((speedTaken_change b ground n m forward at_).words.mono (axisCounts_subset fun _ => msgAxes_lt)).trans
    (KeepsWords.of_regs rfl)

/-- What a message that is taken leaves. -/
structure MessageTaken (b t : Block) (ground : Bool) (n m : Nat) (forward : Bool) (at_ : Nat) : Prop where
  machine : t.eng.fb.msgForward = some forward
  others : ∀ a ∉ b.msgAxes ground, t.axis a = b.axis a
  shows : ∀ a ∈ b.msgAxes ground, b.flag .AXIS_CFG a 8 = false → ShowsMessage (t.axis a) n m forward (b.now at_)
  pos : ∀ a ∈ b.msgAxes ground, b.flag .AXIS_CFG a 8 = false → (b.axis a).sampled = true → b.rotary a = false →
    (b.axis a).pos + msgIncrease (b.axis a) m ≤ b.sfld .AXIS_LIM_HI a 31 0 →
    (t.axis a).pos = (b.axis a).pos + msgIncrease (b.axis a) m

theorem speedTaken_taken (hs : b.Sound) (ground : Bool) (n m : Nat) (forward : Bool) (at_ : Nat) :
    MessageTaken b (b.speedTaken ground n m forward at_) ground n m forward at_ where
  machine := rfl
  others a ha := (speedTaken_change b ground n m forward at_).axis ha
  shows a ha hupright := by
    obtain ⟨x, hx, haxis⟩ := speedTaken_axis (forward := forward) (at_ := at_) (n := n) (m := m) ha
    have hcfg := hx.settings .AXIS_CFG (by simp [axisSettings])
    rw [haxis, ← hx.now]
    exact msgSample_shows (by rw [Block.flag, hcfg]; exact hupright) (hx.length.symm ▸ hs.axis_lt (msgAxes_lt ha))
  pos a ha hupright hsampled hlinear hwithin := by
    obtain ⟨x, hx, haxis⟩ := speedTaken_axis (forward := forward) (at_ := at_) (n := n) (m := m) ha
    have hcfg := hx.settings .AXIS_CFG (by simp [axisSettings])
    rw [← hx.axis] at hsampled hwithin ⊢
    rw [← hx.limHi] at hwithin
    rw [haxis]
    exact msgSample_pos (by rw [Block.flag, hcfg]; exact hupright)
      (hx.length.symm ▸ hs.axis_lt (msgAxes_lt ha)) hsampled
      (by rw [Block.rotary, Block.flag, hcfg]; exact hlinear) hwithin

theorem MessageTaken.raiseItems {t : Block} {n m : Nat} (h : MessageTaken b t ground n m forward at_) (c : Byte)
    (k e : Nat) (units : List Nat) (when_ : Nat) (w : Bool) :
    MessageTaken b (t.raiseItems e c k units when_ w) ground n m forward at_ where
  machine := by rw [raiseItems_eng]; exact h.machine
  others a ha := by rw [raiseItems_axis]; exact h.others a ha
  shows a ha := by rw [raiseItems_axis]; exact h.shows a ha
  pos a ha := by rw [raiseItems_axis]; exact h.pos a ha

theorem does_tractorSpeedMsg (hs : s.Sound) (hon : s.blk.flag .CANB_CFG 0 0 = true)
    (hsource : s.blk.fld .MSG_CFG 0 23 16 = 255 ∨ s.blk.fld .MSG_CFG 0 23 16 = source.toNat)
    (hspeed : speed.toNat < 0xFE00) :
    Does (.tractorSpeedMsg ground source speed distance (msgDirection forward) at_) s (.feedback :: eventParts)
      (eventWords [33, 34] ++ (List.range 32).map (fun a => addr .AXIS_ERR_CNT a))
      (fun t => MessageTaken s.blk t ground speed.toNat distance.toNat forward at_) :=
  ⟨_, exec_tractorSpeedMsg hon hsource hspeed,
    (speedTaken_keeps _ _ _ _ _ _).trans ((raiseItems_keeps _ _ _ _ _ _ _).mono (List.subset_cons_self _ _)),
    (speedTaken_words _ _ _ _ _ _).trans ((raiseItems_words _ _ _ _ _ _ _).mono
      (List.Subset.trans (eventWords_mono (by decide)) (List.subset_append_left _ _))),
    (speedTaken_taken hs _ _ _ _ _).raiseItems _ _ _ _ _ _⟩

/-- The axis of a message is due to lose it (R103). -/
def Block.msgOverdue (b : Block) (at_ a : Nat) : Bool :=
  !(b.axis a).sensorLost && Decidable.decide (b.fld .MSG_CFG 0 15 0 * 1000000 ≤ b.now at_ - (b.axis a).lastMsg)

/-- The axes that lose a message. -/
def Block.msgLost (b : Block) (ground : Bool) (at_ : Nat) : List Nat := (b.msgAxes ground).filter (b.msgOverdue at_)

theorem mem_msgLost {a : Nat} :
    a ∈ b.msgLost ground at_ ↔ a ∈ b.msgAxes ground ∧ (b.axis a).sensorLost = false
      ∧ b.fld .MSG_CFG 0 15 0 * 1000000 ≤ b.now at_ - (b.axis a).lastMsg := by
  simp [Block.msgLost, Block.msgOverdue]

theorem exec_msgTimeout :
    exec (.msgTimeout ground at_) s = .next { s with
      blk := ((s.blk.msgLost ground at_).foldl (fun acc a => acc.modAxis a (fun x => { x with
        sensorLost := true, msgSpeed := 0 })) s.blk).raiseItems
        34 1 0 ((s.blk.msgLost ground at_).map unitAxis) at_ } := rfl

theorem does_msgTimeout (hs : s.Sound) :
    Does (.msgTimeout ground at_) s (.feedback :: eventParts)
      (eventWords [33, 34] ++ (List.range 32).map (fun a => addr .AXIS_ERR_CNT a)) (fun t => ∀ a < 32, t.axis a =
        if a ∈ s.blk.msgLost ground at_ then { s.blk.axis a with sensorLost := true, msgSpeed := 0 }
        else s.blk.axis a) := by
  have hlost (a : Nat) (ha : a ∈ s.blk.msgLost ground at_) : a < 32 := msgAxes_lt (List.mem_of_mem_filter ha)
  have hfold := foldl_modAxis_change (fun x => { x with sensorLost := true, msgSpeed := 0 })
    (s.blk.msgLost ground at_) s.blk
  have hchange := hfold.trans (raiseItems_samplesChange (n := 34) (by decide) _ _ 1 0
    ((s.blk.msgLost ground at_).map unitAxis) at_ false)
  refine ⟨_, exec_msgTimeout, hchange.keeps, hchange.words.mono (axisCounts_subset hlost), fun a ha => ?_⟩
  split
  · next hmem =>
    rw [raiseItems_axis]
    exact foldl_modAxis_axis _ ((msgAxes_nodup _ _).filter _) hmem (hs.axis_lt ha)
  · next hmem => exact hchange.axis hmem

end SpeedMessages

/-- Settles O17: each axis bound to a message takes it once, from where the last one left it. -/
theorem tractorSpeedMessages : Obligations.TractorSpeedMessages := by
  intro s ground at_ hs b parts words
  refine ⟨fun source speed distance forward hon hsource hspeed => ?_,
    fun source speed distance direction hoff => does_nothing (exec_tractorSpeedMsg_off hoff), ?_⟩
  · refine (does_tractorSpeedMsg hs hon hsource hspeed).imp fun t ht => ?_
    refine ⟨ht.machine, fun a _ ha => ht.others a ha, fun a ha hupright => ?_⟩
    obtain ⟨hmsg, hdir, hlast, hsensor, hknown, hdistance⟩ := ht.shows a ha hupright
    exact ⟨hmsg, hdir, hlast, hsensor, hknown, hdistance, ht.pos a ha hupright⟩
  · refine (does_msgTimeout hs).imp fun t ht a ha => (ht a ha).trans ?_
    simp only [mem_msgLost]
    rfl

end Sys2Proof.Machine
